-- ==== Sys2Proof/Word.lean ====
section
/-! DEFINITION. The byte and word types of the model and the container every keyed store of the machine uses. -/

namespace Sys2Proof

/-- One byte. -/
abbrev Byte := BitVec 8

/-- A run of bytes, offset 0 first (00_scope R7). -/
abbrev Bytes := List Byte

/-- A keyed store: pairs of a number and a value, numbers strictly rising (the canonical form; `Map.wf` in
`Machine/Ops.lean`), so that equal stores are equal data. -/
abbrev Map (α : Type) := List (Nat × α)

end Sys2Proof
end

