-- ==== Sys2Proof/Syntax.lean ====
section
/-! DEFINITION. The commands the block takes, one constructor for each row of spec/opcode_table.json, and the types of
their operands.  A command from a ring carries the bytes of its slots and the bytes that its DMA reads return; an event
carries what the spec says reaches the module with it (a packet, a stage's output, a sensor's value). -/

namespace Sys2Proof

/-- A command of a queue pair (15 R574, R575).  `qp` is 0 to 16,383, or 0x4000 for the admin queue pair of the service
physical function and 0x4001 for that of the management physical function (15 R556).  `slots` holds the command's
64-byte slots; `data` the bytes read at addr0, `stop` those read at stop_addr (15 R576). -/
structure HostCmd where
  qp    : Nat
  slots : Bytes
  data  : Bytes := []
  stop  : Bytes := []
  /-- Bound input tensors of a RUN as read from host memory: tensor ID and bytes (15 R580). -/
  inputs : List (Nat × Bytes) := []
deriving DecidableEq, Repr

/-- What a failed DMA read was reading (15 R555): a queue pair's ring, or host memory for the command of a tag. -/
inductive DmaTarget where
  | ring (qp : Nat)
  | command (qp tag : Nat)
deriving DecidableEq, Repr

/-- How a DMA read of host memory failed (15 R555). -/
inductive DmaError where
  | unsupportedRequest | completerAbort | timeout | poisoned
deriving DecidableEq, Repr

/-- A relay or start message (08 R283). -/
structure RelayMsg where
  dst : Nat
  src : Nat
  widened : Bool
  tag : Nat
  walk : Nat
  seq : Nat
deriving DecidableEq, Repr

/-- A candidate entry as offered: local ID and distance (08 R269). -/
structure Cand where
  id   : Nat
  dist : Nat
deriving DecidableEq, Repr

/-- An offer batch (08 R286). -/
structure OfferMsg where
  src : Nat
  widened : Bool
  tag : Nat
  walk : Nat
  hop : Nat
  entries : List Cand
deriving DecidableEq, Repr

/-- An end report (08 R287). -/
structure EndMsg where
  src : Nat
  widened : Bool
  reason : Nat
  tag : Nat
  walk : Nat
  hops : Nat
  relays : Nat
  bad : Nat
  offered : Nat
deriving DecidableEq, Repr

/-- What reaches an operation of a context besides the tensors its own State holds: for the operations of other chapters
the ports answer (16 R616 for ALLREDUCE), the dynamic extents, and faults of the memory it reads (12 R444, R447). -/
structure OpEnv where
  poison  : Bool := false
  tagBad  : Bool := false
  /-- the entry of the member whose own memory the refused access was to, none for other memory (14 R546) -/
  tagMember : Option Nat := none
  extentBad : Bool := false
  brixjoLines : Nat := 0
  /-- lines moved of members' own pages and request memory, by entry (14 R545) -/
  memberLines : List (Nat × Nat) := []
  /-- core cycles spent issuing, and with every context waiting, since the operation before (20 R745) -/
  cycles : Nat := 0
  waits : Nat := 0
  stalls : Nat := 0
deriving DecidableEq, Repr

/-- What reaches a pass besides its operands (04 R104, R132): whether the column check found a mismatch and in which
physical column. -/
structure PassEnv where
  residueColumn : Option Nat := none
  stalls : Nat := 0
deriving DecidableEq, Repr

/-- One element of a combined row delta in units of 2^(-f) (11 R413), or one unconverted element: a value m·2^e, a NaN
or an infinity (03 R85, R86). -/
inductive RowDelta where
  | fixed (z : Int)
  | value (m : Int) (e : Int)
  | nan
  | inf (neg : Bool)
deriving DecidableEq, Repr

/-- What a flash unit holds for its reader (13 R489): a graph page, a text blob, data of a relay-schedule fetch with the rows of
the fetch that lie in the unit, or other data of a context. -/
inductive FlashHolds where
  | graphPage (coll page : Nat)
  | textBlob (coll id : Nat)
  | frame (unit seq : Nat) (rows : List Nat)
  | other (cluster slot : Nat)
deriving DecidableEq, Repr

/-- A completed unit read (13 R488): where it lies, the first level of the ladder at which the unit decodes (none when
all fail), what it holds, and the account it is charged to. -/
structure FlashRead where
  channel : Nat
  part    : Nat
  die     : Nat
  block   : Nat
  level   : Option Nat
  holds   : FlashHolds
  account : Nat
deriving DecidableEq, Repr

/-- An Evdozin packet (16 R610): header fields and payload. `port` is the port it arrived on. -/
structure Packet where
  ptype   : Nat
  hops    : Nat := 0
  account : Nat := 0
  dst     : Nat := 0
  src     : Nat := 0
  pairSeq : Nat := 0
  arg0    : BitVec 32 := 0
  arg1    : BitVec 64 := 0
  payload : Bytes := []
  port    : Nat := 0
deriving DecidableEq, Repr

/-- An SPDM message to the responder (18 R675): the mailbox (0 service PF, 1 management PF, 2 fabric), the session it
lies in (0 none), and its bytes. -/
structure SpdmMsg where
  mailbox : Nat
  session : Nat
  msg     : Bytes
  mutualAuth : Bool := false
deriving DecidableEq, Repr

/-- The quantities of the safety limits (19 R713), with the instance they are measured on. -/
inductive SafetyQuantity where
  | dieHotspot (die : Nat)
  | stackTemp (stack : Nat)
  | coreCurrent (die : Nat)
deriving DecidableEq, Repr

/-- The quantities of the hard limits (21 R768). -/
inductive HardLimit where
  | computeDie | ioDie | stack | hub | opticalEngine | coolantOutlet | mainCurrent | busCurrent | coreCurrent
deriving DecidableEq, Repr

/-- What arrives on the lanes of a port (16 R589, R590): a flit as a port's coding sublayer hands it on, with the codewords that
the FEC corrected and could not correct since the flit before; or codewords of the short-reach FEC, each as its four lanes. -/
inductive LineIn where
  | flit (b : List (BitVec 8)) (corrected uncorrectable : Nat)
  | words (w : List (List (List Nat)))
deriving DecidableEq, Repr

/-- Why the main input is lost (21 R756, R757). -/
inductive LossCause where
  | undervoltage | overvoltage | interlock | auxLoss
deriving DecidableEq, Repr

/-- What phase 5 of bring-up finds (17 R632, R634, R635): the failing rows and columns of each cluster that has any, the
stacks that failed training, and whether a dump was there to replay (13 R506). -/
structure Phase5 where
  clusterFaults : List (Nat × List Nat × List Nat) := []
  failed  : List Nat := []
  dump    : Bool := false
deriving DecidableEq, Repr

/-- The commands of the block: one constructor for each row of spec/opcode_table.json, in its order. -/
inductive Instr where
  /-- REQUEST (R576): A three-slot REQUEST command is fetched: it is checked, admitted to a request-table entry, and its profile, epoch and table versions are pinned. -/
  | request (h : HostCmd)
  /-- INPUT_CHUNK (R578): An INPUT_CHUNK appends bytes to an open request's input, and a chunk with last set closes the input. -/
  | inputChunk (h : HostCmd)
  /-- CANCEL (R378): A CANCEL is matched to a live or remembered request or run, and acts according to the target's state. -/
  | cancel (h : HostCmd)
  /-- RUN (R348): A RUN command takes a request-table entry, copies its bound input tensors and starts the image's operation list. -/
  | run (h : HostCmd)
  /-- BATON_RELEASE (R359): A BATON_RELEASE ends new use of a live baton, or is refused with BATON_INVALID. -/
  | batonRelease (h : HostCmd)
  /-- INGEST_OPEN (R248): An INGEST_OPEN opens the collection's ingest session with a new epoch E. -/
  | ingestOpen (h : HostCmd)
  /-- INGEST_OP (R249): An INGEST_OP carries an INSERT or a DELETE into the open session. -/
  | ingestOp (h : HostCmd)
  /-- INGEST_COMMIT (R251): An INGEST_COMMIT completes the session's writes and writes its commit record. -/
  | ingestCommit (h : HostCmd)
  /-- COMMIT_DURABLE (R251): The commit record becomes durable, C becomes E and the entry table is published. -/
  | commitDurable (coll : Nat)
  /-- INGEST_ABORT (R252): An INGEST_ABORT rolls the session back, writes an abort record and admits the next open. -/
  | ingestAbort (h : HostCmd)
  /-- FILTER_REGISTER (R260): A FILTER_REGISTER checks permission and the filter object, then registers or replaces the filter. -/
  | filterRegister (h : HostCmd)
  /-- FILTER_UNREGISTER (R261): A FILTER_UNREGISTER removes a filter for requests admitted afterwards. -/
  | filterUnregister (h : HostCmd)
  /-- PROFILE_LOAD (R22): A PROFILE_LOAD validates a profile record and loads it, or holds it while an earlier version drains. -/
  | profileLoad (h : HostCmd)
  /-- PROFILE_LOAD_RELEASE (R28): A held profile load proceeds and completes once the earlier version's drain ends. -/
  | profileLoadRelease (profile : Nat)
  /-- PROFILE_UNLOAD (R28): A PROFILE_UNLOAD loads an empty profile under the profile_id, and the old version drains. -/
  | profileUnload (h : HostCmd)
  /-- IMAGE_LOAD (R144): An IMAGE_LOAD copies, validates and signs off a model image, reserves its page pool and returns a handle. -/
  | imageLoad (h : HostCmd)
  /-- IMAGE_UNLOAD (R146): An IMAGE_UNLOAD ends new use of an image and releases its batons. -/
  | imageUnload (h : HostCmd)
  /-- TOKENIZER_LOAD (R191): A TOKENIZER_LOAD validates a tokenizer and puts it in the lowest free slot. -/
  | tokenizerLoad (h : HostCmd)
  /-- TOKENIZER_UNLOAD (R192): A TOKENIZER_UNLOAD removes a tokenizer that no profile names. -/
  | tokenizerUnload (h : HostCmd)
  /-- TEMPLATE_LOAD (R336): A TEMPLATE_LOAD validates a prompt template and loads it. -/
  | templateLoad (h : HostCmd)
  /-- TEMPLATE_UNLOAD (R334): A TEMPLATE_UNLOAD removes a template that no profile names. -/
  | templateUnload (h : HostCmd)
  /-- COLLECTION_CREATE (R224): A COLLECTION_CREATE validates a creation object and creates the collection. -/
  | collectionCreate (h : HostCmd)
  /-- COLLECTION_DELETE (R225): A COLLECTION_DELETE deletes a collection for new requests and keeps it while earlier requests run. -/
  | collectionDelete (h : HostCmd)
  /-- TABLE_CREATE (R394): A TABLE_CREATE validates a creation object and creates the table at version 1. -/
  | tableCreate (h : HostCmd)
  /-- TABLE_DELETE (R397): A TABLE_DELETE deletes a table for new requests and runs. -/
  | tableDelete (h : HostCmd)
  /-- VERSION_NEW (R403): VERSION_NEW creates a LIVE version from a base at one copy point. -/
  | versionNew (h : HostCmd)
  /-- VERSION_SWITCH (R404): VERSION_SWITCH makes a version CURRENT in one cycle. -/
  | versionSwitch (h : HostCmd)
  /-- VERSION_RETIRE (R405): VERSION_RETIRE makes a version RETIRED and demotes its replicated rows. -/
  | versionRetire (h : HostCmd)
  /-- ROW_PIN (R427): ROW_PIN fixes the replica count of a range of rows. -/
  | rowPin (h : HostCmd)
  /-- ACCOUNT_CREATE (R517): ACCOUNT_CREATE creates an account with zero counters and fresh keys. -/
  | accountCreate (h : HostCmd)
  /-- ACCOUNT_UPDATE (R518): ACCOUNT_UPDATE changes an account's record for later admissions and placements. -/
  | accountUpdate (h : HostCmd)
  /-- ACCOUNT_DELETE (R521): ACCOUNT_DELETE replaces the account's keys, writes a closing record and starts the scrub. -/
  | accountDelete (h : HostCmd)
  /-- ACCOUNT_SCRUB_END (R521): The scrub of a deleted account's lines ends, and the number can be created again. -/
  | accountScrubEnd (account : Nat)
  /-- QP_BIND (R523): QP_BIND binds a queue pair to a function and an account. -/
  | qpBind (h : HostCmd)
  /-- QP_UNBIND (R523): QP_UNBIND unbinds a queue pair that holds no request-table entry. -/
  | qpUnbind (h : HostCmd)
  /-- FN_DISABLE (R541): FN_DISABLE disables one virtual function. -/
  | fnDisable (h : HostCmd)
  /-- ACCT_LOG_READ (R542): ACCT_LOG_READ moves the oldest accounting records to a host buffer and removes them from the log. -/
  | acctLogRead (h : HostCmd)
  /-- ASYNC_WAIT (R585): ASYNC_WAIT waits for a notice, or completes at once with a queued notice. -/
  | asyncWait (h : HostCmd)
  /-- COMMAND_FETCH (R563): The module fetches a command from a queue pair once a completion entry and request-table room are free. -/
  | commandFetch (h : HostCmd)
  /-- SQ_TAIL_DOORBELL (R561): A write to the SQ tail doorbell announces new submission slots. -/
  | sqTailDoorbell (fn qp value : Nat)
  /-- CQ_HEAD_DOORBELL (R561): A write to the CQ head doorbell returns completion entries to the module. -/
  | cqHeadDoorbell (fn qp value : Nat)
  /-- STREAM_HEAD_DOORBELL (R561): A write to the stream head doorbell returns consumed stream bytes. -/
  | streamHeadDoorbell (fn qp value : Nat)
  /-- QP_ENABLE (R559): Setting QP_CTL.enable resets the ring indices and enables the queue pair, or sets err. -/
  | qpEnable (fn qp : Nat)
  /-- QP_DISABLE (R560): Clearing QP_CTL.enable stops fetching, while fetched commands run on. -/
  | qpDisable (fn qp : Nat)
  /-- QP_FIND (R568): A write to QP_FIND finds the lowest queue pair at or above a value that is bound to the writing function. -/
  | qpFind (fn q : Nat)
  /-- IRQ_MODERATION_TIMER (R573): The interrupt moderation timer expires, and the queue pair's MSI-X message is sent. -/
  | irqModerationTimer (qp : Nat)
  /-- BAR4_ACCESS (R557): An access through the BAR4 Brixjo window is served or denied by the line's kind. -/
  | bar4Access (addr : Nat) (len : Nat) (write : Option Bytes)
  /-- DMA_READ_ERROR (R555): A failed DMA read of host memory ends its command with FAULT. -/
  | dmaReadError (target : DmaTarget) (err : DmaError)
  /-- STAGE_BOUNDARY (R17): A stage hands over its whole output, and the next stage starts for the request. -/
  | stageBoundary (entry : Nat)
  /-- WALK_START (R281): A pass's walks start once credits for all E walks are free, in waiting order. -/
  | walkStart (entry : Nat)
  /-- WALK_HOP (R272): A node page arrives at the owning engine, and the walk scores its neighbours, offers them, updates Q and chooses the next node. -/
  | walkHop (tag walk : Nat) (readable : Bool)
  /-- RELAY_ARRIVE (R284): A relay or start message reaches a hub, is de-duplicated by seq, and is taken by a context or waits in the inbox. -/
  | relayArrive (m : RelayMsg)
  /-- OFFER_BATCH (R290): An offer batch reaches the merge unit, and each entry is tested for visibility and filter membership. -/
  | offerBatch (b : OfferMsg)
  /-- END_REPORT (R288): A walk's end report reaches the merge unit, and the walk's credit returns. -/
  | endReport (r : EndMsg)
  /-- MERGE_UNITE (R292): When every walk of a pass has finished, the merge unit unites the partial lists. -/
  | mergeUnite (entry : Nat)
  /-- SHARD_WAIT_EXPIRY (R35): shard_wait_us elapses, and the merge of shard lists starts without the missing shards. -/
  | shardWaitExpiry (entry : Nat)
  /-- NODE_REBUILD (R302): A lost graph node is rebuilt from the exact nearest items and written to its new location. -/
  | nodeRebuild (coll id : Nat)
  /-- SEARCH_HOLD_SET (R304): Setting SRCH_CTL.hold stops searches that have not started stage 5. -/
  | searchHoldSet (fn : Nat)
  /-- SEARCH_HOLD_CLEAR (R304): Clearing SRCH_CTL.hold lets held searches go on from the next cycle in the order of R281. -/
  | searchHoldClear (fn : Nat)
  /-- RESERVATION_GRANT (R352): A RESERVE request's key-value pages are granted, and the request moves to WAIT. -/
  | reservationGrant (entry : Nat)
  /-- STEP_FORM (R361): A step of a generator image is formed from its WAIT requests, and expired requests end with DEADLINE. -/
  | stepForm (image dieMask : Nat) (proofing : Bool)
  /-- STEP_COMMIT (R363): At a step's commit point, tokens are delivered, finishes are decided, step records are written and pages return. -/
  | stepCommit (step : Nat)
  /-- ENTRY_FREE (R384): A DRAIN entry becomes FREE once its completion is written and its pages are returned, and the versions it pinned are released. -/
  | entryFree (entry : Nat)
  /-- GEN_HOLD (R386): Setting GEN_CTL.hold stops new steps from being formed. -/
  | genHold (fn : Nat) (value : BitVec 32)
  /-- RT_WIN_LATCH (R389): A write to RT_WIN_SEL latches a copy of a request-table entry into RT_WIN. -/
  | rtWinLatch (fn : Nat) (value : BitVec 32)
  /-- HEAT (R527): Every 100 µs the scheduler expires requests, places ready units, marks victims and renews slices. -/
  | heat
  /-- SLICE_END (R537): A unit's slice of own time runs out. -/
  | sliceEnd (unit : Nat)
  /-- PREEMPT_POINT_REACHED (R530): A context reaches a preemption point, and a marked unit is saved and leaves its slot. -/
  | preemptPointReached (unit : Nat) (ran : Nat)
  /-- WATCHDOG_EXPIRY (R185): A context's own time reaches 4 ms without a preemption point, and the context is torn down with FAULT. -/
  | watchdogExpiry (cluster slot : Nat)
  /-- SCHED_HOLD (R548): Setting SCHED_CTL.hold stops placements. -/
  | schedHold (fn : Nat) (value : BitVec 32)
  /-- ACCT_WIN_LATCH (R551): A write to ACCT_SEL latches an account's record and counters into ACCT_WIN. -/
  | acctWinLatch (fn : Nat) (value : BitVec 32)
  /-- CLUSTER_SLEEP (R50): A cluster with no resident context and no queued pass enters sleep. -/
  | clusterSleep (cluster : Nat)
  /-- OPERATION_START (R159): An operation starts once the earlier operations that write its inputs have finished. -/
  | operationStart (cluster slot : Nat) (env : OpEnv)
  /-- PASS_ISSUE (R104): A matrix pass issues once its slot, operands, weights and exponent scan are ready. -/
  | passIssue (cluster slot : Nat) (desc : Bytes) (env : PassEnv)
  /-- ARR_DRAIN (R120): A write to ARR_CTL.drain stops or resumes placement of new work on a cluster. -/
  | arrDrain (fn cluster : Nat) (drain : Bool)
  /-- ARR_RETIRE (R135): Writing ARR_CTL.retire retires the cluster until module reset. -/
  | arrRetire (fn cluster : Nat)
  /-- ARR_SPARE_ROW (R122): ARR_SPARE_CTL op 0 starts sparing a physical row on a drained cluster. -/
  | arrSpareRow (fn cluster index : Nat)
  /-- ARR_SPARE_COLUMN (R122): ARR_SPARE_CTL op 1 starts sparing a physical column on a drained cluster. -/
  | arrSpareColumn (fn cluster index : Nat)
  /-- ARR_SELF_TEST (R121): ARR_SPARE_CTL op 2 starts an array self-test. -/
  | arrSelfTest (fn cluster : Nat)
  /-- ARR_SPARE_DONE (R125): A spare or self-test operation ends, and its result, latency and map are written. -/
  | arrSpareDone (cluster : Nat) (fault : Option (Nat × Nat))
  /-- ROW_DELTA_ARRIVE (R413): A combined row delta reaches the row's home and is applied in sequence at every copy. -/
  | rowDeltaArrive (table version row : Nat) (deltas : List RowDelta) (src : Nat)
  /-- FETCH_ISSUE (R458): A relay-schedule entry issues once its section has started, fewer than 64 fetches are outstanding and its index tensor is written. -/
  | fetchIssue (unit : Nat) (seq : Nat)
  /-- FETCH_ARRIVE (R460): A fetch's data becomes readable in Brixjo. -/
  | fetchArrive (unit seq : Nat) (rows : List Nat)
  /-- FETCH_DEADLINE (R462): A fetch's deadline instant passes with its data not readable, and the fallback replaces it. -/
  | fetchDeadline (unit seq : Nat)
  /-- ROW_PROMOTE (R424): The hot-row pacer promotes a row and starts snapshotting it into its replicas. -/
  | rowPromote (table version row count : Nat)
  /-- PROMOTION_SNAPSHOTS_DONE (R424): Every replica snapshot is written, and the home holds new adds while the replicas apply the log. -/
  | promotionSnapshotsDone (table version row : Nat)
  /-- PROMOTION_LOG_APPLIED (R424): Every replica has applied the log, and the row switches to REPLICATED. -/
  | promotionLogApplied (table version row : Nat)
  /-- ROW_DEMOTE (R423): A replicated row is demoted, and reads return to its home. -/
  | rowDemote (table version row : Nat)
  /-- DEMOTION_READS_DONE (R423): No replica read is in flight, the row returns to HOME and its replicas are freed. -/
  | demotionReadsDone (table version row : Nat)
  /-- DIRTY_WRITEBACK (R436): A dirty cached row is written back, at most 10 s after its first add or on eviction. -/
  | dirtyWriteback (table version row : Nat)
  /-- SCRUB_PASS (R450): The patrol scrub reads, corrects and rewrites the stack's lines once per period. -/
  | scrubPass (stack : Nat)
  /-- LEND_RECLAIM_START (R470): A lender reclaims a lease, and its logic dies refuse further reads of it. -/
  | lendReclaimStart (lease : Nat)
  /-- LEASE_PATH_LOST (R471): A borrower treats a lease as reclaimed when its path to the lender fails. -/
  | leasePathLost (lease : Nat)
  /-- MEM_LEND_DISABLE (R474): Clearing MEM_CTL.lend_en reclaims every lease. -/
  | memLendDisable (fn : Nat)
  /-- FLASH_READ_DECODE (R488): A flash unit read completes and is decoded by the LDPC ladder. -/
  | flashReadDecode (r : FlashRead)
  /-- GC_START (R494): Free blocks fall below gc_low, and garbage collection starts on a partition's share of a channel. -/
  | gcStart (channel part : Nat)
  /-- GC_BLOCK (R494): Garbage collection relocates one block's valid units and erases it. -/
  | gcBlock (channel part : Nat)
  /-- WEAR_LEVEL_MOVE (R492): A wear-levelling move relocates the coldest block onto the most worn free block. -/
  | wearLevelMove (channel part : Nat)
  /-- SPARE_LOW_REACHED (R496): A partition's spares on a channel fall below a tenth, and SPARE_LOW is posted. -/
  | spareLowReached (channel part : Nat)
  /-- PROGRAM_FAIL (R497): A failed program is rewritten from the protected buffer, and the block is retired. -/
  | programFail (channel part die block : Nat)
  /-- CHANNEL_FAIL (R498): A flash channel fails, and both partitions become read-only. -/
  | channelFail (channel : Nat)
  /-- FLIT_RECEIVE (R597): A flit arrives on a port and is checked by CRC, tag and sequence, and its acks and credits are taken. -/
  | flitReceive (port : Nat) (line : LineIn)
  /-- RETRY_REQUEST (R597): A retry request makes the sender resend from the named flit. -/
  | retryRequest (port seq : Nat)
  /-- LINK_KEY_UPDATE (R599): A sender approaching 2^32 flits under one key starts a key update. -/
  | linkKeyUpdate (port : Nat)
  /-- PORT_TRAINED (R601): A port completes training and alignment and enters LOCAL. -/
  | portTrained (port : Nat) (peerFec : Nat) (shortCable : Bool)
  /-- LINK_SESSION (R681): The link's SPDM session completes, its keys are derived, and the port enters SECURE. -/
  | linkSession (port peer : Nat) (ok : Bool)
  /-- RETX_TIMER (R611): A VC0 request unacknowledged for retx_us is retransmitted. -/
  | retxTimer (peer : Nat)
  /-- PEER_LOSS_TIMER (R612): A request unacknowledged for peer_loss_ms makes its peer lost. -/
  | peerLossTimer (peer : Nat)
  /-- TABLE_PIN (R614): A TABLE_PIN packet is checked and pins the home's current version. -/
  | tablePin (p : Packet)
  /-- TABLE_UNPIN (R614): A TABLE_UNPIN packet releases a remote pin. -/
  | tableUnpin (p : Packet)
  /-- ROW_READ (R614): A ROW_READ packet reads a row of the version named. -/
  | rowRead (p : Packet)
  /-- ROW_ADD (R615): A ROW_ADD packet applies a row's combined deltas at the home. -/
  | rowAdd (p : Packet)
  /-- RED_EXP (R616): The root receives a member's automatic reference exponents. -/
  | redExp (p : Packet)
  /-- RED_AGREE (R616): A member receives the agreed exponents and computes its partials. -/
  | redAgree (p : Packet)
  /-- RED_PART (R616): The root receives a member's LACC96 partials. -/
  | redPart (p : Packet)
  /-- RED_RESULT (R616): A member receives the reduction's output elements. -/
  | redResult (p : Packet)
  /-- RED_ABORT (R616): A RED_ABORT ends the reduction, and the member's run ends FAULT. -/
  | redAbort (p : Packet)
  /-- SHARD_QUERY (R619): A shard module pins its epoch and filters and runs stages 5 to 8. -/
  | shardQuery (p : Packet)
  /-- SHARD_LIST (R325): A shard's partial list arrives at the originating module. -/
  | shardList (p : Packet)
  /-- LEASE_REQ (R617): A LEASE_REQ asks for pages, and the lender grants them or answers NO_RESOURCES. -/
  | leaseReq (p : Packet)
  /-- LEASE_GRANT (R617): A borrower receives a lease grant. -/
  | leaseGrant (p : Packet)
  /-- LEASE_RECLAIM (R617): A borrower receives a reclaim and drops the lease's frames. -/
  | leaseReclaim (p : Packet)
  /-- LEASE_RELEASE (R617): A lender receives the release of a lease. -/
  | leaseRelease (p : Packet)
  /-- LENT_WRITE (R617): A frame is placed in lent memory. -/
  | lentWrite (p : Packet)
  /-- LENT_READ (R617): A frame is read from lent memory, or the read is answered REFUSED after a reclaim. -/
  | lentRead (p : Packet)
  /-- PAIR_ACK (R611): A PAIR_ACK acknowledges a pair's requests in order. -/
  | pairAck (p : Packet)
  /-- ASSIGN (R603): An UNASSIGNED module takes the ID from an ASSIGN and answers ASSIGNED. -/
  | assign (p : Packet)
  /-- ASSIGN_VIA (R603): An ADMITTED module sends an ASSIGN out of the named port. -/
  | assignVia (p : Packet)
  /-- ASSIGNED (R603): The anchor receives a module's ASSIGNED answer. -/
  | assigned (p : Packet)
  /-- ADMIT (R603): An ADMIT takes an ASSIGNED module to ADMITTED. -/
  | admitPacket (p : Packet)
  /-- UNASSIGN (R603): An UNASSIGN returns a module to UNASSIGNED. -/
  | unassign (p : Packet)
  /-- LEAVE (R621): A LEAVE from the anchor makes the module leave the fabric. -/
  | leavePacket (p : Packet)
  /-- ANCHOR_MOVE (R605): The anchor role moves to another ADMITTED module. -/
  | anchorMove (p : Packet)
  /-- REG_READ (R618): The anchor reads a register of the fabric block page. -/
  | regRead (p : Packet)
  /-- REG_WRITE (R618): The anchor writes a register of the fabric block page. -/
  | regWrite (p : Packet)
  /-- SPDM_RELAY (R675): An SPDM message is relayed over the fabric to the module addressed. -/
  | spdmRelay (p : Packet)
  /-- NO_NEIGHBOUR (R603): ASSIGN_VIA ends at a port with no LOCAL link, and the chain ends. -/
  | noNeighbour (p : Packet)
  /-- FAB_ANSWER (R620): A STATUS, PIN_INFO, ROW_DATA, LENT_DATA or REG_DATA answer reaches the requester. -/
  | fabAnswer (p : Packet)
  /-- FAB_LEAVE (R621): Writing FAB_CTL.leave makes the module enter LEAVING. -/
  | fabLeave (fn : Nat)
  /-- LEAVE_DRAINED (R621): A LEAVING module has drained its work and enters UNASSIGNED. -/
  | leaveDrained
  /-- FAB_ASSIGN (R627): A write to FAB_ASSIGN makes the anchor take its ID and enter ADMITTED. -/
  | fabAssign (fn : Nat) (value : BitVec 32)
  /-- FAB_RT_DATA_WRITE (R609): A routing table entry written through FAB_RT_DATA takes effect from the next cycle. -/
  | fabRtDataWrite (fn : Nat) (value : BitVec 32)
  /-- FAB_SET_CLEAR (R631): Writing FAB_SET_CTL.clear empties a module set that is not busy. -/
  | fabSetClear (fn : Nat)
  /-- RCV_REQ_TIMER (R648): Every 100 ms in RECOVERY the starter sends RCV_REQ out of P00 and P01. -/
  | rcvReqTimer
  /-- RCV_REQ (R650): An ADMITTED neighbour answers an RCV_REQ with its firmware image. -/
  | rcvReq (port : Nat)
  /-- RCV_DATA (R651): Recovery image bytes arrive from a neighbour. -/
  | rcvData (port offset total : Nat) (data : Bytes)
  /-- RCV_GO (R651): Writing RCV_CTL.go fetches the recovery image from the host. -/
  | rcvGo (image : Bytes)
  /-- RCV_IMAGE_COMPLETE (R651): A whole recovery image is verified, and is written or refused. -/
  | rcvImageComplete
  /-- LS_RETIRE_STACK (R653): LS_CMD op 1 starts retiring a Brixjo stack. -/
  | lsRetireStack (fn target : Nat)
  /-- LS_RETIRE_CHANNEL (R655): LS_CMD op 2 starts retiring a flash channel. -/
  | lsRetireChannel (fn target : Nat)
  /-- LS_RECALIBRATE_PORT (R652): LS_CMD op 3 takes a port down to retrain and re-key. -/
  | lsRecalibratePort (fn target : Nat)
  /-- LS_MICROCODE (R658): LS_CMD op 4 loads staged microcode onto a drained cluster. -/
  | lsMicrocode (fn target : Nat)
  /-- LS_HUB_FIRMWARE (R654): LS_CMD op 5 restarts a hub into its staged firmware. -/
  | lsHubFirmware (fn target : Nat)
  /-- LS_OPERATION_END (R657): A live-service operation ends, and its result and event are written. -/
  | lsOperationEnd
  /-- SEC_DBG_CHALLENGE (R686): Writing SEC_DBG_CTL.challenge issues a new debug challenge. -/
  | secDbgChallenge (fn : Nat)
  /-- SEC_DBG_RESPOND (R687): Writing SEC_DBG_CTL.respond verifies the debug response and unlocks. -/
  | secDbgRespond (fn : Nat) (obj : Bytes)
  /-- CHALLENGE_EXPIRY (R686): A live debug challenge expires after 600 s. -/
  | challengeExpiry
  /-- GET_MEASUREMENTS (R677): SPDM GET_MEASUREMENTS returns the measurement blocks taken in one cycle. -/
  | getMeasurements (m : SpdmMsg)
  /-- CHALLENGE (R675): SPDM CHALLENGE is answered with a signature of the identity key. -/
  | spdmChallenge (m : SpdmMsg)
  /-- KEY_EXCHANGE (R675): SPDM KEY_EXCHANGE starts a secured session. -/
  | keyExchange (m : SpdmMsg)
  /-- FINISH (R675): SPDM FINISH completes a secured session. -/
  | spdmFinish (m : SpdmMsg)
  /-- KEY_UPDATE (R675): SPDM KEY_UPDATE updates a session's keys. -/
  | keyUpdate (m : SpdmMsg)
  /-- HEARTBEAT (R675): SPDM HEARTBEAT keeps a session alive. -/
  | spdmHeartbeat (m : SpdmMsg)
  /-- END_SESSION (R675): SPDM END_SESSION ends a secured session. -/
  | endSession (m : SpdmMsg)
  /-- RECORDER_CLEAR (R724): An authorised RECORDER_CLEAR erases records up to seq N and writes a clear record. -/
  | recorderClear (session seq : Nat)
  /-- LOCKSTEP_MISMATCH (R693): A lockstep mismatch resets the management pair into its firmware. -/
  | lockstepMismatch
  /-- SET_ENDPOINT_ID (R695): MCTP Set Endpoint ID gives Zhoulnas its endpoint ID on a binding. -/
  | setEndpointId (binding eid : Nat)
  /-- ENTDAA (R696): ENTDAA gives the module its I3C dynamic address. -/
  | entdaa (addr : Nat)
  /-- RSTDAA (R696): RSTDAA removes the I3C dynamic address. -/
  | rstdaa
  /-- GET_TID (R697): PLDM GetTID returns the terminus ID. -/
  | getTid (binding : Nat)
  /-- GET_PLDM_TYPES (R697): PLDM GetPLDMTypes returns the supported types. -/
  | getPldmTypes (binding : Nat)
  /-- GET_PLDM_COMMANDS (R697): PLDM GetPLDMCommands returns the supported commands. -/
  | getPldmCommands (binding ptype : Nat)
  /-- GET_PLDM_VERSION (R697): PLDM GetPLDMVersion returns the type versions. -/
  | getPldmVersion (binding ptype : Nat)
  /-- SENSOR_READ (R697): A PLDM sensor read returns a sensor value. -/
  | sensorRead (binding sensor value : Nat)
  /-- PDR_READ (R697): A PLDM PDR repository read returns monitoring records. -/
  | pdrRead (binding handle : Nat)
  /-- EFFECTER_WRITE (R699): A PLDM effecter write sets a pacer bound. -/
  | effecterWrite (binding effecter : Nat) (value : BitVec 32)
  /-- SET_EVENT_RECEIVER (R700): SetEventReceiver names the receiver of PlatformEventMessages. -/
  | setEventReceiver (binding eid : Nat)
  /-- FRU_READ (R697): A PLDM FRU read returns the field records. -/
  | fruRead (binding : Nat)
  /-- REQUEST_UPDATE (R702): RequestUpdate opens the single firmware update session. -/
  | requestUpdate (binding : Nat)
  /-- COMPONENT_TRANSFER (R702): A firmware component is transferred and verified, and VerifyComplete is reported. -/
  | componentTransfer (component : Nat) (obj : Bytes)
  /-- ACTIVATE_FIRMWARE (R701): ActivateFirmware activates or stages the verified components. -/
  | activateFirmware (binding : Nat)
  /-- SET_CALENDAR (R709): SET_CALENDAR sets the real-time clock and writes a RECORDER record. -/
  | setCalendar (binding value : Nat)
  /-- GET_CALENDAR (R709): GET_CALENDAR returns the real-time clock. -/
  | getCalendar (binding : Nat)
  /-- CLOCK_PACER_STEP (R710): Each millisecond the clock and voltage pacer moves cluster codes by at most one step. -/
  | clockPacerStep (power : Nat)
  /-- ADMISSION_PACER (R710): The admission pacer adjusts the fetch rate of each priority. -/
  | admissionPacer (prio want : Nat)
  /-- SAFETY_OVERRIDE_ENTER (R713): A temperature or current reaches its safety limit, and the override begins. -/
  | safetyOverrideEnter (q : SafetyQuantity) (value : Nat)
  /-- SAFETY_OVERRIDE_STEP (R713): Every 100 µs of an override, the named clusters drop one code. -/
  | safetyOverrideStep
  /-- SAFETY_OVERRIDE_LEAVE (R713): The quantity falls below its leave value, and the override ends. -/
  | safetyOverrideLeave (q : SafetyQuantity) (value : Nat)
  /-- SNAPSHOT_SET (R719): A record that matches a trigger captures the counters and reads the listed registers into a snapshot set. -/
  | snapshotSet (seq : Nat)
  /-- SNAPSHOT_FLUSH (R721): Buffered snapshot sets are flushed to the event area. -/
  | snapshotFlush
  /-- EVR_MANUAL (R730): Writing EVR_CTL.manual writes an info record with the chosen snapshot list. -/
  | evrManual (fn : Nat)
  /-- EVR_ADVANCE (R723): Writing EVR_CTL.advance latches the next record into EVR_WIN. -/
  | evrAdvance (fn : Nat)
  /-- EVR_CURSOR_WRITE (R723): A write to EVR_CURSOR latches the record at or above a seq. -/
  | evrCursorWrite (fn value : Nat)
  /-- EVR_SNAP_SEL_WRITE (R723): A write to EVR_SNAP_SEL latches a chunk of a snapshot set. -/
  | evrSnapSelWrite (fn value : Nat)
  /-- EVC_FREEZE (R726): Writing EVC_CTL.freeze stops or restarts every event counter. -/
  | evcFreeze (fn : Nat) (freeze : Bool)
  /-- EVC_SNAP (R727): Writing EVC_CTL.snap copies every counter into its snapshot register in one cycle. -/
  | evcSnap (fn : Nat)
  /-- EVC_COUNT_WRITE (R743): A write presets an event counter that is frozen or disabled. -/
  | evcCountWrite (fn page counter value : Nat)
  /-- EVC_OVERFLOW (R725): An event counter passes 2^48 − 1, wraps and sets its overflow bit. -/
  | evcOverflow (page counter : Nat)
  /-- PG_ERR_POP (R741): Writing PG_ERR_POP removes the oldest error log entry. -/
  | pgErrPop (fn page : Nat)
  /-- PG_IRQ_REEVALUATE (R740): A write to a page's interrupt registers re-evaluates the page interrupt and may send a message. -/
  | pgIrqReevaluate (fn page offset : Nat) (value : BitVec 32)
  /-- GLB_RESET (R753): A keyed write to GLB_RESET resets the module. -/
  | glbReset (fn : Nat) (value : BitVec 32)
  /-- CLUSTER_POWER_OFF (R752): Writing 0 to a drained cluster's GLB_CL_POWER bit powers it off. -/
  | clusterPowerOff (fn cluster : Nat)
  /-- CLUSTER_POWER_ON (R752): Writing 1 to a powered-off cluster's bit powers it on and starts its self-test. -/
  | clusterPowerOn (fn cluster : Nat)
  /-- CLUSTER_POWER_ON_DONE (R752): A powered-on cluster's self-test ends, and its awake bit rises. -/
  | clusterPowerOnDone (cluster : Nat) (rows cols : List Nat)
  /-- HALF_READ_LATCH (R735): A 4-byte read of a 64-bit register's low half latches its high half. -/
  | halfReadLatch (fn page offset : Nat)
  /-- HALF_WRITE (R735): A 4-byte half write of a 64-bit register is held or applied with the other half. -/
  | halfWrite (fn page offset : Nat) (value : BitVec 32)
  /-- BAD_ACCESS (R734): A misaligned or odd-sized register access is dropped and counted. -/
  | badAccess (fn page offset size : Nat) (isWrite : Bool)
  /-- REGISTER_WRITE (R10): A write to a register with no row of its own acts according to its access code. -/
  | registerWrite (fn page offset size : Nat) (value : BitVec 64)
  /-- AUX_POWER_APPLIED (R632): The auxiliary input appears, the always-on domain runs and the starter reads management flash. -/
  | auxPowerApplied (identityOk : Bool)
  /-- STARTER_VERIFY (R633): The starter verifies the management firmware image, or enters RECOVERY. -/
  | starterVerify (verify : Nat)
  /-- MAIN_INPUT_PRESENT (R755): The main input has been in range for 50 ms, and the high-voltage stage may be enabled. -/
  | mainInputPresent
  /-- BRINGUP_PHASE4 (R632): The intermediate bus is in regulation, the domains power up and the PLLs lock. -/
  | bringupPhase4
  /-- BRINGUP_PHASE5 (R632): The array self-tests run, the stacks train and the hubs replay their dumps. -/
  | bringupPhase5 (r : Phase5)
  /-- CATALOGUE_RELOAD (R637): The catalogue objects are reloaded with the same identifiers. -/
  | catalogueReload (revoked : List Nat)
  /-- PROOFING_BEGIN (R639): The service level becomes PROOFING. -/
  | proofingBegin
  /-- COLLECTION_VERIFIED (R643): The last graph page of a collection is verified, and lost pages are queued for rebuild. -/
  | collectionVerified (coll : Nat) (lostPages : List Nat)
  /-- FULL_BEGIN (R644): The service level becomes FULL, and the clock cap is lifted. -/
  | fullBegin
  /-- MAIN_INPUT_LOST (R759): The main input is lost, and the module starts the hand-over, sheds load and flushes the recorder. -/
  | mainInputLost (cause : LossCause)
  /-- AUX_INPUT_LOST (R757): The auxiliary input is lost, and the main input is treated as lost too. -/
  | auxInputLost
  /-- HANDOVER_END (R759): The hand-over and flush end, the high-voltage stage is disabled and the domains are unpowered. -/
  | handoverEnd
  /-- RESET_N_LOW (R767): RESET_N held low for 10 µs resets the module. -/
  | resetNLow
  /-- HARD_LIMIT_TRIP (R769): A hard limit is reached, and the module shuts down and holds the stage disabled. -/
  | hardLimitTrip (limits : List HardLimit)
  /-- FUNCTION_LEVEL_RESET (R541): A function level reset disables the function. -/
  | functionLevelReset (fn : Nat)
  /-- BUS_MASTER_CLEAR (R541): Clearing Bus Master Enable disables the function. -/
  | busMasterClear (fn : Nat)
  /-- VF_ENABLE_CLEAR (R541): Clearing VF Enable disables every virtual function. -/
  | vfEnableClear
  /-- D3HOT_ENTRY (R553): Entering D3hot disables the function. -/
  | d3hotEntry (fn : Nat)
  /-- FUNCTION_DISABLE_COMPLETE (R541): The last request and DMA of a disabled function finish, and the disable completes. -/
  | functionDisableComplete (fn : Nat)
  /-- INTERNAL_LINK_FAIL (R44): An internal link such as a flash hub ring segment or a board link fails, and relays reroute or the hub behind it becomes unreachable. -/
  | internalLinkFail (link : Nat)
  /-- LINK_DEGRADED (R47): An internal link loses more lanes than it has spares, runs at reduced width, sets its bit in GLB_LINK_DEGRADED and records an event. -/
  | linkDegraded (link : Nat)
  /-- PORT_DOWN (R601): An Evdozin port loses its signal or alignment and goes DOWN, dropping its replay buffer. -/
  | portDown (port : Nat)
  /-- RESET_N_RISE (R767): RESET_N rises after a reset pulse, and bring-up begins, ending a hard-limit shutdown held under R769. -/
  | resetNRise
  /-- STACK_TRAINED (R645): A Brixjo stack completes training, enters service, and takes up its granules and pages and the catalogue reload for it. -/
  | stackTrained (stack : Nat)
  /-- MANAGEMENT_RESTART_END (R647): The Zhoulnas pair finishes restarting, GLB_STATUS.mgmt_run returns to 1 and the pacers resume from their held outputs. -/
  | managementRestartEnd
  /-- MSIX_UNMASK (R573): The host clears an MSI-X Function Mask or vector mask, and a message held pending is sent. -/
  | msixUnmask (fn : Nat) (vector : Option Nat)
  /-- PEER_REPORTED_GONE (R612): The fabric manager reports a peer gone, and the module treats it as lost. -/
  | peerReportedGone (peer : Nat)
deriving DecidableEq, Repr

end Sys2Proof
end

