-- ==== Sys2Proof/WellFormed.lean ====
section
/-! DEFINITION. Which commands are well formed: operand numbers in the ranges the spec gives the things they name, and a
ring command's bytes spell its own opcode and slot count. -/

namespace Sys2Proof

/-- A ring command's queue pair is 0 to 16,383 or an admin queue pair (15 R556, R568), and its slots are whole: n_slots + 1
of 64 bytes (15 R574). -/
def hostOk (h : HostCmd) : Bool :=
  decide (h.qp < 0x4002) && h.slots.length == 64 * ((h.slots.getD 1 0).toNat % 4 + 1)

/-- A ring command's first byte is its opcode (15 R574, R575). -/
def ringOk (op : Nat) (h : HostCmd) : Bool := hostOk h && (h.slots.getD 0 0).toNat == op

/-- A packet's fields fit their widths, its account field is an account number and the train bit, and its payload is at most
32,768 bytes (16 R610). -/
def packetOk (p : Packet) : Bool :=
  decide (p.ptype < 256) && decide (p.account < 65536) && decide (p.account % 32768 < 4096) && decide (p.payload.length ≤ 32768) &&
    decide (p.dst < 2 ^ 20) && decide (p.src < 2 ^ 20) &&
    decide (p.pairSeq < 2 ^ 32) && decide (p.port < 32)

/-- A flash read names a channel, partition and die (13 R479). -/
def flashOk (r : FlashRead) : Bool := decide (r.channel < 64) && decide (r.part < 2) && decide (r.die < 16)

/-- The opcode of a ring command (15 R575). -/
def Instr.opcode? : Instr → Option Nat
  | .request _ => some 0x01
  | .inputChunk _ => some 0x02
  | .cancel _ => some 0x03
  | .run _ => some 0x04
  | .batonRelease _ => some 0x05
  | .ingestOpen _ => some 0x06
  | .ingestOp _ => some 0x07
  | .ingestCommit _ => some 0x08
  | .commitDurable _ => none
  | .ingestAbort _ => some 0x09
  | .filterRegister _ => some 0x0A
  | .filterUnregister _ => some 0x0B
  | .profileLoad _ => some 0x20
  | .profileLoadRelease _ => none
  | .profileUnload _ => some 0x21
  | .imageLoad _ => some 0x22
  | .imageUnload _ => some 0x23
  | .tokenizerLoad _ => some 0x24
  | .tokenizerUnload _ => some 0x25
  | .templateLoad _ => some 0x26
  | .templateUnload _ => some 0x27
  | .collectionCreate _ => some 0x28
  | .collectionDelete _ => some 0x29
  | .tableCreate _ => some 0x2A
  | .tableDelete _ => some 0x2B
  | .versionNew _ => some 0x2C
  | .versionSwitch _ => some 0x2C
  | .versionRetire _ => some 0x2C
  | .rowPin _ => some 0x2C
  | .accountCreate _ => some 0x2D
  | .accountUpdate _ => some 0x2E
  | .accountDelete _ => some 0x2F
  | .accountScrubEnd _ => none
  | .qpBind _ => some 0x30
  | .qpUnbind _ => some 0x31
  | .fnDisable _ => some 0x32
  | .acctLogRead _ => some 0x33
  | .asyncWait _ => some 0x34
  | .commandFetch _ => none
  | .sqTailDoorbell _ _ _ => none
  | .cqHeadDoorbell _ _ _ => none
  | .streamHeadDoorbell _ _ _ => none
  | .qpEnable _ _ => none
  | .qpDisable _ _ => none
  | .qpFind _ _ => none
  | .irqModerationTimer _ => none
  | .bar4Access _ _ _ => none
  | .dmaReadError _ _ => none
  | .stageBoundary _ => none
  | .walkStart _ => none
  | .walkHop _ _ _ => none
  | .relayArrive _ => none
  | .offerBatch _ => none
  | .endReport _ => none
  | .mergeUnite _ => none
  | .shardWaitExpiry _ => none
  | .nodeRebuild _ _ => none
  | .searchHoldSet _ => none
  | .searchHoldClear _ => none
  | .reservationGrant _ => none
  | .stepForm _ _ _ => none
  | .stepCommit _ => none
  | .entryFree _ => none
  | .genHold _ _ => none
  | .rtWinLatch _ _ => none
  | .heat => none
  | .sliceEnd _ => none
  | .preemptPointReached _ _ => none
  | .watchdogExpiry _ _ => none
  | .schedHold _ _ => none
  | .acctWinLatch _ _ => none
  | .clusterSleep _ => none
  | .operationStart _ _ _ => none
  | .passIssue _ _ _ _ => none
  | .arrDrain _ _ _ => none
  | .arrRetire _ _ => none
  | .arrSpareRow _ _ _ => none
  | .arrSpareColumn _ _ _ => none
  | .arrSelfTest _ _ => none
  | .arrSpareDone _ _ => none
  | .rowDeltaArrive _ _ _ _ _ => none
  | .fetchIssue _ _ => none
  | .fetchArrive _ _ _ => none
  | .fetchDeadline _ _ => none
  | .rowPromote _ _ _ _ => none
  | .promotionSnapshotsDone _ _ _ => none
  | .promotionLogApplied _ _ _ => none
  | .rowDemote _ _ _ => none
  | .demotionReadsDone _ _ _ => none
  | .dirtyWriteback _ _ _ => none
  | .scrubPass _ => none
  | .lendReclaimStart _ => none
  | .leasePathLost _ => none
  | .memLendDisable _ => none
  | .flashReadDecode _ => none
  | .gcStart _ _ => none
  | .gcBlock _ _ => none
  | .wearLevelMove _ _ => none
  | .spareLowReached _ _ => none
  | .programFail _ _ _ _ => none
  | .channelFail _ => none
  | .flitReceive _ _ => none
  | .retryRequest _ _ => none
  | .linkKeyUpdate _ => none
  | .portTrained _ _ _ => none
  | .linkSession _ _ _ => none
  | .retxTimer _ => none
  | .peerLossTimer _ => none
  | .tablePin _ => none
  | .tableUnpin _ => none
  | .rowRead _ => none
  | .rowAdd _ => none
  | .redExp _ => none
  | .redAgree _ => none
  | .redPart _ => none
  | .redResult _ => none
  | .redAbort _ => none
  | .shardQuery _ => none
  | .shardList _ => none
  | .leaseReq _ => none
  | .leaseGrant _ => none
  | .leaseReclaim _ => none
  | .leaseRelease _ => none
  | .lentWrite _ => none
  | .lentRead _ => none
  | .pairAck _ => none
  | .assign _ => none
  | .assignVia _ => none
  | .assigned _ => none
  | .admitPacket _ => none
  | .unassign _ => none
  | .leavePacket _ => none
  | .anchorMove _ => none
  | .regRead _ => none
  | .regWrite _ => none
  | .spdmRelay _ => none
  | .noNeighbour _ => none
  | .fabAnswer _ => none
  | .fabLeave _ => none
  | .leaveDrained => none
  | .fabAssign _ _ => none
  | .fabRtDataWrite _ _ => none
  | .fabSetClear _ => none
  | .rcvReqTimer => none
  | .rcvReq _ => none
  | .rcvData _ _ _ _ => none
  | .rcvGo _ => none
  | .rcvImageComplete => none
  | .lsRetireStack _ _ => none
  | .lsRetireChannel _ _ => none
  | .lsRecalibratePort _ _ => none
  | .lsMicrocode _ _ => none
  | .lsHubFirmware _ _ => none
  | .lsOperationEnd => none
  | .secDbgChallenge _ => none
  | .secDbgRespond _ _ => none
  | .challengeExpiry => none
  | .getMeasurements _ => none
  | .spdmChallenge _ => none
  | .keyExchange _ => none
  | .spdmFinish _ => none
  | .keyUpdate _ => none
  | .spdmHeartbeat _ => none
  | .endSession _ => none
  | .recorderClear _ _ => none
  | .lockstepMismatch => none
  | .setEndpointId _ _ => none
  | .entdaa _ => none
  | .rstdaa => none
  | .getTid _ => none
  | .getPldmTypes _ => none
  | .getPldmCommands _ _ => none
  | .getPldmVersion _ _ => none
  | .sensorRead _ _ _ => none
  | .pdrRead _ _ => none
  | .effecterWrite _ _ _ => none
  | .setEventReceiver _ _ => none
  | .fruRead _ => none
  | .requestUpdate _ => none
  | .componentTransfer _ _ => none
  | .activateFirmware _ => none
  | .setCalendar _ _ => none
  | .getCalendar _ => none
  | .clockPacerStep _ => none
  | .admissionPacer _ _ => none
  | .safetyOverrideEnter _ _ => none
  | .safetyOverrideStep => none
  | .safetyOverrideLeave _ _ => none
  | .snapshotSet _ => none
  | .snapshotFlush => none
  | .evrManual _ => none
  | .evrAdvance _ => none
  | .evrCursorWrite _ _ => none
  | .evrSnapSelWrite _ _ => none
  | .evcFreeze _ _ => none
  | .evcSnap _ => none
  | .evcCountWrite _ _ _ _ => none
  | .evcOverflow _ _ => none
  | .pgErrPop _ _ => none
  | .pgIrqReevaluate _ _ _ _ => none
  | .glbReset _ _ => none
  | .clusterPowerOff _ _ => none
  | .clusterPowerOn _ _ => none
  | .clusterPowerOnDone _ _ _ => none
  | .halfReadLatch _ _ _ => none
  | .halfWrite _ _ _ _ => none
  | .badAccess _ _ _ _ _ => none
  | .registerWrite _ _ _ _ _ => none
  | .auxPowerApplied _ => none
  | .starterVerify _ => none
  | .mainInputPresent => none
  | .bringupPhase4 => none
  | .bringupPhase5 _ => none
  | .catalogueReload _ => none
  | .proofingBegin => none
  | .collectionVerified _ _ => none
  | .fullBegin => none
  | .mainInputLost _ => none
  | .auxInputLost => none
  | .handoverEnd => none
  | .resetNLow => none
  | .hardLimitTrip _ => none
  | .functionLevelReset _ => none
  | .busMasterClear _ => none
  | .vfEnableClear => none
  | .d3hotEntry _ => none
  | .functionDisableComplete _ => none
  | .internalLinkFail _ => none
  | .linkDegraded _ => none
  | .portDown _ => none
  | .resetNRise => none
  | .stackTrained _ => none
  | .managementRestartEnd => none
  | .msixUnmask _ _ => none
  | .peerReportedGone _ => none

/-- What arrives on a port is a flit of 256 bytes, or codewords of 272 symbols of ten bits on four lanes (16 R590, R593). -/
def lineOk : LineIn → Bool
  | .flit b _ _ => b.length == 256
  | .words ws => ws.all fun w => w.length == 4 && w.all fun l => l.length == 68 && l.all fun d => decide (d < 1024)

/-- A command is well formed. -/
def Instr.wf : Instr → Bool
  | .request h => ringOk 0x01 h
  | .inputChunk h => ringOk 0x02 h
  | .cancel h => ringOk 0x03 h
  | .run h => ringOk 0x04 h
  | .batonRelease h => ringOk 0x05 h
  | .ingestOpen h => ringOk 0x06 h
  | .ingestOp h => ringOk 0x07 h
  | .ingestCommit h => ringOk 0x08 h
  | .commitDurable _ => true
  | .ingestAbort h => ringOk 0x09 h
  | .filterRegister h => ringOk 0x0A h
  | .filterUnregister h => ringOk 0x0B h
  | .profileLoad h => ringOk 0x20 h
  | .profileLoadRelease profile => decide (profile < 64)
  | .profileUnload h => ringOk 0x21 h
  | .imageLoad h => ringOk 0x22 h
  | .imageUnload h => ringOk 0x23 h
  | .tokenizerLoad h => ringOk 0x24 h
  | .tokenizerUnload h => ringOk 0x25 h
  | .templateLoad h => ringOk 0x26 h
  | .templateUnload h => ringOk 0x27 h
  | .collectionCreate h => ringOk 0x28 h
  | .collectionDelete h => ringOk 0x29 h
  | .tableCreate h => ringOk 0x2A h
  | .tableDelete h => ringOk 0x2B h
  | .versionNew h => ringOk 0x2C h && (h.slots.getD 56 0).toNat % 4 == 0
  | .versionSwitch h => ringOk 0x2C h && (h.slots.getD 56 0).toNat % 4 == 1
  | .versionRetire h => ringOk 0x2C h && (h.slots.getD 56 0).toNat % 4 == 2
  | .rowPin h => ringOk 0x2C h && (h.slots.getD 56 0).toNat % 4 == 3
  | .accountCreate h => ringOk 0x2D h
  | .accountUpdate h => ringOk 0x2E h
  | .accountDelete h => ringOk 0x2F h
  | .accountScrubEnd account => decide (account < 4096)
  | .qpBind h => ringOk 0x30 h
  | .qpUnbind h => ringOk 0x31 h
  | .fnDisable h => ringOk 0x32 h
  | .acctLogRead h => ringOk 0x33 h
  | .asyncWait h => ringOk 0x34 h
  | .commandFetch h => hostOk h
  | .sqTailDoorbell fn qp _ => decide (fn < 514) && decide (qp < 16385)
  | .cqHeadDoorbell fn qp _ => decide (fn < 514) && decide (qp < 16385)
  | .streamHeadDoorbell fn qp _ => decide (fn < 514) && decide (qp < 16385)
  | .qpEnable fn qp => decide (fn < 514) && decide (qp < 16385)
  | .qpDisable fn qp => decide (fn < 514) && decide (qp < 16385)
  | .qpFind fn q => decide (fn < 514) && decide (q < 0x4000)
  | .irqModerationTimer qp => decide (qp < 16385)
  | .bar4Access _ _ _ => true
  | .dmaReadError _ _ => true
  | .stageBoundary entry => decide (entry < 4096)
  | .walkStart entry => decide (entry < 4096)
  | .walkHop _ walk _ => decide (walk < 16)
  | .relayArrive _ => true
  | .offerBatch _ => true
  | .endReport _ => true
  | .mergeUnite entry => decide (entry < 4096)
  | .shardWaitExpiry entry => decide (entry < 4096)
  | .nodeRebuild _ _ => true
  | .searchHoldSet fn => decide (fn < 514)
  | .searchHoldClear fn => decide (fn < 514)
  | .reservationGrant entry => decide (entry < 4096)
  | .stepForm _ dieMask _ => decide (dieMask < 16)
  | .stepCommit _ => true
  | .entryFree entry => decide (entry < 4096)
  | .genHold fn _ => decide (fn < 514)
  | .rtWinLatch fn _ => decide (fn < 514)
  | .heat => true
  | .sliceEnd _ => true
  | .preemptPointReached _ _ => true
  | .watchdogExpiry cluster slot => decide (cluster < 320) && decide (slot < 4)
  | .schedHold fn _ => decide (fn < 514)
  | .acctWinLatch fn _ => decide (fn < 514)
  | .clusterSleep cluster => decide (cluster < 320)
  | .operationStart cluster slot _ => decide (cluster < 320) && decide (slot < 4)
  | .passIssue cluster slot _ _ => decide (cluster < 320) && decide (slot < 4)
  | .arrDrain fn cluster _ => decide (fn < 514) && decide (cluster < 320)
  | .arrRetire fn cluster => decide (fn < 514) && decide (cluster < 320)
  | .arrSpareRow fn cluster _ => decide (fn < 514) && decide (cluster < 320)
  | .arrSpareColumn fn cluster _ => decide (fn < 514) && decide (cluster < 320)
  | .arrSelfTest fn cluster => decide (fn < 514) && decide (cluster < 320)
  | .arrSpareDone cluster _ => decide (cluster < 320)
  | .rowDeltaArrive _ _ _ _ _ => true
  | .fetchIssue _ _ => true
  | .fetchArrive _ _ _ => true
  | .fetchDeadline _ _ => true
  | .rowPromote _ _ _ _ => true
  | .promotionSnapshotsDone _ _ _ => true
  | .promotionLogApplied _ _ _ => true
  | .rowDemote _ _ _ => true
  | .demotionReadsDone _ _ _ => true
  | .dirtyWriteback _ _ _ => true
  | .scrubPass stack => decide (stack < 20)
  | .lendReclaimStart _ => true
  | .leasePathLost _ => true
  | .memLendDisable fn => decide (fn < 514)
  | .flashReadDecode r => flashOk r
  | .gcStart channel part => decide (channel < 64) && decide (part < 2)
  | .gcBlock channel part => decide (channel < 64) && decide (part < 2)
  | .wearLevelMove channel part => decide (channel < 64) && decide (part < 2)
  | .spareLowReached channel part => decide (channel < 64) && decide (part < 2)
  | .programFail channel part die _ => decide (channel < 64) && decide (part < 2) && decide (die < 16)
  | .channelFail channel => decide (channel < 64)
  | .flitReceive port line => decide (port < 32) && lineOk line
  | .retryRequest port _ => decide (port < 32)
  | .linkKeyUpdate port => decide (port < 32)
  | .portTrained port peerFec _ => decide (port < 32) && decide (peerFec < 2)
  | .linkSession port peer _ => decide (port < 32) && decide (peer < 2 ^ 20)
  | .retxTimer peer => decide (peer < 1048576)
  | .peerLossTimer peer => decide (peer < 1048576)
  | .tablePin p => packetOk p
  | .tableUnpin p => packetOk p
  | .rowRead p => packetOk p
  | .rowAdd p => packetOk p
  | .redExp p => packetOk p
  | .redAgree p => packetOk p
  | .redPart p => packetOk p
  | .redResult p => packetOk p
  | .redAbort p => packetOk p
  | .shardQuery p => packetOk p
  | .shardList p => packetOk p
  | .leaseReq p => packetOk p
  | .leaseGrant p => packetOk p
  | .leaseReclaim p => packetOk p
  | .leaseRelease p => packetOk p
  | .lentWrite p => packetOk p
  | .lentRead p => packetOk p
  | .pairAck p => packetOk p
  | .assign p => packetOk p
  | .assignVia p => packetOk p
  | .assigned p => packetOk p
  | .admitPacket p => packetOk p
  | .unassign p => packetOk p
  | .leavePacket p => packetOk p
  | .anchorMove p => packetOk p
  | .regRead p => packetOk p
  | .regWrite p => packetOk p
  | .spdmRelay p => packetOk p
  | .noNeighbour p => packetOk p
  | .fabAnswer p => packetOk p
  | .fabLeave fn => decide (fn < 514)
  | .leaveDrained => true
  | .fabAssign fn _ => decide (fn < 514)
  | .fabRtDataWrite fn _ => decide (fn < 514)
  | .fabSetClear fn => decide (fn < 514)
  | .rcvReqTimer => true
  | .rcvReq port => decide (port < 32)
  | .rcvData port _ _ _ => decide (port < 32)
  | .rcvGo _ => true
  | .rcvImageComplete => true
  | .lsRetireStack fn _ => decide (fn < 514)
  | .lsRetireChannel fn _ => decide (fn < 514)
  | .lsRecalibratePort fn _ => decide (fn < 514)
  | .lsMicrocode fn _ => decide (fn < 514)
  | .lsHubFirmware fn _ => decide (fn < 514)
  | .lsOperationEnd => true
  | .secDbgChallenge fn => decide (fn < 514)
  | .secDbgRespond fn _ => decide (fn < 514)
  | .challengeExpiry => true
  | .getMeasurements m => decide (m.mailbox < 3)
  | .spdmChallenge m => decide (m.mailbox < 3)
  | .keyExchange m => decide (m.mailbox < 3)
  | .spdmFinish m => decide (m.mailbox < 3)
  | .keyUpdate m => decide (m.mailbox < 3)
  | .spdmHeartbeat m => decide (m.mailbox < 3)
  | .endSession m => decide (m.mailbox < 3)
  | .recorderClear _ _ => true
  | .lockstepMismatch => true
  | .setEndpointId binding _ => decide (binding < 2)
  | .entdaa _ => true
  | .rstdaa => true
  | .getTid binding => decide (binding < 2)
  | .getPldmTypes binding => decide (binding < 2)
  | .getPldmCommands binding _ => decide (binding < 2)
  | .getPldmVersion binding _ => decide (binding < 2)
  | .sensorRead binding _ _ => decide (binding < 2)
  | .pdrRead binding _ => decide (binding < 2)
  | .effecterWrite binding _ _ => decide (binding < 2)
  | .setEventReceiver binding _ => decide (binding < 2)
  | .fruRead binding => decide (binding < 2)
  | .requestUpdate binding => decide (binding < 2)
  | .componentTransfer component _ => decide (component < 5)
  | .activateFirmware binding => decide (binding < 2)
  | .setCalendar binding _ => decide (binding < 2)
  | .getCalendar binding => decide (binding < 2)
  | .clockPacerStep _ => true
  | .admissionPacer prio _ => decide (prio < 4)
  | .safetyOverrideEnter _ _ => true
  | .safetyOverrideStep => true
  | .safetyOverrideLeave _ _ => true
  | .snapshotSet _ => true
  | .snapshotFlush => true
  | .evrManual fn => decide (fn < 514)
  | .evrAdvance fn => decide (fn < 514)
  | .evrCursorWrite fn _ => decide (fn < 514)
  | .evrSnapSelWrite fn _ => decide (fn < 514)
  | .evcFreeze fn _ => decide (fn < 514)
  | .evcSnap fn => decide (fn < 514)
  | .evcCountWrite fn page counter _ => decide (fn < 514) && decide (page < 512) && decide (counter < 8)
  | .evcOverflow page counter => decide (page < 512) && decide (counter < 8)
  | .pgErrPop fn page => decide (fn < 514) && decide (page < 512)
  | .pgIrqReevaluate fn page _ _ => decide (fn < 514) && decide (page < 512)
  | .glbReset fn _ => decide (fn < 514)
  | .clusterPowerOff fn cluster => decide (fn < 514) && decide (cluster < 320)
  | .clusterPowerOn fn cluster => decide (fn < 514) && decide (cluster < 320)
  | .clusterPowerOnDone cluster _ _ => decide (cluster < 320)
  | .halfReadLatch fn page _ => decide (fn < 514) && decide (page < 512)
  | .halfWrite fn page _ _ => decide (fn < 514) && decide (page < 512)
  | .badAccess fn page _ _ _ => decide (fn < 514) && decide (page < 512)
  | .registerWrite fn page _ size _ => decide (fn < 514) && decide (page < 512) && (size == 4 || size == 8)
  | .auxPowerApplied _ => true
  | .starterVerify _ => true
  | .mainInputPresent => true
  | .bringupPhase4 => true
  | .bringupPhase5 _ => true
  | .catalogueReload _ => true
  | .proofingBegin => true
  | .collectionVerified _ _ => true
  | .fullBegin => true
  | .mainInputLost _ => true
  | .auxInputLost => true
  | .handoverEnd => true
  | .resetNLow => true
  | .hardLimitTrip _ => true
  | .functionLevelReset fn => decide (fn < 514)
  | .busMasterClear fn => decide (fn < 514)
  | .vfEnableClear => true
  | .d3hotEntry fn => decide (fn < 514)
  | .functionDisableComplete fn => decide (fn < 514)
  | .internalLinkFail link => decide (link < 54)
  | .linkDegraded link => decide (link < 54)
  | .portDown port => decide (port < 32)
  | .resetNRise => true
  | .stackTrained stack => decide (stack < 20)
  | .managementRestartEnd => true
  | .msixUnmask fn _ => decide (fn < 514)
  | .peerReportedGone peer => decide (peer < 1048576)

end Sys2Proof
end

