-- ==== Sys2Proof/Decode.lean ====
section
/-! DEFINITION. Reading a command from a word.  The table of the block's commands gives no row any bits: a ring command
is read from its slots (Machine/Operands.lean), an event is no word at all.  So no word spells a command. -/

namespace Sys2Proof

/-- The command that a word spells by the table's bits: none, since no row has bits. -/
def decodeTableWord (_nbits _w : Nat) : Option Instr := none

end Sys2Proof
end

