-- ==== Sys2Proof/Config.lean ====
section
/-! DEFINITION. What one build of the module fixes, and the free values: constants with no body, so that nothing in
Lean can evaluate them or prove a value of them. -/

namespace Sys2Proof.Config

/-- The ordering code of the module modelled: `true` for KLF-9480-131, `false` for KLF-9480-262 (00_scope R1). -/
opaque is131 : Bool
/-- GLB_REV, build-specific (20 R747). -/
opaque glbRev : BitVec 32
/-- Fjodun's MIPI manufacturer ID (19 R696). -/
opaque mipiId : BitVec 15
/-- How the host's link trained: speed, width and flit mode (15 R569). -/
opaque hostLink : BitVec 9
/-- The 16-byte device serial (20 R747, 18 R666). -/
opaque serialByte : Nat → BitVec 8
/-- PG_CAP's count of event sources of a page less 1, so the count lies in 1 to 256 (20 R737). -/
opaque pgCapLess1 : Nat → BitVec 8
/-- Free values: the n-th value the model draws where the spec leaves a value open (assumption 3). -/
opaque free64 : Nat → BitVec 64
/-- The n-th 32-byte nonce of the security unit's CTR_DRBG (18 R686). -/
opaque drbgByte : Nat → Nat → BitVec 8
/-- The module's choice of the n-th image handle, before it is moved to a free non-zero one (05 R144). -/
opaque handleChoice : Nat → BitVec 32
/-- Whether a signed object's section verifies under R670 (chain, purpose, revocation, signature): object kind,
signed bytes, section bytes, revoked digests.  The root digest and the certificates are not in the spec. -/
opaque signatureOk : Nat → List (BitVec 8) → List (BitVec 8) → List (List (BitVec 8)) → Bool
/-- Whether the AES-256-GCM tag of a flit received verifies under a key and a salt (16 R598). -/
opaque flitTagOk : List (BitVec 8) → List (BitVec 8) → List (BitVec 8) → Bool
/-- AES-256-GCM of a flit sent: key, 96-bit IV, header, payload; its 224 bytes of cipher text and 16-byte tag (16 R598). -/
opaque flitSeal : List (BitVec 8) → List (BitVec 8) → List (BitVec 8) → List (BitVec 8) → List (BitVec 8)
/-- The tag field of a flit sent unencrypted, in LOCAL (16 R593, R601: the spec states none). -/
opaque openTag : Nat → List (BitVec 8) → List (BitVec 8)
/-- The plain payload of a flit whose tag verified under a key and a salt (16 R598). -/
opaque flitPlain : List (BitVec 8) → List (BitVec 8) → List (BitVec 8) → List (BitVec 8)
/-- The export master secret of the n-th SPDM session of a port (18 R681). -/
opaque exportSecret : Nat → Nat → List (BitVec 8)
/-- The 512-bit seed that the PUF response and the helper data give (18 R664). -/
opaque pufSeed : List (BitVec 8)
/-- The n-th set of data keys the CTR_DRBG made: a memory pair and a store pair of AES-256-XTS (18 R678). -/
opaque dataKeys : Nat → List (BitVec 8)
/-- The AES-256-GCM key of a hub's board link and ring that ECDH gives at the n-th bring-up (18 R678). -/
opaque boardKey : Nat → Nat → List (BitVec 8)
/-- AES-256 key wrap (NIST SP 800-38F) under a key-encryption key (18 R679). -/
opaque keyWrap : List (BitVec 8) → List (BitVec 8) → List (BitVec 8)
/-- The code that authenticates the contents of the replay-protected area under a key; the spec names no algorithm (18 R671). -/
opaque areaCode : List (BitVec 8) → List (BitVec 8) → List (BitVec 8)
/-- SHA-512 as an uninterpreted function; measurements are built with it (18 R676). -/
opaque sha512 : List (BitVec 8) → List (BitVec 8)
/-- The SPDM signature the identity key gives over a message (18 R664, R675). -/
opaque spdmSign : List (BitVec 8) → List (BitVec 8)
/-- Whether the leaf certificate of a session's requester allows recorder clearing under R670 (19 R724). -/
opaque recorderClearOk : Nat → Bool
/-- The certificate chain of slot 0 (18 R666). -/
opaque certChain : List (BitVec 8)
/-- The responder's Diffie-Hellman share and key confirmation of its n-th key exchange (18 R675). -/
opaque dhShare : Nat → List (BitVec 8)
/-- Whether a FINISH message verifies in a session: the confirmation, and the requester's chain and signature where it
authenticates (18 R675). -/
opaque finishOk : Nat → List (BitVec 8) → Bool
/-- The first 16 bytes of the digest of a session's requester's leaf key, as two words (19 R724). -/
opaque requesterKey : Nat → Nat → BitVec 64
/-- The version number in a microcode or hub firmware object, whose body the spec does not lay out (17 R658, R661). -/
opaque objectVersion : List (BitVec 8) → BitVec 32
/-- The platform data record of a sensor or effecter (19 R697). -/
opaque pdrBytes : Nat → List (BitVec 8)
/-- The terminus ID, PLDM versions and command masks that DSP0240 asks for and the spec does not number (19 R697). -/
opaque pldmByte : Nat → Nat → BitVec 8
/-- SHA-512 digests of the starter ROM (0), and of the microcode (1) and hub firmware (2) a module is made with, by version
(18 R676). -/
opaque factoryDigest : Nat → Nat → List (BitVec 8)
/-- The management firmware image a module is made with (17 R650, 18 R676). -/
opaque factoryImage : List (BitVec 8)
/-- The Brixjo lines at which the module keeps a page list (0) or a stop set (1) of a request-table entry (10 R346). -/
opaque entryLine : Nat → Nat → BitVec 35

/-- 32-bit values of a search that the spec does not state: a distance-table entry or header word, or a distance, whose
formula meets a difference or quotient of infinities (07 R234, 09 R324), by kind and index. -/
opaque open32 : Nat → Nat → BitVec 32

/-- An operand that the bytes of a version command's operand block spell, by operation and field: the spec lists the
operands and gives no layout (11 R402). -/
opaque versionField : Nat → Nat → List (BitVec 8) → BitVec 64
/-- A parameter that an operation's parameter units spell, by opcode and field, where the spec gives no layout: the base of
ROPE, the epsilon of NORM, the scales of SOFTMAX and ATTN_PAGED, the axis of REDUCE, the set and reference of ALLREDUCE
(05 R167 to R172, 16 R616). -/
opaque opParam : Nat → Nat → List (BitVec 8) → BitVec 32
/-- The 64-byte line of a context's allocation at which the compiler put a tier-0 tensor's elements (false) or scales (true),
by image_id, image_version and tensor (05 R151: the descriptor gives no place). -/
opaque sramLine : Nat → Nat → Nat → Bool → BitVec 17
/-- A byte of a context's allocation beyond live_bytes after a restore, by draw and offset (05 R180). -/
opaque staleByte : Nat → Nat → BitVec 8
/-- A dynamic extent whose source the spec does not tie to one request, by unit and source (05 R152). -/
opaque dynExtent : Nat → Nat → Nat
/-- Cycles of the pass groups into which ATTN_PAGED splits, by the extents of its queries and keys: the spec lets the module
split the keys in any way (05 R171, R183). -/
opaque attnPassCost : List Nat → List Nat → Nat
/-- Passes into which ATTN_PAGED splits, by the extents of its queries and keys (05 R171; 04 R134). -/
opaque attnPasses : List Nat → List Nat → Nat

/-- What a stage that runs on clusters without an image spends, by stage and the extents of its work: issue slots of its passes
(0), Brixjo lines (1) and flash unit reads (2): the spec lays out neither its passes nor what of its records Brixjo holds
(01, stages 4, 5, 8; 08 R299). -/
opaque stageCost : Nat → Nat → List Nat → Nat
/-- Whether a shadow table's row is readable in Brixjo when the fetch of its primary row misses, by unit, fetch number and row
(11 R411). -/
opaque shadowReadable : Nat → Nat → Nat → Bool

/-- The DRAM row of its stack on which a Brixjo line lies, by line address (12 R451). -/
opaque dramRow : Nat → Nat
/-- Spare rows on the die with fewest, of a freshly trained stack (12 R478). -/
opaque spareRows : Nat → BitVec 12

/-- AES-256-XTS over the 64 bytes of a line, and its inverse under a key pair (12 R445, IEEE 1619): the owner of the key pair
(an account, or 4,096 for the module), which of the pairs made for that owner it is, the tweak, the bytes.  The keys are made on
the module and never leave it (18 R678). -/
opaque lineEncrypt : Nat → Nat → Nat → List (BitVec 8) → List (BitVec 8)
opaque lineDecrypt : Nat → Nat → Nat → List (BitVec 8) → List (BitVec 8)
/-- The pages a borrower asks for in its n-th LEASE_REQ (16 R617: the spec names no number). -/
opaque leaseWant : Nat → BitVec 20

end Sys2Proof.Config
end

