-- ==== Sys2Proof/Machine/State.lean ====
section
/-! DEFINITION. The machine as plain data: every register, queue, table, record and unit the spec gives the module, the
queue of waiting commands, the reasons a step can stop, and the machine right after reset.  Each field's docstring names
the rule that gives it and its reset value; "DC n" marks a reset value that assumption n names because the spec gives
none.  Field defaults ARE the reset values. -/

namespace Sys2Proof.Machine

/-! ### The common part of a block page (20_register_map) -/

/-- One entry of a page's error log (20 R741). -/
structure ErrEntry where
  seq  : Nat
  code : Nat
  inst : Nat
deriving DecidableEq, Repr

/-- One event counter of a page (20 R737, R742). -/
structure Evc where
  /-- EVC_SELi.source (20 R742; reset 0) -/
  source : Nat := 0
  /-- EVC_SELi.enable (20 R742; reset 0) -/
  enable : Bool := false
  /-- EVC_COUNTi, 48 bits (20 R737; reset 0) -/
  count  : Nat := 0
  /-- EVC_SNAPi, 48 bits (20 R737, 19 R727; reset 0) -/
  snap   : Nat := 0
deriving DecidableEq, Repr

/-- The common part of one block page (20 R737). -/
structure Page where
  /-- PG_CTL, vector [10:0], target [11], irq_en [12] (20 R739; reset 0) -/
  ctl    : BitVec 32 := 0
  /-- PG_IRQ_STATUS.evc_ovf (20 R739; reset 0) -/
  ovf    : BitVec 8 := 0
  /-- PG_IRQ_ENABLE (20 R737; reset 0) -/
  enable : BitVec 32 := 0
  /-- the block's own interrupt condition latched by the flash unit and like blocks, PG_IRQ_STATUS.block (20 R739; reset 0) -/
  block  : Bool := false
  /-- PG_STATUS.irq, whether the page interrupt is asserted (20 R739, R740; reset 0) -/
  irq    : Bool := false
  /-- error log, oldest first, at most 8; PG_ERR_HEAD and PG_ERR_STATUS.entries show it (20 R741; reset empty) -/
  errs   : List ErrEntry := []
  /-- PG_ERR_STATUS.ovf (20 R739; reset 0) -/
  errOvf : Bool := false
  /-- the eight event counters EVC_SEL0-7, EVC_COUNT0-7, EVC_SNAP0-7 (20 R737; reset 0) -/
  evcs   : List Evc := List.replicate 8 {}
deriving DecidableEq, Repr

/-- Register-access state shared by all pages. -/
structure Regs where
  /-- common parts by page number, pages not listed at their reset values (20 R731, R737; reset none listed) -/
  pages : Map Page := []
  /-- EVC_CTL.freeze (19 R730; reset 0) -/
  evcFreeze : Bool := false
  /-- high halves latched by 4-byte low reads: function, page, offset of the low half, latched high half (20 R735; reset none) -/
  latched : List (Nat × Nat × Nat × BitVec 32) := []
  /-- low-half writes held: function, page, offset of the low half, value (20 R735; reset none) -/
  held : List (Nat × Nat × Nat × BitVec 32) := []
  /-- GLB_BAD_ACCESS (20 R747; reset 0) -/
  badAccess : Nat := 0
  /-- the MODEL's own field: the value the last read returned to its reader (assumption 5; DC 5: reset 0) -/
  readValue : Bytes := []
deriving DecidableEq, Repr

/-! ### Host interface (15_host_interface) -/

/-- A command fetched and not yet run: its bytes and the submission head after its fetch (15 R563, R581). -/
structure Fetched where
  slots  : Bytes
  sqHead : Nat
  /-- module time at which the doorbell that covered it was observed (14 R543) -/
  seen   : Nat := 0
  /-- an INGEST_OP fetched after its session's INGEST_COMMIT or INGEST_ABORT (07 R249) -/
  late   : Bool := false
deriving DecidableEq, Repr

/-- One queue pair (15 R558 to R573). -/
structure Qp where
  /-- function and account it is bound to (14 R522; reset none) -/
  bound : Option (Nat × Nat) := none
  /-- QP_SQ_BASE (15 R567; reset 0) -/
  sqBase : BitVec 64 := 0
  /-- QP_CQ_BASE (15 R567; reset 0) -/
  cqBase : BitVec 64 := 0
  /-- QP_ST_BASE (15 R567; reset 0) -/
  stBase : BitVec 64 := 0
  /-- QP_ST_WB (15 R567; reset 0) -/
  stWb : BitVec 64 := 0
  /-- QP_SIZES, sq_log2 [4:0], cq_log2 [9:5], st_log2 [14:10] (15 R570; reset 0) -/
  sizes : BitVec 32 := 0
  /-- QP_IRQ, vector [10:0], irq_en [11], count [19:12], timer [31:20] (15 R571; reset 0) -/
  irq : BitVec 32 := 0
  /-- QP_CTL.enable (15 R572; reset 0) -/
  enable : Bool := false
  /-- QP_STATUS.err (15 R572; reset 0) -/
  err : Bool := false
  /-- QP_STATUS.cause (15 R572; reset 0) -/
  cause : Nat := 0
  /-- SQ tail doorbell value (15 R561, R559; reset 0) -/
  sqTail : Nat := 0
  /-- submission head (15 R559; reset 0) -/
  sqHead : Nat := 0
  /-- CQ head doorbell value (15 R561; reset 0) -/
  cqHead : Nat := 0
  /-- completion tail (15 R559; reset 0) -/
  cqTail : Nat := 0
  /-- completion entries written and not consumed (15 R563; reset 0) -/
  cqUsed : Nat := 0
  /-- completion phase (15 R559, R564; reset 0, set to 1 at enable; DC 4) -/
  phase : Bool := false
  /-- completion entries reserved by fetched commands (15 R563; reset 0) -/
  reserved : Nat := 0
  /-- stream bytes produced since enable (15 R565; reset 0) -/
  produced : Nat := 0
  /-- stream bytes consumed since enable (15 R561; reset 0) -/
  consumed : Nat := 0
  /-- stream bytes reserved by members of steps in flight (15 R566; reset 0) -/
  stReserved : Nat := 0
  /-- doorbell observations not yet passed by the head: tail announced and module time (15 R561, 14 R543; reset none) -/
  observed : List (Nat × Nat) := []
  /-- pending interrupt events (15 R573; reset 0) -/
  events : Nat := 0
  /-- module time of the first pending event (15 R573; reset 0) -/
  firstEvent : Nat := 0
  /-- tags of the 64 requests and runs completed last, newest first (10 R378; reset none) -/
  recent : List Nat := []
  /-- commands fetched and not yet run, oldest first (15 R563; reset none) -/
  fetched : List Fetched := []
deriving DecidableEq, Repr

/-- The registers and PCI Express state of one function (15 R556, R567, 14 R541). -/
structure Fn where
  /-- QP_FIND[15:0] (15 R567; reset 0xFFFF) -/
  qpFind : Nat := 0xFFFF
  /-- QP_SEL[14:0] (15 R567; reset 0) -/
  qpSel : Nat := 0
  /-- HIF_DB_DROPPED (15 R567; reset 0) -/
  dbDropped : Nat := 0
  /-- Bus Master Enable and VF Enable: whether the function is enabled (14 R541; DC 4: reset enabled) -/
  enabled : Bool := true
  /-- module time of an accepted disable still in progress (14 R541; reset none) -/
  disabling : Option Nat := none
  /-- MSI-X Function Mask (15 R573; DC 4: reset 0) -/
  fnMask : Bool := false
  /-- vectors whose vector mask is set (15 R573; DC 4: reset none) -/
  vecMask : List Nat := []
  /-- vectors whose message is held pending by a mask (15 R573; reset none) -/
  vecPending : List Nat := []
  /-- function in D3hot (15 R553; DC 4: reset no) -/
  d3hot : Bool := false
deriving DecidableEq, Repr

/-- An asynchronous notice (15 R585): status SPARE_LOW or MEDIA_READ_ONLY, partition, channel. -/
structure Notice where
  status : Nat
  part   : Nat
  channel : Nat
deriving DecidableEq, Repr

/-- An outstanding ASYNC_WAIT: its tag and the submission head after its fetch (15 R585). -/
structure Wait where
  tag : Nat
  sqHead : Nat
deriving DecidableEq, Repr

/-- The host interface. -/
structure Hif where
  /-- queue pairs by number; 0x4000 and 0x4001 the admin queue pairs (15 R556, R558; reset all at reset values) -/
  qps : Map Qp := []
  /-- functions by number, those not listed at reset values (15 R556; reset none listed) -/
  fns : Map Fn := []
  /-- host memory as the module's DMA writes leave it, byte addresses; an address not listed reads 0 (assumption 6; DC 6: reset empty) -/
  hostMem : List Host.Cell := []
  /-- MSI-X messages sent, newest first: function and vector (15 R573; reset none) -/
  msgs : List (Nat × Nat) := []
  /-- ASYNC_WAITs outstanding, oldest first, service PF (15 R585; reset none) -/
  waits0 : List Wait := []
  /-- ASYNC_WAITs outstanding, oldest first, management PF (15 R585; reset none) -/
  waits1 : List Wait := []
  /-- notices queued, oldest first, service PF, at most 64 (15 R585; reset none) -/
  notices0 : List Notice := []
  /-- notices queued, oldest first, management PF, at most 64 (15 R585; reset none) -/
  notices1 : List Notice := []
  /-- HIF_NOTICE_LOST, service PF (15 R567; reset 0) -/
  lost0 : Nat := 0
  /-- HIF_NOTICE_LOST, management PF (15 R567; reset 0) -/
  lost1 : Nat := 0
  /-- module time of the last fetch of a REQUEST or RUN by priority (19 R710; reset none) -/
  lastFetch : Map Nat := []
  /-- HIF_LINK speed, width, flit (15 R569; reset 0) -/
  link : BitVec 32 := 0
  /-- HIF_BAR4_BASE (15 R567; reset 0) -/
  bar4Base : BitVec 32 := 0
  /-- HIF_BAR4_DENIED (15 R567; reset 0) -/
  bar4Denied : Nat := 0
deriving DecidableEq, Repr

/-! ### Accounts and scheduling (14_tenancy_and_scheduling) -/

/-- The counters of R346 bytes 136-199 and the rest of R543. -/
structure Counters where
  /-- wait_ns (14 R543; reset 0) -/
  waitNs : Nat := 0
  /-- array_cycles (14 R543; reset 0) -/
  arrayCycles : Nat := 0
  /-- brixjo_bytes (14 R543; reset 0) -/
  brixjoBytes : Nat := 0
  /-- flash_reads (14 R543; reset 0) -/
  flashReads : Nat := 0
  /-- flash_spec (14 R543; reset 0) -/
  flashSpec : Nat := 0
  /-- tokens_in (14 R543; reset 0) -/
  tokensIn : Nat := 0
  /-- tokens_out (14 R543; reset 0) -/
  tokensOut : Nat := 0
  /-- degraded (14 R543; reset 0) -/
  degraded : Nat := 0
  /-- false_starts (14 R543; reset 0) -/
  falseStarts : Nat := 0
  /-- preempt (14 R543; reset 0) -/
  preempt : Nat := 0
  /-- drafts_rejected (14 R543; reset 0) -/
  draftsRejected : Nat := 0
  /-- faults (14 R543; reset 0) -/
  faults : Nat := 0
  /-- ended (14 R543; reset 0) -/
  ended : Nat := 0
deriving DecidableEq, Repr

/-- The account record (14 R516). -/
structure AcctRec where
  maxPrio : Nat
  dieMask : Nat
  weight  : Nat
  entriesMax : Nat
  sliceUs : Nat
deriving DecidableEq, Repr

/-- One account. -/
structure Account where
  /-- its record (14 R516) -/
  record : AcctRec
  /-- its counters (14 R543; reset 0 at creation) -/
  ctr : Counters := {}
  /-- slice debt in ns, saturating at 100 ms (14 R537; reset 0) -/
  debtNs : Nat := 0
  /-- vtime (14 R532; reset 0) -/
  vtime : Nat := 0
deriving DecidableEq, Repr

/-- What a unit of the scheduler works for (14, Units and slots). -/
inductive UnitKind where
  | run (entry : Nat)
  | stage (entry stage : Nat)
  | step (step : Nat)
deriving DecidableEq, Repr

/-- The state of a relay-schedule fetch (12 R458 to R462). -/
inductive FetchState where
  | outstanding | arrived | missed
deriving DecidableEq, Repr

/-- One issued fetch of a unit's relay schedule (12 R458). -/
structure Fetch where
  seq : Nat
  issued : Nat
  /-- deadline instant on module time (12 R460) -/
  deadline : Nat
  state : FetchState
  /-- rows not yet readable, of a table fetch (12 R462) -/
  rowsLeft : List Nat := []
  /-- rows it names whose home copy lies on each compute die (14 R531) -/
  dieRows : List Nat := []
  /-- rows of a shared table that draft positions alone name (18 R684) -/
  spec : List Nat := []
deriving DecidableEq, Repr

/-- A row of elements held by position: their bits, and the scale byte that applies to each in an MX format (10 R349, 05
R154). -/
structure ERow where
  bits : List Nat
  scales : List Nat := []
deriving DecidableEq, Repr

/-- A tensor's contents in a context: run-time extents and bytes in stored layout (05 R151). -/
structure Tensor where
  dims : List Nat
  data : Bytes
  scales : Bytes := []
deriving DecidableEq, Repr

/-- One context on a cluster (05, Contexts and cores). -/
structure Ctx where
  /-- the unit it belongs to (14 R528) -/
  unit : Nat
  account : Nat
  image : Nat
  /-- index of the next operation of the list (05 R159) -/
  pc : Nat := 0
  /-- numeric flags gathered (05 R160) -/
  flags : BitVec 4 := 0
  /-- tensors by tensor ID (05 R151) -/
  tensors : Map Tensor := []
  /-- its SRAM allocation, byte offsets within it; an offset not listed reads 0 (04 R127; DC 7) -/
  sram : List Host.Cell := []
  /-- ranges of the allocation that hold no defined value after a restore (05 R180): first byte, end, draw -/
  stale : List (Nat × Nat × Nat) := []
  /-- own time in ns since the last preemption point, the watchdog's count (05 R184) -/
  watchdog : Nat := 0
  /-- issued fetches (12 R458) -/
  fetches : List Fetch := []
  /-- tensors and tables whose fetch missed in this section: fetch numbers (12 R462) -/
  missed : List Nat := []
  /-- the context waits at a PREEMPT_POINT for an operation of 05 R163 -/
  waiting : Bool := false
  /-- remote reads and adds of its operation not yet answered (16 R614, R615) -/
  asks : Nat := 0
deriving DecidableEq, Repr

/-- One unit of the scheduler, keyed by its number (14 R528). -/
structure SUnit where
  kind : UnitKind
  /-- members: request-table entry, account and positions in the step (14 R545) -/
  members : List (Nat × Nat × Nat)
  prio : Nat
  image : Nat
  /-- clusters it occupies (05 R148 cluster_span) -/
  span : Nat
  /-- SRAM bytes per context (05 R148) -/
  sram : Nat
  /-- compute dies it may use (14 R526) -/
  dieMask : Nat
  /-- module time at which it became ready (14 R527) -/
  readyTime : Nat
  /-- clusters and slots it holds (14 R525) -/
  slots : List (Nat × Nat) := []
  /-- own time in ns since its creation (05 R184) -/
  ownNs : Nat := 0
  /-- own time at which its slice ends (14 R535) -/
  sliceEnd : Nat := 0
  /-- own time at which an ended slice ended (14 R536, R537) -/
  sliceEnded : Option Nat := none
  /-- module time at which it last reached a preemption point since it was placed (14 R538); none at its creation -/
  pointAt : Option Nat := none
  /-- the unit on whose behalf it is marked, and whether its slice had ended when it was marked (14 R529, R537) -/
  marked : Option (Nat × Bool) := none
  /-- cluster that holds its saved SRAM state, when it was saved (14 R531) -/
  savedOn : Option Nat := none
  /-- the contexts saved when it left its slots, by index of its share (14 R530, 05 R179) -/
  saved : Map Ctx := []
  /-- clusters a rerun of its step avoids (10 R365) -/
  avoid : List Nat := []
  /-- what the last operation of a stage's image left in its first output, as FP32 bits (08 R266, 09 R327; assumption 22) -/
  results : List (BitVec 32) := []
deriving DecidableEq, Repr

/-- Accounts and the scheduler. -/
structure Sched where
  /-- accounts by number (14 R515; reset none) -/
  accounts : Map Account := []
  /-- key generation of each account number, 0 when not listed (12 R448; reset 0) -/
  keygen : Map Nat := []
  /-- account numbers whose scrub is running (14 R521; reset none) -/
  scrubbing : List Nat := []
  /-- accounting log, oldest first, at most 32,768 records of 128 bytes (14 R542; reset empty) -/
  log : List Bytes := []
  /-- ACCT_LOG_LOST (14 R547; reset 0) -/
  logLost : Nat := 0
  /-- ACCT_SEL (14 R551; reset 0) -/
  acctSel : BitVec 32 := 0
  /-- ACCT_WIN, the latched copy (14 R552; reset 0) -/
  acctWin : Bytes := []
  /-- SCHED_CTL.hold (14 R548; reset 0) -/
  hold : Bool := false
  /-- SCHED_DEFAULT_SLICE (14 R550; reset 0x7D0) -/
  defaultSlice : Nat := 0x7D0
  /-- SCHED_HEATS (14 R547; reset 0) -/
  heats : Nat := 0
  /-- SCHED_PREEMPTS (14 R547; reset 0) -/
  preempts : Nat := 0
  /-- SCHED_DEBT_NS (14 R547; reset 0) -/
  debtNs : Nat := 0
  /-- SCHED_FAULTS (14 R547; reset 0) -/
  faults : Nat := 0
  /-- units by unit number (14 R528; reset none) -/
  units : Map SUnit := []
  /-- the next unit number (14 R528; reset 0) -/
  nextUnit : Nat := 0
deriving DecidableEq, Repr

/-! ### Clusters and arrays (02_module_build, 04_matrix_arrays, 05_operation_graphs) -/

/-- A product placed or to be placed for one output element: m·2^e (03 R71). -/
structure Dy where
  m : Int
  e : Int
deriving DecidableEq, Repr

/-- The accumulator entry of one output element of the pass group in flight (04 R96, 03 R69, R71): its exact products,
the scale sums gathered for automatic mode, whether a NaN or infinite operand reached it. -/
structure AccEntry where
  prob : Nat
  vec  : Nat
  col  : Nat
  products : List Dy := []
  scaleSums : List Int := []
  invalid : Bool := false
deriving DecidableEq, Repr

/-- Identity of the weights resident in an array (04 R129): the issuing context by its unit and its share of it, fmt_b and
every problem's w_addr, w_scale and tile. -/
structure WeightId where
  unit : Nat
  share : Nat
  fmtB : Nat
  probs : List (Nat × Nat × Nat)
deriving DecidableEq, Repr

/-- A pass group in flight on an array (04 R103): slot that issues it, passes issued, its length, its entries. -/
structure Group where
  slot : Nat
  /-- descriptor of its first pass, which the others repeat but for addresses and index (04 R114) -/
  desc : Bytes
  next : Nat
  len  : Nat
  acc  : List AccEntry
deriving DecidableEq, Repr

/-- The operation a spare or self-test write started (04 R139). -/
inductive SpareOp where
  | row (index : Nat) | col (index : Nat) | selfTest
deriving DecidableEq, Repr

/-- One cluster with its array (02 R37, 04 R134, 20 R752). -/
structure Cluster where
  /-- ARR_CTL.drain (04 R135; reset 0) -/
  drain : Bool := false
  /-- a drain = 0 written while spare_busy, to act when the operation ends (04 R124; reset no) -/
  undrainAfter : Bool := false
  /-- ARR_STATUS.retired and ARR_CTL.retire (04 R135, R136; reset 0) -/
  retired : Bool := false
  /-- the spare or self-test operation running, ARR_STATUS.spare_busy (04 R136; reset none) -/
  spareOp : Option SpareOp := none
  /-- bypassed physical rows, rising; ARR_SPARE_MAP row_a, row_b (04 R138; reset none) -/
  rows : List Nat := []
  /-- bypassed physical columns, rising; ARR_SPARE_MAP col_a, col_b (04 R138; reset none) -/
  cols : List Nat := []
  /-- spare physical rows 128 and 129 that failed the self-test (04 R119, R136; reset none) -/
  badRows : List Nat := []
  /-- spare physical columns 128 and 129 that failed the self-test (04 R119, R136; reset none) -/
  badCols : List Nat := []
  /-- ARR_SPARE_RESULT.result (04 R140; reset 0) -/
  result : Nat := 0
  /-- ARR_SPARE_RESULT.valid (04 R140; reset 0) -/
  resultValid : Bool := false
  /-- ARR_FAULT residue_err, sram_range, test_fail (04 R141; reset 0) -/
  fault : BitVec 32 := 0
  /-- ARR_FAULT_LOC (04 R142; reset 0xFFFF) -/
  faultLoc : BitVec 32 := 0xFFFF
  /-- ARR_PASS_COUNT (04 R134; reset 0) -/
  passCount : Nat := 0
  /-- ARR_RELOAD_COUNT (04 R134; reset 0) -/
  reloads : Nat := 0
  /-- ARR_STALL_SLOTS (04 R134; reset 0) -/
  stalls : Nat := 0
  /-- GLB_CL_POWER bit (20 R747; reset 1) -/
  powered : Bool := true
  /-- GLB_CL_AWAKE bit (20 R747; reset 0) -/
  awake : Bool := false
  /-- a power-on self-test is running (20 R752; reset no) -/
  poweringOn : Bool := false
  /-- running microcode version (17 R658; DC 8: reset 0) -/
  ucode : Nat := 0
  /-- frequency code 0 to 12 (19, Pacers; DC 8: reset 12) -/
  code : Nat := 12
  /-- contexts in slots 0 to 3 (05 R175; reset none) -/
  slots : Map Ctx := []
  /-- identity of the resident weights (04 R129; reset none) -/
  weights : Option WeightId := none
  /-- active weight registers: stored elements and scales of each problem of the pass that issued last (04 R97; DC 8: reset
  none) -/
  active : List (Bytes × Bytes) := []
  /-- shadow weight registers: what the last weight load filled them with (04 R97, R105; DC 8: reset none) -/
  shadow : List (Bytes × Bytes) := []
  /-- the pass group in flight (04 R103; reset none) -/
  group : Option Group := none
  /-- slot of the group that last issued (05 R178; DC 8: reset 3) -/
  lastSlot : Nat := 3
deriving DecidableEq, Repr

/-! ### Loaded objects: profiles, tokenizers, templates, images -/

/-- A service profile record (01 R19). -/
structure Profile where
  id : Nat
  mode : Nat
  shared : Bool
  speculative : Bool
  version : Nat
  owner : Nat
  tokenizer : Nat
  encoder : Nat
  collection : Nat
  shardSet : Nat
  shardWaitUs : Nat
  entryWalks : Nat
  stallHops : Nat
  queueLen : Nat
  hopBudget : Nat
  hopCap : Nat
  rescoreIn : Nat
  rescoreKeep : Nat
  reranker : Nat
  kMax : Nat
  template : Nat
  promptBudget : Nat
  generator : Nat
  draft : Nat
  maxNew : Nat
  /-- the record as loaded, for measurement 8 (18 R676) -/
  raw : Bytes := []
deriving DecidableEq, Repr

/-- A load or unload held while an earlier version drains (01 R28). -/
structure HeldLoad where
  qp : Nat
  tag : Nat
  sqHead : Nat
  record : Bytes
deriving DecidableEq, Repr

/-- What one profile_id holds (01 R27, R28). -/
structure ProfileSlot where
  cur : Option Profile := none
  /-- an earlier version kept for requests admitted before (01 R27) -/
  draining : Option Profile := none
  /-- loads held, oldest first (01 R28) -/
  held : List HeldLoad := []
deriving DecidableEq, Repr

/-- A token of a vocabulary (06 R193, R194). -/
structure Token where
  bytes : Bytes
  special : Bool
deriving DecidableEq, Repr

/-- A loaded tokenizer (06 R188). -/
structure Tokenizer where
  id : Nat
  pretok : Nat
  digitGroups : Bool
  /-- tokens by token ID -/
  vocab : Map Token
  vocabSize : Nat
  /-- merges in rank order: left, right, result (06 R189) -/
  merges : List (Nat × Nat × Nat)
  eos : List Nat
  /-- SHA-512 digest of the object, for measurement 9 (18 R676) -/
  digest : Bytes := []
deriving DecidableEq, Repr

/-- A part of a prompt template (09 R335). -/
inductive Part where
  | fixed (tokens : List Nat) | query | passages
deriving DecidableEq, Repr

/-- A loaded prompt template (09 R335). -/
structure Template where
  id : Nat
  bestLast : Bool
  fixedTokens : Nat
  pre : List Nat
  post : List Nat
  parts : List Part
  /-- every word of its token pool (09 R335) -/
  pool : List Nat := []
  /-- SHA-512 digest of the object, for measurement 9 (18 R676) -/
  digest : Bytes := []
deriving DecidableEq, Repr

/-- A tensor descriptor (05 R151). -/
structure TensorDesc where
  fmt : Nat
  axis : Nat
  rank : Nat
  tier : Nat
  constant : Bool
  compressed : Bool
  hasShadow : Bool
  shift : Int
  /-- dimension words, outermost first (05 R152) -/
  dims : List Nat
  dataOff : Nat
  dataLen : Nat
  shadow : Nat
deriving DecidableEq, Repr

/-- A relay-schedule entry (05 R156). -/
structure RelayEntry where
  seq : Nat
  target : Nat
  first : Nat
  count : Nat
  needOp : Nat
  deadlineUs : Nat
  fromTier : Nat
  fallback : Nat
deriving DecidableEq, Repr

/-- An operation record (05 R158). -/
structure Op where
  opcode : Nat
  sub : Nat
  saturate : Bool
  draft : Bool
  ins : List Nat
  outs : List Nat
  params : Bytes
deriving DecidableEq, Repr

/-- A table binding of an image (11 R398). -/
structure TableBind where
  table : Nat
  fmt : Nat
  read : Bool
  add : Bool
  rowElems : Nat
  home : Nat
  isLocal : Bool
  nRows : Nat
deriving DecidableEq, Repr

/-- A loaded model image (05 R148). -/
structure Image where
  owner : Nat
  shared : Bool
  kind : Nat
  imageId : Nat
  version : Nat
  minMicrocode : Nat
  sram : Nat
  span : Nat
  tensors : List TensorDesc
  ops : List Op
  relay : List RelayEntry
  tables : List TableBind
  payload : Bytes
  /-- SHA-512 digest of the image, for measurement 7 (18 R676) -/
  digest : Bytes
  /-- key-value entries, by pool page, then by layer, side and place in the page: 32·layer + 16·side + position mod 16
  (10 R349) -/
  kv : Map (Map ERow) := []
  /-- pages of its key-value pool (10 R350) -/
  kvPages : Nat
  /-- bytes of one key-value page (10 R349) -/
  pageBytes : Nat
  /-- free pages of the pool (10 R350) -/
  freePages : List Nat
  /-- largest prompt-length extent, largest batch and per-step token extents (05 R152) -/
  maxPrompt : Nat
  maxBatch : Nat
  maxStepTokens : Nat
  /-- unloaded, kept for runs admitted before (05 R146) -/
  unloaded : Bool := false
  /-- primary tensors resident after a reload (17 R644) -/
  resident : Bool := true
deriving DecidableEq, Repr

/-! ### Collections, items, filters (07_index_formats) -/

/-- A collection's creation descriptor (07 R223). -/
structure CollDesc where
  shared : Bool
  privileged : Bool
  metric : Nat
  vecFmt : Nat
  sketchBits : Nat
  inlineBits : Nat
  dim : Nat
  pqM : Nat
  degree : Nat
  owner : Nat
  idBase : Nat
  idSpan : Nat
  textMax : Nat
  ingestQueue : Nat
deriving DecidableEq, Repr

/-- An item: its record, stored vector, passage and centroid (07 R242 to R244). -/
structure Item where
  insertEpoch : Nat
  deleteEpoch : Nat := 0xFFFFFFFF
  code : Bytes
  /-- the stored vector's record, padded to a multiple of 16 bytes (07 R228) -/
  vec : Bytes
  /-- the text blob, and its offset in the collection's text region in 16-byte units (07 R242, R243) -/
  blob : Bytes
  textAt : Nat := 0
  centroid : Nat
  /-- the flash can read the text blob (09 R339) -/
  readable : Bool := true
deriving DecidableEq, Repr

/-- A node slot (07 R239): the node's sketch, and neighbours with their inline sketches, in slot order. -/
structure Node where
  sketch : Nat
  nbrs : List (Nat × Nat)
deriving DecidableEq, Repr

/-- An open ingest session (07 R248). -/
structure Session where
  epoch : Nat
  fn : Nat
  account : Option Nat
  /-- queue pair of the opener (07 R249) -/
  qp : Nat
  inserted : List Nat := []
  deleted : List Nat := []
  notFound : Nat := 0
  /-- its INGEST_COMMIT or INGEST_ABORT has been fetched: no INGEST_OP fetched from now on is taken (07 R249) -/
  closing : Bool := false
  /-- an INGEST_COMMIT is waiting for its record to be durable: queue pair, tag, submission head (07 R251) -/
  committing : Option (Nat × Nat × Nat) := none
deriving DecidableEq, Repr

/-- A collection (07 R222). -/
structure Collection where
  desc : CollDesc
  /-- rotation, codebooks, centroids as BF16 bits (07 R223) -/
  rotation : List Nat
  codebooks : List Nat
  centroids : List (List Nat)
  /-- items by local ID (07 R242) -/
  items : Map Item := []
  /-- node slots by local ID; a node not listed has written 0 (07 R239) -/
  nodes : Map Node := []
  /-- epoch of the session that last wrote a node page, by page number (07 R238); a page not listed has been written by none -/
  pageEpochs : Map Nat := []
  /-- members of each centroid, by centroid number, in increasing ID order (07 R244) -/
  members : Map (List Nat) := []
  /-- 16-byte units of the text region in use (07 R242) -/
  textUsed : Nat := 0
  /-- next local ID (07 R226) -/
  nextId : Nat
  /-- committed epoch C (07 R247; DC 9: 0 at creation) -/
  epoch : Nat := 0
  /-- highest epoch a session has held (07 R248) -/
  highest : Nat := 0
  session : Option Session := none
  /-- the last session ended by a commit (07 R253) -/
  lastCommitted : Bool := false
  /-- a rollback could not be written: every open is refused (07 R254) -/
  frozen : Bool := false
  /-- entry tables by epoch: for each centroid with an entry node, its number and local ID (07 R245, 08 R268) -/
  entryTables : Map (List (Nat × Nat)) := []
  /-- channel map CMAP, 64 entries (07 R237) -/
  cmap : List Nat := List.range 64
  /-- channel map of its store regions, 64 entries (13, after R487; 17 R655) -/
  regionMap : List Nat := List.range 64
  /-- pages that cannot be read, by page number (08 R275, 17 R643) -/
  badPages : List Nat := []
  /-- nodes awaiting rebuild (08 R302) -/
  rebuild : List Nat := []
  /-- verified since bring-up (17 R643) -/
  verified : Bool := true
  /-- deleted, kept for requests admitted before (07 R225) -/
  deleted : Bool := false
deriving DecidableEq, Repr

/-- A container of a filter chunk (07 R259). -/
inductive Container where
  | array (offs : List Nat) | bitmap (bits : Bytes) | run (runs : List (Nat × Nat)) | full
deriving DecidableEq, Repr

/-- A registered filter (07 R256 to R259). -/
structure Filter where
  /-- registration number, by which requests pin it (07 R261) -/
  uid : Nat
  id : Nat
  owner : Nat
  shared : Bool
  coll : Nat
  idBase : Nat
  chunks : Map Container
  cardinality : Nat
  size : Nat
deriving DecidableEq, Repr

/-! ### Tables (11_tables) -/

/-- The condition of a table version (11 R401). -/
inductive VerCond where
  | current | live | retired
deriving DecidableEq, Repr

/-- The state of a row (11 R423). -/
inductive RowState where
  | copyingUp | replicated | copyingDown
deriving DecidableEq, Repr

/-- An add that a row's home holds: the converted deltas, and who waits for its completion: a request-table entry with the
context that added, by unit and share, or the module that sent a ROW_ADD, by its packet (11 R417, R424; 16 R615). -/
structure HeldAdd where
  deltas : List Int
  entry : Option Nat := none
  ctx : Option (Nat × Nat) := none
  ask : Option Packet := none
deriving DecidableEq, Repr

/-- A row that is not in HOME (11 R423, R424). -/
structure HotRow where
  state : RowState
  /-- stacks of its replicas (11 R421) -/
  replicas : List Nat
  /-- adds logged since the snapshot: sequence number and deltas (11 R424) -/
  log : List (Nat × List Int) := []
  /-- the home holds new adds (11 R424) -/
  holding : Bool := false
  /-- adds held until the switch (11 R424) -/
  heldAdds : List HeldAdd := []
  /-- a pin change, promotion or demotion to take effect afterwards: wanted count (11 R425) -/
  wanted : Option Nat := none
deriving DecidableEq, Repr

/-- One version of a table (11 R401). -/
structure Version where
  cond : VerCond
  /-- versions whose stored blocks it shares (11 R403) -/
  shares : List Nat := []
  /-- rows present, in stored layout; a dense row not listed is zero, a sparse one missing (11 R396) -/
  rows : Map Bytes := []
  /-- adds sequence number per row (11 R422) -/
  seqs : Map Nat := []
  /-- rows not in HOME (11 R423) -/
  hot : Map HotRow := []
  /-- dirty rows: module time of the first add since the last write-back (12 R436) -/
  dirty : Map Nat := []
  /-- dirty rows: the contents last written back, none for a row the store does not list (12 R436) -/
  homes : Map (Option Bytes) := []
  /-- remote pins: peer IDs (16 R614) -/
  remotePins : List Nat := []
  /-- pacer counts of lookups per row (11 R426) -/
  lookups : Map Nat := []
deriving DecidableEq, Repr

/-- A row pin (11 R427). -/
structure RowPin where
  version : Nat
  first : Nat
  count : Nat
  replicas : Nat
deriving DecidableEq, Repr

/-- A table, in its slot (11 R391). -/
structure Table where
  id : Nat
  fmt : Nat
  shared : Bool
  addable : Bool
  sparse : Bool
  frac : Nat
  fallback : Nat
  owner : Nat
  maxReplicas : Nat
  rowElems : Nat
  nRows : Nat
  capacity : Nat
  shadow : Nat
  defaultRow : Bytes
  /-- versions not freed, by number (11 R401) -/
  versions : Map Version
  /-- highest version number held (11 R401) -/
  highest : Nat := 1
  pins : List RowPin := []
  /-- channel map of its store region, 64 entries (13, after R487; 17 R655) -/
  regionMap : List Nat := List.range 64
  /-- TBL_FLAGS (11 R432; reset 0) -/
  flags : BitVec 32 := 0
  /-- TBL_DEF_INVALID (11 R428; reset 0) -/
  defInvalid : Nat := 0
  /-- TBL_DEF_MISSING (11 R428; reset 0) -/
  defMissing : Nat := 0
  /-- TBL_ADDS (11 R428; reset 0) -/
  adds : Nat := 0
  /-- TBL_DROP_RETIRED (11 R428; reset 0) -/
  dropRetired : Nat := 0
  /-- TBL_DROP_FULL (11 R428; reset 0) -/
  dropFull : Nat := 0
  /-- TBL_DROP_INDEX (11 R428; reset 0) -/
  dropIndex : Nat := 0
  /-- TBL_NAN_DELTAS (11 R428; reset 0) -/
  nanDeltas : Nat := 0
  /-- TBL_PROMOTIONS (11 R428; reset 0) -/
  promotions : Nat := 0
  /-- TBL_DEMOTIONS (11 R428; reset 0) -/
  demotions : Nat := 0
  /-- deleted, kept for requests and runs that pinned it (11 R397) -/
  deleted : Bool := false
deriving DecidableEq, Repr

/-- Loaded objects of the module. -/
structure Objects where
  /-- profiles by profile_id (01 R19; reset none) -/
  profiles : Map ProfileSlot := []
  /-- tokenizers by slot 0 to 15 (06 R187; reset none) -/
  tokenizers : Map Tokenizer := []
  /-- templates by template_id (09 R334; reset none) -/
  templates : Map Template := []
  /-- images by handle (05 R144; reset none) -/
  images : Map Image := []
  /-- loads so far, which index the module's choice of handles (05 R144; DC 3: reset 0) -/
  handleDraws : Nat := 0
  /-- collections by collection_id (07 R222; reset none) -/
  collections : Map Collection := []
  /-- registered filters by filter_id (07 R256; reset none) -/
  filters : Map Filter := []
  /-- filters replaced or unregistered and still pinned (07 R260; reset none) -/
  oldFilters : List Filter := []
  /-- next registration number of a filter (07 R261; DC 9: reset 0) -/
  nextFilter : Nat := 0
  /-- tables by slot 0 to 4,095 (11 R390; reset none) -/
  tables : Map Table := []
  /-- TXT_SLOT_SEL (06 R221; reset 0) -/
  txtSlotSel : BitVec 32 := 0
  /-- TXT_BYTES_IN (06 R219; reset 0) -/
  txtBytesIn : Nat := 0
  /-- TXT_TOKENS_OUT (06 R219; reset 0) -/
  txtTokensOut : Nat := 0
  /-- TXT_INVALID_BYTES (06 R219; reset 0) -/
  txtInvalid : Nat := 0
  /-- TXT_DETOK_TOKENS (06 R219; reset 0) -/
  txtDetok : Nat := 0
  /-- TXT_STOP_HITS (06 R219; reset 0) -/
  txtStops : Nat := 0
  /-- TBL_CTL (11 R429; reset 0) -/
  tblCtl : BitVec 32 := 0
  /-- TBL_SEL (11 R431; reset 0) -/
  tblSel : BitVec 32 := 0
deriving DecidableEq, Repr

/-! ### Requests (01, 08, 09, 10) -/

/-- The state of a request-table entry that is not FREE (10 R347). -/
inductive RtState where
  | pre | reserve | wait | step | drain
deriving DecidableEq, Repr

/-- A filter term's operator (07 R262, R263). -/
inductive FilterOp where
  | and | or | andNot
deriving DecidableEq, Repr

/-- A stop set (06 R209). -/
structure StopSet where
  stops : List Bytes := []
  includeStop : Bool := false
  raw : Bool := false
  skipSpecial : Bool := false
deriving DecidableEq, Repr

/-- The parameters a search of a request runs with (01 R25, 16 R619). -/
structure SearchParams where
  coll : Nat := 0
  entryWalks : Nat := 0
  stallHops : Nat := 0
  queueLen : Nat := 0
  hopBudget : Nat := 0
  hopCap : Nat := 0
  rescoreIn : Nat := 0
  rescoreKeep : Nat := 0
  k : Nat := 0
  noWiden : Bool := false
  verify : Bool := false
deriving DecidableEq, Repr

/-- A candidate after stage 8 (09 R324): local ID or handle, key as the rank key's FP32 or integer, distance d bits. -/
structure Scored where
  id : Nat
  /-- fabric ID and unassigned bit of the module that holds it (07 R227) -/
  home : Nat := 0
  /-- the rank key: -P for product-code candidates (09 R324); after an exact search the FP32 bits of -d as a signed word
  (09 R326) -/
  key : Int := 0
  /-- d, FP32 bits (09 R324, R326) -/
  dist : BitVec 32 := 0
  /-- re-rank score, FP32 bits (09 R327) -/
  score : BitVec 32 := 0
deriving DecidableEq, Repr

/-- A distance table (07 R233). -/
structure PqTable where
  delta : BitVec 32 := 0
  base : BitVec 32 := 0
  /-- entries by subspace -/
  rows : List (List Nat) := []
deriving DecidableEq, Repr

/-- The search work of a request or of a shard query (08, 09). -/
structure SearchWork where
  par : SearchParams := {}
  /-- filters pinned (07 R261) -/
  filters : List Filter := []
  ops : List FilterOp := []
  /-- snapshot s (07 R247) -/
  epoch : Nat := 0
  /-- query vector, exact element values (01 R21, 08 R266) -/
  vector : List Dy := []
  /-- block exponents of the query vector, none for a block that takes no part (03 R69) -/
  vexps : List (Option Int) := []
  /-- query sketch (07 R229) -/
  sketch : Nat := 0
  table : PqTable := {}
  /-- an exact-distance search is used (08 R300) -/
  exact : Bool := false
  /-- entry nodes in order of nearness (08 R267) -/
  entryNodes : List Nat := []
  /-- the search tag while one is in use (08 R283) -/
  tag : Option Nat := none
  /-- the originator's own position in the shard set, none when it is no member or the search has no shard set (09 R325) -/
  ownShard : Option Nat := none
  /-- the second, widened pass is running or has run (08 R293) -/
  widened : Bool := false
  /-- waiting for walk credits since this place in the order (08 R281) -/
  waiting : Option Nat := none
  /-- per walk: admitted entries, kept in R270 order, at most qlen (08 R291) -/
  lists : Map (List Cand) := []
  /-- per walk: entries received so far (08 R288) -/
  received : Map Nat := []
  /-- per walk: end report's offered count (08 R288) -/
  ended : Map Nat := []
  /-- result of the first pass: its entries and admitted count (08 R294) -/
  first : Option (List Cand × Nat) := none
  /-- candidates handed to stage 8 (08 R292) -/
  cands : List Cand := []
  scored : List Scored := []
  /-- exact top-k of a verification (08 R301) -/
  verifyList : List Scored := []
  /-- shard lists that arrived in time: source number and entries (09 R325) -/
  shardLists : Map (List Scored) := []
  /-- shards the query was sent to and not yet answered: source number and fabric ID (01 R35) -/
  shardsLeft : List (Nat × Nat) := []
  /-- module time at which the shard wait ends (01 R35) -/
  shardUntil : Nat := 0
  /-- the shard query's originator: fabric ID and search tag (16 R619) -/
  origin : Option (Nat × Nat) := none
  /-- stage 7 has united the lists of the pass that handed over (08 R292) -/
  merged : Bool := false
  /-- held before stage 5 (08 R304) -/
  heldHere : Bool := false
  /-- its place in the order of R281, taken when it came to be held (08 R304) -/
  heldPlace : Option Nat := none
  /-- the account a shard query works for, from its packet's header (16 R610, 01 R36) -/
  acct : Nat := 0
  /-- what its end reports and merge counted, for the report (15 R582) -/
  walks : Nat := 0
  hops : Nat := 0
  relays : Nat := 0
  admitted : Nat := 0
  badHops : Nat := 0
  missingShards : Nat := 0
  recallN : Nat := 0
  short : Bool := false
deriving DecidableEq, Repr

/-- A run of input between code-point boundaries (06 R204): a well-formed code point, or one byte of a maximal subpart. -/
structure TUnit where
  bytes : Bytes
  cp : Option Nat
  /-- first byte of its maximal subpart -/
  first : Bool := false
deriving DecidableEq, Repr

/-- What a tokenizer lane holds of an input between its chunks (06 R202, R203). -/
structure TextIn where
  /-- the open piece, at most 1,024 bytes -/
  piece : Bytes := []
  /-- the units of a special-token match still in progress, at most 256 bytes -/
  units : List TUnit := []
  /-- bytes carried of a sequence that could still become well-formed, at most 3 -/
  carry : Bytes := []
  /-- the byte taken last belongs to a maximal subpart that has its U+FFFD already -/
  rep : Bool := false
  /-- bytes of the input before the carried ones -/
  off : Nat := 0
  /-- offset of the subpart that fails the input under REJECT (06 R199, R200) -/
  reject : Option Nat := none
deriving DecidableEq, Repr

/-- What a request holds in stages 1 to 13 besides its table entry. -/
structure Work where
  /-- the stage it is in, 1 to 13 (01 R18) -/
  stage : Nat := 1
  /-- profile version pinned (01 R26) -/
  profile : Option Profile := none
  /-- module time at which it entered RESERVE or was first held back for stream space, 0 when neither (10 R352, 15 R566) -/
  since : Nat := 0
  /-- tokenizer, template pinned (06 R192, 09 R334) -/
  tokenizer : Option Tokenizer := none
  template : Option Template := none
  /-- table versions pinned: the table's slot here and no peer, or its table_id and the home's peer ID; the version
  (11 R399, R400) -/
  pins : List (Nat × Nat × Option Nat) := []
  /-- bindings whose remote pin is still awaited (11 R400) -/
  pinsLeft : Nat := 0
  /-- fraction bits of the remote tables pinned, by table_id, from the homes' answers (16 R620) -/
  fracs : Map Nat := []
  /-- input bytes that no tokenizer lane has taken; the input has ended (15 R578) -/
  input : Bytes := []
  inputDone : Bool := true
  /-- the lane's state of the input it has taken (06 R202, R203) -/
  lane : TextIn := {}
  /-- the request's text_opts (06 R197) -/
  textOpts : Nat := 0
  /-- its search (08 R266) -/
  search : SearchWork := {}
  /-- its prompt_budget, clamped (01 R25) -/
  promptBudget : Nat := 0
  /-- query tokens (06 R207) -/
  tokens : List Nat := []
  invalidBytes : Nat := 0
  /-- prompt token IDs (09 R341) -/
  prompt : List Nat := []
  cutPairs : Nat := 0
  packed : Nat := 0
  skipped : Nat := 0
  unreadable : Nat := 0
  /-- selection: kept entries in order, and the two sums' containers (09 R310, R331) -/
  selected : List (Nat × Scored) := []
  selFlags : BitVec 4 := 0
  sums : Bytes := []
  reranked : Bool := false
  /-- generated tokens (10 R346 gen_len counts them) -/
  gen : List Nat := []
  /-- rows that steps left in tensors of tier 4 for later steps, by 2^32·image handle + tensor ID (05 R154) -/
  bufs : Map (List ERow) := []
  /-- detokenizer: raw output G, released count, UTF-8 tail held (06 R211, R215) -/
  out : Bytes := []
  rel : Nat := 0
  tail : Bytes := []
  invalidOut : Nat := 0
  heldDiscarded : Nat := 0
  stopIndex : Option Nat := none
  /-- first delivered token is degraded by a prefill miss (12 R464) -/
  degradedNext : Bool := false
  anyDegraded : Bool := false
  batonLen : Nat := 0
  /-- slot of the baton it holds a reference to (10 R358) -/
  batonRef : Option Nat := none
  batonMiss : Bool := false
  /-- admitted in PROOFING (17 R642) -/
  proofing : Bool := false
  numFlags : BitVec 4 := 0
  /-- stage, detail of the end (15 R581) -/
  endStage : Nat := 0
  detail : Nat := 0
  /-- a fault of a DMA read to take effect at the next boundary: detail (15 R555) -/
  pendingFault : Option Nat := none
  /-- the function's disable ends it (14 R541) -/
  disabled : Bool := false
  /-- deltas dropped under 11 R415 and for a full table (11 R416) -/
  dropsRetired : Nat := 0
  dropsFull : Nat := 0
  /-- completion addresses: result list, its room, report (15 R574) -/
  addr1 : Nat := 0
  len1 : Nat := 0
  report : Nat := 0
  sqHead : Nat := 0
  /-- bound outputs of a run: tensor ID and host address (15 R580) -/
  outputs : List (Nat × Nat) := []
  inputs : List (Nat × Bytes) := []
  endTime : Nat := 0
  /-- the completion has been written or will never be (10 R384) -/
  completed : Bool := false
  /-- pages and references have returned (10 R384) -/
  pagesReturned : Bool := false
deriving DecidableEq, Repr

/-- A request-table entry that is not FREE (10 R346). -/
structure RtEntry where
  state : RtState := .pre
  prio : Nat := 0
  account : Nat := 0
  fn : Nat := 0
  qp : Nat := 0
  tag : Nat := 0
  deadline : Nat := 0
  admitTime : Nat := 0
  cancelTime : Nat := 0
  lastCommit : Nat := 0
  profile : Nat := 0
  mode : Nat := 0
  cancelPending : Bool := false
  /-- the CANCEL commands awaiting its end, oldest first: queue pair, tag, submission head, cycle of acceptance (10 R378, R379) -/
  cancellers : List (Nat × Nat × Nat × Nat) := []
  speculative : Bool := false
  batonCreate : Bool := false
  batonHit : Bool := false
  clamped : Bool := false
  wantTokens : Bool := false
  seedDrawn : Bool := false
  finish : Nat := 0
  draftLen : Nat := 0
  genImage : Nat := 0
  promptLen : Nat := 0
  prefilled : Nat := 0
  genLen : Nat := 0
  maxNew : Nat := 0
  stepSeq : Nat := 0
  /-- pool pages of its page list (10 R351) -/
  pages : List Nat := []
  draftPages : List Nat := []
  pagesRsvd : Nat := 0
  draftRsvd : Nat := 0
  batonPages : Nat := 0
  /-- pages of positions in front of the draft page list: those a baton hit covers (10 R352, R358) -/
  draftSkip : Nat := 0
  /-- positions whose entries the draft image's pages hold (10 R372, R375) -/
  draftFilled : Nat := 0
  baton : Nat := 0
  stop : StopSet := {}
  temperature : BitVec 32 := 0
  topP : Nat := 0
  topK : Nat := 0
  seed : Nat := 0
  ctr : Counters := {}
  work : Work := {}
deriving DecidableEq, Repr

/-- A live or released baton, in its slot (10 R354, R357). -/
structure Baton where
  issue : Nat
  live : Bool
  account : Nat
  fn : Nat
  image : Nat
  pages : List Nat
  tokens : List Nat
  refs : Nat := 0
deriving DecidableEq, Repr

/-- A member of a step in flight (10 R361). -/
structure StepMember where
  entry : Nat
  /-- prefill positions of the chunk, or 0 for a decode step (10 R361) -/
  prefill : Nat
  /-- drafts d of the step (10 R372) -/
  drafts : Nat
  /-- draft tokens the draft image has proposed (10 R372) -/
  proposed : List Nat := []
  /-- tokens SAMPLE has picked for its positions, in order (10 R369, R372) -/
  tokens : List Nat := []
deriving DecidableEq, Repr

/-- A table lookup of a step's position (10 R376): the lookup, by which those that one fetch serves are one; the position; the
row, by table slot and version. -/
structure Look where
  op : Nat
  entry : Nat
  pos : Nat
  slot : Nat
  version : Nat
  row : Nat
deriving DecidableEq, Repr

/-- A step in flight (10 R361). -/
structure StepRec where
  image : Nat
  dieMask : Nat
  proofing : Bool
  unit : Nat
  members : List StepMember
  formed : Nat
  /-- it was run again once (10 R365) -/
  reruns : Nat := 0
  /-- what its unit still runs, the current job first: a draft image and its round, last the generator image (10 R372) -/
  jobs : List (Nat × Nat) := []
  /-- entries and positions that a missed fetch's replacement served (12 R464) -/
  late : List (Nat × Nat) := []
  /-- lookups of local tables by its positions (10 R376, 12 R464) -/
  looks : List Look := []
  /-- flash unit reads of table rows for it: table slot and the rows that lie in the unit (10 R376) -/
  reads : List (Nat × List Nat) := []
deriving DecidableEq, Repr

/-- The request table and generation. -/
structure Gen where
  /-- entries not FREE, by entry number 0 to 4,095 (10 R345; reset none) -/
  entries : Map RtEntry := []
  /-- batons by slot (10 R354; reset none) -/
  batons : Map Baton := []
  /-- issue count of each baton slot (10 R354; reset 0) -/
  batonIssues : Map Nat := []
  /-- steps in flight by step number (10 R361; reset none) -/
  steps : Map StepRec := []
  /-- next step number (10 R361; DC 9: reset 0) -/
  nextStep : Nat := 0
  /-- GEN_CTL.hold (10 R386; reset 0) -/
  hold : Bool := false
  /-- RT_WIN_SEL (10 R389; reset 0) -/
  winSel : BitVec 32 := 0
  /-- RT_WIN, the latched copy (10 R389; reset 0) -/
  win : Bytes := []
  /-- GEN_STEPS (10 R385; reset 0) -/
  stepCount : Nat := 0
  /-- GEN_TOKENS (10 R385; reset 0) -/
  tokens : Nat := 0
  /-- GEN_CANCELLED (10 R385; reset 0) -/
  cancelled : Nat := 0
  /-- GEN_DEADLINE (10 R385; reset 0) -/
  deadlines : Nat := 0
  /-- GEN_DRAFT_REJECTED (10 R385; reset 0) -/
  draftRejected : Nat := 0
  /-- GEN_FALSE_STARTS (10 R385; reset 0) -/
  falseStarts : Nat := 0
  /-- GEN_DEGRADED (10 R385; reset 0) -/
  degraded : Nat := 0
  /-- GEN_STEP_RERUNS (10 R385; reset 0) -/
  reruns : Nat := 0
deriving DecidableEq, Repr

/-- A queue entry of a walk (08 R269). -/
structure QEntry where
  id : Nat
  dist : Nat
  expanded : Bool
deriving DecidableEq, Repr

/-- A walk: in a context of an engine, in an inbox, or on its way there (08, Walk state, R283). -/
structure Walk where
  entry : Nat
  /-- shard queries held here have their own search numbers (16 R619) -/
  shard : Bool
  tag : Nat
  num : Nat
  coll : Nat
  widened : Bool
  qlen : Nat
  hopBudget : Nat
  stallHops : Nat
  entryId : Nat
  next : Nat
  hops : Nat := 0
  stall : Nat := 0
  dBest : Option Nat := none
  queue : List QEntry := []
  visited : List Nat := []
  relays : Nat := 0
  offered : Nat := 0
  bad : Nat := 0
  /-- engine that holds it or it is sent to (08 R279) -/
  engine : Nat
  /-- it lies in a context (`some true`), in the inbox (`some false`), or in a message (`none`) (08 R280) -/
  place : Option Bool := none
  /-- place in the inbox order (08 R280) -/
  arrival : Nat := 0
  /-- seq of the message it travels in, and its source (08 R284) -/
  seq : Nat := 0
  src : Nat := 64
  /-- the bytes of the message it travels in, none when it lies in a context or an inbox (08 R283) -/
  msg : Bytes := []
  /-- module time at which that message can be there at the earliest (02 R780) -/
  due : Nat := 0
deriving DecidableEq, Repr

/-- The search control and merge unit and the engines. -/
structure Search where
  /-- SRCH_CTL.hold (08 R304; reset 0) -/
  hold : Bool := false
  /-- SRCH_CTL.widen_off (08 R304; reset 0) -/
  widenOff : Bool := false
  /-- walks live, keyed by 16·tag + walk number (08 R281; reset none) -/
  walks : Map Walk := []
  /-- credits in use: walks started whose end report has not reached the merge unit (08 R281; reset 0) -/
  credits : Nat := 0
  /-- offer batches on their way to the merge unit, oldest first (08 R286; reset none) -/
  offersOut : List OfferMsg := []
  /-- end reports on their way to the merge unit, oldest first (08 R287; reset none) -/
  endsOut : List EndMsg := []
  /-- search tags in use: tag and the entry it serves, or shard query number (08 R305; reset none) -/
  tags : Map (Bool × Nat) := []
  /-- tags marked killed (08 R289; reset none) -/
  killed : List Nat := []
  /-- lists that modules of a shard set still owe under a tag whose wait is over: tag and fabric ID (01 R35; reset none) -/
  owed : List (Nat × Nat) := []
  /-- shard queries running for other modules (16 R619; reset none) -/
  shardWork : Map SearchWork := []
  /-- next place in the order of waiting passes (08 R281; DC 9: reset 0) -/
  nextWait : Nat := 0
  /-- next arrival number (08 R280; DC 9: reset 0) -/
  nextArrival : Nat := 0
  /-- relay sequence numbers sent, keyed by 65·target + source (08 R284; reset 0) -/
  seqSent : Map Nat := []
  /-- sequence numbers accepted by a hub, same key: every number below the first, and those listed (08 R284; reset none) -/
  seqSeen : Map (Nat × List Nat) := []
  /-- offer batches and end reports on the board links, as bytes, oldest first (08 R286, R287; reset none) -/
  wire : List Bytes := []
  /-- SRCH_WALKS (08 R303; reset 0) -/
  walkCount : Nat := 0
  /-- SRCH_HOPS (08 R303; reset 0) -/
  hops : Nat := 0
  /-- SRCH_RELAYS (08 R303; reset 0) -/
  relays : Nat := 0
  /-- SRCH_OFFERS (08 R303; reset 0) -/
  offers : Nat := 0
  /-- SRCH_WIDENED (08 R303; reset 0) -/
  widened : Nat := 0
  /-- SRCH_SHORT (08 R303; reset 0) -/
  short : Nat := 0
  /-- SRCH_BAD_HOPS (08 R303; reset 0) -/
  badHops : Nat := 0
  /-- SRCH_UNREACH (08 R303; reset 0) -/
  unreach : Nat := 0
  /-- SRCH_CSE_SEL (08 R306; reset 0) -/
  cseSel : BitVec 32 := 0
  /-- SEL_ROWS (09 R342; reset 0) -/
  selRows : Nat := 0
  /-- SEL_ENTRIES (09 R342; reset 0) -/
  selEntries : Nat := 0
  /-- SEL_BUCKET_ROWS (09 R342; reset 0) -/
  selBuckets : Nat := 0
  /-- SEL_SHORT (09 R342; reset 0) -/
  selShort : Nat := 0
  /-- SEL_NAN (09 R342; reset 0) -/
  selNan : Nat := 0
  /-- PP_PACKS (09 R344; reset 0) -/
  packs : Nat := 0
  /-- PP_PASSAGES (09 R344; reset 0) -/
  passages : Nat := 0
  /-- PP_SKIPPED (09 R344; reset 0) -/
  skipped : Nat := 0
  /-- PP_UNREADABLE (09 R344; reset 0) -/
  unreadable : Nat := 0
  /-- PP_TOKENS (09 R344; reset 0) -/
  promptTokens : Nat := 0
deriving DecidableEq, Repr

/-! ### Memory unit (12_memory_tiers) -/

/-- A Brixjo line (12 R437, R438): its data before encryption and what they were enciphered under, tag, poison, key
generation, and the stream bits a fault has corrupted since it was written (12 R441, R445). -/
structure Line where
  data : Bytes
  owner : Nat
  kind : Nat
  poison : Bool := false
  keygen : Nat := 0
  /-- which of the key pairs made for its owner, counted from the first, enciphered it (12 R445, 18 R678) -/
  keySet : Nat := 0
  /-- the tweak it was enciphered under: stack number and address within the stack (12 R445) -/
  place : Nat := 0
  errBits : List Nat := []
  /-- a clean cache copy of tier-3 data (12 R443) -/
  cached : Bool := false
deriving DecidableEq, Repr

/-- One Brixjo stack (12 R478). -/
structure Stack where
  /-- MEM_STACK_STATUS.ok, trained and in service (12 R478; reset 0) -/
  ok : Bool := false
  /-- MEM_STACK_STATUS.degraded (12 R478; reset 0) -/
  degraded : Bool := false
  /-- MEM_STACK_STATUS.retiring (12 R478; reset 0) -/
  retiring : Bool := false
  /-- MEM_STACK_STATUS.retired, kept in management flash (12 R478, 17 R635; reset 0) -/
  retired : Bool := false
  /-- MEM_STACK_STATUS.spares_left, per die of the stack (12 R478; reset 0) -/
  spares : Nat := 0
  /-- MEM_CE_COUNT (12 R473; reset 0) -/
  ce : Nat := 0
  /-- MEM_UE_COUNT (12 R473; reset 0) -/
  ue : Nat := 0
  /-- MEM_ROWS_SPARED (12 R473; reset 0) -/
  rowsSpared : Nat := 0
  /-- corrected errors of the last 24 h per DRAM row: row and module times (12 R451; reset none) -/
  rowErrs : Map (List Nat) := []
  /-- the spare row in use for a DRAM row that has been spared (12 R451; reset none) -/
  spareOf : Map Nat := []
deriving DecidableEq, Repr

/-- A frame a borrower keeps in a lease (12 R468): its place, and the table and version, or the image and tensor, with the
frame's index. -/
structure LentFrame where
  place : Nat
  isTable : Bool
  obj : Nat
  sub : Nat
  index : Nat
deriving DecidableEq, Repr

/-- A lease this module has lent or borrowed (12 R467, R470). -/
structure Lease where
  peer : Nat
  pages : Nat
  /-- reclaimed: reads are refused (12 R470) -/
  reclaimed : Bool := false
  /-- frames placed, by byte offset (16 R617) -/
  frames : Map Bytes := []
  /-- a borrower's frames, most recently used first (12 R468) -/
  dir : List LentFrame := []
deriving DecidableEq, Repr

/-- The memory unit. -/
structure Mem where
  /-- MEM_CTL (12 R474; reset 1) -/
  ctl : BitVec 32 := 1
  /-- MEM_SCRUB_PERIOD (12 R476; reset 0x18) -/
  scrubPeriod : Nat := 0x18
  /-- MEM_LEND_MAX (12 R476; reset 0) -/
  lendMax : Nat := 0
  /-- MEM_LEND_HOPS (12 R476; reset 1) -/
  lendHops : Nat := 1
  /-- MEM_STACK_SEL (12 R477; reset 0) -/
  stackSel : Nat := 0
  /-- MEM_SPARE_THRESH (12 R477; reset 4) -/
  spareThresh : Nat := 4
  /-- stacks BX00 to BX19, those not listed at reset values (12 R473; reset none listed) -/
  stackTab : Map Stack := []
  /-- lines listed, by line address (byte address / 64); a line not listed is of kind 0xF (12 R446, R447; reset none) -/
  lines : Map Line := []
  /-- MEM_TAG_FAULTS (12 R473; reset 0) -/
  tagFaults : Nat := 0
  /-- MEM_FETCHES (12 R473; reset 0) -/
  fetches : Nat := 0
  /-- MEM_FETCH_MISSES (12 R473; reset 0) -/
  misses : Nat := 0
  /-- MEM_FALLBACK_SHADOW (12 R473; reset 0) -/
  fbShadow : Nat := 0
  /-- MEM_FALLBACK_ZERO (12 R473; reset 0) -/
  fbZero : Nat := 0
  /-- MEM_RECLAIMS (12 R473; reset 0) -/
  reclaims : Nat := 0
  /-- MEM_LENT_HITS (12 R473; reset 0) -/
  lentHits : Nat := 0
  /-- MEM_DECOMP_BYTES (12 R473; reset 0) -/
  decompBytes : Nat := 0
  /-- leases lent, by lease number (12 R467; reset none) -/
  lent : Map Lease := []
  /-- leases borrowed, by 4096·lender ID + lease number (12 R468; reset none) -/
  borrowed : Map Lease := []
  /-- pending fills of speculative fetches: account, table_id and row (18 R684; reset none) -/
  pendingFills : List (Nat × Nat × Nat) := []
deriving DecidableEq, Repr

/-! ### Flash (13_flash_media) -/

/-- The state of a flash block (13 R493). -/
inductive BlockState where
  | free | filling | closed | spare | retired
deriving DecidableEq, Repr

/-- One flash block whose state differs from a fresh free block (13 R479, R491). -/
structure Block where
  part : Nat
  die : Nat
  num : Nat
  state : BlockState := .free
  erases : Nat := 0
  /-- logical units it holds (13 R485, R486) -/
  units : List Nat := []
  /-- units programmed since its last erase -/
  used : Nat := 0
  closedAt : Nat := 0
  /-- order in which it was marked for refresh (13 R490) -/
  refresh : Option Nat := none
  /-- reads that needed level 8 since its last erase (13 R490) -/
  softReads : Nat := 0
deriving DecidableEq, Repr

/-- A flash channel (13 R513). -/
structure Channel where
  /-- FL_CH_STATUS.ok (13 R513; reset 0) -/
  ok : Bool := false
  /-- FL_CH_STATUS.failed (13 R513; reset 0) -/
  failed : Bool := false
  /-- FL_CH_STATUS.retired, kept in management flash (13 R513, 17 R635; reset 0) -/
  retired : Bool := false
  /-- FL_CH_STATUS.wl_active (13 R513; reset 0) -/
  wlActive : Bool := false
  /-- gc running per partition, FL_CH_STATUS.gc_active (13 R513; reset 0) -/
  gcSprint : Bool := false
  gcStore : Bool := false
  /-- FL_CH_STATUS.sprint_low (13 R513; reset 0) -/
  sprintLow : Bool := false
  /-- FL_CH_STATUS.store_low (13 R513; reset 0) -/
  storeLow : Bool := false
  /-- spares taken so far, of the initial spares (13 R514, R482; reset 0) -/
  sprintTaken : Nat := 0
  storeTaken : Nat := 0
  /-- blocks that are not fresh and free (13 R491; reset none) -/
  blocks : List Block := []
deriving DecidableEq, Repr

/-- The flash unit. -/
structure Flash where
  /-- FL_CTL (13 R508; reset 3) -/
  ctl : BitVec 32 := 3
  /-- WEAR_SPREAD (13 R510; reset 0x0BB8_00C8) -/
  wearSpread : BitVec 32 := 0x0BB800C8
  /-- FL_GC_THRESH (13 R511; reset 0x1E14) -/
  gcThresh : BitVec 32 := 0x1E14
  /-- FL_AGE_SCALE (13 R512; reset 0x9_3A80) -/
  ageScale : Nat := 0x93A80
  /-- FL_CH_SEL (13 R512; reset 0) -/
  chSel : BitVec 32 := 0
  /-- channels 0 to 63, those not listed at reset values (13 R507; reset none listed) -/
  channels : Map Channel := []
  /-- FL_STATUS.sprint_ro (13 R509; reset 0, and kept across resets by 13 R503) -/
  sprintRo : Bool := false
  /-- FL_STATUS.store_ro (13 R509; reset 0) -/
  storeRo : Bool := false
  /-- FL_STATUS.sprint_cause (13 R509; reset 0) -/
  sprintCause : Nat := 0
  /-- FL_STATUS.store_cause (13 R509; reset 0) -/
  storeCause : Nat := 0
  /-- FL_STATUS.sprint_ro_ch (13 R509; reset 0) -/
  sprintRoCh : Nat := 0
  /-- FL_STATUS.store_ro_ch (13 R509; reset 0) -/
  storeRoCh : Nat := 0
  /-- what made partitions read-only, oldest first: partition, channel, cause (13 R498, 17 R657; reset none) -/
  roCauses : List (Nat × Nat × Nat) := []
  /-- FL_STATUS.dump_replayed (13 R509; reset 0) -/
  dumpReplayed : Bool := false
  /-- sprint share s in effect, from the configuration record (13 R480; DC 10: reset 0) -/
  sprintShare : Nat := 0
  /-- units accepted into the hubs' protected buffers and not yet programmed: partition, channel, unit (13 R504; reset none) -/
  buffered : List (Nat × Nat × Nat) := []
  /-- flash time at the last module reset, in seconds of powered operation, kept in the map journal (13 R493; DC 10: reset 0) -/
  flashTime : Nat := 0
  /-- next refresh mark (13 R494; DC 9: reset 0) -/
  nextRefresh : Nat := 0
  /-- hubs have stopped accepting writes after a loss of the main input (13 R505; reset no) -/
  stopped : Bool := false
  /-- a dump lies in the dump areas (13 R505; DC 10: reset no) -/
  dump : Bool := false
  /-- FL_READS (13 R507; reset 0) -/
  reads : Nat := 0
  /-- FL_PROGRAMS (13 R507; reset 0) -/
  programs : Nat := 0
  /-- FL_ERASES (13 R507; reset 0) -/
  erases : Nat := 0
  /-- FL_LDPC_RETRY (13 R507; reset 0) -/
  retry : Nat := 0
  /-- FL_LDPC_FAIL (13 R507; reset 0) -/
  fail : Nat := 0
  /-- FL_RETIRED (13 R507; reset 0) -/
  retired : Nat := 0
  /-- FL_GC_MOVES (13 R507; reset 0) -/
  gcMoves : Nat := 0
  /-- FL_WL_MOVES (13 R507; reset 0) -/
  wlMoves : Nat := 0
  /-- FL_RO_REJECTS (13 R507; reset 0) -/
  roRejects : Nat := 0
deriving DecidableEq, Repr

/-! ### Fabric (16_evdozin_fabric) -/

/-- The state of a port (16 R601). -/
inductive PortState where
  | down | training | local | secure
deriving DecidableEq, Repr

/-- A flit sent that carries no data (16 R594, R597, R599): its kind (1 idle, 2 retry request, 3 link control), the ack or
the sequence number it names, and the credits it returns (key 4·vc + level, count). -/
structure CtlFlit where
  kind : Nat
  seq : Nat
  credKey : Nat := 0
  credCount : Nat := 0
deriving DecidableEq, Repr

/-- A data flit (16 R593, R594): virtual channel, deadlock level, first and last flit of its packet, payload. -/
structure Flit where
  vc : Nat
  lvl : Nat
  sop : Bool
  eop : Bool
  payload : Bytes
deriving DecidableEq, Repr

/-- One Evdozin port (16 R588, R630). -/
structure Port where
  /-- FAB_PORT_STATUS.state (16 R630; reset DOWN) -/
  state : PortState := .down
  /-- FAB_PORT_STATUS.short_fec (16 R630; reset 0) -/
  shortFec : Bool := false
  /-- FAB_PORT_STATUS.lanes (16 R630; reset 0) -/
  lanes : Nat := 0
  /-- FAB_PORT_CFG.fec (16 R629; reset 0) -/
  fec : Nat := 0
  /-- next data flit_seq expected (16 R597; DC 11: reset 0) -/
  rxSeq : Nat := 0
  /-- next data flit_seq to send (16 R597; DC 11: reset 0) -/
  txSeq : Nat := 0
  /-- replay buffer: data flits unacknowledged, oldest first (16 R597; reset none) -/
  replay : List (Nat × Flit) := []
  /-- flits resent, newest last (16 R597; reset none) -/
  resent : List Nat := []
  /-- idle, retry-request and link-control flits sent, newest first (16 R594; reset none) -/
  ctl : List CtlFlit := []
  /-- data flits waiting for credits or replay room, oldest first (16 R596, R597; reset none) -/
  outq : List Flit := []
  /-- flits sent since the lanes were aligned, newest first (16 R592, R593; reset none) -/
  flits : List Bytes := []
  /-- blocks of flits sent that do not fill a codeword of the short-reach FEC yet (16 R590, R592; reset none) -/
  txBlocks : List Bytes := []
  /-- codewords of the short-reach FEC sent since the lanes were aligned, each as its four lanes, newest first (16 R590; reset
  none) -/
  words : List (List (List Nat)) := []
  /-- blocks received that do not fill a flit yet (16 R592; reset none) -/
  rxBlocks : List Bytes := []
  /-- send credits by 4·vc + level; not listed: the buffer size of R595 (16 R596) -/
  credits : Map Nat := []
  /-- flits sent under the current key (16 R598; DC 11: reset 0) -/
  ivCount : Nat := 0
  /-- keys used so far to send and accepted on receipt; the low bit is the key phase (16 R599; DC 11: reset 0) -/
  txGen : Nat := 0
  rxGen : Nat := 0
  /-- keys and salts of the two directions of the link's session (16 R598, 18 R681; reset none) -/
  txKey : Bytes := []
  rxKey : Bytes := []
  txSalt : Bytes := []
  rxSalt : Bytes := []
  /-- fabric ID of the link's other end, and sessions completed on the port (18 R681; DC 11: reset 0) -/
  peer : Nat := 0
  sessions : Nat := 0
  /-- a key update has started (16 R599; reset no) -/
  keyUpdate : Bool := false
  /-- module times of the tag failures of the last millisecond (16 R600; reset none) -/
  tagFails : List Nat := []
  /-- FAB_FEC_CORR (16 R624; reset 0) -/
  fecCorr : Nat := 0
  /-- FAB_FEC_UNCORR (16 R624; reset 0) -/
  fecUncorr : Nat := 0
  /-- FAB_LINK_RETRY (16 R624; reset 0) -/
  linkRetry : Nat := 0
  /-- FAB_AUTH_FAIL (16 R624; reset 0) -/
  authFail : Nat := 0
deriving DecidableEq, Repr

/-- A request of a pair not yet acknowledged (16 R611). -/
structure PairReq where
  seq : Nat
  sent : Nat
  first : Nat
  pkt : Packet
  /-- request-table entry that waits for the answer (16 R612) -/
  who : Option Nat := none
  /-- unit, share and tensor key of the context that waits for the answer (16 R612, 05 R163) -/
  ctx : Option (Nat × Nat × Nat) := none
deriving DecidableEq, Repr

/-- The state of an ordered pair with a peer (16 R611). -/
structure Pair where
  /-- next VC0 number to send (16 R611; reset 0) -/
  txNext : Nat := 0
  /-- requests unacknowledged, oldest first (16 R611; reset none) -/
  unacked : List PairReq := []
  /-- requests acknowledged or not whose answer has not come, oldest first (16 R620; reset none) -/
  asked : List PairReq := []
  /-- next VC0 number to execute (16 R611; reset 0) -/
  rxNext : Nat := 0
  /-- early requests held, at most 64 (16 R611; reset none) -/
  early : List Packet := []
  /-- saved status responses of the last 64 requests (16 R611; reset none) -/
  saved : List (Nat × Packet) := []
deriving DecidableEq, Repr

/-- The state of the module on the fabric (16 R602). -/
inductive FabState where
  | unassigned | assigned | admitted | leaving
deriving DecidableEq, Repr

/-- A reduction in progress (16 R616).  Elements are numbered from 0 in the order in which the output tensor stores them (03
R57). -/
structure Reduction where
  /-- root: exponents received, by member and element (16 R616) -/
  exps : Map (Map Int) := []
  /-- agreed exponents by element (03 R82) -/
  agreed : Map Int := []
  /-- root: partials received, by member and element: r, 96-bit value and flags (03 R83, R84) -/
  parts : Map (Map (Int × Int × BitVec 4)) := []
  /-- this module's own summand of each element, none for a NaN or infinity, with its flags, kept until r is agreed (03 R82) -/
  own : List (Option Dy × BitVec 4) := []
  /-- output format (16 R616) -/
  fmtOut : Nat := 0
  saturate : Bool := false
  /-- unit, share and output tensor of the context that waits (16 R616) -/
  unit : Nat := 0
  share : Nat := 0
  out : Nat := 0
  /-- fixed reference exponent, none in automatic mode (03 R82) -/
  fixedR : Option Int := none
  /-- output bytes received, by first element (16 R618) -/
  result : Map Bytes := []
  /-- this module has issued its ALLREDUCE; packets of others may have come before -/
  started : Bool := false
  /-- a RED_ABORT came before this module issued its ALLREDUCE -/
  aborted : Bool := false
deriving DecidableEq, Repr

/-- A trace of a packet train being received (16 R618). -/
structure Train where
  src : Nat
  ptype : Nat
  /-- one pair_seq in all packets of a train on VC0 (16 R618) -/
  pairSeq : Nat
  arg0 : BitVec 32
  arg1 : BitVec 64
  total : Nat
  parts : Map Bytes
deriving DecidableEq, Repr

/-- The fabric unit. -/
structure Fabric where
  /-- FAB_STATE.id (16 R626; reset 0xF_FFFF) -/
  id : Nat := 0xFFFFF
  /-- FAB_STATE.state (16 R626; reset UNASSIGNED) -/
  state : FabState := .unassigned
  /-- FAB_STATE.anchor (16 R626; reset 0) -/
  anchor : Bool := false
  /-- the recorded anchor's ID (16 R603; DC 11: reset 0xF_FFFF) -/
  anchorId : Nat := 0xFFFFF
  /-- upstream port (16 R603; DC 11: reset 0) -/
  upstream : Nat := 0
  /-- FAB_CTL.lend_set (16 R625; reset 0) -/
  lendSet : Nat := 0
  /-- FAB_TIMERS (16 R628; reset 0x0064_0032) -/
  timers : BitVec 32 := 0x00640032
  /-- FAB_PORT_SEL (16 R624; reset 0) -/
  portSel : BitVec 32 := 0
  /-- FAB_ROUTE_CFG.b (16 R624; reset 6) -/
  routeB : Nat := 6
  /-- FAB_RT_SEL (16 R624; reset 0) -/
  rtSel : BitVec 32 := 0
  /-- local routing table entries, 0 when not listed (16 R606; DC 11: reset 0) -/
  rtLocal : Map (BitVec 32) := []
  /-- group routing table entries, 0 when not listed (16 R606; DC 11: reset 0) -/
  rtGroup : Map (BitVec 32) := []
  /-- FAB_SET_SEL (16 R624; reset 0) -/
  setSel : BitVec 32 := 0
  /-- member count of each set, FAB_SET_CTL.members (16 R631; reset 0) -/
  setSizes : Map Nat := []
  /-- members by 65536·set + index, FAB_SET_WIN (16 R624; DC 11: reset 0) -/
  setMembers : Map Nat := []
  /-- ALLREDUCE operations issued on a set since it was last written (16 R616; reset 0) -/
  redCount : Map Nat := []
  /-- reductions in progress, by 2^32·set + number (16 R616; reset none) -/
  reductions : Map Reduction := []
  /-- ports P00 to P31, those not listed at reset values (16 R588; reset none listed) -/
  ports : Map Port := []
  /-- pairs by peer ID (16 R611; reset none) -/
  pairs : Map Pair := []
  /-- peers found lost (16 R612; reset none) -/
  lost : List Nat := []
  /-- trains being received (16 R618; reset none) -/
  trains : List Train := []
  /-- packets sent, newest first (16 R610; reset none) -/
  sent : List Packet := []
  /-- packets that arrived in flits and were delivered here, oldest first (16 R606; reset none) -/
  delivered : List Packet := []
  /-- payload bytes of a packet being received on a port and virtual channel, key 16·port + 4·vc + level (16 R610; reset none) -/
  partialRx : Map Bytes := []
  /-- pins this module holds on remote tables: peer, table_id, version (16 R614; reset none) -/
  remotePins : List (Nat × Nat × Nat) := []
  /-- FAB_RETX (16 R624; reset 0) -/
  retx : Nat := 0
  /-- FAB_PEERS_LOST (16 R624; reset 0) -/
  peersLost : Nat := 0
  /-- FAB_NO_ROUTE (16 R624; reset 0) -/
  noRoute : Nat := 0
  /-- FAB_ASSIGN_DROPPED (16 R624; reset 0) -/
  assignDropped : Nat := 0
  /-- what conversions of deltas sent to remote tables found, by home and table_id: a saturation, NaN deltas (03 R86; assumption
38; reset none) -/
  remoteAdds : List (Nat × Nat × Bool × Nat) := []
  /-- module time at which a LEAVING module's waiting ends (16 R621; reset none) -/
  leaveUntil : Nat := 0
deriving DecidableEq, Repr

/-! ### Bring-up, live service, supplies (17, 21) and the global page (20 R747) -/

/-- A resource given up in the cycle that runs: no other request, reservation, fetch or placement takes it before the next
cycle (00 R776). -/
inductive Freed where
  /-- a page of an image's key-value pool -/
  | page (image page : Nat)
  /-- a request-table entry -/
  | entry (e : Nat)
  /-- an entry of a queue pair's completion ring -/
  | cpl (qp : Nat)
  /-- a walk credit -/
  | credit
  /-- a context slot of a cluster -/
  | slot (cluster slot : Nat)
  /-- a baton slot -/
  | baton (slot : Nat)
deriving DecidableEq, Repr

/-- A running live-service operation (17 R652). -/
structure LsOp where
  op : Nat
  target : Nat
  /-- state of the port before a recalibration (17 R652) -/
  prior : PortState := .down
deriving DecidableEq, Repr

/-- A recovery image being received (17 R650, R651). -/
structure RcvImage where
  total : Nat
  parts : Map Bytes
deriving DecidableEq, Repr

/-- Power, bring-up, service level and live service. -/
structure Boot where
  /-- module time: I/O die cycles since the last module reset (19 R704; reset 0) -/
  cycles : Nat := 0
  /-- resources freed in this cycle, emptied when the next begins (00 R776; reset none) -/
  freed : List Freed := []
  /-- GLB_BOOT_COUNT, kept in management flash (20 R747; DC 10: reset 0) -/
  bootCount : Nat := 0
  /-- GLB_RESET_CAUSE, kept (20 R751; DC 10: reset 0) -/
  resetCause : Nat := 0
  /-- GLB_STATUS.level (20 R749; reset 0 NONE) -/
  level : Nat := 0
  /-- GLB_STATUS.mgmt_run (20 R749; reset 0) -/
  mgmtRun : Bool := false
  /-- auxiliary input present (17 R632, 21 R757; DC 10: reset no) -/
  aux : Bool := false
  /-- main input present (21 R755; DC 10: reset no) -/
  main : Bool := false
  /-- high-voltage stage enabled (21 R764; reset no) -/
  hv : Bool := false
  /-- management firmware verified (17 R633; reset no) -/
  fwOk : Bool := false
  /-- phases of 17 R632 done, 0 to 6 (reset 0) -/
  phase : Nat := 0
  /-- hand-over of 21 R759 in progress (reset no) -/
  handover : Bool := false
  /-- I/O die cycle in which the hand-over began (21 R770; reset 0) -/
  handoverAt : Nat := 0
  /-- the main input was present again during the hand-over (21 R762; reset no) -/
  mainBack : Bool := false
  /-- shut down by a hard limit (21 R769; reset no) -/
  shutdown : Bool := false
  /-- limits named in the shutdown's record (21 R769, R770; reset none) -/
  limits : List HardLimit := []
  /-- RESET_N held low (21 R767; reset no) -/
  resetLow : Bool := false
  /-- the intermediate bus current cut the hand-over short (21 R770; reset no) -/
  cut : Bool := false
  /-- tables whose adds a power loss took, to be recorded at bring-up (12 R436; reset none) -/
  lostAdds : List Nat := []
  /-- the image in the management firmware slot, none for the one it was made with (17 R646; DC 10: reset none) -/
  fwImage : Option Bytes := none
  /-- GLB_LINK_DEGRADED (20 R750; reset 0) -/
  linkDegraded : BitVec 64 := 0
  /-- GLB_LINK_FAILED (20 R750; reset 0) -/
  linkFailed : BitVec 64 := 0
  /-- GLB_PLL_LOCK (20 R751; reset 0) -/
  pll : BitVec 32 := 0
  /-- GLB_DOMAIN (20 R751; reset 0) -/
  domain : BitVec 64 := 0
  /-- clusters by global number, those not listed at reset values (02 R37; reset none listed) -/
  clusters : Map Cluster := []
  /-- the proofing clock cap of 0.9 GHz (17 R640; reset no) -/
  clockCap : Bool := false
  /-- the catalogue has been reloaded (17 R637; reset no) -/
  reloaded : Bool := false
  /-- RCV_STATUS.state (17 R649; reset 0) -/
  rcvState : Nat := 0
  /-- RCV_STATUS.source (17 R649; reset 0) -/
  rcvSource : Nat := 0
  /-- RCV_STATUS.last_fail (17 R649; reset 0) -/
  rcvFail : Nat := 0
  /-- RCV_ADDR (17 R648; reset 0) -/
  rcvAddr : BitVec 64 := 0
  /-- RCV_LEN (17 R648; reset 0) -/
  rcvLen : BitVec 32 := 0
  /-- recovery images being received from neighbours, by port (17 R650, R651; reset none) -/
  rcvParts : Map RcvImage := []
  /-- the recovery image that is being verified (17 R651; reset none) -/
  rcvWhole : Option Bytes := none
  /-- LS_STATUS.busy: the running operation (17 R663; reset none) -/
  lsOp : Option LsOp := none
  /-- LS_STATUS.result (17 R663; reset 0) -/
  lsResult : Nat := 0
  /-- LS_STATUS.valid (17 R663; reset 0) -/
  lsValid : Bool := false
  /-- LS_STATUS.last_op (17 R663; reset 0) -/
  lsLast : Nat := 0
  /-- LS_PROGRESS (17 R661; reset 0) -/
  lsProgress : Nat := 0
  /-- LS_TOTAL (17 R661; reset 0) -/
  lsTotal : Nat := 0
  /-- staged microcode version, LS_UCODE[31:0] (17 R661; reset 0 none staged) -/
  stagedUcode : Option Nat := none
  /-- staged hub firmware version (17 R652; reset none) -/
  stagedHub : Option Nat := none
  /-- floor that the staged object raises when it takes effect, 0 for none (18 R671; reset 0) -/
  ucodeRaise : Nat := 0
  hubRaise : Nat := 0
  /-- SHA-512 digests of the microcode and hub firmware objects staged so far, by version (18 R676; reset none) -/
  ucodeDigests : Map Bytes := []
  hubDigests : Map Bytes := []
  /-- running hub firmware versions, 0 when not listed (18 R676; DC 10: reset 0) -/
  hubFw : Map Nat := []
  /-- hubs restarting (17 R654; reset none) -/
  hubRestart : List Nat := []
deriving DecidableEq, Repr

/-! ### Security (18_security) -/

/-- A configuration record (18 R672). -/
structure ConfigRec where
  seq : Nat
  sprintShare : Nat
  fabric : Bool
  lending : Bool
  debugUnlock : Bool
  revoked : List Bytes
  digest : Bytes
  /-- floor it raises when it takes effect, 0 for none (18 R671) -/
  raise : Nat := 0
deriving DecidableEq, Repr

/-- An SPDM session (18 R675). -/
structure SpdmSession where
  mailbox : Nat
  established : Bool := false
  mutualAuth : Bool := false
  /-- module time at which it began (19 R724) -/
  began : Nat := 0
  /-- key updates so far (18 R675) -/
  keyGen : Nat := 0
deriving DecidableEq, Repr

/-- A wrapped entry of management flash for a set of data keys (18 R679). -/
structure KeyEntry where
  /-- which of the key sets made so far it wraps -/
  set : Nat
  /-- its write count -/
  count : Nat
  /-- the key set wrapped under the key-encryption key -/
  bytes : Bytes
  /-- its valid mark -/
  valid : Bool := false
deriving DecidableEq, Repr

/-- The security unit. -/
structure Sec where
  /-- SEC_STATUS.identity_ok (18 R690; reset 0) -/
  identityOk : Bool := false
  /-- configuration record in effect, SEC_STATUS.config_ok (18 R690; reset none) -/
  config : Option ConfigRec := none
  /-- the two copies in management flash (18 R673; DC 10: reset none) -/
  copyA : Option ConfigRec := none
  copyB : Option ConfigRec := none
  /-- copy A is the active one (18 R673; DC 10: reset no) -/
  activeA : Bool := false
  /-- stored record sequence in replay-protected flash (18 R673; DC 10: reset 0) -/
  storedSeq : Nat := 0
  /-- floors of kinds 0 to 4 (18 R671; all 0 at manufacture) -/
  floors : List Nat := [0, 0, 0, 0, 0]
  /-- live challenge: nonce number and module time of issue (18 R686; reset none) -/
  chal : Option (Nat × Nat) := none
  /-- nonces drawn so far (18 R686; DC 3: reset 0) -/
  draws : Nat := 0
  /-- SEC_STATUS.unlocked (18 R690; reset 0) -/
  unlocked : Bool := false
  /-- debug lines open (18 R687, 21 R773; reset no) -/
  debugOpen : Bool := false
  /-- SEC_UNLOCKS, unlock count in replay-protected flash (18 R689; reset 0) -/
  unlocks : Nat := 0
  /-- SEC_DBG_ADDR (18 R689; reset 0) -/
  dbgAddr : BitVec 64 := 0
  /-- SEC_DBG_LEN (18 R689; reset 0) -/
  dbgLen : BitVec 32 := 0
  /-- SEC_DBG_RESULT.result (18 R691; reset 0) -/
  dbgResult : Nat := 0
  /-- SEC_DBG_RESULT.valid (18 R691; reset 0) -/
  dbgValid : Bool := false
  /-- write counter of the replay-protected area, and the code that authenticates its contents; none while they are those of
  manufacture (18 R671; DC 10: reset 0, none) -/
  areaCount : Nat := 0
  areaCode : Option Bytes := none
  /-- sets of data keys made so far, each a memory pair and a store pair (18 R678; DC 3: reset 0) -/
  keyDraws : Nat := 0
  /-- which of them the security unit and the key slots hold, by owner: an account, or 4,096 for the module (18 R678; reset
  none) -/
  keySets : Map Nat := []
  /-- board-link keys of the hubs, made anew at each bring-up (18 R678; reset none) -/
  boardKeys : List Bytes := []
  /-- wrapped entries in management flash, by owner (18 R679; DC 10: reset none) -/
  keyFlash : Map (List KeyEntry) := []
  /-- SPDM sessions by session ID (18 R675; reset none) -/
  sessions : Map SpdmSession := []
  /-- next session ID (18 R675; DC 3: reset 1) -/
  nextSession : Nat := 1
  /-- SPDM responses, newest first: mailbox and bytes (18 R675; reset none) -/
  responses : List (Nat × Bytes) := []
deriving DecidableEq, Repr

/-! ### Management (19_management) -/

/-- A record of the event recorder (19 R716). -/
structure Rec where
  kind : Nat := 0x61
  severity : Nat
  source : Nat
  code : Nat
  seq : Nat
  boot : Nat
  snapId : Nat := 0
  time : Nat
  calendar : Nat
  inst : Nat := 0
  snapDropped : Bool := false
  suppressed : Option Nat := none
  payload : List Nat := []
  /-- the valid mark that follows it, written last (19 R715; reset none) -/
  mark : Bytes := []
deriving DecidableEq, Repr

/-- A snapshot set (19 R720). -/
structure SnapSet where
  id : Nat
  seq : Nat
  trigger : Nat
  list : Nat
  truncated : Bool
  entries : Nat
  capture : Nat
  words : Bytes
  flushed : Bool := false
deriving DecidableEq, Repr

/-- A conflict of a pacer, 0 clock, 1 admission, 2 replication, in progress (19 R712, R714). -/
structure Clamp where
  pacer : Nat
  reason : Nat
  /-- the outputs that lie beyond the bound: a priority, or the table slot, version and row -/
  srcs : List (Nat × Nat × Nat)
  /-- module time the conflict began; whether its begin record was written (19 R712) -/
  since : Nat
  recorded : Bool
deriving DecidableEq, Repr

/-- An open firmware update session (19 R702). -/
structure Update where
  binding : Nat
  /-- components transferred and verified: identifier and object -/
  comps : List (Nat × Bytes) := []
deriving DecidableEq, Repr

/-- Zhoulnas: PLDM, clock, pacers, recorder. -/
structure Mgmt where
  /-- MGT_LOCKSTEP_RESETS (19 R728; reset 0) -/
  lockstep : Nat := 0
  /-- endpoint ID on I3C and on PCI Express (19 R695; reset 0 none) -/
  eidI3c : Nat := 0
  eidPcie : Nat := 0
  /-- MGT_STATUS i3c_valid and i3c_addr (19 R730; reset 0) -/
  i3c : Option Nat := none
  /-- MGT_STATUS.updating: the open update session (19 R730; reset none) -/
  update : Option Update := none
  /-- why the management pair restarts: 1 lockstep mismatch, 2 new firmware (19 R693, 17 R646; reset 0) -/
  restart : Nat := 0
  /-- event receiver (19 R700; reset none) -/
  receiver : Option Nat := none
  /-- PlatformEventMessages sent, newest first: receiver and record seq (19 R700; reset none) -/
  messages : List (Nat × Nat) := []
  /-- PLDM answers, newest first: binding, completion code, bytes (19 R697; reset none) -/
  answers : List (Nat × Nat × Bytes) := []
  /-- MGT_STATUS.rtc_set (19 R730; reset 0) -/
  rtcSet : Bool := false
  /-- calendar value at rtcAt, 64 bits of 2^-32 s (19 R706; reset 0) -/
  rtc : Nat := 0
  /-- module time at which rtc was taken (19 R706; reset 0) -/
  rtcAt : Nat := 0
  /-- last sensor values by sensor ID (19 R694; DC 10: reset none listed, read 0) -/
  sensors : Map Nat := []
  /-- PCR_CTL (19 R730; reset 3) -/
  pcrCtl : BitVec 32 := 3
  /-- PCR_POWER_CAP (19 R728; reset 0xD48) -/
  powerCap : Nat := 0xD48
  /-- PCR_DIE_SEL (19 R728; reset 0) -/
  dieSel : BitVec 32 := 0
  /-- PCR_CLK_BOUNDS per die: f_min, f_max, those not listed 0 and 12 (19 R730; reset 0x0C00) -/
  clkBounds : Map (Nat × Nat) := []
  /-- PCR_ADM_SEL (19 R728; reset 1) -/
  admSel : Nat := 1
  /-- PCR_ADM_BOUNDS per priority: min, max, those not listed 0 and 0xFFFF (19 R728; reset 0xFFFF_0000) -/
  admBounds : Map (Nat × Nat) := []
  /-- PCR_ADM_TARGET (19 R728; reset 0x7D0) -/
  admTarget : Nat := 0x7D0
  /-- PCR_REPL_BUDGET (19 R728; reset 0x40) -/
  replBudget : Nat := 0x40
  /-- PCR_REPL_THRESH (19 R728; reset 0x0010_0040) -/
  replThresh : BitVec 32 := 0x00100040
  /-- admission rate per priority (19, Pacers; DC 8: max when not listed) -/
  admRate : Map Nat := []
  /-- conflicts in progress, in the order they began (19 R712, R730; reset none) -/
  conflicts : List Clamp := []
  /-- last begin record and suppressed count, by 16·pacer + reason (19 R712; reset none) -/
  lastBegin : Map (Nat × Nat) := []
  /-- safety overrides in progress: quantity, begin time, whether its begin was recorded (19 R713; reset none) -/
  overrides : List (SafetyQuantity × Nat × Bool) := []
  /-- PCR_CLAMPS (19 R728; reset 0) -/
  clamps : Nat := 0
  /-- PCR_OVERRIDES (19 R728; reset 0) -/
  overrideCount : Nat := 0
  /-- records held, oldest first (19 R715; DC 10: reset none) -/
  records : List Rec := []
  /-- seq of the last record written, EVR_LAST (19 R716, R728; reset 0) -/
  lastSeq : Nat := 0
  /-- EVR_LOST (19 R728; reset 0) -/
  lostRecs : Nat := 0
  /-- EVR_SNAP_DROPPED (19 R728; reset 0) -/
  snapDropped : Nat := 0
  /-- snapshot sets, oldest first (19 R719; reset none) -/
  snaps : List SnapSet := []
  /-- next snap_id (19 R716; DC 9: reset 1) -/
  nextSnap : Nat := 1
  /-- snapshot sets waiting to be taken, oldest first: seq of the record, trigger, source page, snap_id (19 R722; reset none) -/
  snapWait : List (Nat × Nat × Nat × Nat) := []
  /-- EVR_CTL.manual_list (19 R730; reset 0) -/
  manualList : Nat := 0
  /-- EVR_CURSOR (19 R728; reset 0) -/
  cursor : Nat := 0
  /-- EVR_SNAP_SEL (19 R728; reset 0) -/
  snapSel : BitVec 64 := 0
  /-- EVR_WIN and EVR_STATUS.window_kind (19 R723; reset 0) -/
  win : Bytes := []
  winKind : Nat := 0
  /-- EVR_TRIG_SEL (19 R728; reset 0) -/
  trigSel : BitVec 32 := 0
  /-- EVR_TRIG_CFG of each trigger (19 R728; reset 0) -/
  triggers : Map (BitVec 32) := []
  /-- EVR_LIST_SEL (19 R728; reset 0) -/
  listSel : BitVec 32 := 0
  /-- EVR_LIST_ENTRY by 64·list + entry (19 R728; reset 0) -/
  lists : Map (BitVec 32) := []
deriving DecidableEq, Repr

/-! ### The machine -/

/-- The state of the block. -/
structure State where
  /-- commands waiting, first in first out (the interface's queue; reset empty) -/
  pending : List Instr := []
  regs : Regs := {}
  hif : Hif := {}
  sched : Sched := {}
  obj : Objects := {}
  gen : Gen := {}
  search : Search := {}
  mem : Mem := {}
  flash : Flash := {}
  fab : Fabric := {}
  boot : Boot := {}
  sec : Sec := {}
  mgmt : Mgmt := {}
  /-- the MODEL's own field: free values drawn so far (assumption 3; DC 3: reset 0) -/
  free : Nat := 0
deriving DecidableEq, Repr

/-- The reasons a step can end in a fault. -/
inductive Fault where
  /-- Raised by no command: every event the spec describes has a next state here.  Kept so that the interface has a
  closed type.  Safe: nothing stops with it. -/
  | none
deriving DecidableEq, Repr

/-- The reasons a step can be refused. -/
inductive Refusal where
  /-- Raised by `exec` for a command that has no meaning in this model yet.  Safe: nothing is claimed of it. -/
  | notModelled (mnemonic : String)
deriving DecidableEq, Repr

/-- The machine right after reset: every field at the value its docstring names. -/
def State.reset : State := {}

end Sys2Proof.Machine
end

