-- ==== Sys2Proof/Machine/Ops.lean ====
section
/-! DEFINITION. The operations every meaning shares: keyed stores and byte memories in canonical form, little-endian
fields, module time, event counters and page interrupts, event records, DMA, completions, MSI-X and notices. -/

namespace Sys2Proof.Machine

/-! ### Keyed stores -/

/-- Keys strictly rising, all above `lo` when one is given: the canonical form of a keyed store. -/
def risingFrom {α : Type} : Option Nat → Map α → Bool
  | _, [] => true
  | none, (k, _) :: m => risingFrom (some k) m
  | some lo, (k, _) :: m => decide (lo < k) && risingFrom (some k) m

/-- The canonical form of a keyed store. -/
def mapWf {α : Type} (m : Map α) : Bool := risingFrom none m

/-- The value stored under a number. -/
def mget {α : Type} : Map α → Nat → Option α
  | [], _ => none
  | (j, v) :: m, k => if k = j then some v else mget m k

/-- The value stored under a number, or a default. -/
def mgetD {α : Type} (m : Map α) (k : Nat) (d : α) : α := (mget m k).getD d

/-- Put a value at the place of its number. -/
def mput {α : Type} : Map α → Nat → α → Map α
  | [], k, v => [(k, v)]
  | (j, w) :: m, k, v =>
    if k < j then (k, v) :: (j, w) :: m
    else if k = j then (k, v) :: m
    else (j, w) :: mput m k v

/-- Remove a number; keeps the canonical form. -/
def merase {α : Type} : Map α → Nat → Map α
  | [], _ => []
  | (j, w) :: m, k => if k = j then merase m k else (j, w) :: merase m k

/-- Store a value under a number, the only one it then holds; keeps the canonical form. -/
def mset {α : Type} (m : Map α) (k : Nat) (v : α) : Map α := mput (merase m k) k v

/-- Change the value under a number, starting from a default when it holds none. -/
def mmod {α : Type} (m : Map α) (k : Nat) (d : α) (f : α → α) : Map α := mset m k (f (mgetD m k d))

/-- Change the value under a number when it holds one. -/
def mupd {α : Type} (m : Map α) (k : Nat) (f : α → α) : Map α :=
  match mget m k with
  | none => m
  | some v => mset m k (f v)

/-- Change every value. -/
def mmap {α : Type} (m : Map α) (f : Nat → α → α) : Map α := m.map fun e => (e.1, f e.1 e.2)

/-- Whether a number is listed. -/
def mhas {α : Type} (m : Map α) (k : Nat) : Bool := (mget m k).isSome

/-- The lowest number at or above `lo` not listed, below `hi`. -/
def lowestFree {α : Type} (m : Map α) (hi : Nat) : Option Nat :=
  (List.range hi).find? fun k => !mhas m k

/-! ### Byte memories -/

/-- The canonical form of a byte memory in which an unlisted address reads 0: addresses strictly rising, no listed 0. -/
def memWf (m : List Host.Cell) : Bool := mapWf m && m.all fun c => c.2 != 0

/-- The byte at an address; an unlisted address reads 0 (assumptions 6 and 7). -/
def memGet (m : List Host.Cell) (a : Nat) : Byte := mgetD m a 0

/-- Write one byte; keeps the canonical form. -/
def memSet (m : List Host.Cell) (a : Nat) (b : Byte) : List Host.Cell :=
  if b = 0 then merase m a else mset m a b

/-- Write bytes at rising addresses. -/
def memWrite (m : List Host.Cell) (a : Nat) : Bytes → List Host.Cell
  | [] => m
  | b :: bs => memWrite (memSet m a b) (a + 1) bs

/-- Read bytes at rising addresses. -/
def memRead (m : List Host.Cell) (a : Nat) : Nat → Bytes
  | 0 => []
  | n + 1 => memGet m a :: memRead m (a + 1) n

/-! ### Little-endian fields (00 R7) -/

/-- The number spelled by bytes, lowest first. -/
def leNat : Bytes → Nat
  | [] => 0
  | b :: bs => b.toNat + 256 * leNat bs

/-- A number as `n` bytes, lowest first, cut to its low bits. -/
def leBytes : Nat → Nat → Bytes
  | 0, _ => []
  | n + 1, v => BitVec.ofNat 8 v :: leBytes n (v / 256)

/-- The `n`-byte field at an offset. -/
def rd (b : Bytes) (off n : Nat) : Nat := leNat ((b.drop off).take n)

/-- Bits [hi:lo] of a number (00 R6). -/
def bitsOf (v hi lo : Nat) : Nat := (v >>> lo) % 2 ^ (hi - lo + 1)

/-- One bit of a number. -/
def bitOf (v i : Nat) : Bool := v.testBit i

/-- A Boolean as a bit. -/
def b2n (b : Bool) : Nat := if b then 1 else 0

/-- `n` zero bytes. -/
def zeros (n : Nat) : Bytes := List.replicate n 0

/-- Bytes cut or padded with zeros to a length. -/
def padTo (b : Bytes) (n : Nat) : Bytes := (b ++ zeros (n - b.length)).take n

/-- The largest multiple of `m` that a number is rounded up to. -/
def roundUp (n m : Nat) : Nat := (n + m - 1) / m * m

/-! ### Parts of the state -/

def modRegs (f : Regs → Regs) (s : State) : State := { s with regs := f s.regs }
def modHif (f : Hif → Hif) (s : State) : State := { s with hif := f s.hif }
def modSched (f : Sched → Sched) (s : State) : State := { s with sched := f s.sched }
def modObj (f : Objects → Objects) (s : State) : State := { s with obj := f s.obj }
def modGen (f : Gen → Gen) (s : State) : State := { s with gen := f s.gen }
def modSearch (f : Search → Search) (s : State) : State := { s with search := f s.search }
def modMem (f : Mem → Mem) (s : State) : State := { s with mem := f s.mem }
def modFlash (f : Flash → Flash) (s : State) : State := { s with flash := f s.flash }
def modFab (f : Fabric → Fabric) (s : State) : State := { s with fab := f s.fab }
def modBoot (f : Boot → Boot) (s : State) : State := { s with boot := f s.boot }
def modSec (f : Sec → Sec) (s : State) : State := { s with sec := f s.sec }
def modMgmt (f : Mgmt → Mgmt) (s : State) : State := { s with mgmt := f s.mgmt }

/-- Do something only under a condition. -/
def whenS (c : Bool) (f : State → State) (s : State) : State := if c then f s else s

/-- Pair each element with its position. -/
def withPos {α : Type} (l : List α) : List (Nat × α) := (List.range l.length).zip l

/-- Fold a change of state over a list. -/
def foldS {α : Type} (l : List α) (f : State → α → State) (s : State) : State := l.foldl f s

def fnOf (s : State) (f : Nat) : Fn := mgetD s.hif.fns f {}
def modFn (f : Nat) (g : Fn → Fn) (s : State) : State := modHif (fun h => { h with fns := mmod h.fns f {} g }) s
def qpOf (s : State) (q : Nat) : Qp := mgetD s.hif.qps q {}
def modQp (q : Nat) (g : Qp → Qp) (s : State) : State := modHif (fun h => { h with qps := mmod h.qps q {} g }) s
def pageOf (s : State) (p : Nat) : Page := mgetD s.regs.pages p {}
def modPage (p : Nat) (g : Page → Page) (s : State) : State :=
  modRegs (fun r => { r with pages := mmod r.pages p {} g }) s
def clusterOf (s : State) (g : Nat) : Cluster := mgetD s.boot.clusters g {}
def modCluster (g : Nat) (f : Cluster → Cluster) (s : State) : State :=
  modBoot (fun b => { b with clusters := mmod b.clusters g {} f }) s
def stackOf (s : State) (n : Nat) : Stack := mgetD s.mem.stackTab n {}
def modStack (n : Nat) (f : Stack → Stack) (s : State) : State :=
  modMem (fun m => { m with stackTab := mmod m.stackTab n {} f }) s
def channelOf (s : State) (n : Nat) : Channel := mgetD s.flash.channels n {}
def modChannel (n : Nat) (f : Channel → Channel) (s : State) : State :=
  modFlash (fun m => { m with channels := mmod m.channels n {} f }) s
def portOf (s : State) (n : Nat) : Port := mgetD s.fab.ports n {}
def modPort (n : Nat) (f : Port → Port) (s : State) : State :=
  modFab (fun m => { m with ports := mmod m.ports n {} f }) s
def entryOf (s : State) (e : Nat) : Option RtEntry := mget s.gen.entries e
def modEntry (e : Nat) (f : RtEntry → RtEntry) (s : State) : State :=
  modGen (fun g => { g with entries := mupd g.entries e f }) s
def modWork (e : Nat) (f : Work → Work) (s : State) : State :=
  modEntry e (fun x => { x with work := f x.work }) s
def modSearchWork (e : Nat) (f : SearchWork → SearchWork) (s : State) : State :=
  modWork e (fun x => { x with search := f x.search }) s
def modAccount (a : Nat) (f : Account → Account) (s : State) : State :=
  modSched (fun d => { d with accounts := mupd d.accounts a f }) s

/-- The answer of a meaning: it always reaches a next state. -/
abbrev Answer := Host.Outcome State Fault Refusal

/-- A free value: the next one the model draws (assumption 3). -/
def drawFree (s : State) : BitVec 64 × State := (Config.free64 s.free, { s with free := s.free + 1 })

/-! ### Module time (19 R704) -/

/-- Nanoseconds after a count of I/O die cycles since the reset: 40 per reference tick and two thirds of the cycles since
the last tick (19 R704). -/
def nsOfCycles (c : Nat) : Nat := 40 * (c / 60) + c % 60 * 2 / 3

/-- The first cycle at which module time reaches an instant. -/
def cycleOfNs (t : Nat) : Nat := 60 * (t / 40) + (t % 40 * 3 + 1) / 2

/-- Module time in ns. -/
def now (s : State) : Nat := nsOfCycles s.boot.cycles

/-! ### Event counters and page interrupts (20 R739 to R745, 19 R725) -/

/-- The vectors of a function's MSI-X table (15 R556). -/
def msixSize (f : Nat) : Nat := if f = 0 then 2048 else 64

/-- The count of event sources of a page: PG_CAP (20 R737; at least one more than the highest source of R745). -/
def pgCap (p : Nat) : Nat := max (Nat.succ (Config.pgCapLess1 p).toNat) (if p = 5 then 19 else 10)

/-- Send an MSI-X message, or hold it while its vector or the function is masked (15 R573). -/
def sendMsix (f v : Nat) (s : State) : State :=
  let fn := fnOf s f
  if fn.fnMask || fn.vecMask.contains v then
    if fn.vecPending.contains v then s else modFn f (fun x => { x with vecPending := v :: x.vecPending }) s
  else modHif (fun h => { h with msgs := (f, v) :: h.msgs }) s

/-- One counter after `n` events of a source, and whether it wrapped (19 R725). -/
def Evc.bump (src n : Nat) (e : Evc) : Evc × Bool :=
  if e.enable && e.source == src then
    ({ e with count := (e.count + n) % 2 ^ 48 }, decide (2 ^ 48 ≤ e.count + n))
  else (e, false)

/-- The overflow bits that `n` events of a source set. -/
def ovfBits (src n : Nat) : Nat → List Evc → Nat
  | _, [] => 0
  | i, e :: es => (if (e.bump src n).2 then 2 ^ i else 0) + ovfBits src n (i + 1) es

/-- Count `n` events of a source on a page's counters. -/
def Page.count (src n : Nat) (p : Page) : Page :=
  { p with evcs := p.evcs.map fun e => (e.bump src n).1, ovf := p.ovf ||| BitVec.ofNat 8 (ovfBits src n 0 p.evcs) }

/-- Whether a power domain is on: stacks 0 to 19, hubs 20 to 27, optical engines 28 to 35, compute die networks 36 to 39, the
I/O die main domain 40 (02 R49, 20 R751). -/
def domainOn (s : State) (i : Nat) : Bool := s.boot.domain.getLsbD i

/-- Whether the network of a cluster's compute die is on, which the cluster's own domain requires (02 R49). -/
def netOn (s : State) (g : Nat) : Bool := domainOn s (36 + g / 80)

/-- Whether a page counts: a cluster page counts nothing while its cluster sleeps, is off or is retired (20 R744). -/
def pageCounts (s : State) (p : Nat) : Bool :=
  if p < 64 then true
  else
    let c := clusterOf s (p - 64)
    c.powered && c.awake && !c.retired

/-- Whether the block's own interrupt condition of a page holds (20 R739): a fault of a cluster (04 R141) or the latched
condition of the block. -/
def blockCond (s : State) (p : Nat) (pg : Page) : Bool :=
  pg.block || (decide (64 ≤ p) && (clusterOf s (p - 64)).fault != 0)

/-- PG_IRQ_STATUS (20 R739). -/
def irqStatus (s : State) (p : Nat) (pg : Page) : Nat :=
  pg.ovf.toNat + 256 * b2n (!pg.errs.isEmpty) + 512 * b2n (blockCond s p pg)

/-- Whether the page interrupt is asserted (20 R740). -/
def irqAsserted (s : State) (p : Nat) (pg : Page) : Bool := irqStatus s p pg &&& pg.enable.toNat != 0

/-- The function a page's interrupt goes to (20 R739). -/
def pgTarget (pg : Page) : Nat := if pg.ctl.getLsbD 11 then 0 else 1

/-- Evaluate a page's interrupt: it is asserted or not from now on, and a message is sent when it rises, or when `again`
asks for one while it stays asserted (20 R740). -/
def irqEval (again : Bool) (p : Nat) (s : State) : State :=
  match mget s.regs.pages p with
  | none => s
  | some pg =>
    let a := irqAsserted s p pg
    let send := a && (again || !pg.irq) && pg.ctl.getLsbD 12
    let s1 := modPage p (fun x => { (if send && p = 1 && !s.regs.evcFreeze then x.count 4 1 else x) with irq := a }) s
    if send then sendMsix (pgTarget pg) (pg.ctl.toNat % 2048) s1 else s1

/-- Count `n` events of a source on a page (20 R745), unless all counters are frozen (19 R726), and evaluate the page's
interrupt.  Events of a page that no one has configured leave nothing. -/
def evCount (p src n : Nat) (s : State) : State :=
  match mget s.regs.pages p with
  | none => s
  | some _ =>
    if s.regs.evcFreeze || !pageCounts s p || n == 0 then s
    else irqEval false p (modPage p (Page.count src n) s)

/-- Count MSI-X messages sent (20 R745, host interface source 4) and send one. -/
def sendMsg (f v : Nat) (s : State) : State := evCount 1 4 1 (sendMsix f v s)

/-! ### Passing of time -/

/-- Cycles of a page's counting clock in the I/O die cycles from `a` to `b` (20 R744): the reference on the management
page, the cluster's own clock of 0.9 + 0.05·code GHz on a cluster page, else the I/O die clock. -/
def pageCycles (s : State) (p a b : Nat) : Nat :=
  if p = 13 then b / 60 - a / 60
  else if 64 ≤ p then
    let k := 18 + (clusterOf s (p - 64)).code
    b * k / 30 - a * k / 30
  else b - a

/-- Let `n` I/O die cycles pass: module time advances and source 0 of every configured page counts its clock. -/
def passCycles (n : Nat) (s : State) : State :=
  let a := s.boot.cycles
  let s1 := modBoot (fun b => { b with cycles := b.cycles + n, freed := if n = 0 then b.freed else [] }) s
  foldS (s.regs.pages.map Prod.fst) (fun t p => evCount p 0 (pageCycles s p a (a + n)) t) s1

/-- Let module time reach an instant that lies ahead; time never steps backward (19 R704, assumption 2). -/
def advanceTo (t : Nat) (s : State) : State :=
  let c := cycleOfNs t
  if s.boot.cycles < c then passCycles (c - s.boot.cycles) s else s

/-- What a step does on an empty queue: one cycle passes (assumption 1). -/
def idleCycle (s : State) : State := passCycles 1 s

/-! ### Resources freed in this cycle (00 R776) -/

/-- Note that a resource is freed now. -/
def noteFreed (x : Freed) (s : State) : State := modBoot (fun b => { b with freed := x :: b.freed }) s

/-- Whether a resource was freed in this cycle. -/
def justFreed (s : State) (x : Freed) : Bool := s.boot.freed.contains x

/-- How often a resource was freed in this cycle. -/
def freedCount (s : State) (x : Freed) : Nat := (s.boot.freed.filter fun y => y == x).length

/-! ### Event recorder (19 R715 to R722) -/

/-- The calendar value, 0 until it is set (19 R706). -/
def calendar (s : State) : Nat :=
  if s.mgmt.rtcSet then (s.mgmt.rtc + (now s - s.mgmt.rtcAt) * 2 ^ 32 / 1000000000) % 2 ^ 64 else 0

/-- The bytes of a record, header included (19 R715): a multiple of 16 from 48 to 512. -/
def Rec.len (r : Rec) : Nat := min 512 (48 + roundUp (8 * r.payload.length) 16)

/-- A record as bytes (19 R716); the payload as 8-byte words. -/
def Rec.bytes (r : Rec) : Bytes :=
  padTo (leBytes 2 r.len ++ leBytes 1 r.kind ++ leBytes 1 r.severity ++ leBytes 2 r.source ++ leBytes 2 r.code ++
    leBytes 8 r.seq ++ leBytes 4 r.boot ++ leBytes 4 r.snapId ++ leBytes 8 r.time ++ leBytes 8 r.calendar ++
    leBytes 4 r.inst ++ leBytes 1 (b2n r.snapDropped + 2 * b2n r.suppressed.isSome) ++ zeros 3 ++
    ((match r.suppressed with | some n => [n] | none => []) ++ r.payload).flatMap (leBytes 8)) r.len

/-- One bit, and one byte, of a CRC-32C, least significant bit first. -/
def crc32cBit (c : BitVec 32) : BitVec 32 := if c.getLsbD 0 then (c >>> 1) ^^^ 0x82F63B78 else c >>> 1
def crc32cByte (c : BitVec 32) (b : Byte) : BitVec 32 := (List.range 8).foldl (fun x _ => crc32cBit x) (c ^^^ b.setWidth 32)

/-- The CRC-32C of bytes. -/
def crc32c (l : Bytes) : BitVec 32 := l.foldl crc32cByte 0xFFFFFFFF ^^^ 0xFFFFFFFF

/-- The 16-byte valid mark of a record: its seq and a CRC-32C over it (19 R715; their places in it are a DESIGN CHOICE, log entry 10). -/
def Rec.markOf (r : Rec) : Bytes := leBytes 8 r.seq ++ leBytes 4 (crc32c r.bytes).toNat ++ zeros 4

/-- Write a record's valid mark; a record without one does not exist for a reader (19 R715). -/
def Rec.seal (r : Rec) : Rec := { r with mark := r.markOf }
def Rec.marked (r : Rec) : Bool := r.mark == r.markOf

/-- Bytes of a snapshot set: its 64-byte header and its words (19 R720). -/
def SnapSet.size (x : SnapSet) : Nat := 64 + x.words.length

/-- Whether a trigger's 8-bit source names a page (20 R746). -/
def pageCodeHas (code page : Nat) : Bool :=
  if code < 0x40 then page == code
  else if code ≤ 0x43 then decide (64 + 80 * (code - 0x40) ≤ page) && decide (page < 64 + 80 * (code - 0x40) + 80)
  else false

/-- The lowest enabled trigger that a record of a source and code matches (19 R719). -/
def matchTrigger (m : Mgmt) (source code : Nat) : Option Nat :=
  (m.triggers.find? fun t =>
    t.2.getLsbD 28 && pageCodeHas (t.2.toNat % 256) source &&
      (bitsOf t.2.toNat 23 8 == 0xFFFF || bitsOf t.2.toNat 23 8 == code)).map Prod.fst

/-- Bytes the event area holds: records with their valid marks, and flushed sets (19 R715, R721). -/
def areaBytes (m : Mgmt) : Nat :=
  (m.records.map fun r => r.len + 16).sum + ((m.snaps.filter (·.flushed)).map SnapSet.size).sum

/-- The event area (19 R718). -/
def areaSize : Nat := 256 * 2 ^ 20

/-- How many of the oldest records lie in the first `bytes` of the area. -/
def oldestIn : Nat → List Rec → Nat
  | _, [] => 0
  | bytes, r :: rs => if bytes = 0 then 0 else 1 + oldestIn (bytes - (r.len + 16)) rs

/-- Erase the oldest blocks of 256 KiB when the area is over its size, and write the gap record (19 R718). -/
def wrapArea (s : State) : State :=
  let m := s.mgmt
  let excess := areaBytes m - areaSize
  if excess = 0 then s
  else
    let n := max 1 (oldestIn (roundUp excess (256 * 1024)) m.records)
    let gone := m.records.take n
    let last := (gone.getLast?.map (·.seq)).getD 0
    let gap : Rec := { kind := 0x65, severity := 0, source := 13, code := 0x0904, seq := m.lastSeq + 1,
                       boot := s.boot.bootCount, time := now s, calendar := calendar s,
                       payload := [(gone.head?.map (·.seq)).getD 0, last] }
    { s with mgmt := { m with records := m.records.drop n ++ [gap.seal], lastSeq := m.lastSeq + 1,
                              lostRecs := m.lostRecs + gone.length,
                              snaps := m.snaps.filter fun x => !x.flushed || decide (last < x.seq) } }

/-- Flush every buffered snapshot set to the event area (19 R721). -/
def flushSnaps (s : State) : State :=
  wrapArea (modMgmt (fun m => { m with snaps := m.snaps.map fun x => { x with flushed := true } }) s)

/-- Append an entry to a page's error log, or set ovf when 8 are held (20 R741). -/
def appendErr (e : ErrEntry) (p : Page) : Page :=
  if p.errs.length < 8 then { p with errs := p.errs ++ [e] } else { p with errOvf := true }

/-- Write an event record (19 R715 to R722, R700; 20 R741): severity, source page, code, instance, payload words and
suppressed count.  A matching trigger, or a list that is asked for (written 256 + its number), names a snapshot set that
SNAPSHOT_SET takes; a ninth waiting set is dropped. -/
def recordWith (asked : Option Nat) (kind sev source code inst : Nat) (suppressed : Option Nat) (payload : List Nat)
    (s : State) : State :=
  let m := s.mgmt
  let trig := match asked with | some l => some (256 + l) | none => matchTrigger m source code
  let full := trig.isSome && decide (9 ≤ m.snapWait.length)
  let seq := m.lastSeq + 1
  let r : Rec := { kind := kind, severity := sev, source := source, code := code, seq := seq, boot := s.boot.bootCount,
                   snapId := if trig.isSome && !full then m.nextSnap else 0, time := now s, calendar := calendar s,
                   inst := inst, snapDropped := full, suppressed := suppressed, payload := payload }
  let s1 := modMgmt (fun m =>
    { m with
      records := m.records ++ [r.seal]
      lastSeq := seq
      nextSnap := if trig.isSome && !full then m.nextSnap + 1 else m.nextSnap
      snapWait := match trig with
        | some t => if full then m.snapWait else m.snapWait ++ [(seq, t, source, m.nextSnap)]
        | none => m.snapWait
      snapDropped := m.snapDropped + b2n full
      messages := match m.receiver with
        | some e => if 1 ≤ sev then (e, seq) :: m.messages else m.messages
        | none => m.messages }) s
  let s2 := whenS (decide (1 ≤ sev)) (fun t => irqEval false source (modPage source (appendErr ⟨seq, code, inst⟩) t)) s1
  let s3 := evCount 13 1 1 (wrapArea s2)
  whenS (decide (2 ≤ sev)) flushSnaps s3

/-- Write an event record with no list asked for. -/
def recordFull (kind sev source code inst : Nat) (suppressed : Option Nat) (payload : List Nat) (s : State) : State :=
  recordWith none kind sev source code inst suppressed payload s

/-- Write an ordinary event record (kind 0x61). -/
def recordEvent (sev source code inst : Nat) (payload : List Nat) (s : State) : State :=
  recordFull 0x61 sev source code inst none payload s

/-! ### DMA, completions, notices (15 R554 to R585) -/

/-- Write bytes to host memory (15 R554); addresses are 64-bit. -/
def dmaWrite (a : Nat) (b : Bytes) (s : State) : State :=
  evCount 1 7 1 (modHif (fun h => { h with hostMem := memWrite h.hostMem a b }) s)

/-- The function a queue pair acts for (15 R556, 14 R522). -/
def qpFn (s : State) (q : Nat) : Option Nat :=
  if q = 0x4000 then some 0 else if q = 0x4001 then some 1 else (qpOf s q).bound.map Prod.fst

/-- The account of a bound queue pair. -/
def qpAccount (s : State) (q : Nat) : Option Nat := (qpOf s q).bound.map Prod.snd

/-- Whether a queue pair number names an admin queue pair. -/
def isAdmin (q : Nat) : Bool := q == 0x4000 || q == 0x4001

/-- Whether a function is enabled and has no disable in progress (14 R541). -/
def fnLive (s : State) (f : Nat) : Bool := (fnOf s f).enabled && (fnOf s f).disabling.isNone

def sqSize (q : Qp) : Nat := 2 ^ (q.sizes.toNat % 32)
def cqSize (q : Qp) : Nat := 2 ^ (bitsOf q.sizes.toNat 9 5)
def stSize (q : Qp) : Nat := 2 ^ (bitsOf q.sizes.toNat 14 10)

/-- One event of a queue pair: it counts toward the interrupt, which is sent when the count is reached (15 R573). -/
def qpEvent (q : Nat) (s : State) : State :=
  let qp := qpOf s q
  let n := qp.events + 1
  let need := max 1 (bitsOf qp.irq.toNat 19 12)
  if qp.irq.getLsbD 11 && decide (need ≤ n) then
    sendMsg ((qpFn s q).getD 0) (qp.irq.toNat % 2048) (modQp q (fun x => { x with events := 0 }) s)
  else modQp q (fun x => { x with events := n, firstEvent := if qp.events = 0 then now s else x.firstEvent }) s

/-- A completion entry's contents (15 R581). -/
structure Cpl where
  tag : Nat
  status : Nat
  search : Nat := 0
  stage : Nat := 0
  flags : Nat := 0
  sqHead : Nat := 0
  detail : Nat := 0
  numFlags : Nat := 0
  result : Nat := 0
deriving DecidableEq, Repr

/-- The number a completion names its queue pair by: 0x4000 for either admin queue pair (15 R581). -/
def cplQp (q : Nat) : Nat := if isAdmin q then 0x4000 else q

/-- The 32 bytes of a completion entry (15 R581). -/
def Cpl.bytes (c : Cpl) (q : Nat) (phase : Bool) : Bytes :=
  leBytes 8 c.tag ++ leBytes 2 c.status ++ leBytes 2 c.search ++ leBytes 1 (c.stage % 16) ++
    leBytes 1 (c.flags % 16 + 128 * b2n phase) ++ leBytes 2 c.sqHead ++ leBytes 4 c.detail ++ leBytes 2 (cplQp q) ++
    leBytes 1 (c.numFlags % 16) ++ leBytes 1 0 ++ leBytes 8 c.result

/-- Write a completion entry to a queue pair's completion ring: at the completion tail with the current phase, using the
entry its command reserved (15 R563, R564).  A command ended by a function disable writes none (15 R584). -/
def complete (q : Nat) (c : Cpl) (s : State) : State :=
  let qp := qpOf s q
  if fnLive s ((qpFn s q).getD 0) then
    let s1 := dmaWrite (qp.cqBase.toNat + 32 * qp.cqTail) (c.bytes q qp.phase) s
    let wrap := decide (cqSize qp ≤ qp.cqTail + 1)
    let s2 := modQp q (fun x => { x with
      cqTail := if wrap then 0 else qp.cqTail + 1
      phase := if wrap then !qp.phase else qp.phase
      cqUsed := x.cqUsed + 1
      reserved := x.reserved - 1 }) s1
    evCount 1 2 1 (qpEvent q s2)
  else modQp q (fun x => { x with reserved := x.reserved - 1 }) s

/-- The notice an ASYNC_WAIT completes with (15 R585). -/
def noticeResult (n : Notice) : Nat := n.part + 256 * n.channel

/-- Post a notice on one physical function: the oldest ASYNC_WAIT completes with it, or it is queued, displacing the
oldest of 64 (15 R585). -/
def postNoticeOn (f : Nat) (n : Notice) (s : State) : State :=
  let waits := if f = 0 then s.hif.waits0 else s.hif.waits1
  match waits with
  | w :: ws =>
    complete (0x4000 + f) { tag := w.tag, status := n.status, sqHead := w.sqHead, result := noticeResult n }
      (modHif (fun h => if f = 0 then { h with waits0 := ws } else { h with waits1 := ws }) s)
  | [] =>
    let q := if f = 0 then s.hif.notices0 else s.hif.notices1
    let full := decide (64 ≤ q.length)
    let q' := (if full then q.drop 1 else q) ++ [n]
    modHif (fun h => if f = 0 then { h with notices0 := q', lost0 := h.lost0 + b2n full }
                     else { h with notices1 := q', lost1 := h.lost1 + b2n full }) s

/-- Post a notice on both physical functions (15 R585). -/
def postNotice (n : Notice) (s : State) : State := postNoticeOn 1 n (postNoticeOn 0 n s)

/-! ### Accounts -/

/-- Whether an account exists (14 R515). -/
def acctExists (s : State) (a : Nat) : Bool := mhas s.sched.accounts a

/-- Add charges (14 R543). -/
def Counters.add (a b : Counters) : Counters :=
  { waitNs := a.waitNs + b.waitNs, arrayCycles := a.arrayCycles + b.arrayCycles
    brixjoBytes := a.brixjoBytes + b.brixjoBytes, flashReads := a.flashReads + b.flashReads
    flashSpec := a.flashSpec + b.flashSpec, tokensIn := a.tokensIn + b.tokensIn, tokensOut := a.tokensOut + b.tokensOut
    degraded := a.degraded + b.degraded, falseStarts := a.falseStarts + b.falseStarts, preempt := a.preempt + b.preempt
    draftsRejected := a.draftsRejected + b.draftsRejected, faults := a.faults + b.faults, ended := a.ended + b.ended }

/-- Charge an account (14 R543, R544). -/
def chargeAcct (a : Nat) (c : Counters) (s : State) : State :=
  modAccount a (fun x => { x with ctr := x.ctr.add c }) s

/-- Charge an entry and its account with the same quantities (14 R543). -/
def charge (e : Nat) (c : Counters) (s : State) : State :=
  match entryOf s e with
  | none => s
  | some x => chargeAcct x.account c (modEntry e (fun y => { y with ctr := y.ctr.add c }) s)

/-- Bytes 136 to 199 of a request-table entry (10 R346, 14 R542): each counter cut to its field. -/
def Counters.bytes (c : Counters) : Bytes :=
  leBytes 8 c.waitNs ++ leBytes 8 c.arrayCycles ++ leBytes 8 c.brixjoBytes ++ leBytes 8 c.flashReads ++
    leBytes 8 c.flashSpec ++ leBytes 4 c.tokensIn ++ leBytes 4 c.tokensOut ++ leBytes 4 c.degraded ++
    leBytes 4 c.falseStarts ++ leBytes 4 c.preempt ++ leBytes 4 c.draftsRejected

/-- Append a record to the accounting log, overwriting the oldest when it is full (14 R542). -/
def acctLog (b : Bytes) (s : State) : State :=
  modSched (fun d =>
    if d.log.length < 32768 then { d with log := d.log ++ [b] }
    else { d with log := d.log.drop 1 ++ [b], logLost := d.logLost + 1 }) s

end Sys2Proof.Machine
end

