-- ==== Sys2Proof/Machine/Operands.lean ====
section
/-! DEFINITION. Status codes, the fields of a command's slots and records, which of their bits a command may set, and
the detail that names the lowest offending byte (15 R574 to R586, R777; 00 R14). -/

namespace Sys2Proof.Machine

/-! ### Status codes (15 R586) -/

namespace Status
def ok : Nat := 0x0000
def shortResult : Nat := 0x0001
def alreadyComplete : Nat := 0x0002
def stop : Nat := 0x0010
def length : Nat := 0x0011
def eos : Nat := 0x0012
def cancelled : Nat := 0x0020
def deadline : Nat := 0x0021
def functionReset : Nat := 0x0022
def fault : Nat := 0x0023
def descMalformed : Nat := 0x0030
def notPermitted : Nat := 0x0031
def requestUnknown : Nat := 0x0032
def noResources : Nat := 0x0033
def inputTooLong : Nat := 0x0034
def textInvalid : Nat := 0x0035
def batonInvalid : Nat := 0x0036
def queryInvalid : Nat := 0x0037
def profileInvalid : Nat := 0x0040
def imageInvalid : Nat := 0x0041
def tokenizerInvalid : Nat := 0x0042
def templateInvalid : Nat := 0x0043
def collectionInvalid : Nat := 0x0044
def collectionFull : Nat := 0x0045
def ingestBusy : Nat := 0x0046
def sessionClosed : Nat := 0x0047
def filterInvalid : Nat := 0x0048
def verifyTooLarge : Nat := 0x0049
def tableInvalid : Nat := 0x004A
def versionRetired : Nat := 0x004B
def accountInvalid : Nat := 0x004C
def accountBusy : Nat := 0x004D
def mediaReadOnly : Nat := 0x0050
def spareLow : Nat := 0x0051
def noNeighbour : Nat := 0x0060
def gone : Nat := 0x0061
def refused : Nat := 0x0062
end Status

/-! ### Offending bytes (15 R777) -/

/-- The bytes of a mask of `n` bytes in which the fields (offset, size, usable bits) may be set. -/
def maskOf (n : Nat) (fs : List (Nat × Nat × Nat)) : List Nat :=
  (List.range n).map fun i =>
    (fs.map fun f => if f.1 ≤ i ∧ i < f.1 + f.2.1 then (f.2.2 >>> (8 * (i - f.1))) % 256 else 0).foldl (· ||| ·) 0

/-- The lowest byte that holds a set bit outside a mask (15 R777). -/
def offending : Nat → Bytes → List Nat → Option Nat
  | _, [], _ => none
  | i, b :: bs, m =>
    if b.toNat &&& (255 - m.headD 0) ≠ 0 then some i else offending (i + 1) bs (m.drop 1)

/-- The lowest of the offsets found (15 R777). -/
def lowest : List (Option Nat) → Option Nat
  | [] => none
  | none :: l => lowest l
  | some a :: l => match lowest l with | none => some a | some b => some (min a b)

/-- An offset when a fault holds. -/
def offIf (c : Bool) (o : Nat) : Option Nat := if c then some o else none

/-- Every bit of a field. -/
def all64 : Nat := 2 ^ 64 - 1

/-! ### Slot 0 (15 R574) -/

def cmdFld (h : HostCmd) (off n : Nat) : Nat := rd h.slots off n
def cmdOp (h : HostCmd) : Nat := cmdFld h 0 1
/-- Slots of the command: n_slots + 1 (15 R574). -/
def cmdCount (h : HostCmd) : Nat := cmdFld h 1 1 % 4 + 1
def cmdFlags (h : HostCmd) : Nat := cmdFld h 2 2
def cmdAux (h : HostCmd) : Nat := cmdFld h 4 4
def cmdTag (h : HostCmd) : Nat := cmdFld h 8 8
def cmdAddr0 (h : HostCmd) : Nat := cmdFld h 16 8
def cmdLen0 (h : HostCmd) : Nat := cmdFld h 24 4
def cmdAddr1 (h : HostCmd) : Nat := cmdFld h 32 8
def cmdLen1 (h : HostCmd) : Nat := cmdFld h 40 4
def cmdReport (h : HostCmd) : Nat := cmdFld h 48 8
def cmdParam (h : HostCmd) : Nat := cmdFld h 56 8
/-- The bytes the module reads at addr0: len0 of them, or a record of a fixed size; what DMA returned, padded with the
zeros an unwritten host address reads as. -/
def cmdBody (h : HostCmd) (n : Nat) : Bytes := padTo h.data n

/-- Which queue pairs carry a command (15 R575). -/
inductive QueueKind where
  | qp | aq | both | eitherAq
deriving DecidableEq, Repr

/-- What the command table gives an opcode: its queue pairs and the usable bits of slot 0 (15 R575). -/
structure CmdRow where
  queue : QueueKind
  fields : List (Nat × Nat × Nat)

/-- Slot fields a command is given, by name. -/
def fFlags (m : Nat) : Nat × Nat × Nat := (2, 2, m)
def fAux (m : Nat) : Nat × Nat × Nat := (4, 4, m)
def fAddr0 : Nat × Nat × Nat := (16, 8, all64)
def fLen0 : Nat × Nat × Nat := (24, 4, all64)
def fAddr1 : Nat × Nat × Nat := (32, 8, all64)
def fLen1 : Nat × Nat × Nat := (40, 4, all64)
def fReport : Nat × Nat × Nat := (48, 8, all64)
def fParam (m : Nat) : Nat × Nat × Nat := (56, 8, m)

/-- The command table (15 R575); REQUEST is checked with its own fields. -/
def cmdRow (op : Nat) : Option CmdRow :=
  if op = 0x01 then some ⟨.qp, []⟩
  else if op = 0x02 then some ⟨.qp, [fFlags 1, fParam all64, fAddr0, fLen0]⟩
  else if op = 0x03 then some ⟨.qp, [fAux 0x3FFF, fParam all64]⟩
  else if op = 0x04 then some ⟨.qp, [fAux 3, fParam 0xFFFFFFFF, fAddr0, fLen0, fReport]⟩
  else if op = 0x05 then some ⟨.qp, [fParam all64]⟩
  else if op = 0x06 then some ⟨.both, [fAux all64]⟩
  else if op = 0x07 then some ⟨.both, [fAux all64, fAddr0, fLen0]⟩
  else if op = 0x08 then some ⟨.both, [fAux all64]⟩
  else if op = 0x09 then some ⟨.both, [fAux all64]⟩
  else if op = 0x0A then some ⟨.both, [fAddr0, fLen0]⟩
  else if op = 0x0B then some ⟨.both, [fAux 0xFFF]⟩
  else if op = 0x20 then some ⟨.aq, [fAddr0]⟩
  else if op = 0x21 then some ⟨.aq, [fAux 0x3F]⟩
  else if op = 0x22 then some ⟨.aq, [fAddr0, fLen0, fParam 0xFFFFFF8FFF]⟩
  else if op = 0x23 then some ⟨.aq, [fParam 0xFFFFFFFF]⟩
  else if op = 0x24 then some ⟨.aq, [fAddr0, fLen0]⟩
  else if op = 0x25 then some ⟨.aq, [fAux all64]⟩
  else if op = 0x26 then some ⟨.aq, [fAddr0, fLen0]⟩
  else if op = 0x27 then some ⟨.aq, [fAux all64]⟩
  else if op = 0x28 then some ⟨.aq, [fAddr0, fLen0]⟩
  else if op = 0x29 then some ⟨.aq, [fAux all64]⟩
  else if op = 0x2A then some ⟨.aq, [fAddr0, fLen0]⟩
  else if op = 0x2B then some ⟨.aq, [fAux all64]⟩
  else if op = 0x2C then some ⟨.aq, [fAux all64, fParam 3, fAddr0]⟩
  else if op = 0x2D then some ⟨.aq, [fAddr0]⟩
  else if op = 0x2E then some ⟨.aq, [fAddr0]⟩
  else if op = 0x2F then some ⟨.aq, [fAux 0xFFF]⟩
  else if op = 0x30 then some ⟨.aq, [fAux 0x3FFF, fParam 0x0FFF03FF]⟩
  else if op = 0x31 then some ⟨.aq, [fAux 0x3FFF]⟩
  else if op = 0x32 then some ⟨.aq, [fAux 0x1FF]⟩
  else if op = 0x33 then some ⟨.eitherAq, [fAddr0, fLen0]⟩
  else if op = 0x34 then some ⟨.eitherAq, []⟩
  else none

/-- The lowest offending byte of a one-slot command's slot: a reserved bit, or slots other than one (15 R574, R777). -/
def slotFault (op : Nat) (h : HostCmd) : Option Nat :=
  match cmdRow op with
  | none => some 0
  | some r => offending 0 (padTo h.slots 64) (maskOf 64 ([(0, 1, 0xFF), (8, 8, all64)] ++ r.fields))

/-- Whether a command of an opcode may be given on a queue pair (15 R575). -/
def queueAllowed (op q : Nat) : Bool :=
  match cmdRow op with
  | none => false
  | some r =>
    match r.queue with
    | .qp => !isAdmin q
    | .aq => q == 0x4000
    | .both => q != 0x4001
    | .eitherAq => isAdmin q

/-! ### REQUEST (15 R576) -/

/-- Usable bits of a REQUEST's three slots (15 R574, R576; 06 R197; 08 R298; 07 R262). -/
def requestMask : List Nat :=
  maskOf 192 [(0, 1, 0xFF), (1, 1, 3), (2, 2, 7), (8, 8, all64), fAddr0, fLen0, fAddr1, fLen1, fReport,
    (64, 1, 0x3F), (65, 1, 3), (66, 1, 7), (67, 1, 3), (68, 2, 0xFFFF), (70, 2, 0xFFFF), (72, 2, 0xFFFF), (74, 1, 7),
    (76, 4, all64), (80, 4, all64), (84, 4, all64), (88, 8, all64), (96, 8, all64), (104, 8, all64),
    (112, 1, 7), (113, 1, 0x3F), (116, 2, 0xFFF), (118, 2, 0xFFF), (120, 2, 0xFFF), (122, 2, 0xFFF),
    (128, 4, all64), (132, 4, 0x1FFFF), (136, 2, 0x1FF), (144, 8, all64)]

end Sys2Proof.Machine
end

