-- ==== Sys2Proof/Machine/Flags.lean ====
section
/-! DEFINITION. The four sticky numeric flags (03 R75) and how a request gathers them (05 R160, 15 R581). -/

namespace Sys2Proof.Machine

/-- Build a flag word: [0] inexact, [1] overflow, [2] invalid, [3] conv_range (03 R75). -/
def flagWord (inexact overflow invalid convRange : Bool) : BitVec 4 :=
  BitVec.ofNat 4 (b2n inexact + 2 * b2n overflow + 4 * b2n invalid + 8 * b2n convRange)

/-- The flags of many elements are the OR of the flags of each (03 R75). -/
def orFlags (l : List (BitVec 4)) : BitVec 4 := l.foldl (· ||| ·) 0

/-- OR flags into a request's numeric flags (03 R75). -/
def gatherFlags (e : Nat) (f : BitVec 4) (s : State) : State := modWork e (fun w => { w with numFlags := w.numFlags ||| f }) s

end Sys2Proof.Machine
end

