-- ==== Sys2Proof/Machine/Numeric.lean ====
section
/-! DEFINITION. Number formats and exact accumulation (03_number_formats): element formats, the long accumulator, its
placement and saturation rules, and the conversions out of it. -/

namespace Sys2Proof.Machine

/-! ### Exact dyadic numbers -/

/-- 2^n for a natural power given as an integer; 1 below 0. -/
def pow2 (n : Int) : Nat := 2 ^ n.toNat

def dyZero : Dy := ⟨0, 0⟩
def dyOfInt (z : Int) : Dy := ⟨z, 0⟩
def dyMul (a b : Dy) : Dy := ⟨a.m * b.m, a.e + b.e⟩
def dyNeg (a : Dy) : Dy := ⟨-a.m, a.e⟩
def dyAbs (a : Dy) : Dy := ⟨a.m.natAbs, a.e⟩
/-- The mantissa of a number at an exponent not above its own. -/
def dyAt (a : Dy) (e : Int) : Int := a.m * pow2 (a.e - e)
def dyAdd (a b : Dy) : Dy := let e := min a.e b.e; ⟨dyAt a e + dyAt b e, e⟩
def dySub (a b : Dy) : Dy := dyAdd a (dyNeg b)
def dyLt (a b : Dy) : Bool := let e := min a.e b.e; decide (dyAt a e < dyAt b e)
def dyLe (a b : Dy) : Bool := !dyLt b a
def dyEq (a b : Dy) : Bool := let e := min a.e b.e; dyAt a e == dyAt b e
def dySum (l : List Dy) : Dy := l.foldl dyAdd dyZero
/-- floor(log2 |a|) of a non-zero number. -/
def dyLog2 (a : Dy) : Int := (Nat.log2 a.m.natAbs : Int) + a.e

/-! ### Element formats (03 R54 to R62) -/

/-- A decoded value: sign, magnitude m·2^e (signed zeros kept), infinity or NaN. -/
inductive Fv where
  | fin (neg : Bool) (m : Nat) (e : Int)
  | inf (neg : Bool)
  | nan
deriving DecidableEq, Repr

/-- The exact value of a finite one. -/
def Fv.dy? : Fv → Option Dy
  | .fin n m e => some ⟨if n then -(m : Int) else m, e⟩
  | _ => none

/-- A value that is finite and its exact value, 0 otherwise. -/
def Fv.dy (v : Fv) : Dy := (v.dy?).getD dyZero
def Fv.isFinite (v : Fv) : Bool := (v.dy?).isSome
def Fv.isNan : Fv → Bool
  | .nan => true
  | _ => false
def Fv.ofDy (d : Dy) : Fv := .fin (decide (d.m < 0)) d.m.natAbs d.e
def Fv.neg : Fv → Fv
  | .fin n m e => .fin (!n) m e
  | .inf n => .inf (!n)
  | .nan => .nan

/-- A floating-point element encoding: exponent bits, mantissa bits, bias, and its special encodings: 0 none, 1 IEEE,
2 the E4M3 NaN alone (03 R55). -/
structure FpSpec where
  eb : Nat
  mb : Nat
  bias : Nat
  kind : Nat
deriving DecidableEq, Repr

def fp32 : FpSpec := ⟨8, 23, 127, 1⟩
def bf16 : FpSpec := ⟨8, 7, 127, 1⟩
def fp16 : FpSpec := ⟨5, 10, 15, 1⟩

/-- The element encoding of a format code (03 R54, R55). -/
def fpSpec (fmt : Nat) : Option FpSpec :=
  match fmt with
  | 0 => some fp32
  | 1 => some bf16
  | 2 => some fp16
  | 3 | 5 => some ⟨4, 3, 7, 2⟩
  | 4 | 6 => some ⟨5, 2, 15, 1⟩
  | 7 => some ⟨3, 2, 3, 0⟩
  | 8 => some ⟨2, 3, 1, 0⟩
  | 9 => some ⟨2, 1, 1, 0⟩
  | _ => none

/-- Bits of an element of a format code; 0 for an undefined code (03 R54). -/
def elemBits (fmt : Nat) : Nat :=
  match fmt with
  | 0 | 0xC => 32
  | 1 | 2 => 16
  | 3 | 4 | 5 | 6 | 0xA => 8
  | 7 | 8 => 6
  | 9 => 4
  | 0xB => 1
  | 0xD => 64
  | 0xE => 128
  | _ => 0

/-- The MX formats, which carry block scales (03 R54). -/
def isMx (fmt : Nat) : Bool := decide (5 ≤ fmt) && decide (fmt ≤ 9)

/-- Decode a floating-point element (03 R55). -/
def decodeFp (p : FpSpec) (w : Nat) : Fv :=
  let neg := w.testBit (p.eb + p.mb)
  let ex := (w >>> p.mb) % 2 ^ p.eb
  let fr := w % 2 ^ p.mb
  let emin : Int := 1 - p.bias - p.mb
  let top := 2 ^ p.eb - 1
  if p.kind = 1 ∧ ex = top then (if fr = 0 then .inf neg else .nan)
  else if p.kind = 2 ∧ ex = top ∧ fr = 2 ^ p.mb - 1 then .nan
  else if ex = 0 then .fin neg fr emin
  else .fin neg (2 ^ p.mb + fr) (emin + ex - 1)

/-- The bits of element `i` of a packed array (03 R58). -/
def rawElem (fmt : Nat) (data : Bytes) (i : Nat) : Nat :=
  match elemBits fmt with
  | 128 => rd data (16 * i) 16
  | 64 => rd data (8 * i) 8
  | 32 => rd data (4 * i) 4
  | 16 => rd data (2 * i) 2
  | 8 => rd data i 1
  | 6 => (rd data (i / 32 * 24) 24 >>> (6 * (i % 32))) % 64
  | 4 => (rd data (i / 2) 1 >>> (4 * (i % 2))) % 16
  | 1 => (rd data (i / 8) 1 >>> (i % 8)) % 2
  | _ => 0

/-- Bytes of `n` packed elements (03 R57, R58). -/
def packedLen (fmt n : Nat) : Nat := (n * elemBits fmt + 7) / 8

/-- A two's-complement number of `w` bits. -/
def toSigned (w v : Nat) : Int := if v < 2 ^ (w - 1) then v else (v : Int) - 2 ^ w

/-- Apply an E8M0 block scale (03 R56). -/
def scaleFv (c : Nat) : Fv → Fv
  | .fin n m e => if c = 0xFF then .nan else .fin n m (e + (c : Int) - 127)
  | .inf n => if c = 0xFF then .nan else .inf n
  | .nan => .nan

/-- The value of an element: its bits, its tensor's shift (INT8, or minus the fraction bits of FX) and its block scale
(03 R55 to R62); an LACC96 container whose invalid flag is set is a NaN, as its conversion is (R79, R81). -/
def elemValue (fmt : Nat) (shift : Int) (scale : Nat) (w : Nat) : Fv :=
  match fpSpec fmt with
  | some p => if isMx fmt then scaleFv scale (decodeFp p w) else decodeFp p w
  | none =>
    if fmt = 0xA then let z := toSigned 8 w; .fin (decide (z < 0)) z.natAbs shift
    else if fmt = 0xB then .fin (w == 1) 1 0
    else if fmt = 0xC then let z := toSigned 32 w; .fin (decide (z < 0)) z.natAbs shift
    else if fmt = 0xD then let z := toSigned 64 w; .fin (decide (z < 0)) z.natAbs shift
    else if fmt = 0xE then
      let z := toSigned 96 (w % 2 ^ 96)
      if w.testBit 114 then .nan else .fin (decide (z < 0)) z.natAbs (toSigned 11 (w >>> 96 % 2 ^ 11) - 48)
    else .nan

/-- The values of a vector whose scales, if any, follow the elements (07 R228): element `i` uses scale byte `i / 32`. -/
def vecValues (fmt n : Nat) (data : Bytes) : List Fv :=
  (List.range n).map fun i => elemValue fmt 0 (rd data (packedLen fmt n + i / 32) 1) (rawElem fmt data i)

/-- Bytes of a vector with its scales (07 R228, without padding). -/
def vecBytes (fmt n : Nat) : Nat := packedLen fmt n + (if isMx fmt then n / 32 else 0)

/-! ### Block exponents and the automatic reference (03 R69) -/

/-- Cut a list into runs of 32. -/
def blocks32 {α : Type} : Nat → List α → List (List α)
  | 0, _ => []
  | n + 1, l => if l.isEmpty then [] else l.take 32 :: blocks32 n (l.drop 32)

/-- The largest of some integers, none when there are none. -/
def maxInt : List Int → Option Int
  | [] => none
  | x :: l => some (match maxInt l with | none => x | some y => max x y)

/-- The block exponent of floating-point elements: the largest exponent of the finite non-zero ones (03 R69). -/
def blockExpFp (l : List Fv) : Option Int :=
  maxInt (l.filterMap fun v => match v.dy? with | some d => if d.m = 0 then none else some (dyLog2 d) | none => none)

/-- The block exponents of a vector with its scales behind it (03 R69). -/
def vecExps (fmt n : Nat) (data : Bytes) : List (Option Int) :=
  if isMx fmt then
    (List.range (n / 32)).map fun b =>
      let c := rd data (packedLen fmt n + b) 1
      if c = 0xFF then none else some ((c : Int) - 127)
  else if fmt = 3 ∨ fmt = 4 then (List.range ((n + 31) / 32)).map fun _ => some 0
  else (blocks32 n (vecValues fmt n data)).map blockExpFp

/-- r from the scale sums of the block pairs that take part: the largest plus 2, 0 when none does (03 R69). -/
def refOf (sums : List Int) : Int := match maxInt sums with | some x => x + 2 | none => 0

/-- The scale sums of paired blocks (03 R69). -/
def pairSums (a b : List (Option Int)) : List Int :=
  (a.zip b).filterMap fun p => match p with | (some x, some y) => some (x + y) | _ => none

/-- r for a sum of values each entering as its product with 1 (03 R69: the block of the ones has exponent 0). -/
def refOnes (l : List Fv) : Int := refOf ((blocks32 l.length l).filterMap blockExpFp)

/-! ### The long accumulator (03 R67 to R74) -/

/-- Place a product in units of 2^(r - 48): saturated at the top, truncated toward zero at the bottom (03 R71). -/
def placeProduct (r : Int) (d : Dy) : Int × BitVec 4 :=
  let q := d.e - (r - 48)
  let mag := d.m.natAbs
  let units := if 0 ≤ q then mag * 2 ^ q.toNat else mag / 2 ^ (-q).toNat
  let sg : Int := if d.m < 0 then -1 else 1
  if 2 ^ 95 ≤ units then (sg * (2 ^ 95 - 1), flagWord false true false false)
  else (sg * units, flagWord (decide (q < 0) && mag % 2 ^ (-q).toNat != 0) false false false)

/-- Saturate an exact sum to the register's range (03 R67, R72). -/
def saturateAcc (z : Int) : Int × BitVec 4 :=
  if 2 ^ 95 ≤ z then (2 ^ 95 - 1, flagWord false true false false)
  else if z < -(2 ^ 95) then (-(2 ^ 95), flagWord false true false false)
  else (z, 0)

/-- The exact sum of placed products before saturation, with their flags (03 R71, R72). -/
def accumRaw (r : Int) (l : List Dy) : Int × BitVec 4 :=
  l.foldl (fun a d => let p := placeProduct r d; (a.1 + p.1, a.2 ||| p.2)) (0, 0)

/-- The accumulator value of products at a reference exponent, in units of 2^(r - 48), and its flags (03 R71, R72). -/
def accumulate (r : Int) (l : List Dy) : Int × BitVec 4 :=
  let a := accumRaw r l
  let z := saturateAcc a.1
  (z.1, a.2 ||| z.2)

/-- The value of an accumulator (03 R67). -/
def accDy (r z : Int) : Dy := ⟨z, r - 48⟩

/-- An LACC96 container (03 R81). -/
def laccBytes (r z : Int) (flags : BitVec 4) : Bytes :=
  leBytes 12 (z % 2 ^ 96).toNat ++ leBytes 2 (r % 2 ^ 11).toNat ++ leBytes 1 flags.toNat ++ leBytes 1 0

/-- Read an LACC96 container: r, value, flags (03 R81). -/
def laccOf (b : Bytes) : Int × Int × BitVec 4 :=
  (toSigned 11 (rd b 12 2 % 2 ^ 11), toSigned 96 (rd b 0 12), BitVec.ofNat 4 (rd b 14 1))

/-- The exact sum of values in the long accumulator at r of R69, as a Dy and flags; a non-finite value sets invalid
(03 R69 to R74). -/
def sumExact (l : List Fv) : Option Dy × BitVec 4 :=
  if l.all Fv.isFinite then
    let r := refOnes l
    let a := accumulate r (l.map Fv.dy)
    (some (accDy r a.1), a.2)
  else (none, (accumRaw (refOnes l) ((l.filter Fv.isFinite).map Fv.dy)).2 ||| flagWord false false true false)

/-! ### Rounding and output conversion (03 R77 to R80) -/

/-- Round q·2^k, plus a tiny part when `sticky`, to `p` significant bits on a grid not finer than 2^emin, to nearest with
ties to even: the rounded integer and its exponent.  With `sticky` the grid must lie above 2^k. -/
def rnPos (p : Nat) (emin : Int) (q : Nat) (k : Int) (sticky : Bool) : Nat × Int :=
  let qe := max ((Nat.log2 q : Int) + k - (p - 1)) emin
  if qe ≤ k then (q * pow2 (k - qe), qe)
  else
    let sh := (qe - k).toNat
    let f := q / 2 ^ sh
    let rem := q % 2 ^ sh
    let half := 2 ^ (sh - 1)
    let up := decide (half < rem) || (decide (rem = half) && (sticky || f % 2 == 1))
    (f + b2n up, qe)

/-- The bits of a value m·2^e on a format's grid, with whether it left the finite range; out of range it is the infinity,
or the largest finite value when `sat` (03 R77). -/
def encodeFp (p : FpSpec) (sat neg : Bool) (m : Nat) (e : Int) : Nat × Bool :=
  let emin : Int := 1 - p.bias - p.mb
  let sgn := b2n neg * 2 ^ (p.eb + p.mb)
  let (m, e) := if m = 2 ^ (p.mb + 1) then (2 ^ p.mb, e + 1) else (m, e)
  if m < 2 ^ p.mb then (sgn + m, false)
  else
    let ex := (e - emin + 1).toNat
    if 2 ^ p.eb - 1 ≤ ex then
      (sgn + (if sat then (2 ^ p.eb - 2) * 2 ^ p.mb + (2 ^ p.mb - 1) else (2 ^ p.eb - 1) * 2 ^ p.mb), true)
    else (sgn + ex * 2 ^ p.mb + (m - 2 ^ p.mb), false)

/-- Round a magnitude q·2^k to an IEEE format and encode it (03 R77). -/
def roundEnc (p : FpSpec) (sat neg : Bool) (q : Nat) (k : Int) (sticky : Bool) : Nat × Bool :=
  if q = 0 then (b2n neg * 2 ^ (p.eb + p.mb), false)
  else
    let r := rnPos (p.mb + 1) (1 - p.bias - p.mb) q k sticky
    encodeFp p sat neg r.1 r.2

/-- RN32 of an exact dyadic value, as bits (05, RN32). -/
def rn32Bits (d : Dy) : Nat := (roundEnc fp32 false (decide (d.m < 0)) d.m.natAbs d.e false).1

/-- RN32 of an exact dyadic value (03 R77). -/
def rn32 (d : Dy) : Fv := decodeFp fp32 (rn32Bits d)

/-- RN32 of a quotient of positive naturals with a sign and a power of two: (num / den)·2^k. -/
def rn32Ratio (neg : Bool) (num den : Nat) (k : Int) : Fv :=
  if num = 0 then .fin neg 0 0
  else
    let sh := Nat.log2 den + 64
    let q := num * 2 ^ sh / den
    let st := num * 2 ^ sh % den != 0
    decodeFp fp32 (roundEnc fp32 false neg (2 * q + b2n st) (k - sh - 1) false).1

/-- RN32 of a quotient of two finite values, the second not zero. -/
def rn32Div (a b : Dy) : Fv :=
  rn32Ratio (decide (a.m < 0) != decide (b.m < 0)) a.m.natAbs b.m.natAbs (a.e - b.e)

/-- Round a quotient of naturals, times a power of two, to FP64: to nearest, ties to even (IEEE 754 binary64). -/
def rn64Ratio (num den : Nat) (k : Int) : Dy :=
  let sh := Nat.log2 den + 128
  let q := 2 * (num * 2 ^ sh / den) + b2n (num * 2 ^ sh % den != 0)
  let r := rnPos 53 (-1074) q (k - sh - 1) false
  ⟨r.1, r.2⟩

/-- Round a non-negative exact value to FP64. -/
def rn64 (d : Dy) : Dy := rn64Ratio d.m.natAbs 1 d.e

/-- FP32 bits of a value; the canonical NaN for NaN (03 R79). -/
def f32Bits : Fv → Nat
  | .fin n m e => (roundEnc fp32 false n m e false).1
  | .inf n => (if n then 0xFF800000 else 0x7F800000)
  | .nan => 0x7FC00000

/-- The value of FP32 bits. -/
def f32Val (w : Nat) : Fv := decodeFp fp32 w

/-- Convert one value to FP32, BF16 or FP16: bits and whether it left the finite range (03 R77, R79). -/
def convScalar (fmt : Nat) (sat : Bool) (v : Fv) : Nat × BitVec 4 :=
  let p := (fpSpec fmt).getD fp32
  match v with
  | .fin n m e => let r := roundEnc p sat n m e false; (r.1, flagWord false false false r.2)
  | .inf n =>
    let sgn := b2n n * 2 ^ (p.eb + p.mb)
    (sgn + (if sat then (2 ^ p.eb - 2) * 2 ^ p.mb + (2 ^ p.mb - 1) else (2 ^ p.eb - 1) * 2 ^ p.mb),
      flagWord false false false true)
  | .nan => ((2 ^ p.eb - 1) * 2 ^ p.mb + 2 ^ (p.mb - 1), flagWord false false false false)

/-- The largest unbiased element exponent of an MX format (03 R78 step 1). -/
def mxEmax (fmt : Nat) : Int :=
  match fmt with
  | 5 => 8
  | 6 => 15
  | 7 => 4
  | _ => 2

/-- The bits, without sign, of an MX format's largest finite value (03 R55). -/
def mxMaxBits (fmt : Nat) : Nat :=
  match fmt with
  | 5 => 0x7E
  | 6 => 0x7B
  | 7 => 0x1F
  | 8 => 0x1F
  | _ => 0x7

/-- Encode a magnitude on an MX element's grid, clamped to the largest finite value (03 R78 step 3): bits, clamped. -/
def mxElem (fmt : Nat) (neg : Bool) (q : Nat) (k : Int) : Nat × Bool :=
  let p := (fpSpec fmt).getD fp32
  let sgn := b2n neg * 2 ^ (p.eb + p.mb)
  if q = 0 then (sgn, false)
  else
    let emin : Int := 1 - p.bias - p.mb
    let r := rnPos (p.mb + 1) emin q k false
    let mx := decodeFp { p with kind := 0 } (mxMaxBits fmt)
    if dyLt mx.dy ⟨r.1, r.2⟩ then (sgn + mxMaxBits fmt, true)
    else
      let (m, e) := if r.1 = 2 ^ (p.mb + 1) then (2 ^ p.mb, r.2 + 1) else r
      if m < 2 ^ p.mb then (sgn + m, false) else (sgn + (e - emin + 1).toNat * 2 ^ p.mb + (m - 2 ^ p.mb), false)

/-- Convert one block of at most 32 values to an MX format: element bits, scale byte, flags (03 R78, R79).  A block that R79
makes NaN sets no conv_range, whatever its other elements are: the spec does not say (DESIGN CHOICE, log entry 28). -/
def mxBlock (fmt : Nat) (l : List Fv) : List Nat × Nat × BitVec 4 :=
  if decide (7 ≤ fmt) && l.any Fv.isNan then (l.map fun _ => 0, 0xFF, 0)
  else
    let top := maxInt (l.filterMap fun v =>
      match v.dy? with | some d => if d.m = 0 then none else some (dyLog2 d) | none => none)
    let sc : Int := match top with | none => 0 | some t => max (-127) (min 127 (t - mxEmax fmt))
    let one (v : Fv) : Nat × Bool :=
      match v with
      | .fin n m e => mxElem fmt n m (e - sc)
      | .inf n => (b2n n * 2 ^ (elemBits fmt - 1) + mxMaxBits fmt, true)
      | .nan => (0x7F, false)
    let r := l.map one
    (r.map Prod.fst, (sc + 127).toNat, flagWord false false false (r.any Prod.snd))

/-- Pack element bits into bytes (03 R58). -/
def packBits (w : Nat) (l : List Nat) : Bytes :=
  leBytes ((w * l.length + 7) / 8) (l.foldr (fun x acc => x % 2 ^ w + acc * 2 ^ w) 0)

/-- Convert values along the block axis, in order, to a format: element bytes, scale bytes, flags (03 R77 to R80). -/
def convVector (fmt : Nat) (sat : Bool) (l : List Fv) : Bytes × Bytes × BitVec 4 :=
  if isMx fmt then
    let bs := (blocks32 l.length l).map (mxBlock fmt)
    (bs.flatMap fun b => packBits (elemBits fmt) b.1, bs.map fun b => BitVec.ofNat 8 b.2.1, orFlags (bs.map fun b => b.2.2))
  else
    let r := l.map (convScalar fmt sat)
    (r.flatMap fun x => leBytes (elemBits fmt / 8) x.1, [], orFlags (r.map Prod.snd))

/-! ### Fixed-point adds at memory (03 R85 to R88) -/

/-- Round an exact value to the nearest multiple of 2^-f, ties to even, in units of 2^-f (03 R85). -/
def roundFx (f : Nat) (d : Dy) : Int :=
  let k := d.e + f
  if 0 ≤ k then d.m * 2 ^ k.toNat
  else
    let sh := (-k).toNat
    let q := d.m.natAbs / 2 ^ sh
    let rem := d.m.natAbs % 2 ^ sh
    let half := 2 ^ (sh - 1)
    let n := q + b2n (decide (half < rem) || (decide (rem = half) && q % 2 == 1))
    if d.m < 0 then -(n : Int) else n

/-- Clamp to a `w`-bit two's-complement range; whether it was clamped (03 R86, R87). -/
def clampFx (w : Nat) (z : Int) : Int × Bool :=
  if 2 ^ (w - 1) ≤ z then (2 ^ (w - 1) - 1, true)
  else if z < -(2 ^ (w - 1)) then (-(2 ^ (w - 1)), true)
  else (z, false)

end Sys2Proof.Machine
end

