-- ==== Sys2Proof/Machine/Transc.lean ====
section
/-! DEFINITION. The elementwise functions of R165: each is computed to far more bits than FP32 in fixed point and rounded
once (assumption 17), with the special cases of R166. -/

namespace Sys2Proof.Machine

/-- Fraction bits of the fixed-point work. -/
def fxBits : Nat := 512

/-- 1 in fixed point. -/
def fxOne : Int := 2 ^ fxBits

def fxMul (a b : Int) : Int := a * b / fxOne
def fxDiv (a b : Int) : Int := a * fxOne / b

/-- A number in fixed point. -/
def fxOf (d : Dy) : Int :=
  let k := d.e + fxBits
  if 0 ≤ k then d.m * 2 ^ k.toNat else d.m / 2 ^ (-k).toNat

/-- The integer square root, bit by bit from bit `n`. -/
def isqrtFrom : Nat → Nat → Nat → Nat
  | 0, _, r => r
  | n + 1, x, r =>
    let t := r + 2 ^ n
    isqrtFrom n x (if t * t ≤ x then t else r)

/-- floor of the square root. -/
def isqrt (x : Nat) : Nat := isqrtFrom (Nat.log2 x / 2 + 1) x 0

/-- Sum of 2·y^(2k+1)/(2k+1) over k < n: ln((1 + y)/(1 - y)). -/
def atanhSum : Nat → Int → Int → Nat → Int
  | 0, _, _, _ => 0
  | n + 1, p, y2, k => 2 * p / (2 * (k : Int) + 1) + atanhSum n (fxMul p y2) y2 (k + 1)

/-- ln 2 in fixed point, from y = 1/3. -/
def fxLn2 : Int := atanhSum 170 (fxOne / 3) (fxMul (fxOne / 3) (fxOne / 3)) 0

/-- Sum of (-1)^k y^(2k+1)/(2k+1) over k < n: atan y. -/
def atanSum : Nat → Int → Int → Nat → Int
  | 0, _, _, _ => 0
  | n + 1, p, y2, k => p / (2 * (k : Int) + 1) - atanSum n (fxMul p y2) y2 (k + 1)

def fxAtanInv (n : Int) : Int := atanSum 120 (fxOne / n) (fxMul (fxOne / n) (fxOne / n)) 0

/-- pi in fixed point (Machin). -/
def fxPi : Int := 16 * fxAtanInv 5 - 4 * fxAtanInv 239

/-- Sum of x^k/k! from the term given. -/
def expSum : Nat → Int → Int → Nat → Int
  | 0, _, _, _ => 0
  | n + 1, t, x, k => t + expSum n (fxMul t x / (k + 1)) x (k + 1)

/-- e^x as a fixed-point number in [1, 2) and a power of two, for x in fixed point. -/
def fxExp (x : Int) : Int × Int :=
  let n := x / fxLn2
  (expSum 110 fxOne (x - n * fxLn2) 0, n)

/-- ln of a positive exact number, in fixed point. -/
def fxLn (d : Dy) : Int :=
  let e := dyLog2 d
  let m := fxOf ⟨d.m, d.e - e⟩
  let (m, e) := if 3 * fxOne < 2 * m then (m / 2, e + 1) else (m, e)
  let y := fxDiv (m - fxOne) (m + fxOne)
  atanhSum 170 y (fxMul y y) 0 + e * fxLn2

/-- Alternating sum t - t·y/((k+1)(k+2)) + ...: the sine and cosine series. -/
def trigSum : Nat → Int → Int → Nat → Int
  | 0, _, _, _ => 0
  | n + 1, t, y, k => t - trigSum n (fxMul t y / ((k + 1) * (k + 2))) y (k + 2)

/-- sin and cos of an exact number with exponent below 2^129, in fixed point. -/
def fxSinCos (d : Dy) : Int × Int :=
  let x := fxOf d
  let q := x / (fxPi / 2)
  let r := x - q * fxPi / 2
  let s := trigSum 60 r (fxMul r r) 1
  let c := trigSum 60 fxOne (fxMul r r) 0
  match (q % 4).toNat with
  | 0 => (s, c)
  | 1 => (c, -s)
  | 2 => (-s, -c)
  | _ => (-c, s)

/-- RN32 of a fixed-point number times 2^k. -/
def rn32Fx (x k : Int) : Fv := rn32 ⟨x, k - fxBits⟩

/-- RN32(e^x). -/
def exp32 (d : Dy) : Fv :=
  if d.m = 0 then .fin false 1 0
  else if dyLt ⟨89, 0⟩ d then .inf false
  else if dyLt d ⟨-110, 0⟩ then .fin false 0 0
  else let r := fxExp (fxOf d); rn32Fx r.1 r.2

/-- RN32(ln x) of a positive x. -/
def ln32 (d : Dy) : Fv := if dyEq d ⟨1, 0⟩ then .fin false 0 0 else rn32Fx (fxLn d) 0

/-- RN32(√x) of a positive x: exact or with its sticky bit. -/
def sqrt32 (d : Dy) : Fv :=
  let sh : Nat := 2 * 64 + (if d.e % 2 = 0 then 0 else 1)
  let v := d.m.natAbs * 2 ^ sh
  let f := isqrt v
  rn32 ⟨2 * (f : Int) + b2n (f * f != v), (d.e - (sh : Int)) / 2 - 1⟩

/-- RN32(1/√x) of a positive x. -/
def rsqrt32 (d : Dy) : Fv :=
  let (m, e) := if d.e % 2 = 0 then (d.m.natAbs, d.e) else (2 * d.m.natAbs, d.e - 1)
  let k := Nat.log2 m / 2 + 66
  let f := isqrt (2 ^ (2 * k) / m)
  rn32 ⟨2 * (f : Int) + b2n (f * f * m != 2 ^ (2 * k)), -(e / 2) - k - 1⟩

/-- e^x - 1 and e^x + 1 in one fixed-point scale, for |x| below 200. -/
def fxExpPair (x : Int) : Int × Int :=
  let r := fxExp x
  if 0 ≤ r.2 then (r.1 * 2 ^ r.2.toNat, fxOne) else (r.1, fxOne * 2 ^ (-r.2).toNat)

/-- RN32 of a ratio of integers, the second positive. -/
def rn32IntRatio (a b : Int) (k : Int) : Fv := rn32Ratio (decide (a < 0)) a.natAbs b.natAbs k

/-- RN32(tanh x). -/
def tanh32 (d : Dy) : Fv :=
  if d.m = 0 then .fin false 0 0
  else if dyLt ⟨20, 0⟩ (dyAbs d) then .fin (decide (d.m < 0)) 1 0
  else if dyLog2 d < -100 then rn32 d
  else let p := fxExpPair (2 * fxOf d); rn32IntRatio (p.1 - p.2) (p.1 + p.2) 0

/-- RN32(1/(1 + e^-x)). -/
def sigmoid32 (d : Dy) : Fv :=
  if dyLt ⟨120, 0⟩ d then .fin false 1 0
  else if dyLt d ⟨-120, 0⟩ then .fin false 0 0
  else let p := fxExpPair (fxOf d); rn32IntRatio p.1 (p.1 + p.2) 0

/-- RN32(x/(1 + e^-x)). -/
def silu32 (d : Dy) : Fv :=
  if d.m = 0 then .fin false 0 0
  else if dyLt ⟨120, 0⟩ d then rn32 d
  else if dyLt d ⟨-120, 0⟩ then .fin true 0 0
  else let p := fxExpPair (fxOf d); rn32IntRatio (d.m * p.1) (p.1 + p.2) d.e

/-- Sum of x^(2k+1)/(2k+1)!! from the term given. -/
def phiSum : Nat → Int → Int → Nat → Int
  | 0, _, _, _ => 0
  | n + 1, t, x2, k => t + phiSum n (fxMul t x2 / (2 * k + 3)) x2 (k + 1)

/-- RN32(x · Φ(x)), Φ the standard normal distribution. -/
def gelu32 (d : Dy) : Fv :=
  if d.m = 0 then .fin false 0 0
  else if dyLt ⟨16, 0⟩ d then rn32 d
  else if dyLt d ⟨-16, 0⟩ then .fin true 0 0
  else
    let x := fxOf d
    let g := fxExp (-(fxMul x x) / 2)
    let dens := g.1 / 2 ^ (-g.2).toNat
    let root := (isqrt (2 * fxPi * fxOne).toNat : Int)
    let cdf := fxOne / 2 + fxMul (fxDiv dens root) (phiSum 900 x (fxMul x x) 0)
    rn32 ⟨d.m * cdf, d.e - fxBits⟩

/-- A zero of a sign. -/
def fvZero (neg : Bool) : Fv := .fin neg 0 0
def fvOne : Fv := .fin false 1 0
def invalidFlag : BitVec 4 := flagWord false false true false

/-- The sign of a value. -/
def Fv.sign : Fv → Bool
  | .fin n _ _ => n
  | .inf n => n
  | .nan => false

/-- A unary elementwise function (05 R165, R166): result and flags. -/
def ewUnary (sub : Nat) (v : Fv) : Fv × BitVec 4 :=
  match v with
  | .nan => (.nan, invalidFlag)
  | .inf n =>
    match sub with
    | 0 => (.inf n, 0)
    | 1 => (if n then fvZero false else .inf false, 0)
    | 2 => if n then (.nan, invalidFlag) else (.inf false, 0)
    | 3 => (fvZero n, 0)
    | 4 => if n then (.nan, invalidFlag) else (fvZero false, 0)
    | 5 => if n then (.nan, invalidFlag) else (.inf false, 0)
    | 6 => (if n then fvZero false else fvOne, 0)
    | 7 => (.fin n 1 0, 0)
    | 8 => (if n then fvZero true else .inf false, 0)
    | 9 => (if n then fvZero true else .inf false, 0)
    | 10 => (.inf false, 0)
    | 11 => (.inf (!n), 0)
    | 12 => (if n then fvZero false else .inf false, 0)
    | _ => (.inf false, 0)
  | .fin n m e =>
    let d : Dy := ⟨if n then -(m : Int) else m, e⟩
    let z := m == 0
    match sub with
    | 0 => (.fin n m e, 0)
    | 1 => (exp32 d, 0)
    | 2 => if z then (.inf true, invalidFlag) else if n then (.nan, invalidFlag) else (ln32 d, 0)
    | 3 => if z then (.inf n, invalidFlag) else (rn32Div ⟨1, 0⟩ d, 0)
    | 4 => if z then (.inf n, invalidFlag) else if n then (.nan, invalidFlag) else (rsqrt32 d, 0)
    | 5 => if z then (.fin n 0 0, 0) else if n then (.nan, invalidFlag) else (sqrt32 d, 0)
    | 6 => (sigmoid32 d, 0)
    | 7 => (if z then fvZero n else tanh32 d, 0)
    | 8 => (if z then fvZero n else silu32 d, 0)
    | 9 => (if z then fvZero n else gelu32 d, 0)
    | 10 => (.fin false m e, 0)
    | 11 => (.fin (!n) m e, 0)
    | 12 => (if n then fvZero false else .fin n m e, 0)
    | _ => (rn32 (dyMul d d), 0)

/-- Whether one value is below another; NaN is below nothing. -/
def fvLt : Fv → Fv → Bool
  | .nan, _ => false
  | _, .nan => false
  | .inf a, .inf b => a && !b
  | .inf a, _ => a
  | _, .inf b => !b
  | a, b => dyLt a.dy b.dy

/-- RN32 of a sum, keeping the IEEE sign of a zero sum. -/
def fvAdd (a b : Fv) : Fv × BitVec 4 :=
  match a, b with
  | .nan, _ => (.nan, invalidFlag)
  | _, .nan => (.nan, invalidFlag)
  | .inf x, .inf y => if x == y then (.inf x, 0) else (.nan, invalidFlag)
  | .inf x, _ => (.inf x, 0)
  | _, .inf y => (.inf y, 0)
  | a, b =>
    let s := dyAdd a.dy b.dy
    (if s.m = 0 then fvZero (a.sign && b.sign) else rn32 s, 0)

/-- RN32 of a product. -/
def fvMul (a b : Fv) : Fv × BitVec 4 :=
  match a, b with
  | .nan, _ => (.nan, invalidFlag)
  | _, .nan => (.nan, invalidFlag)
  | .inf x, .fin n m _ => if m = 0 then (.nan, invalidFlag) else (.inf (x != n), 0)
  | .fin n m _, .inf x => if m = 0 then (.nan, invalidFlag) else (.inf (x != n), 0)
  | .inf x, .inf y => (.inf (x != y), 0)
  | a, b =>
    let p := dyMul a.dy b.dy
    (if p.m = 0 then fvZero (a.sign != b.sign) else rn32 p, 0)

/-- RN32 of a quotient. -/
def fvDiv (a b : Fv) : Fv × BitVec 4 :=
  match a, b with
  | .nan, _ => (.nan, invalidFlag)
  | _, .nan => (.nan, invalidFlag)
  | .inf _, .inf _ => (.nan, invalidFlag)
  | .inf x, b => (.inf (x != b.sign), 0)
  | a, .inf y => (fvZero (a.sign != y), 0)
  | .fin n m e, .fin k p f =>
    if p = 0 then (if m = 0 then (.nan, invalidFlag) else (.inf (n != k), invalidFlag))
    else if m = 0 then (fvZero (n != k), 0)
    else (rn32Ratio (n != k) m p (e - f), 0)

/-- A binary elementwise function (05 R165, R166). -/
def ewBinary (sub : Nat) (a b : Fv) : Fv × BitVec 4 :=
  match sub with
  | 0 => fvAdd a b
  | 1 => fvAdd a b.neg
  | 2 => fvMul a b
  | 3 => fvDiv a b
  | 4 => if a.isNan || b.isNan then (.nan, invalidFlag) else (if fvLt a b then b else a, 0)
  | _ => if a.isNan || b.isNan then (.nan, invalidFlag) else (if fvLt b a then b else a, 0)

/-- RN32(a·b + c) with one rounding (05 R162, EW_FMA). -/
def ewFma (a b c : Fv) : Fv × BitVec 4 :=
  match a, b, c with
  | .fin n m e, .fin k p f, .fin _ _ _ =>
    let pr : Dy := dyMul (Fv.fin n m e).dy (Fv.fin k p f).dy
    let s := dyAdd pr c.dy
    (if s.m = 0 then fvZero ((n != k) && c.sign && (pr.m == 0 && c.dy.m == 0)) else rn32 s, 0)
  | _, _, _ =>
    match a, b with
    | .fin _ _ _, .fin _ _ _ => if c.isNan then (.nan, invalidFlag) else (c, 0)
    | _, _ => let p := fvMul a b; let r := fvAdd p.1 c; (r.1, p.2 ||| r.2)

/-- RN32(b^(-2i/d)) of a positive base (05 R167). -/
def ropeTheta (b : Dy) (i d : Nat) : Fv :=
  if i = 0 then fvOne
  else
    let r := fxExp (-(fxLn b * (2 * (i : Int)) / d))
    rn32Fx r.1 r.2

end Sys2Proof.Machine
end

