-- ==== Sys2Proof/Machine/Selection.lean ====
section
/-! DEFINITION. Selection (09 R308 to R322): the order of entries, exact and bucket top-k, the two exact sums, result
records, and the merge of partial lists. -/

namespace Sys2Proof.Machine

/-! ### Ordered insertion -/

/-- Insert before the first element that `x` precedes. -/
def insertBy {α : Type} (lt : α → α → Bool) (x : α) : List α → List α
  | [] => [x]
  | y :: ys => if lt x y then x :: y :: ys else y :: insertBy lt x ys

/-- Sort by a strict order; elements that do not precede each other keep their order. -/
def sortBy {α : Type} (lt : α → α → Bool) : List α → List α
  | [] => []
  | x :: xs => insertBy (fun a b => !lt b a) x (sortBy lt xs)

/-! ### Keys -/

/-- The value of a key's bits: FP32, BF16, FP16, or a 32-bit integer (09 R310). -/
def keyVal (kt bits : Nat) : Fv :=
  if kt = 3 then let z := toSigned 32 (bits % 2 ^ 32); .fin (decide (z < 0)) z.natAbs 0 else elemValue kt 0 0 bits

/-- The lowest value of a key type (09 R311). -/
def keyFiller (kt : Nat) : Nat :=
  match kt with
  | 0 => 0xFF800000
  | 1 => 0xFF80
  | 2 => 0xFC00
  | _ => 0x80000000

/-- One input entry: its index, its value's bits and value. -/
structure SelEntry where
  idx : Nat
  bits : Nat
  val : Fv
deriving DecidableEq, Repr

/-- The order of R308: larger value first, then lower index. -/
def selBefore (a b : SelEntry) : Bool := fvLt b.val a.val || (!fvLt a.val b.val && decide (a.idx < b.idx))

/-! ### Sums (09 R314, R315) -/

/-- A 96-bit accumulator value the spec does not define (03 R74): drawn from the free values `i` and `i + 1`. -/
def freeAcc (i : Nat) : Int :=
  toSigned 96 ((Config.free64 i).toNat + 2 ^ 64 * ((Config.free64 (i + 1)).toNat % 2 ^ 32))

/-- The accumulator value of a sum of values at r and its flags; with a non-finite value it is invalid and its value not
defined (03 R71 to R74). -/
def accSum (fi : Nat) (r : Int) (l : List Fv) : Int × BitVec 4 :=
  if l.all Fv.isFinite then accumulate r (l.map Fv.dy)
  else (freeAcc fi, (accumRaw r ((l.filter Fv.isFinite).map Fv.dy)).2 ||| flagWord false false true false)

/-- Free values that one selection's two sums may use. -/
def selDraws : Nat := 4

/-- The reference exponent of a selection's sums (09 R314). -/
def selRef (kt : Nat) (l : List Fv) : Int :=
  if kt = 3 then (if l.isEmpty then 0 else 32) else refOnes l

/-! ### Results -/

/-- The outcome of a selection on one row (09 R310). -/
structure SelRes where
  entries : List SelEntry
  nValid : Nat
  nNan : Nat
  r : Int
  sel : Int
  selFlags : BitVec 4
  out : Int
  outFlags : BitVec 4
deriving DecidableEq, Repr

/-- The flags of R75 a selection sets (09 R309, R310). -/
def SelRes.flags (x : SelRes) : BitVec 4 :=
  x.selFlags ||| x.outFlags ||| flagWord false false (decide (0 < x.nNan)) false

/-- The unmasked entries of a row: (masked, bits) per index (09 R309). -/
def selRow (kt : Nat) (row : List (Bool × Nat)) : List SelEntry :=
  (withPos row).filterMap fun e => if e.2.1 then none else some ⟨e.1, e.2.2, keyVal kt e.2.2⟩

/-- The result of selecting `chosen` out of the valid entries. -/
def selFinish (fi kt : Nat) (valid chosen : List SelEntry) (nNan : Nat) : SelRes :=
  let r := selRef kt (valid.map (·.val))
  let rest := valid.filter fun e => !chosen.any fun c => c.idx == e.idx
  let a := accSum fi r (chosen.map (·.val))
  let b := accSum (fi + 2) r (rest.map (·.val))
  ⟨chosen, valid.length, nNan, r, a.1, a.2, b.1, b.2⟩

/-- Exact top-k (09 R312). -/
def selectTop (fi kt k : Nat) (row : List (Bool × Nat)) : SelRes :=
  let es := selRow kt row
  let valid := es.filter fun e => !e.val.isNan
  selFinish fi kt valid ((sortBy selBefore valid).take k) (es.length - valid.length)

/-- The row of binomials C(n, 0), …, C(n, n). -/
def binoms : Nat → List Nat
  | 0 => [1]
  | n + 1 => let l := binoms n; (0 :: l).zipWith (· + ·) (l ++ [0])

/-- R(k') of R318 in FP64: each term of the sum rounded once, the terms added in increasing j, then multiplied by the rounded
B / k.  The spec fixes the order of the terms and no order within one (assumption 18). -/
def recallAt (k b kp : Nat) : Dy :=
  let terms := (withPos (binoms k)).map fun e => rn64Ratio (min e.1 kp * e.2 * (b - 1) ^ (k - e.1)) (b ^ k) 0
  rn64 (dyMul (rn64Ratio b k 0) ((terms.drop 1).foldl (fun s x => rn64 (dyAdd s x)) dyZero))

/-- R(k') reaches the target t / 65,536 (09 R318). -/
def recallOk (k b t kp : Nat) : Bool := dyLe ⟨t, -16⟩ (recallAt k b kp)

/-- The k' the module chooses (09 R318). -/
def chooseKprime (k b t : Nat) : Nat :=
  let lo := max 1 ((k + b - 1) / b)
  (((List.range (k + 1)).filter fun kp => decide (lo ≤ kp)).find? (recallOk k b t)).getD k

/-- Bucket top-k (09 R316, R317): bucket floor(i × B / n). -/
def selectBucket (fi kt k b kp : Nat) (row : List (Bool × Nat)) : SelRes :=
  let es := selRow kt row
  let valid := es.filter fun e => !e.val.isNan
  let winners := (List.range b).flatMap fun j =>
    (sortBy selBefore (valid.filter fun e => e.idx * b / row.length == j)).take kp
  selFinish fi kt valid ((sortBy selBefore winners).take k) (es.length - valid.length)

/-- A result record (09 R310, R311). -/
def selRecord (kt k kprime : Nat) (x : SelRes) : Bytes :=
  let n := x.entries.length
  leBytes 2 n ++ leBytes 2 k ++ leBytes 1 kt ++ leBytes 1 (x.flags.toNat + 16 * b2n (decide (n < k))) ++
    leBytes 2 kprime ++ leBytes 4 x.nValid ++ leBytes 4 x.nNan ++ laccBytes x.r x.sel x.selFlags ++
    laccBytes x.r x.out x.outFlags ++ zeros 16 ++
    (x.entries.flatMap fun e => leBytes 4 e.idx ++ leBytes 4 (e.bits % 2 ^ elemBits (if kt = 3 then 0 else kt))) ++
    (List.replicate (k - n) (leBytes 4 0xFFFFFFFF ++ leBytes 4 (keyFiller kt))).flatten

/-! ### Merging partial lists (09 R320 to R322) -/

/-- An entry of a partial list: item, value, source and position. -/
structure MergeEntry where
  item : Nat
  val : Fv
  src : Nat
  pos : Nat
deriving DecidableEq, Repr

/-- Better value, then lower source, then lower position (09 R320). -/
def mergeBefore (a b : MergeEntry) : Bool :=
  fvLt b.val a.val ||
    (!fvLt a.val b.val && (decide (a.src < b.src) || (a.src == b.src && decide (a.pos < b.pos))))

/-- Keep the first copy of each item. -/
def dedupItems : List Nat → List MergeEntry → List MergeEntry
  | _, [] => []
  | seen, e :: es => if seen.contains e.item then dedupItems seen es else e :: dedupItems (e.item :: seen) es

/-- The kept entries of a merge in order (09 R320 steps 1 and 2): the best copy of each item comes first in the order. -/
def mergeKept (l : List MergeEntry) : List MergeEntry := dedupItems [] (sortBy mergeBefore l)

/-- The merged sums over output entries, the kept entries beyond K, and each source's own sum_out: r, value and flags
(09 R321, R322); an invalid sum has a free value (03 R74). -/
def mergeSums (fi kt : Nat) (listed out rest : List Fv) (srcs : List (Int × Int × BitVec 4)) :
    Int × (Int × BitVec 4) × (Int × BitVec 4) :=
  let r := (srcs.map (·.1)).foldl max (selRef kt listed)
  let placed := srcs.map fun x => let p := placeProduct r (accDy x.1 x.2.1); (p.1, p.2 ||| x.2.2)
  let own := accumRaw r ((rest.filter Fv.isFinite).map Fv.dy)
  let z := saturateAcc (own.1 + (placed.map Prod.fst).sum)
  let fl := own.2 ||| z.2 ||| orFlags (placed.map Prod.snd) ||| flagWord false false (!rest.all Fv.isFinite) false
  (r, accSum fi r out, (if fl.getLsbD 2 then freeAcc (fi + 2) else z.1, fl))

/-- Merge the result records of some sources into one of `k` slots: the record and its flags (09 R310, R320 to R322). -/
def mergeRecords (fi k : Nat) (srcs : List Bytes) : Bytes × BitVec 4 :=
  let kt := rd (srcs.headD []) 4 1
  let ents := (withPos srcs).flatMap fun e => (List.range (rd e.2 0 2)).map fun i =>
    let b := rd e.2 (64 + 8 * i) 8
    (({ item := b % 2 ^ 32, val := keyVal kt (b / 2 ^ 32), src := e.1, pos := i } : MergeEntry), b / 2 ^ 32)
  let kept := mergeKept (ents.map Prod.fst)
  let total (off : Nat) : Nat := (srcs.map fun b => rd b off 4).sum
  let m := mergeSums fi kt (ents.map fun e => e.1.val) ((kept.take k).map (·.val)) ((kept.drop k).map (·.val))
    (srcs.map fun b => laccOf ((b.drop 32).take 16))
  let x : SelRes := {
    entries := (kept.take k).map fun y => ⟨y.item, ((ents.find? fun e => e.1 == y).map Prod.snd).getD 0, y.val⟩
    nValid := total 8, nNan := total 12, r := m.1, sel := m.2.1.1, selFlags := m.2.1.2, out := m.2.2.1, outFlags := m.2.2.2 }
  (selRecord kt k 0 x, x.flags)

end Sys2Proof.Machine
end

