-- ==== Sys2Proof/Machine/Index.lean ====
section
/-! DEFINITION. The structures a search reads (07_index_formats, 08_graph_walks): visibility, filters, sketches, product
codes and distance tables, centroid distances, the walk of R272, linking, exact-distance searches. -/

namespace Sys2Proof.Machine

/-! ### Bit strings -/

/-- Ones among the low `n` bits. -/
def popcount : Nat → Nat → Nat
  | 0, _ => 0
  | n + 1, v => v % 2 + popcount n (v / 2)

/-- Hamming distance over the low `w` bits (07 R231). -/
def hamming (w a b : Nat) : Nat := popcount w (a ^^^ b)

/-- Insert a number into a rising list, once. -/
def insertNum (x : Nat) : List Nat → List Nat
  | [] => [x]
  | y :: ys => if x < y then x :: y :: ys else if x = y then y :: ys else y :: insertNum x ys

/-- Cut a list into runs of `k`. -/
def chunksOf {α : Type} (k : Nat) : Nat → List α → List (List α)
  | 0, _ => []
  | n + 1, l => l.take k :: chunksOf k n (l.drop k)

/-! ### Visibility and filters (07 R247, R259, R263, R265) -/

/-- insert_epoch ≤ s < delete_epoch (07 R247). -/
def Item.visible (i : Item) (s : Nat) : Bool := decide (i.insertEpoch ≤ s) && decide (s < i.deleteEpoch)

/-- Whether an offset of a chunk is a member of its container (07 R259). -/
def Container.has (k : Container) (o : Nat) : Bool :=
  match k with
  | .array l => l.contains o
  | .bitmap b => (rd b (o / 8) 1).testBit (o % 8)
  | .run l => l.any fun r => decide (r.1 ≤ o) && decide (o ≤ r.1 + r.2)
  | .full => true

/-- Whether a local ID is a member of a filter. -/
def Filter.has (f : Filter) (n : Nat) : Bool :=
  decide (f.idBase ≤ n) &&
    (match mget f.chunks ((n - f.idBase) / 65536) with
     | some c => c.has ((n - f.idBase) % 65536)
     | none => false)

/-- Combine membership left to right (07 R263). -/
def foldTerms (has : Filter → Bool) : Bool → List Filter → List FilterOp → Bool
  | a, [], _ => a
  | a, f :: fs, op :: ops =>
    foldTerms has (match op with | .and => a && has f | .or => a || has f | .andNot => a && !has f) fs ops
  | a, f :: fs, [] => foldTerms has (a && has f) fs []

/-- Membership of the allowed set (07 R263). -/
def allowed (fs : List Filter) (ops : List FilterOp) (n : Nat) : Bool :=
  match fs with
  | [] => true
  | f :: rest => foldTerms (fun x => x.has n) (f.has n) rest ops

/-- IDs in the allowed set of a non-empty expression. -/
def allowedCount (fs : List Filter) (ops : List FilterOp) : Nat :=
  match fs with
  | [] => 0
  | f :: _ =>
    let chunks := fs.foldl (fun l x => (x.chunks.map Prod.fst).foldl (fun l k => insertNum k l) l) []
    (chunks.map fun k => ((List.range 65536).filter fun o => allowed fs ops (f.idBase + 65536 * k + o)).length).sum

/-! ### Geometry of a collection (07 R223, R228, R235, R237) -/

/-- Bytes of a stored vector without padding (07 R228). -/
def CollDesc.vecLen (d : CollDesc) : Nat := vecBytes d.vecFmt d.dim

/-- slot_bytes of R235. -/
def slotBytes (sketch inline deg : Nat) : Nat :=
  roundUp (roundUp (16 + sketch / 8 + 5 * deg) 16 + deg * (inline / 8)) 64

/-- npp of R235. -/
def CollDesc.npp (d : CollDesc) : Nat := (4096 - 64) / slotBytes d.sketchBits d.inlineBits d.degree

/-- The page of a local ID (07 R237). -/
def Collection.pageNo (c : Collection) (n : Nat) : Nat := (n - c.desc.idBase) / c.desc.npp

/-- The channel, and engine, that owns a node (07 R237). -/
def Collection.engineOf (c : Collection) (n : Nat) : Nat := (c.cmap[c.pageNo n % 64]?).getD 0

/-! ### Vectors, sketches (07 R229, R230) -/

/-- The values of a stored or submitted vector. -/
def CollDesc.values (d : CollDesc) (b : Bytes) : List Fv := vecValues d.vecFmt d.dim b

/-- The block exponents of exact values (03 R69). -/
def dyExps (l : List Dy) : List (Option Int) := (blocks32 l.length (l.map Fv.ofDy)).map blockExpFp

/-- The exact long-accumulator sum of products at the automatic reference (03 R69, R71, R72): value in units of
2^(r - 48), r, flags. -/
def accDot (a b : List Dy) (ea eb : List (Option Int)) : Int × Int × BitVec 4 :=
  let r := refOf (pairSums ea eb)
  let x := accumulate r ((a.zip b).map fun p => dyMul p.1 p.2)
  (x.1, r, x.2)

/-- A vector under the metric (07 R230): normalised for cosine, unless it is a zero query. -/
def normalise (metric : Nat) (x : List Dy) (ex : List (Option Int)) : List Dy × List (Option Int) × BitVec 4 :=
  if metric = 1 then
    let a := accDot x x ex ex
    match rn32 (accDy a.2.1 a.1) with
    | .fin n m e =>
      if m = 0 then (x, ex, a.2.2 ||| invalidFlag)
      else
        let k := (rsqrt32 (Fv.fin n m e).dy).dy
        let y := x.map fun v => (rn32 (dyMul v k)).dy
        (y, dyExps y, a.2.2)
    | _ => (x.map fun _ => dyZero, x.map fun _ => none, a.2.2)
  else (x, ex, 0)

/-- BF16 bits as exact values. -/
def bf16Dys (l : List Nat) : List Dy := l.map fun w => (decodeFp bf16 w).dy

/-- The sketch of a vector and the flags of its sums (07 R229). -/
def sketchOf (c : Collection) (x : List Dy) (ex : List (Option Int)) : Nat × BitVec 4 :=
  let rows := chunksOf c.desc.dim c.desc.sketchBits c.rotation
  rows.foldr (fun row acc =>
    let d := bf16Dys row
    let a := accDot d x (dyExps d) ex
    (b2n (decide (a.1 < 0)) + 2 * acc.1, a.2.2 ||| acc.2)) (0, 0)

/-! ### Distances, codes and tables (07 R232 to R234, R244) -/

/-- Sum of values of which some may be infinite; none for a sum of both infinities. -/
def fvSum (l : List Fv) : Option Fv :=
  let pos := l.any fun v => v == .inf false
  let neg := l.any fun v => v == .inf true
  if l.any Fv.isNan || (pos && neg) then none
  else if pos then some (.inf false)
  else if neg then some (.inf true)
  else some (rn32 (dySum (l.map Fv.dy)))

/-- Squared Euclidean distance with RN32 differences, rounded once; an infinite difference makes it infinite. -/
def l2Rn (a b : List Dy) : Fv :=
  (fvSum ((a.zip b).map fun p =>
    match rn32 (dySub p.1 p.2) with
    | .fin _ m e => Fv.ofDy ⟨(m : Int) * m, e + e⟩
    | _ => .inf false)).getD (.inf false)

/-- The negated exact dot product, rounded once. -/
def negDot (a b : List Dy) : Fv := rn32 (dyNeg (dySum ((a.zip b).map fun p => dyMul p.1 p.2)))

/-- The exact distance under the metric, rounded once (07 R244, 08 R299). -/
def distanceTo (metric : Nat) (x y : List Dy) : Fv :=
  if metric = 2 then rn32 (dySum ((x.zip y).map fun p => let d := dySub p.1 p.2; dyMul d d)) else negDot x y

/-- The codewords of subspace m (07 R223). -/
def codebook (c : Collection) (m : Nat) : List (List Dy) :=
  let sub := c.desc.dim / c.desc.pqM
  (chunksOf sub 256 (c.codebooks.drop (256 * m * sub))).map bf16Dys

/-- The first position of the least value, over values that are never NaN. -/
def argMinFrom : Nat → Nat → Fv → List Fv → Nat
  | _, best, _, [] => best
  | i, best, v, x :: xs => if fvLt x v then argMinFrom (i + 1) i x xs else argMinFrom (i + 1) best v xs

def argMin (l : List Fv) : Nat := match l with | [] => 0 | x :: xs => argMinFrom 1 0 x xs

/-- The product code of a stored vector (07 R232). -/
def pqCode (c : Collection) (x : List Dy) : Bytes :=
  let sub := c.desc.dim / c.desc.pqM
  (withPos (chunksOf sub c.desc.pqM x)).map fun e =>
    BitVec.ofNat 8 (argMin ((codebook c e.1).map fun w => l2Rn e.2 w))

/-- v - lo, none when both are infinite. -/
def fvDiff (v lo : Fv) : Option Fv :=
  match v, lo with
  | .inf a, .inf b => if a == b then none else some (.inf a)
  | .inf a, _ => some (.inf a)
  | _, .inf b => some (.inf (!b))
  | a, b => some (Fv.ofDy (dySub a.dy b.dy))

/-- RN32 of a value. -/
def fvRn : Fv → Fv
  | .fin n m e => if m = 0 then .fin n 0 0 else rn32 (Fv.fin n m e).dy
  | v => v

/-- One entry of a distance table; an entry whose formula the spec gives no value is free (assumption 3). -/
def pqEntry (m k : Nat) (delta lo v : Fv) : Nat :=
  let open_ := (Config.open32 m k).toNat % 65536
  match fvDiff v lo, delta with
  | none, _ => open_
  | some (.fin _ p e), .fin _ q f =>
    if p = 0 then 0
    else match rn32Ratio false p q (e - f) with
      | .fin _ a b => min 65535 (roundFx 0 ⟨a, b⟩).toNat
      | _ => 65535
  | some (.fin _ _ _), _ => 0
  | some _, .fin _ _ _ => 65535
  | some _, _ => open_

/-- The distance table of a query (07 R233, R234). -/
def pqTable (c : Collection) (q : List Dy) : PqTable :=
  let sub := c.desc.dim / c.desc.pqM
  let raw := (withPos (chunksOf sub c.desc.pqM q)).map fun e =>
    (codebook c e.1).map fun w => if c.desc.metric = 2 then l2Rn e.2 w else negDot e.2 w
  let los := raw.map fun r => (r[argMin r]?).getD (.fin false 0 0)
  let ws := (raw.zip los).flatMap fun x => x.1.filterMap fun v => (fvDiff v x.2).map fvRn
  let w := ws.foldl (fun a b => if fvLt a b then b else a) (.fin false 0 0)
  let delta : Fv := match w with
    | .fin _ p e => if p = 0 then .fin false 0 0 else rn32Ratio false p 65535 e
    | v => v
  let zero := match delta with | .fin _ p _ => p == 0 | _ => false
  { delta := BitVec.ofNat 32 (f32Bits delta)
    base := match fvSum los with | some b => BitVec.ofNat 32 (f32Bits b) | none => Config.open32 128 0
    rows := (withPos (raw.zip los)).map fun e =>
      (withPos e.2.1).map fun v => if zero then 0 else pqEntry e.1 v.1 delta e.2.2 v.2 }

/-- A distance table as bytes (07 R233). -/
def PqTable.bytes (t : PqTable) (pqM metric : Nat) : Bytes :=
  leBytes 4 t.delta.toNat ++ leBytes 4 t.base.toNat ++ leBytes 1 pqM ++ leBytes 1 metric ++ zeros 54 ++
    t.rows.flatMap fun r => r.flatMap (leBytes 2)

/-- Read a distance table (07 R233). -/
def pqTableOf (b : Bytes) : PqTable :=
  { delta := BitVec.ofNat 32 (rd b 0 4), base := BitVec.ofNat 32 (rd b 4 4)
    rows := (List.range (rd b 8 1)).map fun m => (List.range 256).map fun k => rd b (64 + 512 * m + 2 * k) 2 }

/-- P = PQ_SCORE of a code (05 R173, 09 R323). -/
def pqScore (t : PqTable) (code : Bytes) : Nat :=
  ((t.rows.zip code).map fun e => (e.1[e.2.toNat]?).getD 0).sum

/-- d = RN32(base + delta × P), rounded once from the exact value (09 R324); free where it has none. -/
def pqDist (t : PqTable) (p : Nat) : BitVec 32 :=
  match f32Val t.base.toNat, f32Val t.delta.toNat with
  | .fin n m e, .fin k a b =>
    BitVec.ofNat 32 (rn32Bits (dyAdd (Fv.fin n m e).dy (dyMul (Fv.fin k a b).dy ⟨p, 0⟩)))
  | .inf n, .fin _ _ _ => BitVec.ofNat 32 (f32Bits (.inf n))
  | .fin _ _ _, .inf n => if p = 0 then Config.open32 129 p else BitVec.ofNat 32 (f32Bits (.inf n))
  | _, _ => Config.open32 129 p

/-- The stored vector of an item as exact values. -/
def Collection.itemDys (c : Collection) (i : Item) : List Dy := (c.desc.values i.vec).map Fv.dy

/-- Centroid numbers with the distance of a vector to each, nearest first, lower number on equal distance (08 R266,
R267; 07 R244). -/
def rankCentroids (c : Collection) (x : List Dy) : List (Fv × Nat) :=
  sortBy (fun a b => fvLt a.1 b.1 || (!fvLt b.1 a.1 && decide (a.2 < b.2)))
    ((withPos c.centroids).map fun e => (distanceTo c.desc.metric x (bf16Dys e.2), e.1))

/-- The nearest centroid (07 R244). -/
def nearestCentroid (c : Collection) (x : List Dy) : Nat := ((rankCentroids c x).head?.map Prod.snd).getD 0

/-- Of the members of a centroid that satisfy a test, the one nearest it, the lower ID on equal distance (07 R245). -/
def nearestMember (c : Collection) (cent : Nat) (ok : Nat → Item → Bool) : Option Nat :=
  let y := bf16Dys ((c.centroids[cent]?).getD [])
  let l := (mgetD c.members cent []).filterMap fun n =>
    match mget c.items n with
    | some i => if ok n i then some (distanceTo c.desc.metric (c.itemDys i) y, n) else none
    | none => none
  ((sortBy (fun a b => fvLt a.1 b.1 || (!fvLt b.1 a.1 && decide (a.2 < b.2))) l).head?).map Prod.snd

/-- The entry table of an epoch (07 R245). -/
def entryTable (c : Collection) (epoch : Nat) : List (Nat × Nat) :=
  (List.range c.centroids.length).filterMap fun k =>
    (nearestMember c k fun _ i => i.visible epoch).map fun n => (k, n)

/-! ### Walks (08 R269 to R275) -/

/-- Order of R270. -/
def candBefore (d1 n1 d2 n2 : Nat) : Bool := decide (d1 < d2) || (decide (d1 = d2) && decide (n1 < n2))

/-- q_insert of R272. -/
def qInsert (qlen : Nat) (q : List QEntry) (x : QEntry) : List QEntry :=
  let before (a b : QEntry) := candBefore a.dist a.id b.dist b.id
  if q.length < qlen then insertBy before x q
  else match q.getLast? with
    | some l => if before x l then insertBy before x q.dropLast else q
    | none => q

/-- The three bits of a node in the visited filter (08 R271). -/
def vfBits (n : Nat) : List Nat :=
  [0x9E3779B97F4A7C15, 0xC2B2AE3D27D4EB4F, 0x165667B19E3779F9].map fun k => (n * k % 2 ^ 64) >>> 50

def vfTest (v : List Nat) (n : Nat) : Bool := (vfBits n).all v.contains
def vfSet (v : List Nat) (n : Nat) : List Nat := (vfBits n).foldl (fun l b => insertNum b l) v

/-- The part of a walk that a hop changes. -/
structure HopState where
  queue : List QEntry
  visited : List Nat
  dBest : Option Nat
  offers : List Cand := []
  improved : Bool := false
  bad : Nat := 0

/-- Score one neighbour (the inner loop of R272); `dist` gives its Hamming distance. -/
def scoreNbr (d : CollDesc) (qlen entryId : Nat) (h : HopState) (n dist : Nat) : HopState :=
  if n < d.idBase ∨ d.idBase + d.idSpan ≤ n then { h with bad := h.bad + 1 }
  else if vfTest h.visited n then h
  else
    let best := match h.dBest with | none => true | some b => decide (dist < b)
    { h with
      visited := vfSet h.visited n
      queue := qInsert qlen h.queue ⟨n, dist, n == entryId⟩
      offers := h.offers ++ [⟨n, dist⟩]
      dBest := if best then some dist else h.dBest
      improved := h.improved || best }

/-- How a hop ends: the walk ends with a reason of R277, or goes on at a node. -/
inductive HopEnd where
  | ended (reason : Nat)
  | next (node : Nat)
deriving DecidableEq, Repr

/-- Mark the first unexpanded entry expanded and name it (08 R272). -/
def takeFirst : List QEntry → Option (Nat × List QEntry)
  | [] => none
  | e :: es =>
    if e.expanded then (takeFirst es).map fun r => (r.1, e :: r.2) else some (e.id, { e with expanded := true } :: es)

/-- One iteration of the loop of R272 after the kill test, on the node a walk is to expand: the walk, the entries offered,
how it ends.  `nbrs` are the neighbours with their distances; empty and `bad` 1 when the page cannot be read. -/
def hopOnce (d : CollDesc) (w : Walk) (readable : Bool) (nbrs : List (Nat × Nat)) : Walk × List Cand × HopEnd :=
  let h0 : HopState := { queue := w.queue, visited := w.visited, dBest := w.dBest, bad := b2n (!readable) }
  let h := if readable then nbrs.foldl (fun h e => scoreNbr d w.qlen w.entryId h e.1 e.2) h0 else h0
  let w1 := { w with
    hops := w.hops + 1, stall := if h.improved then 0 else w.stall + 1, dBest := h.dBest, queue := h.queue
    visited := h.visited, offered := w.offered + h.offers.length, bad := w.bad + h.bad }
  if w1.hops = w.hopBudget then (w1, h.offers, .ended 0)
  else if w1.stall = w.stallHops then (w1, h.offers, .ended 1)
  else match takeFirst h.queue with
    | none => (w1, h.offers, .ended 2)
    | some (n, q) => ({ w1 with queue := q, next := n }, h.offers, .next n)

/-- The neighbours of a node with their distances from a query sketch over the inline bits (07 R231, R239). -/
def slotNbrs (c : Collection) (qs n : Nat) : List (Nat × Nat) :=
  match mget c.nodes n with
  | some s => s.nbrs.map fun e => (e.1, hamming c.desc.inlineBits qs e.2)
  | none => []

/-- Whether a node's slot can be read: its page can, or the node has been rebuilt on it (08 R275, R302). -/
def Collection.nodeReadable (c : Collection) (n : Nat) : Bool :=
  let p := c.pageNo n
  !c.badPages.contains p || ((mget c.nodes n).isSome && !c.rebuild.contains n && c.rebuild.any fun k => c.pageNo k == p)

/-! ### Linking (07 R240, R241) -/

/-- The full sketch of a node; 0 for one not written. -/
def nodeSketch (c : Collection) (n : Nat) : Nat := ((mget c.nodes n).map (·.sketch)).getD 0

/-- Run the linking walk to its end: every node scored with its distance.  It has no budget (assumption 19); each hop
expands a node not expanded before, so the number of nodes is fuel enough. -/
def linkWalk (c : Collection) (sk : Nat) : Nat → Walk → List Cand → List Cand
  | 0, _, acc => acc
  | fuel + 1, w, acc =>
    let readable := c.nodeReadable w.next
    let nbrs := match mget c.nodes w.next with
      | some s => s.nbrs.map fun e => (e.1, hamming c.desc.sketchBits sk (nodeSketch c e.1))
      | none => []
    match hopOnce c.desc w readable nbrs with
    | (w1, offers, .next _) => linkWalk c sk fuel w1 (acc ++ offers)
    | (_, offers, .ended _) => acc ++ offers

/-- The order of neighbours of a node with a sketch (07 R240). -/
def nbrOrder (c : Collection) (sk : Nat) (l : List Nat) : List Nat :=
  (sortBy (fun a b => candBefore a.1 a.2 b.1 b.2) (l.map fun n => (hamming c.desc.sketchBits sk (nodeSketch c n), n))).map
    Prod.snd

/-- A slot's list of neighbours with their inline sketches (07 R239). -/
def withInline (c : Collection) (l : List Nat) : List (Nat × Nat) :=
  l.map fun n => (n, nodeSketch c n % 2 ^ c.desc.inlineBits)

/-- Add a node to a neighbour's list: to a free entry, or instead of a farther last one (07 R241 step 3). -/
def addBack (c : Collection) (n m : Nat) : Collection :=
  match mget c.nodes m with
  | none => c
  | some s =>
    let ids := s.nbrs.map Prod.fst
    let w := c.desc.sketchBits
    let nd := hamming w s.sketch (nodeSketch c n)
    let ids' :=
      if ids.length < c.desc.degree then ids ++ [n]
      else match ids.getLast? with
        | some l => if nd < hamming w s.sketch (nodeSketch c l) then ids.dropLast ++ [n] else ids
        | none => ids
    { c with nodes := mset c.nodes m { s with nbrs := withInline c (nbrOrder c s.sketch ids') } }

/-- Link a new node, whose sketch is given, into the graph (07 R241). -/
def linkNode (c : Collection) (n sk cent : Nat) : Collection :=
  if c.desc.degree = 0 then c
  else
    let start := match ((mgetD c.entryTables c.epoch []).find? fun e => e.1 == cent) with
      | some e => some e.2
      | none => nearestMember c cent fun k _ => k != n && mhas c.nodes k
    let found : List Nat := match start with
      | none => []
      | some st =>
        let w : Walk := { entry := 0, shard := false, tag := 0, num := 0, coll := 0, widened := false,
                          qlen := c.desc.ingestQueue, hopBudget := 0, stallHops := c.nodes.length + 2, entryId := st, next := st,
                          engine := 0 }
        let scored := (linkWalk c sk (c.nodes.length + 1) w []).map (·.id)
        (nbrOrder c sk (if scored.contains st then scored else st :: scored)).take c.desc.degree
    let c1 := { c with nodes := mset c.nodes n { sketch := sk, nbrs := [] } }
    let c2 := { c1 with nodes := mset c1.nodes n { sketch := sk, nbrs := withInline c1 found } }
    found.foldl (fun c m => addBack c n m) c2

/-! ### Exact-distance searches (08 R299, R300) -/

/-- The members of some centroids that pass a test, with exact distances, nearest first, lower ID on equal distance. -/
def exactMembers (c : Collection) (x : List Dy) (cents : List Nat) (ok : Nat → Item → Bool) : List (Fv × Nat) :=
  sortBy (fun a b => fvLt a.1 b.1 || (!fvLt b.1 a.1 && decide (a.2 < b.2)))
    ((cents.flatMap fun k => mgetD c.members k []).filterMap fun n =>
      match mget c.items n with
      | some i => if ok n i then some (distanceTo c.desc.metric x (c.itemDys i), n) else none
      | none => none)

/-- The L nearest centroids (08 R299 step 2). -/
def nearestCents (c : Collection) (x : List Dy) (l : Nat) : List Nat := ((rankCentroids c x).take l).map Prod.snd

end Sys2Proof.Machine
end

