-- ==== Sys2Proof/Machine/Frames.lean ====
section
/-! DEFINITION. The byte-plane format of compressed data: frames, planes, blocks, the choice of a block's encoding, and
reading a frame back (12 R452 to R456). -/

namespace Sys2Proof.Machine

/-- Byte p of each word of w bytes (12 R453). -/
def planeOf (w p : Nat) (b : Bytes) : List Nat := (List.range (b.length / w)).map fun i => rd b (w * i + p) 1

/-- The blocks of a plane of n entries: their lengths (12 R453). -/
def blockLens (n : Nat) : List Nat := List.replicate (n / 256) 256 ++ (if n % 256 = 0 then [] else [n % 256])

/-- Cut a list into pieces of given lengths. -/
def cutBy {α : Type} : List Nat → List α → List (List α)
  | [], _ => []
  | n :: ns, l => l.take n :: cutBy ns (l.drop n)

/-- Entries of a block at or above 2^K, with their positions. -/
def exceptions (k : Nat) (b : List Nat) : List (Nat × Nat) := (List.range b.length).zip b |>.filter fun e => decide (2 ^ k ≤ e.2)

/-- The cost of a candidate encoding, none when it is not allowed (12 R455). -/
def blockCost (b : List Nat) (c : Nat × Bool) : Option Nat :=
  let e := (exceptions c.1 b).length
  let packed := (b.length * c.1 + 7) / 8
  if c.2 then (if c.1 ≤ 7 ∧ 1 ≤ e ∧ e ≤ 255 then some (2 + 2 * e + packed) else none)
  else if e = 0 then some (1 + packed) else none

/-- Candidates in the order that breaks ties: smaller K first, then the one without exceptions (12 R455). -/
def blockCands : List (Nat × Bool) := (List.range 9).flatMap fun k => [(k, false), (k, true)]

/-- The encoding of a block: least cost, the first candidate on a tie (12 R455). -/
def blockChoice (b : List Nat) : Nat × Bool :=
  (blockCands.foldl (fun (best : Option (Nat × (Nat × Bool))) c =>
    match blockCost b c, best with
    | some n, some x => if n < x.1 then some (n, c) else best
    | some n, none => some (n, c)
    | none, _ => best) none).elim (8, false) Prod.snd

/-- The packed fields of a block: exceptions hold 0 (12 R454). -/
def packedFields (k : Nat) (b : List Nat) : Bytes :=
  leBytes ((b.length * k + 7) / 8) (b.foldr (fun v acc => (if 2 ^ k ≤ v then 0 else v) + acc * 2 ^ k) 0)

/-- One block (12 R454). -/
def encodeBlock (b : List Nat) : Bytes :=
  let c := blockChoice b
  let ex := exceptions c.1 b
  leBytes 1 (c.1 + 16 * b2n c.2) ++
    (if c.2 then leBytes 1 ex.length ++ ex.flatMap fun e => leBytes 1 e.1 ++ leBytes 1 e.2 else []) ++ packedFields c.1 b

/-- Bytes of a word by the width code (12 R452). -/
def wordBytes (width : Nat) : Nat := 2 ^ (width % 4)

/-- Compress at most 16 KiB into one frame (12 R452 to R455). -/
def encodeFrame (width : Nat) (b : Bytes) : Bytes :=
  let w := wordBytes width
  let body := (List.range w).flatMap fun p => (cutBy (blockLens (b.length / w)) (planeOf w p b)).flatMap encodeBlock
  leBytes 4 b.length ++ leBytes 1 (width % 4) ++ zeros 3 ++ leBytes 4 (16 + body.length) ++ zeros 4 ++ body

/-- Compress data, frame by frame of 16 KiB (12, The byte-plane format). -/
def compress (width : Nat) (b : Bytes) : Bytes :=
  (chunksOf 16384 ((b.length + 16383) / 16384) b).flatMap (encodeFrame width)

/-- Positions rise strictly. -/
def risingNums : List Nat → Bool
  | a :: b :: l => decide (a < b) && risingNums (b :: l)
  | _ => true

/-- Read one block of n entries: its entries and what follows it, none when it breaks R454. -/
def decodeBlock (n : Nat) (b : Bytes) : Option (List Nat × Bytes) :=
  let h := rd b 0 1
  let k := h % 16
  let x := h.testBit 4
  let e := if x then rd b 1 1 else 0
  let pre := if x then 2 + 2 * e else 1
  let len := (n * k + 7) / 8
  let ex := (List.range e).map fun i => (rd b (2 + 2 * i) 1, rd b (3 + 2 * i) 1)
  let z := rd b pre len
  let fields := (List.range n).map fun j => z / 2 ^ (k * j) % 2 ^ k
  if b.isEmpty || decide (8 < k) || decide (31 < h) || (x && (decide (7 < k) || e == 0)) || decide (b.length < pre + len) ||
      !risingNums (ex.map Prod.fst) || ex.any (fun p => decide (n ≤ p.1) || (fields[p.1]?).getD 0 != 0) then none
  else some ((List.range n).zip fields |>.map fun f => ((ex.find? fun p => p.1 == f.1).map Prod.snd).getD f.2, b.drop (pre + len))

/-- Read blocks of given lengths one after another. -/
def decodeBlocks : List Nat → Bytes → Option (List Nat × Bytes)
  | [], b => some ([], b)
  | n :: ns, b =>
    match decodeBlock n b with
    | none => none
    | some x => (decodeBlocks ns x.2).map fun y => (x.1 ++ y.1, y.2)

/-- Read one frame: its data and what follows it, none when it is malformed (12 R456). -/
def decodeFrame (b : Bytes) : Option (Bytes × Bytes) :=
  let raw := rd b 0 4
  let width := rd b 4 1
  let comp := rd b 8 4
  let w := wordBytes width
  let n := raw / w
  if b.length < 16 ∨ raw = 0 ∨ 16384 < raw ∨ raw % w ≠ 0 ∨ 3 < width ∨ rd b 5 3 ≠ 0 ∨ rd b 12 4 ≠ 0 ∨ comp < 16 ∨ b.length < comp then
    none
  else match decodeBlocks ((List.replicate w (blockLens n)).flatten) ((b.take comp).drop 16) with
    | some (l, []) => some ((List.range n).flatMap fun i => (List.range w).map fun p => BitVec.ofNat 8 ((l[p * n + i]?).getD 0), b.drop comp)
    | _ => none

/-- Read frames up to the end of the data (12 R456). -/
def decompressN : Nat → Bytes → Option Bytes
  | 0, b => if b.isEmpty then some [] else none
  | n + 1, b =>
    if b.isEmpty then some []
    else match decodeFrame b with
      | none => none
      | some x => (decompressN n x.2).map fun y => x.1 ++ y

def decompress (b : Bytes) : Option Bytes := decompressN b.length b

end Sys2Proof.Machine
end

