-- ==== Sys2Proof/Machine/Records.lean ====
section
/-! DEFINITION. The records of a collection as bytes (07_index_formats): stored vectors, item records, text blobs, centroid
lists, node slots and node pages, and where each of them lies. -/

namespace Sys2Proof.Machine

/-! ### Items (07 R228, R242 to R244) -/

/-- The stored vector as a record: zero bytes pad it to a multiple of 16 (07 R228). -/
def vectorRecord (v : Bytes) : Bytes := padTo v (roundUp v.length 16)

/-- The text blob of a passage: its header, then the token words in the byte-plane format (07 R243; 12 R452); zero bytes pad
it to a whole number of 16-byte units. -/
def blobOf (tokens : List Nat) : Bytes :=
  let z := compress 2 (tokens.flatMap (leBytes 4))
  let b := leBytes 4 tokens.length ++ leBytes 4 z.length ++ zeros 8 ++ z
  padTo b (roundUp b.length 16)

/-- The token IDs of a blob, none when its header or its words break R243 (09 R339). -/
def blobTokens (textMax : Nat) (b : Bytes) : Option (List Nat) :=
  let n := rd b 0 4
  let z := rd b 4 4
  if n = 0 ∨ textMax < n ∨ rd b 8 8 ≠ 0 ∨ b.length ≠ roundUp (16 + z) 16 then none
  else match decompress ((b.drop 16).take z) with
    | some w =>
      let ids := (List.range n).map fun i => rd w (4 * i) 4
      if w.length = 4 * n ∧ ids.all (fun t => decide (t < 2 ^ 20)) then some ids else none
    | none => none

/-- The item record of 16 + M bytes (07 R242). -/
def Item.record (i : Item) : Bytes :=
  leBytes 4 i.insertEpoch ++ leBytes 4 i.deleteEpoch ++ leBytes 8 (i.textAt % 2 ^ 40 + 2 ^ 40 * (i.blob.length / 16 % 2 ^ 15)) ++
    i.code

/-- Where the records of a local ID lie in the collection's item region and in its vectors (07 R242, R228). -/
def Collection.recordAt (c : Collection) (n : Nat) : Nat := (n - c.desc.idBase) * (16 + c.desc.pqM)
def Collection.vectorAt (c : Collection) (n : Nat) : Nat := (n - c.desc.idBase) * roundUp c.desc.vecLen 16

/-- A centroid's list of members as 8-byte entries (07 R244). -/
def Collection.centroidList (c : Collection) (k : Nat) : Bytes := (mgetD c.members k []).flatMap fun n => leBytes 8 (n % 2 ^ 40)

/-! ### Node pages (07 R237 to R239) -/

/-- The slot of a node in its page (07 R237). -/
def Collection.slotOf (c : Collection) (n : Nat) : Nat := (n - c.desc.idBase) % c.desc.npp

/-- The logical page, of the collection's graph region on its channel, that a page number names (07 R237). -/
def Collection.regionPage (_c : Collection) (p : Nat) : Nat := p / 64

/-- slot_bytes of a collection (07 R235). -/
def CollDesc.slotLen (d : CollDesc) : Nat := slotBytes d.sketchBits d.inlineBits d.degree

/-- The 64-byte header of a node page (07 R238). -/
def Collection.pageHeader (id : Nat) (c : Collection) (p : Nat) : Bytes :=
  leBytes 4 0x4745444E ++ leBytes 4 id ++ leBytes 8 ((c.desc.idBase + p * c.desc.npp) % 2 ^ 40) ++ leBytes 1 c.desc.npp ++
    leBytes 1 (c.desc.slotLen / 64) ++ zeros 2 ++ leBytes 4 (mgetD c.pageEpochs p 0) ++ zeros 40

/-- The bytes of a node slot (07 R239); of a node that has not been written, zeros. -/
def Collection.slotBytesOf (c : Collection) (n : Nat) : Bytes :=
  let d := c.desc
  padTo (match mget c.nodes n with
    | none => []
    | some x =>
      leBytes 1 1 ++ leBytes 1 x.nbrs.length ++ zeros 14 ++ leBytes (d.sketchBits / 8) x.sketch ++
        padTo (x.nbrs.flatMap fun e => leBytes 5 e.1) (roundUp (16 + d.sketchBits / 8 + 5 * d.degree) 16 - 16 - d.sketchBits / 8) ++
        x.nbrs.flatMap fun e => leBytes (d.inlineBits / 8) e.2) d.slotLen

/-- A 4 KiB page of a collection's graph: its header and its slots (07 R235, R238, R239). -/
def Collection.nodePage (id : Nat) (c : Collection) (p : Nat) : Bytes :=
  padTo (c.pageHeader id p ++ (List.range c.desc.npp).flatMap fun k => c.slotBytesOf (c.desc.idBase + p * c.desc.npp + k)) 4096

/-- The pages whose slots a session of epoch e has written, from `c` to `d`, carry its epoch (07 R238). -/
def stampPages (e : Nat) (c d : Collection) : Collection :=
  { d with pageEpochs := d.nodes.foldl (fun m x => if mget c.nodes x.1 = some x.2 then m else mset m (d.pageNo x.1) e) d.pageEpochs }

end Sys2Proof.Machine
end

