-- ==== Sys2Proof/Machine/Rs.lean ====
section
/-! DEFINITION. Reed-Solomon codes: the code of a Brixjo line over GF(2^16) (12 R439, R442) and the short-reach FEC of a fabric
link over GF(2^10) (16 R590).  Each has the root α = x of its field's polynomial and the roots α^0, α^1, … of its generator. -/

namespace Sys2Proof.Machine

/-- A code: bits of a symbol, the field's polynomial, check symbols, symbols of a codeword. -/
structure RsCode where
  bits : Nat
  poly : Nat
  check : Nat
  len : Nat
deriving DecidableEq, Repr

/-- The code of a Brixjo line (12 R439). -/
def lineCode : RsCode := ⟨16, 0x1100B, 6, 38⟩

/-- RS(272,257) of the Evdozin short-reach FEC (16 R590). -/
def linkCode : RsCode := ⟨10, 0x409, 15, 272⟩

/-! ### The field -/

/-- One doubling step modulo the field's polynomial. -/
def gfDouble (c : RsCode) (a : Nat) : Nat := let b := 2 * a; if 2 ^ c.bits ≤ b then b ^^^ c.poly else b

/-- a times the low n bits of b, from a already doubled. -/
def gfMulBits (c : RsCode) : Nat → Nat → Nat → Nat → Nat
  | 0, _, _, acc => acc
  | n + 1, a, b, acc => gfMulBits c n (gfDouble c a) (b / 2) (if b % 2 = 1 then acc ^^^ a else acc)

def gfMul (c : RsCode) (a b : Nat) : Nat := gfMulBits c c.bits a b 0

def gfPow (c : RsCode) (a : Nat) : Nat → Nat
  | 0 => 1
  | n + 1 => gfMul c a (gfPow c a n)

/-- The square repeated: a^(2^n). -/
def gfSq (c : RsCode) (a : Nat) : Nat → Nat
  | 0 => a
  | n + 1 => gfSq c (gfMul c a a) n

/-- The inverse, a^(2^bits - 2): the product of a^2, a^4, and so on. -/
def gfInv (c : RsCode) (a : Nat) : Nat := ((List.range (c.bits - 1)).map fun i => gfSq c a (i + 1)).foldl (gfMul c) 1

/-! ### Encoding -/

/-- Multiply a polynomial, lowest coefficient first, by (x - r). -/
def polyTimes (c : RsCode) (r : Nat) (p : List Nat) : List Nat :=
  List.zipWith (· ^^^ ·) (0 :: p) (p.map (gfMul c r) ++ [0])

/-- The generator g(x), lowest coefficient first. -/
def rsGen (c : RsCode) : List Nat := (List.range c.check).foldl (fun p i => polyTimes c (gfPow c 2 i) p) [1]

/-- One data symbol enters the remainder, which stands highest power first; `taps` are the generator's lower coefficients. -/
def rsShift (c : RsCode) (taps rem : List Nat) (d : Nat) : List Nat :=
  List.zipWith (· ^^^ ·) (rem.drop 1 ++ [0]) (taps.map (gfMul c (d ^^^ rem.headD 0)))

/-- The check symbols of data symbols, both highest power first: the remainder of x^check·D(x) modulo g(x). -/
def rsCheck (c : RsCode) (data : List Nat) : List Nat :=
  data.foldl (rsShift c ((rsGen c).take c.check).reverse) (List.replicate c.check 0)

/-! ### Decoding -/

/-- The power of x at which a symbol of the codeword stands. -/
def symbolPower (c : RsCode) (n : Nat) : Nat := c.len - 1 - n

/-- The syndromes of errors, by symbol. -/
def rsSyndromes (c : RsCode) (e : Map Nat) : List Nat :=
  (List.range c.check).map fun i =>
    (e.map fun x => gfMul c x.2 (gfPow c (gfPow c 2 i) (symbolPower c x.1))).foldl (· ^^^ ·) 0

/-- The syndromes of a word received, symbols highest power first. -/
def wordSyndromes (c : RsCode) (w : List Nat) : List Nat :=
  (List.range c.check).map fun i => let r := gfPow c 2 i; w.foldl (fun acc d => gfMul c r acc ^^^ d) 0

/-- Berlekamp and Massey over the syndromes: locator, previous locator, length, shift, previous discrepancy. -/
def rsLocator (c : RsCode) : List Nat → List Nat → List Nat → List Nat → Nat → Nat → Nat → List Nat × Nat
  | _, [], p, _, l, _, _ => (p, l)
  | past, s :: rest, p, b, l, m, bd =>
    let d := ((p.drop 1).take l).zip past |>.foldl (fun a q => a ^^^ gfMul c q.1 q.2) s
    let sh := List.replicate m 0 ++ b.map (gfMul c (gfMul c d (gfInv c bd)))
    let n := max p.length sh.length
    let p2 := List.zipWith (· ^^^ ·) (p ++ List.replicate (n - p.length) 0) (sh ++ List.replicate (n - sh.length) 0)
    if d = 0 then rsLocator c (s :: past) rest p b l (m + 1) bd
    else if 2 * l ≤ past.length then rsLocator c (s :: past) rest p2 p (past.length + 1 - l) 1 d
    else rsLocator c (s :: past) rest p2 b l (m + 1) bd

/-- A polynomial's value. -/
def polyEval (c : RsCode) (p : List Nat) (x : Nat) : Nat := p.foldr (fun k acc => k ^^^ gfMul c x acc) 0

/-- The errors of some syndromes, in at most half as many symbols as there are check symbols, none when there are more
(12 R442, 16 R590). -/
def rsCorrect (c : RsCode) (syn : List Nat) : Option (Map Nat) :=
  if syn.all (· == 0) then some []
  else
    let cl := rsLocator c [] syn [1] [1] 0 1 1
    let lc := cl.1
    let l := cl.2
    let pos := (List.range c.len).filter fun n => polyEval c lc (gfInv c (gfPow c 2 (symbolPower c n))) == 0
    if c.check / 2 < l ∨ pos.length ≠ l then none
    else
      let omega := (List.range c.check).map fun i =>
        (List.range (i + 1)).foldl (fun a j => a ^^^ gfMul c ((lc[j]?).getD 0) ((syn[i - j]?).getD 0)) 0
      let deriv := (List.range lc.length).map fun i => if i % 2 = 0 then (lc[i + 1]?).getD 0 else 0
      let fix := pos.map fun n =>
        let x := gfPow c 2 (symbolPower c n)
        let xi := gfInv c x
        (n, gfMul c x (gfMul c (polyEval c omega xi) (gfInv c (polyEval c deriv xi))))
      let e : Map Nat := fix.foldl (fun m p => mset m p.1 p.2) []
      if rsSyndromes c e = syn then some e else none

end Sys2Proof.Machine
end

