-- ==== Sys2Proof/Machine/Ecc.lean ====
section
/-! DEFINITION. The protection of a Brixjo line: its Reed-Solomon and meta codes, the stream layout, what a read decodes to,
and what a corrected or uncorrectable read does (12 R437 to R444, R451). -/

namespace Sys2Proof.Machine

/-! ### The line's code (12 R439 to R441) -/

/-- The data symbols of a line. -/
def dataSymbols (b : Bytes) : List Nat := (List.range 32).map fun i => rd b (2 * i) 2

/-- Check symbols C0 to C5. -/
def lineCheck (b : Bytes) : List Nat := rsCheck lineCode (dataSymbols b)

/-- The remainder of x^10·m(x) modulo h(x) over 21 bits, highest first. -/
def metaRem : Nat → Nat → Nat → Nat
  | 0, _, r => r
  | n + 1, m, r =>
    let r2 := 2 * r + 0
    let top := (r / 512) % 2 ^^^ (m / 2 ^ n) % 2
    metaRem n m ((if top = 1 then r2 ^^^ 0x369 else r2) % 1024)

/-- mcheck of the 21 low bits of the meta word (12 R440). -/
def metaCheck (m : Nat) : Nat := metaRem 21 (m % 2 ^ 21) 0

/-- Parity of n bits. -/
def parityOf : Nat → Nat → Nat
  | 0, _ => 0
  | n + 1, v => v % 2 ^^^ parityOf n (v / 2)

/-- The meta word of a tag, poison bit and key generation (12 R438). -/
def metaWord (tag : Nat) (poison : Bool) (keygen : Nat) : Nat :=
  let m := tag % 65536 + 65536 * b2n poison + 131072 * (keygen % 16)
  let w := m + 2 ^ 21 * metaCheck m
  w + 2 ^ 31 * parityOf 31 w

/-- Where a stream bit lies: a bit of the meta word, or a symbol of the code word with its bit (12 R441). -/
def streamBit (b : Nat) : Sum Nat (Nat × Nat) :=
  if b % 20 = 19 then .inl (b / 20) else let k := 19 * (b / 20) + b % 20; .inr (k / 16, k % 16)

/-! ### Decoding (12 R442) -/

/-- Errors of the symbols, by symbol. -/
def symbolErrors (bits : List Nat) : Map Nat :=
  bits.foldl (fun m b => match streamBit b with
    | .inr (k, i) => mmod m k 0 fun v => v ^^^ 2 ^ i
    | .inl _ => m) []

/-- Error bits of the meta word. -/
def metaErrors (bits : List Nat) : Nat :=
  bits.foldl (fun v b => match streamBit b with | .inl j => v ^^^ 2 ^ j | .inr _ => v) 0

/-- The syndrome of a meta-word error: the BCH remainder and the parity of its 32 bits (12 R440, R438). -/
def metaSyndrome (e : Nat) : Nat :=
  let low := e % 2 ^ 21
  (metaCheck low ^^^ (e / 2 ^ 21) % 1024) + 1024 * parityOf 32 e

/-- The correction of at most two meta bits for a syndrome (12 R440). -/
def metaCorrect (syn : Nat) : Option Nat :=
  if syn = 0 then some 0
  else
    let single := (List.range 32).map fun i => 2 ^ i
    let pairs := (List.range 32).flatMap fun i => (List.range i).map fun j => 2 ^ i ^^^ 2 ^ j
    (single ++ pairs).find? fun e => metaSyndrome e == syn

/-- What a read of a line with corrupted stream bits decodes to (12 R442). -/
inductive Decoded where
  | clean
  /-- corrected: the symbols and the meta bits that a miscorrection leaves wrong -/
  | corrected (symbolsWrong : Map Nat) (metaWrong : Nat)
  | uncorrectable
deriving DecidableEq, Repr

/-- Decode a line by the bits corrupted since it was written. -/
def decodeLine (bits : List Nat) : Decoded :=
  let e := symbolErrors bits
  let m := metaErrors bits
  let syn := rsSyndromes lineCode e
  let ms := metaSyndrome m
  if syn.all (· == 0) && ms == 0 then .clean
  else match rsCorrect lineCode syn, metaCorrect ms with
    | some f, some g =>
      .corrected ((List.range 38).filterMap fun n =>
        let d := mgetD e n 0 ^^^ mgetD f n 0
        if d = 0 then none else some (n, d)) (m ^^^ g)
    | _, _ => .uncorrectable

/-! ### What a read does (12 R442, R443, R451) -/

/-- Whether a stack is in service (12 R478, 17 R645). -/
def stackServes (s : State) (n : Nat) : Bool := (stackOf s n).ok && !(stackOf s n).retired

/-- The stack of a line: granules of 4 KiB are striped across the 20 stacks (12 R434); those of stacks not in service go to
the stacks in service in turn, in granule order (17 R645). -/
def lineStack (s : State) (l : Nat) : Nat :=
  let g := l / 64
  let up := (List.range 20).filter (stackServes s)
  if stackServes s (g % 20) || up.isEmpty then g % 20
  else
    let before := g / 20 * (20 - up.length) + ((List.range (g % 20)).filter fun k => !stackServes s k).length
    (up[before % up.length]?).getD 0

/-- Where the home pages of a stack lie: on it, or on the next stack in service, modulo 20 (17 R645). -/
def servingStack (s : State) (n : Nat) : Nat :=
  (((List.range 20).map fun k => (n + k) % 20).find? (stackServes s)).getD (n % 20)

/-! ### Encryption (12 R445, R448, R449) -/

/-- The address of a line within its stack (12 R434): its granule among those that fall to the stack, displaced granules after
all others (17 R645), a line of a spared row in the spare row.  The spec numbers no address (DESIGN CHOICE, log entry 58). -/
def lineAddr (s : State) (l : Nat) : Nat :=
  let n := lineStack s l
  let g := l / 64
  let base := if n = g % 20 then g / 20 * 64 + l % 64 else 2 ^ 33 + g * 64 + l % 64
  match mget (stackOf s n).spareOf (Config.dramRow l) with
  | some k => 2 ^ 36 + 4096 * k + base % 4096
  | none => base

/-- The tweak of a line: bits [4:0] the stack number, bits [41:5] its address within the stack (12 R445). -/
def lineTweak (s : State) (l : Nat) : Nat := lineStack s l + 32 * (lineAddr s l % 2 ^ 37)

/-- Whose key pair a line is under: its account's for kind 0, else the module's (12 R445). -/
def keyOwner (x : Line) : Nat := if x.kind = 0 then x.owner else 4096

/-- Which of an owner's key pairs is in use (18 R678). -/
def keySetOf (s : State) (o : Nat) : Nat := mgetD s.sec.keySets o 0

/-- The 64 bytes a line holds: enciphered, but for a lent line, which is stored as received (12 R437, R445, R469). -/
def lineCipher (x : Line) : Bytes :=
  if x.kind = 3 then x.data else Config.lineEncrypt (keyOwner x) x.keySet x.place x.data

/-- What some 64 bytes of a line at an address decipher to now: its data, when they are the line's own under the key pair and
the tweak they were enciphered under. -/
def linePlain (s : State) (l : Nat) (x : Line) : Bytes :=
  if x.kind = 3 ∨ (x.keySet = keySetOf s (keyOwner x) ∧ x.place = lineTweak s l) then x.data
  else Config.lineDecrypt (keyOwner x) (keySetOf s (keyOwner x)) (lineTweak s l) (lineCipher x)

/-- What a permitted read of a line returns: zeros of a free line, and of an account's line whose key generation is not the
account's (12 R447, R448). -/
def lineData (s : State) (l : Nat) (x : Line) : Bytes :=
  if x.kind = 0xF ∨ (x.kind = 0 ∧ x.keygen ≠ mgetD s.sched.keygen x.owner 0 % 16) then zeros 64 else linePlain s l x

/-- A line as the logic die writes it at an address: enciphered under the key pair in use and the address's tweak, then encoded
(12 R445, R448, R449). -/
def sealLine (s : State) (l : Nat) (x : Line) : Line :=
  if x.kind = 3 then x
  else { x with keySet := keySetOf s (keyOwner x), place := lineTweak s l
                keygen := if x.kind = 0 then mgetD s.sched.keygen x.owner 0 % 16 else 0 }

/-- The 80 bytes of a line: cipher text, check symbols over it, meta word (12 R437 to R440, R449). -/
def lineBytes (x : Line) : Bytes :=
  lineCipher x ++ (lineCheck (lineCipher x)).flatMap (leBytes 2) ++ leBytes 4 (metaWord (x.owner % 4096 + 4096 * x.kind) x.poison x.keygen)

/-- The stream of 640 bits in which a stack keeps a line (12 R441), with those a fault has corrupted. -/
def lineStream (x : Line) : List Bool :=
  let b := lineBytes x
  (List.range 640).map fun k => (match streamBit k with
    | .inl j => (rd b 76 4).testBit j
    | .inr (n, i) => (rd b (2 * n) 2).testBit i) != x.errBits.contains k

/-- The lines, whose addresses have changed from one state to another, deciphered and enciphered again under their new tweak
(12 R449). -/
def moveLines (s0 s : State) : State :=
  modMem (fun m => { m with lines := m.lines.map fun e =>
    if e.2.kind = 3 ∨ lineTweak s0 e.1 = lineTweak s e.1 then e
    else (e.1, { e.2 with data := linePlain s0 e.1 e.2, keySet := keySetOf s (keyOwner e.2), place := lineTweak s e.1 }) }) s

/-- A day in ns. -/
def dayNs : Nat := 86400000000000

/-- Set degraded once: the event is recorded when a die's spare rows run out (12 R451). -/
def degradeStack (n : Nat) (s : State) : State :=
  if (stackOf s n).degraded then s
  else recordEvent 1 8 0x0203 (5 + 256 * n) [] (modStack n (fun k => { k with degraded := true }) s)

/-- A corrected error on a row: at the threshold within a day the row is spared (12 R451). -/
def noteRowError (n row : Nat) (s : State) : State :=
  let k := stackOf s n
  let l := (mgetD k.rowErrs row []).filter (fun t => decide (now s < t + dayNs)) ++ [now s]
  if l.length < s.mem.spareThresh then modStack n (fun x => { x with rowErrs := mset x.rowErrs row l }) s
  else if k.spares = 0 then degradeStack n (modStack n (fun x => { x with rowErrs := mset x.rowErrs row l }) s)
  else
    let s1 := recordEvent 0 8 0x0202 (5 + 256 * n) [row] (moveLines s (modStack n (fun x => { x with
      rowErrs := merase x.rowErrs row, rowsSpared := x.rowsSpared + 1, spares := x.spares - 1
      spareOf := mset x.spareOf row x.rowsSpared }) s))
    whenS (k.spares == 1) (degradeStack n) s1

/-- Apply meta bits a miscorrection left wrong. -/
def metaApply (m : Nat) (l : Line) : Line :=
  let tag := (l.owner % 4096 + 4096 * (l.kind % 16)) ^^^ m % 65536
  { l with owner := tag % 4096, kind := tag / 4096, poison := l.poison != m.testBit 16, keygen := l.keygen ^^^ (m / 131072) % 16 }

/-- A line written back with symbols that a miscorrection left wrong: its data are what the wrong cipher text deciphers to. -/
def miscorrect (s : State) (l : Nat) (left : Map Nat) (x : Line) : Line :=
  if (left.filter fun e => decide (e.1 < 32)).isEmpty then x
  else
    let c := List.zipWith (· ^^^ ·) (lineCipher x) ((List.range 32).flatMap fun n => leBytes 2 (mgetD left n 0))
    { x with data := if x.kind = 3 then c else Config.lineDecrypt (keyOwner x) x.keySet (lineTweak s l) c, place := lineTweak s l }

/-- Read and decode a line: a corrected one is written back and counted, an uncorrectable one is invalidated when it is a
clean cache copy and poisoned otherwise (12 R442, R443). -/
def readLine (l : Nat) (s : State) : State :=
  match mget s.mem.lines l with
  | none => s
  | some x =>
    let n := lineStack s l
    match decodeLine x.errBits with
    | .clean => s
    | .corrected left m =>
      let y := metaApply m (miscorrect s l left { x with errBits := [] })
      let s1 := modMem (fun q => { q with lines := mset q.lines l y }) s
      noteRowError n (Config.dramRow l) (evCount 8 1 1 (modStack n (fun k => { k with ce := k.ce + 1 }) s1))
    | .uncorrectable =>
      let s1 := modMem (fun q => { q with lines := if x.cached then merase q.lines l else mset q.lines l { x with poison := true, errBits := [] } }) s
      recordEvent 1 8 0x0201 (5 + 256 * n) [l] (evCount 8 2 1 (modStack n (fun k => { k with ue := k.ue + 1 }) s1))

/-- Lines of an owner written whole, from a line address on (12 R437, R446, R448): a write of a whole line clears poison. -/
def storeLines (l kind owner : Nat) : List Bytes → State → State
  | [], s => s
  | b :: bs, s =>
    let x := sealLine s l { data := padTo b 64, owner := owner, kind := kind }
    storeLines (l + 1) kind owner bs (modMem (fun m => { m with lines := mset m.lines l x }) s)

/-- Read some lines. -/
def readLines (ls : List Nat) (s : State) : State := foldS ls (fun t l => readLine l t) s

end Sys2Proof.Machine
end

