-- ==== Sys2Proof/Machine/HostIf.lean ====
section
/-! DEFINITION. The host interface: fetching commands, the frame every ring command runs in, doorbells, queue-pair
control, interrupts, the BAR4 window, DMA read failures and notices (15_host_interface). -/

namespace Sys2Proof.Machine

/-! ### Ingest sessions (07 R248, R249) -/

/-- Whether a queue pair may open sessions of a collection: the admin queue pair of the service function for a shared one, a
queue pair bound to the owner for an owned one (07 R248). -/
def mayIngest (s : State) (q : Nat) (c : Collection) : Bool :=
  if c.desc.shared then q == 0x4000 else !isAdmin q && qpAccount s q == some c.desc.owner

/-- The session a command of a queue pair may act on, or its refusal (07 R249). -/
def sessionFor (s : State) (q : Nat) (c : Collection) : Except Nat Session :=
  if !mayIngest s q c then .error Status.notPermitted
  else match c.session with
    | none => .error Status.sessionClosed
    | some x => if qpFn s q = some x.fn then .ok x else .error Status.notPermitted

/-- Whether a slot holds an INGEST_OP of a collection. -/
def isIngestOp (coll : Nat) (f : Fetched) : Bool := rd f.slots 0 1 == 7 && rd f.slots 4 4 == coll

/-- Whether a fetched command is an INGEST_OP of a session that some queue pair has still to run (07 R249). -/
def opsLeft (s : State) (coll : Nat) : Bool := s.hif.qps.any fun q => q.2.fetched.any fun f => isIngestOp coll f && !f.late

/-- The session that a command names, when the command may act on it. -/
def ownSession (s : State) (h : HostCmd) : Option Session :=
  (mget s.obj.collections (cmdAux h)).bind fun c => match sessionFor s h.qp c with | .ok x => some x | .error _ => none

/-- A fetched INGEST_COMMIT or INGEST_ABORT that may act on its session closes it to later INGEST_OP commands (07 R249), even
when it is refused as it runs (DEDUCED, log entry 21). -/
def closeSession (h : HostCmd) (s : State) : State :=
  if (cmdOp h = 8 ∨ cmdOp h = 9) ∧ (ownSession s h).isSome then
    modObj (fun o => { o with collections := mupd o.collections (cmdAux h) fun c =>
      { c with session := c.session.map fun x => { x with closing := true } } }) s
  else s

/-! ### Fetching (15 R563, 10 R345, 14 R520, R524) -/

/-- Slots from one ring index to another. -/
def ringDist (size a b : Nat) : Nat := (b + size - a % size) % size

/-- Slots announced and not fetched. -/
def announced (qp : Qp) : Nat := ringDist (sqSize qp) qp.sqHead qp.sqTail

/-- Whether a fetched command is a REQUEST or a RUN, which takes a request-table entry (10 R345). -/
def Fetched.bears (f : Fetched) : Bool := rd f.slots 0 1 == 1 || rd f.slots 0 1 == 4

/-- REQUEST and RUN commands fetched and not yet run, of the queue pairs bound to an account, or of all (10 R345). -/
def awaited (s : State) (a : Option Nat) : Nat :=
  ((s.hif.qps.filter fun q => decide (q.1 < 0x4000) && (a.isNone || q.2.bound.map Prod.snd == a)).map fun q =>
    (q.2.fetched.filter Fetched.bears).length).sum

/-- Request-table entries an account holds, with those its fetched commands are to take (14 R520, 10 R345). -/
def entriesOf (s : State) (a : Nat) : Nat := (s.gen.entries.filter fun e => e.2.account == a).length + awaited s (some a)

/-- The lowest FREE request-table entry that was not freed in this cycle (10 R345, 00 R776). -/
def freeEntry (s : State) : Option Nat :=
  (List.range 4096).find? fun e => !mhas s.gen.entries e && !justFreed s (.entry e)

/-- Entries that are FREE and promised to no fetched command, those freed in this cycle apart (10 R345, 00 R776). -/
def entryLeft (s : State) : Bool :=
  decide (awaited s none < ((List.range 4096).filter fun e => !mhas s.gen.entries e && !justFreed s (.entry e)).length)

/-- The entries an account may hold (14 R516). -/
def entriesMax (s : State) (a : Nat) : Nat := ((mget s.sched.accounts a).map (·.record.entriesMax)).getD 0

/-- R519: a priority above the account's is lowered to it. -/
def clampPrio (s : State) (a prio : Nat) : Nat × Bool :=
  let m := ((mget s.sched.accounts a).map (·.record.maxPrio)).getD 0
  if prio < m then (m, true) else (prio, false)

/-- Bounds of a priority (19 R728). -/
def admBoundsOf (s : State) (p : Nat) : Nat × Nat := mgetD s.mgmt.admBounds p (0, 0xFFFF)

/-- The fetch rate of a priority, in units of 10 requests a second: within its bounds, its maximum with the pacer off
(19 R710, R711, R730). -/
def admRateOf (s : State) (p : Nat) : Nat :=
  let b := admBoundsOf s p
  if s.mgmt.pcrCtl.getLsbD 1 then max b.1 (min b.2 (mgetD s.mgmt.admRate p b.2)) else b.2

/-- Whether a REQUEST, or a RUN. -/
def bears (h : HostCmd) : Bool := !isAdmin h.qp && (cmdOp h == 1 || cmdOp h == 4)

/-- The priority at which a REQUEST or a RUN is submitted. -/
def submitPrio (s : State) (a : Nat) (h : HostCmd) : Nat :=
  (clampPrio s a (if cmdOp h = 1 then cmdFld h 65 1 % 4 else cmdAux h % 4)).1

/-- Whether the admission pacer lets a submission of a priority be fetched: URGENT always, another once the interval of its rate
has passed since the last fetch at its priority (19 R710; the spacing is a DESIGN CHOICE, log entry 62). -/
def paced (s : State) (p : Nat) : Bool :=
  let r := admRateOf s p
  p == 0 || r == 0xFFFF || (r != 0 && match mget s.hif.lastFetch p with
    | some t => decide (100000000 ≤ r * (now s - t))
    | none => true)

/-- Whether a queue pair's next command may be fetched: it is enabled and not in error, its function is live, it is bound
or an admin queue pair, all its slots are announced, a completion entry is free and not reserved, and for a
request-bearing command an entry is free, promised to no command fetched before, the account is below its entries_max, and
the admission pacer lets its priority through (19 R710); a resource freed in this cycle counts as taken (00 R776). -/
def canFetch (s : State) (h : HostCmd) : Bool :=
  let qp := qpOf s h.qp
  qp.enable && !qp.err &&
  (match qpFn s h.qp with | some f => fnLive s f | none => false) &&
  decide (cmdCount h ≤ announced qp) &&
  decide (qp.cqUsed + qp.reserved + freedCount s (.cpl h.qp) < cqSize qp) &&
  (if bears h then
    (match qpAccount s h.qp with
     | some a => entryLeft s && decide (entriesOf s a < entriesMax s a) && paced s (submitPrio s a h)
     | none => false)
   else true)

/-- The instant of the doorbell that covered the next command: the first observed whose tail covers all its slots
(14 R543, assumption 13). -/
def coverTime (qp : Qp) (n : Nat) (dflt : Nat) : Nat :=
  ((qp.observed.find? fun o => decide (n ≤ ringDist (sqSize qp) qp.sqHead o.1)).map Prod.snd).getD dflt

/-- Note the fetch of a REQUEST or RUN at its priority (19 R710). -/
def noteFetch (h : HostCmd) (s : State) : State :=
  match qpAccount s h.qp with
  | some a => if bears h then modHif (fun x => { x with lastFetch := mset x.lastFetch (submitPrio s a h) (now s) }) s else s
  | none => s

/-- DMA read requests that a fetch takes: one for the slots, and one for each 4,096 bytes of what the command names (15 R553, 20
R745; DESIGN CHOICE, log entry 54). -/
def dmaReads (h : HostCmd) : Nat :=
  1 + ((h.data :: h.stop :: h.inputs.map Prod.snd).map fun b => (b.length + 4095) / 4096).sum

/-- Fetch the next command: the head moves past its slots and a completion entry is reserved (15 R563). -/
def fetchOne (h : HostCmd) (s : State) : Fetched × State :=
  let qp := qpOf s h.qp
  let n := cmdCount h
  let head := (qp.sqHead + n) % sqSize qp
  let late := cmdOp h == 7 && ((ownSession s h).map (·.closing)).getD false
  let f : Fetched := { slots := h.slots, sqHead := head, seen := coverTime qp n (now s), late := late }
  (f, evCount 1 6 (dmaReads h) <| evCount 1 1 1 (closeSession h (noteFetch h (modQp h.qp (fun x => { x with
    sqHead := head
    reserved := x.reserved + 1
    observed := x.observed.filter fun o => decide (n < ringDist (sqSize qp) qp.sqHead o.1) }) s))))

/-- Remove the first fetched command with the given slots. -/
def eraseFetched (sl : Bytes) : List Fetched → List Fetched
  | [] => []
  | f :: fs => if f.slots == sl then fs else f :: eraseFetched sl fs

/-- Whether a commit or an abort still waits: INGEST_OP commands of its session that were fetched before it have not run (07
R249). -/
def waitsForOps (h : HostCmd) (s : State) : Bool :=
  (cmdOp h == 8 || cmdOp h == 9) && (ownSession s h).isSome && opsLeft s (cmdAux h)

/-- The command to execute: one fetched earlier with these slots, else the next of the ring, fetched now if it may be.  A
REQUEST or RUN fetched earlier waits while no entry can be taken, a commit or abort while operations of its session are left. -/
def takeCmd (h : HostCmd) (s : State) : Option (Fetched × State) :=
  if waitsForOps h s then none
  else match (qpOf s h.qp).fetched.find? fun f => f.slots == h.slots with
  | some f =>
    if f.bears && (freeEntry s).isNone then none
    else some (f, modQp h.qp (fun x => { x with fetched := eraseFetched h.slots x.fetched }) s)
  | none => if canFetch s h then some (fetchOne h s) else none

/-- Remember the tag of a request's or run's completion just written, the newest first, 64 in all (10 R378). -/
def rememberTag (q tag : Nat) (s : State) : State := modQp q (fun x => { x with recent := (tag :: x.recent).take 64 }) s

/-- Complete a command of a ring; a refused REQUEST or RUN is remembered like one that ran (10 R378). -/
def cplCmd (h : HostCmd) (f : Fetched) (c : Cpl) (s : State) : State :=
  whenS (cmdOp h == 1 || cmdOp h == 4) (rememberTag h.qp (cmdTag h))
    (complete h.qp { c with tag := cmdTag h, sqHead := f.sqHead } s)

/-- Complete a command with a status and a detail, result 0. -/
def cplStatus (h : HostCmd) (f : Fetched) (st detail : Nat) (s : State) : State :=
  cplCmd h f { tag := 0, status := st, detail := detail } s

/-- The answer of a command's body: its effect on the state and how it completes, or none when it completes later. -/
structure Reply where
  state : State
  cpl : Option Cpl := none

/-- Refuse with a status: nothing else of the command happens. -/
def deny (st : Nat) (s : State) (detail : Nat := 0) : Reply := { state := s, cpl := some { tag := 0, status := st, detail := detail } }

/-- Refuse a write to a read-only partition, and count it (13 R500, R501). -/
def denyRo (s : State) : Reply :=
  deny Status.mediaReadOnly (evCount 9 8 1 (modFlash (fun x => { x with roRejects := x.roRejects + 1 }) s))

/-- Succeed with a result. -/
def okWith (s : State) (result : Nat := 0) : Reply := { state := s, cpl := some { tag := 0, status := Status.ok, result := result } }

/-- Finish a command's body. -/
def finishReply (h : HostCmd) (f : Fetched) (r : Reply) : State :=
  match r.cpl with
  | some c => cplCmd h f c r.state
  | none => r.state

/-- Whether a service level serves a command (17 R638, R640): NONE serves ACCOUNT and QP commands alone, PROOFING refuses
ingest, loads, unloads and deletions of catalogue objects and table versions, RECOVERY serves none. -/
def levelAllows (lvl op : Nat) : Bool :=
  match lvl with
  | 2 => true
  | 1 => decide (op < 6) || decide (0x2D ≤ op)
  | 0 => decide (0x2D ≤ op) && decide (op ≤ 0x31)
  | _ => false

/-- The frame of a command: it is taken, its slot is checked (00 R14, 15 R777), then its queue pair (15 R575) and the
service level (17 R638), then its body runs.  Nothing happens while it cannot be fetched (assumption 2). -/
def runCmd (op : Nat) (h : HostCmd) (body : Fetched → State → Reply) (s : State) : State :=
  if cmdOp h ≠ op then s
  else
    match takeCmd h s with
    | none => s
    | some (f, s1) =>
      match slotFault op h with
      | some d => cplStatus h f Status.descMalformed d s1
      | none =>
        if queueAllowed op h.qp && levelAllows s1.boot.level op then finishReply h f (body f s1)
        else cplStatus h f Status.notPermitted 0 s1

/-- COMMAND_FETCH (15 R563): the command waits fetched; an opcode outside the command table completes DESC_MALFORMED with
detail 0 (assumption 14). -/
def execCommandFetch (h : HostCmd) (s : State) : Answer :=
  .next <|
    if canFetch s h then
      let r := fetchOne h s
      match cmdRow (cmdOp h) with
      | none => cplStatus h r.1 Status.descMalformed 0 r.2
      | some _ => modQp h.qp (fun x => { x with fetched := x.fetched ++ [r.1] }) r.2
    else s

/-! ### Doorbells (15 R561, R562) -/

/-- The queue pair a function's doorbell or register names: its own admin queue pair for 0x4000, or one bound to it. -/
def ownQp (s : State) (fn q : Nat) : Option Nat :=
  if q = 0x4000 then (if fn = 0 then some 0x4000 else if fn = 1 then some 0x4001 else none)
  else if q < 0x4000 then (if (qpOf s q).bound.map Prod.fst = some fn then some q else none)
  else none

/-- Put a queue pair in error (15 R562); the first cause stands (assumption 15). -/
def qpError (q cause : Nat) (s : State) : State :=
  modQp q (fun x => if x.err then x else { x with err := true, cause := cause }) s

/-- Drop a doorbell write and count it (15 R561). -/
def dropDoorbell (fn : Nat) (s : State) : State :=
  evCount 1 5 1 (modFn fn (fun x => { x with dbDropped := x.dbDropped + 1 }) s)

/-- A doorbell write: dropped when the queue pair is not the function's or not enabled (15 R561), not observed while the
function is disabled (14 R541). -/
def doorbell (fn q : Nat) (act : Nat → State → State) (s : State) : State :=
  if fnLive s fn then
    match ownQp s fn q with
    | some k => if (qpOf s k).enable then act k s else dropDoorbell fn s
    | none => dropDoorbell fn s
  else s

/-- SQ_TAIL_DOORBELL: new slots are announced (15 R561), or cause 1 (R562). -/
def sqTail (value k : Nat) (s : State) : State :=
  let v := value % 65536
  let qp := qpOf s k
  if sqSize qp ≤ v then qpError k 1 s
  else if v = qp.sqTail then s
  else modQp k (fun x => { x with sqTail := v, observed := x.observed ++ [(v, now s)] }) s

/-- CQ_HEAD_DOORBELL: entries return to the module, to be used from the next cycle (15 R561, 00 R776), or cause 2 (R562). -/
def cqHead (value k : Nat) (s : State) : State :=
  let v := value % 65536
  let qp := qpOf s k
  let adv := ringDist (cqSize qp) qp.cqHead v
  if cqSize qp ≤ v ∨ qp.cqUsed < adv then qpError k 2 s
  else foldS (List.range adv) (fun t _ => noteFreed (.cpl k) t)
    (modQp k (fun x => { x with cqHead := v, cqUsed := qp.cqUsed - adv }) s)

/-- STREAM_HEAD_DOORBELL: consumed stream bytes return (15 R561), or cause 3 (R562). -/
def streamHead (value k : Nat) (s : State) : State :=
  let qp := qpOf s k
  let delta := (value % 2 ^ 32 + 2 ^ 32 - qp.consumed % 2 ^ 32) % 2 ^ 32
  if qp.produced < qp.consumed + delta then qpError k 3 s
  else modQp k (fun x => { x with consumed := qp.consumed + delta }) s

def execSqTailDoorbell (fn q value : Nat) (s : State) : Answer := .next (doorbell fn q (sqTail value) s)
def execCqHeadDoorbell (fn q value : Nat) (s : State) : Answer := .next (doorbell fn q (cqHead value) s)
def execStreamHeadDoorbell (fn q value : Nat) (s : State) : Answer := .next (doorbell fn q (streamHead value) s)

/-! ### Queue-pair control (15 R559, R560, R568) -/

/-- Whether the sizes and bases of a queue pair allow it to be enabled (15 R558, R559, R570). -/
def sizesOk (admin : Bool) (qp : Qp) : Bool :=
  let z := qp.sizes.toNat
  let inR (v lo hi : Nat) : Bool := decide (lo ≤ v) && decide (v ≤ hi)
  inR (z % 32) 4 16 && inR (bitsOf z 9 5) 4 16 && (qp.sqBase.toNat % 64 == 0) && (qp.cqBase.toNat % 64 == 0) &&
    (admin || (inR (bitsOf z 14 10) 20 28 && (qp.stBase.toNat % 64 == 0)))

/-- Enable: heads, tails, counts and doorbell values return to 0, the phase to 1 and the error is left; or err with cause
5 (15 R559, R562). -/
def enableQp (k : Nat) (s : State) : State :=
  let qp := qpOf s k
  if qp.enable then s
  else if sizesOk (isAdmin k) qp then
    modQp k (fun x => { x with
      enable := true, err := false, cause := 0, sqTail := 0, sqHead := 0, cqHead := 0, cqTail := 0, cqUsed := 0
      phase := true, produced := 0, consumed := 0, observed := [] }) s
  else modQp k (fun x => { x with err := true, cause := 5 }) s

/-- QP_ENABLE (15 R559): a function configures only queue pairs bound to it and its own admin queue pair (R558). -/
def execQpEnable (fn q : Nat) (s : State) : Answer :=
  .next (match ownQp s fn q with | some k => if fnLive s fn then enableQp k s else s | none => s)

/-- QP_DISABLE (15 R560): fetching stops at once; fetched commands run on. -/
def execQpDisable (fn q : Nat) (s : State) : Answer :=
  .next (match ownQp s fn q with | some k => modQp k (fun x => { x with enable := false }) s | none => s)

/-- The lowest queue pair at or above `q` bound to a function, or 0xFFFF (15 R568). -/
def findQp (s : State) (fn q : Nat) : Nat :=
  ((s.hif.qps.find? fun e => decide (q ≤ e.1) && decide (e.1 < 0x4000) && (e.2.bound.map Prod.fst == some fn)).map
    Prod.fst).getD 0xFFFF

/-- QP_FIND (15 R568). -/
def execQpFind (fn q : Nat) (s : State) : Answer :=
  .next (modFn fn (fun x => { x with qpFind := findQp s fn (q % 0x4000) }) s)

/-! ### Interrupts (15 R573) -/

/-- Send a queue pair's message; its pending events return to zero (15 R573). -/
def sendQpMsg (q : Nat) (s : State) : State :=
  let qp := qpOf s q
  sendMsg ((qpFn s q).getD 0) (qp.irq.toNat % 2048) (modQp q (fun x => { x with events := 0 }) s)

/-- IRQ_MODERATION_TIMER (15 R573): timer µs after the first pending event. -/
def execIrqModerationTimer (q : Nat) (s : State) : Answer :=
  let qp := qpOf s q
  let timer := bitsOf qp.irq.toNat 31 20
  .next <|
    if qp.irq.getLsbD 11 && decide (0 < timer) && decide (0 < qp.events) then
      sendQpMsg q (advanceTo (qp.firstEvent + 1000 * timer) s)
    else s

/-- Send the messages of a function that a mask no longer holds (15 R573). -/
def sendPending (f : Nat) (s : State) : State :=
  let fn := fnOf s f
  if fn.fnMask then s
  else
    let go := fn.vecPending.filter fun v => !fn.vecMask.contains v
    foldS go (fun t v => sendMsg f v t)
      (modFn f (fun x => { x with vecPending := x.vecPending.filter fun v => fn.vecMask.contains v }) s)

/-- MSIX_UNMASK (15 R573): the Function Mask, or one vector's mask, is cleared. -/
def execMsixUnmask (f : Nat) (vector : Option Nat) (s : State) : Answer :=
  .next (sendPending f (modFn f (fun x =>
    match vector with
    | none => { x with fnMask := false }
    | some v => { x with vecMask := x.vecMask.filter (· ≠ v) }) s))

/-! ### The BAR4 window (15 R557) -/

/-- The line at a line address; one not listed holds zeros of kind 0xF (12 R446). -/
def lineAt (s : State) (l : Nat) : Line := mgetD s.mem.lines l { data := zeros 64, owner := 0, kind := 0xF }

/-- What a served line shows in the BAR4 window: its data, zeros where it is not listed (15 R557; 12 R446). -/
def windowData (s : State) (l : Nat) : Bytes :=
  match mget s.mem.lines l with
  | some x => linePlain s l x
  | none => zeros 64

/-- The parts of a byte range that lie in one line each: line, offset in it, length. -/
def lineParts : Nat → Nat → Nat → List (Nat × Nat × Nat)
  | 0, _, _ => []
  | fuel + 1, a, n =>
    if n = 0 then []
    else
      let k := min n (64 - a % 64)
      (a / 64, a % 64, k) :: lineParts fuel (a + k) (n - k)

/-- Whether the window serves a line: kinds 1, 2 and 0xF (15 R557). -/
def bar4Serves (k : Nat) : Bool := k == 1 || k == 2 || k == 0xF

/-- Bytes of a list replaced at an offset. -/
def spliceAt (b : Bytes) (off : Nat) (x : Bytes) : Bytes := b.take off ++ x ++ b.drop (off + x.length)

/-- The byte address of the BAR4 window's start (15 R557). -/
def bar4Start (s : State) : Nat := s.hif.bar4Base.toNat % 32 * (64 * 2 ^ 30)

/-- Count a refused BAR4 access. -/
def bar4Deny (s : State) : State := modHif (fun h => { h with bar4Denied := h.bar4Denied + 1 }) s

/-- Read through the window: served lines give their data, others 0xFF in every byte, counted (15 R557). -/
def bar4Read (parts : List (Nat × Nat × Nat)) (s : State) : State :=
  let one (acc : Bytes × State) (p : Nat × Nat × Nat) : Bytes × State :=
    let l := lineAt s p.1
    if bar4Serves l.kind then (acc.1 ++ (((windowData acc.2 p.1).drop p.2.1).take p.2.2), acc.2)
    else (acc.1 ++ List.replicate p.2.2 0xFF, bar4Deny acc.2)
  let r := parts.foldl one ([], readLines (parts.map (·.1)) s)
  modRegs (fun g => { g with readValue := r.1 }) r.2

/-- Write through the window: served lines take the bytes, others drop them, counted (15 R557); a write of all 64 bytes
clears poison, a lesser one reads the line first (12 R442, R444). -/
def bar4Write : List (Nat × Nat × Nat) → Bytes → State → State
  | [], _, s0 => s0
  | (l, off, k) :: ps, b, s0 =>
    let s := if k = 64 then s0 else readLine l s0
    let ln := lineAt s l
    let whole := k == 64
    let s1 :=
      if bar4Serves ln.kind then
        modMem (fun m => { m with lines := mset m.lines l (sealLine s l { ln with
          data := padTo (spliceAt (windowData s l) off (b.take k)) 64, poison := ln.poison && !whole
          errBits := if whole then [] else ln.errBits }) }) s
      else bar4Deny s
    bar4Write ps (b.drop k) s1

/-- BAR4_ACCESS (15 R557), from the management physical function. -/
def execBar4Access (addr len : Nat) (write : Option Bytes) (s : State) : Answer :=
  let a := bar4Start s + addr % (64 * 2 ^ 30)
  .next (match write with
    | none => bar4Read (lineParts (len + 1) a len) s
    | some b => bar4Write (lineParts (len + 1) a (min len b.length)) b s)

/-! ### Failed DMA reads (15 R555) -/

/-- The detail of a failed DMA read (15 R555). -/
def dmaDetail : DmaError → Nat
  | .unsupportedRequest => 0x101
  | .completerAbort => 0x102
  | .timeout => 0x103
  | .poisoned => 0x104

/-- The entry of a live request or run of a queue pair with a tag; an ended one in DRAIN is none (15 R577, 10 R378). -/
def liveEntry (s : State) (q tag : Nat) : Option Nat :=
  (s.gen.entries.find? fun e => e.2.qp == q && e.2.tag == tag && e.2.state != RtState.drain).map Prod.fst

/-- DMA_READ_ERROR (15 R555): a ring's queue pair goes into error with cause 4; a live request or run ends FAULT at its
next stage boundary, commit point or preemption point; another command ends FAULT at once. -/
def execDmaReadError (target : DmaTarget) (err : DmaError) (s : State) : Answer :=
  .next (match target with
    | .ring q => qpError q 4 s
    | .command q tag =>
      match liveEntry s q tag with
      | some e => modWork e (fun w => { w with pendingFault := some (dmaDetail err) }) s
      | none =>
        match (qpOf s q).fetched.find? fun f => rd f.slots 8 8 == tag with
        | some f =>
          complete q { tag := tag, status := Status.fault, sqHead := f.sqHead, detail := dmaDetail err }
            (modQp q (fun x => { x with fetched := eraseFetched f.slots x.fetched }) s)
        | none => s)

/-! ### Notices (15 R585) -/

/-- ASYNC_WAIT (15 R585): it completes at once with a queued notice, waits, or is the seventeenth. -/
def asyncBody (h : HostCmd) (f : Fetched) (s : State) : Reply :=
  let svc := h.qp == 0x4000
  let waits := if svc then s.hif.waits0 else s.hif.waits1
  let notices := if svc then s.hif.notices0 else s.hif.notices1
  match notices with
  | n :: ns =>
    { state := modHif (fun x => if svc then { x with notices0 := ns } else { x with notices1 := ns }) s
      cpl := some { tag := 0, status := n.status, result := noticeResult n } }
  | [] =>
    if 16 ≤ waits.length then deny Status.noResources s
    else
      let w : Wait := { tag := cmdTag h, sqHead := f.sqHead }
      { state := modHif (fun x => if svc then { x with waits0 := x.waits0 ++ [w] } else { x with waits1 := x.waits1 ++ [w] }) s }

def execAsyncWait (h : HostCmd) (s : State) : Answer := .next (runCmd 0x34 h (asyncBody h) s)

end Sys2Proof.Machine
end

