-- ==== Sys2Proof/Machine/Keys.lean ====
section
/-! DEFINITION. Keys that the security unit derives and keeps: HKDF-SHA-512, the keys of the seed, the wrapped data keys of
management flash, the replay-protected area, and the keys of fabric links (18 R664, R665, R671, R678, R679, R681). -/

namespace Sys2Proof.Machine

/-! ### HKDF-SHA-512 (18 R665, R681) -/

/-- The bytes of a label. -/
def ascii (t : String) : Bytes := t.toList.map fun c => BitVec.ofNat 8 c.toNat

/-- HMAC-SHA-512 under a key of at most 128 bytes (FIPS 198-1, which HKDF uses). -/
def hmac512 (key msg : Bytes) : Bytes :=
  let k := padTo key 128
  Config.sha512 (k.map (· ^^^ 0x5C) ++ Config.sha512 (k.map (· ^^^ 0x36) ++ msg))

/-- HKDF-Expand-SHA-512 for at most 64 bytes (RFC 5869): its first block. -/
def hkdfExpand (prk : Bytes) (info : String) (len : Nat) : Bytes := (hmac512 prk (ascii info ++ [1])).take len

/-- HKDF-SHA-512 without a salt (RFC 5869). -/
def hkdf (ikm : Bytes) (info : String) (len : Nat) : Bytes := hkdfExpand (hmac512 (zeros 64) ikm) info len

/-- The key-encryption key (18 R665): 32 bytes, as AES-256 takes. -/
def kekBytes : Bytes := hkdf Config.pufSeed "KLF KEK" 32

/-- The authentication key of the replay-protected area (18 R665); the spec gives it no length (DESIGN CHOICE, log entry 61: 32
bytes). -/
def rpaKeyBytes : Bytes := hkdf Config.pufSeed "KLF RPA" 32

/-! ### The replay-protected area (18 R671, R673, R687) -/

/-- The contents of the area: the floors, the stored sequence, the unlock count; then the write counter (log entry 61). -/
def rpaBytes (c : Sec) : Bytes := c.floors.flatMap (leBytes 4) ++ leBytes 4 c.storedSeq ++ leBytes 4 c.unlocks ++ leBytes 8 c.areaCount

/-- A write of the area, authenticated with its key and write counter (18 R671). -/
def sealArea (c : Sec) : Sec :=
  let d := { c with areaCount := c.areaCount + 1 }
  { d with areaCode := some (Config.areaCode rpaKeyBytes (rpaBytes d)) }

/-- Whether the area's contents authenticate; any other are rejected (18 R671). -/
def areaOk (c : Sec) : Bool :=
  match c.areaCode with
  | none => true
  | some b => b == Config.areaCode rpaKeyBytes (rpaBytes c)

/-- Raise a floor to a value; it never decreases (18 R671). -/
def raiseFloorTo (kind v : Nat) (c : Sec) : Sec :=
  if (c.floors[kind]?).getD 0 < v then sealArea { c with floors := c.floors.set kind v } else c

/-- Raise the stored sequence to a record's (18 R673, R674). -/
def raiseSeqTo (n : Nat) (c : Sec) : Sec := if c.storedSeq < n then sealArea { c with storedSeq := n } else c

/-! ### Data keys (18 R678, R679) -/

/-- Change an owner's entries in management flash. -/
def modEntries (a : Nat) (f : List KeyEntry → List KeyEntry) (s : State) : State :=
  modSec (fun c => { c with keyFlash := mmod c.keyFlash a [] f }) s

/-- The highest write count of some entries, 0 of none. -/
def topCount (l : List KeyEntry) : Nat := (l.map (·.count)).foldl max 0

/-- A replacement (18 R679): the new entry is written with a higher count, then marked valid, then the old one is erased. -/
def replaceEntry (a set : Nat) (s : State) : State :=
  let n := topCount (mgetD s.sec.keyFlash a []) + 1
  let s1 := modEntries a (fun l => l ++ [{ set := set, count := n, bytes := Config.keyWrap kekBytes (Config.dataKeys set) }]) s
  let s2 := modEntries a (fun l => l.map fun e => if e.count = n then { e with valid := true } else e) s1
  modEntries a (fun l => l.filter fun e => e.count == n) s2

/-- Generate an owner's key set (18 R678) and keep it wrapped. -/
def freshKeys (a : Nat) (s : State) : State :=
  let n := s.sec.keyDraws + 1
  replaceEntry a n (modSec (fun c => { c with keyDraws := n, keySets := mset c.keySets a n }) s)

/-- The entry a bring-up uses: the valid one with the highest count (18 R679). -/
def bestEntry (l : List KeyEntry) : Option KeyEntry :=
  (l.filter (·.valid)).foldl (fun b e => match b with | some x => if x.count < e.count then some e else b | none => some e) none

/-- Bring-up opens the key sets: each owner's best entry is used and the other erased (18 R679). -/
def openKeys (s : State) : State :=
  foldS s.sec.keyFlash (fun t x => match bestEntry x.2 with
    | some e => modEntries x.1 (fun _ => [e]) (modSec (fun c => { c with keySets := mset c.keySets x.1 e.set }) t)
    | none => modSec (fun c => { c with keyFlash := merase c.keyFlash x.1 }) t) s

/-! ### Link keys (18 R681) -/

/-- The keys and salts of a session of a port: the end with the lower fabric ID is the requester (18 R681). -/
def sessionKeys (port me peer : Nat) (p : Port) : Port :=
  let m := Config.exportSecret port p.sessions
  let key (t : String) : Bytes := hkdfExpand m t 32
  let salt (t : String) : Bytes := hkdfExpand m t 4
  let r := decide (me < peer)
  { p with
    txKey := key (if r then "evdz r2s key" else "evdz s2r key"), txSalt := salt (if r then "evdz r2s salt" else "evdz s2r salt")
    rxKey := key (if r then "evdz s2r key" else "evdz r2s key"), rxSalt := salt (if r then "evdz s2r salt" else "evdz r2s salt")
    peer := peer, sessions := p.sessions + 1, ivCount := 0, txGen := 0, rxGen := 0, keyUpdate := false, tagFails := [] }

/-- The key after a key update (18 R681). -/
def nextLinkKey (k : Bytes) : Bytes := hkdfExpand k "evdz next" 32

end Sys2Proof.Machine
end

