-- ==== Sys2Proof/Machine/Link.lean ====
section
/-! DEFINITION. The lines of a port: flits as bytes, the 257-bit blocks they fill, and the codewords of the short-reach FEC
(16 R589 to R594, R598). -/

namespace Sys2Proof.Machine

/-! ### CRC-64 (16 R593) -/

/-- One bit of the CRC, least significant bit first. -/
def crcBit (c : BitVec 64) : BitVec 64 := if c.getLsbD 0 then (c >>> 1) ^^^ 0xC96C5795D7870F42 else c >>> 1

/-- One byte of the CRC. -/
def crcByte (c : BitVec 64) (b : Byte) : BitVec 64 :=
  crcBit (crcBit (crcBit (crcBit (crcBit (crcBit (crcBit (crcBit (c ^^^ b.setWidth 64))))))))

/-- The CRC-64 of bytes (16 R593). -/
def crc64 (l : Bytes) : BitVec 64 := (l.foldl crcByte 0xFFFFFFFFFFFFFFFF) ^^^ 0xFFFFFFFFFFFFFFFF

/-! ### Blocks and codewords (16 R590, R592) -/

/-- The bits of a transcoded block of data, first sent lowest: the header bit 1 and 32 bytes (16 R589; PRESUMED from the 256b/257b
transcoding of IEEE 802.3, which the rule takes and does not repeat, log entry 60). -/
def blockBits (b : Bytes) : Nat := 1 + 2 * leNat b

/-- The 257 data symbols of ten blocks, in the order sent (16 R590): ten bits each, the first sent lowest. -/
def blockSymbols (bs : List Bytes) : List Nat :=
  let n := (bs.map blockBits).foldr (fun v acc => v + 2 ^ 257 * acc) 0
  (List.range 257).map fun i => n / 2 ^ (10 * i) % 1024

/-- The bytes of the ten blocks that 257 data symbols carry. -/
def symbolBlocks (d : List Nat) : List Bytes :=
  let n := d.foldr (fun v acc => v + 1024 * acc) 0
  (List.range 10).map fun k => leBytes 32 (n / 2 ^ (257 * k + 1) % 2 ^ 256)

/-- The four lanes of a codeword: symbol i goes to lane i mod 4 (16 R590). -/
def wordLanes (w : List Nat) : List (List Nat) :=
  (List.range 4).map fun l => ((withPos w).filter fun e => e.1 % 4 == l).map Prod.snd

/-- The codeword that four lanes carry. -/
def laneWord (ls : List (List Nat)) : List Nat :=
  (List.range linkCode.len).map fun i => (((ls[i % 4]?).getD [])[i / 4]?).getD 0

/-- A codeword of ten blocks: its data symbols, then its check symbols (16 R590). -/
def linkWord (bs : List Bytes) : List Nat := let d := blockSymbols bs; d ++ rsCheck linkCode d

/-- The data symbols of a codeword received, and whether symbols were corrected; none when more than seven symbols are wrong
(16 R590). -/
def linkDecode (w : List Nat) : Option (List Nat × Bool) :=
  (rsCorrect linkCode (wordSyndromes linkCode w)).map fun e =>
    ((((withPos w).map fun x => x.2 ^^^ mgetD e x.1 0)).take 257, !e.isEmpty)

/-! ### Flits sent (16 R592 to R594, R598) -/

/-- The header of a flit (16 R594): a data flit's number, channel, level and place in its packet; an acknowledgement and credits
in the others; the phase of the key. -/
def flitHead (kind seq vc lvl : Nat) (sop eop : Bool) (ack : Option Nat) (credKey cred phase : Nat) : Nat :=
  seq + 2 ^ 16 * ack.getD 0 + 2 ^ 28 * b2n ack.isSome + 2 ^ 32 * kind + 2 ^ 34 * vc + 2 ^ 36 * lvl + 2 ^ 38 * b2n sop +
    2 ^ 39 * b2n eop + 2 ^ 40 * (credKey / 4) + 2 ^ 42 * (credKey % 4) + 2 ^ 48 * cred + 2 ^ 56 * phase

/-- The 256 bytes of a flit (16 R593): on a SECURE port its payload and tag under the key and the count (R598), on another the
payload in clear and a tag the spec leaves open. -/
def flitBytes (port : Nat) (p : Port) (hd : Nat) (payload : Bytes) : Bytes :=
  let h := leBytes 8 hd
  let body := if p.state = .secure then padTo (Config.flitSeal p.txKey (p.txSalt ++ leBytes 8 p.ivCount) h payload) 240
    else padTo payload 224 ++ padTo (Config.openTag port h) 16
  h ++ body ++ leBytes 8 (crc64 (h ++ body)).toNat

/-- The eight blocks of a flit (16 R592). -/
def flitBlocks (f : Bytes) : List Bytes := (List.range 8).map fun k => (f.drop (32 * k)).take 32

/-- Codewords leave once ten blocks are there (16 R590). -/
def sendWords (p : Port) : Port :=
  if p.txBlocks.length < 10 then p
  else { p with txBlocks := p.txBlocks.drop 10, words := wordLanes (linkWord (p.txBlocks.take 10)) :: p.words }

/-- A flit goes out on the lines of a port: every transmission takes a new count (16 R598), and its blocks follow those before
them without a gap (16 R592). -/
def pushFlit (port hd : Nat) (payload : Bytes) (p : Port) : Port :=
  let f := flitBytes port p hd payload
  let q := { p with flits := f :: p.flits, ivCount := p.ivCount + b2n (p.state == .secure) }
  if p.shortFec then sendWords { q with txBlocks := p.txBlocks ++ flitBlocks f } else q

/-- The header of a data flit (16 R594); acknowledgements and credits travel in the others. -/
def dataHead (p : Port) (seq : Nat) (f : Flit) : Nat :=
  flitHead 0 seq f.vc f.lvl f.sop f.eop none 0 0 (p.txGen % 2)

/-- A data flit goes out under its number (16 R597). -/
def pushData (port : Nat) (p : Port) (e : Nat × Flit) : Port := pushFlit port (dataHead p e.1 e.2) e.2.payload p

/-- A flit without data goes out: an idle flit carries the acknowledgement and credits, a retry request names the flit it
expects as the one after its ack_seq, and a link-control flit confirms (16 R594, R597, R599; log entry 60). -/
def pushCtl (port : Nat) (c : CtlFlit) (p : Port) : Port :=
  let ack := match c.kind with | 1 => some c.seq | 2 => some ((c.seq + 4095) % 4096) | _ => none
  pushFlit port (flitHead c.kind 0 0 0 false false ack c.credKey c.credCount (p.txGen % 2)) (zeros 224) { p with ctl := c :: p.ctl }

/-! ### Flits received (16 R590, R592) -/

/-- The flits that blocks received complete, with those left over. -/
def wholeFlits : Nat → List Bytes → List Bytes × List Bytes
  | 0, bs => ([], bs)
  | n + 1, bs =>
    if bs.length < 8 then ([], bs)
    else
      let r := wholeFlits n (bs.drop 8)
      ((bs.take 8).flatten :: r.1, r.2)

end Sys2Proof.Machine
end

