-- ==== Sys2Proof/Machine/FabCore.lean ====
section
/-! DEFINITION. The transport of the Evdozin fabric: packets as bytes, routing, flits waiting on ports, per-pair order,
acknowledgement and answers, and packet trains (16 R593 to R622). -/

namespace Sys2Proof.Machine

/-! ### Packets (16 R595, R610, R613) -/

/-- The virtual channel a packet type travels on (16 R613, R620). -/
def vcOf (pt : Nat) : Nat :=
  if pt = 0x21 ∨ pt = 0x30 ∨ 0x80 ≤ pt then 1
  else if (0x10 ≤ pt ∧ pt ≤ 0x19) ∨ pt = 0x24 ∨ pt = 0x25 then 2
  else if 0x40 ≤ pt then 3
  else 0

/-- The 32-byte header and the payload (16 R610). -/
def packetBytes (p : Packet) : Bytes :=
  leBytes 1 p.ptype ++ leBytes 1 p.hops ++ leBytes 2 p.account ++ leBytes 4 (p.dst % 2 ^ 20) ++
    leBytes 4 (p.src % 2 ^ 20) ++ leBytes 4 p.pairSeq ++ leBytes 4 p.payload.length ++ leBytes 4 p.arg0.toNat ++
    leBytes 8 p.arg1.toNat ++ p.payload

/-- Read a packet that arrived on a port (16 R610). -/
def packetOf (port : Nat) (b : Bytes) : Packet :=
  { ptype := rd b 0 1, hops := rd b 1 1, account := rd b 2 2, dst := rd b 4 4 % 2 ^ 20, src := rd b 8 4 % 2 ^ 20
    pairSeq := rd b 12 4, arg0 := BitVec.ofNat 32 (rd b 20 4), arg1 := BitVec.ofNat 64 (rd b 24 8)
    payload := (b.drop 32).take (rd b 16 4), port := port }

/-! ### Flits waiting and sent (16 R593 to R597) -/

/-- Receive buffer of a virtual channel per level, which a credit counter starts at (16 R595, R596). -/
def vcBuffer (vc : Nat) : Nat := if vc = 3 then 16 else 64

/-- Whether a port carries a virtual channel in its state (16 R601). -/
def portCarries (p : Port) (vc : Nat) : Bool := p.state == .secure || (p.state == .local && vc == 3)

/-- The bytes of a packet cut into the payloads of its flits, 224 bytes each (16 R593). -/
def flitsFrom (vc lvl : Nat) : Nat → Bool → Bytes → List Flit
  | 0, _, _ => []
  | n + 1, first, b =>
    if b.length ≤ 224 then [⟨vc, lvl, first, true, padTo b 224⟩]
    else ⟨vc, lvl, first, false, b.take 224⟩ :: flitsFrom vc lvl n false (b.drop 224)

/-- The flits of a packet. -/
def flitsOf (lvl : Nat) (p : Packet) : List Flit :=
  let b := packetBytes p
  flitsFrom (vcOf p.ptype) lvl (b.length / 224 + 1) true b

/-- Send what a port may send of its waiting flits, oldest first: its state carries the channel, the channel's credit
counter is not zero, fewer than 1,024 data flits are unacknowledged (16 R596, R597).  Answers how many were sent. -/
def pumpFlits (port : Nat) : Port → List Flit → Port × Nat
  | p, [] => (p, 0)
  | p, f :: fs =>
    let key := 4 * f.vc + f.lvl
    let c := mgetD p.credits key (vcBuffer f.vc)
    if portCarries p f.vc && decide (0 < c) && decide (p.replay.length < 1024) then
      let r := pumpFlits port (pushData port { p with
        credits := mset p.credits key (c - 1), replay := p.replay ++ [(p.txSeq, f)], txSeq := (p.txSeq + 1) % 4096 } (p.txSeq, f)) fs
      (r.1, r.2 + 1)
    else
      let r := pumpFlits port p fs
      ({ r.1 with outq := f :: r.1.outq }, r.2)

/-- Send what a port may send, counting the flits (20 R745). -/
def pumpPort (port : Nat) (s : State) : State :=
  let p := portOf s port
  let r := pumpFlits port { p with outq := [] } p.outq
  evCount 10 1 r.2 (modPort port (fun _ => r.1) s)

/-- Put a packet on a port at a level: its flits wait there and go as credits allow. -/
def putOn (port lvl : Nat) (p : Packet) (s : State) : State :=
  pumpPort port (modPort port (fun x => { x with outq := x.outq ++ flitsOf lvl p })
    (modFab (fun f => { f with sent := { p with port := port } :: f.sent }) s))

/-! ### Routing (16 R606 to R608) -/

/-- The table entry of a destination (16 R606). -/
def routeEntry (f : Fabric) (dst : Nat) : BitVec 32 :=
  let k := 2 ^ f.routeB
  if dst / k = f.id / k then mgetD f.rtLocal (dst % k) 0 else mgetD f.rtGroup (dst / k) 0

/-- The level a packet leaves at, none when it would pass 3 (16 R607). -/
def levelAfter (entry : BitVec 32) (lvl : Nat) : Option Nat :=
  match bitsOf entry.toNat 12 11 with
  | 1 => if lvl < 3 then some (lvl + 1) else none
  | 2 => some 0
  | _ => some lvl

/-- The port an entry sends out of (16 R608). -/
def routePort (s : State) (entry : BitVec 32) : Nat :=
  let pr := entry.toNat % 32
  let alt := bitsOf entry.toNat 9 5
  if (portOf s pr).state != .secure && entry.getLsbD 10 && (portOf s alt).state == .secure then alt else pr

/-- Drop a packet for want of a route (16 R606, R607; 20 R745). -/
def dropNoRoute (s : State) : State := evCount 10 7 1 (modFab (fun f => { f with noRoute := f.noRoute + 1 }) s)

/-- Route a packet that this module sends or passes on, at a level. -/
def routeAt (lvl : Nat) (p : Packet) (s : State) : State :=
  let f := s.fab
  if p.dst = f.id ∧ f.state ≠ .unassigned then modFab (fun f => { f with delivered := f.delivered ++ [p] }) s
  else
    match f.state with
    | .unassigned => dropNoRoute s
    | .assigned => putOn f.upstream lvl p s
    | _ =>
      let e := routeEntry f p.dst
      if e.getLsbD 13 then
        match levelAfter e lvl with
        | some l => putOn (routePort s e) l p s
        | none => dropNoRoute s
      else dropNoRoute s

/-- Send a packet of this module: source ID set, level 0 (16 R607, R610). -/
def sendPacket (p : Packet) (s : State) : State := routeAt 0 { p with src := s.fab.id, hops := 0 } s

/-- Pass a packet on for another module: hops rises by 1 (16 R610). -/
def forward (p : Packet) (s : State) : State := routeAt 0 { p with hops := (p.hops + 1) % 256 } s

/-! ### Trains (16 R618) -/

/-- The packets a payload travels in: itself, or a train of parts with train words (16 R618). -/
def trainParts (p : Packet) : Nat → Nat → List Packet
  | 0, _ => []
  | n + 1, off =>
    if p.payload.length ≤ off then []
    else
      let part := (p.payload.drop off).take 32760
      { p with account := p.account % 32768 + 32768
               payload := leBytes 4 off ++ leBytes 4 p.payload.length ++ part } :: trainParts p n (off + 32760)

/-- A packet as it is sent, cut into a train when its payload passes 32,768 bytes. -/
def asSent (p : Packet) : List Packet :=
  if p.payload.length ≤ 32768 then [p] else trainParts p (p.payload.length / 32760 + 1) 0

/-- Send a packet or its train. -/
def sendAll (p : Packet) (s : State) : State := foldS (asSent p) (fun t x => sendPacket x t) s

/-- The bytes of a train when no byte of it is missing. -/
def joinParts (total : Nat) : Nat → Map Bytes → Option Bytes
  | at_, [] => if at_ = total then some [] else none
  | at_, (o, b) :: m =>
    if at_ < o then none
    else (joinParts total (max at_ (o + b.length)) m).map fun r => b.drop (at_ - o) ++ r

/-- A packet's arrival: the whole packet once every byte of its train is here (16 R618). -/
def gatherTrain (p : Packet) (s : State) : Option Packet × State :=
  if p.account / 32768 % 2 = 0 then (some p, s)
  else
    let isIt (t : Train) : Bool := t.src == p.src && t.ptype == p.ptype && t.pairSeq == p.pairSeq && t.arg0 == p.arg0 && t.arg1 == p.arg1
    let t0 : Train := (s.fab.trains.find? isIt).getD
      { src := p.src, ptype := p.ptype, pairSeq := p.pairSeq, arg0 := p.arg0, arg1 := p.arg1, total := rd p.payload 4 4, parts := [] }
    let t := { t0 with parts := mset t0.parts (rd p.payload 0 4) (p.payload.drop 8) }
    let others := s.fab.trains.filter fun x => !isIt x
    match joinParts t.total 0 t.parts with
    | some b => (some { p with account := p.account % 32768, payload := b }, modFab (fun f => { f with trains := others }) s)
    | none => (none, modFab (fun f => { f with trains := others ++ [t] }) s)

/-! ### Per-pair order (16 R611) -/

def pairOf (s : State) (peer : Nat) : Pair := mgetD s.fab.pairs peer {}
def modPair (peer : Nat) (f : Pair → Pair) (s : State) : State :=
  modFab (fun x => { x with pairs := mmod x.pairs peer {} f }) s

/-- Send a VC0 request for an entry or a context that waits: it takes the pair's next number, is kept until acknowledged and
awaits its answer. -/
def sendReqFor (p : Packet) (who : Option Nat) (ctx : Option (Nat × Nat × Nat)) (s : State) : State :=
  let n := (pairOf s p.dst).txNext
  let q := { p with pairSeq := n, src := s.fab.id }
  let r : PairReq := { seq := n, sent := now s, first := now s, pkt := q, who := who, ctx := ctx }
  sendAll q (modPair p.dst (fun x => { x with
    txNext := (n + 1) % 2 ^ 32, unacked := x.unacked ++ [r], asked := x.asked ++ [r] }) s)

/-- Send a VC0 request that no context waits for. -/
def sendReq (p : Packet) (who : Option Nat) (s : State) : State := sendReqFor p who none s

/-- Pages lent now: a lease reclaimed lends no more (12 R470). -/
def lentPages (s : State) : Nat := ((s.mem.lent.filter fun l => !l.2.reclaimed).map fun l => l.2.pages).sum

/-- Reclaim a lease: reads of it are refused from now on, and the borrower is told (12 R470; 16 R617). -/
def reclaimLease (n : Nat) (s : State) : State :=
  match mget s.mem.lent n with
  | some l =>
    if l.reclaimed then s
    else sendReq { ptype := 0x22, dst := l.peer, arg0 := BitVec.ofNat 32 n } none
      (modMem (fun m => { m with lent := mset m.lent n { l with reclaimed := true } }) s)
  | none => s

/-- An answer to a request: on VC1, naming its number, a status in arg0 (16 R620). -/
def answerTo (p : Packet) (pt status : Nat) (arg1 : Nat := 0) (payload : Bytes := []) : Packet :=
  { ptype := pt, account := p.account % 4096, dst := p.src, src := p.dst, pairSeq := p.pairSeq
    arg0 := BitVec.ofNat 32 status, arg1 := BitVec.ofNat 64 arg1, payload := payload }

/-- Whether a VC0 request is a read, of which a duplicate executes again (16 R611). -/
def isRead (pt : Nat) : Bool := pt == 0x03

/-- Send the answer to a request and keep it among the pair's last 64 (16 R611). -/
def sendAns (p : Packet) (a : Packet) (s : State) : State :=
  let s1 := if vcOf p.ptype = 0 && !isRead p.ptype then
      modPair p.src (fun x => { x with saved := ((p.pairSeq, a) :: x.saved).take 64 }) s
    else s
  sendAll a s1

/-- The status answer of a refused or finished request. -/
def sendStatus (p : Packet) (status : Nat) (s : State) : State := sendAns p (answerTo p 0x81 status) s

/-- Acknowledge a pair's requests up to a number (16 R611, R618). -/
def sendAck (peer seq : Nat) (s : State) : State :=
  sendPacket { ptype := 0x30, dst := peer, pairSeq := seq } s

/-- Execute the early requests whose turn has come, in order. -/
def runEarly (run : Packet → State → State) (peer : Nat) : Nat → State → State
  | 0, s => s
  | n + 1, s =>
    let pr := pairOf s peer
    match pr.early.find? fun q => q.pairSeq == pr.rxNext with
    | none => s
    | some q =>
      runEarly run peer n (sendAck peer q.pairSeq (run q (modPair peer (fun x => { x with
        rxNext := (x.rxNext + 1) % 2 ^ 32, early := x.early.filter fun y => y.pairSeq != q.pairSeq }) s)))

/-- Whether a number lies behind another on the 32-bit circle. -/
def seqBehind (a b : Nat) : Bool := decide ((b + 2 ^ 32 - a) % 2 ^ 32 ≤ 2 ^ 31) && a != b

/-- A whole VC0 request arrives (16 R611, R621): GONE once the module is leaving; a duplicate of a read executes again and
of another resends its saved answer; an early one is held, at most 64; one in turn executes and is acknowledged. -/
def receiveReq (run : Packet → State → State) (p : Packet) (s : State) : State :=
  let pr := pairOf s p.src
  if s.fab.state = .leaving then sendAll (answerTo p 0x81 Status.gone) s
  else if p.pairSeq = pr.rxNext then
    runEarly run p.src 64 (sendAck p.src p.pairSeq (run p (modPair p.src (fun x => { x with
      rxNext := (x.rxNext + 1) % 2 ^ 32 }) s)))
  else if seqBehind p.pairSeq pr.rxNext then
    if isRead p.ptype then run p s
    else match pr.saved.find? fun e => e.1 == p.pairSeq with
      | some e => sendAll e.2 s
      | none => s
  else if pr.early.any fun q => q.pairSeq == p.pairSeq then s
  else if pr.early.length < 64 then modPair p.src (fun x => { x with early := x.early ++ [p] }) s
  else s

/-- Whether the module takes packets other than link-local ones addressed to it (16 R602). -/
def onFabric (s : State) : Bool := s.fab.state == .admitted || s.fab.state == .leaving

/-- A packet of a type arrives: one for another module is passed on; one for this module acts once its train is whole. -/
def arrive (pt : Nat) (act : Packet → State → State) (p : Packet) (s : State) : State :=
  let q := { p with ptype := pt }
  if q.dst ≠ s.fab.id then (if onFabric s then forward q s else s)
  else if !onFabric s then s
  else
    match gatherTrain q (modFab (fun f => { f with delivered := f.delivered.erase q }) s) with
    | (some w, t) => act w t
    | (none, t) => t

end Sys2Proof.Machine
end

