-- ==== Sys2Proof/Machine/FlashMap.lean ====
section
/-! DEFINITION. The flash hubs' map of logical units to blocks: partitions and their blocks, free blocks and the reserve,
what a write of collections and tables programs, and the protected buffers (13 R479 to R487, R497, R499, R504). -/

namespace Sys2Proof.Machine

/-! ### Partitions (13 R479 to R483, R501) -/

/-- Flash dies per channel (02 R37). -/
def diesPerChannel : Nat := if Config.is131 then 8 else 16

/-- Sprint blocks on each die (13 R480). -/
def sprintPerDie (s : State) : Nat := 3808 * s.flash.sprintShare / 100

/-- Blocks of a partition on a channel: 0 sprint, 1 store (13 R480). -/
def channelBlocks (s : State) (part : Nat) : Nat :=
  diesPerChannel * (if part = 0 then sprintPerDie s else 3808 - sprintPerDie s)

/-- Initial spares of a partition on a channel (13 R482). -/
def initialSpares (s : State) (part : Nat) : Nat := channelBlocks s part * 4 / 100

/-- Bytes of a block (13 R483). -/
def blockBytes (part : Nat) : Nat := if part = 0 then 16777216 else 67108864

/-- Channels that are not retired (17 R657). -/
def liveChannels (s : State) : Nat := ((List.range 64).filter fun n => !(channelOf s n).retired).length

/-- Usable capacity of a partition in bytes (13 R483, 17 R657). -/
def usableBytes (s : State) (part : Nat) : Nat :=
  liveChannels s * ((channelBlocks s part - initialSpares s part) * blockBytes part) * 9 / 10

/-- Whether a partition is read-only. -/
def partRo (s : State) (part : Nat) : Bool := if part = 0 then s.flash.sprintRo else s.flash.storeRo

/-! ### Blocks of a partition's share of a channel (13 R479 to R482) -/

/-- The block of a share at a die and number, a fresh free one when not listed. -/
def blockAt (c : Channel) (part die num : Nat) : Block :=
  (c.blocks.find? fun b => b.part == part && b.die == die && b.num == num).getD { part := part, die := die, num := num }

/-- Replace a block. -/
def putBlock (b : Block) (c : Channel) : Channel :=
  { c with blocks := b :: c.blocks.filter fun x => !(x.part == b.part && x.die == b.die && x.num == b.num) }

/-- Block numbers of a partition on each die: 0 to 7 are the system area, then the sprint blocks (13 R479, R480). -/
def blockNums (s : State) (part : Nat) : List Nat :=
  if part = 0 then (List.range (sprintPerDie s)).map (· + 8)
  else (List.range (3808 - sprintPerDie s)).map (· + 8 + sprintPerDie s)

/-- Blocks of a share that are listed. -/
def listedBlocks (c : Channel) (part : Nat) : List Block := c.blocks.filter fun b => b.part == part

/-- Spares taken and left on a channel (13 R482, R495). -/
def sparesTaken (c : Channel) (part : Nat) : Nat := if part = 0 then c.sprintTaken else c.storeTaken
def sparesLeft (s : State) (ch part : Nat) : Nat := initialSpares s part - sparesTaken (channelOf s ch) part

/-- Free blocks of a share: all but its spares and the blocks that hold or have held units or are retired (13 R494). -/
def freeBlocks (s : State) (ch part : Nat) : Nat :=
  channelBlocks s part - sparesLeft s ch part - ((listedBlocks (channelOf s ch) part).filter fun b => b.state != .free).length

/-- The reserve of a share: the free blocks that a channel's eighth of the hub's 32 MiB of protected buffers fills (13 R499,
R504). -/
def reserveBlocks (part : Nat) : Nat := (4194304 + blockBytes part - 1) / blockBytes part

/-- Whether a share has a free block that is not of its reserve (13 R499). -/
def hasFree (s : State) (ch part : Nat) : Bool := decide (reserveBlocks part < freeBlocks s ch part)

/-- A free block of a share: the spec does not name which one the hub takes, so it is an open choice among them
(assumption 23). -/
def pickFree (s : State) (ch part : Nat) : Nat × Nat :=
  let c := channelOf s ch
  let all := (List.range diesPerChannel).flatMap fun d => (blockNums s part).map fun n => (d, n)
  let free := all.filter fun p => (blockAt c part p.1 p.2).state == .free
  (free[(Config.free64 s.free).toNat % max 1 free.length]?).getD (0, 8)

/-- Flash time: that of the last module reset and the seconds since (13 R493; assumption 43). -/
def flashNow (s : State) : Nat := s.flash.flashTime + now s / 10 ^ 9

/-! ### Logical units (13 R485, R486) -/

/-- A logical unit's number: what it belongs to, the object, its part, its index in that region.  Kinds: 0 node pages, 1 item
records, 2 stored vectors, 3 text, 4 centroid lists, 5 the commit log, 6 a collection's rotation, codebooks and centroids, 7 the
frames of a table's version. -/
def unitKey (kind obj sub idx : Nat) : Nat := idx % 2 ^ 44 + 2 ^ 44 * (sub % 2 ^ 32 + 2 ^ 32 * (obj % 2 ^ 40 + 2 ^ 40 * kind))

/-- A write of one unit: its partition, channel and number, and whether it writes the whole unit. -/
structure UnitWrite where
  part : Nat
  ch : Nat
  key : Nat
  whole : Bool
deriving DecidableEq, Repr

/-- The channel of a store unit: a region's units are striped over the channels in unit order, under its channel map (13, after
R487). -/
def storeChannel (m : List Nat) (k : Nat) : Nat := (m[k % 64]?).getD 0

/-- The 16 KiB units that a byte range of a region meets, two where it spans two (13 R486). -/
def rangeUnits (off len : Nat) : List Nat :=
  if len = 0 then [] else (List.range ((off + len - 1) / 16384 + 1 - off / 16384)).map fun k => off / 16384 + k

/-- The writes of a byte range of a store region. -/
def rangeWrites (m : List Nat) (kind obj sub off len : Nat) : List UnitWrite :=
  (rangeUnits off len).map fun k =>
    { part := 1, ch := storeChannel m k, key := unitKey kind obj sub k
      whole := decide (off ≤ 16384 * k) && decide (16384 * (k + 1) ≤ off + len) }

/-- What a collection's change writes (07 R242 to R244, R250; 13 R485, R486): the pages of the nodes that changed, the records of
the items that did, and of a new item the vector, the text and its entry in the centroid's list. -/
def collWrites (c d : Collection) : List UnitWrite :=
  let b := d.desc.idBase
  let pages := ((d.nodes.filter fun x => mget c.nodes x.1 != some x.2).map fun x => d.pageNo x.1).foldl (fun l p => insertNum p l) []
  let items := d.items.filter fun x => mget c.items x.1 != some x.2
  (pages.map fun p => { part := 0, ch := (d.cmap[p % 64]?).getD 0, key := unitKey 0 b 0 p, whole := true }) ++
  items.flatMap fun x =>
    rangeWrites d.regionMap 1 b 0 (d.recordAt x.1) (16 + d.desc.pqM) ++
      (if mhas c.items x.1 then []
       else rangeWrites d.regionMap 2 b 0 (d.vectorAt x.1) x.2.vec.length ++
         rangeWrites d.regionMap 3 b 0 (16 * x.2.textAt) x.2.blob.length ++
         rangeWrites d.regionMap 4 b x.2.centroid (8 * (mgetD c.members x.2.centroid []).length) 8)

/-- The write of a record to a collection's commit log (07 R251, R252). -/
def logWrites (c : Collection) (epoch : Nat) : List UnitWrite := rangeWrites c.regionMap 5 c.desc.idBase 0 (16 * epoch) 16

/-- Bytes of a row as a table stores it (11 R393). -/
def slotBytesOf (fmt n : Nat) : Nat := roundUp (vecBytes fmt n) 16

/-- Whole rows in a frame of tier-3 table data (12, The byte-plane format). -/
def rowsPerFrame (t : Table) : Nat := max 1 (16384 / slotBytesOf t.fmt t.rowElems)

/-- Room of a frame: the longest one, in whole lines. -/
def frameRoom : Nat := 16512

/-- What writing some rows of a table's version programs: their frames, each at a place with room for the longest (13 R486; where
a region's frames lie is open: DESIGN CHOICE, log entry 59). -/
def rowWrites (slot v : Nat) (t : Table) (rows : List Nat) : List UnitWrite :=
  ((rows.map fun r => r / rowsPerFrame t).foldl (fun l k => insertNum k l) []).flatMap fun k =>
    rangeWrites t.regionMap 7 slot v (frameRoom * k) frameRoom

/-! ### Programming (13 R485 to R487, R497, R504) -/

/-- Whether a unit has a map entry or waits in a buffer. -/
def unitMapped (s : State) (key : Nat) : Bool :=
  (s.flash.buffered.any fun b => b.2.2 == key) || s.flash.channels.any fun c => c.2.blocks.any fun b => b.units.contains key

/-- A unit's map entry leaves its old place (13 R485, R487). -/
def unmapUnit (key : Nat) (s : State) : State :=
  modFlash (fun f => { f with
    buffered := f.buffered.filter fun b => b.2.2 != key
    channels := mmap f.channels fun _ c => { c with blocks := c.blocks.map fun b => { b with units := b.units.filter (· != key) } } }) s

/-- Count unit programs and unit reads. -/
def countPrograms (n : Nat) (s : State) : State := evCount 9 2 n (modFlash (fun f => { f with programs := f.programs + n }) s)
def countReads (n : Nat) (s : State) : State := evCount 9 1 n (modFlash (fun f => { f with reads := f.reads + n }) s)

/-- A block with one more unit programmed: its 4,096th closes it (13 R493). -/
def fillBlock (s : State) (key : Nat) (b : Block) : Block :=
  { b with units := b.units ++ [key], used := b.used + 1, closedAt := flashNow s
           state := if b.used + 1 = 4096 then .closed else .filling }

/-- Whether the hub of a channel restarts: what is addressed to it waits (17 R654). -/
def hubWaits (s : State) (ch : Nat) : Bool := s.boot.hubRestart.contains (ch / 8)

/-- Program a unit into the block that its share fills, or into a free one; without any the unit waits in the hub's protected
buffer, as it does while its hub restarts (17 R654).  The reserve is for the transition of R500 (13 R499). -/
def programUnit (useReserve : Bool) (part ch key : Nat) (s : State) : State :=
  if hubWaits s ch then modFlash (fun f => { f with buffered := f.buffered ++ [(part, ch, key)] }) s
  else match (listedBlocks (channelOf s ch) part).find? fun b => b.state == .filling with
  | some b => countPrograms 1 (modChannel ch (putBlock (fillBlock s key b)) s)
  | none =>
    if hasFree s ch part || (useReserve && decide (0 < freeBlocks s ch part)) then
      let p := pickFree s ch part
      countPrograms 1 { modChannel ch (putBlock (fillBlock s key (blockAt (channelOf s ch) part p.1 p.2))) s with free := s.free + 1 }
    else modFlash (fun f => { f with buffered := f.buffered ++ [(part, ch, key)] }) s

/-- A write of a unit that its hub accepts (13 R486, R504): one of less than a unit that is mapped reads it first and merges. -/
def acceptWrite (w : UnitWrite) (s : State) : State :=
  let s1 := if w.whole || !unitMapped s w.key then s else countReads 1 s
  programUnit false w.part w.ch w.key (unmapUnit w.key s1)

/-- Accept some writes. -/
def acceptWrites (l : List UnitWrite) (s : State) : State := foldS l (fun t w => acceptWrite w t) s

/-- Program what a share's buffers hold, as far as it can. -/
def drainBuffers (useReserve : Bool) (ch part : Nat) (s : State) : State :=
  let l := s.flash.buffered.filter fun b => b.1 == part && b.2.1 == ch
  foldS l (fun t b => programUnit useReserve part ch b.2.2 t)
    (modFlash (fun f => { f with buffered := f.buffered.filter fun b => !(b.1 == part && b.2.1 == ch) }) s)

/-- Whether the object of a unit is still held: its collection, or a version of its table that stores or shares it (11 R403). -/
def unitLive (o : Objects) (key : Nat) : Bool :=
  let kind := key / 2 ^ 116
  let obj := key / 2 ^ 76 % 2 ^ 40
  let sub := key / 2 ^ 44 % 2 ^ 32
  if kind = 7 then
    match mget o.tables obj with
    | some t => t.versions.any fun v => v.1 == sub || v.2.shares.contains sub
    | none => false
  else o.collections.any fun c => c.2.desc.idBase == obj

/-- Units of objects that are gone hold nothing. -/
def dropDeadUnits (s : State) : State :=
  modFlash (fun f => { f with
    buffered := f.buffered.filter fun b => unitLive s.obj b.2.2
    channels := mmap f.channels fun _ c => { c with blocks := c.blocks.map fun b => { b with units := b.units.filter (unitLive s.obj) } } }) s

end Sys2Proof.Machine
end

