-- ==== Sys2Proof/Machine/Text.lean ====
section
/-! DEFINITION. Text (06_text_and_tokens): reading a tokenizer object, UTF-8 units, pre-tokenization, merging, stop sets
and the detokenizer. -/

namespace Sys2Proof.Machine

/-! ### Reading a tokenizer object (06 R188 to R196, R778) -/

/-- A terminal node found in the trie: its offset in words, token ID, special, byte string. -/
structure TrieTerm where
  off : Nat
  id : Nat
  special : Bool
  str : Bytes
deriving DecidableEq, Repr

/-- A node still to be read: offset, expected in_byte, expected parent offset, string so far, parent is a path node. -/
structure TrieTodo where
  off : Nat
  inByte : Nat
  parent : Nat
  str : Bytes
  underPath : Bool
deriving DecidableEq, Repr

/-- Word `i` of the trie section. -/
def trieWord (t : Bytes) (i : Nat) : Nat := rd t (4 * i) 4

/-- The bytes set in a 32-byte bitmap, rising. -/
def bitmapBytes (bm : Bytes) : List Nat := (List.range 256).filter fun b => (rd bm (b / 8) 1).testBit (b % 8)

/-- Whether numbers rise strictly. -/
def strictlyRising : List Nat → Bool
  | [] => true
  | [_] => true
  | a :: b :: l => decide (a < b) && strictlyRising (b :: l)

/-- One node: the words it occupies, its terminal if it is one, its children; none when it breaks the encoding. -/
def readTrieNode (t : Bytes) (d : TrieTodo) : Option (Nat × Option TrieTerm × List TrieTodo) :=
  let nw := t.length / 4
  let w0 := trieWord t d.off
  let w1 := trieWord t (d.off + 1)
  let term := w0.testBit 0
  let spec := w0.testBit 1
  let form := bitsOf w0 3 2
  let n := bitsOf w0 8 4
  let tw := trieWord t (d.off + 2)
  let pos := d.off + 2 + b2n term
  let lab := (t.drop (4 * pos)).take (n + 1)
  let labWords := (n + 4) / 4
  let padOk (k w : Nat) : Bool := ((t.drop (4 * pos + k)).take (4 * w - k)).all (· == 0)
  let edges : List (Bytes × Nat) × Nat :=
    match form with
    | 0 => ([], 0)
    | 1 => (lab.map fun b => ([b], b.toNat), labWords)
    | 2 => ((bitmapBytes ((t.drop (4 * pos)).take 32)).map fun b => ([BitVec.ofNat 8 b], b), 8)
    | _ => ([(lab, 0)], labWords)
  let size := 2 + b2n term + edges.2 + edges.1.length
  let kids := (withPos edges.1).map fun e =>
    (trieWord t (pos + edges.2 + e.1), e.2)
  let ok :=
    decide (d.off + size ≤ nw) && (w0 &&& 0xFF00FE00 == 0) && (!spec || term) && (bitsOf w0 23 16 == d.inByte) &&
    (w1 == d.parent) && !(d.underPath && form == 3) && !(term && d.off == 0) && (!term || decide (tw < 2 ^ 20)) &&
    decide (d.str.length ≤ 256) && kids.all (fun k => decide (k.1 < 2 ^ 28)) &&
    (match form with
     | 0 => (n == 0) && term
     | 1 => decide (n < 16) && strictlyRising (lab.map (·.toNat)) && padOk (n + 1) labWords
     | 2 => (n == 0) && decide (17 ≤ edges.1.length)
     | _ => padOk (n + 1) labWords)
  if ok then
    some (size, (if term then some ⟨d.off, tw % 2 ^ 20, spec, d.str⟩ else none),
      kids.map fun k => ⟨k.1, k.2.2, d.off, d.str ++ k.2.1, form == 3⟩)
  else none

/-- Walk the trie: every reached node once, sharing no word (06 R778); none when it breaks the encoding.  Each node takes
at least two words, so the fuel of one per word is never short on a valid trie. -/
def readTrie (t : Bytes) : Nat → List TrieTodo → List (Nat × Nat) → List TrieTerm → Option (List TrieTerm)
  | _, [], _, acc => some acc
  | 0, _ :: _, _, _ => none
  | fuel + 1, d :: todo, used, acc =>
    match readTrieNode t d with
    | none => none
    | some (size, term, kids) =>
      if used.any fun u => decide (u.1 < d.off + size) && decide (d.off < u.1 + u.2) then none
      else readTrie t fuel (kids ++ todo) ((d.off, size) :: used) (term.toList ++ acc)

/-- Whether ranges (offset, length) of non-zero length overlap one another. -/
def rangesOverlap : List (Nat × Nat) → Bool
  | [] => false
  | r :: rs =>
    (rs.any fun q => decide (0 < r.2) && decide (0 < q.2) && decide (r.1 < q.1 + q.2) && decide (q.1 < r.1 + r.2)) ||
      rangesOverlap rs

/-- The bits of the 64-byte tokenizer header that may be set (06 R188). -/
def tokHeaderMask : List Nat :=
  maskOf 64 [(0, 4, all64), (4, 2, all64), (6, 1, 0xFF), (7, 1, 1), (8, 8, all64), (16, 8, all64), (24, 8, all64),
    (32, 8, all64), (40, 8, all64), (48, 4, 0x800FFFFF), (52, 4, 0x800FFFFF), (56, 4, 0x800FFFFF), (60, 4, 0x800FFFFF)]

/-- Whether a merge's result spells left then right, and none of the three is special or outside the vocabulary, and its
pair is new (06 R191). -/
def mergesOk (vocab : Map Token) : List (Nat × Nat) → List (Nat × Nat × Nat) → Bool
  | _, [] => true
  | seen, (a, b, c) :: ms =>
    (match mget vocab a, mget vocab b, mget vocab c with
     | some x, some y, some z => !x.special && !y.special && !z.special && z.bytes == x.bytes ++ y.bytes
     | _, _, _ => false) && !seen.contains (a, b) && mergesOk vocab ((a, b) :: seen) ms

/-- Read a tokenizer object; none for any case of R191 that the object alone decides. -/
def parseTokenizer (o : Bytes) : Option Tokenizer :=
  let f (off n : Nat) := rd o off n
  let vs := f 12 4
  let nm := f 16 4
  let tl := f 20 4
  let mo := f 24 8
  let textOff := f 32 8
  let ro := f 40 8
  let secs := [(mo, 8 * nm), (textOff, tl), (ro, 4 * vs)]
  let eosW := [f 48 4, f 52 4, f 56 4, f 60 4]
  let headOk :=
    decide (64 ≤ o.length) && (f 0 4 == 0x4B544F4B) && (f 4 2 == 1) && decide (f 6 1 ≤ 1) &&
    (offending 0 (o.take 64) tokHeaderMask).isNone && (f 8 4 != 0) && decide (257 ≤ vs) && decide (vs ≤ 1048576) &&
    decide (nm ≤ 2097152) && (tl % 4 == 0) && decide (tl ≤ 2 ^ 30) &&
    secs.all (fun s => (s.1 % 64 == 0) && decide (s.1 + s.2 ≤ o.length)) && !rangesOverlap ((0, 64) :: secs) &&
    eosW.all (fun w => if w.testBit 31 then decide (w % 2 ^ 20 < vs) else w == 0)
  if headOk then
    let t := (o.drop textOff).take tl
    match readTrie t (tl / 4) [⟨0, 0, 0, [], false⟩] [] [] with
    | none => none
    | some terms =>
      let vocab : Map Token := terms.foldl (fun m x => mset m x.id ⟨x.str, x.special⟩) []
      let rindexOk := (List.range vs).all fun i =>
        terms.any fun x => x.off == f (ro + 4 * i) 4 && x.id == i
      let bytesOk := (List.range 256).all fun b =>
        terms.any fun x => !x.special && x.str == [BitVec.ofNat 8 b]
      let merges := (List.range nm).map fun i =>
        let w := f (mo + 8 * i) 8
        (bitsOf w 19 0, bitsOf w 39 20, bitsOf w 59 40)
      let mergeRes := (List.range nm).all fun i => decide (f (mo + 8 * i) 8 < 2 ^ 60)
      if terms.all (fun x => decide (x.id < vs) && decide (x.str ≠ [])) && (vocab.length == terms.length) && rindexOk &&
          bytesOk && mergeRes && mergesOk vocab [] merges then
        some { id := f 8 4, pretok := f 6 1, digitGroups := (f 7 1).testBit 0, vocab := vocab, vocabSize := vs,
               merges := merges, eos := (eosW.filter fun w => w.testBit 31).map fun w => w % 2 ^ 20, digest := Config.sha512 o }
      else none
  else none

/-! ### UTF-8 (06 R198) -/

/-- The allowed ranges of the bytes that follow a lead byte; none for a byte that starts no sequence. -/
def leadRanges (b : Nat) : Option (List (Nat × Nat)) :=
  let c := (0x80, 0xBF)
  if b < 0x80 then some []
  else if b < 0xC2 then none
  else if b < 0xE0 then some [c]
  else if b = 0xE0 then some [(0xA0, 0xBF), c]
  else if b = 0xED then some [(0x80, 0x9F), c]
  else if b < 0xF0 then some [c, c]
  else if b = 0xF0 then some [(0x90, 0xBF), c, c]
  else if b < 0xF4 then some [c, c, c]
  else if b = 0xF4 then some [(0x80, 0x8F), c, c]
  else none

/-- How many of the following bytes fit their ranges, and whether the input ended before one failed. -/
def followLen : List (Nat × Nat) → Bytes → Nat × Bool
  | [], _ => (0, false)
  | _ :: _, [] => (0, true)
  | r :: rs, b :: bs =>
    if r.1 ≤ b.toNat ∧ b.toNat ≤ r.2 then let x := followLen rs bs; (x.1 + 1, x.2) else (0, false)

/-- The next unit of non-empty input: its length, whether it is well-formed, whether it could still become so. -/
def utf8Next (b : Byte) (bs : Bytes) : Nat × Bool × Bool :=
  match leadRanges b.toNat with
  | none => (1, false, false)
  | some rs =>
    let x := followLen rs bs
    (x.1 + 1, x.1 == rs.length, x.2)

/-- The code point a well-formed sequence spells. -/
def utf8Cp (l : Bytes) : Nat :=
  match l with
  | [a] => a.toNat
  | [a, b] => a.toNat % 32 * 64 + b.toNat % 64
  | [a, b, c] => a.toNat % 16 * 4096 + b.toNat % 64 * 64 + c.toNat % 64
  | [a, b, c, d] => a.toNat % 8 * 262144 + b.toNat % 64 * 4096 + c.toNat % 64 * 64 + d.toNat % 64
  | _ => 0

/-- Cut input into units; with `final` unset an incomplete sequence at the end is left over (06 R202). -/
def utf8Units (final : Bool) : Nat → Bytes → List TUnit × Bytes
  | 0, l => ([], l)
  | _ + 1, [] => ([], [])
  | fuel + 1, b :: bs =>
    let x := utf8Next b bs
    if x.2.2 && !final && !x.2.1 then ([], b :: bs)
    else
      let here := (b :: bs).take x.1
      let r := utf8Units final fuel ((b :: bs).drop x.1)
      if x.2.1 then (⟨here, some (utf8Cp here), false⟩ :: r.1, r.2)
      else ((withPos here).map (fun e => ⟨[e.2], none, e.1 == 0⟩) ++ r.1, r.2)

/-- The units of a whole input. -/
def unitsOf (final : Bool) (l : Bytes) : List TUnit × Bytes := utf8Units final (l.length + 1) l

/-- Bytes in maximal subparts (06 R199). -/
def invalidCount (us : List TUnit) : Nat := (us.filter fun u => u.cp.isNone).length

/-- The offset of the first maximal subpart (06 R199 REJECT, R200). -/
def firstInvalid : Nat → List TUnit → Option Nat
  | _, [] => none
  | n, u :: us => if u.cp.isNone then some n else firstInvalid (n + u.bytes.length) us

/-! ### Pre-tokenization (06 R199, R204 to R206) -/

/-- A pre-tokenization item: a special token, a byte by itself, or a code point of text. -/
inductive TItem where
  | special (id : Nat)
  | byte (b : Byte)
  | text (cp : Nat) (bytes : Bytes)
deriving DecidableEq, Repr

/-- How many units a byte string spans exactly from here, none when it does not end on a boundary. -/
def spansUnits : Bytes → List TUnit → Option Nat
  | [], _ => some 0
  | _ :: _, [] => none
  | s, u :: us =>
    if u.bytes.isPrefixOf s && !u.bytes.isEmpty then (spansUnits (s.drop u.bytes.length) us).map (· + 1) else none

/-- The longest special token that starts here and ends on a code-point boundary: its ID and units (06 R204). -/
def matchSpecial (tk : Tokenizer) (us : List TUnit) : Option (Nat × Nat) :=
  ((sortBy (fun a b => decide (b.2.bytes.length < a.2.bytes.length)) (tk.vocab.filter fun e => e.2.special)).findSome?
    fun e => (spansUnits e.2.bytes us).map fun n => (e.1, n))

/-- Whether a special token may start here whose end has not arrived: it runs past the decided units and agrees with every
byte there is (06 R203). -/
def matchOpen (tk : Tokenizer) (carry : Bytes) (us : List TUnit) : Bool :=
  let here := us.flatMap (·.bytes)
  let all := here ++ carry
  tk.vocab.any fun e => e.2.special && decide (here.length < e.2.bytes.length) && (all.isPrefixOf e.2.bytes || e.2.bytes.isPrefixOf all)

/-- What a pass over units leaves: items, the units of a match still in progress, and whether the last subpart has its U+FFFD. -/
structure Cut where
  items : List TItem
  units : List TUnit := []
  rep : Bool
deriving DecidableEq, Repr

/-- One more item before the others. -/
def Cut.after (i : TItem) (c : Cut) : Cut := { c with items := i :: c.items }

/-- Items of units under a policy (06 R197, R199, R204), up to a special-token match that is still in progress unless the
input has ended.  `rep`: the subpart's U+FFFD is already there. -/
def textItems (tk : Tokenizer) (opts : Nat) (final : Bool) (carry : Bytes) : Nat → Bool → List TUnit → Cut
  | 0, rep, _ => ⟨[], [], rep⟩
  | _ + 1, rep, [] => ⟨[], [], rep⟩
  | fuel + 1, rep, u :: us =>
    if opts.testBit 2 && !final && matchOpen tk carry (u :: us) then ⟨[], u :: us, rep⟩
    else
      match (if opts.testBit 2 then matchSpecial tk (u :: us) else none) with
      | some (id, n) => (textItems tk opts final carry fuel false ((u :: us).drop n)).after (.special id)
      | none =>
        match u.cp with
        | some c => (textItems tk opts final carry fuel false us).after (.text c u.bytes)
        | none =>
          if opts % 4 = 1 then
            if rep && !u.first then textItems tk opts final carry fuel true us
            else (textItems tk opts final carry fuel true us).after (.text 0xFFFD [0xEF, 0xBF, 0xBD])
          else (textItems tk opts final carry fuel false us).after (.byte (u.bytes.headD 0))

/-- The class of a code point: 0 L, 1 N, 2 S, 3 O (06 R205). -/
def cpClass (c : Nat) : Nat :=
  if isSpaceCp c then 2 else if inRanges c letterRanges then 0 else if inRanges c numberRanges then 1 else 3

/-- Maximal runs of one class (06 R205). -/
def classRuns : List (Nat × Bytes) → List (Nat × List (Nat × Bytes))
  | [] => []
  | x :: l =>
    match classRuns l with
    | (k, r) :: rs => if k = cpClass x.1 then (k, x :: r) :: rs else (cpClass x.1, [x]) :: (k, r) :: rs
    | [] => [(cpClass x.1, [x])]

/-- Groups of three (06 R205 rule 2). -/
def groups3 {α : Type} : Nat → List α → List (List α)
  | 0, _ => []
  | n + 1, l => if l.isEmpty then [] else l.take 3 :: groups3 n (l.drop 3)

/-- The pieces of runs; `lead` is the space the last S run gives on (06 R205 rules 1 and 2). -/
def runPieces (digits : Bool) : List (Nat × Bytes) → List (Nat × List (Nat × Bytes)) → List (List (Nat × Bytes))
  | _, [] => []
  | lead, (k, run) :: rs =>
    if k = 2 ∧ (run.getLast?.map Prod.fst) = some 0x20 ∧ rs ≠ [] then
      (if 1 < run.length then [run.dropLast] else []) ++ runPieces digits (run.drop (run.length - 1)) rs
    else if k = 1 ∧ digits then
      match groups3 run.length run with
      | g :: gs => ((lead ++ g) :: gs) ++ runPieces digits [] rs
      | [] => runPieces digits [] rs
    else (lead ++ run) :: runPieces digits [] rs

/-- Cut a piece after the last whole code point that ends at or before byte 1,024 (06 R206). -/
def limitPiece : Bytes → List (Nat × Bytes) → List Bytes
  | cur, [] => if cur.isEmpty then [] else [cur]
  | cur, (_, b) :: l => if 1024 < cur.length + b.length then cur :: limitPiece b l else limitPiece (cur ++ b) l

/-- The pieces of a stretch of text (06 R205, R206). -/
def textPieces (tk : Tokenizer) (l : List (Nat × Bytes)) : List Bytes :=
  (if tk.pretok = 1 then runPieces tk.digitGroups [] (classRuns l) else [l]).flatMap (limitPiece [])

/-! ### Merging (06 R207) -/

/-- Rank and result of a pair. -/
def mergeLookup : List (Nat × Nat × Nat) → Nat → Nat → Nat → Option (Nat × Nat)
  | [], _, _, _ => none
  | (a, b, c) :: ms, r, x, y => if a = x ∧ b = y then some (r, c) else mergeLookup ms (r + 1) x y

/-- The best pair: rank, position, result; the lowest rank, leftmost on equal rank. -/
def bestMerge (ms : List (Nat × Nat × Nat)) : Nat → List Nat → Option (Nat × Nat × Nat)
  | _, [] => none
  | _, [_] => none
  | i, a :: b :: l =>
    let rest := bestMerge ms (i + 1) (b :: l)
    match mergeLookup ms 0 a b, rest with
    | none, r => r
    | some (k, c), none => some (k, i, c)
    | some (k, c), some (k2, p2, c2) => if k ≤ k2 then some (k, i, c) else some (k2, p2, c2)

/-- Merge until no pair merges. -/
def mergeLoop (ms : List (Nat × Nat × Nat)) : Nat → List Nat → List Nat
  | 0, l => l
  | fuel + 1, l =>
    match bestMerge ms 0 l with
    | none => l
    | some (_, p, c) => mergeLoop ms fuel (l.take p ++ c :: l.drop (p + 2))

/-- The one-byte token of a byte. -/
def byteToken (tk : Tokenizer) (b : Byte) : Nat :=
  ((tk.vocab.find? fun e => !e.2.special && e.2.bytes == [b]).map Prod.fst).getD 0

/-- The tokens of a piece (06 R207). -/
def pieceTokens (tk : Tokenizer) (p : Bytes) : List Nat := mergeLoop tk.merges p.length (p.map (byteToken tk))

/-- The tokens of the pieces that are closed and the open piece: a special token, an invalid byte or the end of the input closes
all of a stretch of text, and in a stretch that goes on the last piece is open (06 R203, R205, R206). -/
def itemTokens (tk : Tokenizer) (final : Bool) : List (Nat × Bytes) → List TItem → List Nat × Bytes
  | cur, [] =>
    let ps := textPieces tk cur.reverse
    if final then (ps.flatMap (pieceTokens tk), []) else (ps.dropLast.flatMap (pieceTokens tk), (ps.getLast?).getD [])
  | cur, .text c b :: l => itemTokens tk final ((c, b) :: cur) l
  | cur, .special id :: l =>
    let r := itemTokens tk final [] l
    ((textPieces tk cur.reverse).flatMap (pieceTokens tk) ++ id :: r.1, r.2)
  | cur, .byte b :: l =>
    let r := itemTokens tk final [] l
    ((textPieces tk cur.reverse).flatMap (pieceTokens tk) ++ byteToken tk b :: r.1, r.2)

/-- The code points of valid text. -/
def codePoints (b : Bytes) : List (Nat × Bytes) := (unitsOf true b).1.filterMap fun u => u.cp.map fun c => (c, u.bytes)

/-- A lane takes more of an input (06 R201 to R207): the tokens of the pieces that close, the bytes it finds in maximal
subparts, and its new state.  Under REJECT no token comes once a subpart is found (06 R200). -/
def feed (tk : Tokenizer) (opts : Nat) (final : Bool) (t : TextIn) (input : Bytes) : List Nat × Nat × TextIn :=
  let x := unitsOf final (t.carry ++ input)
  let us := t.units ++ x.1
  let c := textItems tk opts final x.2 (us.length + 1) t.rep us
  let r := itemTokens tk final (codePoints t.piece).reverse c.items
  let bad := if opts % 4 = 2 then t.reject <|> firstInvalid t.off x.1 else none
  (if bad.isSome then [] else r.1, invalidCount x.1,
    { piece := r.2, units := c.units, carry := x.2, rep := c.rep
      off := t.off + (t.carry.length + input.length - x.2.length), reject := bad })

/-- Tokenize a whole input: its invalid-byte count, and its tokens or the offset at which REJECT refuses it (06 R199 to R207). -/
def tokenize (tk : Tokenizer) (opts : Nat) (input : Bytes) : Nat × Except Nat (List Nat) :=
  let r := feed tk opts true {} input
  (r.2.1, match r.2.2.reject with | some off => .error off | none => .ok r.1)

/-! ### Stop sets (06 R209) -/

/-- The lowest byte at which a stop set of 1,088 bytes is invalid. -/
def stopSetFault (b : Bytes) : Option Nat :=
  let n := rd b 0 1
  let base := offending 0 (b.take 1088) (maskOf 16 [(0, 1, 0xFF), (1, 1, 7)] ++ maskOf 16 [(0, 16, 2 ^ 128 - 1)] ++
    maskOf 32 [] ++ List.replicate 1024 255)
  let lens := (List.range 16).map fun j =>
    let l := rd b (16 + j) 1
    offIf (if j < n then decide (l = 0) || decide (64 < l) else decide (l ≠ 0)) (16 + j)
  let pads := (List.range 16).map fun j =>
    let l := if j < n then rd b (16 + j) 1 else 0
    ((List.range 64).find? fun k => decide (l ≤ k) && rd b (64 + 64 * j + k) 1 != 0).map fun k => 64 + 64 * j + k
  lowest ([offIf (decide (16 < n)) 0, base] ++ lens ++ pads)

/-- The stop set that valid bytes spell. -/
def stopSetOf (b : Bytes) : StopSet :=
  { stops := (List.range (rd b 0 1)).map fun j => (b.drop (64 + 64 * j)).take (rd b (16 + j) 1)
    includeStop := (rd b 1 1).testBit 0, raw := (rd b 1 1).testBit 1, skipSpecial := (rd b 1 1).testBit 2 }

/-- A stop set as bytes (06 R209). -/
def stopSetBytes (x : StopSet) : Bytes :=
  leBytes 1 x.stops.length ++ leBytes 1 (b2n x.includeStop + 2 * b2n x.raw + 4 * b2n x.skipSpecial) ++ zeros 14 ++
    padTo (x.stops.map fun s => BitVec.ofNat 8 s.length) 16 ++ zeros 32 ++ padTo (x.stops.flatMap fun s => padTo s 64) 1024

/-! ### Detokenization (06 R210 to R218) -/

/-- The bytes a token adds to G (06 R210). -/
def tokenBytes (tk : Tokenizer) (st : StopSet) (t : Nat) : Bytes :=
  match mget tk.vocab t with
  | none => []
  | some v => if tk.eos.contains t || (st.skipSpecial && v.special) then [] else v.bytes

/-- The least start of an occurrence of `s` in `g` that ends after `base`. -/
def occurrence (g s : Bytes) (base : Nat) : Option Nat :=
  (List.range (g.length + 1)).find? fun i => decide (base < i + s.length) && s.isPrefixOf (g.drop i) && !s.isEmpty

/-- The winning stop: end, start, index (06 R211, R212). -/
def bestStop (g : Bytes) (base : Nat) (stops : List Bytes) : Option (Nat × Nat × Nat) :=
  let c := (withPos stops).filterMap fun e => (occurrence g e.2 base).map fun s => (s + e.2.length, s, e.1)
  (sortBy (fun a b => decide (a.1 < b.1) || (a.1 == b.1 && (decide (a.2.1 < b.2.1) ||
    (a.2.1 == b.2.1 && decide (a.2.2 < b.2.2))))) c).head?

/-- Length of the longest suffix of G that is a proper prefix of a stop string (06 R211). -/
def heldLen (g : Bytes) (stops : List Bytes) : Nat :=
  (((List.range 64).reverse.find? fun h =>
    decide (h ≤ g.length) && stops.any fun s => decide (h < s.length) && (g.drop (g.length - h)).isPrefixOf s)).getD 0

/-- The UTF-8 output stage (06 R215): bytes out, the incomplete tail held, invalid bytes counted. -/
def outStage (raw final : Bool) (tail rel : Bytes) : Bytes × Bytes × Nat :=
  if raw then (rel, [], 0)
  else
    let x := unitsOf final (tail ++ rel)
    (x.1.flatMap fun u => match u.cp with
      | some _ => u.bytes
      | none => if u.first then [0xEF, 0xBF, 0xBD] else [], x.2, invalidCount x.1)

/-- The detokenizer's state of a request. -/
structure Detok where
  out : Bytes
  rel : Nat
  tail : Bytes
  invalid : Nat
  stop : Option Nat := none
deriving DecidableEq, Repr

/-- One verified token (06 R211): the text released and the new state; `stop` names the winning stop string. -/
def detokPush (tk : Tokenizer) (st : StopSet) (t : Nat) (d : Detok) : Bytes × Detok :=
  let base := d.out.length
  let g := d.out ++ tokenBytes tk st t
  match bestStop g base st.stops with
  | some (e, s, j) =>
    let cut := if st.includeStop then e else s
    let x := outStage st.raw false d.tail ((g.take cut).drop d.rel)
    (x.1, ⟨g, max d.rel cut, x.2.1, d.invalid + x.2.2, some j⟩)
  | none =>
    let n := g.length - heldLen g st.stops
    let x := outStage st.raw false d.tail ((g.take n).drop d.rel)
    (x.1, ⟨g, max d.rel n, x.2.1, d.invalid + x.2.2, none⟩)

/-- Release what is held at a STOP, LENGTH or end-of-sequence finish (06 R217). -/
def detokFlush (st : StopSet) (d : Detok) : Bytes × Detok :=
  let x := outStage st.raw true d.tail (if d.stop.isSome then [] else d.out.drop d.rel)
  (x.1, { d with rel := d.out.length, tail := [], invalid := d.invalid + x.2.2 })

/-- Bytes held when a request ends without them (06 R218). -/
def heldBytes (d : Detok) : Nat := (d.out.length - d.rel) + d.tail.length

end Sys2Proof.Machine
end

