-- ==== Sys2Proof/Machine/ReqCore.lean ====
section
/-! DEFINITION. What requests, runs and steps share: units of the scheduler, table pins, key-value pages, batons, the
bytes of an entry and of a report, and the one way a request ends (10_generation, 14_tenancy_and_scheduling, 15 R582). -/

namespace Sys2Proof.Machine

/-! ### Units (14 R526, R528, R533, R534) -/

def acctVtime (s : State) (a : Nat) : Nat := ((mget s.sched.accounts a).map (·.vtime)).getD 0

/-- Least of a list, none for an empty one. -/
def minNat : List Nat → Option Nat
  | [] => none
  | x :: xs => match minNat xs with | none => some x | some y => some (min x y)

/-- Accounts a unit serves. -/
def SUnit.accounts (u : SUnit) : List Nat := u.members.map (·.2.1)

/-- The vtime a unit is ordered by (14 R527, R534). -/
def unitVtime (s : State) (u : SUnit) : Nat := (minNat (u.accounts.map (acctVtime s))).getD 0

/-- An account that gains a ready unit after having none is raised to the least vtime of its level (14 R533). -/
def raiseVtime (prio a : Nat) (s : State) : State :=
  let us := s.sched.units.map Prod.snd
  if us.any fun u => u.slots.isEmpty && u.accounts.contains a then s
  else
    let lvl := (us.filter fun u => u.prio == prio).flatMap (·.accounts)
    match minNat (lvl.map (acctVtime s)) with
    | none => s
    | some v => modAccount a (fun x => { x with vtime := max x.vtime v }) s

/-- The die mask of an account (14 R516). -/
def acctDies (s : State) (a : Nat) : Nat := ((mget s.sched.accounts a).map (·.record.dieMask)).getD 15

/-- Create a unit: the next number, ready now (14 R528). -/
def newUnit (kind : UnitKind) (members : List (Nat × Nat × Nat)) (prio image span sram dies : Nat) (s : State) :
    Nat × State :=
  let n := s.sched.nextUnit
  let s1 := foldS (members.map (·.2.1)) (fun t a => raiseVtime prio a t) s
  let u : SUnit := { kind := kind, members := members, prio := prio, image := image, span := span, sram := sram
                     dieMask := dies, readyTime := now s }
  (n, modSched (fun d => { d with nextUnit := n + 1, units := mset d.units n u }) s1)

/-- Remove a unit's contexts from the slots it holds; a slot left is placed on again from the next cycle (00 R776). -/
def freeSlots (u : Nat) (l : List (Nat × Nat)) (s : State) : State :=
  foldS l (fun t p => noteFreed (.slot p.1 p.2) <| modCluster p.1 (fun c => { c with
    slots := match mget c.slots p.2 with
      | some x => if x.unit = u then merase c.slots p.2 else c.slots
      | none => c.slots
    group := match c.group with
      | some g => if g.slot = p.2 then none else some g
      | none => none }) t) s

/-- Charge what a unit spends to its members in proportion to their positions (14 R545): the shares of a quantity. -/
def shares (q : Nat) (ps : List Nat) : List Nat :=
  let p := ps.sum
  let base := ps.map fun x => if p = 0 then 0 else q * x / p
  let left := q - base.sum
  (withPos base).map fun e => if e.1 < left then e.2 + 1 else e.2

/-- Members of a unit in entry order, with their shares of a quantity. -/
def unitShares (u : SUnit) (q : Nat) : List (Nat × Nat × Nat) :=
  let ms := sortBy (fun a b => decide (a.1 < b.1)) u.members
  (ms.zip (shares q (ms.map (·.2.2)))).map fun e => (e.1.1, e.1.2.1, e.2)

/-- Charge a quantity of a unit to its members (14 R543, R545). -/
def chargeUnit (u : SUnit) (q : Nat) (mk : Nat → Counters) (s : State) : State :=
  foldS (unitShares u q) (fun t e => charge e.1 (mk e.2.2) t) s

/-- Charge a quantity to the request that a search works for, or, from number 4,096 on, to the account of a shard query
(01 R36, 16 R610). -/
def chargeSearch (e : Nat) (c : Counters) (s : State) : State :=
  if e < 4096 then charge e c s
  else match mget s.search.shardWork (e - 4096) with
    | some w => chargeAcct w.acct c s
    | none => s

/-- Charge what a stage without an image spends on clusters: 128 cycles an issue slot, 64 bytes a line (14 R543); how much is
open (assumption 57). -/
def chargeStage (e stage : Nat) (ext : List Nat) (s : State) : State :=
  chargeSearch e { arrayCycles := 128 * Config.stageCost stage 0 ext, brixjoBytes := 64 * Config.stageCost stage 1 ext
                   flashReads := Config.stageCost stage 2 ext } s

/-- Rows selected, entries ranked and NaN entries met, in SEL_ROWS, SEL_ENTRIES, SEL_NAN and the page's events (09 R342,
20 R745). -/
def selectionRows (rows entries nan : Nat) (s : State) : State :=
  evCount 6 3 nan (evCount 6 2 entries (evCount 6 1 rows (modSearch (fun q => { q with
    selRows := q.selRows + rows, selEntries := q.selEntries + entries, selNan := q.selNan + nan }) s)))

/-- Units that serve an entry and no other. -/
def entryUnits (s : State) (e : Nat) : List (Nat × SUnit) :=
  s.sched.units.filter fun u => match u.2.kind with
    | .run k => k == e
    | .stage k _ => k == e
    | .step _ => false

/-- End a unit: it leaves its slots and its number is gone. -/
def endUnit (n : Nat) (s : State) : State :=
  match mget s.sched.units n with
  | none => s
  | some u => freeSlots n u.slots (modSched (fun d => { d with units := merase d.units n }) s)

/-- Contexts of a unit: those resident in its slots, or those saved. -/
def unitCtxs (s : State) (u : SUnit) : List Ctx :=
  if u.slots.isEmpty then u.saved.map Prod.snd else u.slots.filterMap fun p => mget (clusterOf s p.1).slots p.2

/-- Past its last operation. -/
def ctxDone (i : Option Image) (c : Ctx) : Bool :=
  match i with | none => true | some m => decide (m.ops.length ≤ c.pc)

/-- Whether a unit that was placed has run its image's operations to the end. -/
def unitDone (s : State) (u : SUnit) : Bool :=
  let cs := unitCtxs s u
  !cs.isEmpty && cs.all fun c => ctxDone (mget s.obj.images u.image) c && !c.waiting

/-- Each member of a unit waits on its own: the whole time is charged to each (14 R543). -/
def chargeWait (u : SUnit) (q : Nat) (s : State) : State :=
  foldS u.members (fun t m => charge m.1 { waitNs := q } t) s

/-- End the units of an entry's run or stages; one that is ready and not resident has waited until now (14 R543). -/
def endUnitsOf (e : Nat) (s : State) : State :=
  foldS (entryUnits s e) (fun t u => endUnit u.1 (if u.2.slots.isEmpty then chargeWait u.2 (now t - u.2.readyTime) t else t)) s

/-! ### Tables pinned (11 R399, R400, R405) -/

/-- The slot of a loaded table with an ID. -/
def tableSlot (s : State) (id : Nat) : Option Nat :=
  (s.obj.tables.find? fun t => t.2.id == id && !t.2.deleted).map Prod.fst

def modTable (slot : Nat) (f : Table → Table) (s : State) : State :=
  modObj (fun o => { o with tables := mupd o.tables slot f }) s

def modVersion (slot v : Nat) (f : Version → Version) (s : State) : State :=
  modTable slot (fun t => { t with versions := mupd t.versions v f }) s

/-- The CURRENT version of a table. -/
def currentVersion (t : Table) : Option Nat := (t.versions.find? fun v => v.2.cond == .current).map Prod.fst

/-- Whether a request or run here pins a version of the table in a slot. -/
def pinnedHere (s : State) (slot v : Nat) : Bool :=
  s.gen.entries.any fun e => !e.2.work.pagesReturned && e.2.work.pins.any fun p => p.1 == slot && p.2.1 == v && p.2.2.isNone

/-- Whether a request or run here pins a table. -/
def tableHeld (s : State) (slot : Nat) : Bool :=
  s.gen.entries.any fun e => !e.2.work.pagesReturned && e.2.work.pins.any fun p => p.1 == slot && p.2.2.isNone

/-- Check one binding against a loaded table (11 R399). -/
def bindStatus (acct : Nat) (b : TableBind) (fmt rowElems nRows owner : Nat) (shared addable : Bool) : Nat :=
  if fmt ≠ b.fmt ∨ rowElems ≠ b.rowElems ∨ nRows ≠ b.nRows then Status.tableInvalid
  else if (b.read && !shared && owner != acct) || (b.add && (!addable || shared || owner != acct)) then Status.notPermitted
  else Status.ok

/-- Check the local bindings of some images and the versions they pin: the first refusal, or the pins (11 R399, R400). -/
def checkBinds (s : State) (acct : Nat) : List TableBind → Except Nat (List (Nat × Nat × Option Nat))
  | [] => .ok []
  | b :: bs =>
    if b.isLocal then
      match tableSlot s b.table with
      | none => .error Status.tableInvalid
      | some k =>
        match mget s.obj.tables k with
        | none => .error Status.tableInvalid
        | some t =>
          let st := bindStatus acct b t.fmt t.rowElems t.nRows t.owner t.shared t.addable
          if st ≠ Status.ok then .error st
          else (checkBinds s acct bs).map fun r =>
            if r.any fun p => p.1 == k && p.2.2.isNone then r else (k, (currentVersion t).getD 0, none) :: r
    else checkBinds s acct bs

/-- Send the TABLE_PINs of remote bindings (11 R400, 16 R614). -/
def sendPins (e acct : Nat) (bs : List TableBind) (s : State) : State :=
  let remote := bs.filter fun b => !b.isLocal
  let s1 := modWork e (fun w => { w with pinsLeft := w.pinsLeft + remote.length }) s
  foldS remote (fun t b =>
    sendReq { ptype := 0x01, account := acct, dst := b.home, arg0 := BitVec.ofNat 32 b.table
              arg1 := BitVec.ofNat 64 (b2n b.read + 2 * b2n b.add) } (some e) t) s1

/-- Release an entry's remote pins (16 R614). -/
def sendUnpins (e : Nat) (s : State) : State :=
  match entryOf s e with
  | none => s
  | some x => foldS x.work.pins (fun t p =>
      match p.2.2 with
      | some peer => modFab (fun f => { f with remotePins := f.remotePins.erase (peer, p.1, p.2.1) })
          (sendReq { ptype := 0x02, account := x.account, dst := peer, arg0 := BitVec.ofNat 32 p.1
                     arg1 := BitVec.ofNat 64 p.2.1 } none t)
      | none => t) s

/-! ### Key-value pages (10 R349 to R353) -/

/-- The draft image of an entry. -/
def RtEntry.draftImage (x : RtEntry) : Nat := (x.work.profile.map (·.draft)).getD 0

/-- Pages of an image's pool reserved and not yet in a list. -/
def reservedOf (s : State) (h : Nat) : Nat :=
  (s.gen.entries.map fun e =>
    (if e.2.genImage = h then e.2.pagesRsvd else 0) + (if e.2.draftImage = h then e.2.draftRsvd else 0)).sum

/-- The free pages of a pool that were not freed in this cycle (10 R350, 00 R776). -/
def readyPages (s : State) (h : Nat) : List Nat :=
  (((mget s.obj.images h).map (·.freePages)).getD []).filter fun p => !justFreed s (.page h p)

/-- Pages a pool can still promise. -/
def poolFree (s : State) (h : Nat) : Nat := (readyPages s h).length - reservedOf s h

/-- The pages a request can ever need of a pool (10 R352). -/
def pagesNeeded (x : RtEntry) : Nat :=
  (min (x.promptLen + x.maxNew + x.draftLen) 262144 + 15) / 16 - x.batonPages

/-- Whether a baton or an entry other than `e` holds a page of an image's pool (10 R360). -/
def pageHeld (s : State) (h e page : Nat) : Bool :=
  (s.gen.batons.any fun b => b.2.image == h && b.2.pages.contains page) ||
  (s.gen.entries.any fun x => x.1 != e && !x.2.work.pagesReturned &&
    ((x.2.genImage == h && x.2.pages.contains page) || (x.2.draftImage == h && x.2.draftPages.contains page)))

/-- Return pages to a pool: what they held is gone, and they can be drawn from the next cycle (00 R776). -/
def returnPages (h : Nat) (ps : List Nat) (s : State) : State :=
  foldS ps (fun t p => noteFreed (.page h p) t) <|
    modObj (fun o => { o with images := mupd o.images h fun i =>
      { i with freePages := ps.foldl (fun l p => insertNum p l) i.freePages, kv := i.kv.filter fun k => !ps.contains k.1 } }) s

/-- Draw pages of a pool, the lowest first. -/
def drawPages (h n : Nat) (s : State) : List Nat × State :=
  let ps := (readyPages s h).take n
  (ps, modObj (fun o => { o with images := mupd o.images h fun i =>
    { i with freePages := i.freePages.filter fun p => !ps.contains p } }) s)

/-! ### Batons (10 R354 to R360) -/

/-- A baton's handle: slot [15:0], issue count [59:16] (10 R354). -/
def batonHandle (slot issue : Nat) : Nat := slot + 65536 * (issue % 2 ^ 44)

/-- The slot of the baton with a handle, live or released. -/
def batonSlot (s : State) (h : Nat) : Option Nat :=
  match mget s.gen.batons (h % 65536) with
  | some b => if batonHandle (h % 65536) b.issue = h then some (h % 65536) else none
  | none => none

/-- Drop a released baton that no one references: its pages that nothing else holds return (10 R359, R360). -/
def dropBaton (slot : Nat) (s : State) : State :=
  match mget s.gen.batons slot with
  | none => s
  | some b =>
    if b.live || b.refs ≠ 0 then s
    else
      let s1 := noteFreed (.baton slot) (modGen (fun g => { g with batons := merase g.batons slot }) s)
      returnPages b.image (b.pages.filter fun p => !pageHeld s1 b.image 4096 p) s1

/-- Release a baton (10 R359). -/
def releaseBaton (slot : Nat) (s : State) : State :=
  dropBaton slot (modGen (fun g => { g with batons := mupd g.batons slot fun b => { b with live := false } }) s)

/-- Release every live baton that passes a test. -/
def releaseBatons (p : Baton → Bool) (s : State) : State :=
  foldS ((s.gen.batons.filter fun b => b.2.live && p b.2).map Prod.fst) (fun t k => releaseBaton k t) s

/-- Return an entry's pages, reservations and baton reference (10 R384). -/
def returnEntry (e : Nat) (s : State) : State :=
  match entryOf s e with
  | none => s
  | some x =>
    if x.work.pagesReturned then s
    else
      let list := (List.range ((x.pages.length + 15) / 16)).map fun i => (Config.entryLine e 0).toNat + i
      let s1 := modMem (fun m => { m with lines := m.lines.filter fun l => !list.contains l.1 })
        (modEntry e (fun y => { y with pages := [], draftPages := [], pagesRsvd := 0, draftRsvd := 0
                                       work := { y.work with pagesReturned := true } }) s)
      let s2 := returnPages x.genImage (x.pages.filter fun p => !pageHeld s x.genImage e p) s1
      let s3 := returnPages x.draftImage (x.draftPages.filter fun p => !pageHeld s x.draftImage e p) s2
      match x.work.batonRef with
      | some k => dropBaton k (modGen (fun g => { g with batons := mupd g.batons k fun b => { b with refs := b.refs - 1 } }) s3)
      | none => s3

/-! ### The entry and the report as bytes (10 R346, 15 R582) -/

/-- The state code of R347. -/
def RtState.code : RtState → Nat
  | .pre => 1 | .reserve => 2 | .wait => 3 | .step => 4 | .drain => 5

/-- The 256 bytes of an entry (10 R346); the page list and the stop set lie where the module keeps them. -/
def entryBytes (e : Nat) (x : RtEntry) : Bytes :=
  let fl := b2n x.cancelPending + 2 * b2n x.speculative + 4 * b2n x.batonCreate + 8 * b2n x.batonHit +
    16 * b2n x.clamped + 32 * b2n x.wantTokens + 64 * b2n x.seedDrawn
  leBytes 1 x.state.code ++ leBytes 1 (x.prio % 4) ++ leBytes 2 (x.account % 4096) ++ leBytes 2 (x.fn % 1024) ++
    leBytes 2 (x.qp % 16384) ++ leBytes 8 x.tag ++ leBytes 8 x.deadline ++ leBytes 8 x.admitTime ++
    leBytes 8 x.cancelTime ++ leBytes 8 x.lastCommit ++ leBytes 1 (x.profile % 64) ++ leBytes 1 x.mode ++ leBytes 2 fl ++
    leBytes 2 x.finish ++ leBytes 1 (x.draftLen % 8) ++ zeros 1 ++ leBytes 4 x.genImage ++
    leBytes 4 (x.promptLen % 2 ^ 19) ++ leBytes 4 (x.prefilled % 2 ^ 19) ++ leBytes 4 (x.genLen % 2 ^ 19) ++
    leBytes 4 (x.maxNew % 2 ^ 19) ++ leBytes 4 x.stepSeq ++ leBytes 8 (64 * (Config.entryLine e 0).toNat) ++
    leBytes 2 x.pages.length ++ leBytes 2 x.pagesRsvd ++ leBytes 2 x.batonPages ++ zeros 2 ++ leBytes 8 x.baton ++
    leBytes 8 (64 * (Config.entryLine e 1).toNat) ++ leBytes 4 x.temperature.toNat ++ leBytes 4 (x.topP % 2 ^ 17) ++
    leBytes 2 (x.topK % 512) ++ zeros 6 ++ leBytes 8 x.seed ++ x.ctr.bytes ++ zeros 56

/-- Whether a mode of R19 searches. -/
def modeSearches (m : Nat) : Bool := decide (m ≤ 2)
/-- Whether a mode generates. -/
def modeGenerates (m : Nat) : Bool := m == 0 || m == 3

/-- The search status of a request (15 R581). -/
def searchStatus (x : RtEntry) : Nat :=
  if modeSearches x.mode && x.work.search.short then Status.shortResult else Status.ok

/-- The 256-byte completion report (15 R582). -/
def reportBytes (x : RtEntry) : Bytes :=
  let w := x.work
  let sw := w.search
  leBytes 8 x.tag ++ leBytes 2 x.finish ++ leBytes 2 (searchStatus x) ++ leBytes 1 (w.endStage % 16) ++
    leBytes 1 (b2n x.clamped + 2 * b2n w.batonMiss + 4 * b2n x.seedDrawn + 8 * b2n sw.widened +
      16 * b2n sw.par.verify + 32 * b2n sw.exact) ++
    leBytes 1 w.numFlags.toNat ++ zeros 1 ++ leBytes 4 w.detail ++ zeros 4 ++ leBytes 8 x.seed ++ leBytes 8 x.admitTime ++
    leBytes 8 w.endTime ++ leBytes 8 x.baton ++ zeros 8 ++ x.ctr.bytes ++ leBytes 4 x.promptLen ++ leBytes 4 x.genLen ++
    leBytes 4 w.invalidBytes ++ leBytes 4 w.invalidOut ++ leBytes 4 w.heldDiscarded ++ leBytes 2 sw.walks ++
    leBytes 2 sw.missingShards ++ leBytes 4 sw.hops ++ leBytes 4 sw.relays ++ leBytes 4 sw.admitted ++
    leBytes 4 sw.badHops ++ leBytes 2 sw.recallN ++ leBytes 2 w.cutPairs ++ leBytes 2 w.packed ++ leBytes 2 w.skipped ++
    leBytes 2 w.unreadable ++ zeros 2 ++ leBytes 4 w.dropsRetired ++ leBytes 4 w.dropsFull ++ zeros 68

/-- The accounting record of a request or run closed by a disable (14 R542). -/
def closedRecord (x : RtEntry) (endTime : Nat) : Bytes :=
  leBytes 1 0x51 ++ zeros 1 ++ leBytes 2 x.account ++ leBytes 2 x.fn ++ leBytes 2 x.qp ++ leBytes 8 x.tag ++
    leBytes 8 endTime ++ leBytes 2 x.finish ++ zeros 6 ++ x.ctr.bytes ++ zeros 32

/-! ### Text counters (06 R219) -/

/-- Input bytes tokenized, tokens produced and bytes in maximal subparts, in the text unit's registers and its event counters. -/
def countText (bytes tokens bad : Nat) (s : State) : State :=
  modObj (fun o => { o with
      txtBytesIn := o.txtBytesIn + bytes, txtTokensOut := o.txtTokensOut + tokens, txtInvalid := o.txtInvalid + bad })
    (evCount 4 3 bad (evCount 4 2 tokens (evCount 4 1 bytes s)))

/-! ### Ending (10 R378 to R384, 14 R541, 15 R581) -/

/-- Write an ended entry's completion: report first, then the entry (15 R582); a request of a disabled function leaves an
accounting record instead (14 R542). -/
def completeEntry (e result : Nat) (s : State) : State :=
  match entryOf s e with
  | none => s
  | some x =>
    let s0 := modWork e (fun w => { w with completed := true }) s
    if x.work.disabled then acctLog (closedRecord x x.work.endTime) (modQp x.qp (fun q => { q with reserved := q.reserved - 1 }) s0)
    else
      let rep := x.work.report ≠ 0
      let s1 := if rep then dmaWrite x.work.report (reportBytes x) s0 else s0
      rememberTag x.qp x.tag (complete x.qp
        { tag := x.tag, status := x.finish, search := searchStatus x, stage := x.work.endStage
          flags := b2n x.clamped + 2 * b2n rep + 4 * b2n x.work.batonMiss + 8 * b2n x.work.anyDegraded
          sqHead := x.work.sqHead, detail := x.work.detail, numFlags := x.work.numFlags.toNat, result := result } s1)

/-- Whether a step of an image is in flight (10 R384). -/
def stepInFlight (s : State) (h : Nat) : Bool := s.gen.steps.any fun k => k.2.image == h

/-- Mark a search tag killed: its walks end at their next test (08 R289). -/
def killTag (tag : Nat) (s : State) : State :=
  modSearch (fun r => if r.killed.contains tag then r else { r with killed := insertNum tag r.killed }) s

/-- Kill an entry's search: its tag is marked, and a pass that waits for credits starts no walk (08 R289). -/
def killEntry (e : Nat) (s : State) : State :=
  match (entryOf s e).bind fun x => x.work.search.tag with
  | some t => modSearchWork e (fun w => if w.waiting.isSome then { w with waiting := none, entryNodes := [] } else w) (killTag t s)
  | none => s

/-- The CANCELs accepted for an entry complete OK (10 R378, R379). -/
def finishCanceller (e : Nat) (s : State) : State :=
  let cs := ((entryOf s e).map (·.cancellers)).getD []
  foldS cs (fun t c => complete c.1 { tag := c.2.1, status := Status.ok, sqHead := c.2.2.1 } t)
    (modEntry e (fun x => { x with cancellers := [] }) s)

/-- Whether a cancel of an entry was accepted before this cycle: one accepted in the cycle of a commit point or of a run's end
counts as accepted after it (10 R348, R379). -/
def cancelledBefore (s : State) (x : RtEntry) : Bool := x.cancellers.any fun c => decide (c.2.2.2 < s.boot.cycles)

/-- The cancels accepted in this cycle come too late: they complete ALREADY_COMPLETE, since the request or run ends here
(10 R348, R379). -/
def lateCancels (e : Nat) (s : State) : State :=
  match entryOf s e with
  | none => s
  | some x =>
    let late := x.cancellers.filter fun c => !decide (c.2.2.2 < s.boot.cycles)
    foldS late (fun t c => complete c.1 { tag := c.2.1, status := Status.alreadyComplete, sqHead := c.2.2.1 } t)
      (modEntry e (fun y => { y with
        cancellers := y.cancellers.filter fun c => decide (c.2.2.2 < s.boot.cycles)
        cancelPending := cancelledBefore s y }) s)

/-- An entry's waiting in RESERVE, or in WAIT for stream space, up to now (14 R543; 15 R566). -/
def chargeHeld (e : Nat) (x : RtEntry) (s : State) : State :=
  if x.state = .reserve ∨ (x.state = .wait ∧ x.work.since ≠ 0) then charge e { waitNs := now s - x.work.since } s else s

/-- Whether an entry holds pages, a reservation or a baton reference. -/
def holdsPages (x : RtEntry) : Bool :=
  !x.pages.isEmpty || !x.draftPages.isEmpty || x.pagesRsvd != 0 || x.draftRsvd != 0 || x.work.batonRef.isSome

/-- End a request or run: it passes to DRAIN with a finish, its charges close, its completion is written, and its pages
return at once or at the commit point of the step of its image in flight (10 R347, R384). -/
def endEntry (e status detail stage result : Nat) (s : State) : State :=
  match entryOf s e with
  | none => s
  | some x =>
    if x.state = .drain then s
    else
      let fin := if x.work.disabled then (if x.cancelPending then Status.cancelled else Status.functionReset) else status
      let held := if fin = Status.stop ∨ fin = Status.eos ∨ fin = Status.length then 0
        else (x.work.out.length - x.work.rel) + x.work.tail.length
      let s1 := modEntry e (fun y => { y with
        state := .drain, finish := fin
        work := { y.work with detail := detail, endStage := stage, endTime := now s,
                              heldDiscarded := y.work.heldDiscarded + (if 12 ≤ stage then held else 0) } }) s
      let s2 := charge e { ended := 1 } (chargeHeld e x s1)
      let gen12 := decide (12 ≤ stage)
      let s3 := modGen (fun g => { g with
        cancelled := g.cancelled + b2n (gen12 && fin == Status.cancelled)
        deadlines := g.deadlines + b2n (gen12 && fin == Status.deadline) }) s2
      let s4 := endUnitsOf e (evCount 3 2 1 s3)
      let s5 := completeEntry e result (killEntry e s4)
      let s6 := finishCanceller e (sendUnpins e s5)
      if stepInFlight s6 x.genImage && holdsPages x then s6 else returnEntry e s6

/-- End an entry with a fault detail (14 R539, 15 R555); a cancel accepted before makes it CANCELLED (14 R540). -/
def endFault (e detail stage : Nat) (s : State) : State :=
  match entryOf s e with
  | none => s
  | some x => if x.cancelPending then endEntry e Status.cancelled 0 stage 0 s else endEntry e Status.fault detail stage 0 s

/-- The stage an entry in generation is in. -/
def genStage : Nat := 12

/-! ### Objects kept only for requests admitted before -/

/-- Whether a request still uses a profile version. -/
def profileUsed (s : State) (p : Profile) : Bool :=
  s.gen.entries.any fun e => e.2.mode != 4 && (match e.2.work.profile with
    | some q => q.id == p.id && q.version == p.version | none => false)

/-- Whether an image is used by an entry, a step or a unit. -/
def imageUsed (s : State) (h : Nat) : Bool :=
  (s.gen.entries.any fun e => e.2.genImage == h ||
    (match e.2.work.profile with
     | some p => p.encoder == h || p.reranker == h || p.generator == h || p.draft == h
     | none => false)) ||
  stepInFlight s h || (s.sched.units.any fun u => u.2.image == h)

/-- Whether a collection is used by a request or a shard query. -/
def collUsed (s : State) (c : Nat) : Bool :=
  (s.gen.entries.any fun e => modeSearches e.2.mode && e.2.work.search.par.coll == c) ||
  (s.search.shardWork.any fun w => w.2.par.coll == c)

/-- Whether a registration of a filter is pinned. -/
def filterUsed (s : State) (uid : Nat) : Bool :=
  (s.gen.entries.any fun e => e.2.work.search.filters.any fun f => f.uid == uid) ||
  (s.search.shardWork.any fun w => w.2.filters.any fun f => f.uid == uid)

/-- Drop what was kept only for requests that have ended: profile versions (01 R27), images (05 R146), collections
(07 R225), filters (07 R260), retired versions and deleted tables (11 R397, R405). -/
def releaseUnused (s : State) : State :=
  let o := s.obj
  let keepP (p : ProfileSlot) : ProfileSlot := { p with draining := p.draining.filter (profileUsed s) }
  let profiles := (mmap o.profiles fun _ p => keepP p).filter fun p =>
    p.2.cur.isSome || p.2.draining.isSome || !p.2.held.isEmpty
  let images := o.images.filter fun i => !i.2.unloaded || imageUsed s i.1
  let colls := o.collections.filter fun c => !c.2.deleted || collUsed s c.1
  let keepV (k : Nat) (v : Nat × Version) : Bool :=
    v.2.cond != .retired || pinnedHere s k v.1 || !v.2.remotePins.isEmpty
  let tables := (mmap o.tables fun k t => { t with versions := t.versions.filter (keepV k) }).filter fun t =>
    !t.2.deleted || tableHeld s t.1 || t.2.versions.any fun v => !v.2.remotePins.isEmpty
  whenS (colls != o.collections || tables != o.tables) dropDeadUnits
    (modObj (fun _ => { o with
      profiles := profiles, images := images, collections := colls, tables := tables
      oldFilters := o.oldFilters.filter fun f => filterUsed s f.uid }) s)

end Sys2Proof.Machine
end

