-- ==== Sys2Proof/Machine/Stages.lean ====
section
/-! DEFINITION. What each stage of a query computes, as functions of the search work and the collection (01 R17 to R35,
07, 08, 09): sketch and table, entry selection, the merge of walks, widening, re-scoring, selection, results, packing. -/

namespace Sys2Proof.Machine

/-- The fabric ID and unassigned bit of handles built here (07 R227). -/
def homeOf (s : State) : Nat := if s.fab.state = .unassigned then 0xFFFFF + 2 ^ 20 else s.fab.id

/-- A 64-bit handle (07 R227). -/
def handleOf (home id : Nat) : Nat := id % 2 ^ 40 + 2 ^ 40 * home

/-! ### Stages 4 and 5 -/

/-- Stage 4: the vector under the metric, its sketch and its distance table, and the flags set (07 R229 to R234). -/
def stage4 (c : Collection) (w : SearchWork) : SearchWork × BitVec 4 :=
  let n := normalise c.desc.metric w.vector w.vexps
  let k := sketchOf c n.1 n.2.1
  ({ w with vector := n.1, vexps := n.2.1, sketch := k.1, table := pqTable c n.1 }, n.2.2 ||| k.2)

/-- Whether an item passes visibility and the filters (07 R265). -/
def admits (w : SearchWork) (n : Nat) (i : Item) : Bool := i.visible w.epoch && allowed w.filters w.ops n

/-- Stage 5: the entry nodes of the E nearest centroids that have one, in order of nearness (08 R267, R268). -/
def entrySelect (c : Collection) (w : SearchWork) : List Nat :=
  let tab := mgetD c.entryTables w.epoch []
  ((rankCentroids c w.vector).filterMap fun r => (tab.find? fun e => e.1 == r.2).map Prod.snd).take w.par.entryWalks

/-! ### Exact-distance searches (08 R299, R300) -/

/-- The kept members of the L nearest lists, with exact distances (08 R299). -/
def exactPass (c : Collection) (w : SearchWork) (l : Nat) : List (Fv × Nat) :=
  exactMembers c w.vector (nearestCents c w.vector l) (admits w)

/-- Kept entries of an exact search as stage 8 hands them on: d is the exact distance, the key -d (08 R299, 09 R326). -/
def exactScored (home keep : Nat) (l : List (Fv × Nat)) : List Scored :=
  (l.take keep).map fun e =>
    let d := BitVec.ofNat 32 (f32Bits e.1)
    { id := e.2, home := home, key := (d ^^^ 0x80000000).toInt, dist := d }

/-- The value of a rank key: -P, or the FP32 -d of an exact search (09 R324, R326). -/
def keyOf (exact : Bool) (key : Int) : Fv := if exact then f32Val (BitVec.ofInt 32 key).toNat else Fv.ofDy ⟨key, 0⟩

/-- An exact-distance search with its widening (08 R299, R300). -/
def exactSearch (c : Collection) (home : Nat) (widenOff : Bool) (w : SearchWork) : SearchWork :=
  let l1 := exactPass c w w.par.entryWalks
  let l2 := min (2 * w.par.entryWalks) 32
  let widen := decide (l1.length < w.par.k) && decide (w.par.entryWalks < l2) && !w.par.noWiden && !widenOff &&
    !c.centroids.isEmpty
  let l := if widen then exactPass c w l2 else l1
  { w with scored := exactScored home w.par.rescoreKeep l, widened := widen, admitted := l.length, merged := true }

/-- The extents of an exact search's or of entry selection's work on clusters. -/
def exactSize (c : Collection) (w : SearchWork) : List Nat := [c.desc.dim, c.centroids.length, w.par.entryWalks, b2n w.exact]

/-! ### Stage 7 (08 R288 to R296) -/

/-- Walks of the pass: one for each entry node. -/
def SearchWork.walkCount (w : SearchWork) : Nat := w.entryNodes.length

/-- Every walk of the pass has ended and all it offered has arrived (08 R288). -/
def passFinished (w : SearchWork) : Bool :=
  w.waiting.isNone && (List.range w.walkCount).all fun k =>
    match mget w.ended k with
    | some n => mgetD w.received k 0 == n
    | none => false

/-- The settings of the widened pass (08 R293). -/
def widenedPar (p : SearchParams) : SearchParams :=
  { p with queueLen := min (2 * p.queueLen) 256, hopBudget := min (2 * p.hopBudget) p.hopCap
           stallHops := min (2 * p.stallHops) 255 }

/-- Settings of the pass that runs. -/
def passPar (w : SearchWork) : SearchParams := if w.widened then widenedPar w.par else w.par

/-- Keep each item once, in the copy met first. -/
def keepFirst : List Nat → List (Nat × Nat × Nat × Nat) → List (Nat × Nat × Nat × Nat)
  | _, [] => []
  | seen, e :: es => if seen.contains e.2.2.2 then keepFirst seen es else e :: keepFirst (e.2.2.2 :: seen) es

/-- Unite the partial lists (08 R292): the entries in order, and the admitted count. -/
def uniteLists (w : SearchWork) : List Cand × Nat :=
  let all := w.lists.flatMap fun l => (withPos l.2).map fun e => (e.2.dist, l.1, e.1, e.2.id)
  let kept := sortBy (fun a b => decide (a.1 < b.1) || (a.1 == b.1 && (decide (a.2.1 < b.2.1) ||
    (a.2.1 == b.2.1 && decide (a.2.2.1 < b.2.2.1))))) (keepFirst [] all)
  ((kept.map fun e => (⟨e.2.2.2, e.1⟩ : Cand)).take w.par.rescoreIn, kept.length)

/-- Stage 7 settles a pass (08 R292, R294). -/
def settlePass (w : SearchWork) : SearchWork :=
  let u := uniteLists w
  let r := if w.widened then (match w.first with | some f => if u.2 < f.2 then f else u | none => u) else u
  { w with cands := r.1, admitted := r.2, first := if w.widened then w.first else some u, merged := true }

/-- Whether stage 7 widens (08 R293, R298, R304). -/
def needWiden (widenOff : Bool) (w : SearchWork) : Bool :=
  decide (w.admitted < w.par.k) && !w.entryNodes.isEmpty && !w.widened && !w.par.noWiden && !widenOff && !w.exact &&
    decide (widenedPar w.par ≠ w.par)

/-- Prepare a pass of walks that waits for credits at a place in the order; one that was held keeps the place it took then
(08 R281, R304). -/
def beginPass (place : Nat) (w : SearchWork) : SearchWork :=
  { w with waiting := if w.entryNodes.isEmpty then none else some (w.heldPlace.getD place), heldPlace := none
           lists := [], received := [], ended := [], merged := false }

/-- Whether the result handed to stage 8 is short (08 R296). -/
def stage7Short (w : SearchWork) : Bool :=
  if w.exact then decide (w.scored.length < w.par.k) else decide (w.cands.length < w.par.k)

/-! ### Stage 8 (09 R323 to R326) -/

/-- Stage 8's kept entries over the candidates (09 R323, R324). -/
def rescore (c : Collection) (home : Nat) (w : SearchWork) : List Scored :=
  let ps := (withPos w.cands).map fun e => (pqScore w.table (((mget c.items e.2.id).map (·.code)).getD []), e.1, e.2.id)
  ((sortBy (fun a b => decide (a.1 < b.1) || (a.1 == b.1 && decide (a.2.1 < b.2.1))) ps).take w.par.rescoreKeep).map fun e =>
    { id := e.2.2, home := home, key := -(e.1 : Int), dist := pqDist w.table e.1 }

/-- The merge of shard lists under R320 with K = rescore_keep (09 R325). -/
def mergeShards (w : SearchWork) (lists : Map (List Scored)) : List Scored :=
  let ents : List (MergeEntry × Scored) := lists.flatMap fun l => (withPos l.2).map fun e =>
    (⟨handleOf e.2.home e.2.id, keyOf w.exact e.2.key, l.1, e.1⟩, e.2)
  ((mergeKept (ents.map Prod.fst)).take w.par.rescoreKeep).filterMap fun m =>
    (ents.find? fun e => e.1 == m).map Prod.snd

/-- What stage 8 hands on: the kept entries, merged with the shard lists that came in time. -/
def stage8 (c : Collection) (home : Nat) (w : SearchWork) : SearchWork :=
  let own := if w.exact then w.scored else rescore c home w
  match w.ownShard, w.shardLists with
  | none, [] => { w with scored := own }
  | src, ls => { w with scored := mergeShards w (match src with | some k => mset ls k own | none => ls) }

/-! ### Stages 9 and 10 (09 R327 to R333) -/

/-- The item a scored entry names, when this module holds it. -/
def localItem (c : Collection) (home : Nat) (x : Scored) : Option Item :=
  if x.home = home then mget c.items x.id else none

/-- The stage-10 selection and its key type (09 R331). -/
def stage10 (fi : Nat) (reranked : Bool) (w : SearchWork) (k : Nat) (l : List Scored) : SelRes :=
  if reranked then selectTop fi 0 k (l.map fun x => (false, x.score.toNat))
  else if w.exact then selectTop fi 0 k (l.map fun x => (false, (x.dist ^^^ 0x80000000).toNat))
  else selectTop fi 3 k (l.map fun x => (false, (BitVec.ofInt 32 x.key).toNat))

/-- The entries of a selection: index and entry. -/
def selEntries (l : List Scored) (r : SelRes) : List (Nat × Scored) :=
  r.entries.filterMap fun e => (l[e.idx]?).map fun x => (e.idx, x)

/-- A result list (09 R333). -/
def resultList (reranked exact verify : Bool) (k nIn : Nat) (r : SelRes) (ents : List (Nat × Scored)) : Bytes :=
  let n := ents.length
  leBytes 2 n ++ leBytes 2 k ++
    leBytes 2 (b2n (decide (n < k)) + 2 * b2n reranked + 4 * b2n exact + 8 * b2n verify + 16 * (r.selFlags ||| r.outFlags).toNat) ++
    leBytes 2 nIn ++ zeros 8 ++ laccBytes r.r r.sel r.selFlags ++ laccBytes r.r r.out r.outFlags ++ zeros 16 ++
    (ents.flatMap fun e => leBytes 8 (handleOf e.2.home e.2.id) ++
      leBytes 4 (if reranked then e.2.score.toNat else e.2.dist.toNat) ++ leBytes 4 e.1) ++
    (List.replicate (k - n) (leBytes 8 (2 ^ 64 - 1) ++ leBytes 4 0xFF800000 ++ leBytes 4 0xFFFFFFFF)).flatten

/-! ### Stage 11 (09 R338 to R341) -/

/-- The first-fit loop of R338: packed passages in order, skipped, unreadable. -/
def packLoop (pre post : Nat) : Nat → List (Option (List Nat)) → List (List Nat) × Nat × Nat
  | _, [] => ([], 0, 0)
  | avail, none :: ps => let r := packLoop pre post avail ps; (r.1, r.2.1 + 1, r.2.2 + 1)
  | avail, some t :: ps =>
    let cost := pre + t.length + post
    if cost ≤ avail then let r := packLoop pre post (avail - cost) ps; (t :: r.1, r.2)
    else let r := packLoop pre post avail ps; (r.1, r.2.1 + 1, r.2.2)

/-- The prompt of a template, a query and packed passages (09 R338). -/
def buildPrompt (t : Template) (query : List Nat) (ps : List (List Nat)) : List Nat :=
  t.parts.flatMap fun p => match p with
    | .fixed l => l
    | .query => query
    | .passages => (if t.bestLast then ps.reverse else ps).flatMap fun x => t.pre ++ x ++ t.post

/-- The text of a selected entry: none when it cannot be read here, by the flash or for a blob that breaks R243 (09 R339). -/
def passageOf (c : Collection) (home : Nat) (x : Scored) : Option (List Nat) :=
  match localItem c home x with
  | some i => if i.readable then blobTokens c.desc.textMax i.blob else none
  | none => none

end Sys2Proof.Machine
end

