-- ==== Sys2Proof/Machine/Requests.lean ====
section
/-! DEFINITION. Requests and runs from the ring to generation: admission, input chunks, cancels, runs, baton releases,
stage boundaries, and the freeing of entries (01, 10 R345 to R360, 14 R519, 15 R576 to R584). -/

namespace Sys2Proof.Machine

/-! ### Admission checks of a REQUEST (15 R576, R577, R777) -/

/-- The profile a request names (01 R24). -/
def requestProfile (s : State) (h : HostCmd) : Option Profile :=
  (mget s.obj.profiles (cmdFld h 64 1 % 64)).bind (·.cur)

/-- R25: the value in use and whether the profile's limit is the smaller; an override of 0 means the limit. -/
def limited (v lim : Nat) : Nat × Bool := if v = 0 ∨ lim < v then (lim, decide (lim < v)) else (v, false)

/-- The lowest fault of a filter expression, counted from its first byte (07 R262). -/
def filterExprFault (b : Bytes) : Option Nat :=
  let n := rd b 0 1
  lowest ([offIf (decide (4 < n)) 0,
    offending 0 (b.take 16) (maskOf 16 [(0, 1, 7), (1, 1, 0x3F), (4, 2, 0xFFF), (6, 2, 0xFFF), (8, 2, 0xFFF), (10, 2, 0xFFF)]),
    offIf ((List.range 4).any fun j => decide (0 < j) && decide (n ≤ j) && bitsOf (rd b 1 1) (2 * j - 1) (2 * j - 2) != 0) 1] ++
    (List.range 4).map fun i => offIf (decide (n ≤ i) && rd b (4 + 2 * i) 2 % 4096 != 0) (4 + 2 * i))

/-- The filter IDs and operator codes of an expression. -/
def filterIds (b : Bytes) : List Nat := (List.range (rd b 0 1)).map fun i => rd b (4 + 2 * i) 2 % 4096
def filterOps (b : Bytes) : List Nat := (List.range (rd b 0 1 - 1)).map fun i => bitsOf (rd b 1 1) (2 * i + 1) (2 * i)

def filterOpOf : Nat → FilterOp
  | 0 => .and
  | 1 => .or
  | _ => .andNot

/-- Whether an FP32 is a temperature: finite, 0 or more (10 R368). -/
def temperatureOk (w : Nat) : Bool :=
  match f32Val w with
  | .fin n m _ => !n || m == 0
  | _ => false

/-- The lowest offending byte of a REQUEST's slots. -/
def requestSlotFault (s : State) (h : HostCmd) (p : Option Profile) : Option Nat :=
  let b := padTo h.slots 192
  let opts := cmdFld h 67 1
  let gen := (p.map fun q => modeGenerates q.mode).getD false
  let k := (p.map fun q => (limited (cmdFld h 68 2) q.kMax).1).getD 0
  let needLen := (p.map fun q => q.mode == 1 || q.mode == 2).getD false
  let spec := (p.map (·.speculative)).getD true
  lowest [
    offIf (decide (cmdCount h ≠ 3)) 1,
    offending 0 b requestMask,
    offIf (liveEntry s h.qp (cmdTag h)).isSome 8,
    offIf (decide (16777216 < cmdLen0 h)) 24,
    offIf (needLen && decide (cmdLen1 h < (64 + 16 * k) * (if opts.testBit 1 then 2 else 1))) 40,
    offIf (decide (cmdReport h % 64 ≠ 0)) 48,
    offIf (cmdFld h 66 1 % 4 == 3) 66,
    offIf (decide (256 < cmdFld h 68 2)) 68,
    offIf (decide (256 < cmdFld h 70 2)) 70,
    offIf (!spec && cmdFld h 74 1 != 0) 74,
    offIf (!(cmdFlags h).testBit 2 && cmdFld h 84 4 != 0) 84,
    (filterExprFault ((b.drop 112).take 16)).map (· + 112),
    offIf (gen && !temperatureOk (cmdFld h 128 4)) 128,
    offIf (gen && (cmdFld h 132 4 % 131072 == 0 || decide (65536 < cmdFld h 132 4 % 131072))) 132,
    offIf (gen && decide (256 < cmdFld h 136 2 % 512)) 136]

/-- The first NaN or infinite element of a query vector, or MX scale of 0xFF, as a byte offset (01 R21). -/
def vectorFault (fmt dim : Nat) (b : Bytes) : Option Nat :=
  let el := (List.range dim).find? fun i => !(elemValue fmt 0 127 (rawElem fmt b i)).isFinite
  let sc := if isMx fmt then (List.range (dim / 32)).find? fun i => rd b (dim + i) 1 == 0xFF else none
  lowest [el.map fun i => i * elemBits fmt / 8, sc.map fun i => dim + i]

/-- The collection a profile searches. -/
def profileColl (s : State) (p : Profile) : Option Collection :=
  if modeSearches p.mode then mget s.obj.collections p.collection else none

/-- The fault of the record a REQUEST carries by address: its query vector or its stop set (15 R777). -/
def requestRecordFault (s : State) (h : HostCmd) (p : Profile) : Option Nat :=
  if p.mode = 2 then
    match profileColl s p with
    | some c =>
      if cmdLen0 h ≠ c.desc.vecLen then some 24
      else (vectorFault c.desc.vecFmt c.desc.dim (cmdBody h c.desc.vecLen)).map (· + 0x80000000)
    | none => none
  else if modeGenerates p.mode && cmdFld h 104 8 != 0 then (stopSetFault (padTo h.stop 1088)).map (· + 0x80000000)
  else none

/-- Filters by ID, or the refusal of R264, of any request; one that searches no collection names no filter of another. -/
def requestFilters (s : State) (acct : Nat) (coll : Option Nat) (b : Bytes) : Except Nat (List Filter) :=
  let fs := (filterIds b).map fun i => mget s.obj.filters i
  if fs.any fun f => match f with | some x => !x.shared && x.owner != acct | none => false then .error Status.notPermitted
  else if (fs.any fun f => match f with | some x => coll.isSome && some x.coll != coll | none => true) ||
      (filterOps b).contains 3 then
    .error Status.filterInvalid
  else .ok (fs.filterMap id)

/-- The images a profile names, in stage order. -/
def profileImages (p : Profile) : List Nat :=
  [p.encoder, p.reranker, p.generator, if p.speculative then p.draft else 0].filter (· ≠ 0)

/-- The table bindings of some images. -/
def imageBinds (s : State) (l : List Nat) : List TableBind :=
  l.flatMap fun h => ((mget s.obj.images h).map (·.tables)).getD []

/-- The longest the request's prompt can be, as far as admission can tell: the token count of a GENERATE input that is
whole, else the prompt budget (10 R355). -/
def promptMost (s : State) (h : HostCmd) (p : Profile) : Nat :=
  let most := (limited (cmdFld h 76 4) p.promptBudget).1
  let tk := (s.obj.tokenizers.find? fun t => t.2.id == p.tokenizer).map Prod.snd
  match decide (p.mode = 3) && !(cmdFlags h).testBit 0, tk with
  | true, some t =>
    (match tokenize t (cmdFld h 66 1) (cmdBody h (cmdLen0 h)) with
     | (_, .ok ts) => min most ts.length
     | _ => most)
  | _, _ => most

/-- What admission checks and takes, in order (01 R21 to R26, 07 R264, 08 R301, 10 R355, R358, 11 R399): a refusal, or
the filters and pins. -/
def admitChecks (s : State) (h : HostCmd) (acct : Nat) (p : Profile) :
    Except Nat (List Filter × List (Nat × Nat × Option Nat)) :=
  let b := (padTo h.slots 192).drop 112
  if !p.shared && p.owner != acct then .error Status.notPermitted
  else if s.boot.level == 1 && !s.boot.reloaded then .error Status.notPermitted
  else
    match requestFilters s acct (if modeSearches p.mode then some p.collection else none) (b.take 16) with
    | .error e => .error e
    | .ok fs =>
      let ops := (filterOps (b.take 16)).map filterOpOf
      if modeSearches p.mode && (cmdFld h 67 1).testBit 1 && (fs.isEmpty || decide (16777216 < allowedCount fs ops)) then
        .error Status.verifyTooLarge
      else
        let named := batonSlot s (cmdFld h 88 8)
        if (match named.bind (mget s.gen.batons) with | some x => x.account != acct | none => false) then
          .error Status.notPermitted
        else if (cmdFlags h).testBit 2 && (cmdFld h 84 4 % 16 != 0 || cmdFld h 84 4 == 0 ||
            decide (promptMost s h p < cmdFld h 84 4)) then .error Status.batonInvalid
        else (checkBinds s acct (imageBinds s (profileImages p))).map fun r => (fs, r)

/-- Refuse a REQUEST at admission: stage 1, with a report when one is asked for (15 R582). -/
def refuseRequest (h : HostCmd) (f : Fetched) (st detail : Nat) (s : State) : State :=
  let rep := cmdReport h ≠ 0 && cmdReport h % 64 == 0
  let x : RtEntry := { tag := cmdTag h, finish := st, mode := 5, work := { endStage := 1, detail := detail, endTime := now s } }
  let s1 := if rep then dmaWrite (cmdReport h) (reportBytes x) s else s
  cplCmd h f { tag := 0, status := st, stage := 1, flags := 2 * b2n rep, detail := detail } s1

/-! ### The entry of an admitted request -/

/-- The search parameters after R25. -/
def searchParams (h : HostCmd) (p : Profile) : SearchParams :=
  { coll := p.collection, entryWalks := p.entryWalks, stallHops := p.stallHops
    queueLen := (limited (cmdFld h 70 2) p.queueLen).1, hopBudget := (limited (cmdFld h 72 2) p.hopBudget).1
    hopCap := p.hopCap, rescoreIn := p.rescoreIn, rescoreKeep := p.rescoreKeep, k := (limited (cmdFld h 68 2) p.kMax).1
    noWiden := (cmdFld h 67 1).testBit 0, verify := (cmdFld h 67 1).testBit 1 }

/-- Whether R25 clamps a value the mode uses. -/
def clampedBy (h : HostCmd) (p : Profile) : Bool :=
  (modeSearches p.mode && ((limited (cmdFld h 68 2) p.kMax).2 || (limited (cmdFld h 70 2) p.queueLen).2 ||
    (limited (cmdFld h 72 2) p.hopBudget).2)) ||
  (modeGenerates p.mode && ((limited (cmdFld h 76 4) p.promptBudget).2 || (limited (cmdFld h 80 4) p.maxNew).2))

/-- The exact-distance search is used on a privileged collection and on one not verified in PROOFING (08 R300). -/
def usesExact (s : State) (c : Collection) : Bool := c.desc.privileged || (s.boot.level == 1 && !c.verified)

/-- The work of an admitted request (01 R26). -/
def requestWork (s : State) (h : HostCmd) (f : Fetched) (p : Profile) (fs : List Filter)
    (pins : List (Nat × Nat × Option Nat)) : Work :=
  let coll := profileColl s p
  let vec := match coll with
    | some c => if p.mode = 2 then cmdBody h c.desc.vecLen else []
    | none => []
  let d : CollDesc := (coll.map (·.desc)).getD ⟨false, false, 0, 0, 0, 0, 0, 0, 0, 0, 0, 0, 0, 0⟩
  { stage := 1, profile := some p
    tokenizer := (s.obj.tokenizers.find? fun t => t.2.id == p.tokenizer).map Prod.snd
    template := mget s.obj.templates p.template
    pins := pins
    input := if p.mode = 2 then [] else cmdBody h (cmdLen0 h)
    inputDone := p.mode = 2 ∨ !(cmdFlags h).testBit 0
    textOpts := cmdFld h 66 1
    promptBudget := (limited (cmdFld h 76 4) p.promptBudget).1
    batonLen := cmdFld h 84 4
    proofing := s.boot.level == 1
    addr1 := cmdAddr1 h, len1 := cmdLen1 h, report := cmdReport h, sqHead := f.sqHead
    search := if modeSearches p.mode then
        { par := searchParams h p, filters := fs
          ops := (filterOps (((padTo h.slots 192).drop 112).take 16)).map filterOpOf
          epoch := (coll.map (·.epoch)).getD 0
          vector := (if p.mode = 2 then vecValues d.vecFmt d.dim vec else []).map Fv.dy
          vexps := if p.mode = 2 then vecExps d.vecFmt d.dim vec else []
          exact := (coll.map (usesExact s)).getD false }
      else {} }

/-- Admit a request: the lowest free entry is taken, its objects are pinned, its waiting is charged (10 R345, 01 R26). -/
def admitRequest (h : HostCmd) (f : Fetched) (fn acct : Nat) (p : Profile) (fs : List Filter)
    (pins : List (Nat × Nat × Option Nat)) (s : State) : State :=
  let e := (freeEntry s).getD 0
  let pr := clampPrio s acct (cmdFld h 65 1 % 4)
  let gen := modeGenerates p.mode
  let drawn := gen && cmdFld h 144 8 == 0
  let d := drawFree s
  let s1 := if drawn then d.2 else s
  let x : RtEntry :=
    { state := .pre, prio := pr.1, account := acct, fn := fn, qp := h.qp, tag := cmdTag h, deadline := cmdFld h 96 8
      admitTime := now s, profile := p.id, mode := p.mode, speculative := gen && p.speculative
      batonCreate := gen && (cmdFlags h).testBit 2, clamped := pr.2 || clampedBy h p
      wantTokens := (cmdFlags h).testBit 1, seedDrawn := drawn
      draftLen := if gen && p.speculative then cmdFld h 74 1 % 8 else 0
      genImage := if gen then p.generator else 0
      maxNew := if gen then (limited (cmdFld h 80 4) p.maxNew).1 else 0
      baton := if gen then cmdFld h 88 8 else 0
      stop := if gen && cmdFld h 104 8 != 0 then stopSetOf (padTo h.stop 1088) else {}
      temperature := BitVec.ofNat 32 (cmdFld h 128 4), topP := cmdFld h 132 4, topK := cmdFld h 136 2
      seed := if drawn then d.1.toNat else if gen then cmdFld h 144 8 else 0
      work := requestWork s h f p fs pins }
  let s2 := modGen (fun g => { g with entries := mset g.entries e x }) s1
  let s3 := charge e { waitNs := now s - f.seen } (evCount 3 1 1 s2)
  sendPins e acct (imageBinds s (profileImages p)) s3

/-- REQUEST's body on a queue pair of a function and an account.  The record a REQUEST carries is judged before its account
(the spec orders DESC_MALFORMED of R21 and NOT_PERMITTED of R23 nowhere; DESIGN CHOICE, log entry 30). -/
def requestBody (h : HostCmd) (f : Fetched) (s : State) : State :=
  let p := requestProfile s h
  match requestSlotFault s h p with
  | some d => refuseRequest h f Status.descMalformed d s
  | none =>
    if isAdmin h.qp || !(s.boot.level == 1 || s.boot.level == 2) then refuseRequest h f Status.notPermitted 0 s
    else
      match p, (qpOf s h.qp).bound with
      | none, _ => refuseRequest h f Status.profileInvalid 0 s
      | some _, none => refuseRequest h f Status.notPermitted 0 s
      | some p, some (fn, acct) =>
        match requestRecordFault s h p with
        | some d => refuseRequest h f Status.descMalformed d s
        | none =>
          match admitChecks s h acct p with
          | .error e => refuseRequest h f e 0 s
          | .ok r => admitRequest h f fn acct p r.1 r.2 s

/-- REQUEST (15 R576). -/
def execRequest (h : HostCmd) (s : State) : Answer :=
  .next (if cmdOp h ≠ 1 then s
    else match takeCmd h s with
      | none => s
      | some (f, s1) => requestBody h f s1)

/-! ### Input chunks (15 R578) -/

/-- The request of a queue pair that waits for input under a tag. -/
def openRequest (s : State) (q tag : Nat) : Option Nat :=
  match liveEntry s q tag with
  | some e => match entryOf s e with
    | some x => if x.state = .pre ∧ x.mode ≠ 4 ∧ !x.work.inputDone then some e else none
    | none => none
  | none => none

/-- In stage 2 a tokenizer lane takes the input that has arrived: the tokens of the pieces that close join the request's, and
are counted and charged (06 R201 to R203, R219; 14 R543). -/
def takeText (e : Nat) (s : State) : State :=
  match entryOf s e with
  | none => s
  | some x =>
    match x.work.tokenizer with
    | none => s
    | some tk =>
      if x.work.stage ≠ 2 then s
      else
        let r := feed tk x.work.textOpts x.work.inputDone x.work.lane x.work.input
        countText x.work.input.length r.1.length r.2.1 (charge e { tokensIn := r.1.length } (modWork e (fun w => { w with
          input := [], lane := r.2.2, tokens := w.tokens ++ r.1, invalidBytes := w.invalidBytes + r.2.1 }) s))

def inputBody (h : HostCmd) (_f : Fetched) (s : State) : Reply :=
  if 16777216 < cmdLen0 h then deny Status.descMalformed s 24
  else match openRequest s h.qp (cmdParam h) with
    | none => deny Status.requestUnknown s
    | some e => okWith (takeText e (modWork e (fun w => { w with
        input := w.input ++ cmdBody h (cmdLen0 h), inputDone := (cmdFlags h).testBit 0 }) s))

/-- INPUT_CHUNK (15 R578). -/
def execInputChunk (h : HostCmd) (s : State) : Answer := .next (runCmd 0x02 h (inputBody h) s)

/-! ### Cancels (10 R378, 15 R579) -/

/-- Note a cancel: its time and the command that waits (10 R378). -/
def noteCancel (e : Nat) (h : HostCmd) (f : Fetched) (s : State) : State :=
  modEntry e (fun x => { x with
    cancelTime := if x.cancelPending then x.cancelTime else now s
    cancelPending := true, cancellers := x.cancellers ++ [(h.qp, cmdTag h, f.sqHead, s.boot.cycles)] }) s

/-- Whether an entry in PRE has no stage work in progress: it waits for input, or is held before stage 5. -/
def idlePre (x : RtEntry) : Bool := x.mode != 4 && ((x.work.stage == 2 && !x.work.inputDone) || x.work.search.heldHere)

/-- The entry in DRAIN of a queue pair's tag: its completion has been written, so a CANCEL comes too late (10 R378). -/
def drainingEntry (s : State) (q tag : Nat) : Option Nat :=
  (s.gen.entries.find? fun e => e.2.state == .drain && e.2.qp == q && e.2.tag == tag).map Prod.fst

def cancelBody (h : HostCmd) (f : Fetched) (s : State) : Reply :=
  let q := cmdAux h % 16384
  if (qpOf s q).bound ≠ (qpOf s h.qp).bound ∨ (qpOf s q).bound.isNone then deny Status.notPermitted s
  else match liveEntry s q (cmdParam h) with
    | none =>
      let late := (qpOf s q).recent.contains (cmdParam h) || (drainingEntry s q (cmdParam h)).isSome
      deny (if late then Status.alreadyComplete else Status.requestUnknown) s
    | some e =>
      match entryOf s e with
      | none => deny Status.requestUnknown s
      | some x =>
        let s1 := noteCancel e h f s
        match x.state with
        | .drain => deny Status.alreadyComplete s
        | .step => { state := s1 }
        | .reserve => { state := endEntry e Status.cancelled 0 12 0 s1 }
        | .wait => { state := endEntry e Status.cancelled 0 12 x.genLen s1 }
        | .pre =>
          if idlePre x then { state := endEntry e Status.cancelled 0 (if x.work.search.heldHere then 4 else x.work.stage) 0 s1 }
          else if x.work.stage = 5 ∨ x.work.stage = 6 then { state := killEntry e s1 }
          else { state := s1 }

/-- CANCEL (10 R378). -/
def execCancel (h : HostCmd) (s : State) : Answer := .next (runCmd 0x03 h (cancelBody h) s)

/-! ### Runs (10 R348, 15 R580) -/

/-- The lowest fault of a RUN's binding list (15 R580): an address entry of 16 bytes names a tensor of a tier other than 0. -/
def bindingFault (i : Image) (b : Bytes) : Nat → Option Nat
  | 0 => none
  | n + 1 =>
    lowest [bindingFault i b n,
      (let o := 16 * n
       let t := rd b o 4
       lowest [offIf (t == 0 || (match i.tensors[t - 1]? with | some d => d.tier == 0 | none => true)) o,
         (offending 0 ((b.drop (o + 4)).take 4) (List.replicate 4 0)).map (· + (o + 4))])]

/-- Whether a tensor is an output of some operation, or an input of none before: bound outputs are the written ones. -/
def writtenByOps (i : Image) (t : Nat) : Bool := i.ops.any fun o => o.outs.contains t

def runBody (h : HostCmd) (f : Fetched) (s : State) : Reply :=
  let hd := cmdParam h % 2 ^ 32
  let n := cmdLen0 h / 16
  match lowest [offIf (liveEntry s h.qp (cmdTag h)).isSome 8, offIf (cmdLen0 h % 16 != 0) 24, offIf (cmdReport h % 64 != 0) 48] with
  | some d => deny Status.descMalformed s d
  | none =>
    match mget s.obj.images hd, (qpOf s h.qp).bound with
    | some i, some (fn, acct) =>
      if i.unloaded then deny Status.imageInvalid s
      else if !i.shared && i.owner != acct then deny Status.notPermitted s
      else
        let b := cmdBody h (cmdLen0 h)
        match bindingFault i b n with
        | some d => deny Status.descMalformed s (0x80000000 + d)
        | none =>
          match checkBinds s acct i.tables with
          | .error e => deny e s
          | .ok pins =>
            let e := (freeEntry s).getD 0
            let pr := clampPrio s acct (cmdAux h % 4)
            let binds := (List.range n).map fun k => (rd b (16 * k) 4, rd b (16 * k + 8) 8)
            let x : RtEntry :=
              { state := .pre, prio := pr.1, account := acct, fn := fn, qp := h.qp, tag := cmdTag h, admitTime := now s
                mode := 4, clamped := pr.2, genImage := hd
                work := { stage := 0, pins := pins, report := cmdReport h, sqHead := f.sqHead, proofing := s.boot.level == 1
                          inputs := h.inputs.filter fun t => binds.any fun y => y.1 == t.1
                          outputs := binds.filter fun y => writtenByOps i y.1 } }
            let s2 := charge e { waitNs := now s - f.seen }
              (evCount 3 1 1 (modGen (fun g => { g with entries := mset g.entries e x }) s))
            let u := newUnit (.run e) [(e, acct, 1)] pr.1 hd (max 1 i.span) i.sram (acctDies s acct) s2
            { state := sendPins e acct i.tables u.2 }
    | none, _ => deny Status.imageInvalid s
    | some _, none => deny Status.notPermitted s

/-- RUN (10 R348). -/
def execRun (h : HostCmd) (s : State) : Answer := .next (runCmd 0x04 h (runBody h) s)

/-! ### Baton releases (10 R359) -/

def batonReleaseBody (h : HostCmd) (_f : Fetched) (s : State) : Reply :=
  match batonSlot s (cmdParam h), qpAccount s h.qp with
  | some k, some a =>
    match mget s.gen.batons k with
    | some b =>
      if !b.live then deny Status.batonInvalid s
      else if b.account ≠ a then deny Status.notPermitted s
      else okWith (releaseBaton k s)
    | none => deny Status.batonInvalid s
  | _, _ => deny Status.batonInvalid s

/-- BATON_RELEASE (10 R359). -/
def execBatonRelease (h : HostCmd) (s : State) : Answer := .next (runCmd 0x05 h (batonReleaseBody h) s)

/-! ### Stage boundaries (01 R17 to R35) -/

/-- What a stage hands over: it is not done yet, it failed with a status and a detail, or the state with its output. -/
inductive HandOver where
  | notYet
  | failed (status detail : Nat) (s : State)
  | done (s : State)

/-- Stage 2 (06 R199 to R208): it ends when the lane has found a subpart under REJECT or has taken the whole input. -/
def handTokens (x : RtEntry) (s : State) : HandOver :=
  match x.work.lane.reject, x.work.inputDone, x.work.profile with
  | some off, _, _ => .failed Status.textInvalid off s
  | none, true, some p =>
    let n := x.work.tokens.length
    let tooLong :=
      if x.mode = 3 then decide (x.work.promptBudget < n)
      else decide (((mget s.obj.images p.encoder).map (·.maxPrompt)).getD 0 < n) ||
        (x.mode == 0 && decide (x.work.promptBudget < n + ((x.work.template.map (·.fixedTokens)).getD 0)))
    if tooLong then .failed Status.inputTooLong 0 s else .done s
  | _, _, _ => .notYet

/-- The members of a shard set in index order: position and fabric ID (16 R616). -/
def setMembersOf (s : State) (set : Nat) : List (Nat × Nat) :=
  (List.range (mgetD s.fab.setSizes set 0)).map fun i => (i, mgetD s.fab.setMembers (65536 * set + i) 0)

/-- The SHARD_QUERY of a request (16 R619). -/
def shardQueryBytes (c : Collection) (w : SearchWork) (filter : Bytes) : Bytes :=
  let t := w.table.bytes c.desc.pqM c.desc.metric
  leBytes 4 w.par.coll ++ leBytes 1 w.par.entryWalks ++ leBytes 1 w.par.stallHops ++ leBytes 2 w.par.queueLen ++
    leBytes 2 w.par.hopBudget ++ leBytes 2 w.par.hopCap ++ leBytes 2 w.par.rescoreIn ++ leBytes 2 w.par.rescoreKeep ++
    leBytes 2 w.par.k ++ leBytes 1 (b2n w.par.noWiden + 2 * b2n w.par.verify) ++ zeros 1 ++ leBytes 2 c.desc.dim ++ zeros 2 ++
    padTo filter 16 ++ leBytes 4 t.length ++ zeros 20 ++ (w.vector.flatMap fun d => leBytes 4 (rn32Bits d)) ++
    padTo (leBytes (c.desc.sketchBits / 8) w.sketch) 64 ++ t

/-- The filter expression of pinned filters. -/
def filterBytes (w : SearchWork) : Bytes :=
  let code : FilterOp → Nat := fun o => match o with | .and => 0 | .or => 1 | .andNot => 2
  leBytes 1 w.filters.length ++ leBytes 1 ((withPos w.ops).map fun e => code e.2 * 4 ^ e.1).sum ++ zeros 2 ++
    padTo (w.filters.flatMap fun f => leBytes 2 f.id) 8 ++ zeros 4

/-- The lowest search tag not in use (08 R305), one under which no module still owes a list before one under which some
does. -/
def freeTag (s : State) : Option Nat :=
  match (List.range 16384).find? fun t => !mhas s.search.tags t && !s.search.owed.any fun o => o.1 == t with
  | some t => some t
  | none => lowestFree s.search.tags 16384

/-- Take a search tag for an entry, when it has none. -/
def takeTag (e : Nat) (s : State) : State :=
  match (entryOf s e).bind (·.work.search.tag), freeTag s with
  | none, some t => modSearch (fun r => { r with tags := mset r.tags t (false, e) }) (modSearchWork e (fun w => { w with tag := some t }) s)
  | _, _ => s

/-- Send a query to the other modules of its shard set and start the wait (01 R34, R35). -/
def sendShards (e : Nat) (x : RtEntry) (c : Collection) (p : Profile) (s : State) : State :=
  if p.shardSet = 0 then s
  else
    let ms := setMembersOf s p.shardSet
    let own := if s.fab.state = .unassigned then none else (ms.find? fun m => m.2 == s.fab.id).map Prod.fst
    let others := ms.filter fun m => some m.1 != own
    let s0 := takeTag e s
    let w := ((entryOf s0 e).map (·.work.search)).getD {}
    let s1 := foldS others (fun t m => sendAll
      { ptype := 0x18, account := x.account, dst := m.2, arg0 := BitVec.ofNat 32 (w.tag.getD 0)
        arg1 := BitVec.ofNat 64 (w.par.coll % 2 ^ 32), payload := shardQueryBytes c w (filterBytes w) } t) s0
    modSearchWork e (fun w => { w with
      ownShard := own, shardsLeft := others, shardUntil := now s1 + 1000 * p.shardWaitUs }) s1

/-- The second search of a request with verify set: an exact search over all centroids and its selection, charged like any
other work (08 R301, 01 R36). -/
def verifySearch (e : Nat) (c : Collection) (w : SearchWork) (s : State) : (SelRes × List (Nat × Scored) × Nat) × State :=
  let vl := exactScored (homeOf s) w.par.rescoreKeep (exactPass c w c.centroids.length)
  let vr := stage10 s.free false { w with exact := true } w.par.k vl
  ((vr, selEntries vl vr, vl.length), chargeStage e 10 [c.desc.dim, c.centroids.length, allowedCount w.filters w.ops]
    (selectionRows 1 vl.length vr.nNan { s with free := s.free + selDraws }))

/-- Stage 10: selection, with the verification where one is asked for; the counters of R342 (09 R331 to R333, 08 R301). -/
def handSelect (e : Nat) (x : RtEntry) (c : Collection) (p : Profile) (s : State) : State :=
  let w := x.work.search
  let rr := p.reranker ≠ 0
  let r := stage10 s.free rr w w.par.k w.scored
  let short := decide (r.entries.length < w.par.k)
  let ents := selEntries w.scored r
  let main := resultList rr w.exact false w.par.k w.scored.length r ents
  let s1 := modSearch (fun q => { q with selShort := q.selShort + b2n short })
    (selectionRows 1 w.scored.length r.nNan { s with free := s.free + selDraws })
  let v := if w.par.verify then some (verifySearch e c w s1) else none
  let s2 := match v with | some y => y.2 | none => s1
  let vents := match v with | some y => y.1.2.1 | none => []
  let body := match v with
    | some y => main ++ resultList false true true w.par.k y.1.2.2 y.1.1 vents
    | none => main
  evCount 6 4 (b2n short) (modWork e (fun y => { y with
    selected := ents, reranked := rr, numFlags := y.numFlags ||| r.flags, sums := body
    search := { y.search with
      short := y.search.short || short, verifyList := vents.map Prod.snd
      recallN := (ents.filter fun a => vents.any fun b => b.2.id == a.2.id && b.2.home == a.2.home).length } }) s2)

/-- The passages that fit a request's prompt, with the numbers skipped and unreadable (09 R338, R339). -/
def packOf (s : State) (x : RtEntry) (c : Collection) (t : Template) : List (List Nat) × Nat × Nat :=
  packLoop t.pre.length t.post.length (x.work.promptBudget - t.fixedTokens - x.work.tokens.length)
    (x.work.selected.map fun y => passageOf c (homeOf s) y.2)

/-- The prompt assembler's counters of a prompt of some tokens (09 R344). -/
def countPack (r : List (List Nat) × Nat × Nat) (tokens : Nat) (s : State) : State :=
  evCount 5 18 r.2.1 (evCount 5 17 r.1.length (evCount 5 16 1 (modSearch (fun q => { q with
    packs := q.packs + 1, passages := q.passages + r.1.length, skipped := q.skipped + r.2.1
    unreadable := q.unreadable + r.2.2, promptTokens := q.promptTokens + tokens }) s)))

/-- Stage 11: the prompt (09 R338). -/
def handPack (e : Nat) (x : RtEntry) (c : Collection) (t : Template) (s : State) : State :=
  let r := packOf s x c t
  let prompt := buildPrompt t x.work.tokens r.1
  countPack r prompt.length
    (modWork e (fun y => { y with prompt := prompt, packed := r.1.length, skipped := r.2.1, unreadable := r.2.2 }) s)

/-- Free a search's tag when it no longer has walks (08 R305). -/
def dropTag (t : Nat) (s : State) : State :=
  modSearch (fun r => { r with tags := merase r.tags t, killed := r.killed.filter (· ≠ t) }) s

/-- The largest prompt-length extent of a re-ranker image (09 R328). -/
def pairLimit (s : State) (p : Profile) : Nat := ((mget s.obj.images p.reranker).map (·.maxPrompt)).getD 0

/-- Stage 9's pairs, uncut, in stage-8 order: the query tokens, then the passage's; of a candidate whose text this module does
not hold or cannot read, the query alone (09 R327; DESIGN CHOICE, assumption 33). -/
def fullPairs (s : State) (x : RtEntry) (c : Collection) : List (List Nat) :=
  x.work.search.scored.map fun y => x.work.tokens ++ (passageOf c (homeOf s) y).getD []

/-- Stage 9's pairs: the query and the first passage tokens that fit (09 R327, R328). -/
def pairsOf (s : State) (x : RtEntry) (c : Collection) (p : Profile) : List (List Nat) :=
  (fullPairs s x c).map (·.take (pairLimit s p))

/-- Stage 9's pairs that were cut (09 R328). -/
def cutPairs (s : State) (x : RtEntry) (c : Collection) (p : Profile) : Nat :=
  ((fullPairs s x c).filter fun t => decide (pairLimit s p < t.length)).length

/-- What an entry's stage left that runs an image, once its unit has run it to the end (01 R17; assumption 22). -/
def stageResults (s : State) (e : Nat) : Option (List (BitVec 32)) :=
  match (entryUnits s e).head? with
  | some u => if unitDone s u.2 then some u.2.results else none
  | none => none

/-- Values of a stage's result, free ones where its image left none (assumption 22). -/
def resultVals (fi n : Nat) (l : List (BitVec 32)) : List (BitVec 32) :=
  (List.range n).map fun i => (l[i]?).getD (BitVec.ofNat 32 (Config.free64 (fi + i)).toNat)

/-- A stage hands over its whole output (01 R17). -/
def handOver (e : Nat) (x : RtEntry) (c : Option Collection) (p : Profile) (s : State) : HandOver :=
  match x.work.stage, c with
  | 1, _ => if x.work.pinsLeft = 0 then .done s else .notYet
  | 2, _ => handTokens x s
  | 3, some c =>
    match stageResults s e with
    | some v =>
      let vs := (resultVals s.free c.desc.dim v).map fun b => f32Val b.toNat
      let s1 := { s with free := s.free + c.desc.dim }
      if vs.all Fv.isFinite then
        .done (modSearchWork e (fun w => { w with vector := vs.map Fv.dy, vexps := (blocks32 vs.length vs).map blockExpFp }) s1)
      else .failed Status.queryInvalid 0 (gatherFlags e invalidFlag s1)
    | none => .notYet
  | 4, some c =>
    let r := stage4 c x.work.search
    .done (chargeStage e 4 [c.desc.dim, c.desc.sketchBits, c.desc.pqM] (gatherFlags e r.2 (modSearchWork e (fun _ => r.1) s)))
  | 5, some c =>
    let w := x.work.search
    if w.heldHere then .notYet
    else if p.shardSet ≠ 0 ∧ w.ownShard.isNone then .done (modSearchWork e (fun y => { y with entryNodes := [] }) s)
    else if w.exact then
      .done (chargeStage e 5 (exactSize c w) (modSearchWork e (fun _ => exactSearch c (homeOf s) s.search.widenOff w) s))
    else
      .done (selectionRows 1 c.centroids.length 0
        (chargeStage e 5 (exactSize c w) (modSearchWork e (fun y => { y with entryNodes := entrySelect c w }) s)))
  | 6, some _ => if passFinished x.work.search then .done s else .notYet
  | 7, some _ => if x.work.search.merged then .done s else .notYet
  | 8, some c =>
    if x.work.search.shardsLeft.isEmpty then
      .done (chargeStage e 8 [x.work.search.cands.length] (modSearchWork e (fun w => stage8 c (homeOf s) w) s))
    else .notYet
  | 9, some c =>
    if p.reranker = 0 then .done s
    else match stageResults s e with
      | some v =>
        let n := x.work.search.scored.length
        .done (modWork e (fun y => { y with
          cutPairs := cutPairs s x c p
          search := { y.search with scored := (y.search.scored.zip (resultVals s.free n v)).map fun z => { z.1 with score := z.2 } } })
          { s with free := s.free + n })
      | none => .notYet
  | 10, some c => .done (handSelect e x c p s)
  | 11, some c => match x.work.template with | some t => .done (handPack e x c t s) | none => .notYet
  | _, _ => .notYet

/-- The stage after a stage in a mode; 0 when the search is done (01 R20). -/
def nextStage (mode stage : Nat) : Nat :=
  match stage with
  | 1 => if mode = 2 then 4 else 2
  | 2 => if mode = 3 then 12 else 3
  | 10 => if mode = 0 then 11 else 0
  | n => n + 1

/-- A stage that needs cluster work gets a unit when the request reaches it (14 R528). -/
def stageUnit (e stage : Nat) (x : RtEntry) (p : Profile) (s : State) : State :=
  let img := if stage = 3 then p.encoder else if stage = 9 then p.reranker else 0
  if stage = 3 ∨ stage = 4 ∨ stage = 5 ∨ stage = 8 ∨ (stage = 9 ∧ p.reranker ≠ 0) ∨
      (stage = 10 ∧ x.work.search.par.verify = true) then
    let i := mget s.obj.images img
    (newUnit (.stage e stage) [(e, x.account, 1)] x.prio img (max 1 ((i.map (·.span)).getD 1)) ((i.map (·.sram)).getD 0)
      (acctDies s x.account) s).2
  else s

/-- Entry to stage 12 (10 R352, R355, R358): the baton is looked up, the reservation awaited. -/
def enterGen (e : Nat) (s : State) : State :=
  match entryOf s e with
  | none => s
  | some x =>
    let prompt := if x.mode = 3 then x.work.tokens else x.work.prompt
    if x.batonCreate && decide (prompt.length < x.work.batonLen) then endEntry e Status.batonInvalid 0 12 0 s
    else
      let k := batonSlot s x.baton
      let b := k.bind (mget s.gen.batons)
      let hit := match b with
        | some b => b.live && b.account == x.account && b.image == x.genImage && b.tokens.isPrefixOf prompt
        | none => false
      let bt : Baton := b.getD ⟨0, false, 0, 0, 0, [], [], 0⟩
      let s1 := modEntry e (fun y => { y with
        state := .reserve, promptLen := prompt.length, batonHit := hit
        batonPages := if hit then bt.pages.length else 0, prefilled := if hit then bt.tokens.length else 0
        draftSkip := if hit then bt.pages.length else 0, draftFilled := if hit then bt.tokens.length else 0
        pages := if hit then bt.pages else []
        work := { y.work with stage := 12, prompt := prompt, since := now s, batonRef := if hit then k else none, batonMiss := decide (x.baton ≠ 0) && !hit } }) s
      let s2 := if hit then
          charge e { tokensIn := bt.tokens.length }
            (modGen (fun g => { g with batons := mupd g.batons (k.getD 0) fun z => { z with refs := z.refs + 1 } }) s1)
        else s1
      match entryOf s2 e with
      | none => s2
      | some y =>
        let pool (h : Nat) : Nat := ((mget s2.obj.images h).map (·.kvPages)).getD 0
        if pool y.genImage < pagesNeeded y ∨ (y.draftLen ≠ 0 ∧ pool y.draftImage < pagesNeeded y) then
          endEntry e Status.noResources 0 12 0 s2
        else s2

/-- End a search at stage 10: its result list, then its completion (01 R32, 09 R333). -/
def deliver (e : Nat) (s : State) : State :=
  match entryOf s e with
  | none => s
  | some x => endEntry e (searchStatus x) 0 10 x.work.selected.length (dmaWrite x.work.addr1 x.work.sums s)

/-- Stage 5 starts: the query goes to the shard set, and the stage gets its unit (01 R34). -/
def startSearch (e : Nat) (s : State) : State :=
  match entryOf s e with
  | none => s
  | some x =>
    match x.work.profile, mget s.obj.collections x.work.search.par.coll with
    | some p, some c =>
      stageUnit e 5 x p (sendShards e x c p (modSearchWork e (fun w => { w with heldHere := false }) s))
    | _, _ => s

/-- A search held before stage 5 takes its place in the order of R281 (08 R304); its shard query waits with it (DESIGN
CHOICE, log entry 32). -/
def holdSearch (e : Nat) (s : State) : State :=
  modSearch (fun r => { r with nextWait := r.nextWait + 1 })
    (modSearchWork e (fun w => { w with heldHere := true, heldPlace := some s.search.nextWait }) s)

/-- Start a stage. -/
def startStage (e stage : Nat) (p : Profile) (s : State) : State :=
  match entryOf s e with
  | none => s
  | some x =>
    let s1 := modWork e (fun w => { w with stage := stage }) s
    match stage with
    | 0 => deliver e s
    | 12 => enterGen e s1
    | 2 => takeText e s1
    | 5 => if s.search.hold then holdSearch e s1 else startSearch e s1
    | 6 =>
      let s2 := modSearchWork e (beginPass s1.search.nextWait) s1
      if x.work.search.entryNodes.isEmpty then s2
      else modSearch (fun r => { r with nextWait := r.nextWait + 1 }) (takeTag e s2)
    | 7 => if x.work.search.exact then modSearchWork e (fun w => { w with merged := true }) s1 else s1
    | n => stageUnit e n x p s1

/-- Stage 7's decision: a widened pass, or stage 8 with its result (08 R293 to R296); with a shard set stage 10 alone decides
whether the request is short (08 R297). -/
def afterMerge (e : Nat) (x : RtEntry) (p : Profile) (s : State) : State :=
  let w := x.work.search
  if needWiden s.search.widenOff w then
    startStage e 6 p (evCount 5 6 1 (modSearch (fun r => { r with widened := r.widened + 1 })
      (modSearchWork e (fun y => { y with widened := true }) s)))
  else
    let sh := stage7Short w && (p.shardSet == 0)
    let s1 := if w.exact && w.widened then evCount 5 6 1 (modSearch (fun r => { r with widened := r.widened + 1 }) s) else s
    let s2 := modSearchWork e (fun y => { y with short := sh }) (modSearch (fun r => { r with short := r.short + b2n sh }) s1)
    startStage e 8 p s2

/-- The modules that have not answered a search owe their lists under its tag, and such a list is dropped when it comes: it
joins no other request (01 R35). -/
def oweShards (w : SearchWork) (s : State) : State :=
  match w.tag with
  | some t => modSearch (fun r => { r with owed := r.owed ++ w.shardsLeft.map fun m => (t, m.2) }) s
  | none => s

/-- Give back the tag of a search whose walks are all over, once it waits for no shard list. -/
def settleTag (e : Nat) (s : State) : State :=
  match entryOf s e with
  | none => s
  | some x =>
    match x.work.search.tag with
    | some t =>
      if (9 ≤ x.work.stage ∨ x.state = .drain) ∧ !(s.search.walks.any fun w => w.2.tag == t && !w.2.shard) then
        modSearchWork e (fun w => { w with tag := none, shardsLeft := [] }) (oweShards x.work.search (dropTag t s))
      else s
    | none => s

/-- A stage boundary (01 R17, R29 to R33; 14 R541; 15 R555): the stage hands over, then what ends the request is tested,
then the next stage starts.  The end of stage 10 in the search modes counts as a boundary before the list is written, so the
deadline is tested there too (the spec does not say so; DESIGN CHOICE, log entry 31). -/
def stageBoundary (e : Nat) (s : State) : State :=
  match entryOf s e with
  | none => s
  | some x =>
    match x.work.profile with
    | none => s
    | some p =>
      if x.state ≠ .pre ∨ x.mode = 4 then s
      else
        let coll := if modeSearches x.mode then mget s.obj.collections x.work.search.par.coll else none
        let stage := x.work.stage
        let cancelled := x.cancelPending || x.work.disabled
        match handOver e x coll p s with
        | .notYet => s
        | .failed st d s1 =>
          settleTag e (if cancelled then endEntry e Status.cancelled 0 stage 0 s1 else endEntry e st d stage 0 s1)
        | .done s1 =>
          let s2 := endUnitsOf e s1
          settleTag e <|
            if cancelled then endEntry e Status.cancelled 0 stage 0 s2
            else match x.work.pendingFault with
              | some d => endEntry e Status.fault d stage 0 s2
              | none =>
                if x.deadline ≠ 0 ∧ x.deadline ≤ now s2 then endEntry e Status.deadline 0 stage 0 s2
                else if stage = 7 then
                  (match entryOf s2 e with | some y => afterMerge e y p s2 | none => s2)
                else startStage e (nextStage x.mode stage) p s2

/-- STAGE_BOUNDARY (01 R17). -/
def execStageBoundary (e : Nat) (s : State) : Answer := .next (stageBoundary e s)

/-! ### Freeing an entry (10 R384) -/

/-- ENTRY_FREE (10 R347, R384): a DRAIN entry whose completion is written and whose pages are returned becomes FREE, and
what was kept only for it is released. -/
def execEntryFree (e : Nat) (s : State) : Answer :=
  .next (match entryOf s e with
    | some x =>
      if x.state = .drain ∧ x.work.completed ∧ x.work.pagesReturned then
        releaseUnused (noteFreed (.entry e) (modGen (fun g => { g with entries := merase g.entries e }) (settleTag e s)))
      else s
    | none => s)

end Sys2Proof.Machine
end

