-- ==== Sys2Proof/Machine/Tensor.lean ====
section
/-! DEFINITION. Tensors of an image as bytes: extents and sizes, the order in which elements are stored, rows held by position,
places in SRAM, and the key-value layers of a generator or draft image (03 R57, R58; 05 R151 to R154; 10 R349). -/

namespace Sys2Proof.Machine

/-! ### Extents and sizes (05 R151 to R153) -/

/-- Largest extents of a tensor (05 R153). -/
def TensorDesc.maxDims (t : TensorDesc) : List Nat := t.dims.map fun d => d % 2 ^ 28

/-- Elements of extents. -/
def elemsOf (dims : List Nat) : Nat := dims.foldl (· * ·) 1

/-- Bytes of the elements and of the scales of a tensor with given extents (03 R57, R58). -/
def dataBytesOf (fmt : Nat) (dims : List Nat) : Nat := packedLen fmt (elemsOf dims)
def scaleBytesOf (fmt : Nat) (dims : List Nat) : Nat := if isMx fmt then elemsOf dims / 32 else 0
def tensorBytesOf (fmt : Nat) (dims : List Nat) : Nat := dataBytesOf fmt dims + scaleBytesOf fmt dims

/-- Bytes of a tensor at its largest extents. -/
def TensorDesc.maxBytes (t : TensorDesc) : Nat := tensorBytesOf t.fmt t.maxDims

/-- A tensor of an image by its ID. -/
def tensorAt (tds : List TensorDesc) (t : Nat) : Option TensorDesc := if t = 0 then none else tds[t - 1]?

/-! ### Stored order (03 R57) -/

/-- Elements along the block axis, and after it. -/
def axisSplit (axis : Nat) (dims : List Nat) : Nat × Nat := ((dims[axis]?).getD 1, elemsOf (dims.drop (axis + 1)))

/-- The stored position of an element of an MX tensor: 32 consecutive elements along the block axis form a block (03 R57). -/
def storedPos (t : TensorDesc) (dims : List Nat) (j : Nat) : Nat :=
  if isMx t.fmt then
    let x := axisSplit t.axis dims
    (j / (x.1 * x.2) * x.2 + j % x.2) * x.1 + j / x.2 % x.1
  else j

/-- The row-major index of a stored position. -/
def rowMajor (t : TensorDesc) (dims : List Nat) (q : Nat) : Nat :=
  if isMx t.fmt then
    let x := axisSplit t.axis dims
    (q / (x.1 * x.2) * x.1 + q % x.1) * x.2 + q / x.1 % x.2
  else q

/-! ### Rows held by position (05 R154, 10 R349) -/

/-- Elements of one position's row: all extents but the outermost. -/
def rowWidth (dims : List Nat) : Nat := elemsOf (dims.drop 1)

/-- The rows of a tensor along its outermost extent. -/
def rowsOfTensor (t : TensorDesc) (dims : List Nat) (data scales : Bytes) : List ERow :=
  let w := rowWidth dims
  (List.range (dims.headD 0)).map fun i =>
    let qs := (List.range w).map fun j => storedPos t dims (i * w + j)
    { bits := qs.map (rawElem t.fmt data), scales := if isMx t.fmt then qs.map fun q => rd scales (q / 32) 1 else [] }

/-- A tensor made of rows, zero where there are too few: elements and scales. -/
def tensorOfRows (t : TensorDesc) (dims : List Nat) (rows : List ERow) : Bytes × Bytes :=
  let w := rowWidth dims
  let at_ (f : ERow → List Nat) (q : Nat) : Nat :=
    let j := rowMajor t dims q
    if w = 0 then 0 else ((rows[j / w]?).bind fun r => (f r)[j % w]?).getD 0
  let n := elemsOf dims
  (packBits (elemBits t.fmt) ((List.range n).map (at_ (·.bits))),
    if isMx t.fmt then (List.range (n / 32)).map fun b => BitVec.ofNat 8 (at_ (·.scales) (32 * b)) else [])

/-- The values of a row with the exponent each element brings from its scale, from FP8, or of its own (03 R69). -/
def ERow.vals (fmt : Nat) (shift : Int) (r : ERow) : List (Fv × Option Int) :=
  (withPos r.bits).map fun e =>
    let c := (r.scales[e.1]?).getD 0
    let v := elemValue fmt shift c e.2
    (v, if isMx fmt then (if c = 0xFF then none else some ((c : Int) - 127))
      else if fmt = 3 ∨ fmt = 4 then some 0
      else if fmt = 0xA then some (shift + 7)
      else blockExpFp [v])

/-! ### Places in SRAM (assumption 22) -/

/-- The byte of a context's allocation at which a tier-0 tensor's elements or scales begin (assumption 22). -/
def sramAt (i : Image) (size id : Nat) (t : TensorDesc) (scales : Bool) : Nat :=
  let n := if scales then scaleBytesOf t.fmt t.maxDims else dataBytesOf t.fmt t.maxDims
  64 * ((Config.sramLine i.imageId i.version id scales).toNat % ((size - n) / 64 + 1))

/-- The elements and scales of a constant, none when it does not decompress (05 R151; 12 R456). -/
def constBytes (i : Image) (t : TensorDesc) (dims : List Nat) : Option (Bytes × Bytes) :=
  let b := (i.payload.drop t.dataOff).take t.dataLen
  let nd := dataBytesOf t.fmt dims
  let split (b : Bytes) : Bytes × Bytes := (padTo b nd, padTo (b.drop nd) (scaleBytesOf t.fmt dims))
  if t.compressed then (decompress b).map split else some (split b)

/-- A context's allocation before its first operation: the constants of tier 0 lie at their places (05 R151). -/
def constSram (i : Image) (size : Nat) : List Host.Cell :=
  (withPos i.tensors).foldl (fun m e =>
    if e.2.tier = 0 ∧ e.2.constant then
      match constBytes i e.2 e.2.maxDims with
      | some b => memWrite (memWrite m (sramAt i size (e.1 + 1) e.2 false) b.1) (sramAt i size (e.1 + 1) e.2 true) b.2
      | none => m
    else m) []

/-! ### Key-value layers (10 R349, R353) -/

/-- The key and value tensors of an operation list's attentions, each pair once: the layers of its key-value pages. -/
def kvLayers (ops : List Op) : List (Nat × Nat) :=
  (ops.filter fun o => o.opcode == 2).foldl (fun l o =>
    let p := ((o.ins[1]?).getD 0, (o.ins[2]?).getD 0)
    if l.contains p then l else l ++ [p]) []

/-- The blocks of a page to which a tensor's rows go: 32·layer, with 16 more for values that are not the keys themselves. -/
def kvBlocks (i : Image) (id : Nat) : List Nat :=
  (withPos (kvLayers i.ops)).flatMap fun e =>
    (if e.2.1 = id then [32 * e.1] else []) ++ (if e.2.2 = id ∧ e.2.1 ≠ id then [32 * e.1 + 16] else [])

/-- Whether a tensor of an image lies in key-value pages: a tier-4 operand of an attention of a generator or draft image. -/
def isPaged (i : Image) (id : Nat) : Bool :=
  (i.kind == 2 || i.kind == 3) && ((tensorAt i.tensors id).map fun t => t.tier == 4) == some true && !(kvBlocks i id).isEmpty

end Sys2Proof.Machine
end

