-- ==== Sys2Proof/Machine/Gen.lean ====
section
/-! DEFINITION. Generation (10_generation): reservations, step formation, exact sampling, commit points and step records,
batons created, the hold bit and the entry window. -/

namespace Sys2Proof.Machine

/-! ### Reservations (10 R352) -/

/-- Order of reservations and of steps among equal deadlines: priority, then admission, then entry. -/
def reserveBefore (a b : Nat × RtEntry) : Bool :=
  decide (a.2.prio < b.2.prio) || (a.2.prio == b.2.prio && (decide (a.2.admitTime < b.2.admitTime) ||
    (a.2.admitTime == b.2.admitTime && decide (a.1 < b.1))))

/-- The images from whose pools a request draws. -/
def RtEntry.pools (x : RtEntry) : List Nat := x.genImage :: (if x.draftLen = 0 then [] else [x.draftImage])

/-- Whether a request is the next to be granted pages: none before it in the order waits for a pool of its own (10 R352). -/
def nextReserve (s : State) (e : Nat) (x : RtEntry) : Bool :=
  s.gen.entries.all fun y => y.1 == e || y.2.state != .reserve || !(y.2.pools.any fun h => x.pools.contains h) ||
    reserveBefore (e, x) y

/-- Whether both pools cover an entry's reservation. -/
def canGrant (s : State) (x : RtEntry) : Bool :=
  decide (pagesNeeded x ≤ poolFree s x.genImage) && (x.draftLen == 0 || decide (pagesNeeded x ≤ poolFree s x.draftImage))

/-- RESERVATION_GRANT (10 R352). -/
def execReservationGrant (e : Nat) (s : State) : Answer :=
  .next (match entryOf s e with
    | some x =>
      if x.state = .reserve ∧ nextReserve s e x ∧ canGrant s x then
        charge e { waitNs := now s - x.work.since } (modEntry e (fun y => { y with
          state := .wait, pagesRsvd := pagesNeeded x, draftRsvd := if x.draftLen = 0 then 0 else pagesNeeded x
          work := { y.work with since := 0 } }) s)
      else s
    | none => s)

/-! ### Step formation (10 R361, 15 R566) -/

/-- End the requests of a list whose deadline is at or before now (10 R361, R362). -/
def expire (es : List Nat) (s : State) : State :=
  foldS es (fun t e => match entryOf t e with
    | some x =>
      if x.deadline ≠ 0 ∧ x.deadline ≤ now t ∧ (x.state = .wait ∨ x.state = .reserve) then
        endEntry e Status.deadline 0 12 x.genLen t
      else t
    | none => t) s

/-- Order of R361: priority, deadline (none last), admission. -/
def stepBefore (a b : Nat × RtEntry) : Bool :=
  let d (x : RtEntry) : Nat := if x.deadline = 0 then 2 ^ 64 else x.deadline
  decide (a.2.prio < b.2.prio) || (a.2.prio == b.2.prio && (decide (d a.2 < d b.2) ||
    (d a.2 == d b.2 && reserveBefore a b)))

/-- What a step runs of a request in the room left: prefill positions (0 for a decode step), drafts, and positions in all, none
when it does not fit.  The chunk that ends a prefill yields a token, so it takes its drafts too; a chunk that does not end it
is a multiple of 16 (10 R361, R372). -/
def stepShare (x : RtEntry) (room : Nat) : Option (Nat × Nat × Nat) :=
  let rest := x.promptLen - x.prefilled
  let d := min x.draftLen (x.maxNew - x.genLen - 1)
  let part := min (room / 16 * 16) ((rest - 1) / 16 * 16)
  if rest = 0 then (if 1 + d ≤ room then some (0, d, 1 + d) else none)
  else if rest + d ≤ room then some (rest, d, rest + d)
  else if part = 0 then none
  else some (part, 0, part)

/-- Free stream bytes of a queue pair (15 R566). -/
def streamRoom (qp : Qp) : Nat := stSize qp - (qp.produced - qp.consumed) - qp.stReserved

/-- Stream bytes a member reserves (15 R566). -/
def stepReserve : Nat := 12816

/-- Take members in order until an extent of the image is reached; one without stream space is passed over. -/
def takeMembers : List (Nat × RtEntry) → Nat → Nat → State → List (Nat × Nat × Nat × Nat) × State
  | [], _, _, s => ([], s)
  | (e, x) :: es, slots, room, s =>
    if slots = 0 then ([], s)
    else match stepShare x room with
      | none => ([], s)
      | some (pre, d, n) =>
        if streamRoom (qpOf s x.qp) < stepReserve then
          takeMembers es slots room (modWork e (fun w => { w with since := if w.since = 0 then now s else w.since }) s)
        else
          let s1 := modQp x.qp (fun q => { q with stReserved := q.stReserved + stepReserve }) s
          let s2 := if x.work.since = 0 then s1
            else charge e { waitNs := now s - x.work.since } (modWork e (fun w => { w with since := 0 }) s1)
          let r := takeMembers es (slots - 1) (room - n) (modEntry e (fun y => { y with state := .step }) s2)
          ((e, pre, d, n) :: r.1, r.2)

/-- Pages that hold the positions below a bound. -/
def pagesFor (n : Nat) : Nat := (n + 15) / 16

/-- The page list as an array of 32-bit entries, the pool page in the low 24 bits (10 R351). -/
def pageListBytes (l : List Nat) : Bytes := l.flatMap fun p => leBytes 4 (p % 2 ^ 24)

/-- The page list of an entry lies in Brixjo at page_list, in lines of its account (10 R346, R351). -/
def storePageList (e : Nat) (s : State) : State :=
  match entryOf s e with
  | some x =>
    let b := pageListBytes x.pages
    storeLines (Config.entryLine e 0).toNat 0 x.account ((List.range ((b.length + 63) / 64)).map fun i => (b.drop (64 * i)).take 64) s
  | none => s

/-- Move pages from an entry's reservation to its list, so that a step's positions are covered (10 R351, R352). -/
def listPages (e pre d : Nat) (s : State) : State :=
  match entryOf s e with
  | none => s
  | some x =>
    let last := if pre = 0 then x.promptLen + x.genLen + d else x.prefilled + pre + d
    let want := min (pagesFor last - x.pages.length) x.pagesRsvd
    let r := drawPages x.genImage want s
    let s1 := modEntry e (fun y => { y with pages := y.pages ++ r.1, pagesRsvd := y.pagesRsvd - want }) r.2
    let wantD := if x.draftLen = 0 then 0 else min (pagesFor last - x.draftSkip - x.draftPages.length) x.draftRsvd
    let q := drawPages x.draftImage wantD (storePageList e s1)
    modEntry e (fun y => { y with draftPages := y.draftPages ++ q.1, draftRsvd := y.draftRsvd - wantD }) q.2

/-- What a step's unit runs, in order (10 R372): each draft image of its members, one round a draft token and at least one, by
which its pages keep up with the members' positions; last the generator image. -/
def stepJobs (s : State) (image : Nat) (ms : List StepMember) : List (Nat × Nat) :=
  let ds := ms.filterMap fun m => (entryOf s m.entry).bind fun x =>
    if x.draftLen = 0 ∨ !mhas s.obj.images x.draftImage then none else some (x.draftImage, m.drafts)
  let hs := (ds.map Prod.fst).foldl (fun l h => insertNum h l) []
  (hs.flatMap fun h =>
    (List.range (((ds.filter fun d => d.1 == h).map Prod.snd).foldl max 1)).map fun j => (h, j)) ++ [(image, 0)]

/-- The largest of a field over the images of jobs. -/
def jobMost (s : State) (jobs : List (Nat × Nat)) (f : Image → Nat) : Nat :=
  (jobs.map fun j => ((mget s.obj.images j.1).map f).getD 0).foldl max 0

/-- Form a step of an image for a die mask and a service level (10 R361, 14 R526, 17 R642). -/
def formStep (image dieMask : Nat) (proofing : Bool) (s : State) : State :=
  match mget s.obj.images image with
  | none => s
  | some i =>
    if s.gen.hold || stepInFlight s image then s
    else
      let s1 := expire ((s.gen.entries.filter fun e => e.2.state == .wait && e.2.genImage == image).map Prod.fst) s
      let group := s1.gen.entries.filter fun e => e.2.state == .wait && e.2.genImage == image &&
        acctDies s1 e.2.account == dieMask && e.2.work.proofing == proofing
      match takeMembers (sortBy stepBefore group) i.maxBatch i.maxStepTokens s1 with
      | ([], s2) => s2
      | (ms, s2) =>
        let n := s2.gen.nextStep
        let prios := ms.filterMap fun m => (entryOf s2 m.1).map (·.prio)
        let mems := ms.map fun m => (m.1, ((entryOf s2 m.1).map (·.account)).getD 0, m.2.2.2)
        let parts : List StepMember := ms.map fun m => { entry := m.1, prefill := m.2.1, drafts := m.2.2.1 }
        let jobs := stepJobs s2 image parts
        let u := newUnit (.step n) mems ((minNat prios).getD 0) ((jobs.head?.map Prod.fst).getD image) (max 1 (jobMost s2 jobs (·.span)))
          (jobMost s2 jobs (·.sram)) dieMask s2
        let rec_ : StepRec := { image := image, dieMask := dieMask, proofing := proofing, unit := u.1, formed := now s2
                                members := parts, jobs := jobs }
        foldS ms (fun t m => listPages m.1 m.2.1 m.2.2.1 t)
          (modGen (fun g => { g with nextStep := n + 1, steps := mset g.steps n rec_ }) u.2)

/-- STEP_FORM (10 R361). -/
def execStepForm (image dieMask : Nat) (proofing : Bool) (s : State) : Answer := .next (formStep image dieMask proofing s)

/-! ### Sampling (10 R369, R370) -/

/-- rand64 (10 R370). -/
def rand64 (seed pos : Nat) : Nat :=
  let m := 2 ^ 64
  let x := (seed + (pos + 1) * 0x9E3779B97F4A7C15) % m
  let y := ((x ^^^ (x >>> 30)) * 0xBF58476D1CE4E5B9) % m
  let z := ((y ^^^ (y >>> 27)) * 0x94D049BB133111EB) % m
  z ^^^ (z >>> 31)

/-- RN32(x / T) for a T above 0. -/
def divT (t : Dy) : Fv → Fv
  | .fin n m e => if m = 0 then .fin n 0 0 else rn32Div (Fv.fin n m e).dy t
  | v => v

/-- The weight of a logit: RN32(exp(RN32(z - m))); NaN where the difference has no value. -/
def weightOf (m z : Fv) : Fv :=
  if z.isNan then z
  else match fvDiff z m with
    | none => .nan
    | some v => match fvRn v with
      | .fin a b c => exp32 (Fv.fin a b c).dy
      | .inf true => .fin false 0 0
      | w => w

/-- The weights e of R369. -/
def sampleWeights (t : Dy) (xs : List Fv) : List Fv :=
  let zs := xs.map (divT t)
  let live := zs.filter fun z => !z.isNan
  match live with
  | [] => zs
  | v :: vs => let m := vs.foldl (fun a b => if fvLt a b then b else a) v; zs.map (weightOf m)

/-- The first entry at which the running sum of U passes u, with the sum so far. -/
def passU (r u : Int) : Int → List (Nat × Fv) → Except Int Nat
  | c, [] => .error c
  | c, (i, v) :: l => let c1 := c + (accumulate r [v.dy]).1; if u < c1 then .ok i else passU r u c1 l

/-- The nucleus of top-p: entries kept and the sum M (10 R369). -/
def nucleus (r w p16 : Int) : Int → List SelEntry → List SelEntry × Int
  | c, [] => ([], c)
  | c, e :: es =>
    let c1 := c + (accumulate r [e.val.dy]).1
    if p16 * w ≤ c1 * 65536 then ([e], c1) else let k := nucleus r w p16 c1 es; (e :: k.1, k.2)

/-- SAMPLE (10 R369): the token of a position; none when no logit gives a weight, a case the spec does not state. -/
def sampleToken (logits : List (BitVec 32)) (temp : BitVec 32) (topK p16 seed pos : Nat) : Option Nat :=
  let xs := logits.map fun b => f32Val b.toNat
  let t := (f32Val temp.toNat).dy
  if t.m = 0 then (selectTop 0 0 1 (logits.map fun b => (false, b.toNat))).entries.head?.map (·.idx)
  else
    let e := sampleWeights t xs
    let sel := selectTop 0 0 (if topK = 0 then 256 else topK) (e.map fun v => (false, f32Bits v))
    let full := topK = 0 ∧ p16 = 65536
    let w := sel.sel + sel.out
    let k := if full then (sel.entries, w) else nucleus sel.r w p16 0 sel.entries
    if k.2 ≤ 0 then none
    else
      let u : Int := ((rand64 seed pos : Int) * k.2) / 2 ^ 64
      match passU sel.r u 0 (k.1.map fun x => (x.idx, x.val)) with
      | .ok i => some i
      | .error c =>
        let rest := (withPos e).filter fun x => !x.2.isNan && !sel.entries.any fun y => y.idx == x.1
        match passU sel.r u c rest with
        | .ok i => some i
        | .error _ => none

/-- Draft tokens accepted: the length of the common start (10 R372). -/
def accepted : List Nat → List Nat → Nat
  | t :: ts, d :: ds => if t = d then 1 + accepted ts ds else 0
  | _, _ => 0

/-! ### Commit points: their parts (10 R363 to R384) -/

/-- What the verified tokens of a member deliver (10 R374, R383): tokens, text, detokenizer, finish. -/
structure Delivery where
  ids : List Nat := []
  text : Bytes := []
  detok : Detok
  finish : Option Nat := none
deriving DecidableEq, Repr

/-- Deliver verified tokens in order up to the one that finishes the request. -/
def deliverTokens (tk : Tokenizer) (st : StopSet) (maxNew : Nat) : Nat → List Nat → Detok → Delivery
  | _, [], d => { detok := d }
  | n, t :: ts, d =>
    let p := detokPush tk st t d
    let fin := if p.2.stop.isSome then some Status.stop else if tk.eos.contains t then some Status.eos
      else if maxNew ≤ n + 1 then some Status.length else none
    match fin with
    | some f =>
      let q := detokFlush st p.2
      { ids := [t], text := p.1 ++ q.1, detok := q.2, finish := some f }
    | none =>
      let r := deliverTokens tk st maxNew (n + 1) ts p.2
      { r with ids := t :: r.ids, text := p.1 ++ r.text }

/-- The finish that a cancel accepted before the commit's cycle, or a deadline, forces on a member (10 R379 to R381; 14
R541). -/
def forcedFinish (s : State) (x : RtEntry) : Option Nat :=
  let dl := decide (x.deadline ≠ 0) && decide (x.deadline ≤ now s)
  if x.work.disabled then some Status.functionReset
  else if cancelledBefore s x && dl then some (if x.deadline ≤ x.cancelTime then Status.deadline else Status.cancelled)
  else if cancelledBefore s x then some Status.cancelled
  else if dl then some Status.deadline
  else none

/-- A step record (10 R367). -/
structure StepText where
  ids : List Nat
  want : Bool
  text : Bytes
  final : Option Nat
  degraded : Nat
  tag : Nat
  time : Nat
  seq : Nat
  stop : Option Nat
  falseStarts : Nat
  baton : Option Nat
  refused : Bool

def StepText.bytes (r : StepText) : Bytes :=
  let ids := if r.want then r.ids else []
  let body := 40 + 4 * ids.length + r.text.length
  let len := roundUp body 16
  padTo (leBytes 2 len ++ leBytes 1 0x41 ++ leBytes 1 r.ids.length ++ leBytes 2 r.text.length ++
    leBytes 1 (b2n r.final.isSome + 2 * b2n r.baton.isSome + 4 * b2n r.want + 8 * b2n r.refused) ++ leBytes 1 r.degraded ++
    leBytes 8 r.tag ++ leBytes 8 r.time ++ leBytes 4 r.seq ++ leBytes 2 (r.final.getD 0) ++
    leBytes 1 (if r.final = some Status.stop then r.stop.getD 255 else 255) ++ leBytes 1 (min 255 r.falseStarts) ++
    leBytes 8 (r.baton.getD 0) ++ (ids.flatMap fun t => leBytes 4 (t % 2 ^ 20)) ++ r.text) len

/-- Write a record into a queue pair's stream ring, after a pad record when it would straddle the end (15 R565). -/
def streamWrite (q : Nat) (b : Bytes) (s : State) : State :=
  let qp := qpOf s q
  let size := stSize qp
  let off := qp.produced % size
  let gap := size - off
  let put (o : Nat) (x : Bytes) (t : State) : State :=
    evCount 1 3 ((x.length + 63) / 64) (modQp q (fun y => { y with produced := y.produced + x.length }) (dmaWrite (qp.stBase.toNat + o) x t))
  if b.length ≤ gap then put off b s
  else put 0 b (put off (padTo (leBytes 2 (gap % 65536) ++ leBytes 1 0x40) gap) s)

/-- Create the baton of a request at the commit of its first token (10 R355 to R357): its handle, or none when 65,536 are
live. -/
def createBaton (e : Nat) (s : State) : Option Nat × State :=
  match entryOf s e with
  | none => (none, s)
  | some x =>
    match (List.range 65536).find? (fun k => !mhas s.gen.batons k && !justFreed s (.baton k)) with
    | none => (none, s)
    | some k =>
      let issue := mgetD s.gen.batonIssues k 0 + 1
      let n := x.work.batonLen / 16
      let b : Baton := { issue := issue, live := true, account := x.account, fn := x.fn, image := x.genImage
                         pages := x.pages.take n, tokens := x.work.prompt.take x.work.batonLen }
      let h := batonHandle k issue
      (some h, modEntry e (fun y => { y with baton := h, batonPages := max y.batonPages n })
        (modGen (fun g => { g with batons := mset g.batons k b, batonIssues := mset g.batonIssues k issue }) s))

/-- The last position of a member that is no draft position, counted over prompt and generated tokens (10 R361). -/
def lastPlain (x : RtEntry) (m : StepMember) : Nat :=
  if m.prefill = 0 then x.promptLen + x.genLen - 1 else x.prefilled + m.prefill - 1

/-- What a commit makes of a member's lookups (10 R376): positions from `from_` on are rejected. -/
structure Verdict where
  entry : Nat
  from_ : Nat
  upTo : Nat
deriving DecidableEq, Repr

/-- Whether a member's commit rejects a position. -/
def Verdict.rejects (v : Verdict) (e p : Nat) : Bool := v.entry == e && decide (v.from_ ≤ p) && decide (p < v.upTo)

/-- Whether some verdict rejects a lookup's position. -/
def rejectedLook (vs : List Verdict) (k : Look) : Bool := vs.any fun v => v.rejects k.entry k.pos

/-- The rejected positions of a member whose lookups touched shared state: its false starts (10 R376). -/
def falseStartsOf (r : StepRec) (v : Verdict) : Nat :=
  ((List.range v.upTo).filter fun p => v.rejects v.entry p && r.looks.any fun k => k.entry == v.entry && k.pos == p).length

/-- Withdraw from the hot-row pacer's counts the lookups that rejected positions alone made, each once (10 R376, 11 R426). -/
def withdrawLooks (vs : List Verdict) (l : List Look) (s : State) : State :=
  let once := l.foldl (fun (a : List Look) k =>
    if a.any fun b => b.op == k.op && b.slot == k.slot && b.version == k.version && b.row == k.row then a else k :: a) []
  let gone := once.filter fun k =>
    (l.filter fun b => b.op == k.op && b.slot == k.slot && b.version == k.version && b.row == k.row).all (rejectedLook vs)
  foldS gone (fun t k => modVersion k.slot k.version (fun v => { v with lookups := mupd v.lookups k.row fun n => n - 1 }) t) s

/-- Charge a step's flash unit reads (10 R376, 14 R543, R545): to the lowest entry whose positions named a row of the unit; as
speculative when rejected positions alone named them; the whole unit's when no position has looked one up. -/
def chargeReads (vs : List Verdict) (u : SUnit) (r : StepRec) (s : State) : State :=
  foldS r.reads (fun t x =>
    let ks := r.looks.filter fun k => k.slot == x.1 && x.2.contains k.row
    match minNat ((ks.filter fun k => !rejectedLook vs k).map (·.entry)), minNat (ks.map (·.entry)) with
    | some e, _ => charge e { flashReads := 1 } t
    | none, some e => charge e { flashSpec := 1 } t
    | none, none => chargeUnit u 1 (fun q => { flashReads := q }) t) s

/-- The degraded byte of the delivered tokens. -/
def degradedByte (l : List Bool) : Nat := ((withPos l).map fun e => b2n e.2 * 2 ^ e.1).sum

/-- Deliver a member's tokens (10 R363 to R376): records, counters, its baton, and its finish. -/
def commitTokens (e : Nat) (x : RtEntry) (m : StepMember) (last : Nat) (r : StepRec) (s : State) : Option Nat × State :=
  match x.work.tokenizer with
  | none => (none, s)
  | some tk =>
    let drafts := m.proposed.take m.drafts
    let a := accepted m.tokens drafts
    let d0 : Detok := ⟨x.work.out, x.work.rel, x.work.tail, x.work.invalidOut, none⟩
    let dv := deliverTokens tk x.stop x.maxNew x.genLen (m.tokens.take (a + 1)) d0
    let n := dv.ids.length
    let rejected := m.drafts - a
    let fs := falseStartsOf r ⟨e, last + a + 1, last + 1 + m.drafts⟩
    let deg := (List.range n).map fun i => r.proofing || r.late.contains (e, last + i) || (i == 0 && x.work.degradedNext)
    let nd := (deg.filter id).length
    let s1 := modEntry e (fun y => { y with
      genLen := y.genLen + n, stepSeq := y.stepSeq + 1, draftFilled := last + max 1 (min m.drafts (a + 1))
      work := { y.work with
        gen := y.work.gen ++ dv.ids, out := dv.detok.out, rel := dv.detok.rel, tail := dv.detok.tail
        invalidOut := dv.detok.invalid, stopIndex := dv.detok.stop
        degradedNext := false, anyDegraded := y.work.anyDegraded || deg.any id } }) s
    let s2 := charge e { tokensOut := n, degraded := nd, falseStarts := fs, draftsRejected := rejected } s1
    let wantB := x.batonCreate && x.genLen == 0 && decide (0 < n)
    let cb := if wantB then createBaton e s2 else (none, s2)
    let rec_ : StepText :=
      { ids := dv.ids, want := x.wantTokens, text := dv.text, final := dv.finish, degraded := degradedByte deg, tag := x.tag
        time := now s, seq := x.stepSeq, stop := dv.detok.stop, falseStarts := fs, baton := cb.1
        refused := wantB && cb.1.isNone }
    let s4 := streamWrite x.qp rec_.bytes cb.2
    let s5 := modGen (fun g => { g with
      tokens := g.tokens + n, draftRejected := g.draftRejected + rejected, falseStarts := g.falseStarts + fs
      degraded := g.degraded + nd }) s4
    let s6 := modObj (fun ob => { ob with txtDetok := ob.txtDetok + n, txtStops := ob.txtStops + b2n (dv.finish == some Status.stop) }) s5
    let s7 := evCount 4 5 (b2n (dv.finish == some Status.stop)) (evCount 4 4 n s6)
    (dv.finish, evCount 3 7 nd (evCount 3 6 fs (evCount 3 5 rejected (evCount 3 4 n s7))))

/-- Whether a member yields a token: it decodes, or its prefill ends with this step. -/
def yieldsToken (x : RtEntry) (m : StepMember) : Bool := decide (x.promptLen ≤ x.prefilled + m.prefill)

/-- Apply a step's outcome to one member; the finish found, when it ends. -/
def commitMember (m : StepMember) (r : StepRec) (s : State) : Option Nat × State :=
  match entryOf s m.entry with
  | none => (none, s)
  | some x =>
    if x.state ≠ .step then (none, modQp x.qp (fun q => { q with stReserved := q.stReserved - stepReserve }) s) else
    let last := lastPlain x m
    let s1 := modEntry m.entry (fun y => { y with lastCommit := now s, state := .wait })
      (modQp x.qp (fun q => { q with stReserved := q.stReserved - stepReserve }) (charge m.entry { tokensIn := m.prefill } s))
    match forcedFinish s x with
    | some f => (some f, s1)
    | none =>
      let s2 := modEntry m.entry (fun y => { y with prefilled := y.prefilled + m.prefill, draftFilled := last + 1 }) s1
      let s3 := if m.prefill ≠ 0 then
          modWork m.entry (fun w => { w with degradedNext := w.degradedNext || r.late.any fun p => p.1 == m.entry && decide (p.2 ≤ last) }) s2
        else s2
      if yieldsToken x m && !m.tokens.isEmpty then
        match entryOf s3 m.entry with
        | some y => commitTokens m.entry y m last r s3
        | none => (none, s3)
      else (none, s3)

/-- The rejected draft positions of a member that no finish is forced on (10 R372, R376). -/
def verdictOf (s : State) (m : StepMember) : List Verdict :=
  match entryOf s m.entry with
  | none => []
  | some x =>
    if x.state ≠ .step ∨ (forcedFinish s x).isSome ∨ !yieldsToken x m ∨ m.tokens.isEmpty then []
    else
      let last := lastPlain x m
      [⟨m.entry, last + accepted m.tokens (m.proposed.take m.drafts) + 1, last + 1 + m.drafts⟩]

/-- Commit the members of a step in order; the finishes found. -/
def commitAll (r : StepRec) : List StepMember → State → List (Nat × Nat) × State
  | [], s => ([], s)
  | m :: ms, s =>
    let x := commitMember m r s
    let q := commitAll r ms x.2
    (match x.1 with | some f => ((m.entry, f) :: q.1, q.2) | none => q)

/-- Write the produced count of a queue pair back (15 R565). -/
def writeBack (q : Nat) (s : State) : State := dmaWrite (qpOf s q).stWb.toNat (leBytes 8 (qpOf s q).produced) s

/-- Queue pairs of members that wrote records: those whose produced count changed. -/
def wroteQps (a b : State) (ms : List StepMember) : List Nat :=
  (ms.filterMap fun m => (entryOf a m.entry).map (·.qp)).foldl (fun l q =>
    if (qpOf a q).produced ≠ (qpOf b q).produced then insertNum q l else l) []

/-- A step starts over with some members, its jobs first to last, nothing proposed or sampled; lookups and reads made so far
stay noted (10 R365, R366). -/
def resetStep (k : Nat) (r : StepRec) (left : List StepMember) (s : State) : State :=
  let ms := left.map fun m => { m with proposed := [], tokens := [] }
  let jobs := stepJobs s r.image ms
  modSched (fun d => { d with units := mupd d.units r.unit fun u => { u with image := (jobs.head?.map Prod.fst).getD r.image } })
    (modGen (fun g => { g with steps := mset g.steps k { r with members := ms, jobs := jobs, late := [] } }) s)

/-- A step runs again from its beginning: its unit gives up its contexts and is ready, without some clusters (10 R365,
R366). -/
def restartStep (n : Nat) (avoid : List Nat) (s : State) : State :=
  match mget s.sched.units n with
  | none => s
  | some u =>
    let s1 := freeSlots n u.slots s
    let accts := u.members.foldl (fun l m => insertNum m.2.1 l) []
    let s2 := foldS accts (fun t a => raiseVtime u.prio a t) s1
    modSched (fun d => { d with units := mupd d.units n fun x => { x with
      slots := [], saved := [], savedOn := none, marked := none, sliceEnded := none, readyTime := now s, avoid := avoid } }) s2

/-- Charge what a step has read from flash so far, before members of it end without a commit: no position is rejected (14
R544). -/
def settleReads (r : StepRec) (s : State) : State :=
  match mget s.sched.units r.unit with
  | some u => chargeReads [] u r s
  | none => s

/-- End a member whose own data faulted; the step then runs again without it (10 R366). -/
def dropFaulted (step : Nat) (r0 : StepRec) (bad : List StepMember) (s0 : State) : State :=
  let s := settleReads r0 s0
  let r := { r0 with reads := [] }
  let left := r.members.filter fun m => !bad.contains m
  let s1 := foldS bad (fun t m =>
    match entryOf t m.entry with
    | some x => endFault m.entry 6 12
        (charge m.entry { faults := 1 } (modQp x.qp (fun q => { q with stReserved := q.stReserved - stepReserve }) t))
    | none => t) s
  if left.isEmpty then
    let s2 := endUnit r.unit (modGen (fun g => { g with steps := merase g.steps step }) s1)
    foldS (bad.map (·.entry)) (fun t e => returnEntry e t) s2
  else restartStep r.unit (((mget s1.sched.units r.unit).map (·.avoid)).getD [])
    (modSched (fun d => { d with units := mupd d.units r.unit fun u => { u with
      members := u.members.filter fun m => left.any fun l => l.entry == m.1 } })
      (resetStep step r left s1))

/-- A member that the commit did not finish and whose cancel was accepted in the commit's cycle: its tokens stand, it ends
CANCELLED, and the cancel completes OK (10 R379). -/
def cancelAfter (e : Nat) (s : State) : State :=
  match entryOf s e with
  | some x => if x.state = .wait ∧ x.cancelPending then endEntry e Status.cancelled 0 12 x.genLen s else s
  | none => s

/-- Whether a step's unit has run its last job to the end. -/
def stepDone (s : State) (r : StepRec) : Bool :=
  decide (r.jobs.length ≤ 1) && (match mget s.sched.units r.unit with | some u => unitDone s u | none => true)

/-! ### Control registers (10 R386, R389) -/

/-- GEN_HOLD (10 R386): GEN_CTL.hold as written by a physical function. -/
def execGenHold (fn : Nat) (value : BitVec 32) (s : State) : Answer :=
  .next (if fn ≤ 1 then modGen (fun g => { g with hold := value.getLsbD 0 }) s else s)

/-- RT_WIN_LATCH (10 R389): the selected entry's bytes are latched; a FREE entry reads zero. -/
def execRtWinLatch (fn : Nat) (value : BitVec 32) (s : State) : Answer :=
  .next (if fn ≤ 1 then
      let e := value.toNat % 4096
      modGen (fun g => { g with winSel := BitVec.ofNat 32 e
                                win := match mget g.entries e with | some x => entryBytes e x | none => zeros 256 }) s
    else s)

end Sys2Proof.Machine
end

