-- ==== Sys2Proof/Machine/Positions.lean ====
section
/-! DEFINITION. The positions a unit's tensors run over, and how its tensors of tier 4 are bound to the memory of the requests it
serves: pages, token IDs, positions, pair batches, and rows kept from step to step (05 R154; 09 R327 to R329; 10 R349, R353,
R361, R372; assumption 22). -/

namespace Sys2Proof.Machine

/-! ### Positions -/

/-- A position that a unit's job runs over: its request, its place in the request's or the pair's tokens, its token, whether it
is a draft position, the generated position a token is picked for, its pair, and whether it only pads its pair. -/
structure RowPos where
  entry : Nat
  pos : Nat
  token : Nat
  draft : Bool := false
  picks : Option Nat := none
  pair : Option Nat := none
  pad : Bool := false
deriving DecidableEq, Repr

/-- The token of a member's position: of its prompt, of what it has generated, or a draft behind them. -/
def tokenAt (x : RtEntry) (m : StepMember) (p : Nat) : Nat :=
  let g := p - x.promptLen
  (if p < x.promptLen then x.work.prompt[p]? else if g < x.work.gen.length then x.work.gen[g]? else m.proposed[p - lastPlain x m - 1]?).getD 0

/-- One of a member's positions. -/
def rowAt (e : Nat) (x : RtEntry) (m : StepMember) (p : Nat) : RowPos :=
  { entry := e, pos := p, token := tokenAt x m p, draft := decide (lastPlain x m < p)
    picks := if yieldsToken x m && decide (lastPlain x m ≤ p) then some (p + 1 - x.promptLen) else none }

/-- The positions of a member in the generator image's job: its chunk or its next position, then its drafts (10 R361, R372). -/
def generatorRows (e : Nat) (x : RtEntry) (m : StepMember) : List RowPos :=
  let first := if m.prefill = 0 then lastPlain x m else x.prefilled
  (List.range (lastPlain x m + 1 + m.drafts - first)).map fun i => rowAt e x m (first + i)

/-- The positions of a member in a round of its draft image: first those its draft pages do not hold yet, then one draft
position a round (10 R372, R375). -/
def draftRows (image round e : Nat) (x : RtEntry) (m : StepMember) : List RowPos :=
  let last := lastPlain x m
  if x.draftLen = 0 ∨ x.draftImage ≠ image then []
  else if round = 0 then (List.range (last + 1 - x.draftFilled)).map fun i => rowAt e x m (x.draftFilled + i)
  else if round < m.drafts then [rowAt e x m (last + round)]
  else []

/-- The pair batch of stage 9: the pairs end to end, each from a 32-token boundary on, token 0 in between (09 R329). -/
def pairRows (e : Nat) (pairs : List (List Nat)) : List RowPos :=
  (withPos pairs).flatMap fun k => (List.range (roundUp k.2.length 32)).map fun i =>
    { entry := e, pos := i, token := (k.2[i]?).getD 0, pair := some k.1, pad := decide (k.2.length ≤ i) }

/-- Stage 9's pairs of an entry (09 R327). -/
def entryPairs (s : State) (e : Nat) : List (List Nat) :=
  match entryOf s e with
  | some x => match x.work.profile, mget s.obj.collections x.work.search.par.coll with
    | some p, some c => pairsOf s x c p
    | _, _ => []
  | none => []

/-- The job a step's unit runs: an image and a round. -/
def stepJob (r : StepRec) : Nat × Nat := r.jobs.headD (r.image, 0)

/-- The positions a unit runs over: the query tokens in stage 3, the pair batch in stage 9, a step's members' positions. -/
def unitRows (s : State) (u : SUnit) : List RowPos :=
  match u.kind with
  | .run _ => []
  | .stage e 3 => (withPos (((entryOf s e).map (·.work.tokens)).getD [])).map fun t => { entry := e, pos := t.1, token := t.2 }
  | .stage e 9 => pairRows e (entryPairs s e)
  | .stage _ _ => []
  | .step k =>
    match mget s.gen.steps k with
    | none => []
    | some r => r.members.flatMap fun m => match entryOf s m.entry with
      | some x => if (stepJob r).1 = r.image then generatorRows m.entry x m else draftRows (stepJob r).1 (stepJob r).2 m.entry x m
      | none => []

/-- The last position of each request, in order. -/
def lastRows (ps : List RowPos) : List RowPos :=
  (withPos ps).filterMap fun p => if (ps.drop (p.1 + 1)).any fun q => q.entry == p.2.entry then none else some p.2

/-- The pairs of a batch, each padded to the length of the longest. -/
def pairGrid (ps : List RowPos) : List RowPos :=
  let pairs := (ps.filterMap (·.pair)).foldl (fun l k => insertNum k l) []
  let rows (k : Nat) : List RowPos := ps.filter fun p => p.pair == some k
  let most := (pairs.map fun k => (rows k).length).foldl max 0
  pairs.flatMap fun k => (List.range most).map fun i =>
    ((rows k)[i]?).getD { entry := ((ps.head?).map (·.entry)).getD 0, pos := i, token := 0, pair := some k, pad := true }

/-- The position that index `i` of `n` rows belongs to: one row a position, a position that picks a token, a request, or a
position of the grid of pairs; else the rows of a position lie together (assumption 22). -/
def posOf (ps : List RowPos) (n i : Nat) : Option RowPos :=
  let picks := ps.filter fun p => p.picks.isSome
  if n = ps.length then ps[i]?
  else if n = picks.length then picks[i]?
  else if n = (lastRows ps).length then (lastRows ps)[i]?
  else if n = (pairGrid ps).length then (pairGrid ps)[i]?
  else ps[i / max 1 (n / max 1 ps.length)]?

/-! ### Tensors of tier 4 (05 R154; assumption 22) -/

/-- What memory of a request a tensor of tier 4 is bound to. -/
inductive TensorRole where
  /-- key-value pages -/
  | paged
  /-- rows that an operation writes and later steps read -/
  | kept
  /-- positions -/
  | positions
  /-- token IDs -/
  | tokens
  /-- the mask of a pair batch -/
  | pairMask
  /-- the query length of each pair -/
  | queryLens
  /-- none -/
  | plain
deriving DecidableEq, Repr

/-- Whether some operation of given opcodes reads a tensor as its k-th input. -/
def readAs (i : Image) (ops : List Nat) (k id : Nat) : Bool := i.ops.any fun o => ops.contains o.opcode && o.ins[k]? == some id

/-- The role of a tensor in a unit (assumption 22). -/
def roleOf (i : Image) (kind : UnitKind) (id : Nat) (t : TensorDesc) : TensorRole :=
  let pairs := match kind with | .stage _ 9 => true | _ => false
  if t.tier ≠ 4 ∨ t.constant then .plain
  else match kind with
    | .run _ => .plain
    | _ =>
      if isPaged i id then .paged
      else if writtenByOps i id then .kept
      else if readAs i [0x14] 1 id then .positions
      else if readAs i [0x50, 0x51, 0x74] 0 id then .tokens
      else if pairs && t.fmt == 0xB then .pairMask
      else if pairs && t.rank == 1 && (t.dims.headD 0).testBit 31 && bitsOf (t.dims.headD 0) 30 28 == 3 then .queryLens
      else .plain

/-- Numbers as a tensor's elements and scales. -/
def numTensor (t : TensorDesc) (dims : List Nat) (l : List Nat) : Bytes × Bytes :=
  let at_ (q : Nat) : Nat := (l[rowMajor t dims q]?).getD 0
  let qs := List.range (elemsOf dims)
  if isMx t.fmt || t.fmt ≤ 2 then
    let c := convVector t.fmt false (qs.map fun q => Fv.ofDy ⟨at_ q, 0⟩)
    (c.1, c.2.1)
  else (packBits (elemBits t.fmt) (qs.map at_), [])

/-- A number of each row of a tensor, by its position. -/
def rowNums (ps : List RowPos) (dims : List Nat) (f : RowPos → Nat) : List Nat :=
  let n := elemsOf dims
  (List.range n).map fun i => ((posOf ps n i).map f).getD 0

/-- Whether attention keeps two positions apart: one of them pads, or they are of two pairs or requests (09 R329). -/
def apart (a b : Option RowPos) : Bool :=
  match a, b with
  | some x, some y => x.pad || y.pad || x.pair != y.pair || x.entry != y.entry
  | _, _ => true

/-- The pair mask: an element is 1 where its row and its column are kept apart (09 R329). -/
def pairMaskNums (ps : List RowPos) (dims : List Nat) : List Nat :=
  let w := (dims.getLast?).getD 1
  let h := max 1 ((dims[dims.length - 2]?).getD 1)
  (List.range (elemsOf dims)).map fun j => b2n (apart (posOf ps h (j / w % h)) (posOf ps w (j % w)))

/-- The key of a kept tensor among a request's rows. -/
def bufKey (image id : Nat) : Nat := 2 ^ 32 * image + id

/-- The requests of some positions, in order. -/
def rowRequests (ps : List RowPos) : List Nat := (lastRows ps).map (·.entry)

/-- What a tensor of tier 4 that its context has not written reads as, none for one bound to nothing. -/
def boundBytes (s : State) (u : SUnit) (i : Image) (id : Nat) (t : TensorDesc) (dims : List Nat) : Option (Bytes × Bytes) :=
  let ps := unitRows s u
  match roleOf i u.kind id t with
  | .paged => none
  | .plain => none
  | .kept => some (tensorOfRows t dims ((rowRequests ps).flatMap fun e =>
      ((entryOf s e).bind fun x => mget x.work.bufs (bufKey u.image id)).getD []))
  | .positions => some (numTensor t dims (rowNums ps dims (·.pos)))
  | .tokens => some (numTensor t dims (rowNums ps dims (·.token)))
  | .pairMask => some (numTensor t dims (pairMaskNums ps dims))
  | .queryLens => (u.members.head?.bind fun m => entryOf s m.1).map fun x =>
      numTensor t dims ((entryPairs s (u.members.headD (0, 0, 0)).1).map fun p => min p.length x.work.tokens.length)

/-- The rows of a kept tensor pass to the requests their positions belong to (05 R154). -/
def publishTensor (u : SUnit) (ps : List RowPos) (id : Nat) (t : TensorDesc) (v : Tensor) (s : State) : State :=
  let rows := rowsOfTensor t v.dims v.data v.scales
  foldS (rowRequests ps) (fun z e =>
    let own := (withPos rows).filterMap fun r => if (posOf ps rows.length r.1).map (·.entry) = some e then some r.2 else none
    modWork e (fun w => { w with bufs := mset w.bufs (bufKey u.image id) own }) z) s

/-- What a step's job has written into kept tensors passes to its requests. -/
def publishRows (u : SUnit) (s : State) : State :=
  match mget s.obj.images u.image, unitCtxs s u with
  | some i, c :: _ => foldS c.tensors (fun z v => match tensorAt i.tensors v.1 with
      | some t => if roleOf i u.kind v.1 t = .kept then publishTensor u (unitRows s u) v.1 t v.2 z else z
      | none => z) s
  | _, _ => s

/-! ### Key-value pages (10 R349 to R353) -/

/-- The page of an image's pool that holds a position of a request, none when its list has none. -/
def kvPage (x : RtEntry) (image pos : Nat) : Option Nat :=
  if image = x.genImage then x.pages[pos / 16]?
  else if pos / 16 < x.draftSkip then none
  else x.draftPages[pos / 16 - x.draftSkip]?

/-- A key-value entry of a request's position, none when nothing was written there. -/
def kvRow (s : State) (x : RtEntry) (image block pos : Nat) : Option ERow :=
  (kvPage x image pos).bind fun p => (mget s.obj.images image).bind fun i => mget (mgetD i.kv p []) (block + pos % 16)

/-- Write a row into the page of a request's position (10 R353). -/
def putKv (image block : Nat) (r : RowPos) (row : ERow) (s : State) : State :=
  match (entryOf s r.entry).bind fun x => kvPage x image r.pos with
  | some p => modObj (fun o => { o with images := mupd o.images image fun i =>
      { i with kv := mmod i.kv p [] fun m => mset m (block + r.pos % 16) row } }) s
  | none => s

/-- An operation's output in a paged tensor: each row goes to the page of its position. -/
def putPaged (u : SUnit) (i : Image) (id : Nat) (t : TensorDesc) (dims : List Nat) (data scales : Bytes) (s : State) : State :=
  let rows := rowsOfTensor t dims data scales
  let ps := unitRows s u
  foldS (kvBlocks i id) (fun z b => foldS (withPos rows) (fun y r => match posOf ps rows.length r.1 with
    | some p => putKv u.image b p r.2 y
    | none => y) z) s

/-! ### The commit of a step (10 R363 to R384) -/

/-- A step's commit point, once its unit has run the generator image to the end (10 R363, R364, R384); what its last job
kept passes to its requests, and its members' pending fills are ordinary copies or dropped (18 R685). -/
def commitStep (step : Nat) (s : State) : State :=
  match mget s.gen.steps step with
  | none => s
  | some r =>
    if !stepDone s r then s
    else
      let vs := r.members.flatMap (verdictOf s)
      let s0 := withdrawLooks vs r.looks (match mget s.sched.units r.unit with
        | some u => chargeReads vs u r (publishRows u s)
        | none => s)
      let c := commitAll r r.members s0
      let s1 := foldS (wroteQps s c.2 r.members) (fun t q => writeBack q t) c.2
      let s2 := foldS c.1 (fun t f => match entryOf t f.1 with
        | some x => endEntry f.1 f.2 0 (if f.2 = Status.stop ∨ f.2 = Status.eos ∨ f.2 = Status.length then 13 else 12) x.genLen
            (lateCancels f.1 t)
        | none => t) s1
      let s2 := foldS (r.members.filter fun m => !c.1.any fun f => f.1 == m.entry) (fun t m => cancelAfter m.entry t) s2
      let accts := r.members.filterMap fun m => (entryOf s m.entry).map (·.account)
      let s2 := modMem (fun m => { m with pendingFills := m.pendingFills.filter fun p => !accts.contains p.1 }) s2
      let s3 := endUnit r.unit (modGen (fun g => { g with steps := merase g.steps step, stepCount := g.stepCount + 1 }) s2)
      let waiting := (s3.gen.entries.filter fun e => e.2.state == .drain && e.2.genImage == r.image).map Prod.fst
      foldS waiting (fun t e => returnEntry e t) (evCount 3 3 1 s3)

/-- STEP_COMMIT (10 R363). -/
def execStepCommit (step : Nat) (s : State) : Answer := .next (commitStep step s)

end Sys2Proof.Machine
end

