-- ==== Sys2Proof/Machine/Sched.lean ====
section
/-! DEFINITION. The scheduler (14, Units and slots to Faults; 05, Contexts and cores): slots, placement, victims, slices and
debt, preemption points, the watchdog and the teardown of a context; its hold bit and the account window. -/

namespace Sys2Proof.Machine

/-! ### Instances in records (02 R38, 19 R716) -/

/-- The instance word of a record: global number and unit type in the order of 02 R38's table. -/
def instWord (type num : Nat) : Nat := type % 256 + 256 * num
def instDie (d : Nat) : Nat := instWord 1 d
def instCluster (g : Nat) : Nat := instWord 2 g
def instStack (n : Nat) : Nat := instWord 5 n
def instHub (n : Nat) : Nat := instWord 6 n
def instChannel (n : Nat) : Nat := instWord 7 n
def instPort (n : Nat) : Nat := instWord 11 n

/-! ### Homes of rows (12 R434) and affinity (14 R531) -/

/-- Rows per 2 MiB page (12 R434). -/
def rowsPerPage (t : Table) : Nat := max 1 (2097152 / slotBytesOf t.fmt t.rowElems)

/-- The stack of a row's home copy (12 R434, 17 R645). -/
def homeStack (s : State) (slot : Nat) (t : Table) (row : Nat) : Nat :=
  servingStack s ((7 * slot + row / rowsPerPage t) % 20)

/-- The compute die of a stack (02 R40). -/
def stackDie (n : Nat) : Nat := n / 5

/-- Rows below `n` of a table whose home lies on a die. -/
def dieRowsBelow (s : State) (slot : Nat) (t : Table) (d n : Nat) : Nat :=
  let rpp := rowsPerPage t
  let rem := n % (20 * rpp)
  n / (20 * rpp) * (5 * rpp) +
    ((List.range 20).map fun p => if stackDie (servingStack s ((7 * slot + p) % 20)) = d then min rpp (rem - p * rpp) else 0).sum

/-- The die with the most rows named by the unit's outstanding relay-schedule entries, ties to the lower (14 R531). -/
def affinityDie (s : State) (u : SUnit) : Nat :=
  let fs := (unitCtxs s u).flatMap fun c => c.fetches.filter fun f => f.state == .outstanding
  let n (d : Nat) : Nat := (fs.map fun f => (f.dieRows[d]?).getD 0).sum
  [1, 2, 3].foldl (fun best d => if n best < n d then d else best) 0

/-! ### Slots (14 R525, R531) -/

/-- SRAM a cluster's resident contexts hold (05 R176). -/
def sramUsed (s : State) (g : Nat) : Nat :=
  ((clusterOf s g).slots.map fun p => ((mget s.sched.units p.2.unit).map (·.sram)).getD 0).sum

/-- Whether a cluster takes work (14 R525). -/
def clusterOpen (c : Cluster) : Bool := c.powered && !c.poweringOn && !c.retired && !c.drain

/-- Whether a live update of its microcode holds a cluster (17 R652). -/
def inUpdate (s : State) (g : Nat) : Bool :=
  match s.boot.lsOp with
  | some o => o.op == 4 && o.target == g
  | none => false

/-- Whether a cluster's running microcode is at least a unit's image's min_microcode (17 R658). -/
def ucodeServes (s : State) (u : SUnit) (c : Cluster) : Bool :=
  match mget s.obj.images u.image with
  | some i => decide (i.minMicrocode ≤ c.ucode)
  | none => true

/-- The compute dies a unit may be placed on: its group's for a step, else those its account names now (14 R518, R526). -/
def unitDies (s : State) (u : SUnit) : Nat :=
  match u.kind, u.accounts with
  | .step _, _ => u.dieMask
  | _, a :: _ => acctDies s a
  | _, [] => u.dieMask

/-- The slot a unit may take on a cluster: the lowest free one (14 R525). -/
def freeSlot (s : State) (u : SUnit) (g : Nat) : Option Nat :=
  let c := clusterOf s g
  if clusterOpen c && netOn s g && !inUpdate s g && ucodeServes s u c && (unitDies s u).testBit (g / 80) && !u.avoid.contains g && decide (sramUsed s g + u.sram ≤ 6029312) then
    (List.range 4).find? fun x => !mhas c.slots x && !justFreed s (.slot g x)
  else none

/-- The place of a cluster in the order of 14 R531. -/
def placeRank (s : State) (n : Nat) (u : SUnit) (g : Nat) : Nat :=
  let c := clusterOf s g
  if (match c.weights with | some w => w.unit == n | none => false) || u.savedOn == some g then 0
  else if g / 80 = affinityDie s u then 1
  else if c.awake then 2
  else 3

/-- The clusters of the module. -/
def allClusters : List Nat := List.range 320

/-- The best free slots of a unit, those on given clusters first, none when it finds fewer than its span (14 R525, R530,
R531). -/
def slotsFrom (pref : List Nat) (s : State) (n : Nat) (u : SUnit) : Option (List (Nat × Nat)) :=
  let free := allClusters.filterMap fun g => (freeSlot s u g).map fun x => (g, x)
  let mine := free.filter fun p => pref.contains p.1
  let other := free.filter fun p => !pref.contains p.1
  let pick (r : Nat) : List (Nat × Nat) := other.filter fun p => placeRank s n u p.1 == r
  let l := (mine ++ pick 0 ++ pick 1 ++ pick 2 ++ pick 3).take u.span
  if l.length = u.span ∧ u.span ≠ 0 then some l else none

/-- The best free slots of a unit (14 R531). -/
def bestSlots (s : State) (n : Nat) (u : SUnit) : Option (List (Nat × Nat)) := slotsFrom [] s n u

/-! ### Slices (14 R534, R535) -/

/-- An account's slice length in ns (14 R516). -/
def acctSlice (s : State) (a : Nat) : Nat :=
  1000 * (match mget s.sched.accounts a with
    | some x => if x.record.sliceUs = 0 then s.sched.defaultSlice else x.record.sliceUs
    | none => s.sched.defaultSlice)

def acctDebt (s : State) (a : Nat) : Nat := ((mget s.sched.accounts a).map (·.debtNs)).getD 0

/-- The largest of some numbers, 0 of none. -/
def maxNat (l : List Nat) : Nat := l.foldl max 0

/-- Distinct accounts of a unit. -/
def SUnit.acctSet (u : SUnit) : List Nat := u.accounts.foldl (fun l a => insertNum a l) []

/-- A slice granted to a unit: its length, and what it deducts from its accounts' debts (14 R534, R535). -/
def sliceOf (s : State) (u : SUnit) : Nat × Nat :=
  let base := (minNat (u.acctSet.map (acctSlice s))).getD (1000 * s.sched.defaultSlice)
  let debt := maxNat (u.acctSet.map (acctDebt s))
  (max 100000 (base - debt), base - max 100000 (base - debt))

/-- Take a deduction off the debts of a unit's accounts. -/
def payDebt (u : SUnit) (d : Nat) (s : State) : State :=
  foldS u.acctSet (fun t a => modAccount a (fun x => { x with debtNs := x.debtNs - d }) t) s

def modUnit (n : Nat) (f : SUnit → SUnit) (s : State) : State := modSched (fun d => { d with units := mupd d.units n f }) s

/-- Grant a slice that starts at an own time (14 R535, R536). -/
def grantSlice (n start : Nat) (s : State) : State :=
  match mget s.sched.units n with
  | none => s
  | some u =>
    let sl := sliceOf s u
    let fin := start + sl.1
    payDebt u sl.2 (modUnit n (fun x => { x with
      sliceEnd := fin, sliceEnded := if fin < x.ownNs then some fin else none }) s)

/-! ### Placement (14 R527, R531; 02 R51, R52) -/

/-- A unit's context before its first operation: the constants of tier 0 lie in its SRAM (05 R151), a run's bound inputs are its
tensors (15 R580). -/
def newCtx (s : State) (n : Nat) (u : SUnit) : Ctx :=
  { unit := n, account := (u.accounts.head?).getD 0, image := u.image
    sram := match mget s.obj.images u.image with | some i => constSram i u.sram | none => []
    tensors := match u.kind with
      | .run e => (((entryOf s e).map (·.work.inputs)).getD []).foldl (fun m i => mset m i.1 { dims := [], data := i.2 }) []
      | _ => [] }

/-- Wake a cluster that sleeps (02 R51; 20 R745). -/
def wakeCluster (g : Nat) (s : State) : State :=
  if (clusterOf s g).awake then s
  else evCount 0 1 1 (evCount (64 + g) 8 1 (modCluster g (fun c => { c with awake := true }) s))

/-! ### Saved SRAM (05 R179, R180) -/

/-- Stale ranges cut by a range that is written. -/
def cutStale (r : Nat × Nat) (l : List (Nat × Nat × Nat)) : List (Nat × Nat × Nat) :=
  l.flatMap fun x => [(x.1, min x.2.1 r.1, x.2.2), (max x.1 r.2, x.2.1, x.2.2)].filter fun y => decide (y.1 < y.2.1)

/-- The allocation as ranges of it read: a stale byte is free. -/
def Ctx.view (c : Ctx) (rs : List (Nat × Nat)) : List Host.Cell :=
  c.stale.foldl (fun m x => rs.foldl (fun t r =>
    memWrite t (max x.1 r.1) ((List.range (min x.2.1 r.2 - max x.1 r.1)).map fun j =>
      Config.staleByte x.2.2 (max x.1 r.1 + j))) m) c.sram

/-- Bytes written into a context's allocation. -/
def Ctx.store (c : Ctx) (a : Nat) (b : Bytes) : Ctx :=
  { c with sram := memWrite c.sram a b, stale := cutStale (a, a + b.length) c.stale }

/-- The bytes of its allocation that a context keeps over a save: live_bytes of its point, 0 at the ends of the list
(05 R161, R179). -/
def liveBytes (i : Option Image) (c : Ctx) : Nat :=
  let at_ (m : Image) (k : Nat) : Nat := match m.ops[k]? with | some o => if o.opcode = 0 then rd o.params 0 4 else 0 | none => 0
  match i with
  | none => 0
  | some m => if c.waiting then at_ m c.pc else if c.pc = 0 then 0 else at_ m (c.pc - 1)

/-- A context as a restore leaves it: what lies beyond live_bytes is not defined (05 R179, R180). -/
def restored (size live draw : Nat) (c : Ctx) : Ctx :=
  { c with
    sram := c.sram.filter fun x => decide (x.1 < live)
    stale := cutStale (live, size) c.stale ++ (if live < size then [(live, size, draw)] else []) }

/-! ### Resident weights (04 R128, R129) -/

/-- The weight ranges of a problem: elements, then scales (04 R128). -/
def weightRange (fmtB stored cols w ws : Nat) : List (Nat × Nat) :=
  (w, w + packedLen fmtB stored * cols) :: (if isMx fmtB then [(ws, ws + stored / 32 * cols)] else [])

/-- Whether two byte ranges meet. -/
def rangesMeet (a b : Nat × Nat) : Bool := decide (a.1 < b.2) && decide (b.1 < a.2)

/-- The ranges from which resident weights were loaded (04 R129): what the active registers hold gives their lengths. -/
def residentRanges (w : WeightId) (regs : List (Bytes × Bytes)) : List (Nat × Nat) :=
  (w.probs.zip regs).flatMap fun e =>
    [(e.1.1, e.1.1 + e.2.1.length), (e.1.2.1, e.1.2.1 + e.2.2.length)].filter fun r => decide (r.1 < r.2)

/-- An SRAM write by a context ends the identity of resident weights it touches (04 R129). -/
def touchWeights (unit share : Nat) (rs : List (Nat × Nat)) (c : Cluster) : Cluster :=
  match c.weights with
  | some w =>
    if w.unit == unit && w.share == share && (residentRanges w c.active).any fun r => rs.any (rangesMeet r) then
      { c with weights := none }
    else c
  | none => c

/-- Put a unit's contexts into slots: restored when it was saved, else new (05 R179, 14 R530). -/
def fillSlots (n : Nat) (u : SUnit) : Nat → List (Nat × Nat) → State → State
  | _, [], s => s
  | i, p :: ps, s =>
    let s1 := wakeCluster p.1 s
    let old := mget u.saved i
    let c := match old with
      | some x => restored u.sram (liveBytes (mget s.obj.images u.image) x) s.free x
      | none => newCtx s n u
    let live := match old with | some x => liveBytes (mget s.obj.images u.image) x | none => u.sram
    let s2 := modCluster p.1 (fun k => touchWeights n i [(0, live)] { k with
      slots := mset k.slots p.2 { c with watchdog := 0 } }) s1
    fillSlots n u (i + 1) ps (if old.isSome then evCount (64 + p.1) 7 1 { s2 with free := s2.free + 1 } else s2)

/-- Place a unit on slots and grant its slice (14 R527, R535). -/
def placeUnit (n : Nat) (slots : List (Nat × Nat)) (s : State) : State :=
  match mget s.sched.units n with
  | none => s
  | some u =>
    let s1 := fillSlots n u 0 slots (chargeWait u (now s - u.readyTime) s)
    let s2 := modUnit n (fun x => { x with slots := slots, saved := [], savedOn := none, marked := none, sliceEnded := none, pointAt := none }) s1
    let s3 := evCount 2 2 1 (if u.saved.isEmpty then s2 else evCount 2 4 1 s2)
    grantSlice n u.ownNs s3

/-- Place a unit if it is ready, placement is not held and it finds slots, those on given clusters first (14 R530, R548). -/
def tryPlace (pref : List Nat) (n : Nat) (s : State) : Option State :=
  match mget s.sched.units n with
  | none => none
  | some u => if !u.slots.isEmpty || s.sched.hold then none else (slotsFrom pref s n u).map fun l => placeUnit n l s

/-! ### Victims (14 R529) -/

/-- The state as it would be with a unit's slots empty, for the fit test. -/
def withoutUnit (n : Nat) (u : SUnit) (s : State) : State :=
  modBoot (fun b => { b with freed := s.boot.freed }) (freeSlots n u.slots s)

/-- Highest global context number of a unit's slots. -/
def topContext (u : SUnit) : Nat := maxNat (u.slots.map fun p => 4 * p.1 + p.2)

/-- Whether a resident unit may be marked for a waiting one (14 R529). -/
def isVictim (s : State) (n : Nat) (u : SUnit) (m : Nat) (r : SUnit) : Bool :=
  !r.slots.isEmpty && r.marked.isNone &&
  (decide (u.prio < r.prio) || (u.prio == r.prio && r.sliceEnded.isSome && decide (unitVtime s u < unitVtime s r))) &&
  (r.slots.all fun p => (unitDies s u).testBit (p.1 / 80)) && (bestSlots (withoutUnit m r s) n u).isSome

/-- Order of victims: lowest priority, highest vtime, highest context number. -/
def victimBefore (s : State) (a b : Nat × SUnit) : Bool :=
  decide (b.2.prio < a.2.prio) || (a.2.prio == b.2.prio && (decide (unitVtime s b.2 < unitVtime s a.2) ||
    (unitVtime s a.2 == unitVtime s b.2 && decide (topContext b.2 < topContext a.2))))

/-- The unit marked on behalf of another (14 R529). -/
def victim (s : State) (n : Nat) (u : SUnit) : Option Nat :=
  ((sortBy (victimBefore s) (s.sched.units.filter fun m => isVictim s n u m.1 m.2)).head?).map Prod.fst

/-! ### Own time (05 R184; 14 R532, R537) -/

/-- Charge own time of a unit to its accounts' vtime (14 R532, R534). -/
def chargeVtime (u : SUnit) (ns : Nat) (s : State) : State :=
  foldS (unitShares u ns) (fun t m => modAccount m.2.1 (fun x => { x with
    vtime := (x.vtime + m.2.2 * 65536 / max 1 x.record.weight) % 2 ^ 64 }) t) s

/-- Change the contexts a unit has in slots. -/
def modCtxs (u : SUnit) (f : Ctx → Ctx) (s : State) : State :=
  foldS u.slots (fun t p => modCluster p.1 (fun c => { c with slots := mupd c.slots p.2 f }) t) s

/-- A unit runs for a time of its own, which the watchdogs of its contexts count (05 R184); its slice ends when its own time
passes the slice's end. -/
def runFor (n ns : Nat) (s : State) : State :=
  match mget s.sched.units n with
  | none => s
  | some u =>
    chargeVtime u ns <| modCtxs u (fun c => { c with watchdog := c.watchdog + ns }) (modUnit n (fun x => { x with
      ownNs := x.ownNs + ns
      sliceEnded := if x.sliceEnded.isNone && decide (x.sliceEnd < x.ownNs + ns) then some x.sliceEnd else x.sliceEnded }) s)

/-- The own time without a preemption point at which a watchdog expires: 4 ms (05 R185). -/
def watchdogNs : Nat := 4000000

/-- The longest own time of a unit's contexts since their last preemption point. -/
def unitWatchdog (s : State) (u : SUnit) : Nat := maxNat ((unitCtxs s u).map (·.watchdog))

/-- SLICE_END (14 R535, R537): a resident unit's own time reaches the end of its slice; a slice that ends beyond the watchdog's
4 ms does not end first (05 R185). -/
def execSliceEnd (n : Nat) (s : State) : Answer :=
  .next (match mget s.sched.units n with
    | some u =>
      if u.slots.isEmpty || decide (watchdogNs < unitWatchdog s u + (u.sliceEnd - u.ownNs)) || u.sliceEnded.isSome then s
      else modUnit n (fun x => { x with sliceEnded := some u.sliceEnd }) (runFor n (u.sliceEnd - u.ownNs) s)
    | none => s)

/-- The lowest entry of each account of a unit: what is counted once per account goes to it. -/
def firstOfAccounts (u : SUnit) : List Nat :=
  u.acctSet.filterMap fun a => minNat ((u.members.filter fun m => m.2.1 == a).map Prod.fst)

/-- Add slice debt of a unit to its accounts (14 R534, R537): it saturates at 100 ms. -/
def addDebt (u : SUnit) (d : Nat) (s : State) : State :=
  let s1 := foldS (unitShares u d) (fun t m => modAccount m.2.1 (fun x => { x with debtNs := min 100000000 (x.debtNs + m.2.2) }) t) s
  evCount 2 6 (d / 1000) (modSched (fun x => { x with debtNs := x.debtNs + d }) s1)

/-! ### Preemption points (05 R161, R179; 14 R530) -/

/-- Whether a context stands at a preemption point: before its first operation, at a PREEMPT_POINT, or past its last. -/
def atPoint (i : Option Image) (c : Ctx) : Bool :=
  match i with
  | none => true
  | some m => c.pc == 0 || (match m.ops[c.pc]? with | some o => o.opcode == 0 | none => true)

/-- Leave the point: the PREEMPT_POINT is past, the watchdog restarts, a new section begins with no missed fetch.  A context
that waits there for an operation of 05 R163 stays at the point. -/
def passPoint (i : Option Image) (c : Ctx) : Ctx :=
  if c.waiting then { c with watchdog := 0 }
  else
  let step := match i with | some m => (match m.ops[c.pc]? with | some o => b2n (o.opcode == 0) | none => 0) | none => 0
  { c with pc := c.pc + step, watchdog := 0, missed := [] }

/-- Save a unit and free its slots (05 R179, 14 R530): it is ready again, and its accounts count a preemption. -/
def saveUnit (n : Nat) (counted : Bool) (s : State) : State :=
  match mget s.sched.units n with
  | none => s
  | some u =>
    let ctxs := u.slots.map fun p => mget (clusterOf s p.1).slots p.2
    let saved := (withPos ctxs).filterMap fun e => e.2.map fun c => (e.1, c)
    let debt := match u.marked, u.sliceEnded with | some (_, true), some e => u.ownNs - e | _, _ => 0
    let s1 := freeSlots n u.slots (whenS (debt != 0) (addDebt u debt) s)
    let s2 := foldS u.acctSet (fun t a => raiseVtime u.prio a t) s1
    let s3 := modUnit n (fun x => { x with
      slots := [], saved := saved, savedOn := (u.slots.head?).map Prod.fst, marked := none, readyTime := now s }) s2
    let s4 := foldS (firstOfAccounts u) (fun t e => charge e { preempt := 1 } t) s3
    let s5 := foldS u.slots (fun t p => evCount (64 + p.1) 6 1 t) (evCount 2 3 1 s4)
    modSched (fun d => { d with preempts := d.preempts + b2n counted }) s5

/-- A unit at its point leaves when it is marked or a cluster of its own drains, and the unit that marked it takes the slot in
the next cycle, the first in which a slot that was left is available, unless it has been placed (14 R530, 00 R776, 04 R120). -/
def leaveSlot (n : Nat) (u : SUnit) (s : State) : State :=
  let draining := u.slots.any fun p => (clusterOf s p.1).drain
  match u.marked with
  | some (w, _) =>
    let s1 := saveUnit n true s
    let s2 := passCycles 1 s1
    (tryPlace (u.slots.map Prod.fst) w s2).getD s2
  | none => if draining then saveUnit n false s else s

/-- Copy a run's bound outputs back to host memory (15 R580). -/
def copyOutputs (x : RtEntry) (c : Option Ctx) (s : State) : State :=
  foldS x.work.outputs (fun t o => match c with
    | some k => (match mget k.tensors o.1 with | some v => dmaWrite o.2 (v.data ++ v.scales) t | none => t)
    | none => t) s

/-- What a preemption point of a run decides: its end by a cancel, a disable, a failed DMA read, dropped adds, or by its last
operation (10 R348, 11 R416, 14 R541, 15 R555).  At a point where it ends for another reason, a cancel accepted in this very
cycle is too late (10 R348). -/
def runAtPoint (e : Nat) (n : Nat) (u : SUnit) (done : Bool) (s : State) : State :=
  match entryOf s e with
  | none => s
  | some x =>
    if cancelledBefore s x || x.work.disabled then endEntry e Status.cancelled 0 0 0 s
    else match x.work.pendingFault with
      | some d => endEntry e Status.fault d 0 0 (lateCancels e s)
      | none =>
        if 0 < x.work.dropsRetired then endEntry e Status.versionRetired x.work.dropsRetired 0 0 (lateCancels e s)
        else if 0 < x.work.dropsFull then endEntry e Status.noResources x.work.dropsFull 0 0 (lateCancels e s)
        else if done then endEntry e Status.ok 0 0 0 (copyOutputs x ((unitCtxs s u).head?) (lateCancels e s))
        else if x.cancelPending then endEntry e Status.cancelled 0 0 0 s
        else leaveSlot n u s

/-- The members of a step whose function is disabled end at the step's preemption point (14 R541 step 2). -/
def endDisabled (step : Nat) (s : State) : State :=
  match mget s.gen.steps step with
  | none => s
  | some r => foldS r.members (fun t m => match entryOf t m.entry with
      | some x => if x.work.disabled && x.state == .step then endEntry m.entry Status.functionReset 0 12 x.genLen t else t
      | none => t) s

/-! ### Teardown (14 R539, R540; 10 R365, R366) -/

/-- End every member of a step with a fault detail; the step and its unit are gone (10 R365). -/
def endStepFault (k n detail : Nat) (r : StepRec) (s : State) : State :=
  let s1 := modGen (fun g => { g with steps := merase g.steps k }) (endUnit n (settleReads r s))
  foldS r.members (fun t m => match entryOf t m.entry with
    | some x => endFault m.entry detail 12 (modQp x.qp (fun q => { q with stReserved := q.stReserved - stepReserve }) t)
    | none => t) s1

/-- Run a torn-down step again on other clusters, or end every member at its second fault (10 R365). -/
def rerunStep (k : Nat) (n : Nat) (u : SUnit) (cause : Nat) (s : State) : State :=
  match mget s.gen.steps k with
  | none => s
  | some r =>
    if r.reruns = 0 then
      restartStep n (u.slots.map Prod.fst)
        (resetStep k { r with reruns := 1 } r.members (modGen (fun g => { g with reruns := g.reruns + 1 }) s))
    else endStepFault k n cause r s

/-- A unit's work ends with a fault detail (16 R612, R616). -/
def failUnit (n detail : Nat) (s : State) : State :=
  match mget s.sched.units n with
  | none => s
  | some u =>
    match u.kind with
    | .run e => endFault e detail 0 s
    | .stage e st => endFault e detail st s
    | .step k => match mget s.gen.steps k with | some r => endStepFault k n detail r s | none => s

/-- Change the context of a unit's share, in its slot or saved (05 R179). -/
def modShare (n share : Nat) (f : Ctx → Ctx) (s : State) : State :=
  match mget s.sched.units n with
  | none => s
  | some u =>
    if u.slots.isEmpty then modUnit n (fun x => { x with saved := mupd x.saved share f }) s
    else match u.slots[share]? with
      | some p => modCluster p.1 (fun c => { c with slots := mupd c.slots p.2 f }) s
      | none => s

/-- Contexts of a unit, in slots or saved. -/
def shareCount (s : State) (n : Nat) : Nat :=
  match mget s.sched.units n with
  | none => 0
  | some u => max u.slots.length u.span

/-- The global number of context `x` of core `k` of cluster `g` (02 R38). -/
def coreContext (g k x : Nat) : Nat := 4 * (256 * g + k) + x

/-- A fault tears one context down (14 R539): it is counted and recorded, and its step, run or request stage ends or runs
again (14 R540); a step whose fault the data of some members caused runs again without them (10 R366).  The record names
context X of core K0, whose slot X stands for contexts X of all the cluster's cores (05 R175; DESIGN CHOICE, assumption 12). -/
def tearDownFor (bad : List Nat) (g slot cause : Nat) (s : State) : State :=
  match mget (clusterOf s g).slots slot with
  | none => s
  | some c =>
    match mget s.sched.units c.unit with
    | none => modCluster g (fun k => { k with slots := merase k.slots slot }) s
    | some u =>
      let s1 := if bad.isEmpty then foldS (firstOfAccounts u) (fun t e => charge e { faults := 1 } t) s else s
      let tag := ((u.members.head?.bind fun m => entryOf s m.1).map (·.tag)).getD 0
      let s2 := evCount 2 5 1 (modSched (fun d => { d with faults := d.faults + 1 }) s1)
      let s3 := recordEvent 2 (64 + g) (0x0100 + cause) (instCluster g) [c.account, tag, coreContext g 0 slot] s2
      let s4 := modCluster g (fun k => { k with
        slots := merase k.slots slot
        group := match k.group with | some q => if q.slot = slot then none else some q | none => none }) s3
      match u.kind with
      | .run e => endFault e cause 0 s4
      | .stage e st => endFault e cause st s4
      | .step k =>
        match mget s4.gen.steps k with
        | none => s4
        | some r => if bad.isEmpty then rerunStep k c.unit u cause s4 else dropFaulted k r (r.members.filter fun y => bad.contains y.entry) s4

/-- A fault that no single member caused tears one context down. -/
def tearDown (g slot cause : Nat) (s : State) : State := tearDownFor [] g slot cause s

/-- A context's watchdog reaches 4 ms before its next preemption point: the rest of that time is its unit's own, and the
context is torn down with cause WATCHDOG (05 R185). -/
def watchdogTrip (g slot : Nat) (c : Ctx) (s : State) : State :=
  tearDown g slot 3 (runFor c.unit (watchdogNs - c.watchdog) s)

/-- The first of a unit's contexts whose watchdog would expire before `ran` ns more have passed (05 R185); one that expires
just then is at its point, which wins (05 R186). -/
def tripOf (s : State) (u : SUnit) (ran : Nat) : Option (Nat × Nat × Ctx) :=
  (u.slots.filterMap fun p => (mget (clusterOf s p.1).slots p.2).map fun c => (p.1, p.2, c)).find? fun x =>
    decide (watchdogNs < x.2.2.watchdog + ran)

/-- A step's unit goes on to its next job in the slots it holds: what the last one kept passes to the requests, and new contexts
of the next image take the places of the old (10 R372). -/
def nextJob (k n : Nat) (u : SUnit) (s : State) : State :=
  match mget s.gen.steps k with
  | none => s
  | some r =>
    let s1 := modGen (fun g => { g with steps := mset g.steps k { r with jobs := r.jobs.drop 1 } }) (publishRows u s)
    let v : SUnit := { u with image := ((r.jobs.drop 1).headD (r.image, 0)).1 }
    foldS (withPos u.slots) (fun t p => modCluster p.2.1 (fun c => touchWeights n p.1 [(0, u.sram)]
        { c with slots := mset c.slots p.2.2 (newCtx t n v) }) t)
      (modUnit n (fun x => { x with image := v.image }) s1)

/-- What a preemption point of a step decides: disabled members end, a job that is over makes room for the next, and a marked
unit leaves. -/
def stepAtPoint (k n : Nat) (u : SUnit) (done : Bool) (s : State) : State :=
  let s1 := endDisabled k s
  let more := match mget s1.gen.steps k with | some r => decide (1 < r.jobs.length) | none => false
  if done && more then
    let s2 := nextJob k n u s1
    leaveSlot n ((mget s2.sched.units n).getD u) s2
  else leaveSlot n u s1

/-- PREEMPT_POINT_REACHED (14 R530, R538; 05 R161, R179, R184 to R186): every context of a resident unit stands at a preemption
point after `ran` ns of own time, unless its watchdog expired on the way. -/
def execPreemptPointReached (n ran : Nat) (s : State) : Answer :=
  .next (match mget s.sched.units n with
    | some u =>
      let i := mget s.obj.images u.image
      let cs := unitCtxs s u
      if u.slots.isEmpty || !(cs.all (atPoint i)) then s
      else match tripOf s u ran with
        | some x => watchdogTrip x.1 x.2.1 x.2.2 s
        | none =>
          let done := cs.all (ctxDone i)
          let s1 := modUnit n (fun x => { x with pointAt := some (now s) }) (modCtxs u (passPoint i) (runFor n ran s))
          match mget s1.sched.units n with
          | none => s1
          | some v =>
            match v.kind with
            | .run e => runAtPoint e n v done s1
            | .stage _ _ => leaveSlot n v s1
            | .step k => stepAtPoint k n v (done && cs.all fun c => !c.waiting) s1
    | none => s)

/-- Whether a context stands at a preemption point with nothing of its own under way: its watchdog does not run (05 R184). -/
def standing (i : Option Image) (slot : Nat) (k : Cluster) (c : Ctx) : Bool :=
  atPoint i c && c.asks == 0 && (match k.group with | some q => q.slot != slot | none => true)

/-- WATCHDOG_EXPIRY (05 R184 to R186): a context's own time reaches 4 ms without a preemption point.  A context that stands at
a point has reached it: the point wins. -/
def execWatchdogExpiry (cluster slot : Nat) (s : State) : Answer :=
  .next (match mget (clusterOf s cluster).slots slot with
    | some c =>
      if standing (((mget s.sched.units c.unit).bind fun u => mget s.obj.images u.image)) slot (clusterOf s cluster) c then s
      else watchdogTrip cluster slot c s
    | none => s)

/-! ### Heats (14 R527) -/

/-- Order of units at a heat. -/
def heatBefore (s : State) (a b : Nat × SUnit) : Bool :=
  let va := unitVtime s a.2
  let vb := unitVtime s b.2
  decide (a.2.prio < b.2.prio) || (a.2.prio == b.2.prio && (decide (va < vb) || (va == vb &&
    (decide (a.2.readyTime < b.2.readyTime) || (a.2.readyTime == b.2.readyTime && decide (a.1 < b.1))))))

/-- One ready unit's turn at a heat: it is placed, or a victim is marked for it. -/
def heatOne (s : State) (n : Nat) : State :=
  match mget s.sched.units n with
  | none => s
  | some u =>
    if !u.slots.isEmpty || s.sched.hold then s
    else match tryPlace [] n s with
      | some t => t
      | none => match victim s n u with
        | some m => modUnit m (fun r => { r with marked := some (n, r.sliceEnded.isSome) }) s
        | none => s

/-- Requests that wait for input and have expired end DEADLINE (15 R578). -/
def expireInput (s : State) : State :=
  foldS (s.gen.entries.map Prod.fst) (fun t e => match entryOf t e with
    | some x =>
      if x.state = .pre ∧ x.mode ≠ 4 ∧ x.work.stage = 2 ∧ !x.work.inputDone ∧ x.deadline ≠ 0 ∧ x.deadline ≤ now t then
        endEntry e Status.deadline 0 2 0 t
      else t
    | none => t) s

/-- Renew the slices of resident units whose slice ended and that are not marked (14 R527, R536). -/
def renewSlices (s : State) : State :=
  foldS (s.sched.units.map Prod.fst) (fun t n => match mget t.sched.units n with
    | some u => match u.sliceEnded with
      | some e => if u.marked.isNone && !u.slots.isEmpty then grantSlice n e t else t
      | none => t
    | none => t) s

/-- Whether a unit has reached a preemption point in this very cycle and started nothing since (14 R538). -/
def justAtPoint (s : State) (u : SUnit) : Bool :=
  u.pointAt == some (now s) && u.slots.all fun p => match mget (clusterOf s p.1).slots p.2 with
    | some c =>
      let past := match (mget s.obj.images u.image).bind fun m => m.ops[c.pc - 1]? with | some o => o.opcode == 0 | none => true
      (c.waiting || c.pc == 0 || past) && c.asks == 0 &&
        (match (clusterOf s p.1).group with | some q => q.slot != p.2 | none => true)
    | none => false

/-- Units marked in the cycle in which they reach a preemption point leave at that point (14 R538). -/
def leaveMarked (s : State) : State :=
  foldS (s.sched.units.map Prod.fst) (fun t n => match mget t.sched.units n with
    | some u => if u.marked.isSome && !u.slots.isEmpty && justAtPoint s u then leaveSlot n u t else t
    | none => t) s

/-- HEAT (14 R527; 10 R362): at the next multiple of 100 µs. -/
def execHeat (s : State) : Answer :=
  let s0 := advanceTo (100000 * (now s / 100000 + 1)) s
  let s1 := expireInput (expire (s0.gen.entries.map Prod.fst) s0)
  let ready := (sortBy (heatBefore s1) (s1.sched.units.filter fun u => u.2.slots.isEmpty)).map Prod.fst
  let s2 := renewSlices (leaveMarked (foldS ready heatOne s1))
  .next (evCount 2 1 1 (modSched (fun d => { d with heats := d.heats + 1 }) s2))

/-! ### Registers (14 R548, R551, R552) -/

/-- Pages of the physical functions alone (20, block page index). -/
def isPf (fn : Nat) : Bool := decide (fn ≤ 1)

/-- SCHED_HOLD (14 R548): a write of SCHED_CTL. -/
def execSchedHold (fn : Nat) (value : BitVec 32) (s : State) : Answer :=
  .next (if isPf fn then modSched (fun d => { d with hold := value.getLsbD 0 }) s else s)

/-- The 32 bytes of an account record (14 R516). -/
def acctRecBytes (a : Nat) (r : AcctRec) : Bytes :=
  leBytes 2 a ++ leBytes 1 r.maxPrio ++ leBytes 1 r.dieMask ++ leBytes 2 r.weight ++ leBytes 2 r.entriesMax ++
    leBytes 4 r.sliceUs ++ zeros 20

/-- ACCT_WIN (14 R552). -/
def acctWin (s : State) (a : Nat) : Bytes :=
  match mget s.sched.accounts a with
  | some x =>
    let c := x.ctr
    padTo (acctRecBytes a x.record ++ ([c.waitNs, c.preempt, c.tokensIn, c.tokensOut, c.arrayCycles, c.brixjoBytes,
      c.flashReads, c.flashSpec, c.degraded, c.falseStarts, c.draftsRejected, c.faults, c.ended, x.debtNs, x.vtime].flatMap
        (leBytes 8)) ++ leBytes 4 (1 + 4 * (mgetD s.sched.keygen a 0 % 16))) 256
  | none =>
    if s.sched.scrubbing.contains a then zeros 152 ++ leBytes 4 (2 + 4 * (mgetD s.sched.keygen a 0 % 16)) ++ zeros 100
    else zeros 256

/-- ACCT_WIN_LATCH (14 R551): a write of ACCT_SEL. -/
def execAcctWinLatch (fn : Nat) (value : BitVec 32) (s : State) : Answer :=
  .next (if isPf fn then
      modSched (fun d => { d with acctSel := value &&& 0xFFF, acctWin := acctWin s (value.toNat % 4096) }) s
    else s)

end Sys2Proof.Machine
end

