-- ==== Sys2Proof/Machine/Pacer.lean ====
section
/-! DEFINITION. The pacers (19, Pacers): conflicts and their records, the clock and voltage pacer, the admission pacer and
the safety overrides.  The replication pacer's conflicts are raised where rows are promoted (11). -/

namespace Sys2Proof.Machine

/-! ### Conflicts (19 R712, R714) -/

/-- The reasons of the conflicts of a pacer in progress: 0 clock, 1 admission, 2 replication. -/
def reasonsOf (m : Mgmt) (p : Nat) : List Nat := (m.conflicts.filter fun c => c.pacer == p).map (·.reason)

/-- Severity of the records of class PACER (assumption 12). -/
def pacerSev : Nat := 0

/-- Suppressed begin records of a pacer and reason. -/
def suppressedOf (s : State) (p r : Nat) : Option Nat :=
  match mget s.mgmt.lastBegin (16 * p + r) with
  | some (_, n) => if n = 0 then none else some n
  | none => none

/-- Write a record of a pacer and reason; it carries the number suppressed (19 R712). -/
def pacerRecord (code p r : Nat) (payload : List Nat) (s : State) : State :=
  let n := suppressedOf s p r
  recordFull 0x61 pacerSev 13 code 0 n ([p, r] ++ payload)
    (modMgmt (fun m => { m with lastBegin := mupd m.lastBegin (16 * p + r) fun e => (e.1, 0) }) s)

/-- Whether a begin record of a pacer and reason was written within the last second. -/
def recentBegin (s : State) (k : Nat) : Bool :=
  match mget s.mgmt.lastBegin k with
  | some (t, _) => decide (now s < t + 1000000000)
  | none => false

/-- The begin record of a conflict or an override, unless one was written within the last second; whether it was written. -/
def beginRecord (code p r : Nat) (s : State) : Bool × State :=
  let k := 16 * p + r
  if recentBegin s k then (false, modMgmt (fun m => { m with lastBegin := mupd m.lastBegin k fun e => (e.1, e.2 + 1) }) s)
  else
    let s1 := pacerRecord code p r [] s
    (true, modMgmt (fun m => { m with lastBegin := mset m.lastBegin k (now s, 0) }) s1)

/-- A conflict of a pacer begins (19 R712). -/
def beginClamp (p r : Nat) (src : Nat × Nat × Nat) (s : State) : State :=
  let b := beginRecord 0x0801 p r s
  evCount 13 3 1 (modMgmt (fun m => { m with
    clamps := m.clamps + 1
    conflicts := m.conflicts ++ [{ pacer := p, reason := r, srcs := [src], since := now s, recorded := b.1 }] }) b.2)

/-- A conflict of a pacer ends: its end record carries the duration (19 R712). -/
def endClamp (c : Clamp) (s : State) : State :=
  let s1 := modMgmt (fun m => { m with conflicts := m.conflicts.erase c }) s
  if c.recorded then pacerRecord 0x0802 c.pacer c.reason [now s - c.since] s1 else s1

/-- An output of a pacer is no longer beyond the bound of a conflict: the last one ends it (19 R712). -/
def leaveClamp (src : Nat × Nat × Nat) (c : Clamp) (s : State) : State :=
  let l := c.srcs.erase src
  if l.isEmpty then endClamp c s
  else modMgmt (fun m => { m with conflicts := m.conflicts.map fun x => if x = c then { x with srcs := l } else x }) s

/-- An output of a pacer lies beyond the bound of a reason (19 R712). -/
def joinClamp (p r : Nat) (src : Nat × Nat × Nat) (s : State) : State :=
  match s.mgmt.conflicts.find? fun c => c.pacer == p && c.reason == r with
  | some c =>
    if c.srcs.contains src then s
    else modMgmt (fun m => { m with conflicts := m.conflicts.map fun x => if x = c then { x with srcs := x.srcs ++ [src] } else x }) s
  | none => beginClamp p r src s

/-- The reasons an output of a pacer is held back for: conflicts begin and end by them (19 R712, R714).  A conflict is of one
pacer and one reason, and lasts while some output is held back for it (DESIGN CHOICE, log entry 62). -/
def holdOutput (p : Nat) (src : Nat × Nat × Nat) (rs : List Nat) (s : State) : State :=
  let gone := s.mgmt.conflicts.filter fun c => c.pacer == p && c.srcs.contains src && !rs.contains c.reason
  foldS ((rs.filter (· ≠ 0)).foldl (fun l r => insertNum r l) []) (fun t r => joinClamp p r src t)
    (foldS gone (fun t c => leaveClamp src c t) s)

/-- The rows of a version, or of a whole table, want no replicas any more: their conflicts end (19 R712). -/
def endRowConflicts (k : Nat) (v : Option Nat) (s : State) : State :=
  foldS ((s.mgmt.conflicts.flatMap fun c => if c.pacer = 2 then c.srcs else []).filter fun x => x.1 == k && (v.isNone || v == some x.2.1))
    (fun t x => holdOutput 2 x [] t) s

/-! ### Clock and voltage (19 R709 to R711, R713; 17 R640) -/

/-- Bounds of a die (19 R730). -/
def clkBoundsOf (s : State) (d : Nat) : Nat × Nat := mgetD s.mgmt.clkBounds d (0, 12)

/-- The die whose clusters an override slows (19 R713, 02 R40). -/
def overrideDie : SafetyQuantity → Nat
  | .dieHotspot d => d
  | .stackTemp n => stackDie n
  | .coreCurrent d => d

/-- Whether a die is under an override. -/
def overridden (s : State) (d : Nat) : Bool := s.mgmt.overrides.any fun o => overrideDie o.1 == d

/-- One step of the pacer on a code: the new code and the reason that holds it back, 0 for none (19 R710, R711, R714). -/
def paceCode (en cap raise excess : Bool) (lo hi code : Nat) : Nat × Nat :=
  let hi' := if cap then 0 else hi
  let lo' := min lo hi'
  if hi' < code then (code - 1, if cap then 3 else 0)
  else if code < lo' then (code + 1, if en && excess then 1 else 0)
  else if en && excess then (if lo' < code then (code - 1, 0) else (code, if code = 0 then 0 else 1))
  else if !en || raise then
    (if code < hi' then (code + 1, 0) else (code, if code < 12 && (en || cap) then (if cap then 3 else 2) else 0))
  else (code, 0)

/-- The reason under an override: the pacer still wants a code below f_min when the cap is exceeded (19 R712, R714). -/
def heldLow (en cap excess : Bool) (lo hi code : Nat) : Nat :=
  let lo' := min lo (if cap then 0 else hi)
  if en && excess && decide (code ≤ lo') && lo' != 0 then 1 else 0

/-- CLOCK_PACER_STEP (19 R710): at the next millisecond; `power` is the module's input power in watts.  The outputs hold while the
management pair restarts (19 R693, 17 R647).  Whether the pacer uses
headroom is its own choice: a free value. -/
def execClockPacerStep (power : Nat) (s : State) : Answer :=
  let s0 := advanceTo (1000000 * (now s / 1000000 + 1)) s
  let d := drawFree s0
  let s1 := d.2
  let en := s1.mgmt.pcrCtl.getLsbD 0
  let cap := s1.boot.clockCap
  let paced (g : Nat) (c : Cluster) : Nat × Nat :=
    let b := clkBoundsOf s1 (g / 80)
    if overridden s1 (g / 80) then (c.code, heldLow en cap (decide (s1.mgmt.powerCap < power)) b.1 b.2 c.code)
    else paceCode en cap (d.1.getLsbD 0) (decide (s1.mgmt.powerCap < power)) b.1 b.2 c.code
  let cs := allClusters.map fun g => (g, paced g (clusterOf s1 g))
  let moved := cs.filter fun e => e.2.1 != (clusterOf s1 e.1).code
  let s2 := foldS moved (fun t e => modCluster e.1 (fun c => { c with code := e.2.1 }) t) s1
  .next (if s.boot.mgmtRun then holdOutput 0 (0, 0, 0) (cs.map fun e => e.2.2) s2 else s)

/-! ### Admission (19 R710, R711) -/

/-- ADMISSION_PACER (19 R710 to R714): the rate of a priority moves to what the pacer wants, within its bounds. -/
def execAdmissionPacer (prio want : Nat) (s : State) : Answer :=
  .next (if 1 ≤ prio ∧ prio ≤ 3 ∧ s.boot.mgmtRun then
      let b := admBoundsOf s prio
      let en := s.mgmt.pcrCtl.getLsbD 1
      let rate := if en then max b.1 (min b.2 want) else b.2
      let r := if en then (if want < b.1 then 6 else if b.2 < want then 7 else 0) else 0
      holdOutput 1 (prio, 0, 0) [r] (modMgmt (fun m => { m with admRate := mset m.admRate prio rate }) s)
    else s)

/-! ### Safety overrides (19 R713) -/

/-- Enter and leave values: tenths of a degree, or amperes (19 R713). -/
def safetyLimits : SafetyQuantity → Nat × Nat
  | .dieHotspot _ => (1050, 1000)
  | .stackTemp _ => (950, 900)
  | .coreCurrent _ => (700, 650)

/-- The reason of an override (19 R714). -/
def overrideReason : SafetyQuantity → Nat
  | .coreCurrent _ => 5
  | _ => 4

/-- The global instance a quantity is measured on. -/
def overrideInst : SafetyQuantity → Nat
  | .dieHotspot d => instDie d
  | .stackTemp n => instStack n
  | .coreCurrent d => instDie d

/-- Whether a quantity names an instance of the module. -/
def quantityOk : SafetyQuantity → Bool
  | .dieHotspot d => decide (d < 4)
  | .stackTemp n => decide (n < 20)
  | .coreCurrent d => decide (d < 4)

/-- SAFETY_OVERRIDE_ENTER (19 R713). -/
def execSafetyOverrideEnter (q : SafetyQuantity) (value : Nat) (s : State) : Answer :=
  .next (if quantityOk q && decide ((safetyLimits q).1 ≤ value) && !(s.mgmt.overrides.any fun o => o.1 == q) then
      let b := beginRecord 0x0803 0 (overrideReason q) s
      modMgmt (fun m => { m with overrides := m.overrides ++ [(q, now s, b.1)], overrideCount := m.overrideCount + 1 }) b.2
    else s)

/-- SAFETY_OVERRIDE_STEP (19 R713): 100 µs on, the clusters named drop one code. -/
def execSafetyOverrideStep (s : State) : Answer :=
  .next (if s.mgmt.overrides.isEmpty then s
    else
      let t := advanceTo (now s + 100000) s
      foldS (allClusters.filter fun g => overridden t (g / 80) && decide (0 < (clusterOf t g).code))
        (fun t g => modCluster g (fun c => { c with code := c.code - 1 }) t) t)

/-- SAFETY_OVERRIDE_LEAVE (19 R713): the end record carries the duration. -/
def execSafetyOverrideLeave (q : SafetyQuantity) (value : Nat) (s : State) : Answer :=
  .next (match s.mgmt.overrides.find? fun o => o.1 == q with
    | some o =>
      if value < (safetyLimits q).2 then
        let s1 := modMgmt (fun m => { m with overrides := m.overrides.filter fun x => x.1 != q }) s
        if o.2.2 then pacerRecord 0x0804 0 (overrideReason q) [now s - o.2.1] s1 else s1
      else s
    | none => s)

end Sys2Proof.Machine
end

