-- ==== Sys2Proof/Machine/Tables.lean ====
section
/-! DEFINITION. Tables (11): creation, deletion, versions, pins; exact adds at the home; hot rows and their replicas; the
write-back of dirty rows (12 R436). -/

namespace Sys2Proof.Machine

/-! ### Creation (11 R391 to R396) -/

/-- Rows a table reserves (11 R394). -/
def Table.reservedRows (t : Table) : Nat := if t.sparse then t.capacity else t.nRows

/-- Reserved parameter count (11 R394). -/
def Table.reserved (t : Table) : Nat := t.reservedRows * t.rowElems

/-- Entries of a row list: rows strictly rising, below n_rows, reserved bits clear (11 R395). -/
def rowEntries (slot nRows : Nat) : Nat → Option Nat → Bytes → Option (Map Bytes)
  | 0, _, _ => some []
  | n + 1, prev, b =>
    if b.length < 8 + slot then none
    else
      let r := rd b 0 8
      if decide (nRows ≤ r) || (match prev with | some p => decide (r ≤ p) | none => false) then none
      else (rowEntries slot nRows n (some r) (b.drop (8 + slot))).map fun m => (r, (b.drop 8).take slot) :: m

/-- A row list, none when it breaks R395 (11 R395). -/
def rowList (slot nRows : Nat) (capacity : Option Nat) (b : Bytes) : Option (Map Bytes) :=
  let n := rd b 0 8
  if b.length < 16 ∨ rd b 8 8 ≠ 0 then none
  else if b.length < n * (8 + slot) then none
  else if (match capacity with | some c => decide (c < n) | none => false) then none
  else rowEntries slot nRows n none (b.drop 16)

/-- Usable bits of a creation record (11 R391). -/
def tableMask : List Nat :=
  maskOf 64 [(0, 4, all64), (4, 1, 0xF), (5, 1, 7), (6, 1, 0xFF), (7, 1, 0xFF), (8, 2, 0xFFF), (10, 1, 0xF), (12, 4, all64),
    (16, 8, 2 ^ 41 - 1), (24, 8, 2 ^ 41 - 1), (32, 4, all64), (40, 8, all64), (48, 8, all64)]

/-- Formats a table may have (11 R391). -/
def tableFmt (f : Nat) : Bool := f == 1 || isMx f || f == 0xC || f == 0xD

/-- Read a creation object: the table at version 1, or none when a field breaks R391 to R393 or the list R395. -/
def parseTable (o : Bytes) : Option Table :=
  let fmt := rd o 4 1 % 16
  let fl := rd o 5 1
  let frac := rd o 6 1
  let n := rd o 12 4
  let nRows := rd o 16 8
  let cap := rd o 24 8
  let shared := fl.testBit 0
  let addable := fl.testBit 1
  let sparse := fl.testBit 2
  let slot := slotBytesOf fmt n
  let dOff := rd o 40 8
  let lOff := rd o 48 8
  let fb := rd o 7 1
  let list := if lOff = 0 then some [] else rowList slot nRows (if sparse then some cap else none) (o.drop lOff)
  if o.length < 64 ∨ (offending 0 (o.take 64) tableMask).isSome ∨ rd o 0 4 = 0 ∨ !tableFmt fmt ∨ 2 ≤ fb ∨
      (fmt = 0xC ∧ 31 < frac) ∨ (fmt = 0xD ∧ 63 < frac) ∨ (fmt < 0xC ∧ frac ≠ 0) ∨ 8 < rd o 10 1 ∨
      (addable ∧ (fmt < 0xC ∨ shared)) ∨ nRows = 0 ∨ 2 ^ 40 < nRows ∨ (sparse ∧ (cap = 0 ∨ nRows < cap)) ∨ (!sparse ∧ cap ≠ 0) ∨
      (isMx fmt ∧ n % 32 ≠ 0) ∨ slot < 64 ∨ 16384 < slot ∨ (fb = 0 ∧ rd o 32 4 ≠ 0) ∨ o.length < dOff + slot ∨
      o.length < lOff then none
  else list.map fun rows =>
    { id := rd o 0 4, fmt := fmt, shared := shared, addable := addable, sparse := sparse, frac := frac, fallback := fb
      owner := rd o 8 2, maxReplicas := rd o 10 1, rowElems := n, nRows := nRows, capacity := cap, shadow := rd o 32 4
      defaultRow := (o.drop dOff).take slot, versions := [(1, { cond := .current, rows := rows })] }

/-- The lowest table slot free (11 R390). -/
def freeTableSlot (s : State) : Option Nat := lowestFree s.obj.tables 4096

/-- Whether a shadow table fits (11 R394). -/
def shadowOk (s : State) (t : Table) : Bool :=
  t.fallback == 0 || (match (tableSlot s t.shadow).bind (mget s.obj.tables) with
    | some x => x.fmt == 9 && x.nRows == t.nRows && x.rowElems == t.rowElems
    | none => false)

/-- Rows of a table that its versions hold between them: versions that hold the same row alike share it (11 R403). -/
def Table.heldRows (t : Table) : Nat :=
  ((t.versions.flatMap fun v => v.2.rows).foldl (fun l r => if l.contains r then l else r :: l) []).length

/-- Store bytes that tables take: what each reserves, or what its versions hold where that is more (11 R394, R402, R403; the
spec gives no count of its own for a full store: DESIGN CHOICE, log entry 31). -/
def storedBytes (s : State) : Nat :=
  (s.obj.tables.map fun t => max t.2.reservedRows t.2.heldRows * slotBytesOf t.2.fmt t.2.rowElems).sum

/-- TABLE_CREATE (11 R394). -/
def tableCreateBody (h : HostCmd) (s : State) : Reply :=
  if s.flash.storeRo then denyRo s
  else match parseTable (cmdBody h (cmdLen0 h)) with
    | none => deny Status.tableInvalid s
    | some t =>
      match freeTableSlot s with
      | none => deny Status.tableInvalid s
      | some k =>
        if (tableSlot s t.id).isSome || !shadowOk s t || (!t.shared && !acctExists s t.owner) then deny Status.tableInvalid s
        else if 120 * 10 ^ 12 < ((s.obj.tables.map fun x => x.2.reserved).sum + t.reserved) ∨
            usableBytes s 1 < storedBytes s + t.reservedRows * slotBytesOf t.fmt t.rowElems then deny Status.noResources s
        else okWith (acceptWrites (rowWrites k 1 t (((mget t.versions 1).map fun v => v.rows.map Prod.fst).getD []))
          (modObj (fun o => { o with tables := mset o.tables k t }) s))

def execTableCreate (h : HostCmd) (s : State) : Answer := .next (runCmd 0x2A h (fun _ t => tableCreateBody h t) s)

/-- TABLE_DELETE (11 R397). -/
def tableDeleteBody (h : HostCmd) (s : State) : Reply :=
  match tableSlot s (cmdAux h) with
  | none => deny Status.tableInvalid s
  | some k => okWith (releaseUnused (endRowConflicts k none (modTable k (fun t => { t with deleted := true }) s)))

def execTableDelete (h : HostCmd) (s : State) : Answer := .next (runCmd 0x2B h (fun _ t => tableDeleteBody h t) s)

/-! ### Brixjo in use (10 R350, 12 R435, R467) -/

/-- A stack that can take copies. -/
def stackUp (s : State) (n : Nat) : Bool := let k := stackOf s n; k.ok && !k.retiring && !k.retired

/-- Brixjo of the stacks in service (00, 20 stacks of 96 GiB). -/
def brixjoSize (s : State) : Nat := 96 * 2 ^ 30 * ((List.range 20).filter (stackUp s)).length

/-- Brixjo a privileged collection holds: centroids, lists and stored vectors of every ID reserved (07 R246). -/
def privilegedBytes (d : CollDesc) (nc : Nat) : Nat :=
  if d.privileged then 2 * nc * d.dim + d.idSpan * (8 + roundUp d.vecLen 16) else 0

/-- Brixjo of a collection: its centroids, and what a privileged one keeps there (12 R433). -/
def collectionBytes (c : Collection) : Nat :=
  let p := privilegedBytes c.desc c.centroids.length
  if p = 0 then 2 * c.centroids.length * c.desc.dim else p

/-- Brixjo of a request's memory: its input and token IDs, the rows its steps keep, its page list (05 R154, 10 R351, 12 R433;
what else it takes is open: DESIGN CHOICE, assumption 33). -/
def requestBytes (x : RtEntry) : Nat :=
  x.work.input.length + x.work.lane.piece.length + (x.work.lane.units.map fun u => u.bytes.length).sum + 4 * (x.work.tokens.length + x.work.prompt.length + x.work.gen.length + x.pages.length) +
    ((x.work.bufs.flatMap Prod.snd).map fun r => r.bits.length + r.scales.length).sum

/-- Bytes of all replicas. -/
def replicaBytes (s : State) : Nat :=
  (s.obj.tables.flatMap fun t => t.2.versions.flatMap fun v =>
    v.2.hot.map fun r => r.2.replicas.length * slotBytesOf t.2.fmt t.2.rowElems).sum

/-- Bytes of Brixjo that hold an allocation: images with their page pools (10 R350), filters, centroids and privileged
collections, request memory, replicas of hot rows (12 R433), and the pair state of 16 R611. -/
def brixjoAlloc (s : State) : Nat :=
  (s.obj.images.map fun i => i.2.payload.length + i.2.kvPages * i.2.pageBytes).sum + (s.obj.filters.map fun f => f.2.size).sum +
    (s.obj.collections.map fun c => collectionBytes c.2).sum + (s.gen.entries.map fun e => requestBytes e.2).sum +
    replicaBytes s + 16777216

/-- A dirty row: when it became so, its table slot, version and row (12 R436). -/
structure DirtyRow where
  since : Nat
  slot : Nat
  version : Nat
  row : Nat
  bytes : Nat
deriving DecidableEq, Repr

/-- The dirty rows of all tables. -/
def dirtyRows (s : State) : List DirtyRow :=
  s.obj.tables.flatMap fun t => t.2.versions.flatMap fun v =>
    v.2.dirty.map fun d => ⟨d.2, t.1, v.1, d.1, slotBytesOf t.2.fmt t.2.rowElems⟩

/-- Bytes of Brixjo in use but for clean copies and leases: allocations and dirty rows. -/
def brixjoUsed (s : State) : Nat := brixjoAlloc s + ((dirtyRows s).map (·.bytes)).sum

/-- Bytes of leases lent (12 R467). -/
def lentBytes (s : State) : Nat := lentPages s * 2097152

/-- Brixjo that holds no allocation, no dirty row and no lease (12 R467). -/
def idleBrixjo (s : State) : Nat := brixjoSize s - (brixjoUsed s + lentBytes s)

/-- Reclaim leases, the lowest number first, until so many bytes are free (12 R470). -/
def reclaimFor (need : Nat) : List Nat → State → State
  | [], s => s
  | k :: l, s => if need + brixjoUsed s + lentBytes s ≤ brixjoSize s then s else reclaimFor need l (reclaimLease k s)

/-- Reclaim leases whose pages the module's own allocations need (12 R470). -/
def fitLeases (s : State) : State := reclaimFor 0 (s.mem.lent.map Prod.fst) s

/-! ### Hot rows (11 R421 to R427) -/

/-- Whether a stack takes a replica of so many bytes: what is striped over the stacks in service and the replicas it holds leave
room (11 R421, 12 R434). -/
def stackTakes (s : State) (bytes k : Nat) : Bool :=
  let held := (s.obj.tables.flatMap fun t => t.2.versions.flatMap fun v =>
    v.2.hot.map fun r => (r.2.replicas.filter (· == k)).length * slotBytesOf t.2.fmt t.2.rowElems).sum
  stackUp s k && decide ((brixjoAlloc s - replicaBytes s) / max 1 ((List.range 20).filter (stackUp s)).length + held + bytes ≤ 96 * 2 ^ 30)

/-- Place up to `n` replicas of some bytes: die after die from the one after the home's, the lowest stack with room that holds no
copy (11 R421). -/
def placeFrom (s : State) (home bytes : Nat) : Nat → List Nat → List Nat → List Nat
  | 0, _, _ => []
  | _, [], _ => []
  | n + 1, d :: ds, held =>
    match (List.range 20).find? fun k => stackDie k == d && stackTakes s bytes k && k != home && !held.contains k with
    | some k => k :: placeFrom s home bytes n ds (k :: held)
    | none => placeFrom s home bytes (n + 1) ds held

/-- Replica stacks of a row: first the dies that hold no copy, then round again (11 R421). -/
def placeReplicas (s : State) (home bytes n : Nat) : List Nat :=
  let d := stackDie home
  let order := [(d + 1) % 4, (d + 2) % 4, (d + 3) % 4]
  let all := order ++ ((List.replicate 4 (order ++ [d])).flatten)
  placeFrom s home bytes n all []

/-- The pinned replica count of a row, the newest pin first (11 R427). -/
def pinnedCount (t : Table) (v row : Nat) : Option Nat :=
  (t.pins.reverse.find? fun p => p.version == v && decide (p.first ≤ row) && decide (row < p.first + p.count)).map (·.replicas)

/-- What the pacer gives a row that wants `n` replicas, and the reason that holds it back (11 R426, R427; 19 R714). -/
def grantedReplicas (s : State) (slot : Nat) (t : Table) (v row n : Nat) : List Nat × Nat :=
  let home := homeStack s slot t row
  let bytes := slotBytesOf t.fmt t.rowElems
  match pinnedCount t v row with
  | some p =>
    let l := placeReplicas s home bytes p
    (l, if l.length < p then 11 else if n ≠ p then 10 else 0)
  | none =>
    let room := (s.mgmt.replBudget * 2 ^ 30 - replicaBytes s) / max 1 bytes
    let m := min n t.maxReplicas
    (placeReplicas s home bytes (min m room), if t.maxReplicas < n then (if room < m then 8 else 9) else if room < m then 8 else 0)

/-- The stack a lookup from a compute die reads a row on: the lowest-numbered that holds a readable copy on the die, else the
home (11 R421, R423).  All copies hold the same bits. -/
def readStack (s : State) (slot : Nat) (t : Table) (v row die : Nat) : Nat :=
  let home := homeStack s slot t row
  let copies := match (mget t.versions v).bind fun x => mget x.hot row with
    | some r => if r.state = RowState.replicated then home :: r.replicas else [home]
    | none => [home]
  ((List.range 20).find? fun k => stackDie k == die && copies.contains k).getD home

/-- Change a row that is not in HOME. -/
def modHot (slot v row : Nat) (f : HotRow → HotRow) (s : State) : State :=
  modVersion slot v (fun x => { x with hot := mupd x.hot row f }) s

/-- Start a promotion into replicas (11 R423, R424). -/
def startPromotion (slot v row : Nat) (l : List Nat) (s : State) : State :=
  if l.isEmpty then s
  else
    let s1 := modVersion slot v (fun x => { x with hot := mset x.hot row { state := .copyingUp, replicas := l } }) s
    evCount 7 5 1 (modTable slot (fun t => { t with promotions := t.promotions + 1 }) s1)

/-- Start a demotion (11 R423). -/
def startDemotion (slot v row : Nat) (s : State) : State :=
  let s1 := modHot slot v row (fun r => { r with state := .copyingDown }) s
  evCount 7 6 1 (modTable slot (fun t => { t with demotions := t.demotions + 1 }) s1)

/-- Demote a row, or note the wish while it is copying (11 R423, R425). -/
def demoteRow (slot v row : Nat) (s : State) : State :=
  match ((mget s.obj.tables slot).bind fun t => (mget t.versions v).bind fun x => mget x.hot row) with
  | some r => if r.state = .replicated then startDemotion slot v row s else modHot slot v row (fun x => { x with wanted := some 0 }) s
  | none => s

/-- The hot rows of a version. -/
def hotRows (s : State) (slot v : Nat) : List Nat :=
  ((mget s.obj.tables slot).bind fun t => (mget t.versions v).map fun x => x.hot.map Prod.fst).getD []

/-- Demote every row of a table that no pin covers (11 R429). -/
def drainTable (slot : Nat) (t : Table) (s : State) : State :=
  foldS t.versions (fun u v =>
    foldS ((v.2.hot.map Prod.fst).filter fun r => (pinnedCount t v.1 r).isNone) (fun w r => demoteRow slot v.1 r w) u) s

/-- TBL_CTL.repl_drain demotes every unpinned replicated row of every table (11 R429). -/
def drainReplicas (s : State) : State := foldS s.obj.tables (fun u t => drainTable t.1 t.2 u) s

/-- The version and table a row command of the pacer names, when neither is gone: of the loaded table, else of a deleted one
that is kept for those who pinned it (11 R397). -/
def rowOf (s : State) (id v : Nat) : Option (Nat × Table × Version) :=
  let here (k : Nat) : Option (Nat × Table × Version) :=
    (mget s.obj.tables k).bind fun t => (mget t.versions v).map fun x => (k, t, x)
  match (tableSlot s id).bind here with
  | some r => some r
  | none => (s.obj.tables.filter fun t => t.2.id == id && t.2.deleted).findSome? fun t => here t.1

/-- Whether the pacer's control lets a row of a pin count be promoted (11 R429): none while repl_drain is set, pinned ones alone
while repl_hold is. -/
def mayPromote (s : State) (pin : Option Nat) : Bool :=
  !s.obj.tblCtl.getLsbD 1 && (!s.obj.tblCtl.getLsbD 0 || pin.isSome)

/-- ROW_PROMOTE (11 R424 to R427, R429): the pacer, or a pin, wants replicas for a row. -/
def execRowPromote (table version row count : Nat) (s : State) : Answer :=
  .next (match rowOf s table version with
    | none => s
    | some (k, t, x) =>
      if t.nRows ≤ row ∨ x.cond = .retired ∨ !mayPromote s (pinnedCount t version row) then s
      else match mget x.hot row with
        | some r =>
          if r.state = .replicated then s else modHot k version row (fun y => { y with wanted := some count }) s
        | none =>
          let g := grantedReplicas s k t version row count
          fitLeases (holdOutput 2 (k, version, row) [g.2] (startPromotion k version row g.1 s)))

/-- PROMOTION_SNAPSHOTS_DONE (11 R424): the home holds new adds. -/
def execPromotionSnapshotsDone (table version row : Nat) (s : State) : Answer :=
  .next (match rowOf s table version with
    | some (k, _, x) => match mget x.hot row with
      | some r => if r.state = .copyingUp then modHot k version row (fun y => { y with holding := true }) s else s
      | none => s
    | none => s)

/-! ### Adds at the home (11 R413 to R420; 03 R85 to R88) -/

/-- Bits of an element of an addable table. -/
def fxBitsOf (fmt : Nat) : Nat := if fmt = 0xC then 32 else 64

/-- One delta element converted: units of 2^(-f), whether it saturated, whether it was a NaN (03 R85, R86). -/
def convDelta (fmt frac : Nat) : RowDelta → Int × Bool × Bool
  | .fixed z => (z, false, false)
  | .value m e => let c := clampFx (fxBitsOf fmt) (roundFx frac ⟨m, e⟩); (c.1, c.2, false)
  | .nan => (0, false, true)
  | .inf neg => ((if neg then -(2 ^ (fxBitsOf fmt - 1)) else 2 ^ (fxBitsOf fmt - 1) - 1), true, false)

/-- Add converted deltas to a stored row: the row and whether an element saturated (03 R87). -/
def addRow (fmt : Nat) (row : Bytes) (ds : List Int) : Bytes × Bool :=
  let w := fxBitsOf fmt
  let n := w / 8
  let r := (withPos ds).map fun e => clampFx w (toSigned w (rd row (n * e.1) n) + e.2)
  (r.flatMap (fun c => leBytes n (c.1 % 2 ^ w).toNat) ++ row.drop (n * ds.length), r.any fun c => c.2)

/-- Write an add's result into a version: its row, sequence number and dirty mark (11 R422; 12 R436). -/
def landAdd (t0 : Nat) (row : Nat) (b : Bytes) (v : Version) : Version :=
  { v with rows := mset v.rows row b, seqs := mmod v.seqs row 0 fun n => n + 1
           dirty := if mhas v.dirty row then v.dirty else mset v.dirty row t0
           homes := if mhas v.dirty row then v.homes else mset v.homes row (mget v.rows row) }

/-- What became of a combined row delta at its home. -/
inductive AddEnd where
  | applied | retired | full | noTable | held
deriving DecidableEq, Repr

/-- Apply a combined delta at a row's home and at every copy, in sequence; while the home holds new adds it waits
(11 R413 to R417, R422 to R424). -/
def applyAdd (slot v row : Nat) (h : HeldAdd) (s : State) : AddEnd × State :=
  let ds := h.deltas
  match mget s.obj.tables slot with
  | none => (.noTable, s)
  | some t =>
    let dropRetired := (AddEnd.retired, evCount 7 4 1 (modTable slot (fun x => { x with
      dropRetired := x.dropRetired + 1, flags := x.flags ||| 4 }) s))
    match mget t.versions v with
    | none => dropRetired
    | some x =>
      if x.cond = .retired then dropRetired
      else
        let old := mget x.rows row
        if old.isNone && t.sparse && decide (t.capacity ≤ x.rows.length) then
          (.full, evCount 7 4 1 (modTable slot (fun y => { y with dropFull := y.dropFull + 1, flags := y.flags ||| 2 }) s))
        else
          match mget x.hot row with
          | some r =>
            if r.holding then (.held, modHot slot v row (fun y => { y with heldAdds := y.heldAdds ++ [h] }) s)
            else land ds t x old (r.state == .copyingUp) s
          | none => land ds t x old false s
where
  /-- The add lands; a row being promoted logs it. -/
  land (ds : List Int) (t : Table) (x : Version) (old : Option Bytes) (log : Bool) (s : State) : AddEnd × State :=
    let a := addRow t.fmt (old.getD (zeros (slotBytesOf t.fmt t.rowElems))) ds
    let s1 := modVersion slot v (landAdd (now s) row a.1) s
    let seq := mgetD x.seqs row 0 + 1
    let s2 := if log then modHot slot v row (fun y => { y with log := y.log ++ [(seq, ds)] }) s1 else s1
    (.applied, evCount 7 3 1 (modTable slot (fun y => { y with
      adds := y.adds + 1, flags := if a.2 then y.flags ||| 1 else y.flags }) s2))

/-- Note a dropped delta in a local run (11 R416). -/
def noteDrop (e : Nat) (r : AddEnd) (s : State) : State :=
  match r with
  | .retired => modWork e (fun w => { w with dropsRetired := w.dropsRetired + 1 }) s
  | .full => modWork e (fun w => { w with dropsFull := w.dropsFull + 1 }) s
  | _ => s

/-- The answer to a ROW_ADD: deltas dropped for a full table, and for a version that is retired or freed (11 R415; 16 R615). -/
def addAnswer (p : Packet) (r : AddEnd) : Packet :=
  answerTo p 0x81 Status.ok (match r with | .full => 1 | .retired => 2 ^ 32 | .noTable => 2 ^ 32 | _ => 0)

/-- A context no longer waits for one of its adds; with the last of them its wait at a point ends (11 R417). -/
def addDone (unit share : Nat) (s : State) : State :=
  modShare unit share (fun x => { x with asks := x.asks - 1, waiting := if x.asks ≤ 1 then false else x.waiting }) s

/-- A held add is complete: what became of it reaches who waits (11 R416, R417, R424). -/
def completeHeld (h : HeldAdd) (r : AddEnd) (s : State) : State :=
  let s1 := match h.entry with | some e => noteDrop e r s | none => s
  let s2 := match h.ctx with | some c => addDone c.1 c.2 s1 | none => s1
  match h.ask with
  | some p => sendAns p (addAnswer p r) s2
  | none => s2

/-- Apply held adds of a row in order (11 R424). -/
def releaseHeld (slot v row : Nat) (l : List HeldAdd) (s : State) : State :=
  foldS l (fun t h => let r := applyAdd slot v row h t; completeHeld h r.1 r.2) s

/-- A row whose promotion, demotion or pin change waited takes it up (11 R425). -/
def takeWanted (slot : Nat) (v row : Nat) (s : State) : State :=
  match (mget s.obj.tables slot).bind fun t => (mget t.versions v).bind fun x => (mget x.hot row).map fun r => (x, r) with
  | some (x, r) =>
    let gone := decide (x.cond = VerCond.retired)
    match r.wanted with
    | some n => if n ≠ r.replicas.length then startDemotion slot v row s else modHot slot v row (fun y => { y with wanted := none }) s
    | none => if gone then startDemotion slot v row s else s
  | none => s

/-- PROMOTION_LOG_APPLIED (11 R424): the row is REPLICATED and the held adds are released. -/
def execPromotionLogApplied (table version row : Nat) (s : State) : Answer :=
  .next (match rowOf s table version with
    | some (k, _, x) => match mget x.hot row with
      | some r =>
        if r.state = .copyingUp ∧ r.holding then
          let s1 := modHot k version row (fun y => { y with state := .replicated, holding := false, log := [], heldAdds := [] }) s
          takeWanted k version row (releaseHeld k version row r.heldAdds s1)
        else s
      | none => s
    | none => s)

/-- ROW_DEMOTE (11 R423, R425): a pinned row keeps its count. -/
def execRowDemote (table version row : Nat) (s : State) : Answer :=
  .next (match rowOf s table version with
    | some (k, t, x) =>
      let s1 := holdOutput 2 (k, version, row) [] s
      match pinnedCount t version row with
      | some n => if n = 0 ∨ x.cond = .retired then demoteRow k version row s1 else s1
      | none => demoteRow k version row s1
    | none => s)

/-- DEMOTION_READS_DONE (11 R423): the row is in HOME and its replicas are free; a waiting wish starts (R425). -/
def execDemotionReadsDone (table version row : Nat) (s : State) : Answer :=
  .next (match rowOf s table version with
    | some (k, t, x) => match mget x.hot row with
      | some r =>
        if r.state = .copyingDown then
          let s1 := modVersion k version (fun y => { y with hot := merase y.hot row }) s
          match r.wanted with
          | some n =>
            if n = 0 ∨ x.cond = .retired ∨ !mayPromote s (pinnedCount t version row) then s1
            else let g := grantedReplicas s1 k t version row n; fitLeases (holdOutput 2 (k, version, row) [g.2] (startPromotion k version row g.1 s1))
          | none => s1
        else s
      | none => s
    | none => s)

/-- The rows of a delta list converted and applied, with what SCATTER_ADD reports (11 R413 to R416, R420). -/
def deltaArrive (slot v row src : Nat) (ds : List RowDelta) (s : State) : AddEnd × State :=
  match mget s.obj.tables slot with
  | none => (.noTable, s)
  | some t =>
    let c := ds.map (convDelta t.fmt t.frac)
    let nNan := (c.filter fun x => x.2.2).length
    let sat := c.any fun x => x.2.1
    let s1 := modTable slot (fun x => { x with nanDeltas := x.nanDeltas + nNan, flags := if sat then x.flags ||| 1 else x.flags }) s
    applyAdd slot v row { deltas := c.map fun x => x.1, entry := some src } s1

/-- ROW_DELTA_ARRIVE (11 R413 to R416): `src` is the request-table entry of the local run that sent it. -/
def execRowDeltaArrive (table version row : Nat) (deltas : List RowDelta) (src : Nat) (s : State) : Answer :=
  .next (match (s.obj.tables.find? fun t => t.2.id == table).map Prod.fst with
    | none => s
    | some k =>
      match mget s.obj.tables k with
      | none => s
      | some t =>
        if !t.addable then s
        else if t.nRows ≤ row then
          evCount 7 4 1 (modTable k (fun x => { x with dropIndex := x.dropIndex + 1 }) s)
        else
          let r := deltaArrive k version row src (deltas.take t.rowElems) s
          noteDrop src r.1 r.2)

/-! ### Versions (11 R401 to R405) -/

/-- An operand of a version command's block. -/
def verOp (h : HostCmd) (field : Nat) : Nat := (Config.versionField (cmdParam h % 4) field (cmdBody h 32)).toNat

/-- The table a version command names. -/
def verTable (h : HostCmd) (s : State) : Option (Nat × Table) :=
  (tableSlot s (cmdAux h)).bind fun k => (mget s.obj.tables k).map fun t => (k, t)

/-- VERSION_NEW (11 R402, R403): operand 0 is the base; the row list is read with the operand block.  Rows that the base holds
dirty are dirty in the copy too, which shares them (DEDUCED, log entry 31). -/
def versionNewBody (h : HostCmd) (s : State) : Reply :=
  match verTable h s with
  | none => deny Status.tableInvalid s
  | some (k, t) =>
    let base := verOp h 0
    if s.flash.storeRo then denyRo s
    else match (if base = 0 then some { cond := .live } else match mget t.versions base with
        | some b => if b.cond = .retired then none else some b
        | none => none) with
    | none => deny Status.versionRetired s
    | some b =>
      match (if h.stop.isEmpty then some [] else
          rowList (slotBytesOf t.fmt t.rowElems) t.nRows (if t.sparse then some t.capacity else none) h.stop) with
      | none => deny Status.tableInvalid s
      | some l =>
        let all := l.foldl (fun m e => mset m e.1 e.2) b.rows
        if t.sparse ∧ t.capacity < all.length then deny Status.tableInvalid s
        else
          let n := (t.highest + 1) % 2 ^ 32
          let v : Version := {
            cond := .live, rows := all, shares := if base = 0 then [] else base :: b.shares, dirty := b.dirty.filter fun d => !mhas l d.1, homes := b.homes.filter fun d => !mhas l d.1 }
          let s1 := modTable k (fun x => { x with highest := n, versions := mset x.versions n v }) s
          if 8 ≤ t.versions.length ∨ usableBytes s 1 < storedBytes s1 then deny Status.noResources s
          else okWith (acceptWrites (rowWrites k n t (l.map Prod.fst)) s1) n

def execVersionNew (h : HostCmd) (s : State) : Answer :=
  .next (if cmdParam h % 4 = 0 then runCmd 0x2C h (fun _ t => versionNewBody h t) s else s)

/-- VERSION_SWITCH (11 R404). -/
def versionSwitchBody (h : HostCmd) (s : State) : Reply :=
  match verTable h s with
  | none => deny Status.tableInvalid s
  | some (k, t) =>
    let v := verOp h 0
    match mget t.versions v with
    | none => deny Status.versionRetired s
    | some x =>
      if x.cond = .retired then deny Status.versionRetired s
      else okWith (modTable k (fun y => { y with
        versions := mmap y.versions fun n z =>
          if n = v then { z with cond := .current } else if z.cond = .current then { z with cond := .live } else z }) s)

def execVersionSwitch (h : HostCmd) (s : State) : Answer :=
  .next (if cmdParam h % 4 = 1 then runCmd 0x2C h (fun _ t => versionSwitchBody h t) s else s)

/-- Retire a version: its replicated rows are demoted, and it is freed when its last pin has ended (11 R405, R425). -/
def retireVersion (k v : Nat) (s : State) : State :=
  let s1 := endRowConflicts k (some v) (modVersion k v (fun x => { x with cond := .retired }) s)
  releaseUnused (foldS (hotRows s1 k v) (fun t r => demoteRow k v r t) s1)

/-- VERSION_RETIRE (11 R402, R405). -/
def versionRetireBody (h : HostCmd) (s : State) : Reply :=
  match verTable h s with
  | none => deny Status.tableInvalid s
  | some (k, t) =>
    match mget t.versions (verOp h 0) with
    | none => deny Status.versionRetired s
    | some x => if x.cond = .current then deny Status.notPermitted s else okWith (retireVersion k (verOp h 0) s)

def execVersionRetire (h : HostCmd) (s : State) : Answer :=
  .next (if cmdParam h % 4 = 2 then runCmd 0x2C h (fun _ t => versionRetireBody h t) s else s)

/-- Bring the hot rows of a pinned range to the pinned count (11 R425, R427). -/
def applyPin (k v first count n : Nat) (s : State) : State :=
  foldS ((hotRows s k v).filter fun r => decide (first ≤ r) && decide (r < first + count)) (fun t r =>
    match (mget t.obj.tables k).bind fun x => (mget x.versions v).bind fun y => mget y.hot r with
    | some q => if q.replicas.length = n ∧ q.state ≠ .copyingDown then t
      else
        let t1 := modHot k v r (fun y => { y with wanted := some n }) t
        if q.state = .replicated then startDemotion k v r t1 else t1
    | none => t) s

/-- ROW_PIN (11 R402, R427): operands version, first row, count, replicas. -/
def rowPinBody (h : HostCmd) (s : State) : Reply :=
  match verTable h s with
  | none => deny Status.tableInvalid s
  | some (k, t) =>
    let v := verOp h 0
    let first := verOp h 1
    let count := verOp h 2
    let n := verOp h 3
    if t.nRows < first + count ∨ 8 < n then deny Status.tableInvalid s
    else match mget t.versions v with
      | none => deny Status.versionRetired s
      | some x =>
        if x.cond = .retired then deny Status.versionRetired s
        else if 64 ≤ t.pins.length then deny Status.noResources s
        else okWith (applyPin k v first count n (modTable k (fun y => { y with pins := y.pins ++ [⟨v, first, count, n⟩] }) s))

def execRowPin (h : HostCmd) (s : State) : Answer :=
  .next (if cmdParam h % 4 = 3 then runCmd 0x2C h (fun _ t => rowPinBody h t) s else s)

/-! ### Dirty rows and eviction (12 R435, R436) -/

/-- Whether a dirty row may be evicted: it is neither hot nor under a pin (12 R435), and the store takes writes (13 R502). -/
def evictable (s : State) (d : DirtyRow) : Bool :=
  !s.flash.storeRo && (match mget s.obj.tables d.slot with
    | some t => (pinnedCount t d.version d.row).isNone &&
        (match mget t.versions d.version with | some v => !mhas v.hot d.row | none => false)
    | none => false)

/-- Free Brixjo for an image's load: what holds no allocation, evictable cache copies and lent pages included (10 R350, 12
R470). -/
def freeBrixjo (s : State) : Nat :=
  brixjoSize s - (brixjoAlloc s + (((dirtyRows s).filter fun d => !evictable s d).map (·.bytes)).sum)

/-- Write a dirty row back to the store: its frame is programmed, and the row is clean (12 R436; 13 R486). -/
def writeRowBack (slot version row : Nat) (s : State) : State :=
  let s1 := modVersion slot version (fun y => { y with dirty := merase y.dirty row, homes := merase y.homes row }) s
  match mget s.obj.tables slot with
  | some t => acceptWrites (rowWrites slot version t [row]) s1
  | none => s1

/-- Write a dirty row back and evict it (12 R436). -/
def evictRow (d : DirtyRow) (s : State) : State := writeRowBack d.slot d.version d.row s

/-- Evict dirty rows, the longest dirty first, until so many bytes are free.  Which contents a stack used least recently the
model does not hold: clean copies go first, and a dirty row only when they do not suffice (DESIGN CHOICE, assumption 33). -/
def evictFor (need : Nat) : List DirtyRow → State → State
  | [], s => s
  | d :: l, s => if need ≤ idleBrixjo s then s else evictFor need l (evictRow d s)

/-- The dirty rows that may be evicted, in the order of their eviction. -/
def evictOrder (s : State) : List DirtyRow := sortBy (fun a b => decide (a.since < b.since)) ((dirtyRows s).filter (evictable s))

/-! ### Looking rows up (11 R406, R407) -/

/-- What a lookup of an index finds in a version. -/
inductive RowFind where
  | present (b : Bytes) | missing | invalid
deriving DecidableEq, Repr

/-- Find a row of a version. -/
def findRow (t : Table) (v : Version) (row : Nat) : RowFind :=
  if t.nRows ≤ row then .invalid
  else match mget v.rows row with
    | some b => .present b
    | none => if t.sparse then .missing else .present (zeros (slotBytesOf t.fmt t.rowElems))

/-- The bytes a lookup answers, and its counters (11 R407; 20 R745): none when the table or version is gone. -/
def lookupRow (slot v row : Nat) (s : State) : Option Bytes × State :=
  match (mget s.obj.tables slot).bind fun t => (mget t.versions v).map fun x => (t, x) with
  | none => (none, s)
  | some (t, x) =>
    let s1 := evCount 7 1 1 s
    match findRow t x row with
    | .present b => (some b, s1)
    | .missing => (some t.defaultRow, evCount 7 2 1 (modTable slot (fun y => { y with defMissing := y.defMissing + 1 }) s1))
    | .invalid => (some t.defaultRow, evCount 7 2 1 (modTable slot (fun y => { y with defInvalid := y.defInvalid + 1 }) s1))

/-! ### Dirty rows (12 R436, 13 R502) -/

/-- DIRTY_WRITEBACK (12 R436): while the store partition is read-only a dirty row stays (13 R502). -/
def execDirtyWriteback (table version row : Nat) (s : State) : Answer :=
  .next (match rowOf s table version with
    | some (k, _, x) =>
      if s.flash.storeRo || !mhas x.dirty row then s
      else writeRowBack k version row s
    | none => s)

end Sys2Proof.Machine
end

