-- ==== Sys2Proof/Machine/Objects.lean ====
section
/-! DEFINITION. Service profiles, tokenizers and prompt templates: their records, validation, loading, holding while an
earlier version drains, and unloading (01 R19 to R28, 06 R187 to R192, 09 R330, R334 to R337, 15 R779). -/

namespace Sys2Proof.Machine

/-! ### Profile records (01 R19, R20, R22) -/

/-- Usable bits of a profile record (01 R19). -/
def profileMask : List Nat :=
  maskOf 128 [(0, 1, 0x3F), (1, 1, 3), (2, 2, 3), (4, 4, all64), (8, 2, 0xFFF), (12, 4, all64), (16, 4, all64), (20, 4, all64),
    (24, 4, all64), (28, 4, all64), (32, 1, all64), (33, 1, all64), (34, 2, all64), (36, 2, all64), (38, 2, all64),
    (40, 2, all64), (42, 2, all64), (44, 4, all64), (48, 2, all64), (52, 4, all64), (56, 4, all64), (60, 4, all64),
    (64, 4, all64), (68, 4, all64)]

/-- A profile record's fields (01 R19). -/
def profileOf (b : Bytes) : Profile :=
  { id := rd b 0 1 % 64, mode := rd b 1 1, shared := (rd b 2 2).testBit 0, speculative := (rd b 2 2).testBit 1
    version := rd b 4 4, owner := rd b 8 2, tokenizer := rd b 12 4, encoder := rd b 16 4, collection := rd b 20 4
    shardSet := rd b 24 4, shardWaitUs := rd b 28 4, entryWalks := rd b 32 1, stallHops := rd b 33 1
    queueLen := rd b 34 2, hopBudget := rd b 36 2, hopCap := rd b 38 2, rescoreIn := rd b 40 2, rescoreKeep := rd b 42 2
    reranker := rd b 44 4, kMax := rd b 48 2, template := rd b 52 4, promptBudget := rd b 56 4, generator := rd b 60 4
    draft := rd b 64 4, maxNew := rd b 68 4, raw := b }

/-- Whether a number lies in a range. -/
def inRange (lo hi v : Nat) : Bool := decide (lo ≤ v) && decide (v ≤ hi)

/-- The loaded tokenizer with an ID (06 R188). -/
def tokenizerById (s : State) (id : Nat) : Option Tokenizer := (s.obj.tokenizers.find? fun t => t.2.id == id).map Prod.snd

/-- A loaded image of a kind, which a profile's owner or every account may use (01 R22). -/
def imageFits (s : State) (p : Profile) (h kind : Nat) : Bool :=
  match mget s.obj.images h with
  | some i => !i.unloaded && i.kind == kind && (i.shared || (!p.shared && i.owner == p.owner))
  | none => false

/-- A loaded collection that a profile may name (01 R22). -/
def collFits (s : State) (p : Profile) : Bool :=
  match mget s.obj.collections p.collection with
  | some c => !c.deleted && (c.desc.shared || (!p.shared && c.desc.owner == p.owner))
  | none => false

/-- The ranges and names of the fields of stages 4 to 8 and 10 (01 R19, R22); shard_wait_us only with a shard set. -/
def searchFieldsOk (s : State) (p : Profile) : Bool :=
  collFits s p &&
  (p.shardSet == 0 || (decide (p.shardSet < 256) && decide (0 < mgetD s.fab.setSizes p.shardSet 0) && inRange 1 100000 p.shardWaitUs)) &&
  inRange 1 16 p.entryWalks && inRange 1 255 p.stallHops && inRange 1 256 p.queueLen && inRange 1 65535 p.hopBudget &&
  inRange p.hopBudget 65535 p.hopCap && inRange 1 4096 p.rescoreIn && inRange 1 256 p.rescoreKeep && inRange 1 256 p.kMax

/-- The fields of stages 4 to 8 and 10 are 0 in a mode without them (01 R20). -/
def searchFieldsZero (p : Profile) : Bool :=
  p.collection == 0 && p.shardSet == 0 && p.shardWaitUs == 0 && p.entryWalks == 0 && p.stallHops == 0 && p.queueLen == 0 &&
  p.hopBudget == 0 && p.hopCap == 0 && p.rescoreIn == 0 && p.rescoreKeep == 0 && p.kMax == 0

/-- The fields of stage 12 (01 R19, R22). -/
def genFieldsOk (s : State) (p : Profile) : Bool :=
  inRange 1 262144 p.promptBudget && imageFits s p p.generator 2 &&
  (if p.speculative then imageFits s p p.draft 3 else p.draft == 0) &&
  inRange 1 262143 p.maxNew && decide (p.promptBudget + p.maxNew ≤ 262144)

/-- The fields of stage 12 are 0 in a mode without it (01 R20); so is the speculative flag. -/
def genFieldsZero (p : Profile) : Bool :=
  !p.speculative && p.promptBudget == 0 && p.generator == 0 && p.draft == 0 && p.maxNew == 0

/-- The template is loaded and its tokens, every word of its pool, lie below the tokenizer's vocab_size (01 R22, 09 R337). -/
def templateFits (s : State) (p : Profile) : Bool :=
  match mget s.obj.templates p.template, tokenizerById s p.tokenizer with
  | some t, some k => t.pool.all fun n => decide (n < k.vocabSize)
  | _, _ => false

/-- The re-ranker's field: absent in GENERATE, 0 in SEARCH_VECTOR, 0 or an image in SEARCH_TEXT, an image in RAG (09 R330). -/
def rerankerOk (s : State) (p : Profile) : Bool :=
  match p.mode with
  | 0 => imageFits s p p.reranker 1
  | 1 => p.reranker == 0 || imageFits s p p.reranker 1
  | _ => p.reranker == 0

/-- Whether a profile record may be loaded (01 R22, 09 R330, R337). -/
def profileOk (s : State) (b : Bytes) : Bool :=
  let p := profileOf b
  let m := p.mode
  (offending 0 b profileMask).isNone &&
  ((mget s.obj.profiles p.id).bind fun x => x.cur).all (fun c => c.version != p.version) &&
  (p.shared || acctExists s p.owner) &&
  (if m == 2 then p.tokenizer == 0 else (tokenizerById s p.tokenizer).isSome) &&
  (if m == 0 || m == 1 then imageFits s p p.encoder 0 else p.encoder == 0) &&
  (if modeSearches m then searchFieldsOk s p else searchFieldsZero p) &&
  rerankerOk s p &&
  (if m == 0 then templateFits s p else p.template == 0) &&
  (if modeGenerates m then genFieldsOk s p else genFieldsZero p)

/-! ### Loading and unloading profiles (01 R22, R27, R28) -/

/-- Put a profile, or none, under a profile_id: the version it replaces drains while requests use it (01 R27, R28). -/
def placeProfile (id : Nat) (p : Option Profile) (s : State) : State :=
  releaseUnused (modObj (fun o => { o with profiles := mmod o.profiles id {} fun x =>
    { x with cur := p, draining := x.cur } }) s)

/-- Validate a load, or an unload given by an empty record, and let it take effect: the status it completes with. -/
def applyProfile (id : Nat) (record : Bytes) (s : State) : Nat × State :=
  if record.isEmpty then
    if ((mget s.obj.profiles id).bind fun x => x.cur).isSome then (Status.ok, placeProfile id none s)
    else (Status.profileInvalid, s)
  else if profileOk s record then (Status.ok, placeProfile id (some (profileOf record)) s)
  else (Status.profileInvalid, s)

/-- A load or unload of a profile_id: held while an earlier version drains (01 R28). -/
def profileChange (h : HostCmd) (f : Fetched) (id : Nat) (record : Bytes) (s : State) : Reply :=
  let slot := mgetD s.obj.profiles id {}
  if slot.draining.isSome || !slot.held.isEmpty then
    { state := modObj (fun o => { o with profiles := mmod o.profiles id {} fun x =>
        { x with held := x.held ++ [{ qp := h.qp, tag := cmdTag h, sqHead := f.sqHead, record := record }] } }) s }
  else
    let r := applyProfile id record s
    { state := r.2, cpl := some { tag := 0, status := r.1 } }

/-- PROFILE_LOAD (01 R22, R28): the record is read at addr0. -/
def execProfileLoad (h : HostCmd) (s : State) : Answer :=
  .next (runCmd 0x20 h (fun f t =>
    let b := cmdBody h 128
    if rd b 0 1 < 64 then profileChange h f (rd b 0 1) b t else deny Status.profileInvalid t) s)

/-- PROFILE_UNLOAD (01 R28, 15 R779): a profile_id without a loaded profile changes nothing. -/
def execProfileUnload (h : HostCmd) (s : State) : Answer :=
  .next (runCmd 0x21 h (fun f t =>
    if ((mget t.obj.profiles (cmdAux h % 64)).bind fun x => x.cur).isSome then profileChange h f (cmdAux h % 64) [] t
    else deny Status.profileInvalid t) s)

/-- PROFILE_LOAD_RELEASE (01 R28): the drain has ended; the oldest held load or unload takes effect and completes. -/
def execProfileLoadRelease (profile : Nat) (s : State) : Answer :=
  .next <|
    let t := releaseUnused s
    match mget t.obj.profiles profile with
    | none => s
    | some x =>
      match x.draining, x.held with
      | none, l :: ls =>
        let t1 := modObj (fun o => { o with profiles := mmod o.profiles profile {} fun y => { y with held := ls } }) t
        let r := applyProfile profile l.record t1
        complete l.qp { tag := l.tag, status := r.1, sqHead := l.sqHead } r.2
      | _, _ => s

/-! ### Tokenizers (06 R187 to R192) -/

/-- Every loaded profile. -/
def loadedProfiles (s : State) : List Profile := s.obj.profiles.filterMap fun p => p.2.cur

/-- TOKENIZER_LOAD (06 R187, R191): the lowest free slot, which the completion returns. -/
def execTokenizerLoad (h : HostCmd) (s : State) : Answer :=
  .next (runCmd 0x24 h (fun _ t =>
    match parseTokenizer (cmdBody h (cmdLen0 h)), lowestFree t.obj.tokenizers 16 with
    | some k, some slot =>
      if (tokenizerById t k.id).isSome then deny Status.tokenizerInvalid t
      else okWith (modObj (fun o => { o with tokenizers := mset o.tokenizers slot k }) t) slot
    | _, _ => deny Status.tokenizerInvalid t) s)

/-- TOKENIZER_UNLOAD (06 R192). -/
def execTokenizerUnload (h : HostCmd) (s : State) : Answer :=
  .next (runCmd 0x25 h (fun _ t =>
    match t.obj.tokenizers.find? fun k => k.2.id == cmdAux h with
    | none => deny Status.tokenizerInvalid t
    | some k =>
      if (loadedProfiles t).any fun p => p.mode != 2 && p.tokenizer == cmdAux h then deny Status.notPermitted t
      else okWith (modObj (fun o => { o with tokenizers := merase o.tokenizers k.1 }) t)) s)

/-! ### Templates (09 R334 to R336) -/

/-- Usable bits of a template header (09 R335). -/
def templateMask : List Nat :=
  maskOf 64 [(0, 4, all64), (4, 4, all64), (8, 2, all64), (10, 2, 1), (12, 4, all64), (16, 2, all64), (18, 2, all64), (20, 4, all64)]

/-- The pool words of a template from one word on, none when one has a reserved bit. -/
def poolRun (o : Bytes) (pool first n : Nat) : List Nat := (List.range n).map fun i => rd o (pool + 4 * (first + i)) 4

/-- One part (09 R335), none when it breaks its encoding or a FIXED run leaves the pool. -/
def parsePart (o : Bytes) (pool poolLen at_ : Nat) : Option Part :=
  let ty := rd o at_ 1
  let len := rd o (at_ + 2) 2
  let off := rd o (at_ + 4) 4
  if rd o (at_ + 1) 1 ≠ 0 then none
  else match ty with
    | 0 => if 1 ≤ len ∧ off + len ≤ poolLen then some (.fixed (poolRun o pool off len)) else none
    | 1 => if len = 0 ∧ off = 0 then some .query else none
    | 2 => if len = 0 ∧ off = 0 then some .passages else none
    | _ => none

/-- The tokens of a FIXED part. -/
def Part.len : Part → Nat
  | .fixed l => l.length
  | _ => 0

/-- Every value of a list, none when one is missing. -/
def allSome {α : Type} : List (Option α) → Option (List α)
  | [] => some []
  | none :: _ => none
  | some a :: l => (allSome l).map (a :: ·)

/-- Read a template object, none when it breaks R335 or R336 in itself. -/
def parseTemplate (o : Bytes) : Option Template :=
  let n := rd o 8 2
  let pre := rd o 16 2
  let post := rd o 18 2
  let pl := rd o 20 4
  let pool := 64 + 8 * n
  if o.length < 64 ∨ (offending 0 (o.take 64) templateMask).isSome ∨ rd o 0 4 ≠ 0x544D504C ∨ rd o 4 4 = 0 ∨
      n < 2 ∨ 64 < n ∨ 64 < pre ∨ 64 < post ∨ pl < pre + post ∨ o.length < pool + 4 * pl ∨
      (poolRun o pool 0 pl).any (fun w => decide (2 ^ 20 ≤ w)) then none
  else (allSome ((List.range n).map fun i => parsePart o pool pl (64 + 8 * i))).bind fun parts =>
    if (parts.filter fun p => p == .query).length = 1 ∧ (parts.filter fun p => p == .passages).length = 1 ∧
        rd o 12 4 = (parts.map Part.len).sum then
      some { id := rd o 4 4, bestLast := (rd o 10 2).testBit 0, fixedTokens := rd o 12 4, pre := poolRun o pool 0 pre
             post := poolRun o pool pre post, parts := parts, pool := poolRun o pool 0 pl, digest := Config.sha512 o }
    else none

/-- TEMPLATE_LOAD (09 R336). -/
def execTemplateLoad (h : HostCmd) (s : State) : Answer :=
  .next (runCmd 0x26 h (fun _ t =>
    match parseTemplate (cmdBody h (cmdLen0 h)) with
    | none => deny Status.templateInvalid t
    | some k =>
      if mhas t.obj.templates k.id || decide (256 ≤ t.obj.templates.length) then deny Status.templateInvalid t
      else okWith (modObj (fun o => { o with templates := mset o.templates k.id k }) t)) s)

/-- TEMPLATE_UNLOAD (09 R334). -/
def execTemplateUnload (h : HostCmd) (s : State) : Answer :=
  .next (runCmd 0x27 h (fun _ t =>
    if !mhas t.obj.templates (cmdAux h) then deny Status.templateInvalid t
    else if (loadedProfiles t).any fun p => p.mode == 0 && p.template == cmdAux h then deny Status.notPermitted t
    else okWith (modObj (fun o => { o with templates := merase o.templates (cmdAux h) }) t)) s)

end Sys2Proof.Machine
end

