-- ==== Sys2Proof/Machine/Collections.lean ====
section
/-! DEFINITION. Collections, ingest sessions and filters (07 R222 to R261, R781; 13 R484, R500, R501; 15 R779). -/

namespace Sys2Proof.Machine

/-! ### Creation (07 R222 to R224, R235, R236, R246) -/

/-- Usable bits of a creation descriptor (07 R223). -/
def collMask : List Nat :=
  maskOf 128 [(0, 4, all64), (4, 1, 3), (5, 1, 0xFF), (6, 1, 0xF), (7, 1, 0xF), (8, 2, all64), (10, 1, 0xFF), (11, 1, 0xFF),
    (12, 2, 0xFFF), (14, 2, all64), (16, 8, 2 ^ 40 - 1), (24, 8, 2 ^ 41 - 1), (32, 2, all64), (34, 2, all64), (40, 8, all64),
    (48, 8, all64), (56, 8, all64)]

/-- Bits of a sketch code (07 R223). -/
def sketchCode : Nat → Nat
  | 0 => 128
  | 1 => 256
  | _ => 512

/-- The largest degree for each sketch and inline width (07 R236). -/
def maxDegree (sketch inline : Nat) : Nat :=
  if inline = 128 then 24 else if inline = 512 then 8 else if sketch = 256 then 16 else 15

/-- Read a creation descriptor. -/
def collDescOf (o : Bytes) : CollDesc :=
  { shared := (rd o 4 1).testBit 0, privileged := (rd o 4 1).testBit 1, metric := rd o 5 1, vecFmt := rd o 6 1 % 16
    sketchBits := sketchCode (rd o 7 1 % 4), inlineBits := sketchCode (bitsOf (rd o 7 1) 3 2), dim := rd o 8 2, pqM := rd o 10 1
    degree := rd o 11 1, owner := rd o 12 2, idBase := rd o 16 8, idSpan := rd o 24 8, textMax := rd o 32 2
    ingestQueue := rd o 34 2 }

/-- 16-bit words of a section. -/
def words16 (o : Bytes) (off n : Nat) : List Nat := (List.range n).map fun i => rd o (off + 2 * i) 2

/-- Read a creation object, none when it breaks R223 or R224 in itself. -/
def parseCollection (o : Bytes) : Option Collection :=
  let d := collDescOf o
  let nc := rd o 14 2 + 1
  let secs := [(rd o 40 8, 2 * d.sketchBits * d.dim), (rd o 48 8, 512 * d.dim), (rd o 56 8, 2 * nc * d.dim)]
  let ok :=
    decide (128 ≤ o.length) && (offending 0 (o.take 128) collMask).isNone && rd o 0 4 != 0 && decide (d.metric ≤ 2) &&
    (d.vecFmt == 0 || d.vecFmt == 1 || d.vecFmt == 5) && rd o 7 1 % 4 != 3 && bitsOf (rd o 7 1) 3 2 != 3 &&
    decide (d.inlineBits ≤ d.sketchBits) && inRange 32 4096 d.dim && d.dim % 32 == 0 && [16, 32, 64, 128].contains d.pqM &&
    d.dim % d.pqM == 0 && (if d.privileged then d.degree == 0 else inRange 1 (maxDegree d.sketchBits d.inlineBits) d.degree) &&
    inRange 1 (2 ^ 40 - d.idBase) d.idSpan && inRange 1 16384 d.textMax && inRange 1 256 d.ingestQueue &&
    (secs.all fun x => decide (x.1 + x.2 ≤ o.length)) && !rangesOverlap ((0, 128) :: secs)
  if ok then
    let rot := words16 o (rd o 40 8) (d.sketchBits * d.dim)
    let cb := words16 o (rd o 48 8) (256 * d.dim)
    let ce := words16 o (rd o 56 8) (nc * d.dim)
    if (rot ++ cb ++ ce).all fun w => (decodeFp bf16 w).isFinite then
      some { desc := d, rotation := rot, codebooks := cb, centroids := chunksOf d.dim nc ce, nextId := d.idBase }
    else none
  else none

/-- Whether a parsed collection can be taken in beside those the module holds (07 R222, R224, R246; 13 R484). -/
def collAdmitted (s : State) (id : Nat) (c : Collection) : Bool :=
  let held := s.obj.collections
  let live := held.filter fun x => !x.2.deleted
  !mhas held id && (c.desc.shared || acctExists s c.desc.owner) && decide (live.length < 256) &&
  (held.all fun x => decide (x.2.desc.idBase + x.2.desc.idSpan ≤ c.desc.idBase) || decide (c.desc.idBase + c.desc.idSpan ≤ x.2.desc.idBase)) &&
  (!c.desc.privileged || decide ((live.filter fun x => x.2.desc.privileged).length < 16)) &&
  decide ((held.map fun x => x.2.desc.idSpan).sum + c.desc.idSpan ≤ 24 * 10 ^ 9) &&
  decide ((held.map fun x => privilegedBytes x.2.desc x.2.centroids.length).sum + privilegedBytes c.desc c.centroids.length ≤ 256 * 2 ^ 30) &&
  (c.desc.degree == 0 || s.flash.sprintShare != 0)

/-- Whether a partition is read-only (13 R501). -/
def eitherRo (s : State) : Bool := s.flash.sprintRo || s.flash.storeRo

/-- COLLECTION_CREATE (07 R224). -/
def execCollectionCreate (h : HostCmd) (s : State) : Answer :=
  .next (runCmd 0x28 h (fun _ t =>
    let o := cmdBody h (cmdLen0 h)
    if eitherRo t then denyRo t
    else match parseCollection o with
      | none => deny Status.collectionInvalid t
      | some c =>
        if collAdmitted t (rd o 0 4) c then okWith (fitLeases (acceptWrites (rangeWrites c.regionMap 6 c.desc.idBase 0 0
            (2 * (c.rotation.length + c.codebooks.length + c.centroids.length * c.desc.dim)))
            (modObj (fun x => { x with collections := mset x.collections (rd o 0 4) c }) t)))
        else deny Status.collectionInvalid t) s)

/-! ### Deletion (07 R225) -/

/-- Change a collection. -/
def modColl (id : Nat) (f : Collection → Collection) (s : State) : State :=
  modObj (fun o => { o with collections := mupd o.collections id f }) s

/-- Change a collection, and write what changes to the flash (07 R250; 13 R485, R486). -/
def writeColl (id : Nat) (f : Collection → Collection) (s : State) : State :=
  match mget s.obj.collections id with
  | some c => acceptWrites (collWrites c (f c)) (modColl id f s)
  | none => s

/-- The key under which a deleted collection is kept: its ID range tells it from every other held (assumption 20). -/
def deadKey (id : Nat) (c : Collection) : Nat := id + 2 ^ 32 * (1 + c.desc.idBase)

/-- A search of a collection follows it to its new key. -/
def SearchWork.rekey (a b : Nat) (w : SearchWork) : SearchWork :=
  if w.par.coll = a then { w with par := { w.par with coll := b } } else w

/-- An entry's references to a collection follow it to its new key. -/
def RtEntry.rekey (a b : Nat) (x : RtEntry) : RtEntry :=
  { x with work := { x.work with
      search := x.work.search.rekey a b
      profile := x.work.profile.map fun p => if p.collection = a then { p with collection := b } else p } }

/-- Take a collection out of the loaded ones: it is kept under a key no command can name for the requests admitted before,
and dropped when there are none (07 R225). -/
def removeColl (id : Nat) (c : Collection) (s : State) : State :=
  let k := deadKey id c
  let s1 := modObj (fun o => { o with
    collections := mset (merase o.collections id) k { c with deleted := true }
    filters := mmap o.filters fun _ f => if f.coll = id then { f with coll := k } else f
    profiles := mmap o.profiles fun _ p =>
      { p with draining := p.draining.map fun q => if q.collection = id then { q with collection := k } else q } }) s
  let s2 := modGen (fun g => { g with entries := mmap g.entries fun _ x => x.rekey id k }) s1
  releaseUnused (modSearch (fun r => { r with
    walks := mmap r.walks fun _ w => if w.coll = id then { w with coll := k } else w
    shardWork := mmap r.shardWork fun _ w => w.rekey id k }) s2)

/-- COLLECTION_DELETE (07 R225, 15 R779). -/
def execCollectionDelete (h : HostCmd) (s : State) : Answer :=
  .next (runCmd 0x29 h (fun _ t =>
    if eitherRo t then denyRo t
    else match mget t.obj.collections (cmdAux h) with
      | none => deny Status.collectionInvalid t
      | some c =>
        if (loadedProfiles t).any fun p => modeSearches p.mode && p.collection == cmdAux h then deny Status.notPermitted t
        else if c.session.isSome then deny Status.ingestBusy t
        else okWith (removeColl (cmdAux h) c t)) s)

/-! ### Sessions (07 R248, R249, R252 to R255) -/

/-- Undo a session of an epoch: its items can never become visible, its deletions are taken back (07 R252). -/
def rollback (e : Nat) (c : Collection) : Collection :=
  { c with items := mmap c.items fun _ i =>
      if i.insertEpoch = e then { i with deleteEpoch := e }
      else if i.deleteEpoch = e then { i with deleteEpoch := 0xFFFFFFFF } else i }

/-- Abort a collection's session with a status for a commit that waits (07 R252, R253).  `written` tells whether the rollback
can be written; if not, every open is refused from then on (07 R254). -/
def abortSession (id status : Nat) (written : Bool) (s : State) : State :=
  match mget s.obj.collections id with
  | none => s
  | some c =>
    match c.session with
    | none => s
    | some x =>
      let c1 := if written then rollback x.epoch c else { c with frozen := true }
      let s0 := writeColl id (fun _ => { c1 with session := none, lastCommitted := false }) s
      let s1 := whenS written (acceptWrites (logWrites c x.epoch)) s0
      match x.committing with
      | some w => complete w.1 { tag := w.2.1, status := status, sqHead := w.2.2 } s1
      | none => s1

/-- Write the rollbacks that could not be written, once they can be (07 R254). -/
def thawCollections (s : State) : State :=
  if eitherRo s then s
  else foldS (s.obj.collections.filter fun c => c.2.frozen) (fun t c =>
    acceptWrites (logWrites c.2 c.2.highest) (writeColl c.1 (fun x => { rollback x.highest x with frozen := false }) t)) s

/-- INGEST_OPEN (07 R248, R254, R255). -/
def ingestOpenBody (h : HostCmd) (s : State) : Reply :=
  let id := cmdAux h
  if eitherRo s then denyRo s
  else match mget s.obj.collections id with
    | none => deny Status.collectionInvalid s
    | some c =>
      if !mayIngest s h.qp c then deny Status.notPermitted s
      else if c.session.isSome then deny Status.ingestBusy s
      else if c.frozen then denyRo s
      else if 0xFFFFFFFF ≤ c.highest + 1 then deny Status.collectionFull s
      else
        let e := c.highest + 1
        let ses : Session := { epoch := e, fn := (qpFn s h.qp).getD 0, account := qpAccount s h.qp, qp := h.qp }
        okWith (modColl id (fun x => { x with highest := e, session := some ses }) s) e

def execIngestOpen (h : HostCmd) (s : State) : Answer := .next (runCmd 0x06 h (fun _ t => ingestOpenBody h t) s)

/-- The fault of an ingest operation (07 R781): 24 for a wrong length, else its lowest offending byte. -/
def ingestFault (d : CollDesc) (len : Nat) (b : Bytes) : Option Nat :=
  let op := rd b 0 1
  let n := rd b 4 4
  let want := if op = 2 then 16 else 16 + d.vecLen + 4 * n
  if op = 0 ∨ 2 < op then some 0x80000000
  else if len ≠ want then some 24
  else (lowest ([offending 0 (b.take 16) (maskOf 16 [(0, 1, 3), (4, 4, all64), (8, 8, 2 ^ 40 - 1)]),
      offIf (if op = 2 then n != 0 else n == 0) 4, offIf (op == 1 && rd b 8 8 % 2 ^ 40 != 0) 8] ++
    (if op = 1 then
      [(vectorFault d.vecFmt d.dim (b.drop 16)).map (· + 16),
       (offending 0 (b.drop (16 + d.vecLen)) ((List.range n).flatMap fun _ => [0xFF, 0xFF, 0x0F, 0])).map (· + (16 + d.vecLen))]
     else []))).map (· + 0x80000000)

/-- Insert an item (07 R228, R229, R232, R241, R244, R250): its local ID and the collection after. -/
def insertItem (c : Collection) (e : Nat) (b : Bytes) : Collection :=
  let d := c.desc
  let raw := (b.drop 16).take d.vecLen
  let x := (d.values raw).map Fv.dy
  let stored := if d.metric = 1 then
      let n := normalise 1 x (vecExps d.vecFmt d.dim raw)
      let v := convVector d.vecFmt false (n.1.map Fv.ofDy)
      v.1 ++ v.2.1
    else raw
  let y := (d.values stored).map Fv.dy
  let cent := nearestCentroid c y
  let n := c.nextId
  let item : Item :=
    { insertEpoch := e, code := pqCode c y, vec := vectorRecord stored, centroid := cent, textAt := c.textUsed
      blob := blobOf ((List.range (rd b 4 4)).map fun i => rd b (16 + d.vecLen + 4 * i) 4) }
  let c1 := { c with
    items := mset c.items n item, nextId := n + 1, textUsed := c.textUsed + item.blob.length / 16
    members := mset c.members cent (insertNum n (mgetD c.members cent [])) }
  stampPages e c (linkNode c1 n (sketchOf c y (vecExps d.vecFmt d.dim stored)).1 cent)

/-- Note an insert or a deletion in the session. -/
def noteSession (f : Session → Session) (c : Collection) : Collection := { c with session := c.session.map f }

/-- Delete an item of the session's view, or count it not found (07 R250). -/
def deleteItem (c : Collection) (e n : Nat) : Collection :=
  match mget c.items n with
  | some i =>
    if i.visible c.epoch || i.insertEpoch == e then
      noteSession (fun x => { x with deleted := insertNum n x.deleted })
        { c with items := mset c.items n { i with deleteEpoch := e } }
    else noteSession (fun x => { x with notFound := x.notFound + 1 }) c
  | none => noteSession (fun x => { x with notFound := x.notFound + 1 }) c

/-- INGEST_OP (07 R249, R250, R226, R243, R781). -/
def ingestOpBody (h : HostCmd) (f : Fetched) (s : State) : Reply :=
  let id := cmdAux h
  let b := cmdBody h (cmdLen0 h)
  if eitherRo s then denyRo s
  else match mget s.obj.collections id with
    | none => deny Status.collectionInvalid s
    | some c =>
      match sessionFor s h.qp c with
      | .error st => deny st s
      | .ok x =>
        if f.late then deny Status.sessionClosed s
        else match ingestFault c.desc (cmdLen0 h) b with
          | some d => deny Status.descMalformed s d
          | none =>
            if rd b 0 1 = 2 then okWith (writeColl id (fun y => deleteItem y x.epoch (rd b 8 8)) s)
            else if c.desc.textMax < rd b 4 4 then deny Status.collectionInvalid s
            else if c.desc.idBase + c.desc.idSpan ≤ c.nextId then deny Status.collectionFull s
            else okWith (writeColl id (fun y => noteSession (fun z => { z with inserted := insertNum c.nextId z.inserted })
              (insertItem y x.epoch b)) s) c.nextId

def execIngestOp (h : HostCmd) (s : State) : Answer := .next (runCmd 0x07 h (fun f t => ingestOpBody h f t) s)

/-- INGEST_COMMIT (07 R249, R251): the commit record is written; it completes when the record is durable. -/
def ingestCommitBody (h : HostCmd) (f : Fetched) (s : State) : Reply :=
  let id := cmdAux h
  if eitherRo s then denyRo s
  else match mget s.obj.collections id with
    | none => deny Status.collectionInvalid s
    | some c =>
      match sessionFor s h.qp c with
      | .error st => deny st s
      | .ok x =>
        if x.committing.isSome then deny Status.sessionClosed s
        else { state := modColl id (noteSession fun y => { y with committing := some (h.qp, cmdTag h, f.sqHead) }) s }

def execIngestCommit (h : HostCmd) (s : State) : Answer := .next (runCmd 0x08 h (fun f t => ingestCommitBody h f t) s)

/-- The collection at a commit point (07 R245, R251). -/
def publish (e : Nat) (c : Collection) : Collection :=
  { c with epoch := e, session := none, lastCommitted := true, entryTables := mset c.entryTables e (entryTable c e) }

/-- COMMIT_DURABLE (07 R251, R253): C becomes E, and the commit completes.  Hubs that have stopped, or a read-only partition,
accept no record (13 R500, R505). -/
def execCommitDurable (coll : Nat) (s : State) : Answer :=
  .next (match (mget s.obj.collections coll).bind fun c => c.session.map fun x => (c, x) with
    | none => s
    | some (c, x) =>
      match x.committing with
      | none => s
      | some w =>
        if eitherRo s || s.flash.stopped then s
        else complete w.1 { tag := w.2.1, status := Status.ok, sqHead := w.2.2 }
          (acceptWrites (logWrites c x.epoch) (modColl coll (publish x.epoch) s)))

/-- INGEST_ABORT (07 R249, R252, R253): a commit that is not durable completes CANCELLED (assumption 21). -/
def ingestAbortBody (h : HostCmd) (s : State) : Reply :=
  let id := cmdAux h
  match mget s.obj.collections id with
  | none => deny Status.collectionInvalid s
  | some c =>
    match sessionFor s h.qp c with
    | .error st => if st = Status.sessionClosed ∧ c.lastCommitted then deny Status.alreadyComplete s else deny st s
    | .ok _ => okWith (abortSession id Status.cancelled true s)

def execIngestAbort (h : HostCmd) (s : State) : Answer := .next (runCmd 0x09 h (fun _ t => ingestAbortBody h t) s)

/-! ### Filters (07 R256 to R261) -/

/-- Strictly rising. -/
def rising : List Nat → Bool
  | a :: b :: l => decide (a < b) && rising (b :: l)
  | _ => true

/-- Runs increase, each at least two past the end of the one before (07 R259). -/
def runsRise : Option Nat → List (Nat × Nat) → Bool
  | _, [] => true
  | last, r :: rs => (match last with | some e => decide (e + 2 ≤ r.1) | none => true) && decide (r.1 + r.2 ≤ 65535) && runsRise (some (r.1 + r.2)) rs

/-- One container: its chunk, contents, the range of its body, its count; none when it breaks R258 or R259. -/
def parseContainer (o : Bytes) (at_ : Nat) : Option (Nat × Container × (Nat × Nat) × Nat) :=
  let ty := rd o (at_ + 4) 1
  let count := rd o (at_ + 6) 4
  let body := 16 * rd o (at_ + 10) 4
  if rd o (at_ + 5) 1 ≠ 0 ∨ rd o (at_ + 14) 2 ≠ 0 ∨ count = 0 ∨ 65536 < count then none
  else
    let chunk := rd o at_ 4
    match ty with
    | 1 =>
      let l := words16 o body count
      if count ≤ 4096 ∧ rising l ∧ body + 2 * count ≤ o.length then some (chunk, .array l, (body, 2 * count), count) else none
    | 2 =>
      let b := (o.drop body).take 8192
      if body + 8192 ≤ o.length ∧ (b.map fun x => popcount 8 x.toNat).sum = count then
        some (chunk, .bitmap b, (body, 8192), count) else none
    | 3 =>
      let n := rd o body 2
      let l := (List.range n).map fun i => (rd o (body + 4 + 4 * i) 2, rd o (body + 6 + 4 * i) 2)
      if body + 4 + 4 * n ≤ o.length ∧ rd o (body + 2) 2 = 0 ∧ n ≤ 2048 ∧ runsRise none l ∧ (l.map fun r => r.2 + 1).sum = count then
        some (chunk, .run l, (body, 4 + 4 * n), count) else none
    | 4 => if body = 0 ∧ count = 65536 then some (chunk, .full, (0, 0), count) else none
    | _ => none

/-- The largest offset of a container. -/
def Container.last (k : Container) : Nat :=
  match k with
  | .array l => (l.getLast?).getD 0
  | .bitmap _ => (((List.range 65536).reverse.find? fun o => k.has o)).getD 0
  | .run l => ((l.getLast?).map fun r => r.1 + r.2).getD 0
  | .full => 65535

/-- Read a filter object over a collection, none when it breaks R257 to R260. -/
def parseFilter (o : Bytes) (c : Collection) (uid : Nat) : Option Filter :=
  let n := rd o 12 4
  let w := rd o 6 2
  if o.length < 64 ∨ rd o 0 4 ≠ 0x544C4946 ∨ (offending 0 (o.take 64) (maskOf 64 [(0, 4, all64), (4, 2, 0xFFF), (6, 2, 0x8FFF),
      (8, 4, all64), (12, 4, all64), (16, 8, all64)])).isSome ∨ o.length < 64 + 16 * n then none
  else (allSome ((List.range n).map fun i => parseContainer o (64 + 16 * i))).bind fun l =>
    let bodies := (l.map fun e => e.2.2.1).filter fun r => r.2 ≠ 0
    let sum := (l.map fun e => e.2.2.2).sum
    if rising (l.map Prod.fst) ∧ (rangesOverlap ((0, 64 + 16 * n) :: bodies)) = false ∧ rd o 16 8 = sum ∧
        (l.all fun e => decide (65536 * e.1 + e.2.1.last < c.desc.idSpan)) then
      some { uid := uid, id := rd o 4 2 % 4096, owner := w % 4096, shared := w.testBit 15, coll := rd o 8 4, idBase := c.desc.idBase
             chunks := l.map fun e => (e.1, e.2.1), cardinality := sum, size := o.length }
    else none

/-- Whether a queue pair holds a filter (07 R256). -/
def holdsFilter (s : State) (q : Nat) (f : Filter) : Bool :=
  if f.shared then q == 0x4000 else !isAdmin q && qpAccount s q == some f.owner

/-- Whether a registration is permitted (07 R256, R260). -/
def mayRegister (s : State) (q : Nat) (o : Bytes) : Bool :=
  let w := rd o 6 2
  (if q = 0x4000 then w.testBit 15
   else !w.testBit 15 && qpAccount s q == some (w % 4096) &&
     (match mget s.obj.collections (rd o 8 4) with | some c => c.desc.shared || c.desc.owner == w % 4096 | none => true)) &&
  (match mget s.obj.filters (rd o 4 2 % 4096) with | some f => holdsFilter s q f | none => true)

/-- Take the filter of an ID out of the registered ones; requests that pinned it keep it (07 R261). -/
def dropFilter (id : Nat) (s : State) : State :=
  match mget s.obj.filters id with
  | none => s
  | some f => modObj (fun o => { o with
      filters := merase o.filters id
      oldFilters := if filterUsed s f.uid then f :: o.oldFilters else o.oldFilters }) s

/-- Bytes all filters hold (07 R260). -/
def filterUse (s : State) : Nat := (s.obj.filters.map fun f => f.2.size).sum + (s.obj.oldFilters.map fun f => f.size).sum

/-- FILTER_REGISTER (07 R256, R260, R261). -/
def filterRegisterBody (h : HostCmd) (s : State) : Reply :=
  let o := cmdBody h (cmdLen0 h)
  let q := h.qp
  if !mayRegister s q o then deny Status.notPermitted s
  else match (mget s.obj.collections (rd o 8 4)).bind fun c => parseFilter o c s.obj.nextFilter with
    | none => deny Status.filterInvalid s
    | some f =>
      let t := dropFilter f.id s
      if 64 * 2 ^ 30 < filterUse t + f.size then deny Status.filterInvalid s
      else okWith (fitLeases (modObj (fun x => { x with filters := mset x.filters f.id f, nextFilter := x.nextFilter + 1 }) t))

def execFilterRegister (h : HostCmd) (s : State) : Answer := .next (runCmd 0x0A h (fun _ t => filterRegisterBody h t) s)

/-- FILTER_UNREGISTER (07 R256, R261). -/
def execFilterUnregister (h : HostCmd) (s : State) : Answer :=
  .next (runCmd 0x0B h (fun _ t =>
    let id := cmdAux h % 4096
    match mget t.obj.filters id with
    | none => deny Status.filterInvalid t
    | some f => if holdsFilter t h.qp f then okWith (dropFilter id t) else deny Status.notPermitted t) s)

end Sys2Proof.Machine
end

