-- ==== Sys2Proof/Machine/Accounts.lean ====
section
/-! DEFINITION. Accounts, bindings of queue pairs, the accounting log, and the disable of functions (14 R515 to R523, R541,
R542; 12 R448; 15 R560; 18 R678). -/

namespace Sys2Proof.Machine

/-! ### Accounts (14 R515 to R521) -/

/-- Usable bits of an account record (14 R516). -/
def acctMask : List Nat :=
  maskOf 32 [(0, 2, 0xFFF), (2, 1, 3), (3, 1, 0xF), (4, 2, all64), (6, 2, all64), (8, 4, all64)]

/-- Read an account record: its number and contents, none when a field breaks R516. -/
def parseAccount (b : Bytes) : Option (Nat × AcctRec) :=
  let r : AcctRec := { maxPrio := rd b 2 1, dieMask := rd b 3 1, weight := rd b 4 2, entriesMax := rd b 6 2, sliceUs := rd b 8 4 }
  if (offending 0 b acctMask).isNone && r.dieMask != 0 && r.weight != 0 && inRange 1 4096 r.entriesMax &&
      (r.sliceUs == 0 || inRange 100 100000 r.sliceUs) then some (rd b 0 2, r)
  else none

/-- Replace an account's keys: its key generation rises (12 R448). -/
def replaceKeys (a : Nat) (s : State) : State :=
  freshKeys a (modSched (fun d => { d with keygen := mmod d.keygen a 0 fun g => (g + 1) % 16 }) s)

/-- ACCOUNT_CREATE (14 R517; 18 R688). -/
def execAccountCreate (h : HostCmd) (s : State) : Answer :=
  .next (runCmd 0x2D h (fun _ t =>
    match parseAccount (cmdBody h 32) with
    | none => deny Status.accountInvalid t
    | some (a, r) =>
      if t.sec.unlocked then deny Status.notPermitted t
      else if acctExists t a then deny Status.accountInvalid t
      else if t.sched.scrubbing.contains a then deny Status.accountBusy t
      else okWith (freshKeys a (modSched (fun d => { d with accounts := mset d.accounts a { record := r } }) t))) s)

/-- ACCOUNT_UPDATE (14 R518). -/
def execAccountUpdate (h : HostCmd) (s : State) : Answer :=
  .next (runCmd 0x2E h (fun _ t =>
    match parseAccount (cmdBody h 32) with
    | none => deny Status.accountInvalid t
    | some (a, r) =>
      if acctExists t a then okWith (modAccount a (fun x => { x with record := r }) t) else deny Status.accountInvalid t) s)

/-- Whether an account still owns a loaded object or a live baton, or has a queue pair (14 R521). -/
def acctHolds (s : State) (a : Nat) : Bool :=
  (s.hif.qps.any fun q => q.2.bound.map Prod.snd == some a) ||
  ((loadedProfiles s).any fun p => !p.shared && p.owner == a) ||
  (s.obj.images.any fun i => !i.2.unloaded && !i.2.shared && i.2.owner == a) ||
  (s.obj.collections.any fun c => !c.2.deleted && !c.2.desc.shared && c.2.desc.owner == a) ||
  (s.obj.tables.any fun t => !t.2.deleted && !t.2.shared && t.2.owner == a) ||
  (s.obj.filters.any fun f => !f.2.shared && f.2.owner == a) ||
  (s.gen.batons.any fun b => b.2.live && b.2.account == a)

/-- The closing record of an account (14 R542). -/
def deletedRecord (a endTime : Nat) (c : Counters) : Bytes :=
  leBytes 1 0x52 ++ zeros 1 ++ leBytes 2 a ++ zeros 12 ++ leBytes 8 endTime ++ leBytes 2 Status.ok ++ zeros 6 ++ c.bytes ++ zeros 32

/-- ACCOUNT_DELETE (14 R521). -/
def execAccountDelete (h : HostCmd) (s : State) : Answer :=
  .next (runCmd 0x2F h (fun _ t =>
    let a := cmdAux h % 4096
    match mget t.sched.accounts a with
    | none => deny Status.accountInvalid t
    | some x =>
      if acctHolds t a then deny Status.notPermitted t
      else
        let t1 := acctLog (deletedRecord a (now t) x.ctr) (replaceKeys a t)
        okWith (modSched (fun d => { d with accounts := merase d.accounts a, scrubbing := insertNum a d.scrubbing }) t1)) s)

/-- ACCOUNT_SCRUB_END (14 R521 step 3): every kind-0 line of the owner holds zero data and kind 0xF. -/
def execAccountScrubEnd (account : Nat) (s : State) : Answer :=
  .next (if s.sched.scrubbing.contains account then
      modMem (fun m => { m with lines := m.lines.filter fun l => !(l.2.kind == 0 && l.2.owner == account) })
        (modSched (fun d => { d with scrubbing := d.scrubbing.erase account }) s)
    else s)

/-! ### Queue pairs (14 R522, R523) -/

/-- QP_BIND (14 R523). -/
def execQpBind (h : HostCmd) (s : State) : Answer :=
  .next (runCmd 0x30 h (fun _ t =>
    let q := cmdAux h % 16384
    let f := cmdParam h % 1024
    let a := bitsOf (cmdParam h) 27 16
    if (qpOf t q).bound.isSome || !acctExists t a || decide (513 < f) || !fnLive t f then deny Status.accountInvalid t
    else okWith (modQp q (fun x => { x with bound := some (f, a) }) t)) s)

/-- QP_UNBIND (14 R523). -/
def execQpUnbind (h : HostCmd) (s : State) : Answer :=
  .next (runCmd 0x31 h (fun _ t =>
    let q := cmdAux h % 16384
    if (qpOf t q).bound.isNone then deny Status.accountInvalid t
    else if t.gen.entries.any fun e => e.2.qp == q then deny Status.notPermitted t
    else okWith (modQp q (fun x => { x with bound := none }) t)) s)

/-- ACCT_LOG_READ (14 R542, 15 R575, R583): the oldest records move to the host buffer. -/
def execAcctLogRead (h : HostCmd) (s : State) : Answer :=
  .next (runCmd 0x33 h (fun _ t =>
    if cmdLen0 h % 128 ≠ 0 then deny Status.descMalformed t 24
    else
      let n := min (cmdLen0 h / 128) t.sched.log.length
      okWith (dmaWrite (cmdAddr0 h) (t.sched.log.take n).flatten (modSched (fun d => { d with log := d.log.drop n }) t)) n) s)

/-! ### Disabling a function (14 R541, 15 R560) -/

/-- The queue pairs of a function. -/
def qpsOf (s : State) (f : Nat) : List Nat := (s.hif.qps.map Prod.fst).filter fun q => qpFn s q == some f

/-- End or mark one entry of a disabled function (14 R541 step 2). -/
def disableEntry (e : Nat) (s : State) : State :=
  match entryOf s e with
  | none => s
  | some x =>
    let s1 := modWork e (fun w => { w with disabled := true }) s
    match x.state with
    | .drain => s
    | .reserve => endEntry e Status.functionReset 0 12 0 s1
    | .wait => endEntry e Status.functionReset 0 12 x.genLen s1
    | .step => s1
    | .pre =>
      if x.mode = 4 then
        if s.sched.units.any fun u => u.2.kind == .run e && u.2.slots.isEmpty then endEntry e Status.functionReset 0 0 0 s1 else s1
      else if idlePre x then endEntry e Status.functionReset 0 (if x.work.search.heldHere then 4 else x.work.stage) 0 s1
      else if x.work.stage = 5 ∨ x.work.stage = 6 then killEntry e s1
      else s1

/-- The disable of a function is accepted (14 R541 steps 1 to 5): its commands not yet run are dropped, its work ends, its
sessions abort, its batons are released.  One in progress already goes on. -/
def acceptDisable (f : Nat) (s : State) : State :=
  if (fnOf s f).disabling.isSome then s
  else
    let qs := qpsOf s f
    let s1 := modFn f (fun x => { x with disabling := some (now s) }) s
    let s2 := foldS qs (fun t q => modQp q (fun x => { x with fetched := [], reserved := x.reserved - x.fetched.length }) t) s1
    let s3 := modObj (fun o => { o with profiles := mmap o.profiles fun _ p =>
      { p with held := p.held.filter fun l => !qs.contains l.qp } }) s2
    let s4 := foldS ((s.gen.entries.filter fun e => e.2.fn == f).map Prod.fst) (fun t e => disableEntry e t) s3
    let s5 := foldS ((s.obj.collections.filter fun c => (c.2.session.map (·.fn)) == some f).map Prod.fst)
      (fun t c => abortSession c Status.functionReset (!eitherRo t) t) s4
    releaseUnused (releaseBatons (fun b => b.fn == f) s5)

/-- Disable every virtual function (14 R541). -/
def disableVfs (stay : Bool) (s : State) : State :=
  foldS (List.range 512) (fun t i => acceptDisable (i + 2) (whenS stay (modFn (i + 2) fun x => { x with enabled := false }) t)) s

/-- FN_DISABLE (14 R541). -/
def execFnDisable (h : HostCmd) (s : State) : Answer :=
  .next (runCmd 0x32 h (fun _ t => okWith (acceptDisable (2 + cmdAux h % 512) t)) s)

/-- FUNCTION_LEVEL_RESET (14 R541): of the service physical function, every virtual function with it. -/
def execFunctionLevelReset (fn : Nat) (s : State) : Answer :=
  .next (if fn ≤ 513 then whenS (fn == 0) (disableVfs false) (acceptDisable fn s) else s)

/-- BUS_MASTER_CLEAR (14 R541): the function stays disabled. -/
def execBusMasterClear (fn : Nat) (s : State) : Answer :=
  .next (if fn ≤ 513 then acceptDisable fn (modFn fn (fun x => { x with enabled := false }) s) else s)

/-- VF_ENABLE_CLEAR (14 R541). -/
def execVfEnableClear (s : State) : Answer := .next (disableVfs true s)

/-- D3HOT_ENTRY (15 R553). -/
def execD3hotEntry (fn : Nat) (s : State) : Answer :=
  .next (if fn ≤ 513 then acceptDisable fn (modFn fn (fun x => { x with enabled := false, d3hot := true }) s) else s)

/-- FUNCTION_DISABLE_COMPLETE (14 R541 step 6, 15 R560, 20 R735): no entry of the function is left; its queue pairs read
enable 0 and idle 1, and it holds no latched or held register half. -/
def execFunctionDisableComplete (fn : Nat) (s : State) : Answer :=
  .next (if (fnOf s fn).disabling.isSome && !(s.gen.entries.any fun e => e.2.fn == fn) then
      let s1 := foldS (qpsOf s fn) (fun t q => modQp q (fun x => { x with enable := false, reserved := 0 }) t) s
      let s2 := modRegs (fun r => { r with latched := r.latched.filter fun l => l.1 != fn, held := r.held.filter fun l => l.1 != fn }) s1
      let s3 := modHif (fun h => if fn = 0 then { h with waits0 := [] } else if fn = 1 then { h with waits1 := [] } else h) s2
      modFn fn (fun x => { x with disabling := none }) s3
    else s)

end Sys2Proof.Machine
end

