-- ==== Sys2Proof/Machine/Pass.lean ====
section
/-! DEFINITION. Matrix passes: the pass descriptor, what a pass computes in each format, and the conversion of a group
(04 R94 to R133; 03 R63 to R80). -/

namespace Sys2Proof.Machine

/-! ### Descriptors (04 R126, R127) -/

/-- One problem of a pass (04 R127). -/
structure Prob where
  row : Nat
  rows : Nat
  col : Nat
  cols : Nat
  ref : Nat
  nVec : Nat
  colMajor : Bool
  w : Nat
  wScale : Nat
  a : Nat
  aScale : Nat
  o : Nat
  oScale : Nat
deriving DecidableEq, Repr

/-- A pass (04 R126). -/
structure Pass where
  fmtA : Nat
  fmtB : Nat
  fmtOut : Nat
  axis : Bool
  sat : Bool
  first : Bool
  last : Bool
  keep : Bool
  index : Nat
  len : Nat
  flagAddr : Nat
  probs : List Prob
deriving DecidableEq, Repr

/-- Read a problem record. -/
def probOf (b : Bytes) : Prob :=
  let t := rd b 0 1
  { row := bitsOf t 1 0, rows := bitsOf t 3 2 + 1, col := bitsOf t 5 4, cols := bitsOf t 7 6 + 1, ref := rd b 2 2 % 4096
    nVec := rd b 4 2 % 256, colMajor := (rd b 6 1).testBit 0, w := rd b 8 4, wScale := rd b 12 4, a := rd b 16 4
    aScale := rd b 20 4, o := rd b 24 4, oScale := rd b 28 4 }

/-- Read a descriptor. -/
def passOf (b : Bytes) : Pass :=
  let m := rd b 2 1
  let g := rd b 4 2
  { fmtA := rd b 1 1 % 16, fmtB := rd b 1 1 / 16, fmtOut := m % 16, axis := m.testBit 4, sat := m.testBit 5
    first := g.testBit 0, last := g.testBit 1, keep := g.testBit 2, index := rd b 8 4, len := rd b 12 4
    flagAddr := rd b 16 4
    probs := (List.range (rd b 3 1 % 32)).map fun i => probOf ((b.drop (32 + 32 * i)).take 32) }

/-- Bytes of a descriptor, by its header. -/
def passDescLen (b : Bytes) : Nat := 32 + 32 * (rd b 3 1 % 32)

/-! ### Shapes and formats (04 R99, R109; 03 R65) -/

/-- Formats the arrays take (03 R54). -/
def arrayFmt (f : Nat) : Bool := decide (f ≤ 0xB)

/-- Operand pairings (03 R65). -/
def pairOk (a b : Nat) : Bool :=
  arrayFmt a && arrayFmt b && (a == b || (decide (3 ≤ a) && decide (a ≤ 9) && decide (3 ≤ b) && decide (b ≤ 9)))

/-- Reduction-index elements a cell holds (04 R99). -/
def cellDepth (a b : Nat) : Nat :=
  if a = 0xB then 32 else if 7 ≤ a ∧ a ≤ 9 ∧ 7 ≤ b ∧ b ≤ 9 then 2 else 1

/-- Vectors a pass takes (04 R99). -/
def passVecs (a : Nat) : Nat := if a ≤ 2 then 64 else 128

/-- Issue slots of a pass (04 R99). -/
def passSlots (a : Nat) : Nat := if a = 0 then 3 else 1

/-- Formats an output is converted to (03 R77, R78), or the container of a partial (03 R81). -/
def outFmt (f : Nat) : Bool := decide (f ≤ 2) || isMx f || f == 0xE

/-- Reduction depth and output width of a problem (04 R112). -/
def Pass.depth (p : Pass) (x : Prob) : Nat := if p.axis then 32 * x.cols else 32 * x.rows * cellDepth p.fmtA p.fmtB
def Pass.width (p : Pass) (x : Prob) : Nat := if p.axis then 32 * x.rows else 32 * x.cols

/-- Depth of a stored weight column (04 R110, R128). -/
def Pass.stored (p : Pass) (x : Prob) : Nat := 32 * x.rows * cellDepth p.fmtA p.fmtB

/-- Structure of a descriptor (04 R126, R127): codes, ranges and reserved bits.  Reason 3 of 05 R147. -/
def passForm (b : Bytes) : Bool :=
  let n := rd b 3 1 % 32
  let p := passOf b
  b.length == passDescLen b && decide (1 ≤ n) && decide (n ≤ 16) &&
  (offending 0 (b.take 32) (maskOf 32 [(0, 1, 0xFF), (1, 1, 0xFF), (2, 1, 0x3F), (3, 1, 0x1F), (4, 2, 7), (8, 4, 0xFFFFF),
    (12, 4, 0x1FFFFF), (16, 4, 0x7FFFFF)])).isNone &&
  rd b 0 1 == 0x21 && decide (1 ≤ p.len) && decide (p.len ≤ 1048576) && decide (p.index < p.len) && p.flagAddr % 4 == 0 &&
  (List.range n).all fun i =>
    let r := (b.drop (32 + 32 * i)).take 32
    let x := probOf r
    let ws := if isMx p.fmtB then 0x7FFFFF else if p.fmtB = 0xA then 0xFF else 0
    let as := if isMx p.fmtA then 0x7FFFFF else if p.fmtA = 0xA then 0xFF else 0
    let os := if isMx p.fmtOut then 0x7FFFFF else 0
    (offending 0 r (maskOf 32 [(0, 1, 0xFF), (2, 2, 0xFFF), (4, 2, 0xFF), (6, 1, 1), (8, 4, 0x7FFFFF), (12, 4, ws),
      (16, 4, 0x7FFFFF), (20, 4, as), (24, 4, 0x7FFFFF), (28, 4, os)])).isNone &&
    decide (x.row + x.rows ≤ 4) && decide (x.col + x.cols ≤ 4) && decide (1 ≤ x.nVec) && decide (x.nVec ≤ passVecs p.fmtA) &&
    x.w % 64 == 0 && x.a % 64 == 0 && x.o % 64 == 0 &&
    (!isMx p.fmtB || x.wScale % 64 == 0) && (!isMx p.fmtA || x.aScale % 64 == 0) && (!isMx p.fmtOut || x.oScale % 64 == 0)

/-- Operand formats of a descriptor (03 R65, 04 R109; 03 R77 for the output).  Reason 4 of 05 R147. -/
def passFormats (p : Pass) : Bool :=
  pairOk p.fmtA p.fmtB && outFmt p.fmtOut && (!p.axis || cellDepth p.fmtA p.fmtB == 1) &&
  (p.probs.all fun x => !(isMx p.fmtOut && x.colMajor))

/-- Whether two rectangles of tiles share a tile (04 R111). -/
def tilesMeet (x y : Prob) : Bool :=
  decide (x.row < y.row + y.rows) && decide (y.row < x.row + x.rows) && decide (x.col < y.col + y.cols) &&
  decide (y.col < x.col + x.cols)

/-- Whether some two members of a list are related. -/
def anyPair {α : Type} (r : α → α → Bool) : List α → Bool
  | [] => false
  | x :: xs => xs.any (r x) || anyPair r xs

/-! ### Ranges in the allocation (04 R128, R133) -/

/-- Bytes of an output vector or column array. -/
def Pass.outBytes (p : Pass) (x : Prob) : Nat := packedLen p.fmtOut (p.width x) * x.nVec

/-- Ranges a problem reads. -/
def Pass.reads (p : Pass) (x : Prob) : List (Nat × Nat) :=
  weightRange p.fmtB (p.stored x) (32 * x.cols) x.w x.wScale ++
    (x.a, x.a + packedLen p.fmtA (p.depth x) * x.nVec) ::
      (if isMx p.fmtA then [(x.aScale, x.aScale + p.depth x / 32 * x.nVec)] else [])

/-- Ranges a problem writes. -/
def Pass.writes (p : Pass) (x : Prob) : List (Nat × Nat) :=
  (x.o, x.o + p.outBytes x) :: (if isMx p.fmtOut then [(x.oScale, x.oScale + p.width x / 32 * x.nVec)] else [])

/-- Output ranges and flag words of a group that overlap (04 R114). -/
def outputsMeet (p : Pass) : Bool :=
  anyPair (fun a b => a.any fun x => b.any (rangesMeet x))
    ([(p.flagAddr, p.flagAddr + 4)] :: p.probs.map p.writes)

/-- Every range of a pass. -/
def Pass.ranges (p : Pass) : List (Nat × Nat) :=
  (p.flagAddr, p.flagAddr + 4) :: p.probs.flatMap fun x => p.reads x ++ p.writes x

/-- Whether every range lies in an allocation (04 R133). -/
def inAlloc (sram : Nat) (p : Pass) : Bool := p.ranges.all fun r => decide (r.2 ≤ sram)

/-- A pass repeats its group's first: all but operand addresses, pass index and the marks of the first and last pass, which go
with it (04 R114); keep_weights is none of these, so it is the same in all (04 R126). -/
def sameGroup (p q : Pass) : Bool :=
  let bare (x : Pass) (y : Prob) : Prob :=
    { y with w := 0, a := 0, wScale := (if isMx x.fmtB then 0 else y.wScale), aScale := (if isMx x.fmtA then 0 else y.aScale) }
  let strip (x : Pass) : Pass := { x with first := false, last := false, index := 0, probs := x.probs.map (bare x) }
  strip p == strip q

/-! ### Products (03 R61 to R64, R71, R74) -/

/-- The six products of FP32 mode (03 R63, R64): a value's significand cut into its parts. -/
def splitParts (d : Dy) : Dy × Dy × Dy :=
  let s : Int := if d.m < 0 then -1 else 1
  let m := d.m.natAbs
  (⟨s * (m / 65536 * 65536 : Nat), d.e⟩, ⟨s * (m / 256 % 256 * 256 : Nat), d.e⟩, ⟨s * (m % 256 : Nat), d.e⟩)

/-- The products a pair of elements contributes in a format, none when an operand is not finite (03 R74). -/
def productsOf (fmt : Nat) (a b : Fv) : Option (List Dy) :=
  match a.dy?, b.dy? with
  | some x, some y =>
    if fmt = 0 then
      let p := splitParts x
      let q := splitParts y
      some [dyMul p.1 q.1, dyMul p.1 q.2.1, dyMul p.2.1 q.1, dyMul p.1 q.2.2, dyMul p.2.2 q.1, dyMul p.2.1 q.2.1]
    else some [dyMul x y]
  | _, _ => none

/-- The block exponents of a run of elements: scales for MX, 0 for FP8, the shift plus 7 for INT8, else the elements'
(03 R69). -/
def runExps (fmt : Nat) (shift : Int) (scales : List Nat) (vals : List Fv) : List (Option Int) :=
  if isMx fmt then scales.map fun (c : Nat) => if c = 0xFF then none else some (Int.ofNat c - 127)
  else
    let n := (vals.length + 31) / 32
    if fmt = 3 ∨ fmt = 4 then List.replicate n (some 0)
    else if fmt = 0xA then List.replicate n (some (shift + 7))
    else (blocks32 vals.length vals).map blockExpFp

/-- A run of elements as it lies: values and scale bytes. -/
def runVals (fmt : Nat) (shift : Int) (n : Nat) (data sc : Bytes) : List Fv × List Nat :=
  let scales := if isMx fmt then sc.map BitVec.toNat else []
  ((List.range n).map fun i => elemValue fmt shift ((scales[i / 32]?).getD 0x7F) (rawElem fmt data i), scales)

/-- A run of elements read from the allocation. -/
def readRun (m : List Host.Cell) (fmt : Nat) (shift : Int) (n at_ sc : Nat) : List Fv × List Nat :=
  runVals fmt shift n (memRead m at_ (packedLen fmt n)) (memRead m sc (n / 32))

/-- The INT8 shift in a scale word (04 R127). -/
def shiftOf (fmt sc : Nat) : Int := if fmt = 0xA then toSigned 8 (sc % 256) else 0

/-- The weights an output meets, with the stored block exponents it shares products with, one list per activation block. -/
def outWeights (p : Pass) (cols : List (List Fv × List (Option Int))) (n k : Nat) : List Fv × List (List (Option Int)) :=
  if p.axis then
    let row := cols.map fun c => (c.1[n]?).getD .nan
    let blocks : List (List (Option Int)) :=
      if isMx p.fmtB ∨ p.fmtB = 3 ∨ p.fmtB = 4 ∨ p.fmtB = 0xA then
        chunksOf 32 (k / 32 + 1) (cols.map fun c => (c.2[n / 32]?).getD none)
      else ((blocks32 row.length row).map blockExpFp).map fun e => [e]
    (row, blocks)
  else match cols[n]? with
    | some c => (c.1, c.2.map fun e => [e])
    | none => ([], [])

/-- A weight load: the stored elements and scales of a problem, column by column (04 R105, R128). -/
def loadWeights (m : List Host.Cell) (p : Pass) (x : Prob) : Bytes × Bytes :=
  let kw := p.stored x
  (memRead m x.w (packedLen p.fmtB kw * (32 * x.cols)), if isMx p.fmtB then memRead m x.wScale (kw / 32 * (32 * x.cols)) else [])

/-- The stored columns that the active weight registers of a problem hold, with their block exponents (04 R97, R128). -/
def activeCols (p : Pass) (x : Prob) (w : Bytes × Bytes) : List (List Fv × List (Option Int)) :=
  let kw := p.stored x
  let sb := shiftOf p.fmtB x.wScale
  let n := packedLen p.fmtB kw
  (List.range (32 * x.cols)).map fun j =>
    let r := runVals p.fmtB sb kw ((w.1.drop (j * n)).take n) ((w.2.drop (j * (kw / 32))).take (kw / 32))
    (r.1, runExps p.fmtB sb r.2 r.1)

/-- What one pass adds to the entries of one problem, from the activations in SRAM and the active weight registers (03 R69,
R71; 04 R95, R97, R108). -/
def passEntries (m : List Host.Cell) (p : Pass) (i : Nat) (x : Prob) (w : Bytes × Bytes) : List AccEntry :=
  let k := p.depth x
  let sa := shiftOf p.fmtA x.aScale
  let cols := activeCols p x w
  (List.range x.nVec).flatMap fun v =>
    let r := readRun m p.fmtA sa k (x.a + v * packedLen p.fmtA k) (x.aScale + v * (k / 32))
    let ea := runExps p.fmtA sa r.2 r.1
    (List.range (p.width x)).map fun n =>
      let w := outWeights p cols n k
      let prods := (r.1.zip w.1).map fun e => productsOf p.fmtA e.1 e.2
      { prob := i, vec := v, col := n
        products := prods.flatMap fun o => o.getD []
        scaleSums := (ea.zip w.2).flatMap fun e => e.2.filterMap fun y => match e.1, y with
          | some a, some b => some (a + b) | _, _ => none
        invalid := prods.any fun o => o.isNone }

/-- Add a pass's entries to a group's. -/
def mergeAcc (old new : List AccEntry) : List AccEntry :=
  if old.isEmpty then new
  else (old.zip new).map fun e => { e.1 with
    products := e.1.products ++ e.2.products, scaleSums := e.1.scaleSums ++ e.2.scaleSums, invalid := e.1.invalid || e.2.invalid }

/-! ### Conversion (03 R72, R77 to R81; 04 R107) -/

/-- The reference exponent of an entry (03 R68 to R70). -/
def entryRef (p : Pass) (x : Prob) (a : AccEntry) : Int :=
  if p.fmtA = 0xB then 0
  else if 2048 ≤ x.ref then refOf a.scaleSums
  else toSigned 11 (x.ref % 2048)

/-- An entry's value and flags: the saturated sum, or not a number (03 R72, R74). -/
def entryValue (p : Pass) (x : Prob) (a : AccEntry) : Fv × BitVec 4 :=
  let r := entryRef p x a
  if a.invalid then (.nan, (accumRaw r a.products).2 ||| flagWord false false true false)
  else
    let z := accumulate r a.products
    (Fv.ofDy (accDy r z.1), z.2)

/-- The bytes of an entry as a partial; the value of an invalid one is free (03 R74, R81). -/
def entryLacc (fi : Nat) (p : Pass) (x : Prob) (a : AccEntry) : Bytes :=
  let r := entryRef p x a
  let z := if a.invalid then freeAcc fi else (accumulate r a.products).1
  laccBytes r z (entryValue p x a).2

/-- Write a problem's outputs into the allocation: memory and the flags of its elements. -/
def convertProb (fi : Nat) (p : Pass) (acc : List AccEntry) (m : List Host.Cell) (i : Nat) (x : Prob) :
    List Host.Cell × BitVec 4 :=
  let mine := acc.filter fun a => a.prob == i
  let vals := mine.map (entryValue p x)
  let w := p.width x
  let fl := orFlags (vals.map Prod.snd)
  if p.fmtOut = 0xE then
    ((withPos mine).foldl (fun t e =>
      let at_ := if x.colMajor then e.2.col * x.nVec + e.2.vec else e.2.vec * w + e.2.col
      memWrite t (x.o + 16 * at_) (entryLacc (fi + e.1) p x e.2)) m, fl)
  else if isMx p.fmtOut then
    (List.range x.nVec).foldl (fun t v =>
      let c := convVector p.fmtOut p.sat (((vals.drop (v * w)).take w).map Prod.fst)
      (memWrite (memWrite t.1 (x.o + v * packedLen p.fmtOut w) c.1) (x.oScale + v * (w / 32)) c.2.1, t.2 ||| c.2.2)) (m, fl)
  else
    let n := elemBits p.fmtOut / 8
    (mine.zip vals).foldl (fun t e =>
      let at_ := if x.colMajor then e.1.col * x.nVec + e.1.vec else e.1.vec * w + e.1.col
      let c := convScalar p.fmtOut p.sat e.2.1
      (memWrite t.1 (x.o + n * at_) (leBytes n c.1), t.2 ||| c.2)) (m, fl)

/-- Convert every problem of a group. -/
def convertGroup (fi : Nat) (p : Pass) (acc : List AccEntry) (m : List Host.Cell) : List Host.Cell × BitVec 4 :=
  (withPos p.probs).foldl (fun t e =>
    let c := convertProb fi p acc t.1 e.1 e.2
    (c.1, t.2 ||| c.2)) (m, 0)

/-! ### Issue (04 R103, R104, R129, R132, R133) -/

/-- Identity of a pass's weights (04 R129). -/
def weightId (unit share : Nat) (b : Bytes) (p : Pass) : WeightId :=
  { unit := unit, share := share, fmtB := p.fmtB
    probs := (withPos p.probs).map fun e => (e.2.w, e.2.wScale, rd b (32 + 32 * e.1) 1) }

/-- Gather numeric flags into the requests or the run that a unit serves: an operation of a step runs for every member of
it (03 R75, 05 R160). -/
def gatherUnit (u : SUnit) (f : BitVec 4) (s : State) : State := foldS u.members (fun t m => gatherFlags m.1 f t) s

/-! ### Spare rows and columns (04 R116 to R119) -/

/-- The physical rows or columns that a mapping around failed ones bypasses: with the fewest active spares whose chain holds
128 sound ones; none when two spares do not suffice (04 R116, R119). -/
def bypassFor (failed : List Nat) : Option (List Nat) :=
  let l := failed.foldl (fun a n => insertNum n a) []
  (((List.range 3).map fun a => l.filter fun x => decide (x ≤ 127 + a)).zip (List.range 3)).findSome? fun e =>
    if e.1.length = e.2 then some e.1 else none

/-- The failed spares among failed rows or columns. -/
def failedSpares (failed : List Nat) : List Nat := [128, 129].filter failed.contains

/-- Spare rows or columns still unused and healthy (04 R136): beyond the end of the chain, and not failed. -/
def spareLines (byp bad : List Nat) : Nat :=
  ([128, 129].filter fun x => decide (127 + byp.length < x) && !bad.contains x).length

/-- The physical row or column of a logical one: bypassed ones are skipped (04 R116). -/
def physLine (byp : List Nat) (i : Nat) : Nat := (((List.range 130).filter fun x => !byp.contains x)[i]?).getD 0

/-- Whether a physical row or column carries a logical one. -/
def lineInUse (byp : List Nat) (x : Nat) : Bool := (List.range 128).any fun i => physLine byp i == x

/-- A residue mismatch (04 R132): flags, location, teardown, drain, record. -/
def residueError (g slot col : Nat) (s : State) : State :=
  let s1 := modCluster g (fun c => { c with
    fault := c.fault ||| 1, faultLoc := BitVec.ofNat 32 (0xFF + 256 * (col % 256)), drain := true }) s
  irqEval false (64 + g) (tearDown g slot 1 (evCount (64 + g) 9 1 s1))

/-- A range outside the allocation (04 R133): the pass does not issue. -/
def rangeError (g slot : Nat) (s : State) : State :=
  irqEval false (64 + g) (tearDown g slot 2 (modCluster g (fun c => { c with fault := c.fault ||| 2 }) s))

/-- The counters of passes issued on a cluster, of so many issue slots each (04 R104, R129, R134; 14 R543). -/
def countPasses (g : Nat) (u : SUnit) (n slots stalls : Nat) (reload : Bool) (s : State) : State :=
  let s1 := modCluster g (fun c => { c with
    passCount := c.passCount + n, stalls := c.stalls + stalls, reloads := c.reloads + b2n reload }) s
  chargeUnit u (128 * slots * n) (fun q => { arrayCycles := q })
    (evCount (64 + g) 3 (b2n reload) (evCount (64 + g) 2 stalls (evCount (64 + g) 1 n s1)))

/-- Whether a pass reuses the resident weights (04 R129): keep_weights is set, the identity matches, and the active registers
hold as many weights as the pass multiplies (the identity leaves out fmt_a, which the depth of 4- and 6-bit weights goes by;
where only that differs the weights load, so that the results are the same bits: DEDUCED, assumption 36). -/
def weightsHit (k : Cluster) (id : WeightId) (p : Pass) : Bool :=
  p.keep && k.weights == some id && (p.probs.map fun x => packedLen p.fmtB (p.stored x) * (32 * x.cols)) == k.active.map fun w => w.1.length

/-- Load the weights of a pass into the shadow registers, unless it reuses the resident ones; at the pass they become active
(04 R97, R105, R129). -/
def takeWeights (m : List Host.Cell) (slot : Nat) (id : WeightId) (p : Pass) (k : Cluster) : Cluster :=
  if weightsHit k id p then { k with lastSlot := slot }
  else
    let w := p.probs.map (loadWeights m p)
    { k with shadow := w, active := w, weights := some id, lastSlot := slot }

/-- Issue a pass whose descriptor is well formed, in its place of its group (04 R103, R107). -/
def issueNow (g slot : Nat) (c : Ctx) (u : SUnit) (b : Bytes) (p : Pass) (acc : List AccEntry) (first : Bytes) (env : PassEnv)
    (s : State) : State :=
  let share := u.slots.idxOf (g, slot)
  let id := weightId c.unit share b p
  let mem0 := c.view (p.probs.flatMap p.reads)
  let s1 := modCluster g (takeWeights mem0 slot id p)
    (countPasses g u 1 (passSlots p.fmtA) env.stalls (p.keep && !weightsHit (clusterOf s g) id p) s)
  let k1 := clusterOf s1 g
  match env.residueColumn.filter (lineInUse k1.cols) with
  | some col => residueError g slot col s1
  | none =>
    let acc' := mergeAcc (if p.first then [] else acc)
      ((withPos (p.probs.zip k1.active)).flatMap fun e => passEntries mem0 p e.1 e.2.1 e.2.2)
    if p.last then
      let fi := s1.free
      let cv := convertGroup fi p acc' c.sram
      let mem := memWrite cv.1 p.flagAddr (leBytes 4 cv.2.toNat)
      let out := (p.flagAddr, p.flagAddr + 4) :: p.probs.flatMap p.writes
      let next (x : Ctx) : Ctx := { x with
        sram := mem, stale := out.foldl (fun l r => cutStale r l) x.stale, flags := x.flags ||| cv.2 }
      let s2 := modCluster g (fun k => touchWeights c.unit share out
        { k with group := none, slots := mupd k.slots slot next }) s1
      gatherUnit u cv.2 { s2 with free := fi + acc'.length }
    else modCluster g (fun k => { k with
      group := some { slot := slot, desc := first, next := p.index + 1, len := p.len, acc := acc' } }) s1

/-- Every fetch that the operation needs has arrived or missed (12 R458, R460). -/
def fetchesSettled (i : Image) (c : Ctx) : Bool :=
  i.relay.all fun r => r.needOp != c.pc || c.fetches.any fun f => f.seq == r.seq && f.state != .outstanding

/-- The members of a unit with their entries. -/
def unitEntries (s : State) (u : SUnit) : List (Nat × RtEntry × Nat) :=
  u.members.filterMap fun m => (entryOf s m.1).map fun x => (m.1, x, m.2.2)

/-- The remote pins of every member have been answered (11 R400). -/
def pinsSettled (s : State) (u : SUnit) : Bool := (unitEntries s u).all fun e => e.2.1.work.pinsLeft == 0

/-- Whether the context in a slot has a pass group ready (05 R178): it stands at a MATMUL_GROUP that it may start. -/
def groupReady (s : State) (g slot : Nat) : Bool :=
  match mget (clusterOf s g).slots slot with
  | some c =>
    match mget s.sched.units c.unit, mget s.obj.images c.image with
    | some u, some i => ((i.ops[c.pc]?).map (·.opcode)) == some 1 && !c.waiting && c.asks == 0 && fetchesSettled i c && pinsSettled s u
    | _, _ => false
  | none => false

/-- The slots of a cluster in the order in which the array serves them, after the slot of the group that last issued (05
R178). -/
def slotOrder (k : Cluster) : List Nat := (List.range 4).map fun i => (k.lastSlot + 1 + i) % 4

/-- Whether the array takes a new group of a slot now: no slot before it in the order has one ready (05 R178). -/
def arrayTurn (s : State) (g slot : Nat) : Bool :=
  ((slotOrder (clusterOf s g)).takeWhile (· ≠ slot)).all fun x => !groupReady s g x

/-- Whether a pass may issue now: its group's next pass from the same slot, or the first of a new group (04 R103, R114). -/
def passTurn (k : Cluster) (slot : Nat) (p : Pass) : Option (List AccEntry) :=
  match k.group with
  | some q =>
    if q.slot = slot ∧ p.index = q.next ∧ p.len = q.len ∧ sameGroup p (passOf q.desc) ∧ p.first = false ∧
      p.last = decide (p.index + 1 = p.len) then some q.acc else none
  | none => if p.index = 0 ∧ p.first ∧ p.last = decide (p.len = 1) ∧ !outputsMeet p ∧ !anyPair tilesMeet p.probs then some [] else none

/-- Issue a pass of the context in a slot (04 R104). -/
def issuePass (g slot : Nat) (b : Bytes) (env : PassEnv) (s : State) : State :=
  let k := clusterOf s g
  match mget k.slots slot with
  | none => s
  | some c =>
    match mget s.sched.units c.unit with
    | none => s
    | some u =>
      let p := passOf b
      if !passForm b || !passFormats p || (k.group.isNone && !arrayTurn s g slot) then s
      else match passTurn k slot p with
        | none => s
        | some acc =>
          if inAlloc u.sram p then
            issueNow g slot c u b p acc (match k.group with | some q => q.desc | none => b) env s
          else rangeError g slot s

/-- The operation a context stands at. -/
def ctxOp (s : State) (c : Ctx) : Option Op := (mget s.obj.images c.image).bind fun i => i.ops[c.pc]?

/-- The group of a MATMUL_GROUP is complete: the context goes on to the next operation (05 R159). -/
def afterGroup (g slot : Nat) (s : State) : State :=
  match mget (clusterOf s g).slots slot with
  | none => s
  | some c =>
    if (clusterOf s g).group.isNone && ((ctxOp s c).map (·.opcode)) == some 1 then
      modCluster g (fun k => { k with slots := mupd k.slots slot fun x => { x with pc := x.pc + 1 } }) s
    else s

/-- PASS_ISSUE (04 R104): the last pass of a MATMUL_GROUP completes its operation. -/
def execPassIssue (cluster slot : Nat) (desc : Bytes) (env : PassEnv) (s : State) : Answer :=
  let t := issuePass cluster slot desc env s
  .next (if (passOf desc).last && (clusterOf t cluster).passCount != (clusterOf s cluster).passCount then afterGroup cluster slot t else t)

/-! ### Drain, sparing, self-test, sleep (04 R120 to R125, R135; 02 R50) -/

/-- No context is resident and no pass in flight. -/
def Cluster.idle (c : Cluster) : Bool := c.slots.isEmpty && c.group.isNone

/-- ARR_STATUS.drained (04 R120, R136): a cluster that drains has nothing resident and no pass in flight. -/
def Cluster.drained (c : Cluster) : Bool := c.drain && c.idle

/-- ARR_DRAIN (04 R120, R124). -/
def execArrDrain (fn cluster : Nat) (drain : Bool) (s : State) : Answer :=
  .next (if isPf fn ∧ cluster < 320 then
      modCluster cluster (fun c =>
        if drain then { c with drain := true, undrainAfter := false }
        else if c.spareOp.isSome then { c with undrainAfter := true }
        else { c with drain := false }) s
    else s)

/-- Retire a cluster until the next module reset (04 R119): its record is SERVICE 3. -/
def retireCluster (g : Nat) (s : State) : State :=
  if (clusterOf s g).retired then s
  else recordEvent 1 (64 + g) 0x0603 (instCluster g) [] (modCluster g (fun c => { c with retired := true }) s)

/-- ARR_RETIRE (04 R135). -/
def execArrRetire (fn cluster : Nat) (s : State) : Answer :=
  .next (if isPf fn ∧ cluster < 320 then retireCluster cluster s else s)

/-- Start a spare or self-test operation, or refuse it (04 R122 to R124).  Where several grounds of R123 hold, the lowest
result is given: not drained before no spare left before a bad index (the rule gives no order; DESIGN CHOICE, assumption
36). -/
def startSpare (op : SpareOp) (c : Cluster) : Cluster :=
  let refuse (r : Nat) : Cluster := { c with result := r, resultValid := true }
  let bad (l failed : List Nat) (i : Nat) : Cluster :=
    if spareLines l failed = 0 then refuse 2
    else if 128 ≤ i ∨ l.contains i then refuse 3
    else { c with spareOp := some op, resultValid := false, weights := none }
  if c.spareOp.isSome then c
  else if !c.drained then refuse 1
  else match op with
    | .row i => bad c.rows c.badRows i
    | .col i => bad c.cols c.badCols i
    | .selfTest => { c with spareOp := some op, resultValid := false }

def execArrSpareRow (fn cluster index : Nat) (s : State) : Answer :=
  .next (if isPf fn ∧ cluster < 320 then modCluster cluster (startSpare (.row (index % 256))) s else s)
def execArrSpareColumn (fn cluster index : Nat) (s : State) : Answer :=
  .next (if isPf fn ∧ cluster < 320 then modCluster cluster (startSpare (.col (index % 256))) s else s)
def execArrSelfTest (fn cluster : Nat) (s : State) : Answer :=
  .next (if isPf fn ∧ cluster < 320 then modCluster cluster (startSpare .selfTest) s else s)

/-- The cluster when its operation ends: the map takes the spare, a failing cell is located and keeps it drained (04 R122,
R124, R125). -/
def endSpare (op : SpareOp) (fault : Option (Nat × Nat)) (c : Cluster) : Cluster :=
  let c1 := match op with
    | .row i => { c with rows := (bypassFor (i :: c.rows ++ c.badRows)).getD c.rows }
    | .col i => { c with cols := (bypassFor (i :: c.cols ++ c.badCols)).getD c.cols }
    | .selfTest => c
  let c2 := { c1 with spareOp := none, undrainAfter := false, resultValid := true, result := if fault.isSome then 4 else 0 }
  match fault with
  | some (r, k) => { c2 with
      fault := c2.fault ||| 4, faultLoc := BitVec.ofNat 32 (r % 256 + 256 * (k % 256))
      drain := if op = .selfTest then (c2.drain && !c.undrainAfter) else true }
  | none => { c2 with drain := c2.drain && !c.undrainAfter }

/-- ARR_SPARE_DONE (04 R122, R125). -/
def execArrSpareDone (cluster : Nat) (fault : Option (Nat × Nat)) (s : State) : Answer :=
  .next (match (clusterOf s cluster).spareOp with
    | some op => irqEval false (64 + cluster) (modCluster cluster (endSpare op fault) s)
    | none => s)

/-- CLUSTER_SLEEP (02 R50): only a cluster with nothing resident and nothing queued; one that runs a spare or self-test
operation stays awake too, since its array works (R50 does not name it; DESIGN CHOICE, assumption 36). -/
def execClusterSleep (cluster : Nat) (s : State) : Answer :=
  let c := clusterOf s cluster
  .next (if c.awake && c.idle && c.spareOp.isNone then
      evCount 0 2 1 (modCluster cluster (fun k => { k with awake := false }) s)
    else s)

end Sys2Proof.Machine
end

