-- ==== Sys2Proof/Machine/Search.lean ====
section
/-! DEFINITION. Walks beside the flash (08_graph_walks): starting passes, hops, relays, offers, end reports, kills, the
merge, the shard wait, rebuilding of lost nodes and the hold bit; and the shard queries of other modules (16 R619). -/

namespace Sys2Proof.Machine

/-! ### Paths between hubs (02 R43 to R46, R780) -/

/-- Whether a link of GLB_LINK_FAILED has failed (20 R750). -/
def linkFailed (s : State) (i : Nat) : Bool := s.boot.linkFailed.getLsbD i

/-- Whether `n` ring segments from hub `a` upward are all whole. -/
def ringUp (s : State) : Nat → Nat → Bool
  | _, 0 => true
  | a, n + 1 => !linkFailed s (38 + a % 8) && ringUp s (a + 1) n

/-- Whether the ring joins two hubs, in one direction or the other (02 R43, R44). -/
def ringJoins (s : State) (a b : Nat) : Bool := ringUp s a ((b + 8 - a) % 8) || ringUp s b ((a + 8 - b) % 8)

/-- The way a relay takes: inside a hub, along the ring over some segments in the increasing or the decreasing direction, or
by the two board links (02 R43 to R45). -/
inductive RelayWay where
  | inside
  | ring (up : Bool) (segments : Nat)
  | board
deriving DecidableEq, Repr

/-- The way of a relay between hubs: the direction with fewer segments, the increasing one at four; the other where a segment
of it has failed; the board links where neither is whole (02 R43 to R45). -/
def relayWay (s : State) (a b : Nat) : RelayWay :=
  let n := (b + 8 - a) % 8
  let up := ringUp s a n
  let down := ringUp s b ((a + 8 - b) % 8)
  if n = 0 then .inside
  else if n ≤ 4 then (if up then .ring true n else if down then .ring false (8 - n) else .board)
  else if down then .ring false (8 - n) else if up then .ring true n else .board

/-- The latency of a relay message of some bytes in ns: 120 for each segment crossed and the transfer of 32 bytes a hub
cycle; 60 for each board link, with no transfer time stated for them; nothing stated within a hub (02 R42, R780). -/
def relayNs (w : RelayWay) (len : Nat) : Nat :=
  match w with
  | .inside => 0
  | .ring _ n => 120 * n + (len + 31) / 32
  | .board => 120

/-- Whether a hub is unreachable: ring segments have failed so that some relay to it would need its board link, and that link
has failed too (02 R45, R46). -/
def hubUnreachable (s : State) (h : Nat) : Bool :=
  linkFailed s (30 + h) && (List.range 8).any fun k => !ringJoins s k h

/-- Whether a walk on an engine cannot go on at another: that engine's hub is unreachable, or the way there needs a failed
board link (02 R46). -/
def relayBlocked (s : State) (a b : Nat) : Bool :=
  hubUnreachable s (b / 8) ||
    (relayWay s (a / 8) (b / 8) == .board && (linkFailed s (30 + a / 8) || linkFailed s (30 + b / 8)))

/-! ### Search work of a request or of a shard query -/

/-- The search work under a number: of a request-table entry below 4,096, of a shard query above (16 R619). -/
def workOf (s : State) (e : Nat) : Option SearchWork :=
  if e < 4096 then (entryOf s e).map (·.work.search) else mget s.search.shardWork (e - 4096)

/-- Change a search work. -/
def modSw (e : Nat) (f : SearchWork → SearchWork) (s : State) : State :=
  if e < 4096 then modSearchWork e f s
  else modSearch (fun r => { r with shardWork := mupd r.shardWork (e - 4096) f }) s

/-- The number a search tag serves. -/
def tagOwner (s : State) (tag : Nat) : Option Nat :=
  (mget s.search.tags tag).map fun t => if t.1 then 4096 + t.2 else t.2

/-- Key of a walk. -/
def walkKey (tag num : Nat) : Nat := 16 * tag + num

/-! ### Messages (08 R269, R283, R286, R287) -/

/-- A candidate entry (08 R269). -/
def candBytes (id dist : Nat) (expanded : Bool) : Bytes :=
  leBytes 8 (id % 2 ^ 40 + 2 ^ 40 * (dist % 1024) + 2 ^ 50 * b2n expanded)

/-- The inline_bits code of R223. -/
def inlineCode (bits : Nat) : Nat := if bits = 128 then 0 else if bits = 256 then 1 else 2

/-- Byte `i` of a visited filter: bits 8i to 8i + 7 (08 R283). -/
def vfByte (v : List Nat) (i : Nat) : Byte := BitVec.ofNat 8 ((List.range 8).map fun j => b2n (v.contains (8 * i + j)) * 2 ^ j).sum

/-- The start or relay message that carries a walk of a collection with a query sketch (08 R283). -/
def relayBytes (c : Collection) (qs : Nat) (w : Walk) : Bytes :=
  leBytes 1 0x31 ++ leBytes 1 (w.engine % 128) ++ leBytes 1 (w.src % 128) ++ leBytes 1 (b2n w.widened) ++
    leBytes 2 (w.tag % 16384) ++ leBytes 1 (w.num % 16) ++ leBytes 1 (inlineCode c.desc.inlineBits) ++ leBytes 4 w.coll ++
    leBytes 2 w.qlen ++ leBytes 2 w.queue.length ++ leBytes 2 w.hopBudget ++ leBytes 2 w.hops ++ leBytes 1 w.stallHops ++
    leBytes 1 w.stall ++ leBytes 2 (w.dBest.getD 0x3FF) ++ leBytes 8 (w.entryId % 2 ^ 40) ++ leBytes 8 (w.next % 2 ^ 40) ++
    leBytes 4 w.seq ++ leBytes 4 w.relays ++ leBytes 4 w.offered ++ leBytes 2 w.bad ++ zeros 10 ++
    padTo (leBytes (c.desc.inlineBits / 8) (qs % 2 ^ c.desc.inlineBits)) 64 ++ (List.range 2048).map (vfByte w.visited) ++
    w.queue.flatMap fun q => candBytes q.id q.dist q.expanded

/-- The bytes of a relay message: 2,176 + 8·n_q (08 R283). -/
def relayLen (w : Walk) : Nat := 2176 + 8 * w.queue.length

/-- An offer batch (08 R286). -/
def offerBytes (m : OfferMsg) : Bytes :=
  leBytes 1 0x32 ++ leBytes 1 (m.src % 128) ++ leBytes 1 (b2n m.widened) ++ leBytes 1 m.entries.length ++
    leBytes 2 (m.tag % 16384) ++ leBytes 1 (m.walk % 16) ++ zeros 1 ++ leBytes 2 m.hop ++ zeros 6 ++
    m.entries.flatMap fun e => candBytes e.id e.dist false

/-- An end report (08 R287). -/
def endBytes (m : EndMsg) : Bytes :=
  leBytes 1 0x33 ++ leBytes 1 (m.src % 128) ++ leBytes 1 (b2n m.widened) ++ leBytes 1 m.reason ++
    leBytes 2 (m.tag % 16384) ++ leBytes 1 (m.walk % 16) ++ zeros 1 ++ leBytes 2 m.hops ++ leBytes 2 m.relays ++
    leBytes 2 m.bad ++ zeros 2 ++ leBytes 4 m.offered ++ zeros 12

/-! ### Contexts and inboxes (08 R279, R280) -/

/-- Walks in contexts of an engine. -/
def ctxBusy (s : State) (g : Nat) : Nat := (s.search.walks.filter fun w => w.2.engine == g && w.2.place == some true).length

/-- The key of the oldest message waiting in an engine's inbox. -/
def oldestInbox (s : State) (g : Nat) : Option Nat :=
  ((sortBy (fun a b => decide (a.2.arrival < b.2.arrival))
    (s.search.walks.filter fun w => w.2.engine == g && w.2.place == some false)).head?).map Prod.fst

/-- The end report of a walk (08 R287).  Its 2-byte bad count saturates as relays does: the rule names no width for the count
itself (DESIGN CHOICE, log entry 32). -/
def endReportOf (w : Walk) (src reason : Nat) : EndMsg :=
  { src := src, widened := w.widened, reason := reason, tag := w.tag, walk := w.num, hops := w.hops
    relays := min w.relays 65535, bad := min w.bad 65535, offered := w.offered }

/-- End a walk: its report goes to the merge unit, its state is gone (08 R277, R287). -/
def dropWalk (k : Nat) (w : Walk) (src reason : Nat) (s : State) : State :=
  let s1 := modSearch (fun r => { r with
    walks := merase r.walks k, endsOut := r.endsOut ++ [endReportOf w src reason]
    wire := r.wire ++ [endBytes (endReportOf w src reason)]
    unreach := r.unreach + b2n (reason == 3) }) s
  evCount 5 9 (b2n (reason == 4)) (evCount 5 8 (b2n (reason == 3)) s1)

/-- A context of an engine is free: it takes its oldest waiting message; one of a killed tag ends (08 R280, R289). -/
def takeInbox (g : Nat) : Nat → State → State
  | 0, s => s
  | n + 1, s =>
    if 256 ≤ ctxBusy s g then s
    else match oldestInbox s g with
      | none => s
      | some k =>
        match mget s.search.walks k with
        | none => s
        | some w =>
          if s.search.killed.contains w.tag then takeInbox g n (dropWalk k w g 4 s)
          else takeInbox g n (modSearch (fun r => { r with walks := mset r.walks k { w with place := some true } }) s)

/-- Let an engine take what waits for it. -/
def serveInbox (g : Nat) (s : State) : State := takeInbox g (s.search.walks.length + 1) s

/-- End a walk held by an engine and let the engine take its oldest waiting message. -/
def endWalk (k : Nat) (w : Walk) (reason : Nat) (s : State) : State := serveInbox w.engine (dropWalk k w w.engine reason s)

/-! ### Starting a pass (08 R281, R283) -/

/-- The places of all passes that wait for credits. -/
def waitingPlaces (s : State) : List Nat :=
  (s.gen.entries.filterMap fun e => e.2.work.search.waiting) ++ (s.search.shardWork.filterMap fun w => w.2.waiting)

/-- Key of a pair of engines' sequence numbers. -/
def pairKey (dst src : Nat) : Nat := 65 * dst + src

/-- The next sequence number of a pair, and the state after it is used (08 R284). -/
def nextSeq (dst src : Nat) (s : State) : Nat × State :=
  (mgetD s.search.seqSent (pairKey dst src) 0, modSearch (fun r => { r with seqSent := mmod r.seqSent (pairKey dst src) 0 (· + 1) }) s)

/-- Send one walk's start message (08 R283), or end it where its engine cannot be reached (08 R285). -/
def startWalk (e : Nat) (c : Collection) (w : SearchWork) (num node : Nat) (s : State) : State :=
  let p := passPar w
  let tag := w.tag.getD 0
  let g := c.engineOf node
  let wk : Walk := { entry := e, shard := decide (4096 ≤ e), tag := tag, num := num, coll := w.par.coll, widened := w.widened
                     qlen := p.queueLen, hopBudget := p.hopBudget, stallHops := p.stallHops, entryId := node, next := node
                     engine := g, src := 64 }
  if hubUnreachable s (g / 8) then dropWalk (walkKey tag num) wk 64 3 s
  else
    let q := nextSeq g 64 s
    modSearch (fun r => { r with
      walks := mset r.walks (walkKey tag num) { wk with seq := q.1, msg := relayBytes c w.sketch { wk with seq := q.1 }, due := now s } }) q.2

/-- WALK_START (08 R281): the pass that has waited longest starts once credits for all its walks are free. -/
def execWalkStart (e : Nat) (s : State) : Answer :=
  .next (match workOf s e with
    | none => s
    | some w =>
      match w.waiting, mget s.obj.collections w.par.coll with
      | some place, some c =>
        let n := w.entryNodes.length
        if minNat (waitingPlaces s) = some place ∧ s.search.credits + freedCount s .credit + n ≤ 16384 then
          let s1 := modSw e (fun x => { x with waiting := none, walks := x.walks + n }) s
          let s2 := modSearch (fun r => { r with credits := r.credits + n, walkCount := r.walkCount + n }) s1
          foldS (withPos w.entryNodes) (fun t z => startWalk e c w z.1 z.2 t) (evCount 5 1 n s2)
        else s
      | _, _ => s)

/-! ### Relays (08 R284) -/

/-- The walk that travels in a message. -/
def walkInMsg (s : State) (m : RelayMsg) : Option Walk :=
  match mget s.search.walks (walkKey m.tag m.walk) with
  | some w => if w.place = none ∧ w.engine = m.dst ∧ w.src = m.src ∧ w.seq = m.seq ∧ w.widened = m.widened then some w else none
  | none => none

/-- Whether a hub has accepted a sequence number of a pair (08 R284). -/
def seqTaken (s : State) (key seq : Nat) : Bool :=
  let p := mgetD s.search.seqSeen key (0, [])
  decide (seq < p.1) || p.2.contains seq

/-- Move the first number not accepted past those listed. -/
def seqAdvance : Nat → Nat × List Nat → Nat × List Nat
  | 0, p => p
  | n + 1, p => if p.2.contains p.1 then seqAdvance n (p.1 + 1, p.2.erase p.1) else p

/-- Accept a sequence number of a pair (08 R284). -/
def seqTake (seq : Nat) (p : Nat × List Nat) : Nat × List Nat := seqAdvance (p.2.length + 1) (p.1, insertNum seq p.2)

/-- RELAY_ARRIVE (08 R280, R284, R289): a message whose number its sender's hub has already had accepted is discarded, in
whatever order they come; else the walk is taken by a free context or waits in the inbox, no earlier than its way takes
(02 R780). -/
def execRelayArrive (m : RelayMsg) (s : State) : Answer :=
  .next (
    if hubWaits s m.dst ∨ seqTaken s (pairKey m.dst m.src) m.seq then s
    else match walkInMsg s m with
      | none => s
      | some w =>
        let k := walkKey m.tag m.walk
        serveInbox m.dst (modSearch (fun r => { r with
          seqSeen := mmod r.seqSeen (pairKey m.dst m.src) (0, []) (seqTake m.seq)
          walks := mset r.walks k { w with place := some false, arrival := r.nextArrival, msg := [] }
          nextArrival := r.nextArrival + 1 }) (advanceTo w.due s)))

/-! ### Hops (08 R272 to R286) -/

/-- Charge a walk's page read to its account (08 R276). -/
def chargeRead (w : Walk) (s : State) : State := chargeSearch w.entry { flashReads := 1 } s

/-- A hop of a walk in a context: score, offer, update Q, choose the next node, relay or end.  A walk whose next node lies on
an unreachable hub ends there, its own hub among them (08 R285, 02 R46). -/
def walkHop (k : Nat) (w : Walk) (c : Collection) (qs : Nat) (readable : Bool) (s : State) : State :=
  let ok := readable && c.nodeReadable w.next && !(channelOf s w.engine).failed
  let h := hopOnce c.desc w ok (slotNbrs c qs w.next)
  let w1 := h.1
  let bad := w1.bad - w.bad
  let offer : OfferMsg := { src := w.engine, widened := w.widened, tag := w.tag, walk := w.num, hop := w1.hops, entries := h.2.1 }
  let s1 := modSearch (fun r => { r with
    hops := r.hops + 1, offers := r.offers + h.2.1.length, badHops := r.badHops + bad
    offersOut := if h.2.1.isEmpty then r.offersOut else r.offersOut ++ [offer]
    wire := if h.2.1.isEmpty then r.wire else r.wire ++ [offerBytes offer] })
    (modFlash (fun f => { f with reads := f.reads + 1 }) (chargeRead w s))
  let s2 := evCount 9 1 1 (evCount 5 7 bad (evCount 5 4 h.2.1.length (evCount 5 2 1 s1)))
  match h.2.2 with
  | .ended r => endWalk k w1 r s2
  | .next n =>
    let g := c.engineOf n
    if relayBlocked s w.engine g then endWalk k w1 3 s2
    else if g = w.engine then modSearch (fun r => { r with walks := mset r.walks k w1 }) s2
    else
      let q := nextSeq g w.engine s2
      let w2 := { w1 with engine := g, src := w.engine, seq := q.1, place := none, relays := w1.relays + 1 }
      let w3 := { w2 with msg := relayBytes c qs w2, due := now s + relayNs (relayWay s (w.engine / 8) (g / 8)) (relayLen w2) }
      let s3 := modSearch (fun r => { r with relays := r.relays + 1, walks := mset r.walks k w3 }) q.2
      serveInbox w.engine (evCount 5 3 1 s3)

/-- WALK_HOP (08 R272): the page of the node a walk is to expand arrives; a killed walk ends before its hop. -/
def execWalkHop (tag walk : Nat) (readable : Bool) (s : State) : Answer :=
  .next (match mget s.search.walks (walkKey tag walk) with
    | none => s
    | some w =>
      if w.place ≠ some true ∨ hubWaits s w.engine then s
      else if s.search.killed.contains tag then endWalk (walkKey tag walk) w 4 s
      else match mget s.obj.collections w.coll, workOf s w.entry with
        | some c, some sw => walkHop (walkKey tag walk) w c sw.sketch readable s
        | _, _ => s)

/-! ### The merge unit (08 R288 to R292) -/

/-- The first qlen admitted entries of a walk in R270 order (08 R291). -/
def listInsert (qlen : Nat) (l : List Cand) (x : Cand) : List Cand :=
  (insertBy (fun a b => candBefore a.dist a.id b.dist b.id) x l).take qlen

/-- OFFER_BATCH (08 R290, R291). -/
def execOfferBatch (b : OfferMsg) (s : State) : Answer :=
  .next (
    if !s.search.offersOut.contains b then s
    else
      let s0 := modSearch (fun r => { r with offersOut := r.offersOut.erase b, wire := r.wire.erase (offerBytes b) }) s
      match tagOwner s b.tag with
      | none => s0
      | some e =>
        match workOf s e with
        | none => s0
        | some w =>
          match mget s.obj.collections w.par.coll with
          | none => s0
          | some c =>
            let ok := b.entries.filter fun x => match mget c.items x.id with | some i => admits w x.id i | none => false
            let q := (passPar w).queueLen
            evCount 5 5 ok.length (modSw e (fun y => { y with
              lists := mset y.lists b.walk (ok.foldl (listInsert q) (mgetD y.lists b.walk []))
              received := mmod y.received b.walk 0 (· + b.entries.length) }) s0))

/-- END_REPORT (08 R281, R288): the walk's credit returns. -/
def execEndReport (m : EndMsg) (s : State) : Answer :=
  .next (
    if !s.search.endsOut.contains m then s
    else
      let s0 := noteFreed .credit (modSearch (fun r => { r with
        endsOut := r.endsOut.erase m, wire := r.wire.erase (endBytes m), credits := r.credits - 1 }) s)
      match tagOwner s m.tag with
      | none => s0
      | some e => modSw e (fun y => { y with
          ended := mset y.ended m.walk m.offered, hops := y.hops + m.hops, relays := y.relays + m.relays
          badHops := y.badHops + m.bad }) s0)

/-! ### Shard queries of other modules (16 R619, 01 R34) -/

/-- The SHARD_LIST of a finished shard query (09 R325, 16 R619).  R619 gives the key as -P; after an exact search it is the
FP32 -d of R326 (DESIGN CHOICE, log entry 32). -/
def shardListBytes (w : SearchWork) (l : List Scored) : Bytes :=
  leBytes 2 l.length ++ leBytes 2 (b2n w.widened + 2 * b2n (stage7Short w)) ++ leBytes 4 w.admitted ++ leBytes 4 w.hops ++
    leBytes 4 w.badHops ++ zeros 16 ++
    (withPos l).flatMap fun e => leBytes 8 (handleOf e.2.home e.2.id) ++ leBytes 4 (BitVec.ofInt 32 e.2.key).toNat ++ leBytes 4 e.1

/-- Answer a shard query with its list and forget it. -/
def finishShard (n : Nat) (c : Collection) (w : SearchWork) (s : State) : State :=
  let l := if w.exact then w.scored else rescore c (homeOf s) w
  let o := w.origin.getD (0, 0)
  let s1 := modSearch (fun r => { r with
    shardWork := merase r.shardWork n, short := r.short + b2n (stage7Short w) })
    (match w.tag with | some t => dropTag t s | none => s)
  releaseUnused (sendAll { ptype := 0x19, dst := o.1, arg0 := BitVec.ofNat 32 o.2, payload := shardListBytes w l } s1)

/-- Count a search that widened (08 R303). -/
def countWidened (w : Bool) (s : State) : State :=
  if w then evCount 5 6 1 (modSearch (fun r => { r with widened := r.widened + 1 }) s) else s

/-- A shard query starts stage 5 (16 R619): an exact search answers at once, other walks wait for credits. -/
def startShard (n : Nat) (w : SearchWork) (s : State) : State :=
  match mget s.obj.collections w.par.coll with
  | none => modSearch (fun r => { r with shardWork := merase r.shardWork n }) s
  | some c =>
    if w.exact then
      let w1 := exactSearch c (homeOf s) s.search.widenOff { w with heldHere := false }
      finishShard n c w1 (countWidened w1.widened (chargeStage (4096 + n) 5 (exactSize c w1) s))
    else
      let w1 := beginPass s.search.nextWait { w with entryNodes := entrySelect c w, heldHere := false }
      selectionRows 1 c.centroids.length 0 (chargeStage (4096 + n) 5 (exactSize c w1)
        (modSearch (fun r => { r with shardWork := mset r.shardWork n w1, nextWait := r.nextWait + 1 }) s))

/-- Stage 7 of a shard query: widen or answer (08 R297). -/
def shardMerged (n : Nat) (c : Collection) (w : SearchWork) (s : State) : State :=
  if needWiden s.search.widenOff w then
    let w1 := beginPass s.search.nextWait { w with widened := true }
    countWidened true (modSearch (fun r => { r with nextWait := r.nextWait + 1, shardWork := mset r.shardWork n w1 }) s)
  else finishShard n c w (chargeStage (4096 + n) 8 [w.cands.length] s)

/-- MERGE_UNITE (08 R292): for a request in stage 7, or a shard query, whose walks have all finished. -/
def execMergeUnite (e : Nat) (s : State) : Answer :=
  .next (
    if e < 4096 then
      match entryOf s e with
      | some x =>
        if x.state = .pre ∧ x.work.stage = 7 ∧ passFinished x.work.search ∧ !x.work.search.merged then modSearchWork e settlePass s
        else s
      | none => s
    else match mget s.search.shardWork (e - 4096) with
      | some w =>
        match mget s.obj.collections w.par.coll with
        | some c => if passFinished w && !w.heldHere then shardMerged (e - 4096) c (settlePass w) s else s
        | none => s
      | none => s)

/-- SHARD_WAIT_EXPIRY (01 R35): the shards whose lists have not come are left out and counted. -/
def execShardWaitExpiry (e : Nat) (s : State) : Answer :=
  .next (match entryOf s e with
    | some x =>
      if x.state = .pre ∧ !x.work.search.shardsLeft.isEmpty then
        modSearchWork e (fun w => { w with missingShards := w.missingShards + w.shardsLeft.length, shardsLeft := [] })
          (oweShards x.work.search (advanceTo x.work.search.shardUntil s))
      else s
    | none => s)

/-! ### Rebuilding lost nodes (08 R302) -/

/-- NODE_REBUILD (08 R302): the lost node's neighbours are the degree nearest visible items of the four centroids nearest
it, in the order of R240. -/
def rebuildNode (c : Collection) (n : Nat) : Collection :=
  match mget c.items n with
  | none => { c with rebuild := c.rebuild.filter (· ≠ n) }
  | some i =>
    let x := c.itemDys i
    let near := ((exactMembers c x (nearestCents c x 4) fun k j => k != n && j.visible c.epoch).take c.desc.degree).map Prod.snd
    let sk := nodeSketch c n
    let c1 := { c with nodes := mset c.nodes n { sketch := sk, nbrs := withInline c (nbrOrder c sk near) }
                       rebuild := c.rebuild.filter (· ≠ n) }
    let pg := c.pageNo n
    if c1.rebuild.any fun k => c1.pageNo k == pg then c1 else { c1 with badPages := c1.badPages.filter (· ≠ pg) }

def execNodeRebuild (coll n : Nat) (s : State) : Answer :=
  .next (match mget s.obj.collections coll with
    | some c =>
      if c.rebuild.contains n ∧ !hubWaits s (c.engineOf n) then
        let c1 := rebuildNode c n
        evCount 11 2 (c.badPages.length - c1.badPages.length)
          (acceptWrites (collWrites c c1) (modObj (fun o => { o with collections := mset o.collections coll c1 }) s))
      else s
    | none => s)

/-! ### The hold bit (08 R304) -/

/-- SEARCH_HOLD_SET (08 R304), by a physical function. -/
def execSearchHoldSet (fn : Nat) (s : State) : Answer :=
  .next (if fn ≤ 1 then modSearch (fun r => { r with hold := true }) s else s)

/-- The searches held before stage 5 by place and number, those of shard queries from 4,096 on. -/
def heldSearches (s : State) : List (Nat × Nat) :=
  (s.gen.entries.filterMap fun e => if e.2.work.search.heldHere then some (e.2.work.search.heldPlace.getD 0, e.1) else none) ++
    (s.search.shardWork.filterMap fun w => if w.2.heldHere then some (w.2.heldPlace.getD 0, 4096 + w.1) else none)

/-- A held search goes on: a request's stage 5 starts, a shard query too. -/
def resumeSearch (e : Nat) (s : State) : State :=
  if e < 4096 then startSearch e s
  else match mget s.search.shardWork (e - 4096) with
    | some w => startShard (e - 4096) w s
    | none => s

/-- SEARCH_HOLD_CLEAR (08 R304): held searches go on in the order in which they came to be held (R281). -/
def execSearchHoldClear (fn : Nat) (s : State) : Answer :=
  .next (if fn ≤ 1 then
      foldS (sortBy (fun a b => decide (a.1 < b.1)) (heldSearches s)) (fun t e => resumeSearch e.2 t)
        (modSearch (fun r => { r with hold := false }) s)
    else s)

end Sys2Proof.Machine
end

