-- ==== Sys2Proof/Machine/Fabric.lean ====
section
/-! DEFINITION. The Evdozin fabric (16): flits and ports, joining and leaving, per-pair recovery, and the operations that
modules ask of each other: tables, reductions, shards, leases. -/

namespace Sys2Proof.Machine

/-! ### Ports (16 R591, R596 to R601) -/

/-- A port goes DOWN: its replay buffer is dropped (16 R601), and with it the packets it has received in part. -/
def takeDown (port code : Nat) (s : State) : State :=
  recordEvent 1 10 (0x0400 + code) (instPort port) [] (modPort port (fun p => { p with
    state := .down, shortFec := false, lanes := 0, replay := [], tagFails := [], keyUpdate := false })
    (modFab (fun f => { f with partialRx := f.partialRx.filter fun k => k.1 / 16 != port }) s))

/-- A flit that carries no data is sent. -/
def sendCtl (port : Nat) (c : CtlFlit) (s : State) : State := evCount 10 1 1 (modPort port (pushCtl port c) s)

/-- Discard a flit; a data flit is answered with a retry request (16 R597). -/
def discardFlit (port kind : Nat) (s : State) : State :=
  if kind = 0 then
    sendCtl port ⟨2, (portOf s port).rxSeq, 0, 0⟩
      (evCount 10 3 1 (modPort port (fun p => { p with linkRetry := p.linkRetry + 1 }) s))
  else s

/-- A tag failure: sixteen within 1 ms take the port DOWN (16 R600). -/
def tagFailure (port kind : Nat) (s : State) : State :=
  let t := now s
  let fails := ((portOf s port).tagFails.filter fun x => decide (t < x + 1000000)) ++ [t]
  let s1 := evCount 10 5 1 (modPort port (fun p => { p with authFail := p.authFail + 1, tagFails := fails }) s)
  if 16 ≤ fails.length then takeDown port 3 s1 else discardFlit port kind s1

/-- Take a flit's acknowledgement and credits (16 R596, R597). -/
def takeAcks (port hd : Nat) (s : State) : State :=
  let ack := bitsOf hd 27 16
  let key := 4 * bitsOf hd 41 40 + bitsOf hd 43 42
  let n := bitsOf hd 55 48
  let covered (q : Nat) : Bool := decide ((ack + 4096 - q) % 4096 < 1024)
  modPort port (fun p => { p with
    replay := if hd.testBit 28 then p.replay.filter fun f => !covered f.1 else p.replay
    credits := if n = 0 then p.credits else mset p.credits key (mgetD p.credits key (vcBuffer (key / 4)) + n) }) s

/-- Resend the data flits from a sequence number on, in order; each takes a new count (16 R597, R598). -/
def resendFrom (port seq : Nat) (s : State) : State :=
  let l := (portOf s port).replay.dropWhile fun e => e.1 ≠ seq
  evCount 10 1 l.length (modPort port (fun p => l.foldl (pushData port) { p with resent := p.resent ++ l.map Prod.fst }) s)

/-- A link-control flit: the peer's confirmation of a key update, or the peer's own update, which is confirmed (16 R599). -/
def linkControl (port : Nat) (s : State) : State :=
  if (portOf s port).keyUpdate then
    modPort port (fun p => { p with keyUpdate := false, txGen := p.txGen + 1, txKey := nextLinkKey p.txKey, ivCount := 0 }) s
  else sendCtl port ⟨3, 0, 0, 0⟩ s

/-- A whole packet has arrived in flits: it is delivered here, or passed on at its level (16 R606, R607, R610). -/
def packetArrived (lvl : Nat) (p : Packet) (s : State) : State :=
  if p.ptype = 0x40 ∨ p.ptype = 0x4B ∨ p.ptype = 0x4C ∨ (p.dst = s.fab.id ∧ s.fab.state ≠ .unassigned) then
    modFab (fun f => { f with delivered := f.delivered ++ [p] }) s
  else if onFabric s then routeAt lvl { p with hops := (p.hops + 1) % 256 } s
  else s

/-- The next data flit in order: its payload joins its packet, and its acknowledgement and credit go back (16 R597). -/
def dataFlit (port hd : Nat) (payload : Bytes) (s : State) : State :=
  let p := portOf s port
  let vc := bitsOf hd 35 34
  let lvl := bitsOf hd 37 36
  let k := 16 * port + 4 * vc + lvl
  let s1 := modPort port (fun x => { x with rxSeq := (x.rxSeq + 1) % 4096 }) s
  let s2 := sendCtl port ⟨1, p.rxSeq, 4 * vc + lvl, 1⟩ s1
  if !portCarries p vc then s2
  else
    match (if hd.testBit 38 then some [] else mget s.fab.partialRx k) with
    | none => s2
    | some got =>
      let b := got ++ payload
      if hd.testBit 39 then
        packetArrived lvl (packetOf port b) (modFab (fun f => { f with partialRx := merase f.partialRx k }) s2)
      else modFab (fun f => { f with partialRx := mset f.partialRx k b }) s2

/-- The key a generation of flits received is under: the present one's, or the next (16 R599, 18 R681). -/
def rxKeyAt (p : Port) (gen : Nat) : Bytes := if gen = p.rxGen then p.rxKey else nextLinkKey p.rxKey

/-- A flit whose CRC and tag hold. -/
def goodFlit (port hd gen : Nat) (payload : Bytes) (s : State) : State :=
  let p := portOf s port
  let kind := bitsOf hd 33 32
  let s1 := modPort port (fun x => { x with rxGen := gen, rxKey := rxKeyAt p gen }) s
  if kind = 0 ∧ hd % 4096 ≠ p.rxSeq then discardFlit port 0 s1
  else
    let s2 := takeAcks port hd s1
    pumpPort port (match kind with
      | 0 => dataFlit port hd payload s2
      | 2 => resendFrom port ((bitsOf hd 27 16 + 1) % 4096) s2
      | 3 => linkControl port s2
      | _ => s2)

/-- A whole flit has arrived on a port (16 R593 to R600). -/
def takeFlit (port : Nat) (flit : Bytes) (s : State) : State :=
  let p := portOf s port
  let f := padTo flit 256
  let hd := rd f 0 8
  let kind := bitsOf hd 33 32
  let gen := p.rxGen + b2n (b2n (hd.testBit 56) != p.rxGen % 2)
  if p.state ≠ .local ∧ p.state ≠ .secure then s
  else
    let s1 := evCount 10 2 1 s
    if (crc64 (f.take 248)).toNat ≠ rd f 248 8 then discardFlit port kind s1
    else if p.state = .secure then
      if Config.flitTagOk (rxKeyAt p gen) p.rxSalt f then goodFlit port hd gen (Config.flitPlain (rxKeyAt p gen) p.rxSalt f) s1
      else tagFailure port kind s1
    else goodFlit port hd p.rxGen ((f.drop 8).take 224) s1

/-- Codewords that the FEC of a port corrected, and those it could not (16 R624; 20 R745). -/
def countWords (port corr uncorr : Nat) (s : State) : State :=
  evCount 10 4 corr (modPort port (fun p => { p with fecCorr := p.fecCorr + corr, fecUncorr := p.fecUncorr + uncorr }) s)

/-- A codeword of the short-reach FEC arrives on a port in service: it is decoded, and the flits that its blocks complete are
taken (16 R590, R592).  The data of an uncorrectable one go on as received, for the flits' CRC to judge (DESIGN CHOICE, log
entry 60). -/
def takeWord (port : Nat) (s : State) (lanes : List (List Nat)) : State :=
  let p := portOf s port
  if !p.shortFec || (p.state != .local && p.state != .secure) then s
  else
    let w := laneWord lanes
    let d := linkDecode w
    let bs := wholeFlits 2 (p.rxBlocks ++ symbolBlocks ((d.map Prod.fst).getD (w.take 257)))
    foldS bs.1 (fun t f => takeFlit port f t)
      (countWords port (b2n ((d.map Prod.snd).getD false)) (b2n d.isNone) (modPort port (fun x => { x with rxBlocks := bs.2 }) s))

/-- FLIT_RECEIVE (16 R590 to R600): a flit as the port's coding sublayer hands it on, or the codewords of the short-reach FEC in
which flits come. -/
def execFlitReceive (port : Nat) (line : LineIn) (s : State) : Answer :=
  .next (match line with
    | .flit b corr uncorr =>
      if (portOf s port).state = .local ∨ (portOf s port).state = .secure then takeFlit port b (countWords port corr uncorr s) else s
    | .words ws => ws.foldl (takeWord port) s)

/-- RETRY_REQUEST (16 R597). -/
def execRetryRequest (port seq : Nat) (s : State) : Answer :=
  .next (let p := portOf s port
         if p.state = .local ∨ p.state = .secure then resendFrom port (seq % 4096) s else s)

/-- LINK_KEY_UPDATE (16 R599): the sender starts an update; its phase changes once the peer has confirmed. -/
def execLinkKeyUpdate (port : Nat) (s : State) : Answer :=
  .next (let p := portOf s port
         if p.state = .secure ∧ !p.keyUpdate then
           sendCtl port ⟨3, 0, 0, 0⟩ (modPort port (fun x => { x with keyUpdate := true }) s)
         else s)

/-- The FEC a port uses: 1 RS(544,514), 2 short-reach (16 R591, R629). -/
def portFec (p : Port) (short : Bool) : Nat := if p.fec = 0 then (if short then 2 else 1) else p.fec

/-- Whether the configuration record in effect holds every port DOWN (18 R672). -/
def portsHeld (s : State) : Bool := (s.sec.config.map fun c => !c.fabric).getD false

/-- The optical engine of a port (02 R41). -/
def portEngine (port : Nat) : Nat := port / 4

/-- Whether a port's optical engine has power and its link to the I/O die has not failed (02 R41, R44, R49). -/
def engineServes (s : State) (port : Nat) : Bool :=
  domainOn s (28 + portEngine port) && !s.boot.linkFailed.getLsbD (46 + portEngine port)

/-- PORT_TRAINED (16 R591, R596, R601): the port enters LOCAL, or stays in TRAINING when the ends' FECs differ. -/
def execPortTrained (port peerFec : Nat) (short : Bool) (s : State) : Answer :=
  .next (
    let p := portOf s port
    let mine := portFec p short
    if p.state ≠ .down ∧ p.state ≠ .training then s
    else if 32 ≤ port ∨ portsHeld s ∨ !engineServes s port then s
    else if mine ≠ peerFec then modPort port (fun x => { x with state := .training, lanes := 15 }) s
    else pumpPort port (modPort port (fun x => { x with
      state := .local, lanes := 15, shortFec := decide (mine = 2), credits := [], rxSeq := 0, txSeq := 0, replay := []
      flits := [], txBlocks := [], words := [], rxBlocks := [] }) s))

/-- LINK_SESSION (16 R601; 18 R681): both ends are ADMITTED and the session with the peer has completed; its keys are derived. -/
def execLinkSession (port peer : Nat) (ok : Bool) (s : State) : Answer :=
  .next (
    if (portOf s port).state = .local ∧ s.fab.state = .admitted ∧ ok then
      pumpPort port (modPort port (fun x => { sessionKeys port s.fab.id peer x with state := .secure }) s)
    else s)

/-- PORT_DOWN (16 R601). -/
def execPortDown (port : Nat) (s : State) : Answer :=
  .next (if (portOf s port).state = .down then s else takeDown port 2 s)

/-! ### Recovery (16 R611, R612) -/

/-- FAB_TIMERS.retx_us and peer_loss_ms in ns (16 R628). -/
def retxNs (s : State) : Nat := 1000 * (s.fab.timers.toNat % 65536)
def lossNs (s : State) : Nat := 1000000 * (s.fab.timers.toNat / 65536)

/-- RETX_TIMER (16 R611): every request unacknowledged for retx_us is sent again. -/
def execRetxTimer (peer : Nat) (s : State) : Answer :=
  .next (match (pairOf s peer).unacked with
    | [] => s
    | l =>
      let due := (minNat (l.map fun r => r.sent + retxNs s)).getD 0
      let s1 := advanceTo due s
      let t := now s1
      let again := l.filter fun r => decide (r.sent + retxNs s ≤ t)
      let s2 := modPair peer (fun p => { p with
        unacked := p.unacked.map fun r => if r.sent + retxNs s ≤ t then { r with sent := t } else r }) s1
      let s3 := evCount 10 6 again.length (modFab (fun f => { f with retx := f.retx + again.length }) s2)
      foldS again (fun u r => sendAll r.pkt u) s3)

/-- Members of a set, by index (16 R616). -/
def setIds (s : State) (set : Nat) : List Nat := (setMembersOf s set).map Prod.snd

/-- This module's index in a set; a module that is UNASSIGNED has no ID, so it is no member of any (00 R16, 16 R602). -/
def ownIndex (s : State) (set : Nat) : Option Nat :=
  if s.fab.state = .unassigned then none else ((setMembersOf s set).find? fun m => m.2 == s.fab.id).map Prod.fst

/-- Key of a reduction. -/
def redKey (set num : Nat) : Nat := 2 ^ 32 * set + num

/-- A reduction ends here: the run that waits on it ends FAULT, detail 0x202; before it has begun, its abort is kept (16 R616). -/
def dropReduction (k : Nat) (s : State) : State :=
  match mget s.fab.reductions k with
  | some r =>
    if r.started then failUnit r.unit 0x202 (modFab (fun f => { f with reductions := merase f.reductions k }) s)
    else modFab (fun f => { f with reductions := mset f.reductions k { r with aborted := true } }) s
  | none => modFab (fun f => { f with reductions := mset f.reductions k { aborted := true } }) s

/-- Abort a reduction: RED_ABORT goes to the other members (16 R616). -/
def abortReduction (k : Nat) (s : State) : State :=
  let set := k / 2 ^ 32
  let s1 := foldS ((setIds s set).filter (· ≠ s.fab.id)) (fun t id =>
    sendPacket { ptype := 0x14, dst := id, arg0 := BitVec.ofNat 32 set, arg1 := BitVec.ofNat 64 (k % 2 ^ 32) } t) s
  dropReduction k s1

/-- The live reductions whose set passes a test. -/
def reductionsOn (s : State) (p : Nat → Bool) : List Nat :=
  (s.fab.reductions.filter fun r => r.2.started && p (r.1 / 2 ^ 32)).map Prod.fst

/-- Whatever waited on a peer ends with FAULT 0x201 (16 R612). -/
def failWaiters (l : List PairReq) (s : State) : State :=
  foldS l (fun t r =>
    let t1 := match r.ctx with | some c => failUnit c.1 0x201 t | none => t
    match r.who with
    | some e => endFault e 0x201 (((entryOf t1 e).map (·.work.stage)).getD 0) t1
    | none => t1) s

/-- The leases a peer held or lent are gone (16 R612; 12 R471). -/
def dropLeases (peer : Nat) (s : State) : State :=
  let n := (s.mem.borrowed.filter fun l => l.2.peer == peer).length
  modMem (fun m => { m with
    lent := m.lent.filter fun l => l.2.peer != peer
    borrowed := m.borrowed.filter fun l => l.2.peer != peer
    reclaims := m.reclaims + n }) s

/-- The pins a peer holds here end (16 R612, R614). -/
def dropPins (peer : Nat) (s : State) : State :=
  releaseUnused (modObj (fun o => { o with tables := mmap o.tables fun _ t =>
    { t with versions := mmap t.versions fun _ v => { v with remotePins := v.remotePins.filter (· ≠ peer) } } }) s)

/-- The searches that wait for a lost shard count it missing (01 R35). -/
def missShard (peer : Nat) (s : State) : State :=
  foldS (s.gen.entries.map Prod.fst) (fun t e => modSearchWork e (fun w => { w with
    missingShards := w.missingShards + (w.shardsLeft.filter fun x => x.2 == peer).length
    shardsLeft := w.shardsLeft.filter fun x => x.2 != peer }) t)
    (modSearch (fun r => { r with owed := r.owed.filter fun o => o.2 != peer }) s)

/-- A peer is lost (16 R612). -/
def losePeer (peer : Nat) (s : State) : State :=
  let p := pairOf s peer
  let adds := (p.unacked.filter fun r => r.pkt.ptype == 4).length
  let s1 := modFab (fun f => { f with
    pairs := merase f.pairs peer, trains := f.trains.filter fun t => t.src != peer, lost := insertNum peer f.lost, peersLost := f.peersLost + 1
    remotePins := f.remotePins.filter fun x => x.1 != peer }) s
  let s2 := missShard peer (dropPins peer (dropLeases peer (failWaiters (p.unacked ++ p.asked) s1)))
  let s3 := foldS (reductionsOn s2 fun set => (setIds s2 set).contains peer) (fun t k => abortReduction k t) s2
  recordEvent 2 10 0x0501 0 [peer, adds] s3

/-- PEER_LOSS_TIMER (16 R612): a request unacknowledged for peer_loss_ms. -/
def execPeerLossTimer (peer : Nat) (s : State) : Answer :=
  .next (match minNat ((pairOf s peer).unacked.map (·.first)) with
    | some t => losePeer peer (advanceTo (t + lossNs s) s)
    | none => s)

/-- PEER_REPORTED_GONE (16 R612). -/
def execPeerReportedGone (peer : Nat) (s : State) : Answer := .next (losePeer peer s)

/-- PAIR_ACK (16 R611): the named request and those before it are acknowledged. -/
def execPairAck (p : Packet) (s : State) : Answer :=
  .next (arrive 0x30 (fun q t => modPair q.src (fun x => { x with
    unacked := x.unacked.filter fun r => r.seq != q.pairSeq && !seqBehind r.seq q.pairSeq }) t) p s)

/-! ### Joining and leaving (16 R602 to R605, R621) -/

/-- Enter UNASSIGNED (16 R602, R621). -/
def enterUnassigned (s : State) : State :=
  modFab (fun f => { f with
    state := .unassigned, id := 0xFFFFF, anchor := false
    ports := mmap f.ports fun _ p => if p.state = .secure then { p with state := .local } else p }) s

/-- ASSIGN (16 R603): an UNASSIGNED module takes the ID; any other discards it. -/
def execAssign (p : Packet) (s : State) : Answer :=
  .next (
    let s0 := modFab (fun f => { f with delivered := f.delivered.erase { p with ptype := 0x40 } }) s
    if s.fab.state = .unassigned then
      let id := p.arg0.toNat % 2 ^ 20
      let s1 := modFab (fun f => { f with
        state := .assigned, id := id, anchorId := p.arg1.toNat % 2 ^ 20, upstream := p.port, anchor := false }) s0
      let s2 := recordEvent 0 10 0x0502 0 [id] s1
      sendPacket { ptype := 0x42, dst := p.arg1.toNat % 2 ^ 20, arg0 := BitVec.ofNat 32 id, arg1 := BitVec.ofNat 64 p.port } s2
    else modFab (fun f => { f with assignDropped := f.assignDropped + 1 }) s0)

/-- A management packet from the recorded anchor to this module (16 R605); one for another module is passed on. -/
def fromAnchor (pt : Nat) (act : Packet → State → State) (p : Packet) (s : State) : State :=
  let q := { p with ptype := pt }
  if q.dst ≠ s.fab.id then (if onFabric s then forward q s else s)
  else if s.fab.state = .unassigned ∨ q.src ≠ s.fab.anchorId then s
  else act q (modFab (fun f => { f with delivered := f.delivered.erase q }) s)

/-- ASSIGN_VIA (16 R603): an ASSIGN goes out of the named port, or the chain ends with NO_NEIGHBOUR. -/
def execAssignVia (p : Packet) (s : State) : Answer :=
  .next (fromAnchor 0x41 (fun q t =>
    if t.fab.state ≠ .admitted then t
    else
      let port := bitsOf q.arg0.toNat 24 20
      if (portOf t port).state = .local then
        putOn port 0 { ptype := 0x40, src := t.fab.id, arg0 := BitVec.ofNat 32 (q.arg0.toNat % 2 ^ 20), arg1 := q.arg1 } t
      else sendPacket { ptype := 0x4A, dst := t.fab.anchorId, arg0 := BitVec.ofNat 32 port
                        arg1 := BitVec.ofNat 64 (q.arg0.toNat % 2 ^ 20) } t) p s)

/-- A packet that the anchor receives for its fabric manager is kept for it (16 R603). -/
def atAnchor (pt : Nat) (p : Packet) (s : State) : State :=
  let q := { p with ptype := pt }
  if q.dst ≠ s.fab.id then (if onFabric s then forward q s else s)
  else if s.fab.anchor && !s.fab.delivered.contains q then modFab (fun f => { f with delivered := f.delivered ++ [q] }) s
  else s

/-- ASSIGNED (16 R603). -/
def execAssigned (p : Packet) (s : State) : Answer := .next (atAnchor 0x42 p s)

/-- NO_NEIGHBOUR (16 R603): ASSIGN_VIA completes with status NO_NEIGHBOUR at the anchor. -/
def execNoNeighbour (p : Packet) (s : State) : Answer := .next (atAnchor 0x4A p s)

/-- Answer a management packet (16 R620). -/
def mgmtStatus (q : Packet) (st : Nat) (s : State) : State := sendAll (answerTo q 0x81 st) s

/-- ADMIT (16 R602, R603): the pairs' numbers start from 0 (R611). -/
def execAdmitPacket (p : Packet) (s : State) : Answer :=
  .next (fromAnchor 0x43 (fun q t =>
    if t.fab.state = .assigned then
      mgmtStatus q Status.ok (recordEvent 0 10 0x0503 0 [t.fab.id] (modFab (fun f => { f with state := .admitted, pairs := [] }) t))
    else mgmtStatus q Status.refused t) p s)

/-- UNASSIGN (16 R602, R603): the answer goes out before the ID is gone. -/
def execUnassign (p : Packet) (s : State) : Answer :=
  .next (fromAnchor 0x44 (fun q t =>
    if t.fab.state = .assigned then enterUnassigned (mgmtStatus q Status.ok t) else mgmtStatus q Status.refused t) p s)

/-- Release a lease borrowed (16 R617). -/
def releaseLease (k : Nat) (s : State) : State :=
  match mget s.mem.borrowed k with
  | some l => sendReq { ptype := 0x23, dst := l.peer, arg0 := BitVec.ofNat 32 (k % 4096) } none
      (modMem (fun m => { m with borrowed := merase m.borrowed k }) s)
  | none => s

/-- Enter LEAVING (16 R621): leases are reclaimed and released, remote pins released, live reductions aborted. -/
def enterLeaving (s : State) : State :=
  let s1 := modFab (fun f => { f with state := .leaving, leaveUntil := now s + lossNs s }) s
  let s2 := foldS (s1.mem.lent.map Prod.fst) (fun t n => reclaimLease n t) s1
  let s3 := foldS (s2.mem.borrowed.map Prod.fst) (fun t k => releaseLease k t) s2
  let s4 := foldS s3.fab.remotePins (fun t x =>
    sendReq { ptype := 0x02, dst := x.1, arg0 := BitVec.ofNat 32 x.2.1, arg1 := BitVec.ofNat 64 x.2.2 } none t) s3
  let s5 := modFab (fun f => { f with remotePins := [] }) s4
  foldS (reductionsOn s5 fun _ => true) (fun t k => abortReduction k t) s5

/-- LEAVE (16 R621), from the anchor. -/
def execLeavePacket (p : Packet) (s : State) : Answer :=
  .next (fromAnchor 0x45 (fun q t =>
    if t.fab.state = .admitted then enterLeaving (mgmtStatus q Status.ok t) else mgmtStatus q Status.refused t) p s)

/-- Whether a function may write the fabric registers: the management physical function alone (16 R624). -/
def isMgmtPf (fn : Nat) : Bool := fn == 1

/-- FAB_LEAVE (16 R621, R625). -/
def execFabLeave (fn : Nat) (s : State) : Answer :=
  .next (if isMgmtPf fn && s.fab.state == .admitted then enterLeaving s else s)

/-- Peers with requests outstanding. -/
def busyPeers (s : State) : List Nat :=
  (s.fab.pairs.filter fun p => !p.2.unacked.isEmpty || !p.2.asked.isEmpty).map Prod.fst

/-- Whether a row add of another module waits here for its row (11 R424). -/
def addsHeld (s : State) : Bool :=
  s.obj.tables.any fun t => t.2.versions.any fun v => v.2.hot.any fun r => r.2.heldAdds.any (·.ask.isSome)

/-- LEAVE_DRAINED (16 R621): accepted work is done and no request is outstanding, or peer_loss_ms have passed and the peers
that still owe an answer are lost. -/
def execLeaveDrained (s : State) : Answer :=
  .next (
    if s.fab.state ≠ .leaving ∨ !s.search.shardWork.isEmpty ∨ addsHeld s then s
    else
      let s1 := match busyPeers s with
        | [] => s
        | l => foldS l (fun t p => losePeer p t) (advanceTo s.fab.leaveUntil s)
      enterUnassigned (recordEvent 0 10 0x0504 0 [s1.fab.id] s1))

/-- ANCHOR_MOVE (16 R605). -/
def execAnchorMove (p : Packet) (s : State) : Answer :=
  .next (fromAnchor 0x46 (fun q t =>
    let a := q.arg0.toNat % 2 ^ 20
    modFab (fun f => { f with anchorId := a, anchor := decide (f.id = a) }) (mgmtStatus q Status.ok t)) p s)

/-- FAB_ASSIGN (16 R603, R627): the anchor takes its ID and goes straight to ADMITTED. -/
def execFabAssign (fn : Nat) (value : BitVec 32) (s : State) : Answer :=
  .next (
    if isMgmtPf fn && s.fab.state == .unassigned && value.getLsbD 31 then
      let id := value.toNat % 2 ^ 20
      recordEvent 0 10 0x0503 0 [id] (recordEvent 0 10 0x0502 0 [id] (modFab (fun f => { f with
        id := id, state := .admitted, anchor := true, anchorId := id, pairs := [] }) s))
    else s)

/-! ### Tables across modules (16 R614, R615) -/

/-- The table a packet names. -/
def packetTable (p : Packet) (s : State) : Option (Nat × Table) :=
  (tableSlot s p.arg0.toNat).bind fun k => (mget s.obj.tables k).map fun t => (k, t)

/-- The 32 bytes of PIN_INFO (16 R620). -/
def pinInfo (t : Table) (v : Nat) : Bytes :=
  leBytes 4 t.id ++ leBytes 4 v ++ leBytes 1 t.fmt ++ leBytes 1 (b2n t.addable + 2 * b2n t.shared + 4 * b2n t.sparse) ++
    leBytes 1 t.frac ++ zeros 1 ++ leBytes 4 t.rowElems ++ leBytes 8 t.nRows ++ leBytes 2 t.owner ++ zeros 6

/-- TABLE_PIN at the home (16 R614). -/
def pinTable (p : Packet) (s : State) : State :=
  let acct := p.account % 4096
  match packetTable p s with
  | none => sendAns p (answerTo p 0x82 Status.tableInvalid) s
  | some (k, t) =>
    let read := p.arg1.getLsbD 0
    let add := p.arg1.getLsbD 1
    if (read && !t.shared && t.owner != acct) || (add && (!t.addable || t.shared || t.owner != acct)) then
      sendAns p (answerTo p 0x82 Status.notPermitted) s
    else
      let v := (currentVersion t).getD 0
      sendAns p (answerTo p 0x82 Status.ok v (pinInfo t v))
        (modVersion k v (fun x => { x with remotePins := x.remotePins ++ [p.src] }) s)

/-- The slot of a table that holds a version, kept tables included: first the one whose version the peer pins (11 R397, R405). -/
def pinnedSlot (s : State) (id v peer : Nat) : Option Nat :=
  ((s.obj.tables.find? fun t => t.2.id == id && ((mget t.2.versions v).map fun x => x.remotePins.contains peer).getD false).map
    Prod.fst).orElse fun _ => (s.obj.tables.find? fun t => t.2.id == id && mhas t.2.versions v).map Prod.fst

/-- The slot of the table that a peer names with a version, or with its number alone where no table holds the version. -/
def namedSlot (s : State) (id v peer : Nat) : Option Nat :=
  (pinnedSlot s id v peer).orElse fun _ => (s.obj.tables.find? fun t => t.2.id == id).map Prod.fst

/-- TABLE_UNPIN at the home (16 R614). -/
def unpinTable (p : Packet) (s : State) : State :=
  let s1 := match namedSlot s p.arg0.toNat (p.arg1.toNat % 2 ^ 32) p.src with
    | some k => modVersion k (p.arg1.toNat % 2 ^ 32) (fun x => { x with remotePins := x.remotePins.erase p.src }) s
    | none => s
  sendStatus p Status.ok (releaseUnused s1)

/-- ROW_READ at the home (16 R614): the version named, a retired one too while it is pinned. -/
def readRowFor (p : Packet) (s : State) : State :=
  let v := rd p.payload 0 4
  match pinnedSlot s p.arg0.toNat v p.src with
  | none => sendAns p (answerTo p 0x83 Status.versionRetired v) s
  | some k =>
    let r := lookupRow k v (p.arg1.toNat % 2 ^ 41) s
    sendAns p (answerTo p 0x83 Status.ok v (r.1.getD [])) r.2

/-- Signed integers of `n` bytes from bytes. -/
def signedInts (n : Nat) : Nat → Bytes → List Int
  | 0, _ => []
  | c + 1, b => toSigned (8 * n) (rd b 0 n) :: signedInts n c (b.drop n)

/-- ROW_ADD at the home (16 R615); an add that the home holds is answered when it is complete (11 R417, R424). -/
def addRowFor (p : Packet) (s : State) : State :=
  let v := rd p.payload 0 4
  let row := p.arg1.toNat % 2 ^ 41
  match (namedSlot s p.arg0.toNat v p.src).bind fun k => (mget s.obj.tables k).map fun t => (k, t) with
  | none => sendAns p (answerTo p 0x81 Status.ok (2 ^ 32)) s
  | some (k, t) =>
    if t.nRows ≤ row then
      sendAns p (answerTo p 0x81 Status.ok 1) (evCount 7 4 1 (modTable k (fun x => { x with dropIndex := x.dropIndex + 1 }) s))
    else
      let n := if t.fmt = 0xC then 8 else 12
      let r := applyAdd k v row { deltas := signedInts n t.rowElems (p.payload.drop 8), ask := some p } s
      if r.1 = .held then r.2 else sendAns p (addAnswer p r.1) r.2

/-! ### Leases (16 R617; 12 R467 to R471) -/

/-- LEASE_REQ at the lender (16 R617; 12 R467). -/
def lendPages (p : Packet) (s : State) : State :=
  let room := min (s.mem.lendMax - lentPages s) (idleBrixjo s / 2097152)
  let n := min (p.arg0.toNat % 2 ^ 20) room
  match lowestFree s.mem.lent 4096 with
  | some k =>
    if s.mem.ctl.getLsbD 1 && decide (p.hops ≤ s.mem.lendHops) && decide (0 < n) then
      sendAns p { answerTo p 0x21 0 n with arg0 := BitVec.ofNat 32 k }
        (modMem (fun m => { m with lent := mset m.lent k { peer := p.src, pages := n } }) s)
    else sendStatus p Status.noResources s
  | none => sendStatus p Status.noResources s

/-- LEASE_RECLAIM at the borrower: the lease's frames are dropped (16 R617; 12 R470). -/
def leaseReclaimed (p : Packet) (s : State) : State :=
  let k := 4096 * p.src + p.arg0.toNat % 4096
  let had := mhas s.mem.borrowed k
  sendStatus p Status.ok (modMem (fun m => { m with borrowed := merase m.borrowed k, reclaims := m.reclaims + b2n had }) s)

/-- LEASE_RELEASE at the lender (16 R617). -/
def leaseReleased (p : Packet) (s : State) : State :=
  let k := p.arg0.toNat % 4096
  sendStatus p Status.ok (match mget s.mem.lent k with
    | some l => if l.peer = p.src then modMem (fun m => { m with lent := merase m.lent k }) s else s
    | none => s)

/-- Execute a VC0 request in its turn (16 R611). -/
def runReq (p : Packet) (s : State) : State :=
  match p.ptype with
  | 0x01 => pinTable p s
  | 0x02 => unpinTable p s
  | 0x03 => readRowFor p s
  | 0x04 => addRowFor p s
  | 0x20 => lendPages p s
  | 0x22 => leaseReclaimed p s
  | 0x23 => leaseReleased p s
  | _ => s

/-- A VC0 request of a type arrives (16 R611, R621). -/
def arriveReq (pt : Nat) (p : Packet) (s : State) : State := arrive pt (receiveReq runReq) p s

def execTablePin (p : Packet) (s : State) : Answer := .next (arriveReq 0x01 p s)
def execTableUnpin (p : Packet) (s : State) : Answer := .next (arriveReq 0x02 p s)
def execRowRead (p : Packet) (s : State) : Answer := .next (arriveReq 0x03 p s)
def execRowAdd (p : Packet) (s : State) : Answer := .next (arriveReq 0x04 p s)
def execLeaseReq (p : Packet) (s : State) : Answer := .next (arriveReq 0x20 p s)
def execLeaseReclaim (p : Packet) (s : State) : Answer := .next (arriveReq 0x22 p s)
def execLeaseRelease (p : Packet) (s : State) : Answer := .next (arriveReq 0x23 p s)

/-- A lease of a peer that still serves. -/
def liveLease (p : Packet) (s : State) : Option Lease :=
  match mget s.mem.lent (p.arg0.toNat % 4096) with
  | some l => if l.peer = p.src ∧ !l.reclaimed then some l else none
  | none => none

/-- LENT_WRITE (16 R617): a frame is placed as received (12 R469). -/
def placeLent (p : Packet) (s : State) : State :=
  let off := p.arg1.toNat % 2 ^ 32
  match liveLease p s with
  | some l =>
    if off % 64 = 0 ∧ off + p.payload.length ≤ l.pages * 2097152 then
      sendAll (answerTo p 0x81 Status.ok) (modMem (fun m => { m with
        lent := mset m.lent (p.arg0.toNat % 4096) { l with frames := mset l.frames off p.payload } }) s)
    else sendAll (answerTo p 0x81 Status.refused) s
  | none => sendAll (answerTo p 0x81 Status.refused) s

def execLentWrite (p : Packet) (s : State) : Answer := .next (arrive 0x24 placeLent p s)

/-- The frame that holds a byte offset, with its start. -/
def frameAt (frames : Map Bytes) (off : Nat) : Option (Nat × Bytes) :=
  frames.find? fun f => decide (f.1 ≤ off) && decide (off < f.1 + f.2.length)

/-- LENT_READ (16 R617): bytes of a frame, or REFUSED after a reclaim.  A read of lent bytes that no LENT_WRITE placed is
answered with free bytes: the spec states none. -/
def readLent (p : Packet) (s : State) : State :=
  let off := p.arg1.toNat % 2 ^ 32
  let n := rd p.payload 0 4
  match liveLease p s with
  | none => sendAll (answerTo p 0x84 Status.refused p.arg1.toNat) s
  | some l =>
    match frameAt l.frames off with
    | some f =>
      sendAll (answerTo p 0x84 Status.ok p.arg1.toNat ((f.2.drop (off - f.1)).take n)) s
    | none =>
      let b := (List.range n).map fun i => (Config.free64 (s.free + i)).setWidth 8
      sendAll (answerTo p 0x84 Status.ok p.arg1.toNat b) { s with free := s.free + n }

def execLentRead (p : Packet) (s : State) : Answer := .next (arrive 0x25 readLent p s)

/-- Forget the question a VC1 packet answers. -/
def clearAsked (p : Packet) (s : State) : State :=
  modPair p.src (fun x => { x with
    asked := x.asked.filter fun r => r.seq != p.pairSeq, unacked := x.unacked.filter fun r => r.seq != p.pairSeq }) s

/-- LEASE_GRANT at the borrower (16 R617). -/
def execLeaseGrant (p : Packet) (s : State) : Answer :=
  .next (arrive 0x21 (fun q t => clearAsked q (modMem (fun m => { m with
    borrowed := mset m.borrowed (4096 * q.src + q.arg0.toNat % 4096) { peer := q.src, pages := q.arg1.toNat % 2 ^ 20 } }) t)) p s)

/-! ### Answers (16 R620) -/

/-- PIN_INFO: the binding is checked against the home's answer (11 R400). -/
def pinAnswered (r : PairReq) (p : Packet) (s : State) : State :=
  let st := p.arg0.toNat % 65536
  let v := p.arg1.toNat % 2 ^ 32
  let tid := r.pkt.arg0.toNat
  match r.who.bind (entryOf s) with
  | none => s
  | some x =>
    let e := r.who.getD 0
    if x.state = .drain then
      if st = Status.ok then sendReq { ptype := 0x02, account := x.account, dst := p.src, arg0 := BitVec.ofNat 32 tid
                                       arg1 := BitVec.ofNat 64 v } none s else s
    else
      let imgs := if x.mode = 4 then [x.genImage] else (x.work.profile.map profileImages).getD []
      let b := (imageBinds s imgs).find? fun b => !b.isLocal && b.table == tid && b.home == p.src
      let fl := rd p.payload 9 1
      let chk := if st ≠ Status.ok then st else match b with
        | some b => bindStatus x.account b (rd p.payload 8 1) (rd p.payload 12 4) (rd p.payload 16 8) (rd p.payload 24 2)
            (fl.testBit 1) (fl.testBit 0)
        | none => Status.tableInvalid
      let s1 := if st = Status.ok then
          modFab (fun f => { f with remotePins := f.remotePins ++ [(p.src, tid, v)] })
            (modWork e (fun w => { w with pins := w.pins ++ [(tid, v, some p.src)], fracs := mset w.fracs tid (rd p.payload 10 1) }) s)
        else s
      let s2 := modWork e (fun w => { w with pinsLeft := w.pinsLeft - 1 }) s1
      if chk = Status.ok then s2 else endEntry e chk 0 x.work.stage 0 s2

/-- ROW_DATA: the row reaches the context that asked, under the key it asked with (16 R614). -/
def rowAnswered (r : PairReq) (p : Packet) (s : State) : State :=
  match r.ctx with
  | none => s
  | some c =>
    if p.arg0.toNat % 65536 = Status.ok then
      modShare c.1 c.2.1 (fun x => { x with
        tensors := mset x.tensors c.2.2 { dims := [], data := p.payload }, asks := x.asks - 1 }) s
    else failUnit c.1 (p.arg0.toNat % 65536) s

/-- STATUS of a ROW_ADD: drops are noted in the run, and the wait ends with the last answer (16 R615; 11 R416, R417). -/
def addAnswered (r : PairReq) (p : Packet) (s : State) : State :=
  let full := p.arg1.toNat % 2 ^ 32
  let gone := p.arg1.toNat / 2 ^ 32
  let s1 := match r.who with
    | some e => modWork e (fun w => { w with dropsFull := w.dropsFull + full, dropsRetired := w.dropsRetired + gone }) s
    | none => s
  match r.ctx with
  | none => s1
  | some c => addDone c.1 c.2.1 s1

/-- LENT_DATA: a frame served from lent memory, or a refused read that drops the lease (12 R470). -/
def lentAnswered (r : PairReq) (p : Packet) (s : State) : State :=
  let k := 4096 * p.src + r.pkt.arg0.toNat % 4096
  if p.arg0.toNat % 65536 = Status.ok then evCount 8 6 1 (modMem (fun m => { m with lentHits := m.lentHits + 1 }) s)
  else
    let had := mhas s.mem.borrowed k
    modMem (fun m => { m with borrowed := merase m.borrowed k, reclaims := m.reclaims + b2n had }) s

/-- The question a VC1 packet answers: by its number, and for LENT_READ, which bears none, by its offset (16 R620). -/
def askedFor (p : Packet) (s : State) : Option PairReq :=
  (pairOf s p.src).asked.find? fun r =>
    if p.ptype = 0x84 then r.pkt.ptype == 0x25 && r.pkt.arg1 == p.arg1 else r.seq == p.pairSeq && r.pkt.ptype != 0x25

/-- An answer reaches the requester (16 R612, R620, R623). -/
def answered (p : Packet) (s : State) : State :=
  if p.arg0.toNat % 65536 = Status.gone then losePeer p.src s
  else match askedFor p s with
    | none => s
    | some r =>
      let s1 := modPair p.src (fun x => { x with
        asked := x.asked.erase r, unacked := x.unacked.filter fun y => y.seq != r.seq }) s
      match r.pkt.ptype with
      | 0x01 => pinAnswered r p s1
      | 0x03 => rowAnswered r p s1
      | 0x04 => addAnswered r p s1
      | 0x22 => modMem (fun m => { m with lent := merase m.lent (r.pkt.arg0.toNat % 4096) }) s1
      | 0x25 => lentAnswered r p s1
      | _ => s1

/-- FAB_ANSWER (16 R620): an answer of a type of R620; the anchor keeps those of management packets for its fabric manager. -/
def execFabAnswer (p : Packet) (s : State) : Answer :=
  .next (
    if p.ptype < 0x81 ∨ 0x85 < p.ptype then s
    else if s.fab.anchor && p.dst == s.fab.id && (askedFor p s).isNone && p.arg0.toNat % 65536 != Status.gone then
      atAnchor p.ptype p s
    else arrive p.ptype answered p s)

/-! ### Reductions (16 R616; 03 R81 to R84) -/

/-- Exponents as bytes, and read back (16 R618). -/
def expBytes (l : List Int) : Bytes := l.flatMap fun r => leBytes 2 (r % 2 ^ 11).toNat
def expsOf (b : Bytes) : List Int := (List.range (b.length / 2)).map fun i => toSigned 11 (rd b (2 * i) 2 % 2 ^ 11)

/-- Partials read from their containers: r, value, flags (03 R81). -/
def partsOf (b : Bytes) : List (Int × Int × BitVec 4) := (List.range (b.length / 16)).map fun i => laccOf ((b.drop (16 * i)).take 16)

/-- Store list elements under rising numbers from `first`. -/
def putFrom {α : Type} (m : Map α) (first : Nat) (l : List α) : Map α := (withPos l).foldl (fun a e => mset a (first + e.1) e.2) m

/-- A packet of a reduction to a member (16 R618). -/
def redPacket (pt k dst : Nat) (payload : Bytes) : Packet :=
  { ptype := pt, dst := dst, arg0 := BitVec.ofNat 32 (k / 2 ^ 32), arg1 := BitVec.ofNat 64 (k % 2 ^ 32), payload := payload }

def modRed (k : Nat) (f : Reduction → Reduction) (s : State) : State :=
  modFab (fun x => { x with reductions := mmod x.reductions k {} f }) s

/-- The other members of a reduction's set. -/
def otherMembers (s : State) (k : Nat) : List Nat := (setIds s (k / 2 ^ 32)).filter (· ≠ s.fab.id)

/-- Bytes of the output elements in a payload, by element count (16 R618; 03 R58). -/
def redBytes (fmt n : Nat) : Nat := if fmt = 0xE then 16 * n else vecBytes fmt n

/-- The elements a chunk of output bytes holds. -/
def chunkElems (fmt len : Nat) : Nat :=
  if fmt = 0xE then len / 16 else if isMx fmt then 32 * len / (4 * elemBits fmt + 1) else 8 * len / elemBits fmt

/-- Flags of an operation that ended away from its context reach the context and its request or run (05 R160). -/
def noteUnit (unit share : Nat) (f : BitVec 4) (s : State) : State :=
  let s1 := modShare unit share (fun c => { c with flags := c.flags ||| f }) s
  match mget s.sched.units unit with
  | some u => gatherUnit u f s1
  | none => s1

/-- The output tensor is written and the context goes on (16 R616, 05 R163).  Elements in LACC96 containers bring the flags
gathered so far with them (03 R81). -/
def finishReduction (k : Nat) (s : State) : State :=
  match mget s.fab.reductions k with
  | none => s
  | some r =>
    let have_ := (r.result.map fun c => chunkElems r.fmtOut c.2.length).sum
    if !r.started || decide (have_ < r.own.length) then s
    else
      let fl := if r.fmtOut = 0xE then orFlags (r.result.flatMap fun c => (partsOf c.2).map fun p => p.2.2) else 0
      let cut (c : Bytes) : Nat := if isMx r.fmtOut then packedLen r.fmtOut (chunkElems r.fmtOut c.length) else c.length
      let data := r.result.flatMap fun c => c.2.take (cut c.2)
      let scales := r.result.flatMap fun c => c.2.drop (cut c.2)
      let put (c : Ctx) : Ctx := { c with
        waiting := false
        tensors := mmod c.tensors r.out { dims := [], data := [] } fun t => { t with data := data, scales := scales } }
      foldS (List.range (shareCount s r.unit)) (fun t i => modShare r.unit i put t)
        (modFab (fun f => { f with reductions := merase f.reductions k }) (noteUnit r.unit r.share fl s))

/-- The root's output of a reduction: each element's partials added exactly, saturated, converted once (03 R83); the elements
are numbered in the output tensor's stored order, so that an MX block lies along its block axis (03 R57, R78). -/
def redOutput (r : Reduction) : Bytes × BitVec 4 :=
  let es := (List.range r.own.length).map fun i =>
    let ps := r.parts.filterMap fun m => mget m.2 i
    let z := saturateAcc ((ps.map fun p => p.2.1).sum)
    let fl := orFlags (ps.map fun p => p.2.2) ||| z.2
    let ri := mgetD r.agreed i 0
    (ri, z.1, fl)
  let vals := es.map fun e => if e.2.2.getLsbD 2 then Fv.nan else Fv.ofDy (accDy e.1 e.2.1)
  if r.fmtOut = 0xE then (es.flatMap fun e => laccBytes e.1 e.2.1 e.2.2, orFlags (es.map fun e => e.2.2))
  else
    let c := convVector r.fmtOut r.saturate vals
    (c.1 ++ c.2.1, c.2.2 ||| orFlags (es.map fun e => e.2.2))

/-- Whether every member of a set has sent every element. -/
def allSent {α : Type} (n elems : Nat) (m : Map (Map α)) : Bool :=
  (List.range n).all fun k => (mgetD m k []).length == elems

/-- The root, once it holds every member's partials: the result goes to every member (16 R616). -/
def rootParts (k : Nat) (s : State) : State :=
  match mget s.fab.reductions k with
  | none => s
  | some r =>
    if !r.started || !allSent (setIds s (k / 2 ^ 32)).length r.own.length r.parts then s
    else
      let o := redOutput r
      let s1 := foldS (otherMembers s k) (fun t id => sendAll (redPacket 0x13 k id o.1) t) s
      finishReduction k (noteUnit r.unit r.share o.2
        (modRed k (fun x => { x with result := [(0, o.1)] }) s1))

/-- Whether what others sent fits the reduction this module has issued: no element beyond its own, and partials at the agreed
exponents (03 R84; 16 R616). -/
def redFits (r : Reduction) : Bool :=
  let n := r.own.length
  (r.exps.all fun m => m.2.all fun e => decide (e.1 < n)) && (r.agreed.all fun e => decide (e.1 < n)) &&
    r.parts.all fun m => m.2.all fun e => decide (e.1 < n) && (match mget r.agreed e.1 with | some a => a == e.2.1 | none => true)

/-- A member's partials at the agreed exponents go to the root (16 R616; 03 R82).  A NaN or infinite summand sets invalid,
and its accumulator value is free (03 R74).  The flags of its own partials reach the requests it runs for here; what the root
finds in adding and converting reaches those of the root, as RED_RESULT carries no flags but in LACC96 containers (DEDUCED,
assumption 45). -/
def sendParts (k : Nat) (s : State) : State :=
  match mget s.fab.reductions k, ownIndex s (k / 2 ^ 32) with
  | some r, some me =>
    if !r.started || decide (r.agreed.length < r.own.length) then s
    else if !redFits r then abortReduction k s
    else
      let ps := (withPos r.own).map fun e =>
        let ri := mgetD r.agreed e.1 0
        match e.2.1 with
        | some d => let a := accumulate ri [d]; (ri, a.1, a.2 ||| e.2.2)
        | none => (ri, freeAcc (s.free + 2 * e.1), e.2.2 ||| flagWord false false true false)
      let s1 := { s with free := s.free + 2 * r.own.length }
      if me = 0 then rootParts k (modRed k (fun x => { x with parts := mset x.parts 0 (putFrom [] 0 ps) }) s1)
      else noteUnit r.unit r.share (orFlags (ps.map fun p => p.2.2))
        (sendAll (redPacket 0x12 k ((setIds s (k / 2 ^ 32)).headD 0) (ps.flatMap fun p => laccBytes p.1 p.2.1 p.2.2)) s1)
  | _, _ => s

/-- The root, once it holds every member's exponents: the maxima go to every member (16 R616; 03 R82). -/
def rootExps (k : Nat) (s : State) : State :=
  match mget s.fab.reductions k with
  | none => s
  | some r =>
    if !r.started || r.fixedR.isSome || !allSent (setIds s (k / 2 ^ 32)).length r.own.length r.exps then s
    else
      let top := (List.range r.own.length).map fun i => (maxInt (r.exps.filterMap fun m => mget m.2 i)).getD 0
      let s1 := foldS (otherMembers s k) (fun t id => sendAll (redPacket 0x11 k id (expBytes top)) t) s
      sendParts k (modRed k (fun x => { x with agreed := putFrom [] 0 top }) s1)

/-- Issue a reduction for a context that waits (16 R616): the number is the count of its ALLREDUCEs on the set. -/
def startReduction (set : Nat) (r : Reduction) (refs : List Int) (s : State) : State :=
  let num := mgetD s.fab.redCount set 0 + 1
  let k := redKey set num
  let s1 := modFab (fun f => { f with redCount := mset f.redCount set num }) s
  let early := mgetD s1.fab.reductions k {}
  let r1 : Reduction := { r with
    started := true, aborted := early.aborted, exps := early.exps, parts := early.parts, result := early.result
    agreed := match r.fixedR with | some x => putFrom [] 0 (r.own.map fun _ => x) | none => early.agreed }
  let s2 := modFab (fun f => { f with reductions := mset f.reductions k r1 }) s1
  match ownIndex s2 set with
  | none => abortReduction k s2
  | some me =>
    if early.aborted then dropReduction k s2
    else if !redFits r1 then abortReduction k s2
    else if r.fixedR.isSome then sendParts k s2
    else if me = 0 then rootExps k (modRed k (fun x => { x with exps := mset x.exps 0 (putFrom [] 0 refs) }) s2)
    else sendParts k (sendAll (redPacket 0x10 k ((setIds s2 set).headD 0) (expBytes refs)) s2)

/-- Key, member and first element of a packet of a reduction. -/
def redOf (p : Packet) (s : State) : Nat × Option Nat × Nat :=
  let set := p.arg0.toNat % 256
  (redKey set (p.arg1.toNat % 2 ^ 32), ((setMembersOf s set).find? fun m => m.2 == p.src).map Prod.fst, p.arg1.toNat / 2 ^ 32)

/-- After a packet of a reduction: it aborts when what came does not fit it. -/
def checkRed (k : Nat) (go : State → State) (s : State) : State :=
  match mget s.fab.reductions k with
  | some r => if r.started && !redFits r then abortReduction k s else go s
  | none => s

/-- RED_EXP at the root (16 R616). -/
def redExp (p : Packet) (s : State) : State :=
  match redOf p s with
  | (k, some m, first) => checkRed k (rootExps k) (modRed k (fun r => { r with
      exps := mset r.exps m (putFrom (mgetD r.exps m []) first (expsOf p.payload)) }) s)
  | (k, none, _) => abortReduction k s

def execRedExp (p : Packet) (s : State) : Answer := .next (arrive 0x10 redExp p s)

/-- RED_AGREE at a member (16 R616). -/
def redAgree (p : Packet) (s : State) : State :=
  match redOf p s with
  | (k, _, first) => checkRed k (sendParts k) (modRed k (fun r => { r with
      agreed := putFrom r.agreed first (expsOf p.payload) }) s)

def execRedAgree (p : Packet) (s : State) : Answer := .next (arrive 0x11 redAgree p s)

/-- RED_PART at the root: a partial at another exponent than the agreed one ends the reduction, whichever comes first
(03 R84). -/
def redPart (p : Packet) (s : State) : State :=
  match redOf p s with
  | (k, some m, first) => checkRed k (rootParts k) (modRed k (fun r => { r with
      parts := mset r.parts m (putFrom (mgetD r.parts m []) first (partsOf p.payload)) }) s)
  | (k, none, _) => abortReduction k s

def execRedPart (p : Packet) (s : State) : Answer := .next (arrive 0x12 redPart p s)

/-- RED_RESULT at a member (16 R616). -/
def redResult (p : Packet) (s : State) : State :=
  match redOf p s with
  | (k, _, first) => finishReduction k (modRed k (fun r => { r with result := mset r.result first p.payload }) s)

def execRedResult (p : Packet) (s : State) : Answer := .next (arrive 0x13 redResult p s)

/-- RED_ABORT at a member (16 R616). -/
def execRedAbort (p : Packet) (s : State) : Answer :=
  .next (arrive 0x14 (fun q t => dropReduction (redKey (q.arg0.toNat % 256) (q.arg1.toNat % 2 ^ 32)) t) p s)

/-! ### Shards (16 R619; 01 R34, R35) -/

/-- The search settings of a SHARD_QUERY. -/
def shardPar (b : Bytes) : SearchParams :=
  { coll := rd b 0 4, entryWalks := rd b 4 1, stallHops := rd b 5 1, queueLen := rd b 6 2, hopBudget := rd b 8 2
    hopCap := rd b 10 2, rescoreIn := rd b 12 2, rescoreKeep := rd b 14 2, k := rd b 16 2
    noWiden := (rd b 18 1).testBit 0, verify := (rd b 18 1).testBit 1 }

/-- The search work a SHARD_QUERY asks for: the committed epoch and the filters are pinned now. -/
def shardWorkOf (s : State) (p : Packet) (c : Collection) : SearchWork :=
  let b := p.payload
  let dim := rd b 20 2
  let vec := (List.range dim).map fun i => f32Val (rd b (64 + 4 * i) 4)
  let ex := (b.drop 24).take 16
  let sk := (b.drop (64 + 4 * dim)).take 64
  { par := shardPar b, filters := (filterIds ex).filterMap fun i => mget s.obj.filters i
    ops := (filterOps ex).map filterOpOf, epoch := c.epoch, vector := vec.map Fv.dy
    acct := p.account % 4096, vexps := (blocks32 vec.length vec).map blockExpFp, sketch := leNat (sk.take (c.desc.sketchBits / 8))
    table := pqTableOf ((b.drop (128 + 4 * dim)).take (rd b 40 4)), exact := usesExact s c
    origin := some (p.src, p.arg0.toNat % 16384) }

/-- A whole SHARD_QUERY: stage 5 runs, and its walks wait for credits; one that names no collection or filter of this module,
or finds no free tag, gets no answer and is missing at its originator. -/
def shardQuery (p : Packet) (s : State) : State :=
  let id := rd p.payload 0 4
  match mget s.obj.collections id, freeTag s with
  | some c, some tag =>
    let ex := (p.payload.drop 24).take 16
    let known := (filterIds ex).all fun i => match mget s.obj.filters i with | some f => f.coll == id | none => false
    if c.deleted || !known || rd p.payload 20 2 != c.desc.dim then s
    else
      let n := (lowestFree s.search.shardWork 16384).getD 0
      let w := { shardWorkOf s p c with
        tag := some tag, heldHere := s.search.hold, heldPlace := if s.search.hold then some s.search.nextWait else none }
      let s1 := modSearch (fun r => { r with
        shardWork := mset r.shardWork n w, tags := mset r.tags tag (true, n), nextWait := r.nextWait + b2n s.search.hold }) s
      if w.heldHere then s1 else startShard n w s1
  | _, _ => s

def execShardQuery (p : Packet) (s : State) : Answer := .next (arrive 0x18 shardQuery p s)

/-- The distance a rank key stands for: of the originator's table, or d of an exact search (09 R324, R326). -/
def keyDist (w : SearchWork) (key : Int) : BitVec 32 :=
  if w.exact then BitVec.ofInt 32 key ^^^ 0x80000000 else pqDist w.table (-key).toNat

/-- The entries of a SHARD_LIST (16 R619). -/
def shardEntries (b : Bytes) : List Scored :=
  (List.range (rd b 0 2)).map fun i =>
    let o := 32 + 16 * i
    let hd := rd b o 8
    { id := hd % 2 ^ 40, home := hd / 2 ^ 40, key := toSigned 32 (rd b (o + 8) 4) }

/-- A shard's list arrives in time, the cycle in which the wait elapses among them, or is dropped (01 R35, 09 R325). -/
def shardList (p : Packet) (s : State) : State :=
  let owed := (p.arg0.toNat % 16384, p.src)
  if s.search.owed.contains owed then modSearch (fun r => { r with owed := r.owed.erase owed }) s
  else match mget s.search.tags (p.arg0.toNat % 16384) with
  | some (false, e) =>
    match entryOf s e with
    | some x =>
      match x.work.search.shardsLeft.find? fun m => m.2 == p.src with
      | some m =>
        if x.work.search.shardUntil < now s then s
        else modSearchWork e (fun w => { w with
          shardLists := mset w.shardLists m.1 ((shardEntries p.payload).map fun y => { y with dist := keyDist w y.key })
          shardsLeft := w.shardsLeft.filter fun y => y.1 != m.1
          hops := w.hops + rd p.payload 8 4, badHops := w.badHops + rd p.payload 12 4
          admitted := w.admitted + rd p.payload 4 4 }) s
      | none => s
    | none => s
  | _ => s

def execShardList (p : Packet) (s : State) : Answer := .next (arrive 0x19 shardList p s)

/-! ### Fabric registers (16 R624 to R631) -/

/-- FAB_RT_DATA_WRITE (16 R606, R609). -/
def writeRoute (value : BitVec 32) (s : State) : State :=
  let i := s.fab.rtSel.toNat % 2 ^ 14
  let v := value &&& 0x3FFF
  modFab (fun f => if f.rtSel.getLsbD 14 then { f with rtGroup := mset f.rtGroup i v } else { f with rtLocal := mset f.rtLocal i v }) s

def execFabRtDataWrite (fn : Nat) (value : BitVec 32) (s : State) : Answer :=
  .next (if isMgmtPf fn then writeRoute value s else s)

/-- The set FAB_SET_SEL selects. -/
def selSet (s : State) : Nat := s.fab.setSel.toNat % 256

/-- FAB_SET_CTL.busy: a loaded profile names the set, or it has a live reduction (16 R631). -/
def setBusy (s : State) (set : Nat) : Bool :=
  (s.obj.profiles.any fun p => (match p.2.cur with | some c => c.shardSet == set | none => false)) && set != 0 ||
    !(reductionsOn s fun x => x == set).isEmpty

/-- Resize the selected set: the members beyond are gone, and its reductions are counted anew (16 R616, R631). -/
def sizeSet (n : Nat) (s : State) : State :=
  let set := selSet s
  if set = 0 ∨ setBusy s set ∨ 65536 < n then s
  else modFab (fun f => { f with
    setSizes := mset f.setSizes set n, redCount := merase f.redCount set
    setMembers := f.setMembers.filter fun m => m.1 / 65536 != set || decide (m.1 % 65536 < n) }) s

/-- FAB_SET_CLEAR (16 R631). -/
def execFabSetClear (fn : Nat) (s : State) : Answer := .next (if isMgmtPf fn then sizeSet 0 s else s)

end Sys2Proof.Machine
end

