-- ==== Sys2Proof/Machine/Image.lean ====
section
/-! DEFINITION. Model images: their layout, validation in the order of its reasons, the cost of a section, loading and
unloading (05 R143 to R158, R161 to R163, R181 to R183; 10 R349, R350; 18 R668 to R671). -/

namespace Sys2Proof.Machine

/-! ### Signed objects (18 R668 to R671) -/

/-- Whether a signature section is laid out as 18 R668 and carries the kind. -/
def sigForm (kind : Nat) (b : Bytes) : Bool :=
  decide (160 ≤ b.length) && rd b 0 4 == 0x53474953 && rd b 4 1 == kind && decide (rd b 5 1 ≤ 1) &&
  inRange 1 4 (rd b 6 2) && decide (160 + rd b 12 4 ≤ b.length) && (b.drop 148).take 12 == zeros 12

/-- Keys revoked by the configuration record in effect (18 R672). -/
def revokedKeys (s : State) : List Bytes := (s.sec.config.map (·.revoked)).getD []

/-- The floor of a kind (18 R671). -/
def floorOf (s : State) (kind : Nat) : Nat := (s.sec.floors[kind]?).getD 0

/-- Whether an object is accepted under 18 R670 but for its floor. -/
def sigVerifies (s : State) (kind : Nat) (signed sig : Bytes) : Bool :=
  sigForm kind sig && Config.signatureOk kind signed sig (revokedKeys s)

/-- Raise a floor when an object with raise_floor takes effect (18 R671). -/
def raiseFloor (kind : Nat) (sig : Bytes) (s : State) : State :=
  if (rd sig 5 1).testBit 0 then modSec (raiseFloorTo kind (rd sig 8 4)) s else s

/-- The signed range and the section of an object that ends with its sig_off (18 R669). -/
def splitSigned (o : Bytes) : Bytes × Bytes :=
  let n := rd o (o.length - 8) 8
  (o.take n, (o.take (o.length - 8)).drop n)

/-- Whether an object that ends with its sig_off is accepted (18 R670). -/
def objectAccepted (s : State) (kind : Nat) (o : Bytes) : Bool :=
  let x := splitSigned o
  decide (8 ≤ o.length) && sigVerifies s kind x.1 x.2 && decide (floorOf s kind ≤ rd x.2 8 4)

/-! ### Tensors (05 R151, R152) -/

/-- Read a tensor descriptor. -/
def tensorOf (b : Bytes) : TensorDesc :=
  let f := rd b 3 1
  { fmt := rd b 0 1 % 16, axis := bitsOf (rd b 0 1) 6 4, rank := rd b 1 1, tier := rd b 2 1, constant := f.testBit 0
    compressed := f.testBit 1, hasShadow := f.testBit 2, shift := toSigned 8 (rd b 4 1)
    dims := (List.range (rd b 1 1)).map fun i => rd b (8 + 4 * i) 4, dataOff := rd b 32 8, dataLen := rd b 40 8, shadow := rd b 48 4 }

/-- Structure of a tensor descriptor (05 R151, R152; 03 R57). -/
def tensorForm (payload : Nat) (b : Bytes) : Bool :=
  let t := tensorOf b
  (offending 0 b (maskOf 64 [(0, 1, 0x7F), (1, 1, 0xFF), (2, 1, 0xFF), (3, 1, 7), (4, 1, 0xFF), (8, 24, 2 ^ 192 - 1), (32, 8, all64),
    (40, 8, all64), (48, 4, all64)])).isNone &&
  decide (t.fmt ≤ 0xE) && inRange 1 6 t.rank && (t.tier == 0 || t.tier == 1 || t.tier == 3 || t.tier == 4) &&
  (t.fmt == 0xA || t.shift == 0) &&
  (t.dims.all fun d => decide (1 ≤ d % 2 ^ 28) && (!d.testBit 31 || decide (bitsOf d 30 28 ≤ 4))) &&
  ((List.range 6).all fun i => decide (i < t.rank) || rd b (8 + 4 * i) 4 == 0) &&
  (!isMx t.fmt || (decide (t.axis < t.rank) && (t.dims[t.axis]?).getD 0 % 32 == 0)) &&
  (if t.constant then decide (t.dataOff + t.dataLen ≤ payload) else t.dataOff == 0 && t.dataLen == 0) &&
  (t.hasShadow || t.shadow == 0)

/-! ### Operations (05 R158, R162) -/

/-- Split an operation list into records, none when a length breaks R158. -/
def splitOps : Nat → Bytes → Option (List Bytes)
  | 0, b => if b.isEmpty then some [] else none
  | n + 1, b =>
    if b.isEmpty then some []
    else
      let u := 32 * rd b 3 1
      if u = 0 ∨ 64 * 32 < u ∨ b.length < u then none
      else (splitOps n (b.drop u)).map fun l => b.take u :: l

/-- Read an operation record. -/
def opOf (b : Bytes) : Op :=
  let io := rd b 6 1
  { opcode := rd b 0 2, sub := rd b 2 1, saturate := (rd b 4 2).testBit 0, draft := (rd b 4 2).testBit 1
    ins := (List.range (io % 8)).map fun i => rd b (8 + 4 * i) 4
    outs := (List.range (io / 16 % 4)).map fun i => rd b (24 + 4 * i) 4, params := b.drop 32 }

/-- The largest sub code of an opcode (05 R162), none when the opcode is not listed. -/
def subLimit (op : Nat) : Option Nat :=
  match op with
  | 0x0002 => some 1
  | 0x0010 => some 13
  | 0x0011 => some 5
  | 0x0015 => some 1
  | 0x0016 => some 1
  | 0x0020 => some 2
  | 0x0052 => some 1
  | _ => if [0x0000, 0x0001, 0x0012, 0x0013, 0x0014, 0x0021, 0x0030, 0x0031, 0x0032, 0x0033, 0x0040, 0x0041, 0x0042, 0x0050,
      0x0051, 0x0053, 0x0060, 0x0061, 0x0070, 0x0071, 0x0072, 0x0073, 0x0074].contains op then some 0 else none

/-- The descriptors of a MATMUL_GROUP, none when the parameters do not hold whole ones. -/
def splitPasses : Nat → Bytes → Option (List Bytes)
  | 0, b => if b.isEmpty then some [] else none
  | n + 1, b =>
    if b.isEmpty then some []
    else if b.length < passDescLen b then none
    else (splitPasses n (b.drop (passDescLen b))).map fun l => b.take (passDescLen b) :: l

/-- The descriptors an operation holds. -/
def Op.passes (o : Op) : List Bytes := (splitPasses 64 o.params).getD []

/-- Structure of a MATMUL_GROUP: the first descriptors of its group, in order (04 R126, R127). -/
def matmulForm (o : Op) : Bool :=
  match splitPasses 64 o.params with
  | some (d :: ds) => ((d :: ds).all passForm) && decide ((d :: ds).length ≤ (passOf d).len)
  | _ => false

/-- Whether an operation waits at the PREEMPT_POINT that must follow it (05 R163). -/
def waitsAfter (o : Op) : Bool := o.opcode == 0x0021 || (o.opcode == 0x0052 && o.sub == 1) || inRange 0x0070 0x0074 o.opcode

/-- The input a selection reads, by key_type (09 R319). -/
def keyFmt (k : Nat) : Nat := match k with | 0 => 0 | 1 => 1 | 2 => 2 | _ => 0xC

/-- The parameter unit of a selection (09 R313, R316, R319). -/
def selectForm (tds : List TensorDesc) (o : Op) : Bool :=
  let p := o.params
  let k := rd p 0 2
  let bucket := o.opcode == 0x0032
  match (o.ins[0]?).bind (tensorAt tds), (o.outs[0]?).bind (tensorAt tds) with
  | some t, some out =>
    let n := (t.maxDims.getLast?).getD 1
    let b := rd p 4 2
    p.length == 32 &&
    (offending 0 p (maskOf 32 [(0, 2, all64), (2, 1, 3), (3, 1, 1), (4, 2, all64), (6, 2, all64), (8, 2, all64)])).isNone &&
    (if o.opcode = 0x0030 then k == 1 else inRange 1 256 k) && t.fmt == keyFmt (rd p 2 1) &&
    decide (n ≤ if bucket then 268435455 else 16777216) &&
    (if bucket then inRange 2 4096 b && b == 2 ^ Nat.log2 b && decide (b ≤ n) && decide (rd p 8 2 ≤ k) &&
        (if rd p 8 2 = 0 then decide (1 ≤ rd p 6 2) else rd p 6 2 == 0)
      else b == 0 && rd p 6 2 == 0 && rd p 8 2 == 0) &&
    (!(rd p 3 1).testBit 0 || (match (o.ins[1]?).bind (tensorAt tds) with | some m => m.fmt == 0xB && m.dims == t.dims | none => false)) &&
    out.fmt == 0xA && out.dims.getLast? == some (64 + 8 * k)
  | _, _ => false

/-- ROPE's innermost dimension is even; COPY runs between tiers 0, 1 and 4 (05 R162, R167; DEDUCED, assumption 37: an operation
that breaks the catalogue's terms for its operands has no valid structure). -/
def operandsForm (tds : List TensorDesc) (o : Op) : Bool :=
  let of_ (l : List Nat) : List TensorDesc := l.filterMap (tensorAt tds)
  if o.opcode = 0x14 then (of_ (o.ins.take 1)).all fun t => (t.maxDims.getLast?).getD 0 % 2 == 0
  else if o.opcode = 0x53 then (of_ (o.ins ++ o.outs)).all fun t => t.tier != 3
  else true

/-- Structure of one operation, followed by the opcode of the next (05 R158, R161 to R163; 11 R408, R412). -/
def opForm (sram : Nat) (tds : List TensorDesc) (b : Bytes) (next : Option Nat) : Bool :=
  let o := opOf b
  let io := rd b 6 1
  (match subLimit o.opcode with | some m => decide (o.sub ≤ m) | none => false) &&
  decide (rd b 4 2 ≤ 3) && io &&& 0xC8 == 0 && decide (io % 8 ≤ 4) && decide (io / 16 ≤ 2) && rd b 7 1 == 0 &&
  ((List.range 4).all fun i => decide (i < io % 8) || rd b (8 + 4 * i) 4 == 0) &&
  ((List.range 2).all fun i => decide (i < io / 16) || rd b (24 + 4 * i) 4 == 0) &&
  (if o.opcode = 0 then o.params.length == 32 && rd o.params 0 4 % 64 == 0 && decide (rd o.params 0 4 ≤ sram) &&
      o.params.drop 4 == zeros 28
    else if o.opcode = 1 then matmulForm o
    else if inRange 0x30 0x32 o.opcode then selectForm tds o
    else if inRange 0x50 0x52 o.opcode then o.params.length == 32 && o.params.drop 4 == zeros 28
    else operandsForm tds o) &&
  (!waitsAfter o || next == some 0)

/-- Structure of every operation. -/
def opsForm (sram : Nat) (tds : List TensorDesc) : List Bytes → Bool
  | [] => true
  | b :: bs => opForm sram tds b (bs.head?.map fun x => rd x 0 2) && opsForm sram tds bs

/-! ### The other sections (05 R155, R156; 11 R398) -/

def relayOf (b : Bytes) : RelayEntry :=
  { seq := rd b 0 4, target := rd b 4 4, first := rd b 8 8, count := rd b 16 4, needOp := rd b 20 4, deadlineUs := rd b 24 4
    fromTier := rd b 28 1, fallback := rd b 29 1 }
def relayForm (nOps : Nat) (b : Bytes) : Bool :=
  let r := relayOf b
  inRange 1 100000 r.deadlineUs && inRange 1 3 r.fromTier && decide (r.fallback ≤ 2) && rd b 30 2 == 0 && decide (r.needOp < nOps)

def bindOf (b : Bytes) : TableBind :=
  let a := rd b 5 1
  let h := rd b 12 4
  { table := rd b 0 4, fmt := rd b 4 1, read := a.testBit 0, add := a.testBit 1, rowElems := rd b 8 4, home := h % 2 ^ 20
    isLocal := h.testBit 31, nRows := rd b 16 8 }
def bindForm (b : Bytes) : Bool :=
  (offending 0 b (maskOf 32 [(0, 4, all64), (4, 1, 0xFF), (5, 1, 3), (8, 4, all64), (12, 4, 0x800FFFFF), (16, 8, all64)])).isNone &&
  decide (rd b 4 1 ≤ 0xE)

/-- The records of a section, none when its length is no multiple of theirs. -/
def records (n : Nat) (b : Bytes) : Option (List Bytes) :=
  if b.length % n = 0 then some ((List.range (b.length / n)).map fun i => (b.drop (n * i)).take n) else none

/-! ### The image -/

/-- A section's offset and length (05 R148). -/
def sectionAt (o : Bytes) (i : Nat) : Nat × Nat := (rd o (32 + 16 * i) 8, rd o (40 + 16 * i) 8)
def sectionBytes (o : Bytes) (i : Nat) : Bytes := let x := sectionAt o i; (o.drop x.1).take x.2

/-- Sections lie in order, aligned, without overlap, within the image, the signature last (05 R149). -/
def sectionsFit (len : Nat) : Nat → List (Nat × Nat) → Bool
  | _, [] => true
  | lo, (a, n) :: l =>
    if n = 0 then sectionsFit len lo l
    else a % 64 == 0 && decide (lo ≤ a) && decide (a + n ≤ len) && sectionsFit len (a + n) l

/-- Usable bits of the header (05 R148). -/
def imageMask : List Nat :=
  maskOf 256 [(0, 4, all64), (4, 2, all64), (6, 1, 0xFF), (8, 4, all64), (12, 4, all64), (16, 4, all64), (20, 4, all64),
    (24, 4, all64), (28, 2, all64), (32, 112, 2 ^ 896 - 1)]

/-- What an image's bytes spell, as far as they can be split into records. -/
structure ImageParts where
  tensors : List Bytes
  ops : List Bytes
  relay : List Bytes
  tables : List Bytes
  shadows : List Bytes
  payload : Bytes
  sig : Bytes
deriving DecidableEq, Repr

def imageParts (o : Bytes) : Option ImageParts :=
  match records 64 (sectionBytes o 0), splitOps (sectionBytes o 1).length (sectionBytes o 1), records 32 (sectionBytes o 2),
      records 32 (sectionBytes o 3), records 16 (sectionBytes o 4) with
  | some t, some p, some r, some b, some h =>
    some { tensors := t, ops := p, relay := r, tables := b, shadows := h, payload := sectionBytes o 5, sig := sectionBytes o 6 }
  | _, _, _, _, _ => none

/-- Structure: reason 3 (05 R148 to R163; 18 R668, R669). -/
def imageForm (o : Bytes) (p : ImageParts) : Bool :=
  let tds := p.tensors.map tensorOf
  decide (256 ≤ o.length) && (offending 0 (o.take 256) imageMask).isNone && rd o 0 4 == 0x49464C4B && rd o 4 2 == 1 &&
  decide (rd o 6 1 ≤ 5) && rd o 24 4 % 64 == 0 && inRange 1 320 (rd o 28 2) &&
  sectionsFit o.length 256 ((List.range 7).map (sectionAt o)) && sigForm 3 p.sig && rd p.sig 8 4 == rd o 16 4 &&
  p.tensors.all (tensorForm p.payload.length) && opsForm (rd o 24 4) tds p.ops && p.relay.all (relayForm p.ops.length) &&
  p.tables.all bindForm && p.shadows.all fun b => rd b 8 8 == 0

/-- Operand formats: reason 4 (03 R65, 04 R109). -/
def imageFormats (ops : List Op) : Bool :=
  ops.all fun o => o.opcode != 1 || o.passes.all fun b => passFormats (passOf b)

/-- Accumulation length: reason 5 (03 R73); FP32 contributes six products per pair. -/
def imageCounts (ops : List Op) : Bool :=
  ops.all fun o => o.opcode != 1 || (match o.passes.head?.map passOf with
    | some p => p.probs.all fun x => decide (p.depth x * (if p.fmtA = 0 then 6 else 1) * p.len ≤ 2 ^ 32)
    | none => true)

/-- Pass indices of a group's descriptors rise from 0. -/
def indicesRise : Nat → List Pass → Bool
  | _, [] => true
  | i, p :: ps => p.index == i && indicesRise (i + 1) ps

/-- Pass-group consistency and overlap: reason 6 (04 R111, R114). -/
def imageGroups (ops : List Op) : Bool :=
  ops.all fun o => o.opcode != 1 || (match o.passes.map passOf with
    | p :: ps => indicesRise 0 (p :: ps) && ps.all (sameGroup p) && !outputsMeet p && !anyPair tilesMeet p.probs
    | [] => true)

/-- SRAM: reason 7 (05 R147, R148, R153). -/
def imageSram (sram : Nat) (tds : List TensorDesc) (ops : List Op) : Bool :=
  decide (sram ≤ 6029312) && (tds.all fun t => t.tier != 0 || decide (t.maxBytes ≤ sram)) &&
  ops.all fun o => o.opcode != 1 || o.passes.all fun b => inAlloc sram (passOf b)

/-! ### The cost of a section (05 R181 to R183) -/

/-- Elements of an operand at its largest extents. -/
def operandElems (tds : List TensorDesc) (t : Option Nat) : Nat := ((t.bind (tensorAt tds)).map fun d => elemsOf d.maxDims).getD 0

/-- Bytes an operation moves to or from tiers 1 and 4: its operands there, and the table rows of a gather or of local adds, which
lie in Brixjo when they move (05 R183; 12 R433). -/
def movedBytes (tds : List TensorDesc) (binds : List TableBind) (o : Op) : Nat :=
  let rows := match binds[rd o.params 0 4]?, (o.ins[0]?).bind (tensorAt tds) with
    | some b, some t => if inRange 0x50 0x51 o.opcode ∨ (o.opcode = 0x52 ∧ o.sub = 0) then elemsOf t.maxDims * slotBytesOf b.fmt b.rowElems else 0
    | _, _ => 0
  rows + ((o.ins ++ o.outs).map fun t => match tensorAt tds t with
    | some d => if d.tier = 1 ∨ d.tier = 4 then d.maxBytes else 0
    | none => 0).sum

/-- Bytes an exponent scan reads for one pass (04 R106). -/
def scanBytes (p : Pass) : Nat :=
  if p.probs.all fun x => decide (x.ref < 2048) then 0
  else
    let part (fmt depth n : Nat) : Nat := if isMx fmt then depth / 32 * n else if fmt ≤ 2 then packedLen fmt depth * n else 0
    (p.probs.map fun x => part p.fmtB (p.stored x) (32 * x.cols) + part p.fmtA (p.depth x) x.nVec).sum

def ceilDiv (a b : Nat) : Nat := (a + b - 1) / b

/-- Cost of one operation in cycles (05 R183). -/
def opCost (tds : List TensorDesc) (binds : List TableBind) (o : Op) : Nat :=
  let ins (i : Nat) : Nat := operandElems tds (o.ins[i]?)
  let outs := operandElems tds (o.outs[0]?)
  let dims (i : Nat) : List Nat := (((o.ins[i]?).bind (tensorAt tds)).map (·.maxDims)).getD []
  match o.opcode with
  | 0x0001 => match o.passes.head?.map passOf with
    | some p => 128 * passSlots p.fmtA * p.len + 128 * passSlots p.fmtA + 267 + ceilDiv (scanBytes p * p.len) 256
    | none => 0
  | 0x0002 =>
    let q := dims 0
    let keys := ((dims 1)[0]?).getD 0
    let rows := elemsOf (q.take (q.length - 1))
    let bytes := (([1, 2].map fun i => ((o.ins[i]?).bind (tensorAt tds)).map (·.maxBytes)).map fun x => x.getD 0).sum
    Config.attnPassCost q (dims 1) + (3 * ceilDiv (rows * keys) 128 + 128) + (2000 + ceilDiv bytes 64)
  | 0x0015 => 3 * ceilDiv (ins 0) 128 + 128
  | 0x0016 => 3 * ceilDiv (ins 0) 128 + 128
  | c =>
    if inRange 0x10 0x14 c then ceilDiv outs 128 + 64
    else if c = 0x20 ∨ inRange 0x30 0x33 c ∨ c = 0x42 then 2 * ceilDiv (ins 0) 128 + 128
    else if waitsAfter o ∨ c = 0 then 0
    else 2000 + ceilDiv (movedBytes tds binds o) 64

/-- The costs of the sections of an operation list, its relay-fetch terms included (05 R181, R183). -/
def sectionCosts (tds : List TensorDesc) (binds : List TableBind) (relay : List RelayEntry) : Nat → Nat → List Op → List Nat
  | _, acc, [] => [acc]
  | i, acc, o :: os =>
    let fetch := ((relay.filter fun r => r.needOp == i).map fun r => r.deadlineUs * 900).sum
    if o.opcode = 0 then (acc + fetch) :: sectionCosts tds binds relay (i + 1) 0 os
    else sectionCosts tds binds relay (i + 1) (acc + fetch + opCost tds binds o) os

/-! ### References (05 R155, R157) -/

/-- Relay order: reason 9 (05 R157). -/
def relayOrder (tds : List TensorDesc) : List RelayEntry → Bool
  | [] => true
  | r :: rs =>
    (match rs with | n :: _ => decide (r.seq < n.seq) && decide (r.needOp ≤ n.needOp) | [] => true) &&
    (match r.fallback with
     | 0 => !r.target.testBit 31 && (match tensorAt tds r.target with | some t => t.hasShadow | none => true)
     | 2 => r.target.testBit 31
     | _ => true) && relayOrder tds rs

/-- Whether a tensor is the shadow of another (05 R155). -/
def isShadowOf (t x : TensorDesc) : Bool :=
  x.fmt == 9 && x.rank == t.rank && x.dims == t.dims && x.axis == t.axis && x.tier == 1

/-- References: reason 11 (05 R147, R151, R155 to R158; 11 R398). -/
def referencesOk (p : ImageParts) (tds : List TensorDesc) (ops : List Op) (relay : List RelayEntry) : Bool :=
  let shadows := p.shadows.map fun b => (rd b 0 4, rd b 4 4)
  (ops.all fun o => (o.ins ++ o.outs).all fun t => decide (t ≤ tds.length)) &&
  (relay.all fun r => if r.target.testBit 31 then decide (r.target % 2 ^ 31 < p.tables.length) else inRange 1 tds.length r.target) &&
  (shadows.all fun x => match tensorAt tds x.1, tensorAt tds x.2 with
    | some t, some y => t.hasShadow && t.shadow == x.2 && isShadowOf t y | _, _ => false) &&
  (((List.range tds.length).zip tds).all fun x => !x.2.hasShadow || shadows.contains (x.1 + 1, x.2.shadow)) &&
  ops.all fun o => !(o.opcode == 0x50 || o.opcode == 0x51 || o.opcode == 0x52) || decide (rd o.params 0 4 < p.tables.length)

/-! ### Validation and loading -/

/-- The microcode version an image is held against: the staged one, or the lowest that runs when none is staged (17 R658;
assumption 8). -/
def loadedUcode (s : State) : Nat :=
  let on := (List.range 320).filter fun g => (clusterOf s g).powered && !(clusterOf s g).retired
  match s.boot.stagedUcode, on.map fun g => (clusterOf s g).ucode with
  | some v, _ => v
  | none, [] => 0
  | none, u :: us => us.foldl min u

/-- The reason an image is refused for (05 R147), none when it is valid. -/
def imageReason (s : State) (owner : Option Nat) (o : Bytes) : Option Nat :=
  let sec := sectionAt o 6
  if !(decide (256 ≤ o.length) && Config.signatureOk 3 (o.take sec.1) (sectionBytes o 6) (revokedKeys s)) then some 1
  else if rd o 16 4 < floorOf s 3 then some 2
  else match imageParts o with
    | none => some 3
    | some p =>
      let tds := p.tensors.map tensorOf
      let ops := p.ops.map opOf
      let relay := p.relay.map relayOf
      if !imageForm o p then some 3
      else if !imageFormats ops then some 4
      else if !imageCounts ops then some 5
      else if !imageGroups ops then some 6
      else if !imageSram (rd o 24 4) tds ops then some 7
      else if (sectionCosts tds (p.tables.map bindOf) relay 0 0 ops).any fun c => decide (1800000 < c) then some 8
      else if !relayOrder tds relay then some 9
      else if loadedUcode s < rd o 20 4 then some 10
      else if !referencesOk p tds ops relay then some 11
      else if (match owner with | some a => !acctExists s a | none => false) then some 12
      else none

/-- The extents of the dynamic dimensions of a source; 2^28 − 1 when there is none. -/
def largestExtent (tds : List TensorDesc) (source : Nat) : Nat :=
  let l := tds.flatMap fun t => t.dims.filterMap fun d => if d.testBit 31 ∧ bitsOf d 30 28 = source then some (d % 2 ^ 28) else none
  if l.isEmpty then 2 ^ 28 - 1 else l.foldl max 0

/-- Bytes of a key-value page: for each attention layer, the 16 positions of its keys and values, one tensor that serves as
both counted once, each layer's block on a 64-byte boundary (10 R349). -/
def pageBytesOf (tds : List TensorDesc) (ops : List Op) : Nat :=
  ((kvLayers ops).map fun p =>
    roundUp (((if p.1 = p.2 then [p.1] else [p.1, p.2]).map fun id => match tensorAt tds id with
      | some t => tensorBytesOf t.fmt (16 :: t.maxDims.drop 1)
      | none => 0).sum) 64).sum

/-- Make room for a load: cache copies are evicted, then leases reclaimed, as the room is needed (10 R350; 12 R435, R436,
R470). -/
def makeRoom (need : Nat) (s : State) : State :=
  let s1 := evictFor need (evictOrder s) s
  reclaimFor need (s1.mem.lent.map Prod.fst) s1

/-- The image that valid bytes spell. -/
def imageOf (o : Bytes) (p : ImageParts) (owner : Option Nat) (kvPages : Nat) : Image :=
  let tds := p.tensors.map tensorOf
  let ops := p.ops.map opOf
  { owner := owner.getD 0, shared := owner.isNone, kind := rd o 6 1, imageId := rd o 8 4, version := rd o 12 4
    minMicrocode := rd o 20 4, sram := rd o 24 4, span := rd o 28 2, tensors := tds, ops := ops, relay := p.relay.map relayOf
    tables := p.tables.map bindOf, payload := p.payload, digest := Config.sha512 o, kvPages := kvPages
    pageBytes := pageBytesOf tds ops, freePages := List.range kvPages, maxPrompt := largestExtent tds 1
    maxBatch := largestExtent tds 0, maxStepTokens := largestExtent tds 1 }

/-- A free handle from a choice on: non-zero and not held by a loaded image (05 R144). -/
def freeHandle (m : Map Image) (h : Nat) : Nat → Nat
  | 0 => h
  | n + 1 => if h ≠ 0 ∧ !mhas m h then h else freeHandle m ((h + 1) % 2 ^ 32) n

/-- The loaded image that a load matches (05 R145). -/
def sameImage (s : State) (owner : Option Nat) (o : Bytes) : Option Nat :=
  (s.obj.images.find? fun i => !i.2.unloaded && i.2.imageId == rd o 8 4 && i.2.version == rd o 12 4 &&
    (match owner with | some a => !i.2.shared && i.2.owner == a | none => i.2.shared)).map Prod.fst

/-- IMAGE_LOAD (05 R144, R145, R147; 10 R350). -/
def imageLoadBody (h : HostCmd) (s : State) : Reply :=
  let o := cmdBody h (cmdLen0 h)
  let owner := if (cmdParam h).testBit 15 then none else some (cmdParam h % 4096)
  let kv := bitsOf (cmdParam h) 39 16
  if (rd o 6 1 == 2 || rd o 6 1 == 3) != decide (0 < kv) then deny Status.descMalformed s 58
  else match sameImage s owner o with
    | some k => okWith s k
    | none =>
      let s := evCount 12 2 1 s
      match imageReason s owner o, imageParts o with
      | none, some p =>
        let i := imageOf o p owner kv
        if freeBrixjo s < i.payload.length + kv * i.pageBytes then deny Status.noResources s
        else
          let k := freeHandle s.obj.images (Config.handleChoice s.obj.handleDraws).toNat (s.obj.images.length + 2)
          okWith (raiseFloor 3 p.sig (modObj (fun x => { x with images := mset x.images k i, handleDraws := x.handleDraws + 1 })
            (makeRoom (i.payload.length + kv * i.pageBytes) s))) k
      | some r, _ => deny Status.imageInvalid s r
      | none, none => deny Status.imageInvalid s 3

def execImageLoad (h : HostCmd) (s : State) : Answer := .next (runCmd 0x22 h (fun _ t => imageLoadBody h t) s)

/-- IMAGE_UNLOAD (05 R146, 10 R359): new use ends at once, and the image's batons are released. -/
def imageUnloadBody (h : HostCmd) (s : State) : Reply :=
  let k := cmdParam h % 2 ^ 32
  match mget s.obj.images k with
  | none => deny Status.imageInvalid s
  | some i =>
    if i.unloaded then deny Status.imageInvalid s
    else if (loadedProfiles s).any fun p => p.encoder == k || p.reranker == k || p.generator == k || p.draft == k then
      deny Status.notPermitted s
    else okWith (releaseUnused (releaseBatons (fun b => b.image == k)
      (modObj (fun x => { x with images := mupd x.images k fun y => { y with unloaded := true } }) s)))

def execImageUnload (h : HostCmd) (s : State) : Answer := .next (runCmd 0x23 h (fun _ t => imageUnloadBody h t) s)

end Sys2Proof.Machine
end

