-- ==== Sys2Proof/Machine/Graph.lean ====
section
/-! DEFINITION. The arithmetic of the operation catalogue (05 R162 to R174; 09 R307 to R319): the operands of an operation as
values and bytes, each operation's outputs, and their conversion to the output tensors. -/

namespace Sys2Proof.Machine

/-! ### Operands -/

/-- An operand or output tensor as an operation meets it: descriptor, run-time extents, bytes and element values in row-major
order. -/
structure Operand where
  id : Nat
  desc : TensorDesc
  dims : List Nat
  data : Bytes
  scales : Bytes
  vals : List Fv
deriving DecidableEq, Repr

/-- Element values of a tensor in row-major order (03 R55 to R62). -/
def tensorVals (t : TensorDesc) (shift : Int) (dims : List Nat) (data scales : Bytes) : List Fv :=
  (List.range (elemsOf dims)).map fun j =>
    let q := storedPos t dims j
    elemValue t.fmt shift (rd scales (q / 32) 1) (rawElem t.fmt data q)

/-- Whether a format's block exponents come from its elements, 32 along the reduction (03 R69). -/
def expsFromElems (fmt : Nat) : Bool := !(isMx fmt || fmt == 3 || fmt == 4 || fmt == 0xA)

/-- The exponent an element brings: its block's scale, 0 for FP8, the shift plus 7 for INT8, else its own (03 R69).  The rule
names no exponent for BINARY, FX and LACC96 elements; each then brings its own (DESIGN CHOICE, assumption 38). -/
def elemExp (o : Operand) (j : Nat) : Option Int :=
  if isMx o.desc.fmt then
    let c := rd o.scales (storedPos o.desc o.dims j / 32) 1
    if c = 0xFF then none else some ((c : Int) - 127)
  else if o.desc.fmt = 3 ∨ o.desc.fmt = 4 then some 0
  else if o.desc.fmt = 0xA then some (o.desc.shift + 7)
  else blockExpFp [(o.vals[j]?).getD .nan]

/-- Values of an operand with their exponents. -/
def expVals (o : Operand) : List (Fv × Option Int) := (withPos o.vals).map fun e => (e.2, elemExp o e.1)

/-- The block exponents of each run of 32 products: one when they come from the elements, else one an element. -/
def runBlocks (fp : Bool) (l : List (Option Int)) : List (List (Option Int)) :=
  (blocks32 l.length l).map fun b => if fp then [maxInt (b.filterMap id)] else b

/-- Scale sums of the block pairs of one run (03 R69; 04 R110). -/
def runSums (a b : List (Option Int)) : List Int :=
  match a, b with
  | [some x], ys => ys.filterMap fun y => y.map (x + ·)
  | xs, [some y] => xs.filterMap fun x => x.map (· + y)
  | xs, ys => pairSums xs ys

/-- The sum of products of two finite lines at the automatic reference (03 R69, R71): value, r, flags.  An FP32 product enters
whole, not as the six products of an array pass: 03 R64 states the split for pass operands alone (DEDUCED, assumption 38). -/
def lineDot (fa fb : Bool) (a b : List (Fv × Option Int)) : Int × Int × BitVec 4 :=
  let r := refOf (((runBlocks fa (a.map Prod.snd)).zip (runBlocks fb (b.map Prod.snd))).flatMap fun e => runSums e.1 e.2)
  let x := accumulate r ((a.zip b).map fun p => dyMul p.1.1.dy p.2.1.dy)
  (x.1, r, x.2)

/-- A free element (assumption 3): index j of group k among the free values from fi. -/
def openElem (fi k j : Nat) : Fv := f32Val ((Config.free64 (fi + 2 ^ 36 * k + j)).toNat % 2 ^ 32)
/-- Free bytes. -/
def openBytes (fi k n : Nat) : Bytes := (List.range n).map fun j => BitVec.ofNat 8 (Config.free64 (fi + 2 ^ 36 * k + j)).toNat
/-- Free values an operation may use. -/
def opDraws : Nat := 2 ^ 40

/-- The largest finite FP32 value. -/
def maxF32 : Dy := ⟨2 ^ 24 - 1, 104⟩

/-- Decode an element for an elementwise operation: a magnitude past the FP32 range is infinite and sets conv_range
(05 R164). -/
def dec32 : Fv → Fv × BitVec 4
  | .fin n m e => if dyLt maxF32 ⟨m, e⟩ then (.inf n, flagWord false false false true) else (.fin n m e, 0)
  | v => (v, 0)

def decAll (l : List Fv) : List Fv × BitVec 4 := let r := l.map dec32; (r.map Prod.fst, orFlags (r.map Prod.snd))

/-- Element j of an operand, free when the operand has none. -/
def elemAt (fi k : Nat) (l : List Fv) (j : Nat) : Fv := (l[j]?).getD (openElem fi k j)

/-- What an operation leaves for one output. -/
inductive OutVal where
  /-- element values, row-major -/
  | vals (l : List Fv)
  /-- accumulator entries: reference exponent, value, flags; an invalid one has flag 2 -/
  | sums (l : List (Int × Int × BitVec 4))
  /-- element bits, row-major -/
  | ints (l : List Nat)
  /-- bytes as they lie -/
  | raw (b : Bytes)
  /-- a value the spec does not state -/
  | open_
deriving DecidableEq, Repr

/-- Take n bytes, free ones where there are none. -/
def takeOpen (fi k n : Nat) (b : Bytes) : Bytes := b.take n ++ openBytes fi k (n - b.length)

/-- Convert values to an output tensor (03 R77 to R80); a format to which the spec gives no conversion takes free bytes. -/
def convOut (fi k : Nat) (t : TensorDesc) (sat : Bool) (dims : List Nat) (l : List Fv) : Bytes × Bytes × BitVec 4 :=
  let n := elemsOf dims
  if isMx t.fmt || t.fmt ≤ 2 then
    convVector t.fmt sat ((List.range n).map fun q => elemAt fi k l (rowMajor t dims q))
  else (openBytes fi k (dataBytesOf t.fmt dims), openBytes fi (k + 1) (scaleBytesOf t.fmt dims), 0)

/-- The value of an accumulator entry: not a number when invalid (03 R74). -/
def sumVal (x : Int × Int × BitVec 4) : Fv := if x.2.2.getLsbD 2 then .nan else Fv.ofDy (accDy x.1 x.2.1)

/-- An output's bytes and the flags its conversion sets. -/
def putOut (fi k : Nat) (t : TensorDesc) (sat : Bool) (dims : List Nat) (v : OutVal) : Bytes × Bytes × BitVec 4 :=
  let nd := dataBytesOf t.fmt dims
  let ns := scaleBytesOf t.fmt dims
  match v with
  | .vals l => convOut fi k t sat dims l
  | .sums l =>
    let fl := orFlags (l.map fun x => x.2.2)
    if t.fmt = 0xE then (takeOpen fi k nd (l.flatMap fun x => laccBytes x.1 x.2.1 x.2.2), [], fl)
    else let c := convOut fi k t sat dims (l.map sumVal); (c.1, c.2.1, c.2.2 ||| fl)
  | .ints l => if isMx t.fmt then (openBytes fi k nd, openBytes fi (k + 1) ns, 0) else (takeOpen fi k nd (packBits (elemBits t.fmt) l), [], 0)
  | .raw b => (takeOpen fi k nd (b.take nd), takeOpen fi (k + 1) ns (b.drop nd), 0)
  | .open_ => (openBytes fi k nd, openBytes fi (k + 1) ns, 0)

/-! ### Elementwise (05 R164 to R167) -/

/-- Results of a function of each index, with flags. -/
def eachElem (n : Nat) (f : Nat → Fv × BitVec 4) : OutVal × BitVec 4 :=
  let r := (List.range n).map f
  (.vals (r.map Prod.fst), orFlags (r.map Prod.snd))

/-- x·c + y·s or x·c - y·s, rounded once when all are finite (05 R167). -/
def rotOne (x c y s : Fv) (minus : Bool) : Fv × BitVec 4 :=
  if x.isFinite && c.isFinite && y.isFinite && s.isFinite then
    let a := dyMul x.dy c.dy
    let b := dyMul y.dy s.dy
    (rn32 (if minus then dySub a b else dyAdd a b), 0)
  else
    let a := fvMul x c
    let b := fvMul y s
    let r := fvAdd a.1 (if minus then b.1.neg else b.1)
    (r.1, a.2 ||| b.2 ||| r.2)

/-- cos and sin of an FP32 angle; of an infinite one they are no real numbers (05 R166). -/
def cosSin : Fv → Fv × Fv × BitVec 4
  | .fin n m e =>
    if m = 0 then (fvOne, .fin n 0 0, 0)
    else let x := fxSinCos (Fv.fin n m e).dy; (rn32Fx x.2 0, rn32Fx x.1 0, 0)
  | _ => (.nan, .nan, invalidFlag)

/-- θ_i of ROPE for any base (05 R166, R167): b^0 is 1, a power of a negative base is no real number, that of zero is
infinite. -/
def ropeAngle (base : Fv) (i d : Nat) : Fv × BitVec 4 :=
  match base with
  | .nan => (.nan, invalidFlag)
  | .inf n => if i = 0 then (fvOne, 0) else if n then (.nan, invalidFlag) else (fvZero false, 0)
  | .fin n m e =>
    if i = 0 then (fvOne, 0)
    else if m = 0 then (.inf false, invalidFlag)
    else if n then (.nan, invalidFlag)
    else (ropeTheta (Fv.fin false m e).dy i d, 0)

/-- One element of ROPE (05 R167). -/
def ropeElem (fi : Nat) (base : Fv) (d : Nat) (xs ps : List Fv) (j : Nat) : Fv × BitVec 4 :=
  let i := j % d / 2
  let row := j / d
  let theta := ropeAngle base i d
  let a := fvMul (elemAt fi 9 ps row) theta.1
  let t := cosSin a.1
  let at_ (k : Nat) : Fv := elemAt fi 10 xs (d * row + k)
  let r := if j % d % 2 = 0 then rotOne (at_ (2 * i)) t.1 (at_ (2 * i + 1)) t.2.1 true
    else rotOne (at_ (2 * i)) t.2.1 (at_ (2 * i + 1)) t.1 false
  (r.1, theta.2 ||| a.2 ||| t.2.2 ||| r.2)

/-! ### Normalisation and softmax (05 R168 to R170) -/

/-- RN32 of an exact sum divided by a count: not a number when the sum is invalid. -/
def meanOf (s : Option Dy) (n : Nat) : Fv :=
  match s with
  | some d => rn32Ratio (decide (d.m < 0)) d.m.natAbs (max 1 n) d.e
  | none => .nan

/-- The exact sum of products of values at the automatic reference of their scale sums, none when one is not finite, and its
flags (03 R69 to R74). -/
def exactSum (sums : List Int) (prods : List (Fv × Dy)) : Option Dy × BitVec 4 :=
  let r := refOf sums
  if prods.all fun p => p.1.isFinite then
    let a := accumulate r (prods.map Prod.snd)
    (some (accDy r a.1), a.2)
  else (none, (accumRaw r ((prods.filter fun p => p.1.isFinite).map Prod.snd)).2 ||| invalidFlag)

/-- The exact sum of a row's elements, each with the exponent it brings, times 1 (05 R168). -/
def rowSum (l : List (Fv × Option Int)) : Option Dy × BitVec 4 :=
  exactSum (l.filterMap Prod.snd) (l.map fun v => (v.1, v.1.dy))

/-- The exact sum of their squares: both blocks of a product are the same (03 R69, 05 R168). -/
def sumSquares (l : List (Fv × Option Int)) : Option Dy × BitVec 4 :=
  exactSum (l.filterMap fun v => v.2.map (2 * ·)) (l.map fun v => (v.1, dyMul v.1.dy v.1.dy))

/-- NORM of one row (05 R168): its elements with the exponents their blocks bring; the d_i of a layer normalisation are FP32
values with their own. -/
def normRow (sub : Nat) (eps : Fv) (gs bs : Nat → Fv) (x : List (Fv × Option Int)) : List Fv × BitVec 4 :=
  let n := x.length
  let s := rowSum x
  let d := if sub = 1 then x.map fun v => fvAdd v.1 (meanOf s.1 n).neg else []
  let f1 : BitVec 4 := if sub = 1 then s.2 ||| orFlags (d.map Prod.snd) else 0
  let ds := if sub = 1 then d.map fun v => (v.1, blockExpFp [v.1]) else x
  let q2 := sumSquares ds
  let ve := fvAdd (meanOf q2.1 n) eps
  let q := ewUnary 4 ve.1
  let r := (withPos ds).map fun e =>
    let a := fvMul e.2.1 q.1
    let y := ewFma a.1 (gs e.1) (if sub = 1 then bs e.1 else fvZero false)
    (y.1, a.2 ||| y.2)
  (r.map Prod.fst, f1 ||| q2.2 ||| ve.2 ||| q.2 ||| orFlags (r.map Prod.snd))

/-- The largest of some values, NaN passed over; none when there are none. -/
def maxFv : List Fv → Option Fv
  | [] => none
  | v :: l => match maxFv l with
    | none => some v
    | some w => if v.isNan then some w else if w.isNan || fvLt w v then some v else some w

/-- Weights e of one row under a scale, none for a masked element, and flags (05 R169). -/
def softWeights (sigma : Fv) (x : List (Bool × Fv)) : List (Option Fv) × BitVec 4 :=
  let z := x.map fun e => if e.1 then none else some (fvMul sigma e.2)
  match maxFv (z.filterMap fun o => o.map Prod.fst) with
  | none => (x.map fun _ => none, 0)
  | some m =>
    let r := z.map fun o => o.map fun v =>
      let d := fvAdd v.1 m.neg
      let e := ewUnary 1 d.1
      (e.1, v.2 ||| d.2 ||| e.2)
    (r.map fun o => o.map Prod.fst, orFlags (r.filterMap fun o => o.map Prod.snd))

/-- SOFTMAX of one row (05 R169). -/
def softRow (sigma : Fv) (x : List (Bool × Fv)) : List Fv × BitVec 4 :=
  let w := softWeights sigma x
  let s := sumExact (w.1.filterMap id)
  let t := match s.1 with | some d => rn32 d | none => .nan
  let y := w.1.map fun o => match o with | none => (fvZero false, 0) | some e => fvDiv e t
  if x.all Prod.fst then (x.map fun _ => fvZero false, 0)
  else (y.map Prod.fst, w.2 ||| s.2 ||| orFlags (y.map Prod.snd))

/-- Cut values into rows of n. -/
def rowsOf {α : Type} (n : Nat) (l : List α) : List (List α) := if n = 0 then [] else chunksOf n (l.length / n) l

/-! ### Attention (05 R171) -/

/-- The `width` outputs of one query for one head; fq, fk, fv tell the formats whose exponents come from elements. -/
def attnRow (sigma : Fv) (fq fk fv : Bool) (width : Nat) (q : List (Fv × Option Int)) (ks vs : List (List (Fv × Option Int)))
    (masked : Nat → Bool) : List Fv × BitVec 4 :=
  let fin (l : List (Fv × Option Int)) : Bool := l.all fun v => v.1.isFinite
  let score (k : List (Fv × Option Int)) : Fv × BitVec 4 :=
    if fin q && fin k then
      let a := lineDot fq fk q k
      (rn32 (accDy a.2.1 a.1), a.2.2)
    else (.nan, invalidFlag)
  let sc := (withPos ks).map fun e => (e.1, score e.2)
  let w := softWeights sigma (sc.map fun e => (masked e.1, e.2.1))
  let live := (w.1.zip vs).filterMap fun e => e.1.map fun x => (x, e.2)
  let t := sumExact (live.map Prod.fst)
  let tot := match t.1 with | some d => rn32 d | none => .nan
  let es := live.map fun e => (e.1, blockExpFp [e.1])
  let r := (List.range width).map fun i =>
    let vi := live.map fun e => (e.2[i]?).getD (fvZero false, none)
    if live.isEmpty then (fvZero false, (0 : BitVec 4))
    else if fin es && fin vi then
      let a := lineDot true fv es vi
      let o := fvDiv (Fv.ofDy (accDy a.2.1 a.1)) tot
      (o.1, a.2.2 ||| o.2)
    else (.nan, invalidFlag)
  (r.map Prod.fst, orFlags ((sc.filter fun e => !masked e.1).map fun e => e.2.2) ||| w.2 ||| t.2 ||| orFlags (r.map Prod.snd))

/-- The innermost extent, and the heads in the extent before it when more than `rank` extents are there (assumption 22). -/
def lastDim (dims : List Nat) : Nat := (dims.getLast?).getD 1
def headsOf (rank : Nat) (dims : List Nat) : Nat := if dims.length ≤ rank then 1 else max 1 ((dims[dims.length - 2]?).getD 1)

/-- ATTN_PAGED over tensors of its context: q [.., heads, d], keys and values [positions, key heads, d]; the last query is the
last position; some pairs of a query's and a key's positions are kept apart besides (09 R329). -/
def attnAll (sub : Nat) (sigma : Fv) (q k v : Operand) (away : Nat → Nat → Nat → Nat → Bool) : List Fv × BitVec 4 :=
  let h := headsOf 1 q.dims
  let rows := rowsOf (lastDim q.dims) (expVals q)
  let heads (t : Operand) : List (List (Fv × Option Int)) := rowsOf (lastDim t.dims) (expVals t)
  let krows := heads k
  let vrows := heads v
  let nq := rows.length / h
  let nk := krows.length / headsOf 2 k.dims
  let r := (withPos rows).map fun e =>
    let of_ (n : Nat) (l : List (List (Fv × Option Int))) : List (List (Fv × Option Int)) :=
      (List.range nk).map fun j => (l[j * n + e.1 % h * n / h]?).getD []
    attnRow sigma (expsFromElems q.desc.fmt) (expsFromElems k.desc.fmt) (expsFromElems v.desc.fmt) (lastDim v.dims) e.2
      (of_ (headsOf 2 k.dims) krows) (of_ (headsOf 2 v.dims) vrows)
      fun j => away nq nk (e.1 / h) j || (sub == 0 && decide (nk - nq + e.1 / h < j))
  (r.flatMap Prod.fst, orFlags (r.map Prod.snd))

/-! ### Reductions and selections (05 R172, R173; 09 R308 to R319) -/

/-- The lines of values along an axis, in row-major order of the rest. -/
def axisLines {α : Type} (none_ : α) (axis : Nat) (dims : List Nat) (l : List α) : List (List α) :=
  let x := axisSplit axis dims
  if x.1 = 0 ∨ x.2 = 0 then []
  else (List.range (l.length / x.1)).map fun i =>
    (List.range x.1).map fun a => (l[(i / x.2 * x.1 + a) * x.2 + i % x.2]?).getD none_

/-- The exact sum of a line, each element times 1, with its reference exponent, the value of an invalid one free
(03 R69, R74). -/
def lineSum (fi k : Nat) (l : List (Fv × Option Int)) : Int × Int × BitVec 4 :=
  let r := refOf (l.filterMap Prod.snd)
  let a := accSum (fi + 2 ^ 36 * 12 + 2 * k) r (l.map Prod.fst)
  (r, a.1, a.2)

/-- REDUCE (05 R172). -/
def reduceOut (fi sub axis : Nat) (x : Operand) : OutVal × BitVec 4 :=
  let ls := axisLines (fvZero false) axis x.dims x.vals
  if sub = 0 then
    (.sums ((withPos (axisLines (fvZero false, none) axis x.dims (expVals x))).map fun e => lineSum fi e.1 e.2), 0)
  else
    let pick (l : List Fv) : Fv × BitVec 4 :=
      if l.any Fv.isNan then (.nan, invalidFlag)
      else (l.foldl (fun (a : Option Fv) v => match a with
        | none => some v
        | some b => some (if sub = 1 then (if fvLt b v then v else b) else if fvLt v b then v else b)) none |>.getD (openElem fi 7 0), 0)
    let r := ls.map pick
    (.vals (r.map Prod.fst), orFlags (r.map Prod.snd))

/-- ARGMAX, TOPK_EXACT, TOPK_BUCKET (09 R308 to R319): one record per row. -/
def selectOut (fi : Nat) (o : Op) (x : Operand) (mask : Option Operand) : OutVal × BitVec 4 :=
  let k := rd o.params 0 2
  let kt := rd o.params 2 1
  let b := rd o.params 4 2
  let n := (x.dims.getLast?).getD 1
  let bits := (List.range (elemsOf x.dims)).map (rawElem x.desc.fmt x.data)
  let ms := (List.range bits.length).map fun j => match mask with
    | some m => if (rd o.params 3 1).testBit 0 then rawElem 0xB m.data j == 1 else false
    | none => false
  let kp := if o.opcode = 0x32 then (if rd o.params 8 2 = 0 then chooseKprime k b (rd o.params 6 2) else rd o.params 8 2) else 0
  let rs := (withPos (rowsOf n (ms.zip bits))).map fun e =>
    if o.opcode = 0x32 then selectBucket (fi + selDraws * e.1) kt k b kp e.2 else selectTop (fi + selDraws * e.1) kt k e.2
  (.raw (rs.flatMap fun r => selRecord kt k kp r), orFlags (rs.map SelRes.flags))

/-- PQ_SCORE: the sum for each candidate's code, the table's bytes in input 0 (05 R173; 07 R233). -/
def pqScoreOut (tab codes : Operand) : OutVal :=
  let t := pqTableOf tab.data
  let m := (codes.dims.getLast?).getD 1
  .ints ((rowsOf m codes.data).map fun c => pqScore t c)

/-- MERGE: row by row, the records of R310 in its inputs, numbered by source, make one record with as many slots as the
output's rows have room for (09 R320 to R322; the place of the lists is a DESIGN CHOICE, assumption 54). -/
def mergeOut (fi : Nat) (ins : List Operand) (room : Nat) : OutVal × BitVec 4 :=
  let rows := ins.map fun x => rowsOf ((x.dims.getLast?).getD 1) x.data
  let n := ((rows.map List.length).head?).getD 0
  if room < 72 ∨ (rows.any fun l => l.any fun r => decide (r.length < 64)) then (.open_, 0)
  else
    let r := (List.range n).map fun i =>
      mergeRecords (fi + selDraws * i) ((room - 64) / 8) (rows.map fun l => (l[i]?).getD (zeros 64))
    (.raw (r.flatMap Prod.fst), orFlags (r.map Prod.snd))

/-! ### The catalogue -/

/-- An FP32 parameter of an operation (assumption 22). -/
def param32 (o : Op) (f : Nat) : Nat := (Config.opParam o.opcode f o.params).toNat

/-- Outputs and flags of an operation that reads only its operands, none when its data does not decompress (05 R162). -/
def evalOp (fi : Nat) (o : Op) (ins : List Operand) (outDims : List Nat) (outBytes : Nat) : Option (List OutVal × BitVec 4) :=
  let inp (k : Nat) : List Fv := ((ins[k]?).map (·.vals)).getD []
  let n := elemsOf outDims
  let dec (k : Nat) : List Fv × BitVec 4 := decAll (inp k)
  let one (r : OutVal × BitVec 4) (f : BitVec 4) : Option (List OutVal × BitVec 4) := some ([r.1], r.2 ||| f)
  let w0 := ((ins[0]?).bind fun x => x.dims.getLast?).getD 1
  let bytes0 : Bytes := ((ins[0]?).map fun x => x.data ++ x.scales).getD []
  match o.opcode with
  | 0x0010 => let a := dec 0; one (eachElem n fun j => ewUnary o.sub (elemAt fi 4 a.1 j)) a.2
  | 0x0011 =>
    let a := dec 0
    let b := dec 1
    one (eachElem n fun j => ewBinary o.sub (elemAt fi 4 a.1 j) (elemAt fi 5 b.1 j)) (a.2 ||| b.2)
  | 0x0012 =>
    let a := dec 0
    let b := dec 1
    let c := dec 2
    one (eachElem n fun j => ewFma (elemAt fi 4 a.1 j) (elemAt fi 5 b.1 j) (elemAt fi 6 c.1 j)) (a.2 ||| b.2 ||| c.2)
  | 0x0013 => some ([.vals (inp 0)], 0)
  | 0x0014 =>
    let a := dec 0
    let b := dec 1
    one (eachElem n (ropeElem fi (f32Val (param32 o 0)) (max 1 w0) a.1 b.1)) (a.2 ||| b.2)
  | 0x0015 =>
    let a := dec 0
    let g := dec 1
    let b := dec 2
    let x := a.1.zip (((ins[0]?).map fun y => (expVals y).map Prod.snd).getD [])
    let r := (rowsOf w0 x).map (normRow o.sub (f32Val (param32 o 0)) (elemAt fi 4 g.1) (elemAt fi 5 b.1))
    some ([.vals (r.flatMap Prod.fst)], a.2 ||| g.2 ||| (if o.sub = 1 then b.2 else 0) ||| orFlags (r.map Prod.snd))
  | 0x0016 =>
    let a := (inp 0).map dec32
    let ms := (List.range a.length).map fun j => match ins[1]? with
      | some m => o.sub == 1 && rawElem 0xB m.data j == 1
      | none => false
    let r := (rowsOf w0 (ms.zip (a.map Prod.fst))).map (softRow (f32Val (param32 o 0)))
    some ([.vals (r.flatMap Prod.fst)],
      orFlags (((ms.zip a).filter fun e => !e.1).map fun e => e.2.2) ||| orFlags (r.map Prod.snd))
  | 0x0020 => match ins with
    | x :: _ => one (reduceOut fi o.sub (param32 o 0 % max 1 x.dims.length) x) 0
    | [] => some ([.open_], 0)
  | 0x0042 => match ins with
    | t :: c :: _ => some ([pqScoreOut t c], 0)
    | _ => some ([.open_], 0)
  | 0x0053 => some ([.raw bytes0], 0)
  | 0x0072 => let r := mergeOut fi ins ((outDims.getLast?).getD 1); some ([r.1], r.2)
  | 0x0060 => some ([.raw (compress (param32 o 0 % 4) bytes0)], 0)
  | 0x0061 => (decompressTo outBytes bytes0).map fun b => ([.raw b], 0)
  | c => match ins with
    | x :: _ => if inRange 0x30 0x32 c then one (selectOut fi o x ins[1]?) 0 else some (o.outs.map fun _ => OutVal.open_, 0)
    | [] => some (o.outs.map fun _ => OutVal.open_, 0)
where
  /-- Frames up to a count of bytes produced. -/
  decompressTo (want : Nat) (b : Bytes) : Option Bytes := go want b.length b
  go (want : Nat) : Nat → Bytes → Option Bytes
    | 0, _ => some []
    | k + 1, b =>
      if want = 0 ∨ b.isEmpty then some []
      else match decodeFrame b with
        | none => none
        | some x => (go (want - x.1.length) k x.2).map fun y => x.1 ++ y

end Sys2Proof.Machine
end

