-- ==== Sys2Proof/Machine/Operation.lean ====
section
/-! DEFINITION. Running one operation of a context: when it may start, its operands from the tiers and the fallbacks of missed
fetches, gathers, adds and reductions, and what it leaves (05 R153, R158 to R163; 11 R406 to R420; 12 R444, R447, R460 to
R466; 16 R614 to R616; 17 R640). -/

namespace Sys2Proof.Machine

/-- Where an operation runs: cluster, slot, unit number, the unit, its share, the context, the image, the operation. -/
structure OpCx where
  g : Nat
  slot : Nat
  n : Nat
  u : SUnit
  share : Nat
  c : Ctx
  i : Image
  o : Op
deriving DecidableEq, Repr

/-! ### Run-time extents (05 R152, R153) -/

/-- What a source names of one request of a unit: its positions in the unit's job, its generated tokens, passages, candidates. -/
def memberValue (s : State) (u : SUnit) (src e : Nat) (x : RtEntry) : Nat :=
  match src with
  | 0 => 1
  | 1 => ((unitRows s u).filter fun p => p.entry == e).length
  | 2 => x.genLen
  | 3 => x.work.search.scored.length
  | _ => x.work.search.cands.length

/-- The value a source names, where the spec ties it to the unit: a step's batch and its positions in all, else the largest of
its members' values; a stage's own request (05 R152; assumption 22). -/
def dynValue (s : State) (u : SUnit) (src : Nat) : Option Nat :=
  let vals := (unitEntries s u).map fun e => memberValue s u src e.1 e.2.1
  match u.kind with
  | .run _ => none
  | .step k => some (if src = 0 then ((mget s.gen.steps k).map (·.members.length)).getD 0 else if src = 1 then (unitRows s u).length else maxNat vals)
  | .stage e st =>
    if src = 0 then none
    else if src = 1 then
      some (if st = 9 then roundUp (maxNat ((entryPairs s e).map List.length)) 32
        else if st = 3 then maxNat vals else maxNat ((unitEntries s u).map fun x => x.2.1.promptLen))
    else some (maxNat vals)

/-- The extent of a dimension word at run time; a source the spec does not tie to the unit is open (assumption 22). -/
def runExtent (s : State) (n : Nat) (u : SUnit) (d : Nat) : Nat :=
  let top := d % 2 ^ 28
  if d.testBit 31 then (dynValue s u (bitsOf d 30 28)).getD (1 + Config.dynExtent n (bitsOf d 30 28) % max 1 top) else top

def runDims (s : State) (n : Nat) (u : SUnit) (t : TensorDesc) : List Nat := t.dims.map (runExtent s n u)

/-- Whether a run-time extent of a tensor exceeds its largest. -/
def overExtent (s : State) (n : Nat) (u : SUnit) (t : TensorDesc) : Bool := t.dims.any fun d => decide (d % 2 ^ 28 < runExtent s n u d)

/-- Whether a tensor has a run-time extent that the spec does not tie to the unit. -/
def openExtent (s : State) (u : SUnit) (t : TensorDesc) : Bool :=
  t.dims.any fun d => d.testBit 31 && (dynValue s u (bitsOf d 30 28)).isNone

/-- The members of a step whose own values exceed the largest extents of some tensors (05 R153, 10 R366). -/
def overMembers (s : State) (u : SUnit) (ts : List TensorDesc) : List Nat :=
  match u.kind with
  | .step _ => ((unitEntries s u).filter fun e => ts.any fun t => t.dims.any fun d =>
      d.testBit 31 && decide (d % 2 ^ 28 < memberValue s u (bitsOf d 30 28) e.1 e.2.1)).map Prod.fst
  | _ => []

/-! ### Operands in their tiers (05 R151; 12 R452 to R466) -/

/-- The byte of the allocation at which a tier-0 tensor's elements or scales begin. -/
def sramPlace (x : OpCx) (id : Nat) (t : TensorDesc) (scales : Bool) : Nat := sramAt x.i x.u.sram id t scales

/-- The fraction bits of a fixed-point tensor that a gather of a local table wrote (03 R62). -/
def fracOf (s : State) (i : Image) (id : Nat) : Nat :=
  match (i.ops.find? fun o => inRange 0x50 0x51 o.opcode && o.outs.head? == some id).bind fun o => i.tables[rd o.params 0 4]? with
  | some b => (((tableSlot s b.table).bind fun k => mget s.obj.tables k).map (·.frac)).getD 0
  | none => 0

/-- The shift of an element's value: INT8's, or minus the fraction bits (03 R60, R62). -/
def elemShift (s : State) (i : Image) (id : Nat) (t : TensorDesc) : Int :=
  if t.fmt = 0xC ∨ t.fmt = 0xD then -(fracOf s i id : Int) else t.shift

/-- Elements and scales of a tensor as they lie: in the allocation, where its context has written them, in the image, or in the
memory of the requests served (05 R151, R154); none when a compressed constant does not decompress. -/
def tensorRaw (s : State) (x : OpCx) (id : Nat) (t : TensorDesc) (dims : List Nat) : Option (Bytes × Bytes) :=
  let nd := dataBytesOf t.fmt dims
  let ns := scaleBytesOf t.fmt dims
  if t.tier = 0 then
    let a := sramPlace x id t false
    let b := sramPlace x id t true
    let m := x.c.view [(a, a + nd), (b, b + ns)]
    some (memRead m a nd, memRead m b ns)
  else match mget x.c.tensors id with
    | some v => some (if v.scales.isEmpty then (padTo v.data nd, padTo (v.data.drop nd) ns) else (padTo v.data nd, padTo v.scales ns))
    | none =>
      if t.constant then constBytes x.i t dims
      else
        let b := (boundBytes s x.u x.i id t dims).getD ([], [])
        some (padTo b.1 nd, padTo b.2 ns)

/-- Missed fetches of a tensor that this operation still feels (12 R462). -/
def lateFetches (x : OpCx) (id : Nat) : List RelayEntry :=
  x.i.relay.filter fun r => x.c.missed.contains r.seq && !r.target.testBit 31 && r.target == id

/-- Whether a byte of the elements lies in a replaced range, and by which fallback. -/
def replacedBy (l : List RelayEntry) (b : Nat) : Option Nat :=
  (l.find? fun r => decide (r.first ≤ b) && decide (b < r.first + r.count)).map (·.fallback)

/-- Whether a unit serves work admitted in PROOFING (17 R640, R642). -/
def onShadows (s : State) (u : SUnit) : Bool := (unitEntries s u).any fun e => e.2.1.work.proofing

/-- The tensor a context reads in place of one: its shadow for work admitted in PROOFING (17 R640), else itself. -/
def readId (s : State) (x : OpCx) (id : Nat) : Nat :=
  match tensorAt x.i.tensors id with
  | some t => if t.hasShadow && onShadows s x.u then t.shadow else id
  | none => id

/-- A tensor as the operation reads it: a replaced range reads the shadow's values or zero (12 R462, R463). -/
def operandOf (s : State) (fi : Nat) (x : OpCx) (id0 : Nat) : Option Operand :=
  let id := readId s x id0
  match tensorAt x.i.tensors id with
  | none => none
  | some t =>
    let dims := runDims s x.n x.u t
    match tensorRaw s x id t dims with
    | none => none
    | some (data, scales) =>
      let vals := tensorVals t (elemShift s x.i id t) dims data scales
      match lateFetches x id with
      | [] => some { id := id, desc := t, dims := dims, data := data, scales := scales, vals := vals }
      | late =>
        let sh : List Fv := match tensorAt x.i.tensors t.shadow with
          | some k => ((tensorRaw s x t.shadow k dims).map fun y => tensorVals k 0 dims y.1 y.2).getD []
          | none => []
        let v2 := (withPos vals).map fun e =>
          match replacedBy late (storedPos t dims e.1 * elemBits t.fmt / 8) with
          | some 0 => elemAt fi 13 sh e.1
          | some _ => fvZero false
          | none => e.2
        let d2 := (withPos data).map fun e => match replacedBy late e.1 with
          | some 0 => BitVec.ofNat 8 (Config.free64 (fi + 2 ^ 36 * 14 + e.1)).toNat
          | some _ => 0
          | none => e.2
        some { id := id, desc := t, dims := dims, data := d2, scales := scales, vals := v2 }

/-- The operands of an operation, none when one does not decompress. -/
def operandsOf (s : State) (fi : Nat) (x : OpCx) : Option (List Operand) := allSome (x.o.ins.map (operandOf s fi x))

/-! ### Outputs -/

/-- Write one output tensor into its tier (05 R151; 04 R129 for resident weights); rows of a paged one also into the pages of
their positions (10 R353). -/
def putTensor (x : OpCx) (id : Nat) (t : TensorDesc) (dims : List Nat) (data scales : Bytes) (s : State) : State :=
  if t.tier = 0 then
    let a := sramPlace x id t false
    let b := sramPlace x id t true
    modCluster x.g (fun k => touchWeights x.n x.share [(a, a + data.length), (b, b + scales.length)] { k with
      slots := mupd k.slots x.slot fun c => (c.store a data).store b scales }) s
  else
    let v : Tensor := { dims := dims, data := data, scales := scales }
    let s1 := modCluster x.g (fun k => { k with slots := mupd k.slots x.slot fun c => { c with tensors := mset c.tensors id v } }) s
    if isPaged x.i id then putPaged x.u x.i id t dims data scales s1 else s1

/-- An output as it is stored: tensor, descriptor, extents, elements, scales. -/
structure Stored where
  id : Nat
  desc : TensorDesc
  dims : List Nat
  data : Bytes
  scales : Bytes
deriving DecidableEq, Repr

/-- Convert an operation's outputs: what is stored, and the flags of the conversions. -/
def convOuts (s : State) (fi : Nat) (x : OpCx) : List (Nat × OutVal) → Nat → List Stored × BitVec 4
  | [], _ => ([], 0)
  | (id, v) :: l, k =>
    let r := convOuts s fi x l (k + 2)
    match tensorAt x.i.tensors id with
    | none => r
    | some t =>
      let dims := runDims s x.n x.u t
      let p := putOut fi k t x.o.saturate dims v
      (⟨id, t, dims, p.1, p.2.1⟩ :: r.1, p.2.2 ||| r.2)

/-- Write an operation's outputs. -/
def putOuts (x : OpCx) (l : List Stored) (s : State) : State :=
  foldS l (fun t v => putTensor x v.id v.desc v.dims v.data v.scales t) s

/-! ### What an operation leaves for its requests (05 R154; 08 R266; 09 R327; 10 R369, R372; assumption 22) -/

/-- Whether an operation is the last of its list to which a test applies. -/
def lastSuch (x : OpCx) (p : Op → Bool) : Bool := p x.o && (x.i.ops.drop (x.c.pc + 1)).all fun o => !p o

/-- The job of a step's unit: its step, its record, and whether it is the generator image's. -/
def jobOf (s : State) (u : SUnit) : Option (Nat × StepRec × Bool) :=
  match u.kind with
  | .step k => (mget s.gen.steps k).map fun r => (k, r, decide ((stepJob r).1 = r.image))
  | _ => none

/-- Change the members of a step. -/
def modMembers (k : Nat) (f : StepMember → StepMember) (s : State) : State :=
  modGen (fun g => { g with steps := mupd g.steps k fun r => { r with members := r.members.map f } }) s

/-- The tokens that SAMPLE picked go to the members whose positions pick them, in order (10 R369, R372). -/
def leaveTokens (x : OpCx) (k : Nat) (l : List Nat) (s : State) : State :=
  let ps := unitRows s x.u
  let got := (withPos l).filterMap fun t => (posOf ps l.length t.1).bind fun p => if p.picks.isSome then some (p.entry, t.2) else none
  modMembers k (fun m => { m with tokens := (got.filter fun g => g.1 == m.entry).map Prod.snd }) s

/-- The draft tokens that a round's ARGMAX found: the record of each member's last position names one (10 R372). -/
def leaveDrafts (x : OpCx) (k round : Nat) (recs : List Bytes) (s : State) : State :=
  let ps := unitRows s x.u
  let ends := lastRows ps
  let got := (withPos recs).filterMap fun r => (posOf ps recs.length r.1).bind fun p =>
    if ends.contains p then some (p.entry, rd r.2 64 4) else none
  modMembers k (fun m => { m with
    proposed := m.proposed ++ (if round < m.drafts then ((got.find? fun g => g.1 == m.entry).map Prod.snd).toList else []) }) s

/-- What the last outputs of a unit's list mean to its requests: a stage's results, the generator's tokens, a round's drafts. -/
def leaveFor (x : OpCx) (l : List Stored) (s : State) : State :=
  match x.u.kind, l.head? with
  | .stage _ _, some v =>
    if x.share = 0 ∧ lastSuch x fun o => !o.outs.isEmpty then
      let vals := tensorVals v.desc (elemShift s x.i v.id v.desc) v.dims v.data v.scales
      modUnit x.n (fun u => { u with results := vals.map fun y => BitVec.ofNat 32 (f32Bits y) }) s
    else s
  | .step _, some v =>
    match jobOf s x.u with
    | some (k, r, gen) =>
      if x.share ≠ 0 then s
      else if gen && lastSuch x (fun o => o.opcode == 0x33) then
        leaveTokens x k ((List.range (elemsOf v.dims)).map (rawElem v.desc.fmt v.data)) s
      else if !gen && lastSuch x (fun o => o.opcode == 0x30) then
        leaveDrafts x k (stepJob r).2 (rowsOf ((v.dims.getLast?).getD 1) v.data) s
      else s
    | none => s
  | _, _ => s

/-- A replaced operand of the generator image serves every position of its job (12 R464); a draft image's misses flag nothing,
since its tokens are verified (DEDUCED, assumption 22). -/
def noteLate (x : OpCx) (late : List (Nat × Nat)) (s : State) : State :=
  match jobOf s x.u with
  | some (k, _, true) => modGen (fun g => { g with steps := mupd g.steps k fun r => { r with
      late := late.foldl (fun l p => if l.contains p then l else p :: l) r.late } }) s
  | _ => s

/-- The positions of a unit's job, by request and place. -/
def jobPlaces (s : State) (u : SUnit) : List (Nat × Nat) := (unitRows s u).map fun p => (p.entry, p.pos)

/-- The context goes on past its operation; it waits at the point that follows when the operation is still on its way
(05 R163). -/
def pass1 (x : OpCx) (waits : Bool) (s : State) : State :=
  modCluster x.g (fun k => { k with slots := mupd k.slots x.slot fun c => { c with pc := c.pc + 1, waiting := waits } }) s

/-- Flags of an operation reach its context and its request or run (05 R160). -/
def noteFlags (x : OpCx) (f : BitVec 4) (s : State) : State :=
  gatherUnit x.u f (modCluster x.g (fun k => { k with slots := mupd k.slots x.slot fun c => { c with flags := c.flags ||| f } }) s)

/-- An operation ends with its outputs. -/
def finishOp (fi : Nat) (x : OpCx) (outs : List OutVal) (f : BitVec 4) (s : State) : State :=
  let r := convOuts s fi x (x.o.outs.zip outs) 0
  pass1 x false (noteFlags x (f ||| r.2) (leaveFor x r.1 { putOuts x r.1 s with free := fi + opDraws }))

/-! ### Gathers and adds (11 R406 to R420; 16 R614, R615) -/

/-- An index tensor: unsigned 64-bit elements (11 R406). -/
def indexOf (o : Operand) : List Nat := (List.range (elemsOf o.dims)).map fun j => rd o.data (8 * j) 8

/-- The request that each of `m` indices belongs to, with its position: by the positions of the unit's job, or all to the one
request of the unit (11 R409; assumption 22). -/
def indexOwners (s : State) (u : SUnit) (m : Nat) : List (Nat × RtEntry × Option RowPos) :=
  let ps := unitRows s u
  let es := unitEntries s u
  (List.range m).filterMap fun j =>
    let p := ((posOf ps m j).or ps.getLast?)
    match p.bind fun r => (es.find? fun e => e.1 == r.entry).map fun e => (e.1, e.2.1, some r), es with
    | some o, _ => some o
    | none, e :: _ => some (e.1, e.2.1, none)
    | none, [] => none

/-- The pin of a binding by an entry: slot or table, version, peer (11 R400). -/
def pinOf (s : State) (b : TableBind) (y : RtEntry) : Option (Nat × Nat × Option Nat) :=
  y.work.pins.find? fun p =>
    if b.isLocal then p.2.2.isNone && ((mget s.obj.tables p.1).map (·.id)) == some b.table
    else p.2.2 == some b.home && p.1 == b.table

/-- The key under which a context holds a remote row it has read. -/
def rowKey (bind version row : Nat) : Nat := 2 ^ 80 * (version + 1) + 2 ^ 42 * bind + row

/-- Rows of a table binding that a missed fetch replaces, with its fetch number (12 R462). -/
def lateRows (x : OpCx) (bind : Nat) : List (Nat × Nat) :=
  let seqs := (x.i.relay.filter fun r => x.c.missed.contains r.seq && r.target.testBit 31 && r.target % 2 ^ 31 == bind).map (·.seq)
  (x.c.fetches.filter fun f => seqs.contains f.seq).flatMap fun f => f.rowsLeft.map fun r => (r, f.seq)

/-- A replaced row: the shadow table's row when it is readable, or zero (11 R411).  The row read is that of the shadow table's
version current at the read, since a shadow is bound to no request (01 R26 and 11 R411 do not say; DESIGN CHOICE, assumption
40). -/
def shadowRow (s : State) (n seq : Nat) (t : Table) (row : Nat) : Option Bytes :=
  if t.fallback = 1 ∧ Config.shadowReadable n seq row then
    match (tableSlot s t.shadow).bind fun k => mget s.obj.tables k with
    | some h => match (currentVersion h).bind fun v => mget h.versions v with
      | some v => mget v.rows row
      | none => none
    | none => none
  else none

/-- Values of a stored row of a table's format. -/
def rowVals (fmt frac n : Nat) (b : Bytes) : List Fv :=
  (List.range n).map fun j => elemValue fmt (-(frac : Int)) (rd b (packedLen fmt n + j / 32) 1) (rawElem fmt b j)

/-- Whether a lookup finds a row in a version here: a default row reads no flash and touches no shared state (11 R407, 10
R376). -/
def rowPresent (s : State) (p : Nat × Nat × Option Nat) (row : Nat) : Bool :=
  p.2.2.isNone && (match (mget s.obj.tables p.1).bind fun t => (mget t.versions p.2.1).map fun v => findRow t v row with
    | some (.present _) => true
    | _ => false)

/-- What a row lookup gives: the row in the binding's stored layout. -/
def gatherRow (x : OpCx) (bind : Nat) (b : TableBind) (p : Nat × Nat × Option Nat) (row : Nat) (s : State) : Bytes × State :=
  if b.isLocal then
    match (lateRows x bind).find? (fun r => r.1 == row), mget s.obj.tables p.1 with
    | some r, some t =>
      let z := zeros (slotBytesOf t.fmt t.rowElems)
      (match (if (x.i.relay.find? fun y => y.seq == r.2).map (·.fallback) = some 2 then shadowRow s x.n r.2 t row else none) with
        | some h =>
          let c := convVector t.fmt false (rowVals ((tableSlot s t.shadow).bind (fun k => mget s.obj.tables k) |>.map (·.fmt) |>.getD 9) 0 t.rowElems h)
          if isMx t.fmt || t.fmt ≤ 2 then c.1 ++ c.2.1 else z
        | none => z, evCount 7 1 1 s)
    | _, _ =>
      let r := lookupRow p.1 p.2.1 row s
      (r.1.getD [], if rowPresent s p row then modVersion p.1 p.2.1 (fun v => { v with lookups := mmod v.lookups row 0 fun n => n + 1 }) r.2 else r.2)
  else (((mget x.c.tensors (rowKey bind p.2.1 row)).map (·.data)).getD [], s)

/-- Look rows up one after another. -/
def gatherRows (x : OpCx) (bind : Nat) (b : TableBind) : List ((Nat × Nat × Option Nat) × Nat) → State → List Bytes × State
  | [], s => ([], s)
  | (p, row) :: l, s =>
    let r := gatherRow x bind b p row s
    let q := gatherRows x bind b l r.2
    (r.1 :: q.1, q.2)

/-- A row number as a packet carries it, in 41 bits: one beyond them is beyond every table too (16 R618). -/
def wireRow (row : Nat) : Nat := min row (2 ^ 41 - 1)

/-- A lookup of a gather: the request whose index it is, the position that named it, the pin it reads, the row. -/
structure RowJob where
  entry : Nat
  acct : Nat
  at_ : Option RowPos
  pin : Nat × Nat × Option Nat
  row : Nat
deriving DecidableEq, Repr

/-- A remote row's question, under the account of a request whose index names it (16 R614, R618; 10 R377). -/
def askRow (x : OpCx) (bind : Nat) (b : TableBind) (j : RowJob) (s : State) : State :=
  sendReqFor { ptype := 0x03, account := j.acct, dst := b.home, arg0 := BitVec.ofNat 32 b.table
               arg1 := BitVec.ofNat 64 j.row, payload := leBytes 4 j.pin.2.1 ++ zeros 4 } none
    (some (x.n, x.share, rowKey bind j.pin.2.1 j.row)) s

/-- One job for each pinned version and row, the first of them. -/
def distinctRows : List RowJob → List RowJob
  | [] => []
  | a :: l => a :: (distinctRows l).filter fun b => !(b.pin == a.pin && b.row == a.row)

/-- The lookups of a gather by the positions of a step, noted for its commit (10 R376): one number for all that name a row
together, or one for each index that is looked up on its own. -/
def noteLooks (s0 : State) (x : OpCx) (fi : Nat) (jobs : List RowJob) (s : State) : State :=
  let looks : List Look := (withPos jobs).filterMap fun j => j.2.at_.bind fun r =>
    if rowPresent s0 j.2.pin j.2.row then
      some { op := if x.o.opcode = 0x51 then fi else fi + j.1, entry := r.entry, pos := r.pos, slot := j.2.pin.1, version := j.2.pin.2.1
             row := j.2.row }
    else none
  match jobOf s x.u with
  | some (k, _, _) => if x.share = 0 then modGen (fun g => { g with steps := mupd g.steps k fun r => { r with looks := r.looks ++ looks } }) s else s
  | none => s

/-- The lookups that an index tensor asks for: each under the pin of the request whose index it is (11 R409). -/
def rowJobs (s : State) (u : SUnit) (b : TableBind) (idx : List Nat) : List RowJob :=
  ((indexOwners s u idx.length).zip idx).filterMap fun e => (pinOf s b e.1.2.1).map fun p =>
    { entry := e.1.1, acct := e.1.2.1.account, at_ := e.1.2.2, pin := p, row := if b.isLocal then e.2 else wireRow e.2 }

/-- GATHER and GATHER_SU (05 R174; 11 R406 to R411): rows of a remote table are asked for first. -/
def gatherOp (fi : Nat) (x : OpCx) (ins : List Operand) (s : State) : State :=
  let bind := rd x.o.params 0 4
  match x.i.tables[bind]?, ins[0]? with
  | some b, some ix =>
    let idx := indexOf ix
    let jobs := rowJobs s x.u b idx
    let need := distinctRows (jobs.filter fun j => !b.isLocal && !mhas x.c.tensors (rowKey bind j.pin.2.1 j.row))
    if !need.isEmpty then
      foldS need (fun t q => askRow x bind b q t)
        (modCluster x.g (fun k => { k with slots := mupd k.slots x.slot fun c => { c with asks := c.asks + need.length } }) s)
    else
      let uniq := if x.o.opcode = 0x51 then distinctRows jobs else jobs
      let r := gatherRows x bind b (uniq.map fun j => (j.pin, j.row)) s
      let found := uniq.zip r.1
      let rows := if x.o.opcode = 0x51 then
          jobs.map fun j => ((found.find? fun f => f.1.pin == j.pin && f.1.row == j.row).map Prod.snd).getD []
        else r.1
      let nd := packedLen b.fmt b.rowElems
      let ns := if isMx b.fmt then b.rowElems / 32 else 0
      let data := rows.flatMap fun w => padTo w nd
      let scales := rows.flatMap fun w => padTo (w.drop nd) ns
      let u := (idx.foldl (fun l a => insertNum a l) []).flatMap (leBytes 8)
      let late := (jobs.filter fun j => b.isLocal && (lateRows x bind).any fun l => l.1 == j.row).filterMap fun j =>
        j.at_.map fun p => (p.entry, p.pos)
      let s1 := modCluster x.g (fun k => { k with slots := mupd k.slots x.slot fun c => { c with
        tensors := c.tensors.filter fun t => decide (t.1 < 2 ^ 80) } }) (noteLate x late (noteLooks s x fi jobs r.2))
      finishOp fi x [.raw (data ++ scales), .raw u] 0 s1
  | _, _ => finishOp fi x [.open_, .open_] 0 s

/-- A delta element (11 R412). -/
def deltaOf : Fv → RowDelta
  | .fin n m e => let d := (Fv.fin n m e).dy; .value d.m d.e
  | .inf n => .inf n
  | .nan => .nan

/-- The bytes of a remote add's deltas (16 R615). -/
def addPayload (fmt v : Nat) (ds : List Int) : Bytes :=
  let n := if fmt = 0xC then 8 else 12
  leBytes 4 v ++ zeros 4 ++ ds.flatMap fun z => leBytes n (z % 2 ^ (8 * n)).toNat

/-- Combine converted deltas of rows: sums per row, and what the conversions set: saturations and NaN count (11 R413). -/
def combineRows (fmt frac : Nat) (rows : List (Nat × List Fv)) : Map (List Int) × Bool × Nat :=
  rows.foldl (fun acc e =>
    let c := e.2.map fun v => convDelta fmt frac (deltaOf v)
    let z := c.map (·.1)
    let old := mget acc.1 e.1
    let sum := match old with | some l => (l.zip z).map fun y => y.1 + y.2 | none => z
    (mset acc.1 e.1 sum, acc.2.1 || c.any (·.2.1), acc.2.2 + (c.filter (·.2.2)).length)) ([], false, 0)

/-- A context waits for so many of its adds (11 R417). -/
def awaitAdds (x : OpCx) (n : Nat) (s : State) : State :=
  modCluster x.g (fun k => { k with slots := mupd k.slots x.slot fun z => { z with asks := z.asks + n } }) s

/-- The adds of one pinned version, of all requests of the unit that pinned it, under the first of them (11 R413 to R419).  What the conversion of a remote table's deltas found is noted here, since
a ROW_ADD carries converted deltas and no flags (03 R86; DEDUCED, assumption 38). -/
def scatterTo (x : OpCx) (b : TableBind) (p : Nat × Nat × Option Nat) (e : Nat) (y : RtEntry) (rows : List (Nat × List Fv))
    (s : State) : State :=
  if b.isLocal then
    match mget s.obj.tables p.1 with
    | none => s
    | some t =>
      let bad := rows.filter fun r => decide (t.nRows ≤ r.1)
      let c := combineRows t.fmt t.frac (rows.filter fun r => decide (r.1 < t.nRows))
      let s1 := evCount 7 4 bad.length (modTable p.1 (fun k => { k with
        dropIndex := k.dropIndex + bad.length, nanDeltas := k.nanDeltas + c.2.2
        flags := if c.2.1 then k.flags ||| 1 else k.flags }) s)
      foldS c.1 (fun v r =>
        let a := applyAdd p.1 p.2.1 r.1 { deltas := r.2, entry := some e, ctx := some (x.n, x.share) } v
        if a.1 = .held then awaitAdds x 1 a.2 else noteDrop e a.1 a.2) s1
  else
    let c := combineRows b.fmt (mgetD y.work.fracs b.table 0) (rows.map fun r => (wireRow r.1, r.2))
    let s1 := awaitAdds x c.1.length s
    let s2 := if c.2.1 || c.2.2 != 0 then modFab (fun f => { f with remoteAdds := f.remoteAdds ++ [(b.home, b.table, c.2.1, c.2.2)] }) s1 else s1
    foldS c.1 (fun v r => sendReqFor { ptype := 0x04, account := y.account, dst := b.home, arg0 := BitVec.ofNat 32 b.table
                                       arg1 := BitVec.ofNat 64 r.1, payload := addPayload b.fmt p.2.1 r.2 }
      (some e) (some (x.n, x.share, 0)) v) s2

/-- SCATTER_ADD (11 R412 to R419): the unit's first context sends the adds; with adds on the fabric it waits for their
answers. -/
def scatterOp (x : OpCx) (ins : List Operand) (s : State) : State :=
  let bind := rd x.o.params 0 4
  match x.i.tables[bind]?, ins[0]?, ins[1]? with
  | some b, some ix, some dv =>
    if x.share ≠ 0 then pass1 x false s
    else
      let idx := indexOf ix
      let rows := chunksOf b.rowElems idx.length dv.vals
      let jobs := (indexOwners s x.u idx.length).zip (idx.zip rows)
      let pinned := jobs.filterMap fun j => (pinOf s b j.1.2.1).map fun p => (p, j)
      let pins := pinned.foldl (fun l j => if l.contains j.1 then l else l ++ [j.1]) []
      let s1 := foldS pins (fun t p =>
        match pinned.filter fun j => j.1 == p with
        | [] => t
        | j :: js => scatterTo x b p j.2.1.1 j.2.1.2.1 ((j :: js).map fun q => q.2.2) t) s
      pass1 x (x.o.sub == 1 && ((mget (clusterOf s1 x.g).slots x.slot).map fun c => decide (0 < c.asks)) == some true) s1
  | _, _, _ => pass1 x false s

/-! ### ALLREDUCE (16 R616) -/

/-- A summand and the flags it carries (03 R81). -/
def summand (t : TensorDesc) (data : Bytes) (j : Nat) (v : Fv) : Option Dy × BitVec 4 :=
  let fl : BitVec 4 := if t.fmt = 0xE then BitVec.ofNat 4 (rd data (16 * j + 14) 1) else 0
  (if fl.getLsbD 2 then none else v.dy?, fl)

/-- ALLREDUCE: the unit's first context sends; the others take its result (16 R616; 05 R163). -/
def allreduceOp (fi : Nat) (x : OpCx) (ins : List Operand) (s : State) : State :=
  match ins[0]?, x.o.outs[0]? with
  | some a, some id =>
    match tensorAt x.i.tensors id with
    | none => finishOp fi x [] 0 s
    | some t =>
      let dims := runDims s x.n x.u t
      let done := match unitCtxs s x.u with
        | c0 :: _ => if c0.pc > x.c.pc ∧ !c0.waiting then mget c0.tensors id else none
        | [] => none
      if x.share ≠ 0 then
        match done with
        | some v => pass1 x false (putTensor x id t dims v.data v.scales s)
        | none => pass1 x true s
      else
        let order := (List.range (elemsOf dims)).map (rowMajor t dims)
        let own := order.map fun j => summand a.desc a.data j ((a.vals[j]?).getD (openElem fi 7 j))
        let ref := param32 x.o 1
        let red : Reduction := {
          own := own, fmtOut := t.fmt, saturate := x.o.saturate, unit := x.n, share := 0, out := id
          fixedR := if (ref / 2048) % 2 = 1 then none else some (toSigned 11 (ref % 2048)) }
        let refs := order.map fun j => match elemExp a j with | some x => x + 2 | none => 0
        let v : Tensor := { dims := dims, data := [] }
        let s1 := modCluster x.g (fun k => { k with slots := mupd k.slots x.slot fun c => { c with
          pc := c.pc + 1, waiting := true, tensors := mset c.tensors id v } }) s
        startReduction (param32 x.o 0 % 256) red refs s1
  | _, _ => finishOp fi x [.open_] 0 s

/-! ### Operations that use the request (06, 07, 10) -/

/-- The collection of a unit's request. -/
def unitColl (s : State) (u : SUnit) : Option Collection :=
  match unitEntries s u with
  | e :: _ => if e.2.1.mode = 4 then none else mget s.obj.collections e.2.1.work.search.par.coll
  | [] => none

/-- The tokenizer and the text options of a unit's request. -/
def unitText (s : State) (u : SUnit) : Option (Tokenizer × Nat) :=
  (unitEntries s u).head?.bind fun e => e.2.1.work.tokenizer.map fun k => (k, e.2.1.work.textOpts)

/-- The request of a row of SAMPLE, with the generated position that the row's token would take (10 R369, R370). -/
def sampleRow (s : State) (u : SUnit) (n i : Nat) : Option (RtEntry × Nat) :=
  (posOf (unitRows s u) n i).bind fun p => (entryOf s p.entry).map fun x => (x, p.picks.getD (p.pos + 1 - x.promptLen))

/-- Stage 11's packing for a unit's request (09 R338). -/
def unitPack (s : State) (u : SUnit) : Option (List (List Nat) × Nat × Nat) × List Nat :=
  match (unitEntries s u).head?, unitColl s u with
  | some e, some c => match e.2.1.work.template with
    | some t => let r := packOf s e.2.1 c t; (some r, buildPrompt t e.2.1.work.tokens r.1)
    | none => (none, [])
  | _, _ => (none, [])

/-- SAMPLE, SKETCH, PQ_TABLES, TOKENIZE, DETOKENIZE over the unit's request; other opcodes leave what the stages they name
do. -/
def requestOp (fi : Nat) (x : OpCx) (ins : List Operand) (s : State) : List OutVal × BitVec 4 :=
  let inp : Option Operand := ins[0]?
  let x0 : List Fv := (inp.map (·.vals)).getD []
  let dys := x0.map Fv.dy
  let tk := unitText s x.u
  match x.o.opcode with
  | 0x0033 =>
    let v := (inp.bind fun o => o.dims.getLast?).getD 1
    let rows := rowsOf v (x0.map fun y => BitVec.ofNat 32 (f32Bits y))
    ([.ints ((withPos rows).map fun e =>
      match sampleRow s x.u rows.length e.1 with
      | some (y, pos) => (sampleToken e.2 y.temperature y.topK y.topP y.seed pos).getD ((Config.free64 (fi + e.1)).toNat % max 1 v)
      | none => (Config.free64 (fi + e.1)).toNat % max 1 v)], 0)
  | 0x0040 => match unitColl s x.u with
    | some c =>
      let n := normalise c.desc.metric dys (dyExps dys)
      let k := sketchOf c n.1 n.2.1
      ([.raw (leBytes (c.desc.sketchBits / 8) k.1)], n.2.2 ||| k.2)
    | none => ([.open_], 0)
  | 0x0041 => match unitColl s x.u with
    | some c =>
      let n := normalise c.desc.metric dys (dyExps dys)
      ([.raw ((pqTable c n.1).bytes c.desc.pqM c.desc.metric)], n.2.2)
    | none => ([.open_], 0)
  | 0x0070 => match tk, inp with
    | some k, some o => match (tokenize k.1 k.2 o.data).2 with
      | .ok l => ([.ints l], 0)
      | .error _ => ([.open_], 0)
    | _, _ => ([.open_], 0)
  | 0x0074 => match tk, inp with
    | some k, some o =>
      let ids := (List.range (elemsOf o.dims)).map (rawElem o.desc.fmt o.data)
      ([.raw (ids.flatMap fun t => tokenBytes k.1 (((unitEntries s x.u).head?.map fun e => e.2.1.stop).getD {}) t)], 0)
    | _, _ => ([.open_], 0)
  | 0x0073 => let r := unitPack s x.u; (if r.1.isSome then [.ints r.2] else [.open_], 0)
  | _ => (x.o.outs.map fun _ => OutVal.open_, 0)

/-- What the units beside the clusters count when they serve an operation: the tokenizer and detokenizer, the prompt assembler
(06 R219; 09 R344). -/
def countRequestOp (x : OpCx) (ins : List Operand) (outs : List OutVal) (s : State) : State :=
  let made := match outs with | .ints l :: _ => l.length | _ => 0
  match x.o.opcode, ins[0]? with
  | 0x0070, some o =>
    let bad := match unitText s x.u with | some (k, opts) => (tokenize k opts o.data).1 | none => 0
    countText o.data.length made bad s
  | 0x0074, some o =>
    let n := elemsOf o.dims
    modObj (fun k => { k with txtDetok := k.txtDetok + n }) (evCount 4 4 n s)
  | 0x0073, _ => match (unitPack s x.u).1 with
    | some r => countPack r made s
    | none => s
  | _, _ => s

/-! ### Start (05 R153, R159; 12 R444, R447, R460) -/

/-- The operation a context may start now (05 R159). -/
def opReady (s : State) (g slot : Nat) : Option OpCx :=
  match mget (clusterOf s g).slots slot with
  | none => none
  | some c =>
    match mget s.sched.units c.unit, mget s.obj.images c.image with
    | some u, some i =>
      match i.ops[c.pc]? with
      | some o =>
        if o.opcode = 0 ∨ c.waiting ∨ c.asks ≠ 0 ∨ (clusterOf s g).group.any (·.slot == slot) ∨ !fetchesSettled i c ∨
            !pinsSettled s u || (o.opcode == 1 && ((clusterOf s g).group.isSome || !arrayTurn s g slot)) then none
        else some { g := g, slot := slot, n := c.unit, u := u, share := (u.slots.idxOf (g, slot)), c := c, i := i, o := o }
      | none => none
    | _, _ => none

/-- The first passes of a MATMUL_GROUP, whose descriptors its parameters hold, after the issue slots lost before them; the
rest follow by PASS_ISSUE (04 R103, R104). -/
def matmulOp (x : OpCx) (stalls : Nat) (s : State) : State :=
  if (clusterOf s x.g).group.isSome then s
  else
    let s1 := foldS (withPos x.o.passes) (fun t b => issuePass x.g x.slot b.2 { stalls := if b.1 = 0 then stalls else 0 } t) s
    if (x.o.passes.getLast?.map fun b => (passOf b).last) = some true ∧ (clusterOf s1 x.g).passCount ≠ (clusterOf s x.g).passCount then
      afterGroup x.g x.slot s1
    else s1

/-- A refused access: it tears the context down, is counted and recorded (12 R447).  An access to a member's own memory carries
that member's account (14 R546). -/
def refuseAccess (x : OpCx) (member : Option Nat) (s : State) : State :=
  let acct := ((member.bind fun e => x.u.members.find? fun m => m.1 == e).map fun m => m.2.1).getD x.c.account
  let s1 := evCount 8 3 1 (modMem (fun m => { m with tagFaults := m.tagFaults + 1 }) s)
  tearDown x.g x.slot 5 (recordEvent 2 8 0x0205 (instCluster x.g) [acct] s1)

/-- Bytes a fill engine produced (12 R457, R473). -/
def countFill (n : Nat) (s : State) : State :=
  evCount 8 7 ((n + 63) / 64) (modMem (fun m => { m with decompBytes := m.decompBytes + n }) s)

/-- A position's key-value entry as the elements of one head; zero where nothing was written (assumption 22). -/
def kvHead (s : State) (y : RtEntry) (image block heads head pos : Nat) (t : Operand) (shift : Int) : List (Fv × Option Int) :=
  let d := lastDim t.dims
  let row := (kvRow s y image block pos).getD { bits := List.replicate (rowWidth t.dims) 0 }
  ((row.vals t.desc.fmt shift).drop (head % max 1 heads * d)).take d

/-- ATTN_PAGED over key-value pages: a query sees the entries of its own request, in sub 0 up to its own position, in sub 1 up to
the last of the job; a draft image those its pages hold (05 R171; 10 R349, R353). -/
def attnPaged (s : State) (x : OpCx) (sigma : Fv) (q k v : Operand) : List Fv × BitVec 4 :=
  let ps := unitRows s x.u
  let h := headsOf 1 q.dims
  let rows := rowsOf (lastDim q.dims) (expVals q)
  let layer := (kvLayers x.i.ops).idxOf (k.id, v.id)
  let r := (withPos rows).map fun e =>
    let sees : Option (RtEntry × Nat × Nat) := (posOf ps (rows.length / h) (e.1 / h)).bind fun p => (entryOf s p.entry).map fun y =>
      (y, if x.u.image = y.genImage then 0 else 16 * y.draftSkip,
        if x.o.sub = 0 then p.pos else (((lastRows ps).find? fun z => z.entry == p.entry).map (·.pos)).getD p.pos)
    let at_ (t : Operand) (block : Nat) : List (List (Fv × Option Int)) := match sees with
      | some (y, lo, hi) => (List.range (hi + 1 - lo)).map fun j =>
        kvHead s y x.u.image block (headsOf 2 t.dims) (e.1 % h * headsOf 2 t.dims / h) (lo + j) t (elemShift s x.i t.id t.desc)
      | none => []
    attnRow sigma (expsFromElems q.desc.fmt) (expsFromElems k.desc.fmt) (expsFromElems v.desc.fmt) (lastDim v.dims) e.2
      (at_ k (32 * layer)) (at_ v (32 * layer + (if k.id = v.id then 0 else 16))) fun _ => false
  (r.flatMap Prod.fst, orFlags (r.map Prod.snd))

/-- ATTN_PAGED (05 R171); in stage 9 attention stays inside a pair (09 R329).  The passes into which it splits count like others
(04 R134). -/
def attnOp (fi : Nat) (x : OpCx) (ins : List Operand) (s : State) : State :=
  match ins with
  | q :: k :: v :: _ =>
    let sigma := f32Val (param32 x.o 0)
    let ps := unitRows s x.u
    let away (nq nk i j : Nat) : Bool := match x.u.kind with | .stage _ 9 => apart (posOf ps nq i) (posOf ps nk j) | _ => false
    let r := if isPaged x.i k.id && isPaged x.i v.id then attnPaged s x sigma q k v else attnAll x.o.sub sigma q k v away
    finishOp fi x [.vals r.1] r.2 (countPasses x.g x.u (Config.attnPasses q.dims k.dims) (passSlots q.desc.fmt) 0 false s)
  | _ => finishOp fi x [.open_] 0 s

/-- What the selection units count of an operation: rows, entries ranked, NaN entries, bucket selections (09 R342; that they
serve the operation, and not a cluster, is a DESIGN CHOICE, assumption 54). -/
def countSelect (o : Op) (outs : List OutVal) (ins : List Operand) (s : State) : State :=
  match outs, ins[0]? with
  | .raw b :: _, some _ =>
    let recs := rowsOf (64 + 8 * rd o.params 0 2) b
    let nan := (recs.map fun r => rd r 12 4).sum
    let s1 := selectionRows recs.length ((recs.map fun r => rd r 8 4).sum + nan) nan s
    if o.opcode = 0x32 then modSearch (fun q => { q with selBuckets := q.selBuckets + recs.length }) s1 else s1
  | _, _ => s

/-- An operation's effect, after the issue slots its first pass lost (05 R162). -/
def runOp (x : OpCx) (stalls : Nat) (s : State) : State :=
  let fi := s.free
  match operandsOf s fi x with
  | none => tearDown x.g x.slot 8 s
  | some ins =>
    let s := if x.o.ins.any fun t => !(lateFetches x t).isEmpty then noteLate x (jobPlaces s x.u) s else s
    match x.o.opcode with
    | 0x0001 => matmulOp x stalls s
    | 0x0002 => attnOp fi x ins s
    | 0x0021 => allreduceOp fi x ins { s with free := fi + opDraws }
    | 0x0050 => gatherOp fi x ins s
    | 0x0051 => gatherOp fi x ins s
    | 0x0052 => scatterOp x ins s
    | c =>
      if c = 0x33 ∨ c = 0x40 ∨ c = 0x41 ∨ c = 0x70 ∨ c = 0x71 ∨ c = 0x73 ∨ c = 0x74 then
        let r := requestOp fi x ins s
        finishOp fi x r.1 r.2 (if x.share = 0 then countRequestOp x ins r.1 s else s)
      else
        let od := x.o.outs[0]?.bind (tensorAt x.i.tensors)
        let dims := (od.map (runDims s x.n x.u)).getD []
        let bytes := (od.map fun t => tensorBytesOf t.fmt (runDims s x.n x.u t)).getD 0
        match evalOp fi x.o ins dims bytes with
        | none => tearDown x.g x.slot 8 s
        | some r =>
          let s1 := whenS (c == 0x61) (countFill bytes) s
          finishOp fi x r.1 r.2 (if inRange 0x30 0x32 c then countSelect x.o r.1 ins s1 else s1)

/-- Cores issuing, and cores with every context waiting, cycle by cycle (20 R745). -/
def countCores (g : Nat) (env : OpEnv) (s : State) : State := evCount (64 + g) 5 env.waits (evCount (64 + g) 4 env.cycles s)

/-- OPERATION_START (05 R153, R159): a run-time extent above its largest, a poisoned line and a refused access fault before
the operation reads; members of a step whose own extents are too large end, and the step runs again without them
(10 R366). -/
def execOperationStart (cluster slot : Nat) (env : OpEnv) (s : State) : Answer :=
  .next (match opReady s cluster slot with
    | none => s
    | some x =>
      let ts := (x.o.ins ++ x.o.outs).filterMap (tensorAt x.i.tensors)
      if (env.extentBad && ts.any (openExtent s x.u)) || ts.any (overExtent s x.n x.u) then
        tearDownFor (overMembers s x.u ts) cluster slot 6 s
      else if env.tagBad then refuseAccess x env.tagMember s
      else if env.poison then tearDown cluster slot 4 s
      else
        let own := env.memberLines.filter fun l => x.u.members.any fun m => m.1 == l.1
        runOp x env.stalls (foldS own (fun t l => charge l.1 { brixjoBytes := 64 * l.2 } t)
          (chargeUnit x.u (64 * env.brixjoLines) (fun q => { brixjoBytes := q }) (countCores cluster env s))))

end Sys2Proof.Machine
end

