-- ==== Sys2Proof/Machine/Mem.lean ====
section
/-! DEFINITION. The memory unit's events: the fetches of the relay schedule, borrowed frames, scrub, and the end of leases
(12 R450, R451, R456 to R471; 18 R684, R685). -/

namespace Sys2Proof.Machine

/-! ### What a fetch names (05 R156; 11 R410; 12 R458) -/

/-- The section of an operation: PREEMPT_POINTs before it. -/
def sectionOf (i : Image) (op : Nat) : Nat := ((i.ops.take op).filter fun o => o.opcode == 0).length

/-- The index input of the gather at an operation (11 R410). -/
def gatherIndex (i : Image) (op : Nat) : Option Nat :=
  match i.ops[op]? with
  | some o => if inRange 0x50 0x51 o.opcode then o.ins.head? else none
  | none => none

/-- The index tensor of a table entry with count 0 has been written (12 R458). -/
def indexWritten (i : Image) (c : Ctx) (r : RelayEntry) : Bool :=
  match gatherIndex i r.needOp with
  | some t => (List.range (min r.needOp i.ops.length)).all fun k => decide (k < c.pc) || !((i.ops[k]?).any fun o => o.outs.contains t)
  | none => true

/-- A context as the operand reader meets it. -/
def cxOf (n : Nat) (u : SUnit) (i : Image) (c : Ctx) : OpCx :=
  { g := 0, slot := 0, n := n, u := u, share := 0, c := c, i := i, o := ⟨0, 0, false, false, [], [], []⟩ }

/-- Rows a table entry names, each with a request that names it and whether a draft position does (11 R409, R410): a range is
named for every request of the unit. -/
def namedRows (s : State) (n : Nat) (u : SUnit) (i : Image) (c : Ctx) (r : RelayEntry) : List (Nat × RtEntry × Bool) :=
  if r.count ≠ 0 then
    (unitEntries s u).flatMap fun e => (List.range r.count).map fun k => (r.first + k, e.2.1, false)
  else match (gatherIndex i r.needOp).bind (operandOf s s.free (cxOf n u i c)) with
    | none => []
    | some ix =>
      let idx := indexOf ix
      ((indexOwners s u idx.length).zip idx).map fun x => (x.2, x.1.2.1, (x.1.2.2.map (·.draft)).getD false)

/-- Whether a row of a pinned version lies in Brixjo whatever the caches hold: rows that are hot, dirty or pinned (12 R435,
R436), and rows a lookup fetches nothing for (11 R407). -/
def rowResident (t : Table) (v : Nat) (row : Nat) : Bool :=
  match mget t.versions v with
  | none => true
  | some x =>
    mhas x.hot row || mhas x.dirty row || (t.pins.any fun p => p.version == v && decide (p.first ≤ row) && decide (row < p.first + p.count)) ||
    (match findRow t x row with | .present _ => false | _ => true)

/-- Rows of a table entry not readable at its issue, and those that only draft positions of a shared table name (12 R459;
18 R684). -/
def rowsWanted (s : State) (n : Nat) (u : SUnit) (i : Image) (c : Ctx) (r : RelayEntry) : List Nat × List Nat :=
  match i.tables[r.target % 2 ^ 31]? with
  | none => ([], [])
  | some b =>
    let named := namedRows s n u i c r
    let rows := named.foldl (fun l x => insertNum x.1 l) []
    match (tableSlot s b.table).bind fun k => (mget s.obj.tables k).map fun t => (k, t) with
    | none => (rows, [])
    | some (_, t) =>
      let ver (x : RtEntry) : Nat := ((pinOf s b x).map fun p => p.2.1).getD 0
      let filled (row : Nat) : Bool := named.any fun x => x.1 == row && s.mem.pendingFills.contains (x.2.1.account, b.table, row)
      let left := rows.filter fun row => !((named.filter fun x => x.1 == row).all fun x => rowResident t (ver x.2.1) row) && !filled row
      (left, if t.shared then left.filter fun row => (named.filter fun x => x.1 == row).all fun x => x.2.2 else [])

/-- Whether a tensor entry's data lies in Brixjo or SRAM whatever the caches hold (12 R433, R435). -/
def tensorResident (i : Image) (r : RelayEntry) : Bool :=
  match tensorAt i.tensors r.target with
  | some t => t.tier != 3
  | none => true

/-! ### Lent memory as a borrower uses it (12 R459, R468, R469; 16 R617) -/

/-- Frames an entry's outstanding data lie in: the object and the frame's index (12, The byte-plane format). -/
def framesOf (s : State) (i : Image) (handle : Nat) (r : RelayEntry) (rows : List Nat) (v : Nat) : List (Bool × Nat × Nat × Nat) :=
  if r.target.testBit 31 then
    match i.tables[r.target % 2 ^ 31]? with
    | none => []
    | some b =>
      let rpf := max 1 (16384 / slotBytesOf b.fmt b.rowElems)
      (rows.foldl (fun l x => insertNum (x / rpf) l) []).map fun k => (true, b.table, v, k)
  else
    let _ := s
    (List.range (r.count / 16384 + 2)).filterMap fun k =>
      let f := r.first / 16384 + k
      if f * 16384 < r.first + r.count then some (false, handle, r.target, f) else none

def LentFrame.is (f : LentFrame) (x : Bool × Nat × Nat × Nat) : Bool :=
  f.isTable == x.1 && f.obj == x.2.1 && f.sub == x.2.2.1 && f.index == x.2.2.2

/-- Whether a frame's store copy cannot change while a lent copy exists (12 R468). -/
def frameStable (s : State) (i : Image) (x : Bool × Nat × Nat × Nat) : Bool :=
  if x.1 then (((tableSlot s x.2.1).bind fun k => mget s.obj.tables k).map fun t => !t.addable).getD false
  else ((tensorAt i.tensors x.2.2.1).map fun t => t.constant || t.tier == 3).getD false

/-- The bytes of a frame, uncompressed. -/
def frameData (s : State) (i : Image) (x : Bool × Nat × Nat × Nat) : Bytes :=
  if x.1 then
    match (tableSlot s x.2.1).bind fun k => mget s.obj.tables k with
    | some t =>
      let n := slotBytesOf t.fmt t.rowElems
      let rpf := max 1 (16384 / n)
      let v := mget t.versions x.2.2.1
      (List.range rpf).flatMap fun k => (v.bind fun y => mget y.rows (x.2.2.2 * rpf + k)).getD (zeros n)
    | none => []
  else match tensorAt i.tensors x.2.2.1 with
    | some t => ((i.payload.drop (t.dataOff + 16384 * x.2.2.2)).take (min 16384 (t.dataLen - 16384 * x.2.2.2)))
    | none => []

/-- Ask a lender for a frame it keeps; the frame is its lease's most recently used (12 R459). -/
def readLentFrame (key : Nat) (f : LentFrame) (s : State) : State :=
  match mget s.mem.borrowed key with
  | none => s
  | some l =>
    let q : Packet := {
      ptype := 0x25, dst := l.peer, src := s.fab.id, arg0 := BitVec.ofNat 32 (key % 4096)
      arg1 := BitVec.ofNat 64 (f.place * frameRoom), payload := leBytes 4 frameRoom ++ zeros 4 }
    let r : PairReq := { seq := 0, sent := now s, first := now s, pkt := q }
    let s1 := modMem (fun m => { m with borrowed := mset m.borrowed key { l with dir := f :: l.dir.filter (· ≠ f) } }) s
    sendAll q (modPair l.peer (fun x => { x with asked := x.asked ++ [r] }) s1)

/-- Look for frames in lent memory (12 R459). -/
def readLentFrames (xs : List (Bool × Nat × Nat × Nat)) (s : State) : State :=
  foldS xs (fun t x =>
    match t.mem.borrowed.findSome? fun (l : Nat × Lease) => (l.2.dir.find? fun f => f.is x).map fun f => (l.1, f) with
    | some (k, f) => readLentFrame k f t
    | none => t) s

/-- The key owner of a frame: its account, or the module for shared data (12 R469). -/
def frameOwner (s : State) (i : Image) (x : Bool × Nat × Nat × Nat) : Nat :=
  if x.1 then (((tableSlot s x.2.1).bind fun k => mget s.obj.tables k).map fun t => if t.shared then 4096 else t.owner).getD 4096
  else if i.shared then 4096 else i.owner

/-- A frame as the borrower sends it: cut into lines, each enciphered under the owner's key pair with the lender's fabric ID, the
lease and the line's offset in the tweak (12 R469; the places of the three in the tweak are a DESIGN CHOICE, log entry 58). -/
def lentLines (s : State) (owner lender lease at_ : Nat) (b : Bytes) : Bytes :=
  (withPos (chunksOf 64 ((b.length + 63) / 64) b)).flatMap fun c =>
    Config.lineEncrypt owner (keySetOf s owner) (lender + 2 ^ 20 * lease + 2 ^ 32 * (at_ + c.1)) (padTo c.2 64)

/-- Place a frame fetched from flash: the first free place of a lease, or that of the least recently used frame (12 R468). -/
def placeFrame (i : Image) (s : State) (x : Bool × Nat × Nat × Nat) : State :=
  if (s.mem.borrowed.any fun l => l.2.dir.any fun f => f.is x) || !frameStable s i x then s
  else
    let room (l : Lease) : Option Nat := (List.range (l.pages * 2097152 / frameRoom)).find? fun p => !l.dir.any fun f => f.place == p
    let pick := match s.mem.borrowed.findSome? fun (l : Nat × Lease) => (room l.2).map fun p => (l.1, l.2, p) with
      | some y => some y
      | none => s.mem.borrowed.findSome? fun (l : Nat × Lease) => (l.2.dir.getLast?).map fun (f : LentFrame) => (l.1, l.2, f.place)
    match pick with
    | none => s
    | some (k, l, p) =>
      let f : LentFrame := { place := p, isTable := x.1, obj := x.2.1, sub := x.2.2.1, index := x.2.2.2 }
      let body := lentLines s (frameOwner s i x) l.peer (k % 4096) (p * frameRoom / 64) (compress 0 (frameData s i x))
      let q : Packet := {
        ptype := 0x24, dst := l.peer, arg0 := BitVec.ofNat 32 (k % 4096), arg1 := BitVec.ofNat 64 (p * frameRoom), payload := body }
      sendAll q (modMem (fun m => { m with
        borrowed := mset m.borrowed k { l with dir := f :: l.dir.filter fun y => y.place != p } }) s)

/-- Ask the members of the lending set for pages (16 R617). -/
def askLeases (s : State) : State :=
  let n := 1 + (Config.leaseWant s.free).toNat % 983040
  foldS ((setIds s s.fab.lendSet).filter (· ≠ s.fab.id)) (fun t id =>
    sendReq { ptype := 0x20, dst := id, arg0 := BitVec.ofNat 32 n } none t) { s with free := s.free + 1 }

/-! ### FETCH_ISSUE, FETCH_ARRIVE, FETCH_DEADLINE (12 R458 to R466) -/

/-- A unit that is resident, with its image, its first context and a relay-schedule entry. -/
def fetchOf (s : State) (n seq : Nat) : Option (SUnit × Image × Ctx × RelayEntry) :=
  match mget s.sched.units n with
  | none => none
  | some u =>
    match mget s.obj.images u.image, unitCtxs s u with
    | some i, c :: _ => (i.relay.find? fun r => r.seq == seq).map fun r => (u, i, c, r)
    | _, _ => none

/-- Change every context of a unit. -/
def modUnitCtxs (n : Nat) (f : Ctx → Ctx) (s : State) : State :=
  foldS (List.range (shareCount s n)) (fun t k => modShare n k f t) s

/-- Whether an entry may issue (12 R458). -/
def mayIssue (i : Image) (c : Ctx) (r : RelayEntry) : Bool :=
  !(c.fetches.any fun f => f.seq == r.seq) && (i.relay.all fun x => decide (r.seq ≤ x.seq) || c.fetches.any fun f => f.seq == x.seq) &&
  decide (sectionOf i r.needOp ≤ sectionOf i c.pc + 1) && decide ((c.fetches.filter fun f => f.state == .outstanding).length < 64) &&
  (!r.target.testBit 31 || r.count != 0 || indexWritten i c r)

/-- The version a unit pins of a local table. -/
def unitVersion (s : State) (u : SUnit) (i : Image) (r : RelayEntry) : Nat :=
  match i.tables[r.target % 2 ^ 31]?, (unitEntries s u).head? with
  | some b, some e => ((pinOf s b e.2.1).map fun p => p.2.1).getD 0
  | _, _ => 0

/-- Issue an entry: data already readable completes the fetch at once; lent memory is asked when borrowing is enabled
(12 R458 to R460). -/
def issueFetch (n : Nat) (u : SUnit) (i : Image) (c : Ctx) (r : RelayEntry) (s : State) : State :=
  let tab := r.target.testBit 31
  let want := if tab then rowsWanted s n u i c r else ([], [])
  let ready := if tab then want.1.isEmpty else tensorResident i r
  let dies := (List.range 4).map fun d => match i.tables[r.target % 2 ^ 31]? with
    | some b => match (tableSlot s b.table).bind fun k => (mget s.obj.tables k).map fun t => (k, t) with
      | some (k, t) =>
        if !tab then 0
        else if r.count ≠ 0 then dieRowsBelow s k t d (r.first + r.count) - dieRowsBelow s k t d r.first
        else (want.1.filter fun row => stackDie (homeStack s k t row) == d).length
      | none => 0
    | none => 0
  let f : Fetch := {
    seq := r.seq, issued := now s, deadline := now s + 1000 * r.deadlineUs, state := if ready then .arrived else .outstanding
    rowsLeft := want.1, dieRows := dies, spec := want.2 }
  let s1 := evCount 8 4 1 (modMem (fun m => { m with fetches := m.fetches + 1 }) (modUnitCtxs n (fun x => { x with fetches := x.fetches ++ [f] }) s))
  let borrow := s.mem.ctl.getLsbD 2
  if ready ∨ !borrow ∨ r.fromTier = 1 then s1
  else
    let s2 := readLentFrames (framesOf s1 i u.image r want.1 (unitVersion s u i r)) s1
    whenS (r.fromTier == 2 && s.mem.borrowed.isEmpty && s.fab.lendSet != 0) askLeases s2

/-- FETCH_ISSUE (12 R458). -/
def execFetchIssue (unit seq : Nat) (s : State) : Answer :=
  .next (match fetchOf s unit seq with
    | some (u, i, c, r) => if mayIssue i c r then issueFetch unit u i c r s else s
    | none => s)

/-- Rows of a missed table fetch that the shadow replaces, and those read as zero (11 R411). -/
def missedRows (s : State) (n : Nat) (i : Image) (r : RelayEntry) (rows : List Nat) : Nat × Nat :=
  match (i.tables[r.target % 2 ^ 31]?).bind fun b => (tableSlot s b.table).bind fun k => mget s.obj.tables k with
  | some t =>
    let k := (rows.filter fun row => (shadowRow s n r.seq t row).isSome).length
    (k, rows.length - k)
  | none => (0, rows.length)

/-- A fetch misses its deadline (12 R460, R462, R465). -/
def missFetch (n : Nat) (u : SUnit) (i : Image) (c : Ctx) (r : RelayEntry) (s : State) : State :=
  let rows := ((c.fetches.find? fun f => f.seq == r.seq).map (·.rowsLeft)).getD []
  let cnt : Nat × Nat := match r.fallback with
    | 0 => (1, 0)
    | 1 => if r.target.testBit 31 then (0, rows.length) else (0, 1)
    | _ => missedRows s n i r rows
  let s1 := modUnitCtxs n (fun x => { x with
    fetches := x.fetches.map fun f => if f.seq = r.seq then { f with state := .missed } else f, missed := x.missed ++ [r.seq] }) s
  let s2 := evCount 8 5 1 (modMem (fun m => { m with misses := m.misses + 1, fbShadow := m.fbShadow + cnt.1, fbZero := m.fbZero + cnt.2 }) s1)
  match u.kind with
  | .step _ => s2
  | _ => foldS u.members (fun t m => charge m.1 { degraded := 1 } t) s2

/-- Whether a fetch of a unit is outstanding. -/
def fetchOut (c : Ctx) (seq : Nat) : Option Fetch := c.fetches.find? fun f => f.seq == seq && f.state == .outstanding

/-- FETCH_DEADLINE (12 R460, R462): at the deadline instant. -/
def execFetchDeadline (unit seq : Nat) (s : State) : Answer :=
  .next (match fetchOf s unit seq with
    | some (u, i, c, r) => match fetchOut c seq with
      | some f => missFetch unit u i c r (advanceTo f.deadline s)
      | none => s
    | none => s)

/-- Bytes a fetch brings through the fill engines. -/
def fillBytes (i : Image) (r : RelayEntry) (rows : List Nat) : Nat :=
  if r.target.testBit 31 then
    match i.tables[r.target % 2 ^ 31]? with
    | some b => rows.length * slotBytesOf b.fmt b.rowElems
    | none => 0
  else r.count

/-- Data of a fetch become readable: rows of a table, or a tensor's range; frames fetched for lent memory are placed there
(12 R460, R461, R466, R468; 18 R684). -/
def arriveFetch (n : Nat) (u : SUnit) (i : Image) (c : Ctx) (r : RelayEntry) (f : Fetch) (rows : List Nat) (s : State) : State :=
  let tab := r.target.testBit 31
  let came := if tab then f.rowsLeft.filter fun x => rows.contains x else []
  let left := f.rowsLeft.filter fun x => !rows.contains x
  let s1 := modUnitCtxs n (fun x => { x with fetches := x.fetches.map fun g =>
    if g.seq = r.seq ∧ g.state = .outstanding then { g with rowsLeft := left, state := if left.isEmpty then .arrived else .outstanding } else g }) s
  let s2 := countFill (fillBytes i r came) s1
  let tid := ((i.tables[r.target % 2 ^ 31]?).map (·.table)).getD 0
  let spec := came.filter fun x => f.spec.contains x
  let marks := if spec.isEmpty then [] else
    ((namedRows s n u i c r).filter fun x => spec.contains x.1).foldl (fun l x =>
      if l.contains (x.2.1.account, tid, x.1) then l else l ++ [(x.2.1.account, tid, x.1)]) []
  let s3 := modMem (fun m => { m with pendingFills := m.pendingFills ++ marks }) s2
  if r.fromTier = 2 ∧ s.mem.ctl.getLsbD 2 then
    foldS (framesOf s3 i u.image r (came.filter fun x => !f.spec.contains x) (unitVersion s u i r)) (placeFrame i) s3
  else s3

/-- FETCH_ARRIVE (12 R460, R461): data that come after the deadline instant find the fetch missed. -/
def execFetchArrive (unit seq : Nat) (rows : List Nat) (s : State) : Answer :=
  .next (match fetchOf s unit seq with
    | some (u, i, c, r) => match fetchOut c seq with
      | some f => if f.deadline < now s then missFetch unit u i c r s else arriveFetch unit u i c r f rows s
      | none => s
    | none => s)

/-! ### Scrub (12 R450, R451) -/

/-- SCRUB_PASS (12 R450): with scrub enabled, every line of the stack is read, decoded and corrected. -/
def execScrubPass (stack : Nat) (s : State) : Answer :=
  .next (if s.mem.ctl.getLsbD 0 && decide (stack < 20) && (stackOf s stack).ok then
      readLines ((s.mem.lines.filter fun l => lineStack s l.1 == stack).map Prod.fst) s
    else s)

/-! ### The end of leases (12 R470, R471, R474) -/

/-- LEND_RECLAIM_START (12 R470). -/
def execLendReclaimStart (lease : Nat) (s : State) : Answer := .next (reclaimLease lease s)

/-- LEASE_PATH_LOST (12 R471): a borrowed lease, keyed by lender and number, is treated as reclaimed. -/
def execLeasePathLost (lease : Nat) (s : State) : Answer :=
  .next (if mhas s.mem.borrowed lease then
      modMem (fun m => { m with borrowed := merase m.borrowed lease, reclaims := m.reclaims + 1 }) s
    else s)

/-- MEM_LEND_DISABLE (12 R470, R474): clearing MEM_CTL.lend_en reclaims every lease. -/
def execMemLendDisable (fn : Nat) (s : State) : Answer :=
  .next (if isPf fn then
      foldS (s.mem.lent.map Prod.fst) (fun t k => reclaimLease k t) (modMem (fun m => { m with ctl := m.ctl &&& ~~~2 }) s)
    else s)

end Sys2Proof.Machine
end

