-- ==== Sys2Proof/Machine/Flash.lean ====
section
/-! DEFINITION. Flash media management: decoding of reads, retirement and spares, garbage collection, wear levelling and the
read-only transition (13 R479 to R505). -/

namespace Sys2Proof.Machine

/-! ### Moving and erasing (13 R487, R492, R494) -/

/-- Relocate a block's valid units into a free block, which is closed at the present flash time (13 R487, R494). -/
def relocate (ch : Nat) (b : Block) (dst : Nat × Nat) (s : State) : State :=
  if b.units.isEmpty then s
  else
    let n := b.units.length
    let d := blockAt (channelOf s ch) b.part dst.1 dst.2
    let s1 := modChannel ch (fun c => putBlock { b with units := [] } (putBlock { d with
      state := .closed, units := b.units, used := n, closedAt := flashNow s, refresh := none, softReads := 0 } c)) s
    countReads n (countPrograms n { s1 with free := s1.free + 1 })

/-- Erase a block into the free pool (13 R492, R494). -/
def eraseBlock (ch : Nat) (b : Block) (s : State) : State :=
  evCount 9 3 1 (modFlash (fun f => { f with erases := f.erases + 1 }) (modChannel ch (putBlock { b with
    state := .free, erases := b.erases + 1, units := [], used := 0, refresh := none, softReads := 0 }) s))

/-! ### The read-only transition (13 R498 to R501) -/

/-- The flash unit's interrupt (13 R496, R500). -/
def flashIrq (s : State) : State := irqEval false 9 (modPage 9 (fun p => { p with block := true }) s)

/-- A partition becomes read-only: what the hubs hold in their buffers is programmed, with the reserve; collection and levelling stop on it, every open session aborts, and it is recorded and
noticed (13 R498, R500; 15 R585). -/
def goReadOnly (part ch cause : Nat) (s00 : State) : State :=
  let s0 := foldS (List.range 64) (fun t n => if (channelOf t n).ok then drainBuffers true n part t else t) s00
  let s := modFlash (fun f => { f with roCauses := f.roCauses ++ [(part, ch, cause)] }) s0
  if partRo s part then s
  else
    let s1 := modFlash (fun f =>
      let f1 := if part = 0 then { f with sprintRo := true, sprintCause := cause, sprintRoCh := ch }
        else { f with storeRo := true, storeCause := cause, storeRoCh := ch }
      { f1 with channels := mmap f1.channels fun _ c =>
          if part = 0 then { c with gcSprint := false, wlActive := false } else { c with gcStore := false, wlActive := false } }) s
    let s2 := foldS (s1.obj.collections.map Prod.fst) (fun t id => abortSession id Status.mediaReadOnly false t) s1
    let s3 := recordEvent 2 9 0x0302 (instChannel ch) [part, ch, cause, now s2] s2
    postNotice { status := Status.mediaReadOnly, part := part, channel := ch } (flashIrq s3)

/-! ### Retirement (13 R490, R495 to R498) -/

/-- Retire a block: its readable units move, and a spare of the same share takes its place; without a spare the partition
becomes read-only. -/
def retireBlock (ch part die num : Nat) (s : State) : State :=
  let b := blockAt (channelOf s ch) part die num
  if b.state = .retired then s
  else if sparesLeft s ch part = 0 then goReadOnly part ch 1 s
  else
    let s1 := relocate ch b (pickFree s ch part) s
    let s2 := modChannel ch (fun c =>
      let d := putBlock { b with state := .retired, units := [], refresh := none } c
      if part = 0 then { d with sprintTaken := d.sprintTaken + 1 } else { d with storeTaken := d.storeTaken + 1 }) s1
    recordEvent 1 9 0x0303 (instChannel ch) [part, die, num] (modFlash (fun f => { f with retired := f.retired + 1 }) s2)

/-- Mark a block for refresh once, in the order of marking (13 R490, R494). -/
def markRefresh (ch : Nat) (b : Block) (s : State) : State :=
  if b.refresh.isSome then s
  else modFlash (fun f => { f with nextRefresh := f.nextRefresh + 1 })
    (modChannel ch (putBlock { b with refresh := some s.flash.nextRefresh }) s)

/-! ### FLASH_READ_DECODE (13 R488 to R490) -/

/-- What becomes of an unreadable unit (13 R489). -/
def unreadable (h : FlashHolds) (s : State) : State :=
  match h with
  | .graphPage coll page => modColl coll (fun c => { c with badPages := insertNum page c.badPages }) s
  | .textBlob coll id => modColl coll (fun c => { c with items := mupd c.items id fun i => { i with readable := false } }) s
  | .frame _ _ _ => s
  | .other cluster slot => tearDown cluster slot 8 s

/-- The account's read (14 R543): a walk's page reads are charged by its hop; a read of table rows for a step is kept for its
commit, which tells the speculative ones (10 R376); a step's read of a tensor is shared by its members (14 R545). -/
def chargeFlashRead (r : FlashRead) (s : State) : State :=
  match r.holds with
  | .graphPage _ _ => s
  | .frame n seq rows => match mget s.sched.units n with
    | some u => match u.kind with
      | .step k =>
        match (mget s.obj.images u.image).bind fun i => (i.relay.find? fun x => x.seq == seq).map fun x => (i, x) with
        | some (i, x) =>
          match (if x.target.testBit 31 then i.tables[x.target % 2 ^ 31]? else none).bind fun b => tableSlot s b.table with
          | some slot => modGen (fun g => { g with steps := mupd g.steps k fun y => { y with reads := y.reads ++ [(slot, rows)] } }) s
          | none => chargeUnit u 1 (fun q => { flashReads := q }) s
        | none => chargeUnit u 1 (fun q => { flashReads := q }) s
      | _ => match u.members.head? with | some m => charge m.1 { flashReads := 1 } s | none => s
    | none => s
  | _ => chargeAcct r.account { flashReads := 1 } s

/-- The numbers of the units that hold what a read was for (13 R485, R486). -/
def unitsOfHolds (s : State) : FlashHolds → List Nat
  | .graphPage coll page => match mget s.obj.collections coll with
    | some c => [unitKey 0 c.desc.idBase 0 page]
    | none => []
  | .textBlob coll id => match (mget s.obj.collections coll).bind fun c => (mget c.items id).map fun i => (c, i) with
    | some (c, i) => (rangeWrites c.regionMap 3 c.desc.idBase 0 (16 * i.textAt) i.blob.length).map (·.key)
    | none => []
  | .frame n seq rows => match fetchOf s n seq with
    | some (u, i, _, r) => match (i.tables[r.target % 2 ^ 31]?).bind fun b => tableSlot s b.table with
      | some k => match mget s.obj.tables k with
        | some t => (rowWrites k (unitVersion s u i r) t rows).map (·.key)
        | none => []
      | none => []
    | none => []
  | .other _ _ => []

/-- An unreadable unit leaves its block before the block is retired, which moves its readable units alone (13 R495). -/
def dropUnread (r : FlashRead) (s : State) : State :=
  let gone := unitsOfHolds s r.holds
  let b := blockAt (channelOf s r.channel) r.part r.die r.block
  whenS (b.units.any gone.contains) (modChannel r.channel (putBlock { b with units := b.units.filter fun k => !gone.contains k })) s

/-- Count a read by the level it needed. -/
def countRead (level : Option Nat) (s : State) : State :=
  let hard := level != some 0
  let bad := level.isNone
  let s1 := evCount 9 1 1 (modFlash (fun f => { f with
    reads := f.reads + 1, retry := f.retry + b2n hard, fail := f.fail + b2n bad }) s)
  evCount 9 5 (b2n bad) (evCount 9 4 (b2n hard) s1)

/-- FLASH_READ_DECODE: the ladder's outcome, refresh at level 5, retirement at the second level 8 and at an unreadable unit. -/
def execFlashReadDecode (r : FlashRead) (s : State) : Answer :=
  .next (if r.channel < 64 ∧ r.part < 2 ∧ !hubWaits s r.channel ∧ !(channelOf s r.channel).failed ∧ !(channelOf s r.channel).retired then
      let s1 := chargeFlashRead r (countRead r.level s)
      let b := blockAt (channelOf s1 r.channel) r.part r.die r.block
      match r.level with
      | none => unreadable r.holds (retireBlock r.channel r.part r.die r.block (dropUnread r s1))
      | some l =>
        if l < 5 then s1
        else
          let s2 := markRefresh r.channel b s1
          if l < 8 then s2
          else
            let b2 := blockAt (channelOf s2 r.channel) r.part r.die r.block
            let s3 := modChannel r.channel (putBlock { b2 with softReads := b2.softReads + 1 }) s2
            if 2 ≤ b2.softReads + 1 then retireBlock r.channel r.part r.die r.block s3 else s3
    else s)

/-! ### Garbage collection (13 R493, R494) -/

/-- A count as FP32. -/
def fpNat (n : Nat) : Fv := rn32 ⟨n, 0⟩

/-- Rated cycles of a partition. -/
def ratedCycles (part : Nat) : Nat := if part = 0 then 30000 else 1500

/-- The score of a closed block, each step rounded to FP32 (13 R493). -/
def blockScore (s : State) (b : Block) : Fv :=
  let valid := (fvDiv (fpNat b.units.length) (fpNat 4096)).1
  let ageQ := (fvDiv (fpNat (flashNow s - b.closedAt)) (fpNat s.flash.ageScale)).1
  let age := if fvLt fvOne ageQ then fvOne else ageQ
  let wear := (fvDiv (fpNat b.erases) (fpNat (ratedCycles b.part))).1
  (fvDiv (fvMul (fvAdd fvOne valid.neg).1 age).1 (fvAdd fvOne wear).1).1

/-- Order of blocks collected: marked ones first, in order of marking; then by score, fewer valid units, die, number. -/
def gcBefore (s : State) (a b : Block) : Bool :=
  match a.refresh, b.refresh with
  | some x, some y => decide (x < y)
  | some _, none => true
  | none, some _ => false
  | none, none =>
    let x := blockScore s a
    let y := blockScore s b
    fvLt y x || (!fvLt x y && (decide (a.units.length < b.units.length) || (a.units.length == b.units.length &&
      (decide (a.die < b.die) || (a.die == b.die && decide (a.num < b.num))))))

/-- The next block to collect: closed, and marked or with a score above 0. -/
def gcCandidate (s : State) (ch part : Nat) : Option Block :=
  (sortBy (gcBefore s) ((listedBlocks (channelOf s ch) part).filter fun b =>
    b.state == .closed && (b.refresh.isSome || fvLt (fvZero false) (blockScore s b)))).head?

/-- Collection running on a share. -/
def gcOn (c : Channel) (part : Nat) : Bool := if part = 0 then c.gcSprint else c.gcStore
def setGc (ch part : Nat) (on : Bool) (s : State) : State :=
  modChannel ch (fun c => if part = 0 then { c with gcSprint := on } else { c with gcStore := on }) s

/-- Whether a share's free blocks have fallen below the start level, half of it with gc_en 0 (13 R494, R508, R511). -/
def gcDue (s : State) (ch part : Nat) : Bool :=
  decide ((if s.flash.ctl.getLsbD 0 then 1000 else 2000) * freeBlocks s ch part < bitsOf s.flash.gcThresh.toNat 7 0 * channelBlocks s part)

/-- GC_START (13 R494, R508). -/
def execGcStart (channel part : Nat) (s : State) : Answer :=
  .next (if channel < 64 ∧ part < 2 ∧ (channelOf s channel).ok ∧ !partRo s part ∧ gcDue s channel part then setGc channel part true s
    else s)

/-- Free blocks have reached the stop level (13 R494, R511). -/
def gcReached (s : State) (ch part : Nat) : Bool :=
  decide (bitsOf s.flash.gcThresh.toNat 15 8 * channelBlocks s part ≤ 1000 * freeBlocks s ch part)

/-- GC_BLOCK (13 R494): one block's valid units move, not into the reserve (13 R499), and it is erased. -/
def execGcBlock (channel part : Nat) (s : State) : Answer :=
  .next (if channel < 64 ∧ part < 2 ∧ !hubWaits s channel ∧ gcOn (channelOf s channel) part then
      match gcCandidate s channel part with
      | none => setGc channel part false s
      | some b =>
        let n := b.units.length
        if !b.units.isEmpty && !hasFree s channel part then s
        else
        let s1 := relocate channel b (pickFree s channel part) s
        let s2 := drainBuffers false channel part <| evCount 9 6 n (modFlash (fun f => { f with gcMoves := f.gcMoves + n }) (eraseBlock channel b s1))
        whenS (gcReached s2 channel part) (setGc channel part false) s2
    else s)

/-! ### Wear levelling (13 R491, R492) -/

/-- Erase counts of a share's blocks that are neither spare nor retired, 0 for those not listed. -/
def wearCounts (s : State) (ch part : Nat) : List Nat :=
  let l := listedBlocks (channelOf s ch) part
  let fresh := decide (l.length + sparesLeft s ch part < channelBlocks s part)
  (if fresh then [0] else []) ++ (l.filter fun b => b.state != .spare && b.state != .retired).map (·.erases)

/-- The spread (13 R491). -/
def wearSpreadOf (s : State) (ch part : Nat) : Nat :=
  let l := wearCounts s ch part
  maxNat l - (minNat l).getD 0

/-- The limit of a partition's spread (13 R510). -/
def spreadLimit (s : State) (part : Nat) : Nat :=
  if part = 0 then bitsOf s.flash.wearSpread.toNat 31 16 else bitsOf s.flash.wearSpread.toNat 15 0

/-- Lower die, then lower number. -/
def placeBefore (a b : Block) : Bool := decide (a.die < b.die) || (a.die == b.die && decide (a.num < b.num))

/-- The coldest closed block, and the most worn free block (13 R492). -/
def coldest (s : State) (ch part : Nat) : Option Block :=
  (sortBy (fun a b => decide (a.erases < b.erases) || (a.erases == b.erases && placeBefore a b))
    ((listedBlocks (channelOf s ch) part).filter fun b => b.state == .closed)).head?
def mostWorn (s : State) (ch part : Nat) : Nat × Nat :=
  let c := channelOf s ch
  match (sortBy (fun a b => decide (b.erases < a.erases) || (a.erases == b.erases && placeBefore a b))
    ((listedBlocks c part).filter fun b => b.state == .free && decide (0 < b.erases))).head? with
  | some b => (b.die, b.num)
  | none =>
    let all := (List.range diesPerChannel).flatMap fun d => (blockNums s part).map fun n => (d, n)
    ((all.find? fun p => (blockAt c part p.1 p.2).state == .free)).getD (0, 8)

/-- WEAR_LEVEL_MOVE (13 R492, R499): while the spread exceeds its limit and wl_en is 1. -/
def execWearLevelMove (channel part : Nat) (s : State) : Answer :=
  .next (if channel < 64 ∧ part < 2 ∧ !hubWaits s channel ∧ s.flash.ctl.getLsbD 1 ∧ !partRo s part ∧ spreadLimit s part < wearSpreadOf s channel part then
      match coldest s channel part with
      | none => s
      | some b =>
        let n := b.units.length
        if !b.units.isEmpty && !hasFree s channel part then s
        else
        let s1 := relocate channel b (mostWorn s channel part) s
        let s2 := drainBuffers false channel part <| evCount 9 7 n (modFlash (fun f => { f with wlMoves := f.wlMoves + n }) (eraseBlock channel b s1))
        let more := decide (spreadLimit s2 part < wearSpreadOf s2 channel part)
        modChannel channel (fun c => { c with wlActive := more }) s2
    else s)

/-! ### SPARE_LOW_REACHED, PROGRAM_FAIL, CHANNEL_FAIL (13 R496 to R498) -/

/-- SPARE_LOW_REACHED (13 R496): once per partition and channel. -/
def execSpareLowReached (channel part : Nat) (s : State) : Answer :=
  let c := channelOf s channel
  let low := if part = 0 then c.sprintLow else c.storeLow
  .next (if channel < 64 ∧ part < 2 ∧ !low ∧ sparesLeft s channel part * 10 < initialSpares s part then
      let s1 := modChannel channel (fun x => if part = 0 then { x with sprintLow := true } else { x with storeLow := true }) s
      let s2 := recordEvent 1 9 0x0301 (instChannel channel) [part, channel] s1
      postNotice { status := Status.spareLow, part := part, channel := channel } (flashIrq s2)
    else s)

/-- PROGRAM_FAIL (13 R490, R497): the data is written again into another free block, and the block is retired. -/
def execProgramFail (channel part die block : Nat) (s : State) : Answer :=
  .next (if channel < 64 ∧ part < 2 then
      retireBlock channel part die block (evCount 9 2 1 (modFlash (fun f => { f with programs := f.programs + 1 }) s))
    else s)

/-- A collection whose channel has failed: a passage with a unit there cannot be read (13 R486, R489). -/
def blindTexts (ch : Nat) (c : Collection) : Collection :=
  { c with items := mmap c.items fun _ i =>
      { i with readable := i.readable && !(rangeWrites c.regionMap 3 0 0 (16 * i.textAt) i.blob.length).any fun w => w.ch == ch } }

/-- A channel fails: both partitions become read-only, and what lies on it cannot be read (13 R489, R498). -/
def failChannel (ch : Nat) (s0 : State) : State :=
  let s := modObj (fun o => { o with collections := mmap o.collections fun _ c => blindTexts ch c }) s0
  if (channelOf s ch).failed || (channelOf s ch).retired then s0
  else goReadOnly 1 ch 2 (goReadOnly 0 ch 2 (modChannel ch (fun c => { c with failed := true, ok := false }) s))

/-- CHANNEL_FAIL (13 R498). -/
def execChannelFail (channel : Nat) (s : State) : Answer := .next (if channel < 64 then failChannel channel s else s)

end Sys2Proof.Machine
end

