-- ==== Sys2Proof/Machine/Bringup.lean ====
section
/-! DEFINITION. Power-up, service levels, recovery, resets, loss of input and hard limits, internal links and cluster power
(17 R632 to R651; 21 R754 to R770; 20 R747 to R753; 02 R44 to R53; 13 R505, R506; 18 R664, R667, R674, R688). -/

namespace Sys2Proof.Machine

/-! ### What a module reset leaves (17 R637; 20 R753; 12 R436) -/

/-- The contents a version keeps: those last written back (12 R436). -/
def Version.settle (v : Version) : Version :=
  { cond := v.cond
    rows := v.homes.foldl (fun m e => match e.2 with | some b => mset m e.1 b | none => merase m e.1) v.rows }

/-- Whether a version keeps its contents: it is not retired (11 R401). -/
def Version.kept (v : Version) : Bool := v.cond != .retired

/-- A table after a reset. -/
def Table.settle (t : Table) : Table :=
  { t with
    versions := mmap (t.versions.filter fun v => v.2.kept) fun _ v => v.settle
    flags := 0, defInvalid := 0, defMissing := 0, adds := 0, dropRetired := 0, dropFull := 0, dropIndex := 0, nanDeltas := 0
    promotions := 0, demotions := 0 }

/-- The tables that lose adds held only in Brixjo (12 R436). -/
def tablesLosing (o : Objects) : List Nat :=
  (o.tables.filter fun t => !t.2.deleted && t.2.versions.any fun v => v.2.kept && !v.2.dirty.isEmpty).map fun t => t.2.id

/-- The catalogue (17 R637): objects kept only for earlier work, and loads held, are gone; primaries are not resident, graphs
not verified. -/
def resetObj (o : Objects) : Objects :=
  { profiles := mmap (o.profiles.filter fun p => p.2.cur.isSome) fun _ p => { cur := p.cur }
    tokenizers := o.tokenizers
    templates := o.templates
    images := mmap (o.images.filter fun i => !i.2.unloaded) fun _ i => { i with resident := false, freePages := List.range i.kvPages }
    handleDraws := o.handleDraws
    collections := mmap (o.collections.filter fun c => !c.2.deleted) fun _ c =>
      { c with verified := c.desc.privileged, session := c.session.map fun x => { x with committing := none, closing := false } }
    filters := o.filters
    nextFilter := o.nextFilter
    tables := mmap (o.tables.filter fun t => !t.2.deleted) fun _ t => t.settle }

/-- Accounts keep their records; counters start empty (17 R637, 14 R543). -/
def resetSched (d : Sched) : Sched := { accounts := mmap d.accounts fun _ a => { record := a.record }, keygen := d.keygen }

/-- Retired stacks stay retired (17 R635). -/
def resetMem (m : Mem) : Mem := { stackTab := mmap (m.stackTab.filter fun k => k.2.retired) fun _ k => { retired := k.retired } }

/-- What the flash itself keeps (13 R493, R496, R503; 17 R635); its time has run for `sec` seconds since the last reset. -/
def resetFlash (sec : Nat) (f : Flash) : Flash :=
  { channels := mmap f.channels fun _ c =>
      { retired := c.retired, sprintTaken := c.sprintTaken, storeTaken := c.storeTaken, blocks := c.blocks
        sprintLow := c.sprintLow, storeLow := c.storeLow }
    sprintRo := f.sprintRo, storeRo := f.storeRo, sprintCause := f.sprintCause, storeCause := f.storeCause
    sprintRoCh := f.sprintRoCh, storeRoCh := f.storeRoCh, roCauses := f.roCauses, sprintShare := f.sprintShare, buffered := f.buffered
    flashTime := f.flashTime + sec, nextRefresh := f.nextRefresh, dump := f.dump }

/-- Power, causes and staged firmware outlast a reset; a cause raises the bring-up count (20 R753). -/
def resetBoot (cause : Option Nat) (lost : List Nat) (b : Boot) : Boot :=
  { bootCount := (b.bootCount + b2n cause.isSome) % 2 ^ 32, resetCause := cause.getD b.resetCause
    mgmtRun := b.mgmtRun, aux := b.aux, main := b.main, hv := b.hv, fwOk := b.fwOk
    phase := if b.fwOk then (if b.hv then 3 else 2) else if b.aux then 1 else 0
    shutdown := b.shutdown, limits := b.limits, resetLow := b.resetLow, cut := b.cut, lostAdds := b.lostAdds ++ lost
    fwImage := b.fwImage, clusters := mmap b.clusters fun _ c => { ucode := c.ucode }
    stagedUcode := b.stagedUcode, stagedHub := b.stagedHub, ucodeRaise := b.ucodeRaise, hubRaise := b.hubRaise
    ucodeDigests := b.ucodeDigests, hubDigests := b.hubDigests, hubFw := b.hubFw }

/-- The security unit: challenge, unlock and sessions end (18 R686, R688). -/
def resetSec (aux : Bool) (c : Sec) : Sec :=
  { c with
    identityOk := aux && c.identityOk, keySets := [], boardKeys := [], config := none, chal := none, unlocked := false, debugOpen := false, dbgAddr := 0
    dbgLen := 0, dbgResult := 0, dbgValid := false, sessions := [] }

/-- Zhoulnas in the always-on domain: it goes on while the auxiliary input stays, but what it measured in module time ends;
without it only the event area stays (19 R706, R715, R721). -/
def resetMgmt (aux : Bool) (cal : Nat) (m : Mgmt) : Mgmt :=
  if aux then
    { m with
      rtc := cal, rtcAt := 0, conflicts := [], lastBegin := [], overrides := [], snapWait := []
      admRate := [] }
  else { records := m.records, lastSeq := m.lastSeq, snaps := m.snaps.filter (·.flushed), nextSnap := m.nextSnap }

/-- The page and counter state of the always-on domain stays with the auxiliary input; every other page starts again. -/
def resetRegs (aux : Bool) (r : Regs) : Regs :=
  { pages := if aux then r.pages.filter fun p => p.1 == 13 else []
    evcFreeze := aux && r.evcFreeze
    readValue := r.readValue }

/-- Reset every domain but the always-on domain, or that one too (20 R753; 21 R759).  The host's memory, the messages it has
been sent and the packets that have left are outside the module. -/
def resetModule (cause : Option Nat) (aux : Bool) (s : State) : State :=
  let lost := tablesLosing s.obj
  { s with
    regs := resetRegs aux s.regs
    hif := { hostMem := s.hif.hostMem, msgs := s.hif.msgs }
    sched := resetSched s.sched, obj := resetObj s.obj, gen := {}, search := {}, mem := resetMem s.mem
    flash := resetFlash (now s / 10 ^ 9) s.flash, fab := { sent := s.fab.sent }, boot := resetBoot cause lost s.boot
    sec := resetSec aux s.sec, mgmt := resetMgmt aux (calendar s) s.mgmt }

/-! ### Bring-up begins (18 R674; 21 R755, R764; 17 R648) -/

/-- Raise a floor to a value (18 R671). -/
def floorAtLeast (kind v : Nat) (s : State) : State := modSec (raiseFloorTo kind v) s

/-- The copy a bring-up uses: the valid one with the highest sequence, not below the stored one (18 R674); none while the area
that holds the stored one is rejected (R671). -/
def bestCopy (c : Sec) : Option (ConfigRec × Bool) :=
  let ok (x : Option ConfigRec) : Option ConfigRec := x.filter fun r => areaOk c && decide (c.storedSeq ≤ r.seq)
  match ok c.copyA, ok c.copyB with
  | some a, some b => if a.seq < b.seq then some (b, false) else some (a, true)
  | some a, none => some (a, true)
  | none, some b => some (b, false)
  | none, none => none

/-- Put the configuration record into effect, or record that none qualifies (18 R674). -/
def adoptConfig (s : State) : State :=
  match bestCopy s.sec with
  | some (r, a) => floorAtLeast 4 r.raise (modSec (fun c => raiseSeqTo r.seq { c with config := some r, activeA := a }) s)
  | none => recordEvent 2 12 0x0702 0 [] (modSec (fun c => { c with config := none }) s)

/-- The domains that RECOVERY powers: the I/O die main domain and OE0 (17 R648). -/
def recoveryDomains : BitVec 64 := 0x10010000000

/-- Enable the high-voltage stage when everything it waits for holds (17 R632, R648; 21 R764, R769). -/
def enableStage (s : State) : State :=
  let b := s.boot
  if b.aux && b.main && !b.handover && !b.shutdown && !b.resetLow then
    if b.fwOk then modBoot (fun x => { x with hv := true, phase := max x.phase 3 }) s
    else if b.level = 3 then modBoot (fun x => { x with hv := true, domain := recoveryDomains, pll := 1 }) s
    else s
  else s

/-- AUX_POWER_APPLIED (17 R632 phase 1; 18 R664, R667): the seed is reconstructed or not. -/
def execAuxPowerApplied (identityOk : Bool) (s : State) : Answer :=
  .next (if s.boot.aux then s
    else if s.boot.handover then modBoot (fun b => { b with aux := true }) s
    else
      let s1 := modBoot (fun b => { b with aux := true, hv := false, fwOk := false, mgmtRun := false, shutdown := false, limits := []
                                           resetLow := false }) s
      let s2 := modSec (fun c => { c with identityOk := identityOk }) (resetModule (some 0) false s1)
      adoptConfig (whenS (!identityOk) (recordEvent 2 12 0x0701 0 []) s2))

/-- STARTER_VERIFY (17 R633): 0 the image is valid, 1 its signature or mark fails, 2 its security version is too low. -/
def execStarterVerify (verify : Nat) (s : State) : Answer :=
  .next (if s.boot.aux && s.boot.phase == 1 && s.boot.level == 0 then
      enableStage (modBoot (fun b => if verify = 0 then { b with fwOk := true, mgmtRun := true, phase := 2 } else { b with level := 3 }) s)
    else s)

/-- MAIN_INPUT_PRESENT (21 R755, R762, R764): 50 ms in range. -/
def execMainInputPresent (s : State) : Answer :=
  let t := advanceTo (now s + 50000000) s
  .next (enableStage (modBoot (fun b => { b with main := true, mainBack := b.handover }) t))

/-! ### Phases 4 and 5 -/

/-- The module finds no key for its flash data, as after an unlock: every mapping is dropped, the catalogue is empty (18 R688). -/
def dropMappings (s : State) : State :=
  { s with
    obj := { handleDraws := s.obj.handleDraws, nextFilter := s.obj.nextFilter }
    sched := { keygen := s.sched.keygen }
    flash := { s.flash with channels := mmap s.flash.channels fun _ c => { c with blocks := mapUnits c.blocks } } }
where
  /-- Blocks no longer hold units. -/
  mapUnits (l : List Block) : List Block :=
    l.map fun b => { b with units := [], used := 0, state := if b.state = .closed ∨ b.state = .filling then .free else b.state }

/-- The data keys of a bring-up (18 R678, R679, R688): they are opened; without the module's own, every mapping is dropped and
they are made.  A module without its identity opens none (R667). -/
def bringUpKeys (s : State) : State :=
  if !s.sec.identityOk then s
  else
    let s1 := openKeys s
    if mhas s1.sec.keySets 4096 then s1 else freshKeys 4096 (dropMappings s1)

/-- Each bring-up makes the keys of the board links and the hub ring, one for each hub (18 R678). -/
def makeBoardKeys (s : State) : State :=
  modSec (fun c => { c with boardKeys := (List.range 8).map (Config.boardKey s.boot.bootCount) }) s

/-- HIF_LINK once the I/O die is up: a link trains to one of the speeds and widths of R553 (15 R553, R569; which is open, log entry
63). -/
def hostLinkWord : BitVec 32 :=
  let v := Config.hostLink.toNat
  BitVec.ofNat 32 (1 + v % 8 % 6 + 8 * (1 + v / 8 % 16) + 256 * (v / 128 % 2))

/-- BRINGUP_PHASE4 (17 R632; 02 R49): every domain on, every PLL locked; the data keys are opened. -/
def execBringupPhase4 (s : State) : Answer :=
  .next (if s.boot.hv && s.boot.fwOk && s.boot.phase == 3 && !s.boot.handover then
      modHif (fun h => { h with link := hostLinkWord })
        (modBoot (fun b => { b with phase := 4, domain := 0x1FFFFFFFFFF, pll := 0x1FFF }) (bringUpKeys (makeBoardKeys s)))
    else s)

/-- Numbers below a bound, each once, rising. -/
def cleanNums (bound : Nat) (l : List Nat) : List Nat := (l.filter (· < bound)).foldl (fun a n => insertNum n a) []

/-- What the array self-test makes of a cluster from the physical rows and columns, 0 to 129, that fail: sound spares take the
place of at most two rows and two columns, else it is retired (04 R119, 17 R634). -/
def selfTest (g : Nat) (rows cols : List Nat) (s : State) : State :=
  let r := cleanNums 130 rows
  let k := cleanNums 130 cols
  match bypassFor r, bypassFor k with
  | some a, some b => modCluster g (fun c => { c with rows := a, cols := b, badRows := failedSpares r, badCols := failedSpares k }) s
  | _, _ => retireCluster g s

/-- Retire a stack for the life of the module, and record it (17 R635, R652). -/
def retireStack (n : Nat) (s : State) : State :=
  recordEvent 1 8 0x0204 (instStack n) []
    (modStack n (fun k => { k with ok := false, retiring := false, retired := true }) s)

/-- The sprint share of the record in effect, taken only when the flash holds no collection and no table (13 R480, R481). -/
def takeShare (s : State) : State :=
  match s.sec.config with
  | none => s
  | some c =>
    if c.sprintShare = s.flash.sprintShare then s
    else if s.obj.collections.isEmpty && s.obj.tables.isEmpty then modFlash (fun f => { f with sprintShare := c.sprintShare }) s
    else recordEvent 1 9 0x0306 0 [] s

/-- Replay of the dumps, and what an earlier loss leaves to do (13 R506, 17 R636, 07 R254, 12 R436, 21 R770). -/
def replayDumps (dump : Bool) (s : State) : State :=
  let had := dump || s.flash.dump
  let s1 := modFlash (fun f => { f with dump := false, dumpReplayed := had }) s
  let d := drawFree s1
  let lost := if s.boot.cut then [d.1.toNat] else []
  let s2 := whenS had (recordEvent 0 9 0x0304 0 lost) (if s.boot.cut then d.2 else s1)
  let ok := !eitherRo s2
  let s3 := foldS (s2.obj.collections.map Prod.fst) (fun t id => abortSession id Status.cancelled ok t) s2
  let s4 := foldS s3.boot.lostAdds (fun t id => recordEvent 1 8 0x0206 0 [id] t) s3
  modBoot (fun b => { b with lostAdds := [], cut := false }) s4

/-- Open every channel that is not retired and whose hub can be reached (17 R635; 02 R46). -/
def openChannels (s : State) : State :=
  foldS (List.range 64) (fun t n =>
    if (channelOf t n).retired || hubUnreachable t (n / 8) then t else modChannel n (fun c => { c with ok := true }) t) s

/-- BRINGUP_PHASE5 (17 R632, R634 to R636): self-tests, stacks that fail training, dumps, channels. -/
def execBringupPhase5 (r : Phase5) (s : State) : Answer :=
  .next (if s.boot.phase = 4 ∧ !s.boot.handover then
      let s1 := foldS (r.clusterFaults.filter fun c => decide (c.1 < 320)) (fun t c => selfTest c.1 c.2.1 c.2.2 t) s
      let s2 := foldS ((cleanNums 20 r.failed).filter fun n => !(stackOf s n).retired) (fun t n => retireStack n t) s1
      modBoot (fun b => { b with phase := 5 }) (openChannels (takeShare (replayDumps r.dump s2)))
    else s)

/-- STACK_TRAINED (17 R635, R645). -/
def execStackTrained (stack : Nat) (s : State) : Answer :=
  .next (let k := stackOf s stack
    if stack < 20 ∧ 5 ≤ s.boot.phase ∧ !s.boot.handover ∧ !k.retired ∧ !k.ok then
      moveLines s (modStack stack (fun x => { x with ok := true, spares := (Config.spareRows stack).toNat }) s)
    else s)

/-! ### Service levels (17 R637 to R644) -/

/-- Whether some stack is in service. -/
def anyStack (s : State) : Bool := (List.range 20).any (stackServes s)

/-- Set the service level and record the change. -/
def setLevel (n : Nat) (s : State) : State := recordEvent 0 11 0x0601 0 [n] (modBoot (fun b => { b with level := n }) s)

/-- CATALOGUE_RELOAD (17 R637; 18 R674): `revoked` names the images whose chain the record in effect revokes. -/
def execCatalogueReload (revoked : List Nat) (s : State) : Answer :=
  .next (if 5 ≤ s.boot.phase ∧ anyStack s ∧ !s.boot.handover ∧ !s.boot.reloaded then
      let gone := if (revokedKeys s).isEmpty then [] else revoked.filter fun h => mhas s.obj.images h
      foldS gone (fun t h => recordEvent 2 12 0x0703 0 [h] (modObj (fun o => { o with images := merase o.images h }) t))
        (modBoot (fun b => { b with reloaded := true, phase := 6 }) s)
    else s)

/-- PROOFING_BEGIN (17 R639, R640; 18 R667, R674, R688). -/
def execProofingBegin (s : State) : Answer :=
  .next (if s.boot.level = 0 ∧ s.boot.mgmtRun ∧ 5 ≤ s.boot.phase ∧ anyStack s ∧ !s.boot.handover ∧ s.sec.identityOk ∧
      s.sec.config.isSome ∧ !s.sec.unlocked then
      setLevel 1 (modBoot (fun b => { b with clockCap := true }) s)
    else s)

/-- Nodes of a page that the collection has written. -/
def pageNodes (c : Collection) (page : Nat) : List Nat := (c.nodes.map Prod.fst).filter fun n => c.pageNo n == page

/-- A page is lost: it cannot be read, and its nodes wait for their rebuild (17 R643, 08 R302). -/
def losePage (page : Nat) (c : Collection) : Collection :=
  let ns := pageNodes c page
  if ns.isEmpty then c
  else { c with badPages := insertNum page c.badPages, rebuild := ns.foldl (fun a n => insertNum n a) c.rebuild }

/-- COLLECTION_VERIFIED (17 R643). -/
def execCollectionVerified (coll : Nat) (lostPages : List Nat) (s : State) : Answer :=
  .next (match mget s.obj.collections coll with
    | some c =>
      if 5 ≤ s.boot.phase ∧ !c.desc.privileged ∧ !c.verified then
        modColl coll (fun _ => { lostPages.foldl (fun a p => losePage p a) c with verified := true }) s
      else s
    | none => s)

/-- What FULL waits for (17 R644); that the primaries are resident is the event itself. -/
def fullReady (s : State) : Bool :=
  ((List.range 20).all fun n => (stackOf s n).ok || (stackOf s n).retired) &&
  ((List.range 64).all fun n => (channelOf s n).ok || (channelOf s n).retired) &&
  s.boot.reloaded && s.obj.collections.all fun c => c.2.desc.privileged || c.2.verified

/-- FULL_BEGIN (17 R644): the clock cap is lifted. -/
def execFullBegin (s : State) : Answer :=
  .next (if s.boot.level = 1 ∧ fullReady s then
      setLevel 2 (modObj (fun o => { o with images := mmap o.images fun _ i => { i with resident := true } })
        (modBoot (fun b => { b with clockCap := false }) s))
    else s)

/-! ### Loss of input and hand-over (21 R756 to R763; 13 R505) -/

/-- The code of a cause in the record (21 R763). -/
def lossCode : LossCause → Nat
  | .undervoltage => 0
  | .overvoltage => 1
  | .interlock => 2
  | .auxLoss => 3

/-- Everything but the hubs, the I/O die and the always-on domain stops (21 R759). -/
def shedLoad (s : State) : State :=
  { s with
    boot := { s.boot with
      level := 0, domain := s.boot.domain &&& 0x1000FF00000
      clusters := mmap s.boot.clusters fun _ c => { c with slots := [], group := none, weights := none, active := [], shadow := [], awake := false, spareOp := none } }
    mem := { s.mem with stackTab := mmap s.mem.stackTab fun _ k => { k with ok := false } }
    fab := { s.fab with ports := mmap s.fab.ports fun _ p => { p with state := .down, replay := [] } } }

/-- The hand-over begins: hubs accept no more writes, the recorder is flushed, load is shed (21 R759). -/
def startHandover (s : State) : State :=
  flushSnaps (modFlash (fun f => { f with stopped := true })
    (modBoot (fun b => { b with handover := true, mainBack := false, handoverAt := b.cycles }) (shedLoad s)))

/-- The main input is lost (21 R756 to R759, R763). -/
def loseMain (cause : LossCause) (s : State) : State :=
  let s1 := modBoot (fun b => { b with main := false }) s
  if s.boot.handover then s1
  else if s.boot.hv then startHandover (recordEvent 2 11 0x0601 0 [lossCode cause] s1)
  else s1

/-- MAIN_INPUT_LOST (21 R756, R759). -/
def execMainInputLost (cause : LossCause) (s : State) : Answer := .next (if s.boot.main then loseMain cause s else s)

/-- AUX_INPUT_LOST (21 R757, R761): with the stage off only the recorder is flushed before the always-on domain stops. -/
def execAuxInputLost (s : State) : Answer :=
  .next (if !s.boot.aux then s
    else
      let s1 := modBoot (fun b => { b with aux := false }) s
      if s.boot.hv || s.boot.handover then loseMain .auxLoss s1
      else
        let s2 := recordEvent 2 11 0x0601 0 [lossCode .auxLoss] s1
        resetModule none false (modBoot (fun b => { b with main := false, mgmtRun := false, fwOk := false }) s2))

/-- The hand-over and the flush have ended: the stage goes off, every domain loses power; with the auxiliary input the starter
waits at phase 3 (21 R759, R762, R769). -/
def finishHandover (s : State) : State :=
  let cause := if s.boot.shutdown then 3 else 4
  let aux := s.boot.aux
  let s1 := modFlash (fun f => { f with dump := true }) (modBoot (fun b => { b with
    hv := false, main := b.main || b.mainBack, mgmtRun := aux && b.mgmtRun, fwOk := aux && b.fwOk }) s)
  if aux then enableStage (adoptConfig (resetModule (some cause) true s1)) else resetModule none false s1

/-- HANDOVER_END (21 R759). -/
def execHandoverEnd (s : State) : Answer := .next (if s.boot.handover then finishHandover s else s)

/-! ### Hard limits (21 R768 to R770) -/

/-- The code of a limit in the record: its row of 21 R768. -/
def limitCode : HardLimit → Nat
  | .computeDie => 0
  | .ioDie => 1
  | .stack => 2
  | .hub => 3
  | .opticalEngine => 4
  | .coolantOutlet => 5
  | .mainCurrent => 6
  | .busCurrent => 7
  | .coreCurrent => 8

/-- Add names to the newest record of a shutdown or loss (21 R770). -/
def addLimits (l : List HardLimit) (rs : List Rec) : List Rec :=
  match rs with
  | [] => []
  | r :: rest => if r.code = 0x0601 ∧ 2 ≤ r.severity then Rec.seal { r with payload := r.payload ++ l.map limitCode } :: rest
    else r :: addLimits l rest

/-- HARD_LIMIT_TRIP (21 R769, R770). -/
def execHardLimitTrip (limits : List HardLimit) (s : State) : Answer :=
  .next (if limits.isEmpty || !s.boot.hv then s
    else if s.boot.handover then
      let new := limits.filter fun l => !s.boot.limits.contains l
      let same := s.boot.handoverAt == s.boot.cycles
      let s1 := modMgmt (fun m => { m with records := (addLimits new m.records.reverse).reverse })
        (modBoot (fun b => { b with limits := b.limits ++ new, shutdown := b.shutdown || same }) s)
      if new.contains .busCurrent then finishHandover (modBoot (fun b => { b with cut := true }) s1) else s1
    else startHandover (recordEvent 3 11 0x0601 0 (limits.map limitCode)
      (modBoot (fun b => { b with shutdown := true, limits := limits }) s)))

/-! ### Resets (20 R753; 21 R767) -/

/-- Hand-over, flush and reset of every domain but the always-on domain (20 R753). -/
def resetNow (cause : Nat) (s : State) : State :=
  resetModule (some cause) true (flushSnaps (modFlash (fun f => { f with dump := f.dump || s.boot.hv }) s))

/-- GLB_RESET (20 R753): from the management function, with go and the key. -/
def execGlbReset (fn : Nat) (value : BitVec 32) (s : State) : Answer :=
  .next (if isMgmtPf fn && value.getLsbD 0 && bitsOf value.toNat 31 16 == 0xA5C3 && !s.boot.handover then
      enableStage (adoptConfig (resetNow 2 s))
    else s)

/-- RESET_N_LOW (21 R767). -/
def execResetNLow (s : State) : Answer :=
  .next (if s.boot.aux && !s.boot.handover && !s.boot.resetLow then modBoot (fun b => { b with resetLow := true }) (resetNow 1 s)
    else s)

/-- RESET_N_RISE (21 R767, R769): bring-up begins. -/
def execResetNRise (s : State) : Answer :=
  .next (if s.boot.resetLow then
      enableStage (adoptConfig (modBoot (fun b => { b with resetLow := false, shutdown := false, limits := [] }) s))
    else s)

/-! ### Internal links (02 R44 to R47; 20 R750) -/

/-- The ports that a failed link leaves without a way to the I/O die: those of its optical engine (02 R41, 20 R750). -/
def portsBehind (link : Nat) : List Nat := if link < 46 then [] else (List.range 4).map fun i => 4 * (link - 46) + i

/-- INTERNAL_LINK_FAIL (02 R44 to R46): the channels of a hub that becomes unreachable have failed, and the ports of an optical
engine that lost its link go DOWN (assumption 32). -/
def execInternalLinkFail (link : Nat) (s : State) : Answer :=
  .next (if link < 54 ∧ !linkFailed s link then
      let bit : BitVec 64 := BitVec.twoPow 64 link
      let s1 := modBoot (fun b => { b with linkFailed := b.linkFailed ||| bit, linkDegraded := b.linkDegraded &&& ~~~bit }) s
      let s2 := foldS ((List.range 64).filter fun n => hubUnreachable s1 (n / 8)) (fun t n => failChannel n t) s1
      foldS ((portsBehind link).filter fun p => (portOf s2 p).state != .down) (fun t p => takeDown p 2 t) s2
    else s)

/-- LINK_DEGRADED (02 R47).  The record names source page 0, the global page that shows the link's bit, and instance 0, with the
link's number as its payload (the spec gives neither; DESIGN CHOICE, assumption 12). -/
def execLinkDegraded (link : Nat) (s : State) : Answer :=
  .next (if link < 54 ∧ !linkFailed s link ∧ !s.boot.linkDegraded.getLsbD link then
      recordEvent 1 0 0x0401 0 [link] (modBoot (fun b => { b with linkDegraded := b.linkDegraded ||| BitVec.twoPow 64 link }) s)
    else s)

/-! ### Cluster power (20 R752; 02 R53) -/

/-- No unit's SRAM state is held by a cluster any more (02 R53, 14 R531). -/
def forgetSaved (g : Nat) (s : State) : State :=
  modSched (fun d => { d with units := mmap d.units fun _ u => if u.savedOn = some g then { u with savedOn := none } else u }) s

/-- CLUSTER_POWER_OFF (20 R752): only a drained cluster; its SRAM contents are lost, also those a unit that left it would have
found there (02 R53). -/
def execClusterPowerOff (fn cluster : Nat) (s : State) : Answer :=
  .next (let c := clusterOf s cluster
    if isPf fn ∧ cluster < 320 ∧ c.powered ∧ c.drained then
      forgetSaved cluster
        (modCluster cluster (fun c => { c with powered := false, awake := false, poweringOn := false, weights := none, active := [], shadow := [], spareOp := none }) s)
    else s)

/-- CLUSTER_POWER_ON (20 R752): only while its die's network, which it requires, is on (02 R49). -/
def execClusterPowerOn (fn cluster : Nat) (s : State) : Answer :=
  .next (if isPf fn ∧ cluster < 320 ∧ !(clusterOf s cluster).powered ∧ netOn s cluster then
      modCluster cluster (fun c => { c with powered := true, poweringOn := true }) s
    else s)

/-- CLUSTER_POWER_ON_DONE (20 R752): `rows` and `cols` fail beside those already bypassed. -/
def execClusterPowerOnDone (cluster : Nat) (rows cols : List Nat) (s : State) : Answer :=
  .next (let c := clusterOf s cluster
    if c.poweringOn then
      modCluster cluster (fun c => { c with poweringOn := false, awake := true }) (selfTest cluster (c.rows ++ c.badRows ++ rows) (c.cols ++ c.badCols ++ cols) s)
    else s)

/-! ### Recovery (17 R648 to R651) -/

/-- A link-local recovery packet (17 R650). -/
def rcvPacket (pt off total : Nat) (b : Bytes) : Packet :=
  { ptype := pt, arg0 := BitVec.ofNat 32 off, arg1 := BitVec.ofNat 64 total, payload := b }

/-- RCV_REQ_TIMER (17 R648): every 100 ms, while the recovery domains have power. -/
def execRcvReqTimer (s : State) : Answer :=
  .next (if s.boot.level = 3 ∧ s.boot.hv then
      let t := advanceTo (100000000 * (now s / 100000000 + 1)) s
      putOn 1 0 (rcvPacket 0x4B 0 0 []) (putOn 0 0 (rcvPacket 0x4B 0 0 []) t)
    else s)

/-- The running management firmware image. -/
def fwImageOf (s : State) : Bytes := s.boot.fwImage.getD Config.factoryImage

/-- An image as RCV_DATA packets. -/
def rcvParts (total : Nat) : Nat → Nat → Bytes → List Packet
  | 0, _, _ => []
  | n + 1, off, b =>
    if b.isEmpty then []
    else rcvPacket 0x4C off total (b.take 32768) :: rcvParts total n (off + 32768) (b.drop 32768)

/-- RCV_REQ (17 R650): an ADMITTED module answers with its own image, one at a time to each port. -/
def execRcvReq (port : Nat) (s : State) : Answer :=
  .next (if port < 32 ∧ s.fab.state = .admitted ∧ portCarries (portOf s port) 3 ∧ (portOf s port).outq.all (fun f => f.vc != 3) then
      let b := fwImageOf s
      foldS (rcvParts b.length (b.length / 32768 + 1) 0 b) (fun t p => putOn port 0 p t) s
    else s)

/-- A whole image is at hand: it is verified next (17 R651). -/
def rcvWhole (source : Nat) (b : Bytes) (s : State) : State :=
  modBoot (fun x => { x with rcvState := 2, rcvSource := source, rcvWhole := some b, rcvParts := [] }) s

/-- RCV_DATA (17 R650, R651): an image that arrives while another is being verified is discarded. -/
def execRcvData (port offset total : Nat) (data : Bytes) (s : State) : Answer :=
  .next (if s.boot.level = 3 ∧ s.boot.hv ∧ s.boot.rcvState < 2 ∧ port < 2 then
      let old := mgetD s.boot.rcvParts port { total := total, parts := [] }
      let r : RcvImage := { total := total, parts := mset (if old.total = total then old.parts else []) offset data }
      match joinParts total 0 r.parts with
      | some b => rcvWhole 1 b s
      | none => modBoot (fun x => { x with rcvParts := mset x.rcvParts port r }) s
    else s)

/-- RCV_GO (17 R648, R651): the image the fetch from RCV_ADDR brings; one shorter than RCV_LEN is a read error. -/
def execRcvGo (image : Bytes) (s : State) : Answer :=
  let n := s.boot.rcvLen.toNat
  .next (if s.boot.level = 3 ∧ s.boot.hv ∧ s.boot.rcvState = 0 then
      if n ≤ 16 * 2 ^ 20 ∧ n ≤ image.length then rcvWhole 0 (image.take n) s
      else modBoot (fun b => { b with rcvFail := 3, rcvSource := 0 }) s
    else s)

/-- Write the slot and restart into the image (17 R646, 18 R671). -/
def writeFirmware (image : Bytes) (s : State) : State :=
  raiseFloor 0 (splitSigned image).2 (modBoot (fun b => { b with fwImage := some image }) s)

/-- RCV_IMAGE_COMPLETE (17 R651, R633): a good image is written and the starter restarts into phase 3. -/
def execRcvImageComplete (s : State) : Answer :=
  .next (match s.boot.rcvWhole with
    | some b =>
      if s.boot.level ≠ 3 ∨ s.boot.rcvState ≠ 2 then s
      else
        let x := splitSigned b
        let s1 := evCount 12 2 1 s
        if !(decide (8 ≤ b.length) && sigVerifies s 0 x.1 x.2) then
          modBoot (fun y => { y with rcvState := 0, rcvFail := 1, rcvWhole := none }) s1
        else if rd x.2 8 4 < floorOf s 0 then modBoot (fun y => { y with rcvState := 0, rcvFail := 2, rcvWhole := none }) s1
        else enableStage (modBoot (fun y => { y with
          rcvState := 3, rcvWhole := none, level := 0, fwOk := true, mgmtRun := true, phase := 2 }) (writeFirmware b s1))
    | none => s)

end Sys2Proof.Machine
end

