-- ==== Sys2Proof/Machine/LiveService.lean ====
section
/-! DEFINITION. Live servicing: LS_CMD's operations and their end (17 R652 to R658, R661 to R663). -/

namespace Sys2Proof.Machine

/-! ### Starting an operation (17 R652, R662, R663) -/

/-- Refuse an operation with a result; nothing else changes (17 R663). -/
def lsRefuse (op result : Nat) (s : State) : State :=
  modBoot (fun b => { b with lsResult := result, lsValid := true, lsLast := op }) s

/-- Start an operation that moves `total` units. -/
def lsBegin (op target total : Nat) (prior : PortState) (s : State) : State :=
  modBoot (fun b => { b with
    lsOp := some { op := op, target := target, prior := prior }, lsValid := false, lsProgress := 0, lsTotal := total }) s

/-- A write of LS_CMD.go by a physical function: busy, or the operation's own checks and start (17 R663). -/
def lsCmd (fn op : Nat) (go : State → State) (s : State) : State :=
  if !isPf fn then s else if s.boot.lsOp.isSome then lsRefuse op 1 s else go s

/-- LS_RETIRE_STACK (17 R652, R653): the stack's units move; how many they are the spec leaves to the placement. -/
def execLsRetireStack (fn target : Nat) (s : State) : Answer :=
  .next (lsCmd fn 1 (fun t =>
    if 20 ≤ target ∨ !stackServes t target then lsRefuse 1 2 t
    else if brixjoSize t < brixjoUsed t + 96 * 2 ^ 30 then lsRefuse 1 3 t
    else
      let d := drawFree t
      lsBegin 1 target d.1.toNat .down (modStack target (fun k => { k with retiring := true }) d.2)) s)

/-- Units that blocks of a channel hold, in a partition. -/
def unitsHeld (s : State) (ch part : Nat) : List Nat := (listedBlocks (channelOf s ch) part).flatMap (·.units)

/-- Blocks of a channel that hold units, in a partition. -/
def blocksHeld (s : State) (ch part : Nat) : Nat := ((listedBlocks (channelOf s ch) part).filter fun b => !b.units.isEmpty).length

/-- Channels in service other than one. -/
def otherChannels (s : State) (ch : Nat) : List Nat :=
  (List.range 64).filter fun n => n != ch && (channelOf s n).ok && !(channelOf s n).retired

/-- The substitute in a partition: the most free blocks, the lower number winning ties (17 R655). -/
def substitute (s : State) (ch part : Nat) : Option Nat :=
  (otherChannels s ch).foldl (fun best n => match best with
    | none => some n
    | some b => if freeBlocks s b part < freeBlocks s n part then some n else best) none

/-- Whether a channel's valid units fit elsewhere, in a partition (17 R652). -/
def unitsFit (s : State) (ch part : Nat) : Bool :=
  decide (blocksHeld s ch part ≤ ((otherChannels s ch).map fun n => freeBlocks s n part - reserveBlocks part).sum) && (substitute s ch part).isSome

/-- LS_RETIRE_CHANNEL (17 R652, R655). -/
def execLsRetireChannel (fn target : Nat) (s : State) : Answer :=
  .next (lsCmd fn 2 (fun t =>
    if 64 ≤ target ∨ (channelOf t target).retired then lsRefuse 2 2 t
    else if !(unitsFit t target 0 && unitsFit t target 1) then lsRefuse 2 3 t
    else lsBegin 2 target ((unitsHeld t target 0).length + (unitsHeld t target 1).length) .down t) s)

/-- LS_RECALIBRATE_PORT (17 R652): the port goes DOWN. -/
def execLsRecalibratePort (fn target : Nat) (s : State) : Answer :=
  .next (lsCmd fn 3 (fun t =>
    if 32 ≤ target then lsRefuse 3 2 t
    else
      let p := (portOf t target).state
      lsBegin 3 target 0 p (if p = .down then t else takeDown target 2 t)) s)

/-- LS_MICROCODE (17 R652): drained, then staged (assumption 24). -/
def execLsMicrocode (fn target : Nat) (s : State) : Answer :=
  .next (lsCmd fn 4 (fun t =>
    let c := clusterOf t target
    if 320 ≤ target ∨ c.retired then lsRefuse 4 2 t
    else if !(c.drain && c.drained) then lsRefuse 4 5 t
    else if t.boot.stagedUcode.isNone then lsRefuse 4 4 t
    else lsBegin 4 target 0 .down t) s)

/-- LS_HUB_FIRMWARE (17 R652, R654): the hub restarts. -/
def execLsHubFirmware (fn target : Nat) (s : State) : Answer :=
  .next (lsCmd fn 5 (fun t =>
    if 8 ≤ target then lsRefuse 5 2 t
    else if t.boot.stagedHub.isNone then lsRefuse 5 4 t
    else modBoot (fun b => { b with hubRestart := target :: b.hubRestart }) (lsBegin 5 target 0 .down t)) s)

/-! ### The end of an operation -/

/-- Copies on a retired stack leave their rows' sets; a row with none left is at HOME again (17 R653). -/
def leaveStack (n : Nat) (v : Version) : Version :=
  { v with hot := (mmap v.hot fun _ r => { r with replicas := r.replicas.filter (· ≠ n) }).filter fun r =>
      !(r.2.state == .replicated && r.2.replicas.isEmpty) }

/-- The retired stack: clean copies dropped, replicas gone, its lines enciphered anew where they now lie, retired set
(17 R652, R653; 12 R449). -/
def endRetireStack (n : Nat) (s : State) : State :=
  let keep := s.mem.lines.filter fun l => !(l.2.cached && lineStack s l.1 == n)
  let s1 := modMem (fun m => { m with lines := keep }) s
  let s2 := modObj (fun o => { o with tables := mmap o.tables fun _ t => { t with versions := mmap t.versions fun _ v => leaveStack n v } }) s1
  moveLines s1 (retireStack n s2)

/-- Move the readable units of a channel's partition into free blocks of the substitute (17 R655, 13 R487). -/
def moveUnits (ch part : Nat) (s : State) : State :=
  match substitute s ch part with
  | none => s
  | some d =>
    foldS ((listedBlocks (channelOf s ch) part).filter fun b => !b.units.isEmpty) (fun t b =>
      let p := pickFree t d part
      modChannel d (fun c => putBlock { blockAt c part p.1 p.2 with state := .closed, units := b.units, used := b.units.length, closedAt := b.closedAt } c)
        (countReads b.units.length (countPrograms b.units.length { t with free := t.free + 1 }))) s

/-- A channel map with the substitute where it named the channel (17 R655). -/
def renameChannel (ch d : Nat) (m : List Nat) : List Nat := m.map fun e => if e = ch then d else e

/-- Name the substitutes where a collection's maps name the channel; pages there that cannot be read, all of them once the
channel has failed, are rebuilt (17 R655, 08 R302). -/
def remap (failed : Bool) (ch d0 d1 : Nat) (c : Collection) : Collection :=
  let here (p : Nat) : Bool := (c.cmap[p % 64]?).getD 0 == ch
  let pages := if failed then (c.nodes.map fun n => c.pageNo n.1).foldl (fun l p => insertNum p l) [] else c.badPages
  let c1 := (pages.filter here).foldl (fun a p => losePage p a) c
  { c1 with cmap := renameChannel ch d0 c1.cmap, regionMap := renameChannel ch d1 c1.regionMap }

/-- Lift the read-only conditions that name a channel (17 R657, 13 R503). -/
def liftReadOnly (ch : Nat) (f : Flash) : Flash :=
  let left := f.roCauses.filter fun c => c.2.1 != ch
  let first (part : Nat) : Option (Nat × Nat × Nat) := left.find? fun c => c.1 == part
  { f with
    roCauses := left
    sprintRo := f.sprintRo && (first 0).isSome
    sprintRoCh := ((first 0).map (·.2.1)).getD 0
    sprintCause := ((first 0).map (·.2.2)).getD 0
    storeRo := f.storeRo && (first 1).isSome
    storeRoCh := ((first 1).map (·.2.1)).getD 0
    storeCause := ((first 1).map (·.2.2)).getD 0 }

/-- The retired channel (17 R655 to R657): units placed, maps changed, conditions lifted. -/
def endRetireChannel (ch : Nat) (s : State) : State :=
  let d0 := (substitute s ch 0).getD ch
  let d1 := (substitute s ch 1).getD ch
  let failed := (channelOf s ch).failed
  let s1 := if failed then s else moveUnits ch 1 (moveUnits ch 0 s)
  let s2 := modObj (fun o => { o with
    collections := mmap o.collections fun _ c => remap failed ch d0 d1 c
    tables := mmap o.tables fun _ t => { t with regionMap := renameChannel ch d1 t.regionMap } }) s1
  let s3 := modChannel ch (fun c => { c with
    retired := true, ok := false, failed := false, gcSprint := false, gcStore := false, wlActive := false, blocks := [] }) s2
  recordEvent 1 9 0x0305 (instChannel ch) [] (thawCollections (modFlash (liftReadOnly ch) s3))

/-- The port is back in its state, with fresh keys (17 R652, 16 R600, R601). -/
def endRecalibrate (port : Nat) (prior : PortState) (s : State) : State :=
  if prior = .down then s
  else pumpPort port (modPort port (fun p => { sessionKeys port s.fab.id p.peer p with
    state := prior, lanes := 15, credits := [], rxSeq := 0, txSeq := 0, replay := [], flits := []
    txBlocks := [], words := [], rxBlocks := [] }) s)

/-- What an operation leaves (17 R652). -/
def lsEffect (o : LsOp) (s : State) : State :=
  match o.op with
  | 1 => endRetireStack o.target s
  | 2 => endRetireChannel o.target s
  | 3 => endRecalibrate o.target o.prior s
  | 4 => floorAtLeast 1 s.boot.ucodeRaise (modCluster o.target (fun c => { c with ucode := s.boot.stagedUcode.getD c.ucode }) s)
  | _ => foldS (List.range 8) (fun t k => drainBuffers false (8 * o.target + k) 1 (drainBuffers false (8 * o.target + k) 0 t))
      (floorAtLeast 2 s.boot.hubRaise (modBoot (fun b => { b with
        hubFw := mset b.hubFw o.target (b.stagedHub.getD 0), hubRestart := b.hubRestart.filter (· ≠ o.target) }) s))

/-- LS_OPERATION_END (17 R652, R663; 20 R745). -/
def execLsOperationEnd (s : State) : Answer :=
  .next (match s.boot.lsOp with
    | none => s
    | some o =>
      let s1 := lsEffect o (evCount 11 1 s.boot.lsTotal s)
      recordEvent 0 11 0x0602 0 [o.op, o.target] (modBoot (fun b => { b with
        lsOp := none, lsResult := 0, lsValid := true, lsLast := o.op, lsProgress := b.lsTotal }) s1))

end Sys2Proof.Machine
end

