-- ==== Sys2Proof/Machine/Security.lean ====
section
/-! DEFINITION. The security unit: measurements, the SPDM responder, recorder clearing and debug unlock (18 R664 to R691; 19
R724).  Message layouts are those of DMTF DSP0274 that 18 R675 names (assumption 25). -/

namespace Sys2Proof.Machine

/-! ### Measurements (18 R676, R677) -/

/-- The digest of a running microcode (1) or hub firmware (2) version. -/
def codeDigest (s : State) (kind v : Nat) : Bytes :=
  (mget (if kind = 1 then s.boot.ucodeDigests else s.boot.hubDigests) v).getD (Config.factoryDigest kind v)

/-- The microcode versions that run on clusters, each once, rising. -/
def runningUcode (s : State) : List Nat :=
  ((List.range 320).map fun g => (clusterOf s g).ucode).foldl (fun a v => insertNum v a) []

/-- The 64 profile records in slot order, empty slots zero. -/
def profileBytes (s : State) : Bytes :=
  (List.range 64).flatMap fun i => padTo (((mget s.obj.profiles i).bind (·.cur)).map (·.raw) |>.getD []) 128

/-- The value of a measurement (18 R676). -/
def measurement (s : State) : Nat → Bytes
  | 1 => Config.factoryDigest 0 0
  | 2 => Config.sha512 (fwImageOf s)
  | 3 => (s.sec.config.map (·.digest)).getD (zeros 64)
  | 4 => s.sec.floors.flatMap (leBytes 4)
  | 5 => Config.sha512 ((runningUcode s).flatMap (codeDigest s 1))
  | 6 => Config.sha512 ((List.range 8).flatMap fun h => codeDigest s 2 (mgetD s.boot.hubFw h 0))
  | 7 => Config.sha512 ((s.obj.images.filter fun i => !i.2.unloaded).flatMap fun i => leBytes 4 i.1 ++ i.2.digest)
  | 8 => Config.sha512 (profileBytes s)
  | 9 => Config.sha512 ((s.obj.tokenizers.flatMap fun t => t.2.digest) ++ s.obj.templates.flatMap fun t => t.2.digest)
  | _ => leBytes 4 (b2n s.sec.unlocked) ++ leBytes 4 s.sec.unlocks

/-- Whether a measurement is reported raw: 4 and 10. -/
def rawMeasurement (i : Nat) : Bool := i == 4 || i == 10

/-- The type byte of a measurement block: ROM, firmware, configuration or debug state, with the raw bit. -/
def measureType (i : Nat) : Nat :=
  (if i = 1 then 0 else if i = 2 ∨ i = 5 ∨ i = 6 then 1 else if i = 10 then 5 else 3) + 128 * b2n (rawMeasurement i)

/-- A DMTF measurement block. -/
def measureBlock (s : State) (i : Nat) : Bytes :=
  let v := measurement s i
  leBytes 1 i ++ leBytes 1 1 ++ leBytes 2 (v.length + 3) ++ leBytes 1 (measureType i) ++ leBytes 2 v.length ++ v

/-! ### The responder (18 R675) -/

/-- A 32-byte nonce of the DRBG. -/
def nonceBytes (n : Nat) : Bytes := (List.range 32).map (Config.drbgByte n)

/-- Draw a nonce. -/
def drawNonce (s : State) : Nat × State := (s.sec.draws, modSec (fun c => { c with draws := c.draws + 1 }) s)

/-- An ERROR response. -/
def spdmError (code : Nat) : Bytes := leBytes 1 0x13 ++ leBytes 1 0x7F ++ leBytes 1 code ++ zeros 1

/-- The head of a response. -/
def spdmHead (code p1 p2 : Nat) : Bytes := leBytes 1 0x13 ++ leBytes 1 code ++ leBytes 1 p1 ++ leBytes 1 p2

/-- Sign a response with the identity key over the request and the response (18 R664). -/
def spdmSigned (m : SpdmMsg) (b : Bytes) : Bytes := b ++ Config.spdmSign (m.msg ++ b)

/-- What a request is answered with, and the state after it. -/
abbrev SpdmReply := Bytes × State

/-- GET_MEASUREMENTS: the count, one block, or all ten, taken in one cycle (18 R677). -/
def measureReply (m : SpdmMsg) (s : State) : SpdmReply :=
  let op := rd m.msg 3 1
  let sign := (rd m.msg 2 1).testBit 0
  let ids := if op = 0 then [] else if op = 0xFF then (List.range 10).map (· + 1) else if op ≤ 10 then [op] else []
  if 10 < op ∧ op ≠ 0xFF then (spdmError 1, s)
  else if sign ∧ !s.sec.identityOk then (spdmError 5, s)
  else
    let rec_ := ids.flatMap (measureBlock s)
    let d := drawNonce s
    let b := spdmHead 0x60 (if op = 0 then 10 else 0) 0 ++ leBytes 1 ids.length ++ leBytes 3 rec_.length ++ rec_ ++ nonceBytes d.1 ++
      leBytes 2 0
    (if sign then spdmSigned m b else b, d.2)

/-- CHALLENGE: slot 0 alone holds a chain (18 R666); the answer is signed. -/
def challengeReply (m : SpdmMsg) (s : State) : SpdmReply :=
  if rd m.msg 2 1 ≠ 0 then (spdmError 1, s)
  else if !s.sec.identityOk then (spdmError 5, s)
  else
    let d := drawNonce s
    let sum := Config.sha512 ((List.range 10).flatMap fun i => measureBlock s (i + 1))
    let b := spdmHead 0x03 0 1 ++ Config.sha512 Config.certChain ++ nonceBytes d.1 ++ (if rd m.msg 3 1 = 0 then [] else sum) ++ leBytes 2 0
    (spdmSigned m b, d.2)

/-- KEY_EXCHANGE: a session begins; it asks for mutual authentication. -/
def keyExchangeReply (m : SpdmMsg) (s : State) : SpdmReply :=
  if rd m.msg 3 1 ≠ 0 then (spdmError 1, s)
  else if !s.sec.identityOk then (spdmError 5, s)
  else
    let d := drawNonce s
    let id := s.sec.nextSession
    let b := spdmHead 0x64 0 0 ++ leBytes 2 id ++ leBytes 1 1 ++ leBytes 1 0 ++ nonceBytes d.1 ++ Config.dhShare id
    (spdmSigned m b, modSec (fun c => { c with
      nextSession := c.nextSession + 1, sessions := mset c.sessions id { mailbox := m.mailbox, began := now s } }) d.2)

/-- The session a message lies in, when it runs on that mailbox. -/
def sessionOf (m : SpdmMsg) (s : State) : Option SpdmSession := (mget s.sec.sessions m.session).filter fun x => x.mailbox == m.mailbox

/-- A message inside an established session; any other is answered with an error. -/
def inSession (m : SpdmMsg) (s : State) (act : SpdmSession → SpdmReply) : SpdmReply :=
  match (sessionOf m s).filter (·.established) with
  | some x => act x
  | none => (spdmError 2, s)

/-- FINISH: the session is established when its confirmation verifies; one that fails ends. -/
def finishReply_ (m : SpdmMsg) (s : State) : SpdmReply :=
  match (sessionOf m s).filter fun x => !x.established with
  | none => (spdmError 2, s)
  | some x =>
    if Config.finishOk m.session m.msg then
      (spdmHead 0x65 0 0, modSec (fun c => { c with
        sessions := mset c.sessions m.session { x with established := true, mutualAuth := m.mutualAuth } }) s)
    else (spdmError 6, modSec (fun c => { c with sessions := merase c.sessions m.session }) s)

/-- KEY_UPDATE: operations 1 and 2 make new keys, 3 verifies them. -/
def keyUpdateReply (m : SpdmMsg) (s : State) : SpdmReply :=
  inSession m s fun x =>
    let op := rd m.msg 2 1
    if op = 0 ∨ 3 < op then (spdmError 1, s)
    else (spdmHead 0x69 op (rd m.msg 3 1), if op = 3 then s else modSec (fun c => { c with
      sessions := mset c.sessions m.session { x with keyGen := x.keyGen + 1 } }) s)

/-- HEARTBEAT. -/
def heartbeatReply (m : SpdmMsg) (s : State) : SpdmReply := inSession m s fun _ => (spdmHead 0x68 0 0, s)

/-- END_SESSION. -/
def endSessionReply (m : SpdmMsg) (s : State) : SpdmReply :=
  inSession m s fun _ => (spdmHead 0x6C 0 0, modSec (fun c => { c with sessions := merase c.sessions m.session }) s)

/-- Deliver a response on its mailbox and count it (20 R745). -/
def respond (mailbox : Nat) (r : SpdmReply) : State :=
  evCount 12 1 1 (modSec (fun c => { c with responses := (mailbox, r.1) :: c.responses }) r.2)

/-- Whether a mailbox takes messages: those of the physical functions and the relay (18 R675). -/
def mailboxOk (m : SpdmMsg) : Bool := decide (m.mailbox ≤ 2)

def execGetMeasurements (m : SpdmMsg) (s : State) : Answer := .next (if mailboxOk m then respond m.mailbox (measureReply m s) else s)
def execSpdmChallenge (m : SpdmMsg) (s : State) : Answer := .next (if mailboxOk m then respond m.mailbox (challengeReply m s) else s)
def execKeyExchange (m : SpdmMsg) (s : State) : Answer := .next (if mailboxOk m then respond m.mailbox (keyExchangeReply m s) else s)
def execSpdmFinish (m : SpdmMsg) (s : State) : Answer := .next (if mailboxOk m then respond m.mailbox (finishReply_ m s) else s)
def execKeyUpdate (m : SpdmMsg) (s : State) : Answer := .next (if mailboxOk m then respond m.mailbox (keyUpdateReply m s) else s)
def execSpdmHeartbeat (m : SpdmMsg) (s : State) : Answer := .next (if mailboxOk m then respond m.mailbox (heartbeatReply m s) else s)
def execEndSession (m : SpdmMsg) (s : State) : Answer := .next (if mailboxOk m then respond m.mailbox (endSessionReply m s) else s)

/-! ### Relay over the fabric (18 R675; 16 R603, R605, R618) -/

/-- The reply to a request by its code; none for a code the module does not support. -/
def spdmByCode (m : SpdmMsg) (s : State) : SpdmReply :=
  match rd m.msg 1 1 with
  | 0xE0 => measureReply m s
  | 0x83 => challengeReply m s
  | 0xE4 => keyExchangeReply m s
  | 0xE5 => finishReply_ m s
  | 0xE9 => keyUpdateReply m s
  | 0xE8 => heartbeatReply m s
  | 0xEC => endSessionReply m s
  | _ => (spdmError 7, s)

/-- A relayed message for this module: a request is answered to its sender, a response is kept for the fabric manager. -/
def relayHere (q : Packet) (s : State) : State :=
  if rd q.payload 1 1 < 0x80 then modFab (fun f => { f with delivered := f.delivered ++ [q] }) s
  else
    let m : SpdmMsg := { mailbox := 2, session := q.src, msg := q.payload }
    let r := spdmByCode m s
    sendAll { ptype := 0x49, dst := q.src, arg0 := BitVec.ofNat 32 q.src, payload := r.1 } (respond 2 r)

/-- SPDM_RELAY (18 R675, 16 R605): the anchor passes its fabric manager's messages on to the module addressed. -/
def execSpdmRelay (p : Packet) (s : State) : Answer :=
  .next (
    let q := { p with ptype := 0x49 }
    let dest := q.arg0.toNat % 2 ^ 20
    if s.fab.state = .unassigned then s
    else if q.dst ≠ s.fab.id then (if onFabric s then forward q s else s)
    else if s.fab.anchor ∧ dest ≠ s.fab.id then sendAll { q with dst := dest } s
    else if !s.fab.anchor ∧ q.src ≠ s.fab.anchorId then s
    else relayHere q (modFab (fun f => { f with delivered := f.delivered.erase q }) s))

/-! ### Clearing the recorder (19 R724) -/

/-- RECORDER_CLEAR (19 R724): inside an established, mutually authenticated session whose leaf allows it. -/
def execRecorderClear (session seq : Nat) (s : State) : Answer :=
  .next (match (mget s.sec.sessions session).filter fun x => x.established && x.mutualAuth with
    | none => s
    | some x =>
      if !Config.recorderClearOk session ∨ s.mgmt.lastSeq < seq then respond x.mailbox (spdmError 1, s)
      else
        let gone := (s.mgmt.records.filter fun r => decide (r.seq ≤ seq)).length
        let s1 := modMgmt (fun m => { m with
          records := m.records.filter (fun r => decide (seq < r.seq)), snaps := m.snaps.filter (fun x => decide (seq < x.seq)) }) s
        respond x.mailbox (spdmHead 0x7E 0 0, recordFull 0x63 0 13 0x0900 0 none
          [seq, gone, (Config.requesterKey session 0).toNat, (Config.requesterKey session 1).toNat, x.began] s1))

/-! ### Debug unlock (18 R686 to R688) -/

/-- Whether the record in effect allows debug unlock (18 R672). -/
def unlockAllowed (s : State) : Bool := (s.sec.config.map (·.debugUnlock)).getD false

/-- The result of an unlock step (18 R691). -/
def dbgResult (n : Nat) (s : State) : State := modSec (fun c => { c with dbgResult := n, dbgValid := true }) s

/-- The 64 bytes of a challenge: nonce, serial, unlock count (18 R686). -/
def chalBytes (s : State) (n : Nat) : Bytes :=
  nonceBytes n ++ (List.range 16).map Config.serialByte ++ leBytes 4 s.sec.unlocks ++ zeros 12

/-- SEC_DBG_CHALLENGE (18 R686): by the management function. -/
def execSecDbgChallenge (fn : Nat) (s : State) : Answer :=
  .next (if !isMgmtPf fn then s
    else if !unlockAllowed s then dbgResult 2 s
    else
      let d := drawNonce s
      dbgResult 0 (modSec (fun c => { c with chal := some (d.1, now s) }) d.2))

/-- The functions of the module. -/
def allFns : List Nat := List.range 514

/-- Zeroise every key set and raise every account's key generation (18 R687 step 2). -/
def zeroiseKeys (s : State) : State :=
  modSec (fun c => { c with keySets := [], boardKeys := [], keyFlash := [] })
    (modSched (fun d => { d with keygen := (d.accounts.map Prod.fst).foldl (fun m a => mmod m a 0 fun g => (g + 1) % 16) d.keygen }) s)

/-- The unlock (18 R687). -/
def unlockDebug (s : State) : State :=
  let s1 := foldS allFns (fun t f => acceptDisable f t) s
  let s2 := modSec (fun c => { sealArea { c with unlocks := (c.unlocks + 1) % 2 ^ 32 } with unlocked := true, debugOpen := true }) (zeroiseKeys s1)
  dbgResult 1 (recordEvent 2 12 0x0704 0 [s2.sec.unlocks] (whenS (s2.boot.level != 0) (setLevel 0) s2))

/-- SEC_DBG_RESPOND (18 R687, R691): `obj` is what the module reads at SEC_DBG_ADDR. -/
def execSecDbgRespond (fn : Nat) (obj : Bytes) (s : State) : Answer :=
  .next (if !isMgmtPf fn then s
    else if !unlockAllowed s then dbgResult 2 s
    else match s.sec.chal with
      | none => dbgResult 3 s
      | some (n, t) =>
        let used := modSec (fun c => { c with chal := none }) s
        if t + 600000000000 ≤ now s then dbgResult 3 used
        else
          let o := obj.take (s.sec.dbgLen.toNat % 65536)
          let u := evCount 12 2 1 used
          if !objectAccepted s 5 o then dbgResult 4 u
          else if (splitSigned o).1 ≠ chalBytes s n then dbgResult 5 u
          else unlockDebug u)

/-- CHALLENGE_EXPIRY (18 R686): 600 s after its issue. -/
def execChallengeExpiry (s : State) : Answer :=
  .next (match s.sec.chal with
    | some (_, t) => modSec (fun c => { c with chal := none }) (advanceTo (t + 600000000000) s)
    | none => s)

end Sys2Proof.Machine
end

