-- ==== Sys2Proof/Machine/RegRead.lean ====
section
/-! DEFINITION. What every register reads: the common part of the block pages, the registers of each page, and the recovery
page (20 R731 to R752 and the register tables of the chapters it names; 17 R648). -/

namespace Sys2Proof.Machine

/-- A stretch of a page: its first offset, its bytes, the value it reads. -/
structure RegSpan where
  off : Nat
  len : Nat
  val : Nat
deriving DecidableEq, Repr

/-- A 32-bit register. -/
def r32 (off val : Nat) : RegSpan := ⟨off, 4, val % 2 ^ 32⟩
/-- A 64-bit register. -/
def r64 (off val : Nat) : RegSpan := ⟨off, 8, val % 2 ^ 64⟩
/-- A window of bytes. -/
def rBytes (off len : Nat) (b : Bytes) : RegSpan := ⟨off, len, leNat (b.take len)⟩

/-- The 32-bit word at an offset; offsets no span covers are res0 (20 R736). -/
def wordAt (l : List RegSpan) (o : Nat) : Nat :=
  match l.find? fun r => decide (r.off ≤ o) && decide (o < r.off + r.len) with
  | some r => (r.val >>> (8 * (o - r.off))) % 2 ^ 32
  | none => 0

/-- Whether an offset begins a 64-bit register. -/
def is64 (l : List RegSpan) (o : Nat) : Bool := l.any fun r => r.off == o && r.len == 8

/-- Bits of a list of truths, bit 0 first. -/
def flagBits : List Bool → Nat
  | [] => 0
  | b :: l => b2n b + 2 * flagBits l

/-! ### Pages (20 R731 to R733) -/

/-- The block type of a page in use (20 R731). -/
def blockType (p : Nat) : Option Nat := if p < 14 then some p else if 64 ≤ p ∧ p < 384 then some 0x40 else none

/-- Whether a page is mapped for a function (20 R731 to R733). -/
def pageMapped (fn p : Nat) : Bool :=
  (blockType p).isSome && (if fn = 0 then p != 12 && p != 13 else if fn = 1 then true else p == 1)

/-! ### The common part (20 R737 to R742) -/

/-- PG_STATUS.present: the block is powered and not retired. -/
def pagePresent (s : State) (p : Nat) : Bool :=
  if p = 13 then s.boot.aux
  else if p < 14 then domainOn s 40
  else netOn s (p - 64) && (clusterOf s (p - 64)).powered && !(clusterOf s (p - 64)).retired

/-- PG_ID and PG_VERSION. -/
def idSpans (p : Nat) : List RegSpan := [r32 0 (p + 65536 * (blockType p).getD 0), r32 4 0x10001]

/-- The registers of the counters. -/
def evcSpans (pg : Page) : List RegSpan :=
  (withPos pg.evcs).flatMap fun e =>
    [r32 (0x40 + 4 * e.1) (e.2.source + 256 * b2n e.2.enable), r64 (0x60 + 8 * e.1) e.2.count, r64 (0xA0 + 8 * e.1) e.2.snap]

/-- The common part of a page. -/
def commonSpans (s : State) (p : Nat) : List RegSpan :=
  let pg := pageOf s p
  let head := match pg.errs with
    | e :: _ => leBytes 8 e.seq ++ leBytes 2 e.code ++ zeros 2 ++ leBytes 4 e.inst
    | [] => []
  idSpans p ++ [r32 8 (pgCap p), r32 0xC pg.ctl.toNat, r32 0x10 (b2n (pagePresent s p) + 2 * b2n pg.irq),
    r32 0x14 (irqStatus s p pg), r32 0x18 pg.enable.toNat, r32 0x20 (pg.errs.length + 16 * b2n pg.errOvf), rBytes 0x30 16 head] ++
    evcSpans pg

/-! ### Global (20 R747 to R752) -/

/-- Clusters available: powered on and not retired, once their networks run (20 R749). -/
def clustersUp (s : State) : Nat := ((List.range 320).filter fun g => pagePresent s (64 + g)).length

/-- GLB_STATUS (20 R749). -/
def glbStatus (s : State) : Nat :=
  s.boot.level + 4 * clustersUp s + 2048 * ((List.range 20).filter (stackServes s)).length +
    65536 * ((List.range 64).filter fun n => (channelOf s n).ok && !(channelOf s n).retired).length + 2 ^ 23 * b2n s.boot.mgmtRun

/-- GLB_IRQ_SUMMARY (20 R751). -/
def irqSummary (s : State) : Nat :=
  flagBits ((List.range 14).map fun p => (pageOf s p).irq) +
    65536 * flagBits ((List.range 4).map fun d => s.regs.pages.any fun p => decide (64 + 80 * d ≤ p.1) && decide (p.1 < 144 + 80 * d) && p.2.irq)

/-- One of the three ten-word cluster registers (20 R752). -/
def clusterBits (s : State) (f : Cluster → Bool) : Nat := flagBits ((List.range 320).map fun g => f (clusterOf s g))

def globalSpans (s : State) : List RegSpan :=
  let code := b2n Config.is131
  [r32 0x1000 (0x2508 + 65536 * code), r32 0x1004 Config.glbRev.toNat,
   r64 0x1008 (if Config.is131 then 131072000000000 else 262144000000000),
   rBytes 0x1010 16 ((List.range 16).map Config.serialByte), r64 0x1020 (now s), r32 0x1028 s.boot.bootCount,
   r32 0x102C s.boot.resetCause, r32 0x1030 (glbStatus s), r64 0x1038 s.boot.linkDegraded.toNat, r64 0x1040 s.boot.linkFailed.toNat,
   r32 0x1048 s.boot.pll.toNat, r32 0x104C (irqSummary s), r64 0x1050 s.boot.domain.toNat, r64 0x1058 s.regs.badAccess,
   ⟨0x1060, 40, clusterBits s (·.powered)⟩, ⟨0x1088, 40, clusterBits s (·.awake)⟩, ⟨0x10B0, 40, clusterBits s (·.retired)⟩]

/-! ### Host interface (15 R567 to R572) -/

/-- The queue pair a function's QP_SEL shows, none when it is not its own. -/
def selectedQp (s : State) (fn : Nat) : Option Nat := ownQp s fn (fnOf s fn).qpSel

/-- QP_STATUS (15 R572). -/
def qpStatus (q : Qp) : Nat := b2n (q.enable && !q.err) + 2 * b2n (q.reserved == 0) + 4 * b2n q.err + 8 * q.cause

/-- The registers of a queue pair; the low bits of a base are res0 and read zero, but a base written with one set is
misaligned at enable (15 R559, R567). -/
def qpSpans (q : Qp) : List RegSpan :=
  let top (b : BitVec 64) : Nat := b.toNat / 64 * 64
  [r64 0x1010 (top q.sqBase), r64 0x1018 (top q.cqBase), r64 0x1020 (top q.stBase), r64 0x1028 q.stWb.toNat,
   r32 0x1030 q.sizes.toNat, r32 0x1034 q.irq.toNat, r32 0x1038 (b2n q.enable), r32 0x103C (qpStatus q)]

def hifSpans (s : State) (fn : Nat) : List RegSpan :=
  let f := fnOf s fn
  [r32 0x1000 s.hif.link.toNat, r32 0x1004 fn, r32 0x1008 f.qpFind, r32 0x100C (if 2 ≤ fn ∧ f.qpSel = 0x4000 then 0 else f.qpSel)] ++
    (match selectedQp s fn with | some k => qpSpans (qpOf s k) | none => []) ++
    [r64 0x1040 f.dbDropped, r64 0x1048 (if fn = 0 then s.hif.lost0 else if fn = 1 then s.hif.lost1 else 0),
     r32 0x1050 (if fn = 1 then s.hif.bar4Base.toNat else 0), r64 0x1058 (if fn = 1 then s.hif.bar4Denied else 0),
     r64 0x1060 (now s)]

/-! ### Scheduler, request table, text, search, selection (14 R547; 10 R385; 06 R219; 08 R303; 09 R342, R344) -/

def schedSpans (s : State) : List RegSpan :=
  let d := s.sched
  let used := (s.boot.clusters.map fun c => c.2.slots.length).sum
  let ready := min 65535 (d.units.filter fun u => u.2.slots.isEmpty).length
  [r32 0x1000 (b2n d.hold), r32 0x1004 (used + 4096 * ready), r32 0x1008 d.defaultSlice, r32 0x100C d.acctSel.toNat,
   r32 0x1010 d.accounts.length, r32 0x1014 (s.hif.fns.filter fun f => f.2.disabling.isSome).length, r64 0x1018 d.heats,
   r64 0x1020 d.preempts, r64 0x1028 d.debtNs, r64 0x1030 d.faults, r64 0x1038 d.logLost, r32 0x1040 d.log.length,
   rBytes 0x1100 256 d.acctWin]

def genSpans (s : State) : List RegSpan :=
  let g := s.gen
  let idle := g.entries.isEmpty && g.steps.isEmpty
  [r32 0x1000 (b2n g.hold), r32 0x1004 (g.entries.length + 8192 * b2n idle + 16384 * b2n (g.hold && g.steps.isEmpty)),
   r32 0x1008 (g.batons.filter fun b => b.2.live).length, r32 0x100C g.winSel.toNat, r64 0x1010 g.stepCount, r64 0x1018 g.tokens,
   r64 0x1020 g.cancelled, r64 0x1028 g.deadlines, r64 0x1030 g.draftRejected, r64 0x1038 g.falseStarts, r64 0x1040 g.degraded,
   r64 0x1048 g.reruns, rBytes 0x1100 256 g.win]

/-- Whether an entry holds a tokenizer lane: its input is open or being tokenized (06 R220). -/
def holdsTokLane (x : RtEntry) : Bool := x.state == .pre && x.work.stage == 2
/-- Whether an entry holds a detokenizer lane: it generates (06 R220). -/
def holdsDetokLane (x : RtEntry) : Bool := x.state == .wait || x.state == .step

/-- The text unit's registers; after a module reset it shows no slot loaded until the catalogue is (06 R219, R220, 17 R637). -/
def textSpans (s : State) : List RegSpan :=
  let o := s.obj
  let slots := if s.boot.reloaded then o.tokenizers else []
  let es := s.gen.entries
  [r32 0x1000 (flagBits ((List.range 16).map fun k => mhas slots k) + 65536 * b2n (es.any fun e => holdsTokLane e.2) +
      131072 * b2n (es.any fun e => holdsDetokLane e.2)),
   r32 0x1004 o.txtSlotSel.toNat, r64 0x1008 o.txtBytesIn, r64 0x1010 o.txtTokensOut, r64 0x1018 o.txtInvalid,
   r64 0x1020 o.txtDetok, r64 0x1028 o.txtStops,
   r32 0x1030 (((mget slots (o.txtSlotSel.toNat % 16)).map (·.id)).getD 0)]

/-- SRCH_CSE_STATUS (08 R307). -/
def cseStatus (s : State) (g : Nat) : Nat :=
  ctxBusy s g + 512 * (s.search.walks.filter fun w => w.2.engine == g && w.2.place == some false).length +
    2 ^ 24 * b2n (hubUnreachable s (g / 8))

/-- Whether lists of a pass lie in the merge unit and are not united yet (08 R305). -/
def mergeGoing (s : State) : Bool :=
  let going (w : SearchWork) : Bool := !w.entryNodes.isEmpty && w.waiting.isNone && !w.merged && !w.heldHere
  (s.gen.entries.any fun e => e.2.state == .pre && (e.2.work.stage == 6 || e.2.work.stage == 7) && going e.2.work.search) ||
    s.search.shardWork.any fun w => going w.2

def searchSpans (s : State) : List RegSpan :=
  let r := s.search
  let idle := r.walks.isEmpty && r.offersOut.isEmpty && r.endsOut.isEmpty && !mergeGoing s
  [r32 0x1000 (b2n r.hold + 2 * b2n r.widenOff), r32 0x1004 (r.walks.length + 32768 * b2n idle + 65536 * r.tags.length),
   r64 0x1008 r.walkCount, r64 0x1010 r.hops, r64 0x1018 r.relays, r64 0x1020 r.offers, r64 0x1028 r.widened, r64 0x1030 r.short,
   r64 0x1038 r.badHops, r64 0x1040 r.unreach, r32 0x1048 r.cseSel.toNat, r32 0x104C (cseStatus s (r.cseSel.toNat % 64)),
   r64 0x1100 r.packs, r64 0x1108 r.passages, r64 0x1110 r.skipped, r64 0x1118 r.unreadable, r64 0x1120 r.promptTokens]

/-- Rows that lie in the selection units or wait for one: those of requests in stages 5 and 10 (09 R343, 01 stage table). -/
def selHeld (s : State) : Nat :=
  (s.gen.entries.filter fun e => e.2.state == .pre && e.2.mode != 4 &&
    ((e.2.work.stage == 5 && !e.2.work.search.heldHere) || e.2.work.stage == 10)).length

/-- SEL_STATUS: the rows fill units 0 to 3 in turn (09 R343, assumption 54). -/
def selStatus (s : State) : Nat := 2 ^ (min 4 (selHeld s)) - 1 + 16 * b2n (selHeld s == 0)

def selSpans (s : State) : List RegSpan :=
  let r := s.search
  [r32 0x1000 (selStatus s), r64 0x1008 r.selRows, r64 0x1010 r.selEntries, r64 0x1018 r.selBuckets, r64 0x1020 r.selShort, r64 0x1028 r.selNan]

/-! ### Tables, memory, flash (11 R428; 12 R473; 13 R507) -/

/-- The per-table registers (11 R428). -/
def tableSpans (t : Table) : List RegSpan :=
  [r32 0x100C t.id, r32 0x1010 ((currentVersion t).getD 0), r32 0x1014 t.flags.toNat, r64 0x1018 t.defInvalid, r64 0x1020 t.defMissing,
   r64 0x1028 t.adds, r64 0x1030 t.dropRetired, r64 0x1038 t.dropFull, r64 0x1040 t.dropIndex, r64 0x1048 t.nanDeltas,
   r64 0x1050 (t.versions.map fun v => v.2.hot.length).sum, r64 0x1058 t.promotions, r64 0x1060 t.demotions]

def tblSpans (s : State) : List RegSpan :=
  let o := s.obj
  let adding := s.fab.pairs.any fun p => p.2.asked.any fun r => r.pkt.ptype == 4
  let copying := o.tables.any fun t => t.2.versions.any fun v => v.2.hot.any fun r => r.2.state != .replicated
  [r32 0x1000 o.tblCtl.toNat, r32 0x1004 ((o.tables.filter fun t => !t.2.deleted).length + 8192 * b2n (!copying && !adding)),
   r32 0x1008 o.tblSel.toNat] ++
    (match mget o.tables (o.tblSel.toNat % 4096) with | some t => if t.deleted then [] else tableSpans t | none => [])

/-- MEM_CTL: without lending in the record in effect both lending enables read 0 (18 R672). -/
def memCtl (s : State) : Nat :=
  if (s.sec.config.map (·.lending)).getD true then s.mem.ctl.toNat else s.mem.ctl.toNat % 2

/-- MEM_STACK_STATUS (12 R478). -/
def stackStatus (k : Stack) : Nat :=
  b2n k.ok + 2 * b2n k.degraded + 4 * b2n k.retiring + 8 * b2n k.retired + 16 * (k.spares % 4096)

/-- Pages borrowed now. -/
def borrowedPages (s : State) : Nat := (s.mem.borrowed.map fun l => l.2.pages).sum

def memSpans (s : State) : List RegSpan :=
  let m := s.mem
  let k := stackOf s m.stackSel
  [r32 0x1000 (memCtl s), r32 0x1004 (flagBits ((List.range 20).map (stackServes s)) + 2 ^ 20 * b2n (lentPages s != 0) +
      2 ^ 21 * b2n (borrowedPages s != 0)),
   r32 0x1008 m.scrubPeriod, r32 0x100C m.lendMax, r32 0x1010 m.lendHops, r32 0x1014 m.stackSel, r32 0x1018 (stackStatus k),
   r32 0x101C m.spareThresh, r64 0x1020 k.ce, r64 0x1028 k.ue, r64 0x1030 m.tagFaults, r64 0x1038 k.rowsSpared, r64 0x1040 m.fetches,
   r64 0x1048 m.misses, r64 0x1050 m.fbShadow, r64 0x1058 m.fbZero, r32 0x1060 (lentPages s), r32 0x1064 (borrowedPages s),
   r64 0x1068 m.reclaims, r64 0x1070 m.lentHits, r64 0x1078 m.decompBytes]

/-- FL_STATUS (13 R509). -/
def flStatus (s : State) : Nat :=
  let f := s.flash
  flagBits [f.sprintRo, f.storeRo, f.channels.any fun c => c.2.sprintLow, f.channels.any fun c => c.2.storeLow] +
    16 * f.sprintCause + 64 * f.storeCause + 256 * b2n f.dumpReplayed + 65536 * f.sprintRoCh + 2 ^ 22 * f.storeRoCh

/-- FL_CH_STATUS (13 R513). -/
def chStatus (c : Channel) : Nat :=
  flagBits [c.ok, c.failed, c.retired, c.gcSprint || c.gcStore, c.wlActive, c.sprintLow, c.storeLow]

def flashSpans (s : State) : List RegSpan :=
  let f := s.flash
  let ch := f.chSel.toNat % 64
  [r32 0x1000 f.ctl.toNat, r32 0x1004 (flStatus s), r32 0x1008 f.wearSpread.toNat, r32 0x100C f.gcThresh.toNat, r32 0x1010 f.ageScale,
   r32 0x1014 f.chSel.toNat, r32 0x1018 (chStatus (channelOf s ch)), r32 0x101C (sparesLeft s ch 0 % 65536 + 65536 * sparesLeft s ch 1),
   r64 0x1020 (usableBytes s 0), r64 0x1028 (usableBytes s 1), r64 0x1030 f.reads, r64 0x1038 f.programs, r64 0x1040 f.erases,
   r64 0x1048 f.retry, r64 0x1050 f.fail, r64 0x1058 f.retired, r64 0x1060 f.gcMoves, r64 0x1068 f.wlMoves, r64 0x1070 f.roRejects]

/-! ### Fabric (16 R624 to R631) -/

/-- The code of a port state (16 R630). -/
def portCode : PortState → Nat
  | .down => 0
  | .training => 1
  | .local => 2
  | .secure => 3

/-- The code of a fabric state (16 R626). -/
def fabCode : FabState → Nat
  | .unassigned => 0
  | .assigned => 1
  | .admitted => 2
  | .leaving => 3

/-- FAB_RT_DATA: the selected entry (16 R606). -/
def rtSelected (f : Fabric) : BitVec 32 := mgetD (if f.rtSel.getLsbD 14 then f.rtGroup else f.rtLocal) (f.rtSel.toNat % 2 ^ 14) 0

/-- First member that FAB_SET_WIN shows. -/
def setFirst (s : State) : Nat := bitsOf s.fab.setSel.toNat 23 8

def fabSpans (s : State) : List RegSpan :=
  let f := s.fab
  let p := portOf s (f.portSel.toNat % 32)
  let set := selSet s
  [r32 0x1000 (b2n (f.state == .leaving) + 256 * f.lendSet), r32 0x1004 (f.id + 2 ^ 20 * fabCode f.state + 2 ^ 22 * b2n f.anchor),
   r32 0x100C f.timers.toNat, r32 0x1010 f.portSel.toNat, r32 0x1014 p.fec,
   r32 0x1018 (portCode p.state + 4 * b2n p.shortFec + 8 * p.lanes), r32 0x101C f.routeB, r32 0x1020 f.rtSel.toNat,
   r32 0x1024 (rtSelected f).toNat, r32 0x1028 f.setSel.toNat,
   r32 0x102C (mgetD f.setSizes set 0 + 2 ^ 29 * b2n (setBusy s set)), r64 0x1030 p.fecCorr, r64 0x1038 p.fecUncorr,
   r64 0x1040 p.linkRetry, r64 0x1048 p.authFail, r64 0x1050 f.retx, r64 0x1058 f.peersLost, r64 0x1060 f.noRoute,
   r64 0x1068 f.assignDropped] ++
    (List.range 64).map fun i => r32 (0x1100 + 4 * i) (mgetD f.setMembers (65536 * set + setFirst s + i) 0)

/-! ### Live service, security (17 R661 to R663; 18 R689 to R691) -/

/-- Lost graph pages that await their rebuild (17 R643, R661). -/
def pagesAwaiting (s : State) : Nat :=
  (s.obj.collections.map fun c => (c.2.badPages.filter fun p => c.2.rebuild.any fun n => c.2.pageNo n == p).length).sum

/-- Oldest microcode on a cluster in service (17 R661). -/
def oldestUcode (s : State) : Nat :=
  (minNat (((List.range 320).filter fun g => (clusterOf s g).powered && !(clusterOf s g).retired).map fun g => (clusterOf s g).ucode)).getD 0

def lsSpans (s : State) : List RegSpan :=
  let b := s.boot
  [r32 0x1004 (b2n b.lsOp.isSome + 2 * b.lsResult + 16 * b2n b.lsValid + 32 * b.lsLast), r64 0x1008 b.lsProgress, r64 0x1010 b.lsTotal,
   r64 0x1018 (b.stagedUcode.getD 0 % 2 ^ 32 + 2 ^ 32 * oldestUcode s), r64 0x1020 (pagesAwaiting s)]

def secSpans (s : State) : List RegSpan :=
  let c := s.sec
  [r32 0x1000 (flagBits [c.identityOk, c.config.isSome, c.chal.isSome, c.unlocked]), r64 0x1008 c.dbgAddr.toNat, r32 0x1010 c.dbgLen.toNat,
   r32 0x1014 (c.dbgResult + 8 * b2n c.dbgValid), r32 0x1018 c.unlocks,
   rBytes 0x1020 64 (match c.chal with | some (n, _) => chalBytes s n | none => [])]

/-! ### Management (19 R728 to R730) -/

/-- MGT_STATUS. -/
def mgtStatus (m : Mgmt) : Nat := b2n m.rtcSet + 2 * b2n m.i3c.isSome + 4 * (m.i3c.getD 0 % 128) + 512 * b2n m.update.isSome

/-- PCR_STATUS; an override's reason comes first (19 R714). -/
def pcrStatus (m : Mgmt) : Nat :=
  let why := (minNat (m.overrides.map fun o => overrideReason o.1)).getD ((minNat (reasonsOf m 0)).getD 0)
  let held (p : Nat) : Nat := b2n !(reasonsOf m p).isEmpty
  held 0 + 2 * b2n (!m.overrides.isEmpty) + 16 * why + 256 * held 1 + 4096 * (minNat (reasonsOf m 1)).getD 0 +
    65536 * held 2 + 2 ^ 20 * (minNat (reasonsOf m 2)).getD 0

/-- PCR_CLK_NOW: lowest and highest code on the selected die, once its network runs. -/
def clkNow (s : State) : Nat :=
  let d := s.mgmt.dieSel.toNat % 4
  if s.boot.domain.getLsbD (36 + d) then
    let l := (List.range 80).map fun i => (clusterOf s (80 * d + i)).code
    (minNat l).getD 0 + 256 * l.foldl max 0
  else 0

/-- Buffered snapshot sets in KiB, rounded up. -/
def snapFill (m : Mgmt) : Nat := (((m.snaps.filter fun x => !x.flushed).map SnapSet.size).sum + 1023) / 1024

def mgmtSpans (s : State) : List RegSpan :=
  let m := s.mgmt
  let d := m.dieSel.toNat % 4
  let cb := clkBoundsOf s d
  let ab := admBoundsOf s m.admSel
  [r32 0x1000 (mgtStatus m), r32 0x1004 m.lockstep, r32 0x1008 m.pcrCtl.toNat, r32 0x100C m.powerCap, r32 0x1010 m.dieSel.toNat,
   r32 0x1014 (cb.1 + 256 * cb.2), r32 0x1018 (clkNow s), r32 0x101C m.admSel, r32 0x1020 (ab.1 + 65536 * ab.2), r32 0x1024 m.admTarget,
   r32 0x1028 m.replBudget, r32 0x102C m.replThresh.toNat, r32 0x1030 (pcrStatus m), r64 0x1038 m.clamps, r64 0x1040 m.overrideCount,
   r32 0x1048 (2 * m.manualList), r32 0x104C (min 4096 (snapFill m) + 16384 * m.winKind), r64 0x1050 ((m.records.head?.map (·.seq)).getD 0),
   r64 0x1058 m.lastSeq, r64 0x1060 m.cursor, r64 0x1068 m.snapSel.toNat, r64 0x1070 m.lostRecs, r64 0x1078 m.snapDropped,
   r32 0x1080 m.trigSel.toNat, r32 0x1084 (mgetD m.triggers (m.trigSel.toNat % 32) 0).toNat, r32 0x1088 m.listSel.toNat,
   r32 0x108C (mgetD m.lists (64 * (m.listSel.toNat % 16) + bitsOf m.listSel.toNat 9 4) 0).toNat, r32 0x1090 (b2n s.regs.evcFreeze),
   rBytes 0x1200 512 m.win]

/-! ### Clusters (04 R134 to R142) -/

/-- ARR_STATUS (04 R136). -/
def arrStatus (c : Cluster) : Nat :=
  b2n c.drained + 2 * b2n c.spareOp.isSome + 4 * b2n c.group.isSome + 8 * b2n c.retired + 16 * spareLines c.rows c.badRows +
    64 * spareLines c.cols c.badCols

/-- The two bypass bytes of rows or columns, 0xFF for none (04 R138). -/
def mapBytes (l : List Nat) : Nat := (l[0]?).getD 0xFF + 256 * (l[1]?).getD 0xFF

def clusterSpans (c : Cluster) : List RegSpan :=
  [r32 0x1000 (b2n c.drain + 2 * b2n c.retired), r32 0x1004 (arrStatus c), r32 0x1008 (256 + c.rows.length + c.cols.length),
   r32 0x100C (mapBytes c.rows + 65536 * mapBytes c.cols), r32 0x1014 (c.result + 8 * b2n c.resultValid), r32 0x1018 c.fault.toNat,
   r32 0x101C c.faultLoc.toNat, r64 0x1020 c.passCount, r64 0x1028 c.reloads, r64 0x1030 c.stalls]

/-! ### A page as a function sees it -/

/-- The registers of a block. -/
def blockSpans (s : State) (fn p : Nat) : List RegSpan :=
  match p with
  | 0 => globalSpans s
  | 1 => hifSpans s fn
  | 2 => schedSpans s
  | 3 => genSpans s
  | 4 => textSpans s
  | 5 => searchSpans s
  | 6 => selSpans s
  | 7 => tblSpans s
  | 8 => memSpans s
  | 9 => flashSpans s
  | 10 => fabSpans s
  | 11 => lsSpans s
  | 12 => secSpans s
  | 13 => mgmtSpans s
  | _ => clusterSpans (clusterOf s (p - 64))

/-- The recovery page (17 R648, R649). -/
def recoverySpans (s : State) : List RegSpan :=
  let b := s.boot
  [r32 0 (b.rcvState + 4 * b.rcvSource + 8 * b.rcvFail), r64 8 b.rcvAddr.toNat, r32 0x10 b.rcvLen.toNat]

/-- What a page reads for a function (20 R731 to R733; 17 R648). -/
def pageSpans (s : State) (fn p : Nat) : List RegSpan :=
  if s.boot.level = 3 then (if fn = 1 ∧ p = 0 then recoverySpans s else [])
  else if !pageMapped fn p then []
  else if 2 ≤ fn then idSpans p ++ blockSpans s fn p
  else commonSpans s p ++ blockSpans s fn p

/-- A 4-byte read (20 R734). -/
def read4 (s : State) (fn p o : Nat) : Nat := wordAt (pageSpans s fn p) o

/-- An 8-byte read: one 64-bit register, or two words (20 R734, R735). -/
def read8 (s : State) (fn p o : Nat) : Nat := read4 s fn p o + 2 ^ 32 * read4 s fn p (o + 4)

end Sys2Proof.Machine
end

