-- ==== Sys2Proof/Machine/Mgmt.lean ====
section
/-! DEFINITION. Zhoulnas: lockstep, MCTP and PLDM, firmware updates, the calendar, the pacers' and recorder's registers,
snapshot sets and the event counters' control (19 R692 to R709, R719 to R730; 20 R740 to R743; 17 R646, R647; 18 R671 to R673). -/

namespace Sys2Proof.Machine

/-! ### The management pair (19 R693, 17 R647) -/

/-- LOCKSTEP_MISMATCH (19 R693). -/
def execLockstepMismatch (s : State) : Answer :=
  .next (if s.boot.mgmtRun then
      modMgmt (fun m => { m with lockstep := (m.lockstep + 1) % 2 ^ 32, restart := 1 }) (modBoot (fun b => { b with mgmtRun := false }) s)
    else s)

/-- MANAGEMENT_RESTART_END (17 R647; 19 R693, R717): the record tells why the pair restarted. -/
def execManagementRestartEnd (s : State) : Answer :=
  .next (if s.boot.aux ∧ s.boot.fwOk ∧ !s.boot.mgmtRun then
      let s1 := modMgmt (fun m => { m with restart := 0 }) (modBoot (fun b => { b with mgmtRun := true }) s)
      if s.mgmt.restart = 1 then recordEvent 1 13 0x0902 0 [s.mgmt.lockstep] s1 else s1
    else s)

/-! ### MCTP (19 R695, R696) -/

/-- A PLDM or MCTP answer on a binding: completion code and bytes (assumption 26). -/
def pldmSay (binding code : Nat) (b : Bytes) (s : State) : State :=
  modMgmt (fun m => { m with answers := (binding, code, b) :: m.answers }) s

/-- Whether the responder takes a request on a binding: 0 I3C, once an address is held; 1 PCI Express (19 R695, R696). -/
def pldmUp (binding : Nat) (s : State) : Bool :=
  s.boot.mgmtRun && (binding == 1 || (binding == 0 && s.mgmt.i3c.isSome))

/-- Run a request on a binding. -/
def pldm (binding : Nat) (act : State → State) (s : State) : State := if pldmUp binding s then act s else s

/-- PLDM's ERROR_INVALID_DATA (19 R709). -/
def invalidData : Nat := 2

/-- SET_ENDPOINT_ID (19 R695): 0 and 0xFF name no endpoint. -/
def execSetEndpointId (binding eid : Nat) (s : State) : Answer :=
  .next (pldm binding (fun t =>
    if eid = 0 ∨ 255 ≤ eid then pldmSay binding invalidData [] t
    else pldmSay binding 0 (leBytes 1 eid)
      (modMgmt (fun m => if binding = 0 then { m with eidI3c := eid } else { m with eidPcie := eid }) t)) s)

/-- The 48-bit provisioned ID: the maker's MIPI ID, 0, and the low 32 bits of the device serial (19 R696). -/
def provisionedId : Nat := 2 ^ 33 * Config.mipiId.toNat + leNat ((List.range 4).map Config.serialByte)

/-- ENTDAA (19 R696): the module answers with its provisioned ID, sent highest byte first, and takes the address. -/
def execEntdaa (addr : Nat) (s : State) : Answer :=
  .next (if s.boot.aux ∧ addr < 128 ∧ s.mgmt.i3c.isNone then pldmSay 0 0 (leBytes 6 provisionedId).reverse (modMgmt (fun m => { m with i3c := some addr }) s) else s)

/-- RSTDAA (19 R696). -/
def execRstdaa (s : State) : Answer := .next (modMgmt (fun m => { m with i3c := none }) s)

/-! ### PLDM base (19 R697) -/

/-- Whether a PLDM type is supported. -/
def pldmType (t : Nat) : Bool := [0, 2, 4, 5, 63].contains t

/-- Bytes that DSP0240 asks for and the spec does not number. -/
def pldmOpen (k n : Nat) : Bytes := (List.range n).map (Config.pldmByte k)

def execGetTid (binding : Nat) (s : State) : Answer := .next (pldm binding (pldmSay binding 0 (pldmOpen 0 1)) s)

/-- GET_PLDM_TYPES: bit t of eight bytes for each type (19 R697). -/
def execGetPldmTypes (binding : Nat) (s : State) : Answer :=
  .next (pldm binding (pldmSay binding 0 (leBytes 8 ((List.range 64).map fun t => if pldmType t then 2 ^ t else 0).sum)) s)

def execGetPldmCommands (binding ptype : Nat) (s : State) : Answer :=
  .next (pldm binding (fun t => if pldmType ptype then pldmSay binding 0 (pldmOpen (1 + ptype) 32) t else pldmSay binding 0x83 [] t) s)

def execGetPldmVersion (binding ptype : Nat) (s : State) : Answer :=
  .next (pldm binding (fun t => if pldmType ptype then pldmSay binding 0 (pldmOpen (65 + ptype) 4) t else pldmSay binding 0x83 [] t) s)

/-! ### Sensors, records, field data (19 R694, R697) -/

/-- The sensor IDs (19 R694). -/
def sensorIds : List Nat :=
  [0x100, 0x101, 0x102, 0x103, 0x110] ++ (List.range 20).map (0x120 + ·) ++ (List.range 8).map (0x140 + ·) ++
    (List.range 8).map (0x150 + ·) ++ [0x160, 0x161, 0x162, 0x170, 0x171, 0x172, 0x173, 0x180, 0x181, 0x182, 0x183, 0x190, 0x191]

/-- SENSOR_READ: `value` is what the sensor last sampled. -/
def execSensorRead (binding sensor value : Nat) (s : State) : Answer :=
  .next (pldm binding (fun t =>
    if sensorIds.contains sensor then
      pldmSay binding 0 (leBytes 4 value) (modMgmt (fun m => { m with sensors := mset m.sensors sensor value }) t)
    else pldmSay binding 0x80 [] t) s)

/-- The bounds that effecters write (19 R699): the register of each, the low bit and width of its field, and the instance it
selects, by effecter number (assumption 26). -/
def effecters : List (Nat × Nat × Nat × Nat) :=
  [(0x100C, 0, 12, 0), (0x1024, 0, 20, 0), (0x1028, 0, 10, 0), (0x102C, 0, 16, 0), (0x102C, 16, 16, 0)] ++
  (List.range 4).flatMap (fun d => [(0x1014, 0, 4, d), (0x1014, 8, 4, d)]) ++
  (List.range 3).flatMap fun p => [(0x1020, 0, 16, p + 1), (0x1020, 16, 16, p + 1)]

/-- PDR_READ: one record for each sensor and effecter. -/
def execPdrRead (binding handle : Nat) (s : State) : Answer :=
  .next (pldm binding (fun t =>
    let n := sensorIds.length + effecters.length
    if handle < n then pldmSay binding 0 (leBytes 4 (if handle + 1 < n then handle + 1 else 0) ++ Config.pdrBytes handle) t
    else pldmSay binding 0x82 [] t) s)

/-- FRU_READ: serial, ordering code, raw flash capacity, manufacture date, board revision (19 R697). -/
def execFruRead (binding : Nat) (s : State) : Answer :=
  .next (pldm binding (pldmSay binding 0 ((List.range 16).map Config.serialByte ++ leBytes 1 (b2n Config.is131) ++
    leBytes 8 (if Config.is131 then 131072000000000 else 262144000000000) ++ pldmOpen 200 4 ++
    leBytes 1 (bitsOf Config.glbRev.toNat 31 24))) s)

/-- SET_EVENT_RECEIVER (19 R700). -/
def execSetEventReceiver (binding eid : Nat) (s : State) : Answer :=
  .next (pldm binding (fun t => if 255 < eid then pldmSay binding invalidData [] t
    else pldmSay binding 0 [] (modMgmt (fun m => { m with receiver := some eid }) t)) s)

/-! ### Pacer registers (19 R699, R728 to R730) -/

/-- What a write of a pacer register sets, none when it is ignored (19 R729). -/
def pacerSet (m : Mgmt) (off v : Nat) : Option Mgmt :=
  let when_ (c : Bool) (x : Mgmt) : Option Mgmt := if c then some x else none
  let within (lo hi n : Nat) : Bool := decide (lo ≤ n) && decide (n ≤ hi)
  match off with
  | 0x1008 => some { m with pcrCtl := BitVec.ofNat 32 (v % 4) }
  | 0x100C => when_ (within 1000 3400 (v % 4096)) { m with powerCap := v % 4096 }
  | 0x1010 => some { m with dieSel := BitVec.ofNat 32 (v % 4) }
  | 0x1014 =>
    let lo := v % 16
    let hi := bitsOf v 11 8
    when_ (decide (lo ≤ hi) && decide (hi ≤ 12)) { m with clkBounds := mset m.clkBounds (m.dieSel.toNat % 4) (lo, hi) }
  | 0x101C => when_ (v % 4 != 0) { m with admSel := v % 4 }
  | 0x1020 => when_ (decide (v % 65536 ≤ v / 65536)) { m with admBounds := mset m.admBounds m.admSel (v % 65536, v / 65536) }
  | 0x1024 => when_ (within 100 1000000 (v % 2 ^ 20)) { m with admTarget := v % 2 ^ 20 }
  | 0x1028 => when_ (within 0 512 (v % 1024)) { m with replBudget := v % 1024 }
  | 0x102C => when_ (decide (v / 65536 < v % 65536)) { m with replThresh := BitVec.ofNat 32 v }
  | _ => none

/-- Whether a pacer register holds a bound, whose writes are recorded (19 R699). -/
def isBound (off : Nat) : Bool := [0x100C, 0x1014, 0x1020, 0x1024, 0x1028, 0x102C].contains off

/-- Write a pacer register; a bound that is written is recorded (19 R699, R717). -/
def pacerWrite (off v : Nat) (s : State) : State :=
  match pacerSet s.mgmt off v with
  | none => s
  | some m =>
    let s1 := { s with mgmt := m }
    if isBound off then recordEvent 0 13 0x0805 0 [off, v] s1 else s1

/-- The bound register as the instance an effecter selects shows it. -/
def boundNow (m : Mgmt) (off inst : Nat) : Nat :=
  match off with
  | 0x100C => m.powerCap
  | 0x1014 => let b := mgetD m.clkBounds inst (0, 12); b.1 + 256 * b.2
  | 0x1020 => let b := mgetD m.admBounds inst (0, 0xFFFF); b.1 + 65536 * b.2
  | 0x1024 => m.admTarget
  | 0x1028 => m.replBudget
  | _ => m.replThresh.toNat

/-- Select an effecter's instance. -/
def selectInst (off inst : Nat) (m : Mgmt) : Mgmt :=
  match off with
  | 0x1014 => { m with dieSel := BitVec.ofNat 32 inst }
  | 0x1020 => { m with admSel := inst }
  | _ => m

/-- EFFECTER_WRITE (19 R699): the field of the register is written; the selectors stay. -/
def execEffecterWrite (binding effecter : Nat) (value : BitVec 32) (s : State) : Answer :=
  .next (pldm binding (fun t =>
    match effecters[effecter]? with
    | none => pldmSay binding 0x80 [] t
    | some (off, lo, w, inst) =>
      if 2 ^ w ≤ value.toNat then pldmSay binding invalidData [] t
      else
        let cur := boundNow t.mgmt off inst
        let v := cur - bitsOf cur (lo + w - 1) lo * 2 ^ lo + value.toNat * 2 ^ lo
        match pacerSet (selectInst off inst t.mgmt) off v with
        | none => pldmSay binding invalidData [] t
        | some _ =>
          let u := pacerWrite off v { t with mgmt := selectInst off inst t.mgmt }
          pldmSay binding 0 [] (modMgmt (fun m => { m with dieSel := t.mgmt.dieSel, admSel := t.mgmt.admSel }) u)) s)

/-! ### Firmware update (19 R701 to R703; 18 R671 to R673; 17 R646) -/

/-- REQUEST_UPDATE (19 R702): 0x81 is ALREADY_IN_UPDATE_MODE. -/
def execRequestUpdate (binding : Nat) (s : State) : Answer :=
  .next (pldm binding (fun t =>
    if t.mgmt.update.isSome then pldmSay binding 0x81 [] t
    else pldmSay binding 0 [] (modMgmt (fun m => { m with update := some { binding := binding } }) t)) s)

/-- The object kind of a component (19 R701). -/
def componentKind : Nat → Option Nat
  | 1 => some 0
  | 2 => some 1
  | 3 => some 2
  | 4 => some 4
  | _ => none

/-- Usable bits of a configuration record body (18 R672). -/
def configMask : List Nat :=
  maskOf 256 [(0, 4, all64), (4, 2, all64), (8, 4, all64), (16, 8, all64), (24, 8, all64), (32, 1, 0xFF), (33, 1, 7), (34, 1, 0xFF)] 

/-- The floor that an accepted object raises when it takes effect, 0 for none (18 R671). -/
def floorRaise (sig : Bytes) : Nat := if (rd sig 5 1).testBit 0 then rd sig 8 4 else 0

/-- Read a configuration record, none when a field is invalid or the serial differs (18 R672, R673). -/
def parseConfig (o : Bytes) : Option ConfigRec :=
  let b := o.take 256
  let n := rd b 34 1
  let keys := (List.range 8).map fun i => (b.drop (64 + 16 * i)).take 16
  let res0 := (offending 0 (b.take 64) (configMask.take 64)).isNone && (b.drop 192).all (· == 0) &&
    (keys.drop n).all fun k => k.all (· == 0)
  if 256 ≤ (splitSigned o).1.length ∧ rd b 0 4 = 0x47464E43 ∧ rd b 4 2 = 1 ∧ rd b 32 1 ≤ 25 ∧ n ≤ 8 ∧ res0 ∧
      (b.drop 16).take 16 = (List.range 16).map Config.serialByte then
    some { seq := rd b 8 4, sprintShare := rd b 32 1, fabric := (rd b 33 1).testBit 0, lending := (rd b 33 1).testBit 1
           debugUnlock := (rd b 33 1).testBit 2, revoked := keys.take n, digest := Config.sha512 b, raise := floorRaise (splitSigned o).2 }
  else none

/-- Write an accepted record to the inactive copy, then raise the stored sequence (18 R673). -/
def storeConfig (r : ConfigRec) (s : State) : State :=
  modSec (fun c => raiseSeqTo r.seq (if c.activeA then { c with copyB := some r } else { c with copyA := some r })) s

/-- VerifyComplete on the binding of the session: 0 success, 1 failure (19 R702). -/
def verifyComplete (ok : Bool) (s : State) : State :=
  match s.mgmt.update with
  | some u => pldmSay u.binding (if ok then 0 else 1) [] s
  | none => s

/-- Remember a verified component until it is activated. -/
def holdComponent (c : Nat) (obj : Bytes) (s : State) : State :=
  modMgmt (fun m => { m with update := m.update.map fun u => { u with comps := u.comps.filter (fun x => x.1 != c) ++ [(c, obj)] } }) s

/-- COMPONENT_TRANSFER (19 R701, R702; 18 R670, R673). -/
def execComponentTransfer (component : Nat) (obj : Bytes) (s : State) : Answer :=
  .next (if !s.boot.mgmtRun ∨ s.mgmt.update.isNone then s
    else match componentKind component with
      | none => verifyComplete false s
      | some k =>
        let s1 := evCount 12 2 1 s
        let ok := objectAccepted s k obj
        if k = 4 then
          match (parseConfig obj).filter fun r => ok && decide (s.sec.storedSeq < r.seq) with
          | some r => verifyComplete true (holdComponent component obj (storeConfig r s1))
          | none => verifyComplete false (recordEvent 2 12 0x0702 0 [] s1)
        else if ok then verifyComplete true (holdComponent component obj s1)
        else verifyComplete false s1)

/-- What a component does when it is activated (19 R701, R703): the management pair restarts, microcode and hub firmware are
staged, a configuration record waits for the next bring-up. -/
def activate (c : Nat × Bytes) (s : State) : State :=
  let v := (Config.objectVersion c.2).toNat
  let up := floorRaise (splitSigned c.2).2
  match c.1 with
  | 1 => modMgmt (fun m => { m with restart := 2 }) (modBoot (fun b => { b with mgmtRun := false }) (writeFirmware c.2 s))
  | 2 => modBoot (fun b => { b with
      stagedUcode := some v, ucodeRaise := up, ucodeDigests := mset b.ucodeDigests v (Config.sha512 c.2) }) s
  | 3 => modBoot (fun b => { b with
      stagedHub := some v, hubRaise := up, hubDigests := mset b.hubDigests v (Config.sha512 c.2) }) s
  | _ => s

/-- ACTIVATE_FIRMWARE (19 R701): the session closes, and the activation is recorded. -/
def execActivateFirmware (binding : Nat) (s : State) : Answer :=
  .next (pldm binding (fun t =>
    match t.mgmt.update with
    | none => pldmSay binding 0x80 [] t
    | some u =>
      let t1 := pldmSay binding 0 [] (modMgmt (fun m => { m with update := none }) t)
      let t2 := foldS u.comps (fun x c => activate c x) t1
      whenS (!u.comps.isEmpty) (recordEvent 0 13 0x0903 0 (u.comps.map Prod.fst)) t2) s)

/-! ### The calendar (19 R706 to R709) -/

/-- SET_CALENDAR: the record holds the time before and after, and module time (19 R708, R709). -/
def execSetCalendar (binding value : Nat) (s : State) : Answer :=
  .next (pldm binding (fun t =>
    let v := value % 2 ^ 64
    if v = 0 then pldmSay binding invalidData [] t
    else recordEvent 0 13 0x0901 0 [calendar t, v, now t]
      (pldmSay binding 0 [] (modMgmt (fun m => { m with rtcSet := true, rtc := v, rtcAt := now t }) t))) s)

def execGetCalendar (binding : Nat) (s : State) : Answer :=
  .next (pldm binding (fun t => pldmSay binding 0 (leBytes 8 (calendar t)) t) s)

/-! ### Snapshot sets (19 R719 to R722) -/

/-- Copy every counter of every page in one cycle (19 R727). -/
def snapAll (s : State) : State :=
  modRegs (fun r => { r with pages := mmap r.pages fun _ p => { p with evcs := p.evcs.map fun e => { e with snap := e.count } } }) s

/-- The page of a list entry: its page code, or the record's own page (20 R746). -/
def entryPage (source e : Nat) : Nat := if e % 256 = 0xFF then source else e % 256

/-- A list entry as the set holds it: its descriptor, and the words it reads (19 R720; assumption 27). -/
def entryBytes_ (s : State) (source e : Nat) : Bytes :=
  let p := entryPage source e
  let o := 8 * bitsOf e 20 8
  leBytes 8 (e - e % 256 + p % 256) ++ (List.range (bitsOf e 28 21)).flatMap fun i => leBytes 8 (read8 s 1 p (o + 8 * i))

/-- Entries in list order while they fit whole in 65,536 bytes: the bytes, how many, whether one was left out. -/
def fillSet (room : Nat) : List Bytes → Bytes × Nat × Bool
  | [] => ([], 0, false)
  | b :: l =>
    if b.length ≤ room then
      let r := fillSet (room - b.length) l
      (b ++ r.1, r.2.1 + 1, r.2.2)
    else
      let r := fillSet room l
      (r.1, r.2.1, true)

/-- The entries of a list that are used. -/
def listEntries (m : Mgmt) (l : Nat) : List Nat :=
  ((List.range 64).map fun i => (mgetD m.lists (64 * l + i) 0).toNat).filter fun e => bitsOf e 28 21 != 0

/-- The list of a trigger, or the one asked for by hand. -/
def trigList (m : Mgmt) (t : Nat) : Nat := if 256 ≤ t then t - 256 else bitsOf (mgetD m.triggers t 0).toNat 27 24

/-- A set that does not fit is not taken: its record says so (19 R721). -/
def dropSet (seq : Nat) (s : State) : State :=
  modMgmt (fun m => { m with
    snapDropped := m.snapDropped + 1
    records := m.records.map fun r => if r.seq = seq then Rec.seal { r with snapDropped := true, snapId := 0 } else r }) s

/-- Bytes the always-on buffer holds. -/
def bufferBytes (m : Mgmt) : Nat := ((m.snaps.filter fun x => !x.flushed).map SnapSet.size).sum

/-- Take one waiting set. -/
def takeSet (w : Nat × Nat × Nat × Nat) (s : State) : State :=
  let l := trigList s.mgmt w.2.1
  let s1 := snapAll s
  let f := fillSet (65536 - 64) ((listEntries s.mgmt l).map (entryBytes_ s1 w.2.2.1))
  let x : SnapSet := { id := w.2.2.2, seq := w.1, trigger := if 256 ≤ w.2.1 then 0xFF else w.2.1, list := l, truncated := f.2.2
                       entries := f.2.1, capture := now s, words := f.1 }
  if 4194304 < bufferBytes s1.mgmt + x.size then dropSet w.1 s1
  else
    let s2 := evCount 13 2 1 (modMgmt (fun m => { m with snaps := m.snaps ++ [x] }) s1)
    if 3145728 < bufferBytes s2.mgmt ∨ (s2.mgmt.records.any fun r => r.seq == w.1 && decide (2 ≤ r.severity)) then flushSnaps s2 else s2

/-- SNAPSHOT_SET (19 R719, R722): the oldest waiting set, taken within 1 µs of its record. -/
def execSnapshotSet (seq : Nat) (s : State) : Answer :=
  .next (match s.mgmt.snapWait with
    | w :: ws => if w.1 = seq then takeSet w (modMgmt (fun m => { m with snapWait := ws }) s) else s
    | [] => s)

/-- SNAPSHOT_FLUSH (19 R721). -/
def execSnapshotFlush (s : State) : Answer := .next (flushSnaps s)

/-! ### Reading the recorder (19 R723, R730) -/

/-- EVR_MANUAL (19 R730): an info record of class RECORDER that takes the chosen list's set. -/
def manualRecord (s : State) : State := recordWith (some s.mgmt.manualList) 0x61 0 13 0x0900 0 none [] s

def execEvrManual (fn : Nat) (s : State) : Answer := .next (if isMgmtPf fn then manualRecord s else s)

/-- Latch the record with the lowest seq at or above a value (19 R723). -/
def latchRecord (v : Nat) (s : State) : State :=
  match s.mgmt.records.find? fun r => r.marked && decide (v ≤ r.seq) with
  | some r => modMgmt (fun m => { m with cursor := r.seq, win := padTo r.bytes 512, winKind := 1 }) s
  | none => modMgmt (fun m => { m with cursor := m.lastSeq + 1, win := [], winKind := 0 }) s

/-- EVR_ADVANCE (19 R723). -/
def execEvrAdvance (fn : Nat) (s : State) : Answer := .next (if isMgmtPf fn then latchRecord (s.mgmt.cursor + 1) s else s)

/-- EVR_CURSOR_WRITE (19 R723). -/
def execEvrCursorWrite (fn value : Nat) (s : State) : Answer := .next (if isMgmtPf fn then latchRecord (value % 2 ^ 64) s else s)

/-- The bytes of a snapshot set (19 R720). -/
def SnapSet.bytes (x : SnapSet) : Bytes :=
  leBytes 4 x.id ++ leBytes 1 x.trigger ++ leBytes 1 x.list ++ leBytes 1 (b2n x.truncated) ++ leBytes 1 x.entries ++
    leBytes 4 x.size ++ zeros 4 ++ leBytes 8 x.capture ++ leBytes 8 x.capture ++ zeros 32 ++ x.words

/-- Latch chunk n of a set (19 R723). -/
def latchChunk (v : Nat) (s : State) : State :=
  let n := bitsOf v 38 32
  let sel := BitVec.ofNat 64 (v % 2 ^ 39)
  match s.mgmt.snaps.find? fun x => x.id == v % 2 ^ 32 && decide (512 * n < x.size) with
  | some x => modMgmt (fun m => { m with snapSel := sel, win := padTo (x.bytes.drop (512 * n)) 512, winKind := 2 }) s
  | none => modMgmt (fun m => { m with snapSel := sel, win := [], winKind := 0 }) s

/-- EVR_SNAP_SEL_WRITE (19 R723). -/
def execEvrSnapSelWrite (fn value : Nat) (s : State) : Answer := .next (if isMgmtPf fn then latchChunk value s else s)

/-! ### Event counters (19 R725 to R727; 20 R743) -/

def setFreeze (freeze : Bool) (s : State) : State := modRegs (fun r => { r with evcFreeze := freeze }) s

/-- EVC_FREEZE (19 R726). -/
def execEvcFreeze (fn : Nat) (freeze : Bool) (s : State) : Answer := .next (if isMgmtPf fn then setFreeze freeze s else s)

/-- EVC_SNAP (19 R727). -/
def execEvcSnap (fn : Nat) (s : State) : Answer := .next (if isMgmtPf fn then snapAll s else s)

/-- Change one counter of a page. -/
def modEvc (page i : Nat) (f : Evc → Evc) (s : State) : State :=
  modPage page (fun p => { p with evcs := match p.evcs[i]? with | some e => p.evcs.set i (f e) | none => p.evcs }) s

/-- Whether a function may write the common part of a page: a physical function, on a page mapped for it; the fabric page is the
management function's (20 R732, R733; 16 R624). -/
def mayWrite (fn page : Nat) : Bool := isPf fn && pageMapped fn page && (page != 10 || fn == 1)

/-- Preset a counter that is frozen or disabled (19 R726, 20 R743). -/
def presetEvc (page i v : Nat) (s : State) : State :=
  if s.regs.evcFreeze || !(((pageOf s page).evcs[i]?.map (·.enable)).getD false) then
    modEvc page i (fun e => { e with count := v % 2 ^ 48 }) s
  else s

/-- EVC_COUNT_WRITE (20 R743). -/
def execEvcCountWrite (fn page counter value : Nat) (s : State) : Answer :=
  .next (if mayWrite fn page && decide (counter < 8) then presetEvc page counter value s else s)

/-- EVC_OVERFLOW (19 R725): a counter at its largest value counts one more event. -/
def execEvcOverflow (page counter : Nat) (s : State) : Answer :=
  .next (match (pageOf s page).evcs[counter]? with
    | some e =>
      if e.enable && e.count == 2 ^ 48 - 1 && !s.regs.evcFreeze && pageCounts s page && (blockType page).isSome then
        irqEval false page (modPage page (fun p => { p with ovf := p.ovf ||| BitVec.twoPow 8 counter })
          (modEvc page counter (fun x => { x with count := 0 }) s))
      else s
    | none => s)

/-! ### The common part's interrupts and log (20 R739 to R741) -/

/-- MSI-X vectors of a page's target function (15 R556, 20 R739). -/
def targetVectors (v : BitVec 32) : Nat := if v.getLsbD 11 then 2048 else 64

/-- PG_ERR_POP: the oldest entry leaves (20 R741). -/
def popErr (page : Nat) (s : State) : State := irqEval true page (modPage page (fun p => { p with errs := p.errs.drop 1 }) s)

def execPgErrPop (fn page : Nat) (s : State) : Answer := .next (if mayWrite fn page then popErr page s else s)

/-- A write of PG_CTL, PG_IRQ_STATUS or PG_IRQ_ENABLE, and the evaluation after it (20 R739, R740).  A PG_CTL whose vector
is not below the target's table size is ignored. -/
def irqWrite (page offset : Nat) (value : BitVec 32) (s : State) : State :=
  match offset with
  | 0xC => if value.toNat % 2048 < targetVectors value then irqEval true page (modPage page (fun p => { p with ctl := value &&& 0x1FFF }) s) else s
  | 0x14 => irqEval true page (modPage page (fun p => { p with ovf := p.ovf &&& ~~~(value.setWidth 8) }) s)
  | 0x18 => irqEval true page (modPage page (fun p => { p with enable := value &&& 0x3FF }) s)
  | _ => s

/-- PG_IRQ_REEVALUATE (20 R740). -/
def execPgIrqReevaluate (fn page offset : Nat) (value : BitVec 32) (s : State) : Answer :=
  .next (if mayWrite fn page then irqWrite page offset value s else s)

end Sys2Proof.Machine
end

