-- ==== Sys2Proof/Machine/RegMap.lean ====
section
/-! DEFINITION. Writing registers: what a write does to every register that takes one, half writes and latched reads of 64-bit
registers, bad accesses, and the anchor's register packets (20 R731 to R743, R746, R752; 00 R10; 16 R605, R618, R624). -/

namespace Sys2Proof.Machine

/-- The state a meaning leaves. -/
def after (a : Answer) (s : State) : State :=
  match a with
  | .next t => t
  | _ => s

/-- Whether a number lies between two bounds. -/
def within (lo hi n : Nat) : Bool := decide (lo ≤ n) && decide (n ≤ hi)

/-! ### The common part (20 R739 to R743) -/

/-- A write of EVC_SELi: a source at or above the page's count is ignored (20 R743). -/
def selEvc (p i v : Nat) (s : State) : State :=
  if v % 256 < pgCap p then modEvc p i (fun e => { e with source := v % 256, enable := v.testBit 8 }) s else s

/-- A write of a 32-bit register of the common part. -/
def writeCommon (p o v : Nat) (s : State) : State :=
  match o with
  | 0x20 => if v.testBit 4 then modPage p (fun x => { x with errOvf := false }) s else s
  | 0x24 => if v.testBit 0 then popErr p s else s
  | _ => if 0x40 ≤ o ∧ o < 0x60 then selEvc p ((o - 0x40) / 4) v s else irqWrite p o (BitVec.ofNat 32 v) s

/-! ### The blocks -/

/-- GLB_CL_POWERi: each bit powers its cluster off or on (20 R752). -/
def clusterPower (fn i v : Nat) (s : State) : State :=
  foldS (List.range 32) (fun t b =>
    if v.testBit b then after (execClusterPowerOn fn (32 * i + b) t) t else after (execClusterPowerOff fn (32 * i + b) t) t) s

def writeGlobal (fn o v : Nat) (s : State) : State :=
  if o = 0x1034 then after (execGlbReset fn (BitVec.ofNat 32 v) s) s
  else if 0x1060 ≤ o ∧ o < 0x1088 then clusterPower fn ((o - 0x1060) / 4) v s
  else s

/-- Change a queue pair's base or size registers: only while enable is 0 and idle is 1 (15 R560). -/
def configQp (fn : Nat) (f : Qp → Qp) (s : State) : State :=
  match selectedQp s fn with
  | some k => modQp k (fun q => if q.enable || q.reserved != 0 then q else f q) s
  | none => s

/-- MSI-X vectors of a function (15 R556). -/
def fnVectors (fn : Nat) : Nat := if fn = 0 then 2048 else 64

/-- QP_IRQ: a vector outside the function's table is ignored (15 R571). -/
def writeQpIrq (fn v : Nat) (s : State) : State :=
  match selectedQp s fn with
  | some k => if v % 2048 < fnVectors fn then modQp k (fun q => { q with irq := BitVec.ofNat 32 v }) s else s
  | none => s

/-- QP_CTL (15 R559, R560). -/
def writeQpCtl (fn v : Nat) (s : State) : State :=
  if v.testBit 0 then after (execQpEnable fn (fnOf s fn).qpSel s) s else after (execQpDisable fn (fnOf s fn).qpSel s) s

def writeHif (fn o v : Nat) (s : State) : State :=
  match o with
  | 0x1008 => after (execQpFind fn (v % 0x4000) s) s
  | 0x100C => modFn fn (fun f => { f with qpSel := v % 0x8000 }) s
  | 0x1030 => configQp fn (fun q => { q with sizes := BitVec.ofNat 32 (v % 0x8000) }) s
  | 0x1034 => writeQpIrq fn v s
  | 0x1038 => writeQpCtl fn v s
  | 0x1050 => if fn = 1 ∧ v % 32 ≤ 29 then modHif (fun h => { h with bar4Base := BitVec.ofNat 32 (v % 32) }) s else s
  | _ => s

def writeSched (fn o v : Nat) (s : State) : State :=
  match o with
  | 0x1000 => after (execSchedHold fn (BitVec.ofNat 32 v) s) s
  | 0x1008 => if within 100 100000 (v % 2 ^ 17) then modSched (fun d => { d with defaultSlice := v % 2 ^ 17 }) s else s
  | 0x100C => after (execAcctWinLatch fn (BitVec.ofNat 32 v) s) s
  | _ => s

def writeGen (fn o v : Nat) (s : State) : State :=
  match o with
  | 0x1000 => after (execGenHold fn (BitVec.ofNat 32 v) s) s
  | 0x100C => after (execRtWinLatch fn (BitVec.ofNat 32 v) s) s
  | _ => s

def writeText (o v : Nat) (s : State) : State :=
  if o = 0x1004 then modObj (fun x => { x with txtSlotSel := BitVec.ofNat 32 (v % 16) }) s else s

/-- SRCH_CTL (08 R304) and SRCH_CSE_SEL (08 R306). -/
def writeSearch (fn o v : Nat) (s : State) : State :=
  match o with
  | 0x1000 =>
    let t := modSearch (fun r => { r with widenOff := v.testBit 1 }) s
    if v.testBit 0 then after (execSearchHoldSet fn t) t else after (execSearchHoldClear fn t) t
  | 0x1048 => modSearch (fun r => { r with cseSel := BitVec.ofNat 32 (v % 64) }) s
  | _ => s

/-- TBL_CTL, TBL_SEL and the sticky flags of the selected table (11 R429, R431, R432). -/
def writeTables (o v : Nat) (s : State) : State :=
  match o with
  | 0x1000 => whenS (v.testBit 1) drainReplicas (modObj (fun x => { x with tblCtl := BitVec.ofNat 32 (v % 4) }) s)
  | 0x1008 => modObj (fun x => { x with tblSel := BitVec.ofNat 32 (v % 4096) }) s
  | 0x1014 =>
    let k := s.obj.tblSel.toNat % 4096
    match mget s.obj.tables k with
    | some t => if t.deleted then s else modTable k (fun x => { x with flags := x.flags &&& ~~~(BitVec.ofNat 32 v) }) s
    | none => s
  | _ => s

/-- MEM_CTL: clearing lend_en reclaims every lease (12 R474); without lending in the record in effect the two lending enables
ignore writes (18 R672). -/
def writeMemCtl (fn v : Nat) (s : State) : State :=
  let lend := (s.sec.config.map (·.lending)).getD true
  let now_ := if lend then v % 8 else v % 2
  let t := if (memCtl s).testBit 1 && !now_.testBit 1 then after (execMemLendDisable fn s) s else s
  modMem (fun m => { m with ctl := BitVec.ofNat 32 now_ }) t

def writeMem (fn o v : Nat) (s : State) : State :=
  match o with
  | 0x1000 => writeMemCtl fn v s
  | 0x1008 => if within 1 168 (v % 256) then modMem (fun m => { m with scrubPeriod := v % 256 }) s else s
  | 0x100C => if v % 2 ^ 20 ≤ 983040 then modMem (fun m => { m with lendMax := v % 2 ^ 20 }) s else s
  | 0x1010 => if within 1 4 (v % 8) then modMem (fun m => { m with lendHops := v % 8 }) s else s
  | 0x1014 => if v % 32 < 20 then modMem (fun m => { m with stackSel := v % 32 }) s else s
  | 0x101C => if within 1 255 (v % 256) then modMem (fun m => { m with spareThresh := v % 256 }) s else s
  | _ => s

/-- WEAR_SPREAD: a field written 0 stays (13 R510). -/
def newSpread (old v : Nat) : Nat :=
  let lo := if v % 65536 = 0 then old % 65536 else v % 65536
  let hi := if v / 65536 = 0 then old / 65536 else v / 65536
  lo + 65536 * hi

def writeFlash (o v : Nat) (s : State) : State :=
  match o with
  | 0x1000 => modFlash (fun f => { f with ctl := BitVec.ofNat 32 (v % 4) }) s
  | 0x1008 => modFlash (fun f => { f with wearSpread := BitVec.ofNat 32 (newSpread f.wearSpread.toNat v) }) s
  | 0x100C =>
    if within 5 100 (v % 256) && within (v % 256 + 1) 200 (bitsOf v 15 8) then
      modFlash (fun f => { f with gcThresh := BitVec.ofNat 32 (v % 65536) }) s
    else s
  | 0x1010 => if within 3600 31536000 v then modFlash (fun f => { f with ageScale := v }) s else s
  | 0x1014 => modFlash (fun f => { f with chSel := BitVec.ofNat 32 (v % 64) }) s
  | _ => s

/-- FAB_SET_WIN: one member of the selected set, whose reductions are counted anew (16 R616, R624, R631). -/
def writeMember (i v : Nat) (s : State) : State :=
  let set := selSet s
  if set = 0 ∨ setBusy s set ∨ 65536 ≤ setFirst s + i then s
  else modFab (fun f => { f with
    setMembers := mset f.setMembers (65536 * set + setFirst s + i) (v % 2 ^ 20), redCount := merase f.redCount set }) s

/-- FAB_CTL: leave and lend_set (16 R621, R625). -/
def writeFabCtl (fn v : Nat) (s : State) : State :=
  let t := modFab (fun f => { f with lendSet := bitsOf v 15 8 }) s
  if v.testBit 0 then after (execFabLeave fn t) t else t

/-- The fabric registers; `fn` is the management function for its own writes and the anchor's (16 R624 to R631).  FAB_ASSIGN
takes only the function's own (16 R627). -/
def writeFab (own : Bool) (fn o v : Nat) (s : State) : State :=
  match o with
  | 0x1000 => writeFabCtl fn v s
  | 0x1008 => if own then after (execFabAssign fn (BitVec.ofNat 32 v) s) s else s
  | 0x100C => if within 1 10000 (v % 65536) && within 1 10000 (v / 65536) then modFab (fun f => { f with timers := BitVec.ofNat 32 v }) s else s
  | 0x1010 => modFab (fun f => { f with portSel := BitVec.ofNat 32 (v % 32) }) s
  | 0x1014 => if v % 4 = 3 then s else modPort (s.fab.portSel.toNat % 32) (fun p => { p with fec := v % 4 }) s
  | 0x101C => if within 6 14 (v % 16) then modFab (fun f => { f with routeB := v % 16 }) s else s
  | 0x1020 => modFab (fun f => { f with rtSel := BitVec.ofNat 32 (v % 2 ^ 15) }) s
  | 0x1024 => writeRoute (BitVec.ofNat 32 v) s
  | 0x1028 => modFab (fun f => { f with setSel := BitVec.ofNat 32 (v % 2 ^ 24) }) s
  | 0x102C => if v.testBit 30 then sizeSet 0 s else sizeSet (v % 2 ^ 17) s
  | _ => if 0x1100 ≤ o ∧ o < 0x1200 then writeMember ((o - 0x1100) / 4) v s else s

/-- LS_CMD: an operation starts when go is set; an op outside 1 to 5 is refused with result 2 (17 R662, R663). -/
def writeLs (fn o v : Nat) (s : State) : State :=
  if o ≠ 0x1000 ∨ !v.testBit 31 then s
  else
    let t := bitsOf v 24 16
    match v % 16 with
    | 1 => after (execLsRetireStack fn t s) s
    | 2 => after (execLsRetireChannel fn t s) s
    | 3 => after (execLsRecalibratePort fn t s) s
    | 4 => after (execLsMicrocode fn t s) s
    | 5 => after (execLsHubFirmware fn t s) s
    | op => lsCmd fn op (lsRefuse op 2) s

/-- Bytes the module reads from host memory for itself. -/
def hostRead (a n : Nat) (s : State) : Bytes := memRead s.hif.hostMem a n

/-- SEC_DBG_CTL and SEC_DBG_LEN (18 R686, R687, R689). -/
def writeSec (fn o v : Nat) (s : State) : State :=
  match o with
  | 0x1004 =>
    let t := if v.testBit 0 then after (execSecDbgChallenge fn s) s else s
    if v.testBit 1 then after (execSecDbgRespond fn (hostRead t.sec.dbgAddr.toNat (t.sec.dbgLen.toNat % 65536) t) t) t else t
  | 0x1010 => modSec (fun c => { c with dbgLen := BitVec.ofNat 32 (v % 65536) }) s
  | _ => s

/-- EVR_CTL: the list, then a record by hand, then an advance (19 R723, R730). -/
def writeEvrCtl (v : Nat) (s : State) : State :=
  let t := modMgmt (fun m => { m with manualList := bitsOf v 4 1 }) s
  let u := if v.testBit 0 then manualRecord t else t
  if v.testBit 8 then latchRecord (u.mgmt.cursor + 1) u else u

def writeMgmt (o v : Nat) (s : State) : State :=
  match o with
  | 0x1048 => writeEvrCtl v s
  | 0x1080 => modMgmt (fun m => { m with trigSel := BitVec.ofNat 32 (v % 32) }) s
  | 0x1084 =>
    if v % 256 ≤ 0x43 then
      modMgmt (fun m => { m with triggers := mset m.triggers (m.trigSel.toNat % 32) (BitVec.ofNat 32 (v % 2 ^ 29)) }) s
    else s
  | 0x1088 => modMgmt (fun m => { m with listSel := BitVec.ofNat 32 (v % 1024) }) s
  | 0x108C =>
    if v % 256 ≤ 0x3F ∨ v % 256 = 0xFF then
      modMgmt (fun m => { m with
        lists := mset m.lists (64 * (m.listSel.toNat % 16) + bitsOf m.listSel.toNat 9 4) (BitVec.ofNat 32 (v % 2 ^ 29)) }) s
    else s
  | 0x1090 =>
    let t := setFreeze (v.testBit 0) s
    if v.testBit 1 then snapAll t else t
  | _ => pacerWrite o v s

/-- ARR_CTL (04 R135), ARR_SPARE_CTL (04 R139) and ARR_FAULT (04 R141): op 3 is refused with result 3, and with result 1 on a
cluster that is not drained, as R123 refuses any go there (R139 and R123 give no order; DESIGN CHOICE, assumption 36). -/
def writeCluster (fn g o v : Nat) (s : State) : State :=
  match o with
  | 0x1000 =>
    let t := after (execArrDrain fn g (v.testBit 0) s) s
    if v.testBit 1 then after (execArrRetire fn g t) t else t
  | 0x1010 =>
    if !v.testBit 10 then s
    else match bitsOf v 9 8 with
      | 0 => after (execArrSpareRow fn g (v % 256) s) s
      | 1 => after (execArrSpareColumn fn g (v % 256) s) s
      | 2 => after (execArrSelfTest fn g s) s
      | _ => modCluster g (fun c => if c.spareOp.isSome then c else { c with result := if c.drained then 3 else 1, resultValid := true }) s
  | 0x1018 => irqEval false (64 + g) (modCluster g (fun c => { c with fault := c.fault &&& ~~~(BitVec.ofNat 32 v) }) s)
  | _ => s

/-- The recovery page (17 R648): the fetch from RCV_ADDR goes with RCV_CTL. -/
def writeRecovery (o v : Nat) (s : State) : State :=
  match o with
  | 0x10 => modBoot (fun b => { b with rcvLen := BitVec.ofNat 32 v }) s
  | 0x14 =>
    if v.testBit 0 then after (execRcvGo (hostRead s.boot.rcvAddr.toNat (min s.boot.rcvLen.toNat 16777216) s) s) s else s
  | _ => s

/-- A write of a block's 32-bit register. -/
def writeBlock (own : Bool) (fn p o v : Nat) (s : State) : State :=
  match p with
  | 0 => writeGlobal fn o v s
  | 1 => writeHif fn o v s
  | 2 => writeSched fn o v s
  | 3 => writeGen fn o v s
  | 4 => writeText o v s
  | 5 => writeSearch fn o v s
  | 6 => s
  | 7 => writeTables o v s
  | 8 => writeMem fn o v s
  | 9 => writeFlash o v s
  | 10 => writeFab own fn o v s
  | 11 => writeLs fn o v s
  | 12 => writeSec fn o v s
  | 13 => writeMgmt o v s
  | _ => writeCluster fn (p - 64) o v s

/-- Whether a function's view of a page shows the recovery page (17 R648). -/
def inRecovery (s : State) : Bool := s.boot.level == 3

/-- A 4-byte write of a 32-bit register (00 R10; 20 R731 to R733). -/
def write32 (own : Bool) (fn p o v : Nat) (s : State) : State :=
  if inRecovery s then (if fn = 1 ∧ p = 0 then writeRecovery o v s else s)
  else if !pageMapped fn p then s
  else if o < 0x1000 then (if mayWrite fn p then writeCommon p o v s else s)
  else if p = 10 ∧ fn ≠ 1 then s
  else writeBlock own fn p o v s

/-! ### 64-bit registers (20 R735) -/

/-- Whether an offset begins a 64-bit register that takes writes, in a function's view. -/
def wide (s : State) (fn p o : Nat) : Bool :=
  if inRecovery s then fn == 1 && p == 0 && o == 8
  else pageMapped fn p && ((mayWrite fn p && within 0x60 0x9F o && o % 8 == 0) ||
    (p == 1 && [0x1010, 0x1018, 0x1020, 0x1028].contains o) || (p == 12 && o == 0x1008) || (p == 13 && (o == 0x1060 || o == 0x1068)))

/-- A write of both halves of a 64-bit register, in one cycle. -/
def write64 (fn p o v : Nat) (s : State) : State :=
  let b := BitVec.ofNat 64 v
  if inRecovery s then modBoot (fun x => { x with rcvAddr := BitVec.ofNat 64 (v / 64 * 64) }) s
  else if o < 0x1000 then presetEvc p ((o - 0x60) / 8) v s
  else match p, o with
    | 1, 0x1010 => configQp fn (fun q => { q with sqBase := b }) s
    | 1, 0x1018 => configQp fn (fun q => { q with cqBase := b }) s
    | 1, 0x1020 => configQp fn (fun q => { q with stBase := b }) s
    | 1, 0x1028 => configQp fn (fun q => { q with stWb := BitVec.ofNat 64 (v / 8 * 8) }) s
    | 12, 0x1008 => modSec (fun c => { c with dbgAddr := BitVec.ofNat 64 (v / 64 * 64) }) s
    | 13, 0x1060 => latchRecord (v % 2 ^ 64) s
    | 13, 0x1068 => latchChunk v s
    | _, _ => s

/-- The low half of a register that a writer holds, or that it has latched the high half of. -/
def halfOf (l : List (Nat × Nat × Nat × BitVec 32)) (who p o : Nat) : Option (BitVec 32) :=
  (l.find? fun x => x.1 == who && x.2.1 == p && x.2.2.1 == o).map (·.2.2.2)

/-- The list without a writer's half of a register. -/
def dropHalf (l : List (Nat × Nat × Nat × BitVec 32)) (who p o : Nat) : List (Nat × Nat × Nat × BitVec 32) :=
  l.filter fun x => !(x.1 == who && x.2.1 == p && x.2.2.1 == o)

/-- Hold the low half of a register. -/
def holdLow (who p o : Nat) (v : BitVec 32) (s : State) : State :=
  modRegs (fun r => { r with held := (who, p, o, v) :: dropHalf r.held who p o }) s

/-- Discard what a writer holds of a register. -/
def dropHeld (who p o : Nat) (s : State) : State := modRegs (fun r => { r with held := dropHalf r.held who p o }) s

/-- Discard what a reader has latched of a register. -/
def dropLatched (who p o : Nat) (s : State) : State := modRegs (fun r => { r with latched := dropHalf r.latched who p o }) s

/-- The write of a high half: with the held low half, or with the current one. -/
def writeHigh (who fn p lo : Nat) (v : BitVec 32) (s : State) : State :=
  let low := match halfOf s.regs.held who p lo with
    | some x => x.toNat
    | none => read4 s fn p lo
  write64 fn p lo (low + 2 ^ 32 * v.toNat) (dropHeld who p lo s)

/-- A 4-byte write at an aligned offset. -/
def writeWord (own : Bool) (who fn p o : Nat) (v : BitVec 32) (s : State) : State :=
  if wide s fn p o then holdLow who p o v s
  else if 4 ≤ o && wide s fn p (o - 4) then writeHigh who fn p (o - 4) v s
  else write32 own fn p o v.toNat s

/-- An 8-byte write at an aligned offset: one 64-bit register, or two words, the lower first (20 R734, R735). -/
def writePair (own : Bool) (who fn p o : Nat) (v : BitVec 64) (s : State) : State :=
  if is64 (pageSpans s fn p) o then
    let t := dropLatched who p o (dropHeld who p o s)
    if wide s fn p o then write64 fn p o v.toNat t else t
  else writeWord own who fn p (o + 4) (v.extractLsb' 32 32) (writeWord own who fn p o (v.setWidth 32) s)

/-- Count an access of another size or alignment (20 R734, R745). -/
def countBad (s : State) : State := evCount 0 3 1 (modRegs (fun r => { r with badAccess := (r.badAccess + 1) % 2 ^ 64 }) s)

/-- Whether an access is naturally aligned and of 4 or 8 bytes (20 R734). -/
def goodAccess (o size : Nat) : Bool := (size == 4 || size == 8) && o % size == 0

/-- A register write of any size (20 R734). -/
def regAccess (own : Bool) (who fn p o size : Nat) (v : BitVec 64) (s : State) : State :=
  if !goodAccess o size then countBad s
  else if size = 8 then writePair own who fn p o v s
  else writeWord own who fn p o (v.setWidth 32) s

/-- REGISTER_WRITE (00 R10, 20 R734). -/
def execRegisterWrite (fn page offset size : Nat) (value : BitVec 64) (s : State) : Answer :=
  .next (regAccess true fn fn page offset size value s)

/-- HALF_WRITE (20 R735): a 4-byte write of one half of a 64-bit register. -/
def execHalfWrite (fn page offset : Nat) (value : BitVec 32) (s : State) : Answer :=
  .next (if wide s fn page offset then holdLow fn page offset value s
    else if 4 ≤ offset && wide s fn page (offset - 4) then writeHigh fn fn page (offset - 4) value s
    else s)

/-- What a reader gets. -/
def answerRead (b : Bytes) (s : State) : State := modRegs (fun r => { r with readValue := b }) s

/-- HALF_READ_LATCH (20 R735): a 4-byte read of a low half latches the high half; one of a high half answers it. -/
def execHalfReadLatch (fn page offset : Nat) (s : State) : Answer :=
  .next (let l := pageSpans s fn page
    if is64 l offset then
      answerRead (leBytes 4 (wordAt l offset)) (modRegs (fun r => { r with
        latched := (fn, page, offset, BitVec.ofNat 32 (wordAt l (offset + 4))) :: dropHalf r.latched fn page offset }) s)
    else if 4 ≤ offset && is64 l (offset - 4) then
      answerRead (leBytes 4 (match halfOf s.regs.latched fn page (offset - 4) with
        | some x => x.toNat
        | none => wordAt l offset)) s
    else s)

/-- A read of 8 bytes, or of 4 that are no half of a 64-bit register: it answers the value, and an 8-byte read of a 64-bit register
discards what the reader has latched of it (20 R735). -/
def plainRead (fn page offset size : Nat) (s : State) : State :=
  let l := pageSpans s fn page
  if size = 8 then
    answerRead (leBytes 8 (read8 s fn page offset)) (if is64 l offset then dropLatched fn page offset s else s)
  else if is64 l offset || (decide (4 ≤ offset) && is64 l (offset - 4)) then s
  else answerRead (leBytes 4 (read4 s fn page offset)) s

/-- BAD_ACCESS (20 R734): a read returns zero, a write is ignored, and each counts.  A read that is not bad is the plain read of
the register (assumption 52). -/
def execBadAccess (fn page offset size : Nat) (isWrite : Bool) (s : State) : Answer :=
  .next (if 514 ≤ fn || 512 ≤ page then s
    else if goodAccess offset size then (if isWrite then s else plainRead fn page offset size s)
    else
      let t := countBad s
      if isWrite then t else answerRead (zeros size) t)

/-! ### The anchor's register packets (16 R605, R618, R620) -/

/-- The reader and writer the anchor is, beside the functions. -/
def anchorWho : Nat := 0x400

/-- Page, offset and size a register packet names (16 R618). -/
def regPage (p : Packet) : Nat := p.arg0.toNat % 512
def regOffset (p : Packet) : Nat := p.arg1.toNat % 65536
def regSize (p : Packet) : Nat := if p.arg0.getLsbD 9 then 8 else 4

/-- REG_READ: the fabric block page as the management function sees it; any other page is refused (16 R605).  A bad access
reads zero and counts (20 R734). -/
def execRegRead (p : Packet) (s : State) : Answer :=
  .next (fromAnchor 0x47 (fun q t =>
    if regPage q ≠ 10 then sendAll (answerTo q 0x85 Status.refused) t
    else if !goodAccess (regOffset q) (regSize q) then sendAll (answerTo q 0x85 Status.ok 0) (countBad t)
    else sendAll (answerTo q 0x85 Status.ok (if regSize q = 8 then read8 t 1 10 (regOffset q) else read4 t 1 10 (regOffset q))) t) p s)

/-- REG_WRITE: the fabric block page alone (16 R605, R624). -/
def execRegWrite (p : Packet) (s : State) : Answer :=
  .next (fromAnchor 0x48 (fun q t =>
    if regPage q ≠ 10 then mgmtStatus q Status.refused t
    else mgmtStatus q Status.ok
      (regAccess false anchorWho 1 10 (regOffset q) (regSize q) (BitVec.ofNat 64 (rd q.payload 0 8)) t)) p s)

end Sys2Proof.Machine
end

