-- ==== Sys2Proof/Machine/Dispatch.lean ====
section
/-! DEFINITION. One arm for each command: a direct call of its meaning. -/

namespace Sys2Proof.Machine

def exec (i : Instr) (s : State) : Host.Outcome State Fault Refusal :=
  match i with
  | .request h => Sys2Proof.Machine.execRequest h s
  | .inputChunk h => Sys2Proof.Machine.execInputChunk h s
  | .cancel h => Sys2Proof.Machine.execCancel h s
  | .run h => Sys2Proof.Machine.execRun h s
  | .batonRelease h => Sys2Proof.Machine.execBatonRelease h s
  | .ingestOpen h => Sys2Proof.Machine.execIngestOpen h s
  | .ingestOp h => Sys2Proof.Machine.execIngestOp h s
  | .ingestCommit h => Sys2Proof.Machine.execIngestCommit h s
  | .commitDurable coll => Sys2Proof.Machine.execCommitDurable coll s
  | .ingestAbort h => Sys2Proof.Machine.execIngestAbort h s
  | .filterRegister h => Sys2Proof.Machine.execFilterRegister h s
  | .filterUnregister h => Sys2Proof.Machine.execFilterUnregister h s
  | .profileLoad h => Sys2Proof.Machine.execProfileLoad h s
  | .profileLoadRelease profile => Sys2Proof.Machine.execProfileLoadRelease profile s
  | .profileUnload h => Sys2Proof.Machine.execProfileUnload h s
  | .imageLoad h => Sys2Proof.Machine.execImageLoad h s
  | .imageUnload h => Sys2Proof.Machine.execImageUnload h s
  | .tokenizerLoad h => Sys2Proof.Machine.execTokenizerLoad h s
  | .tokenizerUnload h => Sys2Proof.Machine.execTokenizerUnload h s
  | .templateLoad h => Sys2Proof.Machine.execTemplateLoad h s
  | .templateUnload h => Sys2Proof.Machine.execTemplateUnload h s
  | .collectionCreate h => Sys2Proof.Machine.execCollectionCreate h s
  | .collectionDelete h => Sys2Proof.Machine.execCollectionDelete h s
  | .tableCreate h => Sys2Proof.Machine.execTableCreate h s
  | .tableDelete h => Sys2Proof.Machine.execTableDelete h s
  | .versionNew h => Sys2Proof.Machine.execVersionNew h s
  | .versionSwitch h => Sys2Proof.Machine.execVersionSwitch h s
  | .versionRetire h => Sys2Proof.Machine.execVersionRetire h s
  | .rowPin h => Sys2Proof.Machine.execRowPin h s
  | .accountCreate h => Sys2Proof.Machine.execAccountCreate h s
  | .accountUpdate h => Sys2Proof.Machine.execAccountUpdate h s
  | .accountDelete h => Sys2Proof.Machine.execAccountDelete h s
  | .accountScrubEnd account => Sys2Proof.Machine.execAccountScrubEnd account s
  | .qpBind h => Sys2Proof.Machine.execQpBind h s
  | .qpUnbind h => Sys2Proof.Machine.execQpUnbind h s
  | .fnDisable h => Sys2Proof.Machine.execFnDisable h s
  | .acctLogRead h => Sys2Proof.Machine.execAcctLogRead h s
  | .asyncWait h => Sys2Proof.Machine.execAsyncWait h s
  | .commandFetch h => Sys2Proof.Machine.execCommandFetch h s
  | .sqTailDoorbell fn qp value => Sys2Proof.Machine.execSqTailDoorbell fn qp value s
  | .cqHeadDoorbell fn qp value => Sys2Proof.Machine.execCqHeadDoorbell fn qp value s
  | .streamHeadDoorbell fn qp value => Sys2Proof.Machine.execStreamHeadDoorbell fn qp value s
  | .qpEnable fn qp => Sys2Proof.Machine.execQpEnable fn qp s
  | .qpDisable fn qp => Sys2Proof.Machine.execQpDisable fn qp s
  | .qpFind fn q => Sys2Proof.Machine.execQpFind fn q s
  | .irqModerationTimer qp => Sys2Proof.Machine.execIrqModerationTimer qp s
  | .bar4Access addr len write => Sys2Proof.Machine.execBar4Access addr len write s
  | .dmaReadError target err => Sys2Proof.Machine.execDmaReadError target err s
  | .stageBoundary entry => Sys2Proof.Machine.execStageBoundary entry s
  | .walkStart entry => Sys2Proof.Machine.execWalkStart entry s
  | .walkHop tag walk readable => Sys2Proof.Machine.execWalkHop tag walk readable s
  | .relayArrive m => Sys2Proof.Machine.execRelayArrive m s
  | .offerBatch b => Sys2Proof.Machine.execOfferBatch b s
  | .endReport r => Sys2Proof.Machine.execEndReport r s
  | .mergeUnite entry => Sys2Proof.Machine.execMergeUnite entry s
  | .shardWaitExpiry entry => Sys2Proof.Machine.execShardWaitExpiry entry s
  | .nodeRebuild coll id => Sys2Proof.Machine.execNodeRebuild coll id s
  | .searchHoldSet fn => Sys2Proof.Machine.execSearchHoldSet fn s
  | .searchHoldClear fn => Sys2Proof.Machine.execSearchHoldClear fn s
  | .reservationGrant entry => Sys2Proof.Machine.execReservationGrant entry s
  | .stepForm image dieMask proofing => Sys2Proof.Machine.execStepForm image dieMask proofing s
  | .stepCommit step => Sys2Proof.Machine.execStepCommit step s
  | .entryFree entry => Sys2Proof.Machine.execEntryFree entry s
  | .genHold fn value => Sys2Proof.Machine.execGenHold fn value s
  | .rtWinLatch fn value => Sys2Proof.Machine.execRtWinLatch fn value s
  | .heat => Sys2Proof.Machine.execHeat s
  | .sliceEnd unit => Sys2Proof.Machine.execSliceEnd unit s
  | .preemptPointReached unit ran => Sys2Proof.Machine.execPreemptPointReached unit ran s
  | .watchdogExpiry cluster slot => Sys2Proof.Machine.execWatchdogExpiry cluster slot s
  | .schedHold fn value => Sys2Proof.Machine.execSchedHold fn value s
  | .acctWinLatch fn value => Sys2Proof.Machine.execAcctWinLatch fn value s
  | .clusterSleep cluster => Sys2Proof.Machine.execClusterSleep cluster s
  | .operationStart cluster slot env => Sys2Proof.Machine.execOperationStart cluster slot env s
  | .passIssue cluster slot desc env => Sys2Proof.Machine.execPassIssue cluster slot desc env s
  | .arrDrain fn cluster drain => Sys2Proof.Machine.execArrDrain fn cluster drain s
  | .arrRetire fn cluster => Sys2Proof.Machine.execArrRetire fn cluster s
  | .arrSpareRow fn cluster index => Sys2Proof.Machine.execArrSpareRow fn cluster index s
  | .arrSpareColumn fn cluster index => Sys2Proof.Machine.execArrSpareColumn fn cluster index s
  | .arrSelfTest fn cluster => Sys2Proof.Machine.execArrSelfTest fn cluster s
  | .arrSpareDone cluster fault => Sys2Proof.Machine.execArrSpareDone cluster fault s
  | .rowDeltaArrive table version row deltas src => Sys2Proof.Machine.execRowDeltaArrive table version row deltas src s
  | .fetchIssue unit seq => Sys2Proof.Machine.execFetchIssue unit seq s
  | .fetchArrive unit seq rows => Sys2Proof.Machine.execFetchArrive unit seq rows s
  | .fetchDeadline unit seq => Sys2Proof.Machine.execFetchDeadline unit seq s
  | .rowPromote table version row count => Sys2Proof.Machine.execRowPromote table version row count s
  | .promotionSnapshotsDone table version row => Sys2Proof.Machine.execPromotionSnapshotsDone table version row s
  | .promotionLogApplied table version row => Sys2Proof.Machine.execPromotionLogApplied table version row s
  | .rowDemote table version row => Sys2Proof.Machine.execRowDemote table version row s
  | .demotionReadsDone table version row => Sys2Proof.Machine.execDemotionReadsDone table version row s
  | .dirtyWriteback table version row => Sys2Proof.Machine.execDirtyWriteback table version row s
  | .scrubPass stack => Sys2Proof.Machine.execScrubPass stack s
  | .lendReclaimStart lease => Sys2Proof.Machine.execLendReclaimStart lease s
  | .leasePathLost lease => Sys2Proof.Machine.execLeasePathLost lease s
  | .memLendDisable fn => Sys2Proof.Machine.execMemLendDisable fn s
  | .flashReadDecode r => Sys2Proof.Machine.execFlashReadDecode r s
  | .gcStart channel part => Sys2Proof.Machine.execGcStart channel part s
  | .gcBlock channel part => Sys2Proof.Machine.execGcBlock channel part s
  | .wearLevelMove channel part => Sys2Proof.Machine.execWearLevelMove channel part s
  | .spareLowReached channel part => Sys2Proof.Machine.execSpareLowReached channel part s
  | .programFail channel part die block => Sys2Proof.Machine.execProgramFail channel part die block s
  | .channelFail channel => Sys2Proof.Machine.execChannelFail channel s
  | .flitReceive port line => Sys2Proof.Machine.execFlitReceive port line s
  | .retryRequest port seq => Sys2Proof.Machine.execRetryRequest port seq s
  | .linkKeyUpdate port => Sys2Proof.Machine.execLinkKeyUpdate port s
  | .portTrained port peerFec shortCable => Sys2Proof.Machine.execPortTrained port peerFec shortCable s
  | .linkSession port peer ok => Sys2Proof.Machine.execLinkSession port peer ok s
  | .retxTimer peer => Sys2Proof.Machine.execRetxTimer peer s
  | .peerLossTimer peer => Sys2Proof.Machine.execPeerLossTimer peer s
  | .tablePin p => Sys2Proof.Machine.execTablePin p s
  | .tableUnpin p => Sys2Proof.Machine.execTableUnpin p s
  | .rowRead p => Sys2Proof.Machine.execRowRead p s
  | .rowAdd p => Sys2Proof.Machine.execRowAdd p s
  | .redExp p => Sys2Proof.Machine.execRedExp p s
  | .redAgree p => Sys2Proof.Machine.execRedAgree p s
  | .redPart p => Sys2Proof.Machine.execRedPart p s
  | .redResult p => Sys2Proof.Machine.execRedResult p s
  | .redAbort p => Sys2Proof.Machine.execRedAbort p s
  | .shardQuery p => Sys2Proof.Machine.execShardQuery p s
  | .shardList p => Sys2Proof.Machine.execShardList p s
  | .leaseReq p => Sys2Proof.Machine.execLeaseReq p s
  | .leaseGrant p => Sys2Proof.Machine.execLeaseGrant p s
  | .leaseReclaim p => Sys2Proof.Machine.execLeaseReclaim p s
  | .leaseRelease p => Sys2Proof.Machine.execLeaseRelease p s
  | .lentWrite p => Sys2Proof.Machine.execLentWrite p s
  | .lentRead p => Sys2Proof.Machine.execLentRead p s
  | .pairAck p => Sys2Proof.Machine.execPairAck p s
  | .assign p => Sys2Proof.Machine.execAssign p s
  | .assignVia p => Sys2Proof.Machine.execAssignVia p s
  | .assigned p => Sys2Proof.Machine.execAssigned p s
  | .admitPacket p => Sys2Proof.Machine.execAdmitPacket p s
  | .unassign p => Sys2Proof.Machine.execUnassign p s
  | .leavePacket p => Sys2Proof.Machine.execLeavePacket p s
  | .anchorMove p => Sys2Proof.Machine.execAnchorMove p s
  | .regRead p => Sys2Proof.Machine.execRegRead p s
  | .regWrite p => Sys2Proof.Machine.execRegWrite p s
  | .spdmRelay p => Sys2Proof.Machine.execSpdmRelay p s
  | .noNeighbour p => Sys2Proof.Machine.execNoNeighbour p s
  | .fabAnswer p => Sys2Proof.Machine.execFabAnswer p s
  | .fabLeave fn => Sys2Proof.Machine.execFabLeave fn s
  | .leaveDrained => Sys2Proof.Machine.execLeaveDrained s
  | .fabAssign fn value => Sys2Proof.Machine.execFabAssign fn value s
  | .fabRtDataWrite fn value => Sys2Proof.Machine.execFabRtDataWrite fn value s
  | .fabSetClear fn => Sys2Proof.Machine.execFabSetClear fn s
  | .rcvReqTimer => Sys2Proof.Machine.execRcvReqTimer s
  | .rcvReq port => Sys2Proof.Machine.execRcvReq port s
  | .rcvData port offset total data => Sys2Proof.Machine.execRcvData port offset total data s
  | .rcvGo image => Sys2Proof.Machine.execRcvGo image s
  | .rcvImageComplete => Sys2Proof.Machine.execRcvImageComplete s
  | .lsRetireStack fn target => Sys2Proof.Machine.execLsRetireStack fn target s
  | .lsRetireChannel fn target => Sys2Proof.Machine.execLsRetireChannel fn target s
  | .lsRecalibratePort fn target => Sys2Proof.Machine.execLsRecalibratePort fn target s
  | .lsMicrocode fn target => Sys2Proof.Machine.execLsMicrocode fn target s
  | .lsHubFirmware fn target => Sys2Proof.Machine.execLsHubFirmware fn target s
  | .lsOperationEnd => Sys2Proof.Machine.execLsOperationEnd s
  | .secDbgChallenge fn => Sys2Proof.Machine.execSecDbgChallenge fn s
  | .secDbgRespond fn obj => Sys2Proof.Machine.execSecDbgRespond fn obj s
  | .challengeExpiry => Sys2Proof.Machine.execChallengeExpiry s
  | .getMeasurements m => Sys2Proof.Machine.execGetMeasurements m s
  | .spdmChallenge m => Sys2Proof.Machine.execSpdmChallenge m s
  | .keyExchange m => Sys2Proof.Machine.execKeyExchange m s
  | .spdmFinish m => Sys2Proof.Machine.execSpdmFinish m s
  | .keyUpdate m => Sys2Proof.Machine.execKeyUpdate m s
  | .spdmHeartbeat m => Sys2Proof.Machine.execSpdmHeartbeat m s
  | .endSession m => Sys2Proof.Machine.execEndSession m s
  | .recorderClear session seq => Sys2Proof.Machine.execRecorderClear session seq s
  | .lockstepMismatch => Sys2Proof.Machine.execLockstepMismatch s
  | .setEndpointId binding eid => Sys2Proof.Machine.execSetEndpointId binding eid s
  | .entdaa addr => Sys2Proof.Machine.execEntdaa addr s
  | .rstdaa => Sys2Proof.Machine.execRstdaa s
  | .getTid binding => Sys2Proof.Machine.execGetTid binding s
  | .getPldmTypes binding => Sys2Proof.Machine.execGetPldmTypes binding s
  | .getPldmCommands binding ptype => Sys2Proof.Machine.execGetPldmCommands binding ptype s
  | .getPldmVersion binding ptype => Sys2Proof.Machine.execGetPldmVersion binding ptype s
  | .sensorRead binding sensor value => Sys2Proof.Machine.execSensorRead binding sensor value s
  | .pdrRead binding handle => Sys2Proof.Machine.execPdrRead binding handle s
  | .effecterWrite binding effecter value => Sys2Proof.Machine.execEffecterWrite binding effecter value s
  | .setEventReceiver binding eid => Sys2Proof.Machine.execSetEventReceiver binding eid s
  | .fruRead binding => Sys2Proof.Machine.execFruRead binding s
  | .requestUpdate binding => Sys2Proof.Machine.execRequestUpdate binding s
  | .componentTransfer component obj => Sys2Proof.Machine.execComponentTransfer component obj s
  | .activateFirmware binding => Sys2Proof.Machine.execActivateFirmware binding s
  | .setCalendar binding value => Sys2Proof.Machine.execSetCalendar binding value s
  | .getCalendar binding => Sys2Proof.Machine.execGetCalendar binding s
  | .clockPacerStep power => Sys2Proof.Machine.execClockPacerStep power s
  | .admissionPacer prio want => Sys2Proof.Machine.execAdmissionPacer prio want s
  | .safetyOverrideEnter q value => Sys2Proof.Machine.execSafetyOverrideEnter q value s
  | .safetyOverrideStep => Sys2Proof.Machine.execSafetyOverrideStep s
  | .safetyOverrideLeave q value => Sys2Proof.Machine.execSafetyOverrideLeave q value s
  | .snapshotSet seq => Sys2Proof.Machine.execSnapshotSet seq s
  | .snapshotFlush => Sys2Proof.Machine.execSnapshotFlush s
  | .evrManual fn => Sys2Proof.Machine.execEvrManual fn s
  | .evrAdvance fn => Sys2Proof.Machine.execEvrAdvance fn s
  | .evrCursorWrite fn value => Sys2Proof.Machine.execEvrCursorWrite fn value s
  | .evrSnapSelWrite fn value => Sys2Proof.Machine.execEvrSnapSelWrite fn value s
  | .evcFreeze fn freeze => Sys2Proof.Machine.execEvcFreeze fn freeze s
  | .evcSnap fn => Sys2Proof.Machine.execEvcSnap fn s
  | .evcCountWrite fn page counter value => Sys2Proof.Machine.execEvcCountWrite fn page counter value s
  | .evcOverflow page counter => Sys2Proof.Machine.execEvcOverflow page counter s
  | .pgErrPop fn page => Sys2Proof.Machine.execPgErrPop fn page s
  | .pgIrqReevaluate fn page offset value => Sys2Proof.Machine.execPgIrqReevaluate fn page offset value s
  | .glbReset fn value => Sys2Proof.Machine.execGlbReset fn value s
  | .clusterPowerOff fn cluster => Sys2Proof.Machine.execClusterPowerOff fn cluster s
  | .clusterPowerOn fn cluster => Sys2Proof.Machine.execClusterPowerOn fn cluster s
  | .clusterPowerOnDone cluster rows cols => Sys2Proof.Machine.execClusterPowerOnDone cluster rows cols s
  | .halfReadLatch fn page offset => Sys2Proof.Machine.execHalfReadLatch fn page offset s
  | .halfWrite fn page offset value => Sys2Proof.Machine.execHalfWrite fn page offset value s
  | .badAccess fn page offset size isWrite => Sys2Proof.Machine.execBadAccess fn page offset size isWrite s
  | .registerWrite fn page offset size value => Sys2Proof.Machine.execRegisterWrite fn page offset size value s
  | .auxPowerApplied identityOk => Sys2Proof.Machine.execAuxPowerApplied identityOk s
  | .starterVerify verify => Sys2Proof.Machine.execStarterVerify verify s
  | .mainInputPresent => Sys2Proof.Machine.execMainInputPresent s
  | .bringupPhase4 => Sys2Proof.Machine.execBringupPhase4 s
  | .bringupPhase5 r => Sys2Proof.Machine.execBringupPhase5 r s
  | .catalogueReload revoked => Sys2Proof.Machine.execCatalogueReload revoked s
  | .proofingBegin => Sys2Proof.Machine.execProofingBegin s
  | .collectionVerified coll lostPages => Sys2Proof.Machine.execCollectionVerified coll lostPages s
  | .fullBegin => Sys2Proof.Machine.execFullBegin s
  | .mainInputLost cause => Sys2Proof.Machine.execMainInputLost cause s
  | .auxInputLost => Sys2Proof.Machine.execAuxInputLost s
  | .handoverEnd => Sys2Proof.Machine.execHandoverEnd s
  | .resetNLow => Sys2Proof.Machine.execResetNLow s
  | .hardLimitTrip limits => Sys2Proof.Machine.execHardLimitTrip limits s
  | .functionLevelReset fn => Sys2Proof.Machine.execFunctionLevelReset fn s
  | .busMasterClear fn => Sys2Proof.Machine.execBusMasterClear fn s
  | .vfEnableClear => Sys2Proof.Machine.execVfEnableClear s
  | .d3hotEntry fn => Sys2Proof.Machine.execD3hotEntry fn s
  | .functionDisableComplete fn => Sys2Proof.Machine.execFunctionDisableComplete fn s
  | .internalLinkFail link => Sys2Proof.Machine.execInternalLinkFail link s
  | .linkDegraded link => Sys2Proof.Machine.execLinkDegraded link s
  | .portDown port => Sys2Proof.Machine.execPortDown port s
  | .resetNRise => Sys2Proof.Machine.execResetNRise s
  | .stackTrained stack => Sys2Proof.Machine.execStackTrained stack s
  | .managementRestartEnd => Sys2Proof.Machine.execManagementRestartEnd s
  | .msixUnmask fn vector => Sys2Proof.Machine.execMsixUnmask fn vector s
  | .peerReportedGone peer => Sys2Proof.Machine.execPeerReportedGone peer s

end Sys2Proof.Machine
end

