-- ==== Sys2Proof/Laws/State.lean ====
section
/-! SUPPORT. What each named update of the state leaves in each field: every lemma is true by rfl. -/

namespace Sys2Proof.Machine

section
variable (f : Regs → Regs) (s : State)
@[simp] theorem modRegs_pending : (modRegs f s).pending = s.pending := rfl
@[simp] theorem modRegs_regs : (modRegs f s).regs = f s.regs := rfl
@[simp] theorem modRegs_hif : (modRegs f s).hif = s.hif := rfl
@[simp] theorem modRegs_sched : (modRegs f s).sched = s.sched := rfl
@[simp] theorem modRegs_obj : (modRegs f s).obj = s.obj := rfl
@[simp] theorem modRegs_gen : (modRegs f s).gen = s.gen := rfl
@[simp] theorem modRegs_search : (modRegs f s).search = s.search := rfl
@[simp] theorem modRegs_mem : (modRegs f s).mem = s.mem := rfl
@[simp] theorem modRegs_flash : (modRegs f s).flash = s.flash := rfl
@[simp] theorem modRegs_fab : (modRegs f s).fab = s.fab := rfl
@[simp] theorem modRegs_boot : (modRegs f s).boot = s.boot := rfl
@[simp] theorem modRegs_sec : (modRegs f s).sec = s.sec := rfl
@[simp] theorem modRegs_mgmt : (modRegs f s).mgmt = s.mgmt := rfl
@[simp] theorem modRegs_free : (modRegs f s).free = s.free := rfl
end

section
variable (f : Hif → Hif) (s : State)
@[simp] theorem modHif_pending : (modHif f s).pending = s.pending := rfl
@[simp] theorem modHif_regs : (modHif f s).regs = s.regs := rfl
@[simp] theorem modHif_hif : (modHif f s).hif = f s.hif := rfl
@[simp] theorem modHif_sched : (modHif f s).sched = s.sched := rfl
@[simp] theorem modHif_obj : (modHif f s).obj = s.obj := rfl
@[simp] theorem modHif_gen : (modHif f s).gen = s.gen := rfl
@[simp] theorem modHif_search : (modHif f s).search = s.search := rfl
@[simp] theorem modHif_mem : (modHif f s).mem = s.mem := rfl
@[simp] theorem modHif_flash : (modHif f s).flash = s.flash := rfl
@[simp] theorem modHif_fab : (modHif f s).fab = s.fab := rfl
@[simp] theorem modHif_boot : (modHif f s).boot = s.boot := rfl
@[simp] theorem modHif_sec : (modHif f s).sec = s.sec := rfl
@[simp] theorem modHif_mgmt : (modHif f s).mgmt = s.mgmt := rfl
@[simp] theorem modHif_free : (modHif f s).free = s.free := rfl
end

section
variable (f : Sched → Sched) (s : State)
@[simp] theorem modSched_pending : (modSched f s).pending = s.pending := rfl
@[simp] theorem modSched_regs : (modSched f s).regs = s.regs := rfl
@[simp] theorem modSched_hif : (modSched f s).hif = s.hif := rfl
@[simp] theorem modSched_sched : (modSched f s).sched = f s.sched := rfl
@[simp] theorem modSched_obj : (modSched f s).obj = s.obj := rfl
@[simp] theorem modSched_gen : (modSched f s).gen = s.gen := rfl
@[simp] theorem modSched_search : (modSched f s).search = s.search := rfl
@[simp] theorem modSched_mem : (modSched f s).mem = s.mem := rfl
@[simp] theorem modSched_flash : (modSched f s).flash = s.flash := rfl
@[simp] theorem modSched_fab : (modSched f s).fab = s.fab := rfl
@[simp] theorem modSched_boot : (modSched f s).boot = s.boot := rfl
@[simp] theorem modSched_sec : (modSched f s).sec = s.sec := rfl
@[simp] theorem modSched_mgmt : (modSched f s).mgmt = s.mgmt := rfl
@[simp] theorem modSched_free : (modSched f s).free = s.free := rfl
end

section
variable (f : Objects → Objects) (s : State)
@[simp] theorem modObj_pending : (modObj f s).pending = s.pending := rfl
@[simp] theorem modObj_regs : (modObj f s).regs = s.regs := rfl
@[simp] theorem modObj_hif : (modObj f s).hif = s.hif := rfl
@[simp] theorem modObj_sched : (modObj f s).sched = s.sched := rfl
@[simp] theorem modObj_obj : (modObj f s).obj = f s.obj := rfl
@[simp] theorem modObj_gen : (modObj f s).gen = s.gen := rfl
@[simp] theorem modObj_search : (modObj f s).search = s.search := rfl
@[simp] theorem modObj_mem : (modObj f s).mem = s.mem := rfl
@[simp] theorem modObj_flash : (modObj f s).flash = s.flash := rfl
@[simp] theorem modObj_fab : (modObj f s).fab = s.fab := rfl
@[simp] theorem modObj_boot : (modObj f s).boot = s.boot := rfl
@[simp] theorem modObj_sec : (modObj f s).sec = s.sec := rfl
@[simp] theorem modObj_mgmt : (modObj f s).mgmt = s.mgmt := rfl
@[simp] theorem modObj_free : (modObj f s).free = s.free := rfl
end

section
variable (f : Gen → Gen) (s : State)
@[simp] theorem modGen_pending : (modGen f s).pending = s.pending := rfl
@[simp] theorem modGen_regs : (modGen f s).regs = s.regs := rfl
@[simp] theorem modGen_hif : (modGen f s).hif = s.hif := rfl
@[simp] theorem modGen_sched : (modGen f s).sched = s.sched := rfl
@[simp] theorem modGen_obj : (modGen f s).obj = s.obj := rfl
@[simp] theorem modGen_gen : (modGen f s).gen = f s.gen := rfl
@[simp] theorem modGen_search : (modGen f s).search = s.search := rfl
@[simp] theorem modGen_mem : (modGen f s).mem = s.mem := rfl
@[simp] theorem modGen_flash : (modGen f s).flash = s.flash := rfl
@[simp] theorem modGen_fab : (modGen f s).fab = s.fab := rfl
@[simp] theorem modGen_boot : (modGen f s).boot = s.boot := rfl
@[simp] theorem modGen_sec : (modGen f s).sec = s.sec := rfl
@[simp] theorem modGen_mgmt : (modGen f s).mgmt = s.mgmt := rfl
@[simp] theorem modGen_free : (modGen f s).free = s.free := rfl
end

section
variable (f : Search → Search) (s : State)
@[simp] theorem modSearch_pending : (modSearch f s).pending = s.pending := rfl
@[simp] theorem modSearch_regs : (modSearch f s).regs = s.regs := rfl
@[simp] theorem modSearch_hif : (modSearch f s).hif = s.hif := rfl
@[simp] theorem modSearch_sched : (modSearch f s).sched = s.sched := rfl
@[simp] theorem modSearch_obj : (modSearch f s).obj = s.obj := rfl
@[simp] theorem modSearch_gen : (modSearch f s).gen = s.gen := rfl
@[simp] theorem modSearch_search : (modSearch f s).search = f s.search := rfl
@[simp] theorem modSearch_mem : (modSearch f s).mem = s.mem := rfl
@[simp] theorem modSearch_flash : (modSearch f s).flash = s.flash := rfl
@[simp] theorem modSearch_fab : (modSearch f s).fab = s.fab := rfl
@[simp] theorem modSearch_boot : (modSearch f s).boot = s.boot := rfl
@[simp] theorem modSearch_sec : (modSearch f s).sec = s.sec := rfl
@[simp] theorem modSearch_mgmt : (modSearch f s).mgmt = s.mgmt := rfl
@[simp] theorem modSearch_free : (modSearch f s).free = s.free := rfl
end

section
variable (f : Mem → Mem) (s : State)
@[simp] theorem modMem_pending : (modMem f s).pending = s.pending := rfl
@[simp] theorem modMem_regs : (modMem f s).regs = s.regs := rfl
@[simp] theorem modMem_hif : (modMem f s).hif = s.hif := rfl
@[simp] theorem modMem_sched : (modMem f s).sched = s.sched := rfl
@[simp] theorem modMem_obj : (modMem f s).obj = s.obj := rfl
@[simp] theorem modMem_gen : (modMem f s).gen = s.gen := rfl
@[simp] theorem modMem_search : (modMem f s).search = s.search := rfl
@[simp] theorem modMem_mem : (modMem f s).mem = f s.mem := rfl
@[simp] theorem modMem_flash : (modMem f s).flash = s.flash := rfl
@[simp] theorem modMem_fab : (modMem f s).fab = s.fab := rfl
@[simp] theorem modMem_boot : (modMem f s).boot = s.boot := rfl
@[simp] theorem modMem_sec : (modMem f s).sec = s.sec := rfl
@[simp] theorem modMem_mgmt : (modMem f s).mgmt = s.mgmt := rfl
@[simp] theorem modMem_free : (modMem f s).free = s.free := rfl
end

section
variable (f : Flash → Flash) (s : State)
@[simp] theorem modFlash_pending : (modFlash f s).pending = s.pending := rfl
@[simp] theorem modFlash_regs : (modFlash f s).regs = s.regs := rfl
@[simp] theorem modFlash_hif : (modFlash f s).hif = s.hif := rfl
@[simp] theorem modFlash_sched : (modFlash f s).sched = s.sched := rfl
@[simp] theorem modFlash_obj : (modFlash f s).obj = s.obj := rfl
@[simp] theorem modFlash_gen : (modFlash f s).gen = s.gen := rfl
@[simp] theorem modFlash_search : (modFlash f s).search = s.search := rfl
@[simp] theorem modFlash_mem : (modFlash f s).mem = s.mem := rfl
@[simp] theorem modFlash_flash : (modFlash f s).flash = f s.flash := rfl
@[simp] theorem modFlash_fab : (modFlash f s).fab = s.fab := rfl
@[simp] theorem modFlash_boot : (modFlash f s).boot = s.boot := rfl
@[simp] theorem modFlash_sec : (modFlash f s).sec = s.sec := rfl
@[simp] theorem modFlash_mgmt : (modFlash f s).mgmt = s.mgmt := rfl
@[simp] theorem modFlash_free : (modFlash f s).free = s.free := rfl
end

section
variable (f : Fabric → Fabric) (s : State)
@[simp] theorem modFab_pending : (modFab f s).pending = s.pending := rfl
@[simp] theorem modFab_regs : (modFab f s).regs = s.regs := rfl
@[simp] theorem modFab_hif : (modFab f s).hif = s.hif := rfl
@[simp] theorem modFab_sched : (modFab f s).sched = s.sched := rfl
@[simp] theorem modFab_obj : (modFab f s).obj = s.obj := rfl
@[simp] theorem modFab_gen : (modFab f s).gen = s.gen := rfl
@[simp] theorem modFab_search : (modFab f s).search = s.search := rfl
@[simp] theorem modFab_mem : (modFab f s).mem = s.mem := rfl
@[simp] theorem modFab_flash : (modFab f s).flash = s.flash := rfl
@[simp] theorem modFab_fab : (modFab f s).fab = f s.fab := rfl
@[simp] theorem modFab_boot : (modFab f s).boot = s.boot := rfl
@[simp] theorem modFab_sec : (modFab f s).sec = s.sec := rfl
@[simp] theorem modFab_mgmt : (modFab f s).mgmt = s.mgmt := rfl
@[simp] theorem modFab_free : (modFab f s).free = s.free := rfl
end

section
variable (f : Boot → Boot) (s : State)
@[simp] theorem modBoot_pending : (modBoot f s).pending = s.pending := rfl
@[simp] theorem modBoot_regs : (modBoot f s).regs = s.regs := rfl
@[simp] theorem modBoot_hif : (modBoot f s).hif = s.hif := rfl
@[simp] theorem modBoot_sched : (modBoot f s).sched = s.sched := rfl
@[simp] theorem modBoot_obj : (modBoot f s).obj = s.obj := rfl
@[simp] theorem modBoot_gen : (modBoot f s).gen = s.gen := rfl
@[simp] theorem modBoot_search : (modBoot f s).search = s.search := rfl
@[simp] theorem modBoot_mem : (modBoot f s).mem = s.mem := rfl
@[simp] theorem modBoot_flash : (modBoot f s).flash = s.flash := rfl
@[simp] theorem modBoot_fab : (modBoot f s).fab = s.fab := rfl
@[simp] theorem modBoot_boot : (modBoot f s).boot = f s.boot := rfl
@[simp] theorem modBoot_sec : (modBoot f s).sec = s.sec := rfl
@[simp] theorem modBoot_mgmt : (modBoot f s).mgmt = s.mgmt := rfl
@[simp] theorem modBoot_free : (modBoot f s).free = s.free := rfl
end

section
variable (f : Sec → Sec) (s : State)
@[simp] theorem modSec_pending : (modSec f s).pending = s.pending := rfl
@[simp] theorem modSec_regs : (modSec f s).regs = s.regs := rfl
@[simp] theorem modSec_hif : (modSec f s).hif = s.hif := rfl
@[simp] theorem modSec_sched : (modSec f s).sched = s.sched := rfl
@[simp] theorem modSec_obj : (modSec f s).obj = s.obj := rfl
@[simp] theorem modSec_gen : (modSec f s).gen = s.gen := rfl
@[simp] theorem modSec_search : (modSec f s).search = s.search := rfl
@[simp] theorem modSec_mem : (modSec f s).mem = s.mem := rfl
@[simp] theorem modSec_flash : (modSec f s).flash = s.flash := rfl
@[simp] theorem modSec_fab : (modSec f s).fab = s.fab := rfl
@[simp] theorem modSec_boot : (modSec f s).boot = s.boot := rfl
@[simp] theorem modSec_sec : (modSec f s).sec = f s.sec := rfl
@[simp] theorem modSec_mgmt : (modSec f s).mgmt = s.mgmt := rfl
@[simp] theorem modSec_free : (modSec f s).free = s.free := rfl
end

section
variable (f : Mgmt → Mgmt) (s : State)
@[simp] theorem modMgmt_pending : (modMgmt f s).pending = s.pending := rfl
@[simp] theorem modMgmt_regs : (modMgmt f s).regs = s.regs := rfl
@[simp] theorem modMgmt_hif : (modMgmt f s).hif = s.hif := rfl
@[simp] theorem modMgmt_sched : (modMgmt f s).sched = s.sched := rfl
@[simp] theorem modMgmt_obj : (modMgmt f s).obj = s.obj := rfl
@[simp] theorem modMgmt_gen : (modMgmt f s).gen = s.gen := rfl
@[simp] theorem modMgmt_search : (modMgmt f s).search = s.search := rfl
@[simp] theorem modMgmt_mem : (modMgmt f s).mem = s.mem := rfl
@[simp] theorem modMgmt_flash : (modMgmt f s).flash = s.flash := rfl
@[simp] theorem modMgmt_fab : (modMgmt f s).fab = s.fab := rfl
@[simp] theorem modMgmt_boot : (modMgmt f s).boot = s.boot := rfl
@[simp] theorem modMgmt_sec : (modMgmt f s).sec = s.sec := rfl
@[simp] theorem modMgmt_mgmt : (modMgmt f s).mgmt = f s.mgmt := rfl
@[simp] theorem modMgmt_free : (modMgmt f s).free = s.free := rfl
end

section
variable (k : Nat) (f : Fn → Fn) (s : State)
@[simp] theorem modFn_pending : (modFn k f s).pending = s.pending := rfl
@[simp] theorem modFn_regs : (modFn k f s).regs = s.regs := rfl
@[simp] theorem modFn_hif : (modFn k f s).hif = { s.hif with fns := mmod s.hif.fns k {} f } := rfl
@[simp] theorem modFn_sched : (modFn k f s).sched = s.sched := rfl
@[simp] theorem modFn_obj : (modFn k f s).obj = s.obj := rfl
@[simp] theorem modFn_gen : (modFn k f s).gen = s.gen := rfl
@[simp] theorem modFn_search : (modFn k f s).search = s.search := rfl
@[simp] theorem modFn_mem : (modFn k f s).mem = s.mem := rfl
@[simp] theorem modFn_flash : (modFn k f s).flash = s.flash := rfl
@[simp] theorem modFn_fab : (modFn k f s).fab = s.fab := rfl
@[simp] theorem modFn_boot : (modFn k f s).boot = s.boot := rfl
@[simp] theorem modFn_sec : (modFn k f s).sec = s.sec := rfl
@[simp] theorem modFn_mgmt : (modFn k f s).mgmt = s.mgmt := rfl
@[simp] theorem modFn_free : (modFn k f s).free = s.free := rfl
end

section
variable (k : Nat) (f : Qp → Qp) (s : State)
@[simp] theorem modQp_pending : (modQp k f s).pending = s.pending := rfl
@[simp] theorem modQp_regs : (modQp k f s).regs = s.regs := rfl
@[simp] theorem modQp_hif : (modQp k f s).hif = { s.hif with qps := mmod s.hif.qps k {} f } := rfl
@[simp] theorem modQp_sched : (modQp k f s).sched = s.sched := rfl
@[simp] theorem modQp_obj : (modQp k f s).obj = s.obj := rfl
@[simp] theorem modQp_gen : (modQp k f s).gen = s.gen := rfl
@[simp] theorem modQp_search : (modQp k f s).search = s.search := rfl
@[simp] theorem modQp_mem : (modQp k f s).mem = s.mem := rfl
@[simp] theorem modQp_flash : (modQp k f s).flash = s.flash := rfl
@[simp] theorem modQp_fab : (modQp k f s).fab = s.fab := rfl
@[simp] theorem modQp_boot : (modQp k f s).boot = s.boot := rfl
@[simp] theorem modQp_sec : (modQp k f s).sec = s.sec := rfl
@[simp] theorem modQp_mgmt : (modQp k f s).mgmt = s.mgmt := rfl
@[simp] theorem modQp_free : (modQp k f s).free = s.free := rfl
end

section
variable (k : Nat) (f : Page → Page) (s : State)
@[simp] theorem modPage_pending : (modPage k f s).pending = s.pending := rfl
@[simp] theorem modPage_regs : (modPage k f s).regs = { s.regs with pages := mmod s.regs.pages k {} f } := rfl
@[simp] theorem modPage_hif : (modPage k f s).hif = s.hif := rfl
@[simp] theorem modPage_sched : (modPage k f s).sched = s.sched := rfl
@[simp] theorem modPage_obj : (modPage k f s).obj = s.obj := rfl
@[simp] theorem modPage_gen : (modPage k f s).gen = s.gen := rfl
@[simp] theorem modPage_search : (modPage k f s).search = s.search := rfl
@[simp] theorem modPage_mem : (modPage k f s).mem = s.mem := rfl
@[simp] theorem modPage_flash : (modPage k f s).flash = s.flash := rfl
@[simp] theorem modPage_fab : (modPage k f s).fab = s.fab := rfl
@[simp] theorem modPage_boot : (modPage k f s).boot = s.boot := rfl
@[simp] theorem modPage_sec : (modPage k f s).sec = s.sec := rfl
@[simp] theorem modPage_mgmt : (modPage k f s).mgmt = s.mgmt := rfl
@[simp] theorem modPage_free : (modPage k f s).free = s.free := rfl
end

section
variable (k : Nat) (f : Cluster → Cluster) (s : State)
@[simp] theorem modCluster_pending : (modCluster k f s).pending = s.pending := rfl
@[simp] theorem modCluster_regs : (modCluster k f s).regs = s.regs := rfl
@[simp] theorem modCluster_hif : (modCluster k f s).hif = s.hif := rfl
@[simp] theorem modCluster_sched : (modCluster k f s).sched = s.sched := rfl
@[simp] theorem modCluster_obj : (modCluster k f s).obj = s.obj := rfl
@[simp] theorem modCluster_gen : (modCluster k f s).gen = s.gen := rfl
@[simp] theorem modCluster_search : (modCluster k f s).search = s.search := rfl
@[simp] theorem modCluster_mem : (modCluster k f s).mem = s.mem := rfl
@[simp] theorem modCluster_flash : (modCluster k f s).flash = s.flash := rfl
@[simp] theorem modCluster_fab : (modCluster k f s).fab = s.fab := rfl
@[simp] theorem modCluster_boot : (modCluster k f s).boot = { s.boot with clusters := mmod s.boot.clusters k {} f } := rfl
@[simp] theorem modCluster_sec : (modCluster k f s).sec = s.sec := rfl
@[simp] theorem modCluster_mgmt : (modCluster k f s).mgmt = s.mgmt := rfl
@[simp] theorem modCluster_free : (modCluster k f s).free = s.free := rfl
end

section
variable (k : Nat) (f : Stack → Stack) (s : State)
@[simp] theorem modStack_pending : (modStack k f s).pending = s.pending := rfl
@[simp] theorem modStack_regs : (modStack k f s).regs = s.regs := rfl
@[simp] theorem modStack_hif : (modStack k f s).hif = s.hif := rfl
@[simp] theorem modStack_sched : (modStack k f s).sched = s.sched := rfl
@[simp] theorem modStack_obj : (modStack k f s).obj = s.obj := rfl
@[simp] theorem modStack_gen : (modStack k f s).gen = s.gen := rfl
@[simp] theorem modStack_search : (modStack k f s).search = s.search := rfl
@[simp] theorem modStack_mem : (modStack k f s).mem = { s.mem with stackTab := mmod s.mem.stackTab k {} f } := rfl
@[simp] theorem modStack_flash : (modStack k f s).flash = s.flash := rfl
@[simp] theorem modStack_fab : (modStack k f s).fab = s.fab := rfl
@[simp] theorem modStack_boot : (modStack k f s).boot = s.boot := rfl
@[simp] theorem modStack_sec : (modStack k f s).sec = s.sec := rfl
@[simp] theorem modStack_mgmt : (modStack k f s).mgmt = s.mgmt := rfl
@[simp] theorem modStack_free : (modStack k f s).free = s.free := rfl
end

section
variable (k : Nat) (f : Channel → Channel) (s : State)
@[simp] theorem modChannel_pending : (modChannel k f s).pending = s.pending := rfl
@[simp] theorem modChannel_regs : (modChannel k f s).regs = s.regs := rfl
@[simp] theorem modChannel_hif : (modChannel k f s).hif = s.hif := rfl
@[simp] theorem modChannel_sched : (modChannel k f s).sched = s.sched := rfl
@[simp] theorem modChannel_obj : (modChannel k f s).obj = s.obj := rfl
@[simp] theorem modChannel_gen : (modChannel k f s).gen = s.gen := rfl
@[simp] theorem modChannel_search : (modChannel k f s).search = s.search := rfl
@[simp] theorem modChannel_mem : (modChannel k f s).mem = s.mem := rfl
@[simp] theorem modChannel_flash : (modChannel k f s).flash = { s.flash with channels := mmod s.flash.channels k {} f } := rfl
@[simp] theorem modChannel_fab : (modChannel k f s).fab = s.fab := rfl
@[simp] theorem modChannel_boot : (modChannel k f s).boot = s.boot := rfl
@[simp] theorem modChannel_sec : (modChannel k f s).sec = s.sec := rfl
@[simp] theorem modChannel_mgmt : (modChannel k f s).mgmt = s.mgmt := rfl
@[simp] theorem modChannel_free : (modChannel k f s).free = s.free := rfl
end

section
variable (k : Nat) (f : Port → Port) (s : State)
@[simp] theorem modPort_pending : (modPort k f s).pending = s.pending := rfl
@[simp] theorem modPort_regs : (modPort k f s).regs = s.regs := rfl
@[simp] theorem modPort_hif : (modPort k f s).hif = s.hif := rfl
@[simp] theorem modPort_sched : (modPort k f s).sched = s.sched := rfl
@[simp] theorem modPort_obj : (modPort k f s).obj = s.obj := rfl
@[simp] theorem modPort_gen : (modPort k f s).gen = s.gen := rfl
@[simp] theorem modPort_search : (modPort k f s).search = s.search := rfl
@[simp] theorem modPort_mem : (modPort k f s).mem = s.mem := rfl
@[simp] theorem modPort_flash : (modPort k f s).flash = s.flash := rfl
@[simp] theorem modPort_fab : (modPort k f s).fab = { s.fab with ports := mmod s.fab.ports k {} f } := rfl
@[simp] theorem modPort_boot : (modPort k f s).boot = s.boot := rfl
@[simp] theorem modPort_sec : (modPort k f s).sec = s.sec := rfl
@[simp] theorem modPort_mgmt : (modPort k f s).mgmt = s.mgmt := rfl
@[simp] theorem modPort_free : (modPort k f s).free = s.free := rfl
end

section
variable (k : Nat) (f : RtEntry → RtEntry) (s : State)
@[simp] theorem modEntry_pending : (modEntry k f s).pending = s.pending := rfl
@[simp] theorem modEntry_regs : (modEntry k f s).regs = s.regs := rfl
@[simp] theorem modEntry_hif : (modEntry k f s).hif = s.hif := rfl
@[simp] theorem modEntry_sched : (modEntry k f s).sched = s.sched := rfl
@[simp] theorem modEntry_obj : (modEntry k f s).obj = s.obj := rfl
@[simp] theorem modEntry_gen : (modEntry k f s).gen = { s.gen with entries := mupd s.gen.entries k f } := rfl
@[simp] theorem modEntry_search : (modEntry k f s).search = s.search := rfl
@[simp] theorem modEntry_mem : (modEntry k f s).mem = s.mem := rfl
@[simp] theorem modEntry_flash : (modEntry k f s).flash = s.flash := rfl
@[simp] theorem modEntry_fab : (modEntry k f s).fab = s.fab := rfl
@[simp] theorem modEntry_boot : (modEntry k f s).boot = s.boot := rfl
@[simp] theorem modEntry_sec : (modEntry k f s).sec = s.sec := rfl
@[simp] theorem modEntry_mgmt : (modEntry k f s).mgmt = s.mgmt := rfl
@[simp] theorem modEntry_free : (modEntry k f s).free = s.free := rfl
end

section
variable (k : Nat) (f : Account → Account) (s : State)
@[simp] theorem modAccount_pending : (modAccount k f s).pending = s.pending := rfl
@[simp] theorem modAccount_regs : (modAccount k f s).regs = s.regs := rfl
@[simp] theorem modAccount_hif : (modAccount k f s).hif = s.hif := rfl
@[simp] theorem modAccount_sched : (modAccount k f s).sched = { s.sched with accounts := mupd s.sched.accounts k f } := rfl
@[simp] theorem modAccount_obj : (modAccount k f s).obj = s.obj := rfl
@[simp] theorem modAccount_gen : (modAccount k f s).gen = s.gen := rfl
@[simp] theorem modAccount_search : (modAccount k f s).search = s.search := rfl
@[simp] theorem modAccount_mem : (modAccount k f s).mem = s.mem := rfl
@[simp] theorem modAccount_flash : (modAccount k f s).flash = s.flash := rfl
@[simp] theorem modAccount_fab : (modAccount k f s).fab = s.fab := rfl
@[simp] theorem modAccount_boot : (modAccount k f s).boot = s.boot := rfl
@[simp] theorem modAccount_sec : (modAccount k f s).sec = s.sec := rfl
@[simp] theorem modAccount_mgmt : (modAccount k f s).mgmt = s.mgmt := rfl
@[simp] theorem modAccount_free : (modAccount k f s).free = s.free := rfl
end

/-- A draw of a free value leaves everything but the count of draws. -/
theorem drawFree_snd (s : State) : (drawFree s).2 = { s with free := s.free + 1 } := rfl

end Sys2Proof.Machine
end

