-- ==== Sys2Proof/Laws/Map.lean ====
section
/-! SUPPORT. Keyed stores and byte memories: what a read after a write gives, and that every operation keeps the canonical
form. -/

namespace Sys2Proof.Machine

variable {α : Type}

/-! ### Reads after writes -/

theorem mget_mput_same (m : Map α) (k : Nat) (v : α) : mget (mput m k v) k = some v := by
  induction m with
  | nil => simp [mput, mget]
  | cons e m ih =>
    simp only [mput]
    split
    · simp [mget]
    · split
      · simp [mget]
      · rename_i h1 h2
        simp [mget, h2, ih]

theorem mget_mput_other (m : Map α) (k j : Nat) (v : α) (h : j ≠ k) : mget (mput m k v) j = mget m j := by
  induction m with
  | nil => simp [mput, mget, h]
  | cons e m ih =>
    simp only [mput]
    split
    · simp [mget, h]
    · split
      · rename_i h2
        subst h2
        simp [mget, h]
      · simp [mget, ih]

/-- What a read after an erase gives. -/
theorem mget_merase (m : Map α) (k j : Nat) : mget (merase m k) j = if j = k then none else mget m j := by
  induction m with
  | nil => simp [merase, mget]
  | cons x m ih =>
    obtain ⟨i, w⟩ := x
    simp only [merase]
    split
    · rename_i hki
      subst hki
      rw [ih]
      by_cases hj : j = k <;> simp [mget, hj]
    · rename_i hki
      simp only [mget, ih]
      by_cases hj : j = i
      · have : j ≠ k := fun h' => hki (h'.symm.trans hj)
        rw [if_pos hj, if_neg this, if_pos hj]
      · rw [if_neg hj, if_neg hj]

theorem mget_mset (m : Map α) (k j : Nat) (v : α) : mget (mset m k v) j = if j = k then some v else mget m j := by
  unfold mset
  split
  · subst_vars; exact mget_mput_same _ _ _
  · rename_i h
    rw [mget_mput_other _ _ _ _ h, mget_merase, if_neg h]

@[simp] theorem mget_mset_same (m : Map α) (k : Nat) (v : α) : mget (mset m k v) k = some v := by simp [mget_mset]

theorem mget_mset_other (m : Map α) (k j : Nat) (v : α) (h : j ≠ k) : mget (mset m k v) j = mget m j := by
  simp [mget_mset, h]

theorem mgetD_mset (m : Map α) (k j : Nat) (v d : α) : mgetD (mset m k v) j d = if j = k then v else mgetD m j d := by
  simp only [mgetD, mget_mset]
  split <;> rfl

@[simp] theorem mgetD_mset_same (m : Map α) (k : Nat) (v d : α) : mgetD (mset m k v) k d = v := by simp [mgetD]

@[simp] theorem mget_mmod_same (m : Map α) (k : Nat) (d : α) (f : α → α) :
    mget (mmod m k d f) k = some (f (mgetD m k d)) := by simp [mmod]

theorem mget_mmod_other (m : Map α) (k j : Nat) (d : α) (f : α → α) (h : j ≠ k) : mget (mmod m k d f) j = mget m j := by
  simp [mmod, mget_mset_other _ _ _ _ h]

@[simp] theorem mgetD_mmod_same (m : Map α) (k : Nat) (d : α) (f : α → α) : mgetD (mmod m k d f) k d = f (mgetD m k d) := by
  simp [mgetD, mmod]

theorem mgetD_mmod_other (m : Map α) (k j : Nat) (d e : α) (f : α → α) (h : j ≠ k) :
    mgetD (mmod m k d f) j e = mgetD m j e := by
  simp [mgetD, mget_mmod_other _ _ _ _ _ h]

theorem mget_mupd (m : Map α) (k j : Nat) (f : α → α) :
    mget (mupd m k f) j = if j = k then (mget m k).map f else mget m j := by
  unfold mupd
  split
  · split
    · subst_vars; simp [*]
    · rfl
  · rename_i v hv
    rw [mget_mset, hv]
    rfl

/-! ### The canonical form -/

/-- All keys lie above a bound. -/
def keysAbove (lo : Nat) (m : Map α) : Prop := ∀ e ∈ m, lo < e.1

theorem risingFrom_some (lo : Nat) (m : Map α) : risingFrom (some lo) m = true ↔ keysAbove lo m ∧ mapWf m = true := by
  induction m generalizing lo with
  | nil => simp [risingFrom, keysAbove, mapWf]
  | cons e m ih =>
    obtain ⟨k, v⟩ := e
    simp only [risingFrom, Bool.and_eq_true, decide_eq_true_eq, mapWf, keysAbove, List.mem_cons, forall_eq_or_imp]
    constructor
    · rintro ⟨h, h2⟩
      refine ⟨⟨h, fun e he => ?_⟩, h2⟩
      exact Nat.lt_trans h (((ih k).1 h2).1 e he)
    · rintro ⟨⟨h, _⟩, h2⟩
      exact ⟨h, h2⟩

theorem mapWf_cons (k : Nat) (v : α) (m : Map α) : mapWf ((k, v) :: m) = true ↔ keysAbove k m ∧ mapWf m = true := by
  simpa [mapWf, risingFrom] using risingFrom_some k m

theorem mem_mput {m : Map α} {k : Nat} {v : α} {e : Nat × α} (h : e ∈ mput m k v) : e = (k, v) ∨ e ∈ m := by
  induction m with
  | nil => simpa [mput] using h
  | cons x m ih =>
    simp only [mput] at h
    split at h
    · simpa using h
    · split at h
      · simp only [List.mem_cons] at h ⊢
        rcases h with h | h <;> simp [h]
      · simp only [List.mem_cons] at h ⊢
        rcases h with h | h
        · simp [h]
        · rcases ih h with h | h <;> simp [h]

theorem mput_wf {m : Map α} (h : mapWf m = true) (k : Nat) (v : α) : mapWf (mput m k v) = true := by
  induction m with
  | nil => simp [mput, mapWf, risingFrom]
  | cons x m ih =>
    obtain ⟨j, w⟩ := x
    rw [mapWf_cons] at h
    simp only [mput]
    split
    · rename_i hk
      rw [mapWf_cons, mapWf_cons]
      refine ⟨fun e he => ?_, h⟩
      simp only [List.mem_cons] at he
      rcases he with rfl | he
      · exact hk
      · exact Nat.lt_trans hk (h.1 e he)
    · split
      · rename_i hk; subst hk; rw [mapWf_cons]; exact h
      · rename_i h1 h2
        rw [mapWf_cons]
        refine ⟨fun e he => ?_, ih h.2⟩
        rcases mem_mput he with rfl | he
        · simp only; omega
        · exact h.1 e he

theorem mem_merase {m : Map α} {k : Nat} {e : Nat × α} (h : e ∈ merase m k) : e ∈ m := by
  induction m with
  | nil => simp [merase] at h
  | cons x m ih =>
    simp only [merase] at h
    split at h
    · simp [ih h]
    · simp only [List.mem_cons] at h ⊢
      rcases h with h | h
      · simp [h]
      · simp [ih h]

theorem merase_wf {m : Map α} (h : mapWf m = true) (k : Nat) : mapWf (merase m k) = true := by
  induction m with
  | nil => simpa [merase] using h
  | cons x m ih =>
    obtain ⟨j, w⟩ := x
    rw [mapWf_cons] at h
    simp only [merase]
    split
    · exact ih h.2
    · rw [mapWf_cons]
      exact ⟨fun e he => h.1 e (mem_merase he), ih h.2⟩

theorem mem_mset {m : Map α} {k : Nat} {v : α} {e : Nat × α} (h : e ∈ mset m k v) : e = (k, v) ∨ e ∈ m :=
  (mem_mput h).imp_right mem_merase

theorem mset_wf {m : Map α} (h : mapWf m = true) (k : Nat) (v : α) : mapWf (mset m k v) = true :=
  mput_wf (merase_wf h k) k v

theorem mget_none_of_keysAbove {m : Map α} {k : Nat} (h : keysAbove k m) : mget m k = none := by
  induction m with
  | nil => rfl
  | cons x m ih =>
    have h1 := h x (by simp)
    have h2 : keysAbove k m := fun e he => h e (by simp [he])
    simp only [mget]
    rw [if_neg (by omega)]
    exact ih h2

theorem mmod_wf {m : Map α} (h : mapWf m = true) (k : Nat) (d : α) (f : α → α) : mapWf (mmod m k d f) = true := mset_wf h _ _

theorem mupd_wf {m : Map α} (h : mapWf m = true) (k : Nat) (f : α → α) : mapWf (mupd m k f) = true := by
  unfold mupd
  split
  · exact h
  · exact mset_wf h _ _

/-! ### Byte memories -/

theorem memSet_wf {m : List Host.Cell} (h : memWf m = true) (a : Nat) (b : Byte) : memWf (memSet m a b) = true := by
  simp only [memWf, Bool.and_eq_true, List.all_eq_true] at h ⊢
  unfold memSet
  split
  · exact ⟨merase_wf h.1 _, fun c hc => h.2 c (mem_merase hc)⟩
  · rename_i hb
    refine ⟨mset_wf h.1 _ _, fun c hc => ?_⟩
    rcases mem_mset hc with rfl | hc
    · simpa using hb
    · exact h.2 c hc

theorem memWrite_wf {m : List Host.Cell} (h : memWf m = true) (a : Nat) (b : Bytes) : memWf (memWrite m a b) = true := by
  induction b generalizing m a with
  | nil => exact h
  | cons x b ih => exact ih (memSet_wf h _ _) _

/-- Reading one byte after writing one. -/
theorem memGet_memSet (m : List Host.Cell) (a j : Nat) (b : Byte) :
    memGet (memSet m a b) j = if j = a then b else memGet m j := by
  unfold memSet memGet
  split
  · rename_i hb
    simp only [mgetD, mget_merase]
    split
    · simp [hb]
    · rfl
  · exact mgetD_mset _ _ _ _ _

/-- Every byte outside a write reads as before. -/
theorem memGet_memWrite_outside (m : List Host.Cell) (a j : Nat) (b : Bytes)
    (ho : j < a ∨ a + b.length ≤ j) : memGet (memWrite m a b) j = memGet m j := by
  induction b generalizing m a with
  | nil => rfl
  | cons x b ih =>
    simp only [List.length_cons] at ho
    simp only [memWrite]
    rw [ih _ _ (by omega), memGet_memSet, if_neg (by omega)]

/-- The bytes of a write are read back. -/
theorem memRead_memWrite (m : List Host.Cell) (a : Nat) (b : Bytes) :
    memRead (memWrite m a b) a b.length = b := by
  induction b generalizing m a with
  | nil => rfl
  | cons x b ih =>
    simp only [List.length_cons, memRead, memWrite]
    rw [ih, memGet_memWrite_outside _ _ _ _ (by omega), memGet_memSet, if_pos rfl]

end Sys2Proof.Machine
end

