-- ==== Sys2Proof/Laws/Ops.lean ====
section
/-! SUPPORT. What each shared operation leaves unchanged: messages, event counters, time, event records, DMA, completions,
charges. -/

namespace Sys2Proof.Machine

/-- A change folded over a list keeps whatever one change keeps. -/
theorem foldS_keeps {α β : Type} (g : State → β) (l : List α) (f : State → α → State) (s : State)
    (h : ∀ t x, g (f t x) = g t) : g (foldS l f s) = g s := by
  induction l generalizing s with
  | nil => rfl
  | cons x l ih => exact (ih _).trans (h _ _)

/-- A predicate that one change keeps holds after a fold. -/
theorem foldS_inv {α : Type} (P : State → Prop) (l : List α) (f : State → α → State) (s : State)
    (h : ∀ t x, P t → P (f t x)) (hs : P s) : P (foldS l f s) := by
  induction l generalizing s with
  | nil => exact hs
  | cons x l ih => exact ih _ (h _ _ hs)

@[simp] theorem foldS_nil {α : Type} (f : State → α → State) (s : State) : foldS [] f s = s := rfl
@[simp] theorem foldS_cons {α : Type} (x : α) (l : List α) (f : State → α → State) (s : State) :
    foldS (x :: l) f s = foldS l f (f s x) := rfl

section
variable (f v : Nat) (s : State)
@[simp] theorem sendMsix_pending : (sendMsix f v s).pending = s.pending := by unfold sendMsix; dsimp only; split <;> (try split) <;> rfl
@[simp] theorem sendMsix_regs : (sendMsix f v s).regs = s.regs := by unfold sendMsix; dsimp only; split <;> (try split) <;> rfl
@[simp] theorem sendMsix_sched : (sendMsix f v s).sched = s.sched := by unfold sendMsix; dsimp only; split <;> (try split) <;> rfl
@[simp] theorem sendMsix_obj : (sendMsix f v s).obj = s.obj := by unfold sendMsix; dsimp only; split <;> (try split) <;> rfl
@[simp] theorem sendMsix_gen : (sendMsix f v s).gen = s.gen := by unfold sendMsix; dsimp only; split <;> (try split) <;> rfl
@[simp] theorem sendMsix_search : (sendMsix f v s).search = s.search := by unfold sendMsix; dsimp only; split <;> (try split) <;> rfl
@[simp] theorem sendMsix_mem : (sendMsix f v s).mem = s.mem := by unfold sendMsix; dsimp only; split <;> (try split) <;> rfl
@[simp] theorem sendMsix_flash : (sendMsix f v s).flash = s.flash := by unfold sendMsix; dsimp only; split <;> (try split) <;> rfl
@[simp] theorem sendMsix_fab : (sendMsix f v s).fab = s.fab := by unfold sendMsix; dsimp only; split <;> (try split) <;> rfl
@[simp] theorem sendMsix_boot : (sendMsix f v s).boot = s.boot := by unfold sendMsix; dsimp only; split <;> (try split) <;> rfl
@[simp] theorem sendMsix_sec : (sendMsix f v s).sec = s.sec := by unfold sendMsix; dsimp only; split <;> (try split) <;> rfl
@[simp] theorem sendMsix_mgmt : (sendMsix f v s).mgmt = s.mgmt := by unfold sendMsix; dsimp only; split <;> (try split) <;> rfl
@[simp] theorem sendMsix_free : (sendMsix f v s).free = s.free := by unfold sendMsix; dsimp only; split <;> (try split) <;> rfl
@[simp] theorem sendMsix_hif_hostMem : (sendMsix f v s).hif.hostMem = s.hif.hostMem := by unfold sendMsix; dsimp only; split <;> (try split) <;> rfl
@[simp] theorem sendMsix_hif_qps : (sendMsix f v s).hif.qps = s.hif.qps := by unfold sendMsix; dsimp only; split <;> (try split) <;> rfl
@[simp] theorem sendMsix_hif_waits0 : (sendMsix f v s).hif.waits0 = s.hif.waits0 := by unfold sendMsix; dsimp only; split <;> (try split) <;> rfl
@[simp] theorem sendMsix_hif_waits1 : (sendMsix f v s).hif.waits1 = s.hif.waits1 := by unfold sendMsix; dsimp only; split <;> (try split) <;> rfl
@[simp] theorem sendMsix_hif_notices0 : (sendMsix f v s).hif.notices0 = s.hif.notices0 := by unfold sendMsix; dsimp only; split <;> (try split) <;> rfl
@[simp] theorem sendMsix_hif_notices1 : (sendMsix f v s).hif.notices1 = s.hif.notices1 := by unfold sendMsix; dsimp only; split <;> (try split) <;> rfl
@[simp] theorem sendMsix_hif_lost0 : (sendMsix f v s).hif.lost0 = s.hif.lost0 := by unfold sendMsix; dsimp only; split <;> (try split) <;> rfl
@[simp] theorem sendMsix_hif_lost1 : (sendMsix f v s).hif.lost1 = s.hif.lost1 := by unfold sendMsix; dsimp only; split <;> (try split) <;> rfl
@[simp] theorem sendMsix_hif_link : (sendMsix f v s).hif.link = s.hif.link := by unfold sendMsix; dsimp only; split <;> (try split) <;> rfl
@[simp] theorem sendMsix_hif_bar4Base : (sendMsix f v s).hif.bar4Base = s.hif.bar4Base := by unfold sendMsix; dsimp only; split <;> (try split) <;> rfl
@[simp] theorem sendMsix_hif_bar4Denied : (sendMsix f v s).hif.bar4Denied = s.hif.bar4Denied := by unfold sendMsix; dsimp only; split <;> (try split) <;> rfl
end

section
variable (a : Bool) (p : Nat) (s : State)
@[simp] theorem irqEval_pending : (irqEval a p s).pending = s.pending := by unfold irqEval; split <;> (try dsimp only) <;> (try split) <;> simp
@[simp] theorem irqEval_sched : (irqEval a p s).sched = s.sched := by unfold irqEval; split <;> (try dsimp only) <;> (try split) <;> simp
@[simp] theorem irqEval_obj : (irqEval a p s).obj = s.obj := by unfold irqEval; split <;> (try dsimp only) <;> (try split) <;> simp
@[simp] theorem irqEval_gen : (irqEval a p s).gen = s.gen := by unfold irqEval; split <;> (try dsimp only) <;> (try split) <;> simp
@[simp] theorem irqEval_search : (irqEval a p s).search = s.search := by unfold irqEval; split <;> (try dsimp only) <;> (try split) <;> simp
@[simp] theorem irqEval_mem : (irqEval a p s).mem = s.mem := by unfold irqEval; split <;> (try dsimp only) <;> (try split) <;> simp
@[simp] theorem irqEval_flash : (irqEval a p s).flash = s.flash := by unfold irqEval; split <;> (try dsimp only) <;> (try split) <;> simp
@[simp] theorem irqEval_fab : (irqEval a p s).fab = s.fab := by unfold irqEval; split <;> (try dsimp only) <;> (try split) <;> simp
@[simp] theorem irqEval_boot : (irqEval a p s).boot = s.boot := by unfold irqEval; split <;> (try dsimp only) <;> (try split) <;> simp
@[simp] theorem irqEval_sec : (irqEval a p s).sec = s.sec := by unfold irqEval; split <;> (try dsimp only) <;> (try split) <;> simp
@[simp] theorem irqEval_mgmt : (irqEval a p s).mgmt = s.mgmt := by unfold irqEval; split <;> (try dsimp only) <;> (try split) <;> simp
@[simp] theorem irqEval_free : (irqEval a p s).free = s.free := by unfold irqEval; split <;> (try dsimp only) <;> (try split) <;> simp
@[simp] theorem irqEval_hif_hostMem : (irqEval a p s).hif.hostMem = s.hif.hostMem := by unfold irqEval; split <;> (try dsimp only) <;> (try split) <;> simp
@[simp] theorem irqEval_hif_qps : (irqEval a p s).hif.qps = s.hif.qps := by unfold irqEval; split <;> (try dsimp only) <;> (try split) <;> simp
@[simp] theorem irqEval_hif_waits0 : (irqEval a p s).hif.waits0 = s.hif.waits0 := by unfold irqEval; split <;> (try dsimp only) <;> (try split) <;> simp
@[simp] theorem irqEval_hif_waits1 : (irqEval a p s).hif.waits1 = s.hif.waits1 := by unfold irqEval; split <;> (try dsimp only) <;> (try split) <;> simp
@[simp] theorem irqEval_hif_notices0 : (irqEval a p s).hif.notices0 = s.hif.notices0 := by unfold irqEval; split <;> (try dsimp only) <;> (try split) <;> simp
@[simp] theorem irqEval_hif_notices1 : (irqEval a p s).hif.notices1 = s.hif.notices1 := by unfold irqEval; split <;> (try dsimp only) <;> (try split) <;> simp
@[simp] theorem irqEval_hif_lost0 : (irqEval a p s).hif.lost0 = s.hif.lost0 := by unfold irqEval; split <;> (try dsimp only) <;> (try split) <;> simp
@[simp] theorem irqEval_hif_lost1 : (irqEval a p s).hif.lost1 = s.hif.lost1 := by unfold irqEval; split <;> (try dsimp only) <;> (try split) <;> simp
@[simp] theorem irqEval_hif_link : (irqEval a p s).hif.link = s.hif.link := by unfold irqEval; split <;> (try dsimp only) <;> (try split) <;> simp
@[simp] theorem irqEval_hif_bar4Base : (irqEval a p s).hif.bar4Base = s.hif.bar4Base := by unfold irqEval; split <;> (try dsimp only) <;> (try split) <;> simp
@[simp] theorem irqEval_hif_bar4Denied : (irqEval a p s).hif.bar4Denied = s.hif.bar4Denied := by unfold irqEval; split <;> (try dsimp only) <;> (try split) <;> simp
@[simp] theorem irqEval_regs_evcFreeze : (irqEval a p s).regs.evcFreeze = s.regs.evcFreeze := by unfold irqEval; split <;> (try dsimp only) <;> (try split) <;> simp
@[simp] theorem irqEval_regs_latched : (irqEval a p s).regs.latched = s.regs.latched := by unfold irqEval; split <;> (try dsimp only) <;> (try split) <;> simp
@[simp] theorem irqEval_regs_held : (irqEval a p s).regs.held = s.regs.held := by unfold irqEval; split <;> (try dsimp only) <;> (try split) <;> simp
@[simp] theorem irqEval_regs_badAccess : (irqEval a p s).regs.badAccess = s.regs.badAccess := by unfold irqEval; split <;> (try dsimp only) <;> (try split) <;> simp
@[simp] theorem irqEval_regs_readValue : (irqEval a p s).regs.readValue = s.regs.readValue := by unfold irqEval; split <;> (try dsimp only) <;> (try split) <;> simp
end

section
variable (p a n : Nat) (s : State)
@[simp] theorem evCount_pending : (evCount p a n s).pending = s.pending := by unfold evCount; split <;> (try split) <;> simp
@[simp] theorem evCount_sched : (evCount p a n s).sched = s.sched := by unfold evCount; split <;> (try split) <;> simp
@[simp] theorem evCount_obj : (evCount p a n s).obj = s.obj := by unfold evCount; split <;> (try split) <;> simp
@[simp] theorem evCount_gen : (evCount p a n s).gen = s.gen := by unfold evCount; split <;> (try split) <;> simp
@[simp] theorem evCount_search : (evCount p a n s).search = s.search := by unfold evCount; split <;> (try split) <;> simp
@[simp] theorem evCount_mem : (evCount p a n s).mem = s.mem := by unfold evCount; split <;> (try split) <;> simp
@[simp] theorem evCount_flash : (evCount p a n s).flash = s.flash := by unfold evCount; split <;> (try split) <;> simp
@[simp] theorem evCount_fab : (evCount p a n s).fab = s.fab := by unfold evCount; split <;> (try split) <;> simp
@[simp] theorem evCount_boot : (evCount p a n s).boot = s.boot := by unfold evCount; split <;> (try split) <;> simp
@[simp] theorem evCount_sec : (evCount p a n s).sec = s.sec := by unfold evCount; split <;> (try split) <;> simp
@[simp] theorem evCount_mgmt : (evCount p a n s).mgmt = s.mgmt := by unfold evCount; split <;> (try split) <;> simp
@[simp] theorem evCount_free : (evCount p a n s).free = s.free := by unfold evCount; split <;> (try split) <;> simp
@[simp] theorem evCount_hif_hostMem : (evCount p a n s).hif.hostMem = s.hif.hostMem := by unfold evCount; split <;> (try split) <;> simp
@[simp] theorem evCount_hif_qps : (evCount p a n s).hif.qps = s.hif.qps := by unfold evCount; split <;> (try split) <;> simp
@[simp] theorem evCount_hif_waits0 : (evCount p a n s).hif.waits0 = s.hif.waits0 := by unfold evCount; split <;> (try split) <;> simp
@[simp] theorem evCount_hif_waits1 : (evCount p a n s).hif.waits1 = s.hif.waits1 := by unfold evCount; split <;> (try split) <;> simp
@[simp] theorem evCount_hif_notices0 : (evCount p a n s).hif.notices0 = s.hif.notices0 := by unfold evCount; split <;> (try split) <;> simp
@[simp] theorem evCount_hif_notices1 : (evCount p a n s).hif.notices1 = s.hif.notices1 := by unfold evCount; split <;> (try split) <;> simp
@[simp] theorem evCount_hif_lost0 : (evCount p a n s).hif.lost0 = s.hif.lost0 := by unfold evCount; split <;> (try split) <;> simp
@[simp] theorem evCount_hif_lost1 : (evCount p a n s).hif.lost1 = s.hif.lost1 := by unfold evCount; split <;> (try split) <;> simp
@[simp] theorem evCount_hif_link : (evCount p a n s).hif.link = s.hif.link := by unfold evCount; split <;> (try split) <;> simp
@[simp] theorem evCount_hif_bar4Base : (evCount p a n s).hif.bar4Base = s.hif.bar4Base := by unfold evCount; split <;> (try split) <;> simp
@[simp] theorem evCount_hif_bar4Denied : (evCount p a n s).hif.bar4Denied = s.hif.bar4Denied := by unfold evCount; split <;> (try split) <;> simp
@[simp] theorem evCount_regs_evcFreeze : (evCount p a n s).regs.evcFreeze = s.regs.evcFreeze := by unfold evCount; split <;> (try split) <;> simp
@[simp] theorem evCount_regs_latched : (evCount p a n s).regs.latched = s.regs.latched := by unfold evCount; split <;> (try split) <;> simp
@[simp] theorem evCount_regs_held : (evCount p a n s).regs.held = s.regs.held := by unfold evCount; split <;> (try split) <;> simp
@[simp] theorem evCount_regs_badAccess : (evCount p a n s).regs.badAccess = s.regs.badAccess := by unfold evCount; split <;> (try split) <;> simp
@[simp] theorem evCount_regs_readValue : (evCount p a n s).regs.readValue = s.regs.readValue := by unfold evCount; split <;> (try split) <;> simp
end

section
variable (f v : Nat) (s : State)
@[simp] theorem sendMsg_pending : (sendMsg f v s).pending = s.pending := by simp [sendMsg]
@[simp] theorem sendMsg_sched : (sendMsg f v s).sched = s.sched := by simp [sendMsg]
@[simp] theorem sendMsg_obj : (sendMsg f v s).obj = s.obj := by simp [sendMsg]
@[simp] theorem sendMsg_gen : (sendMsg f v s).gen = s.gen := by simp [sendMsg]
@[simp] theorem sendMsg_search : (sendMsg f v s).search = s.search := by simp [sendMsg]
@[simp] theorem sendMsg_mem : (sendMsg f v s).mem = s.mem := by simp [sendMsg]
@[simp] theorem sendMsg_flash : (sendMsg f v s).flash = s.flash := by simp [sendMsg]
@[simp] theorem sendMsg_fab : (sendMsg f v s).fab = s.fab := by simp [sendMsg]
@[simp] theorem sendMsg_boot : (sendMsg f v s).boot = s.boot := by simp [sendMsg]
@[simp] theorem sendMsg_sec : (sendMsg f v s).sec = s.sec := by simp [sendMsg]
@[simp] theorem sendMsg_mgmt : (sendMsg f v s).mgmt = s.mgmt := by simp [sendMsg]
@[simp] theorem sendMsg_free : (sendMsg f v s).free = s.free := by simp [sendMsg]
@[simp] theorem sendMsg_hif_hostMem : (sendMsg f v s).hif.hostMem = s.hif.hostMem := by simp [sendMsg]
@[simp] theorem sendMsg_hif_qps : (sendMsg f v s).hif.qps = s.hif.qps := by simp [sendMsg]
@[simp] theorem sendMsg_hif_waits0 : (sendMsg f v s).hif.waits0 = s.hif.waits0 := by simp [sendMsg]
@[simp] theorem sendMsg_hif_waits1 : (sendMsg f v s).hif.waits1 = s.hif.waits1 := by simp [sendMsg]
@[simp] theorem sendMsg_hif_notices0 : (sendMsg f v s).hif.notices0 = s.hif.notices0 := by simp [sendMsg]
@[simp] theorem sendMsg_hif_notices1 : (sendMsg f v s).hif.notices1 = s.hif.notices1 := by simp [sendMsg]
@[simp] theorem sendMsg_hif_lost0 : (sendMsg f v s).hif.lost0 = s.hif.lost0 := by simp [sendMsg]
@[simp] theorem sendMsg_hif_lost1 : (sendMsg f v s).hif.lost1 = s.hif.lost1 := by simp [sendMsg]
@[simp] theorem sendMsg_hif_link : (sendMsg f v s).hif.link = s.hif.link := by simp [sendMsg]
@[simp] theorem sendMsg_hif_bar4Base : (sendMsg f v s).hif.bar4Base = s.hif.bar4Base := by simp [sendMsg]
@[simp] theorem sendMsg_hif_bar4Denied : (sendMsg f v s).hif.bar4Denied = s.hif.bar4Denied := by simp [sendMsg]
@[simp] theorem sendMsg_regs_evcFreeze : (sendMsg f v s).regs.evcFreeze = s.regs.evcFreeze := by simp [sendMsg]
@[simp] theorem sendMsg_regs_latched : (sendMsg f v s).regs.latched = s.regs.latched := by simp [sendMsg]
@[simp] theorem sendMsg_regs_held : (sendMsg f v s).regs.held = s.regs.held := by simp [sendMsg]
@[simp] theorem sendMsg_regs_badAccess : (sendMsg f v s).regs.badAccess = s.regs.badAccess := by simp [sendMsg]
@[simp] theorem sendMsg_regs_readValue : (sendMsg f v s).regs.readValue = s.regs.readValue := by simp [sendMsg]
end

section
variable (n : Nat) (s : State)
@[simp] theorem passCycles_pending : (passCycles n s).pending = s.pending := by unfold passCycles; dsimp only; rw [foldS_keeps (fun t => t.pending) _ _ _ (fun t x => by simp)]; simp
@[simp] theorem passCycles_sched : (passCycles n s).sched = s.sched := by unfold passCycles; dsimp only; rw [foldS_keeps (fun t => t.sched) _ _ _ (fun t x => by simp)]; simp
@[simp] theorem passCycles_obj : (passCycles n s).obj = s.obj := by unfold passCycles; dsimp only; rw [foldS_keeps (fun t => t.obj) _ _ _ (fun t x => by simp)]; simp
@[simp] theorem passCycles_gen : (passCycles n s).gen = s.gen := by unfold passCycles; dsimp only; rw [foldS_keeps (fun t => t.gen) _ _ _ (fun t x => by simp)]; simp
@[simp] theorem passCycles_search : (passCycles n s).search = s.search := by unfold passCycles; dsimp only; rw [foldS_keeps (fun t => t.search) _ _ _ (fun t x => by simp)]; simp
@[simp] theorem passCycles_mem : (passCycles n s).mem = s.mem := by unfold passCycles; dsimp only; rw [foldS_keeps (fun t => t.mem) _ _ _ (fun t x => by simp)]; simp
@[simp] theorem passCycles_flash : (passCycles n s).flash = s.flash := by unfold passCycles; dsimp only; rw [foldS_keeps (fun t => t.flash) _ _ _ (fun t x => by simp)]; simp
@[simp] theorem passCycles_fab : (passCycles n s).fab = s.fab := by unfold passCycles; dsimp only; rw [foldS_keeps (fun t => t.fab) _ _ _ (fun t x => by simp)]; simp
@[simp] theorem passCycles_sec : (passCycles n s).sec = s.sec := by unfold passCycles; dsimp only; rw [foldS_keeps (fun t => t.sec) _ _ _ (fun t x => by simp)]; simp
@[simp] theorem passCycles_mgmt : (passCycles n s).mgmt = s.mgmt := by unfold passCycles; dsimp only; rw [foldS_keeps (fun t => t.mgmt) _ _ _ (fun t x => by simp)]; simp
@[simp] theorem passCycles_free : (passCycles n s).free = s.free := by unfold passCycles; dsimp only; rw [foldS_keeps (fun t => t.free) _ _ _ (fun t x => by simp)]; simp
@[simp] theorem passCycles_hif_hostMem : (passCycles n s).hif.hostMem = s.hif.hostMem := by unfold passCycles; dsimp only; rw [foldS_keeps (fun t => t.hif.hostMem) _ _ _ (fun t x => by simp)]; simp
@[simp] theorem passCycles_hif_qps : (passCycles n s).hif.qps = s.hif.qps := by unfold passCycles; dsimp only; rw [foldS_keeps (fun t => t.hif.qps) _ _ _ (fun t x => by simp)]; simp
@[simp] theorem passCycles_hif_waits0 : (passCycles n s).hif.waits0 = s.hif.waits0 := by unfold passCycles; dsimp only; rw [foldS_keeps (fun t => t.hif.waits0) _ _ _ (fun t x => by simp)]; simp
@[simp] theorem passCycles_hif_waits1 : (passCycles n s).hif.waits1 = s.hif.waits1 := by unfold passCycles; dsimp only; rw [foldS_keeps (fun t => t.hif.waits1) _ _ _ (fun t x => by simp)]; simp
@[simp] theorem passCycles_hif_notices0 : (passCycles n s).hif.notices0 = s.hif.notices0 := by unfold passCycles; dsimp only; rw [foldS_keeps (fun t => t.hif.notices0) _ _ _ (fun t x => by simp)]; simp
@[simp] theorem passCycles_hif_notices1 : (passCycles n s).hif.notices1 = s.hif.notices1 := by unfold passCycles; dsimp only; rw [foldS_keeps (fun t => t.hif.notices1) _ _ _ (fun t x => by simp)]; simp
@[simp] theorem passCycles_hif_lost0 : (passCycles n s).hif.lost0 = s.hif.lost0 := by unfold passCycles; dsimp only; rw [foldS_keeps (fun t => t.hif.lost0) _ _ _ (fun t x => by simp)]; simp
@[simp] theorem passCycles_hif_lost1 : (passCycles n s).hif.lost1 = s.hif.lost1 := by unfold passCycles; dsimp only; rw [foldS_keeps (fun t => t.hif.lost1) _ _ _ (fun t x => by simp)]; simp
@[simp] theorem passCycles_hif_link : (passCycles n s).hif.link = s.hif.link := by unfold passCycles; dsimp only; rw [foldS_keeps (fun t => t.hif.link) _ _ _ (fun t x => by simp)]; simp
@[simp] theorem passCycles_hif_bar4Base : (passCycles n s).hif.bar4Base = s.hif.bar4Base := by unfold passCycles; dsimp only; rw [foldS_keeps (fun t => t.hif.bar4Base) _ _ _ (fun t x => by simp)]; simp
@[simp] theorem passCycles_hif_bar4Denied : (passCycles n s).hif.bar4Denied = s.hif.bar4Denied := by unfold passCycles; dsimp only; rw [foldS_keeps (fun t => t.hif.bar4Denied) _ _ _ (fun t x => by simp)]; simp
@[simp] theorem passCycles_regs_evcFreeze : (passCycles n s).regs.evcFreeze = s.regs.evcFreeze := by unfold passCycles; dsimp only; rw [foldS_keeps (fun t => t.regs.evcFreeze) _ _ _ (fun t x => by simp)]; simp
@[simp] theorem passCycles_regs_latched : (passCycles n s).regs.latched = s.regs.latched := by unfold passCycles; dsimp only; rw [foldS_keeps (fun t => t.regs.latched) _ _ _ (fun t x => by simp)]; simp
@[simp] theorem passCycles_regs_held : (passCycles n s).regs.held = s.regs.held := by unfold passCycles; dsimp only; rw [foldS_keeps (fun t => t.regs.held) _ _ _ (fun t x => by simp)]; simp
@[simp] theorem passCycles_regs_badAccess : (passCycles n s).regs.badAccess = s.regs.badAccess := by unfold passCycles; dsimp only; rw [foldS_keeps (fun t => t.regs.badAccess) _ _ _ (fun t x => by simp)]; simp
@[simp] theorem passCycles_regs_readValue : (passCycles n s).regs.readValue = s.regs.readValue := by unfold passCycles; dsimp only; rw [foldS_keeps (fun t => t.regs.readValue) _ _ _ (fun t x => by simp)]; simp
end

/-- Time advances by the cycles that pass, after which no resource was freed in the present one; nothing else of the bring-up state
changes. -/
theorem passCycles_boot (n : Nat) (s : State) : (passCycles n s).boot =
    { s.boot with cycles := s.boot.cycles + n, freed := if n = 0 then s.boot.freed else [] } := by
  unfold passCycles; dsimp only; rw [foldS_keeps (fun t => t.boot) _ _ _ (fun t x => by simp)]; simp

section
variable (n : Nat) (s : State)
@[simp] theorem advanceTo_pending : (advanceTo n s).pending = s.pending := by unfold advanceTo; dsimp only; split <;> simp
@[simp] theorem advanceTo_sched : (advanceTo n s).sched = s.sched := by unfold advanceTo; dsimp only; split <;> simp
@[simp] theorem advanceTo_obj : (advanceTo n s).obj = s.obj := by unfold advanceTo; dsimp only; split <;> simp
@[simp] theorem advanceTo_gen : (advanceTo n s).gen = s.gen := by unfold advanceTo; dsimp only; split <;> simp
@[simp] theorem advanceTo_search : (advanceTo n s).search = s.search := by unfold advanceTo; dsimp only; split <;> simp
@[simp] theorem advanceTo_mem : (advanceTo n s).mem = s.mem := by unfold advanceTo; dsimp only; split <;> simp
@[simp] theorem advanceTo_flash : (advanceTo n s).flash = s.flash := by unfold advanceTo; dsimp only; split <;> simp
@[simp] theorem advanceTo_fab : (advanceTo n s).fab = s.fab := by unfold advanceTo; dsimp only; split <;> simp
@[simp] theorem advanceTo_sec : (advanceTo n s).sec = s.sec := by unfold advanceTo; dsimp only; split <;> simp
@[simp] theorem advanceTo_mgmt : (advanceTo n s).mgmt = s.mgmt := by unfold advanceTo; dsimp only; split <;> simp
@[simp] theorem advanceTo_free : (advanceTo n s).free = s.free := by unfold advanceTo; dsimp only; split <;> simp
@[simp] theorem advanceTo_hif_hostMem : (advanceTo n s).hif.hostMem = s.hif.hostMem := by unfold advanceTo; dsimp only; split <;> simp
@[simp] theorem advanceTo_hif_qps : (advanceTo n s).hif.qps = s.hif.qps := by unfold advanceTo; dsimp only; split <;> simp
@[simp] theorem advanceTo_hif_waits0 : (advanceTo n s).hif.waits0 = s.hif.waits0 := by unfold advanceTo; dsimp only; split <;> simp
@[simp] theorem advanceTo_hif_waits1 : (advanceTo n s).hif.waits1 = s.hif.waits1 := by unfold advanceTo; dsimp only; split <;> simp
@[simp] theorem advanceTo_hif_notices0 : (advanceTo n s).hif.notices0 = s.hif.notices0 := by unfold advanceTo; dsimp only; split <;> simp
@[simp] theorem advanceTo_hif_notices1 : (advanceTo n s).hif.notices1 = s.hif.notices1 := by unfold advanceTo; dsimp only; split <;> simp
@[simp] theorem advanceTo_hif_lost0 : (advanceTo n s).hif.lost0 = s.hif.lost0 := by unfold advanceTo; dsimp only; split <;> simp
@[simp] theorem advanceTo_hif_lost1 : (advanceTo n s).hif.lost1 = s.hif.lost1 := by unfold advanceTo; dsimp only; split <;> simp
@[simp] theorem advanceTo_hif_link : (advanceTo n s).hif.link = s.hif.link := by unfold advanceTo; dsimp only; split <;> simp
@[simp] theorem advanceTo_hif_bar4Base : (advanceTo n s).hif.bar4Base = s.hif.bar4Base := by unfold advanceTo; dsimp only; split <;> simp
@[simp] theorem advanceTo_hif_bar4Denied : (advanceTo n s).hif.bar4Denied = s.hif.bar4Denied := by unfold advanceTo; dsimp only; split <;> simp
@[simp] theorem advanceTo_regs_evcFreeze : (advanceTo n s).regs.evcFreeze = s.regs.evcFreeze := by unfold advanceTo; dsimp only; split <;> simp
@[simp] theorem advanceTo_regs_latched : (advanceTo n s).regs.latched = s.regs.latched := by unfold advanceTo; dsimp only; split <;> simp
@[simp] theorem advanceTo_regs_held : (advanceTo n s).regs.held = s.regs.held := by unfold advanceTo; dsimp only; split <;> simp
@[simp] theorem advanceTo_regs_badAccess : (advanceTo n s).regs.badAccess = s.regs.badAccess := by unfold advanceTo; dsimp only; split <;> simp
@[simp] theorem advanceTo_regs_readValue : (advanceTo n s).regs.readValue = s.regs.readValue := by unfold advanceTo; dsimp only; split <;> simp
end

theorem advanceTo_boot (n : Nat) (s : State) : (advanceTo n s).boot =
    { s.boot with cycles := max s.boot.cycles (cycleOfNs n), freed := if s.boot.cycles < cycleOfNs n then [] else s.boot.freed } := by
  unfold advanceTo
  dsimp only
  split
  · rename_i h
    rw [passCycles_boot, Nat.max_eq_right (Nat.le_of_lt h), Nat.add_sub_cancel' (Nat.le_of_lt h), if_neg (by omega)]
  · rename_i h
    rw [Nat.max_eq_left (Nat.le_of_not_lt h)]

/-- Module time never steps back, and reaches the instant (19 R704). -/
theorem advanceTo_cycles (n : Nat) (s : State) : (advanceTo n s).boot.cycles = max s.boot.cycles (cycleOfNs n) := by
  rw [advanceTo_boot]

/-- Erasing the oldest records changes the management state alone. -/
theorem wrapArea_keeps {β : Type} (g : State → β) (h : ∀ m s, g { s with mgmt := m } = g s) (s : State) : g (wrapArea s) = g s := by
  unfold wrapArea
  dsimp only
  generalize areaBytes s.mgmt - areaSize = n
  by_cases hn : n = 0
  · rw [if_pos hn]
  · rw [if_neg hn]; exact h _ _

/-- What erasing the oldest records does to the management state (19 R718). -/
theorem wrapArea_mgmt_cases (s : State) : (wrapArea s).mgmt = s.mgmt ∨
    ∃ r l k x, (wrapArea s).mgmt = { s.mgmt with records := r, lastSeq := l, lostRecs := k, snaps := x } := by
  by_cases hn : areaBytes s.mgmt - areaSize = 0
  · left; simp only [wrapArea, hn, if_pos]
  · right; simp only [wrapArea, hn, if_false]; exact ⟨_, _, _, _, rfl⟩

theorem wrapArea_mgmt_keeps {β : Type} (g : Mgmt → β)
    (h : ∀ m : Mgmt, ∀ r l k x, g { m with records := r, lastSeq := l, lostRecs := k, snaps := x } = g m) (s : State) :
    g (wrapArea s).mgmt = g s.mgmt := by
  rcases wrapArea_mgmt_cases s with e | ⟨r, l, k, x, e⟩
  · rw [e]
  · rw [e]; exact h _ _ _ _ _

section
variable  (s : State)
@[simp] theorem wrapArea_pending : (wrapArea s).pending = s.pending := by exact wrapArea_keeps (fun t => t.pending) (fun m s => rfl) s
@[simp] theorem wrapArea_regs : (wrapArea s).regs = s.regs := by exact wrapArea_keeps (fun t => t.regs) (fun m s => rfl) s
@[simp] theorem wrapArea_hif : (wrapArea s).hif = s.hif := by exact wrapArea_keeps (fun t => t.hif) (fun m s => rfl) s
@[simp] theorem wrapArea_sched : (wrapArea s).sched = s.sched := by exact wrapArea_keeps (fun t => t.sched) (fun m s => rfl) s
@[simp] theorem wrapArea_obj : (wrapArea s).obj = s.obj := by exact wrapArea_keeps (fun t => t.obj) (fun m s => rfl) s
@[simp] theorem wrapArea_gen : (wrapArea s).gen = s.gen := by exact wrapArea_keeps (fun t => t.gen) (fun m s => rfl) s
@[simp] theorem wrapArea_search : (wrapArea s).search = s.search := by exact wrapArea_keeps (fun t => t.search) (fun m s => rfl) s
@[simp] theorem wrapArea_mem : (wrapArea s).mem = s.mem := by exact wrapArea_keeps (fun t => t.mem) (fun m s => rfl) s
@[simp] theorem wrapArea_flash : (wrapArea s).flash = s.flash := by exact wrapArea_keeps (fun t => t.flash) (fun m s => rfl) s
@[simp] theorem wrapArea_fab : (wrapArea s).fab = s.fab := by exact wrapArea_keeps (fun t => t.fab) (fun m s => rfl) s
@[simp] theorem wrapArea_boot : (wrapArea s).boot = s.boot := by exact wrapArea_keeps (fun t => t.boot) (fun m s => rfl) s
@[simp] theorem wrapArea_sec : (wrapArea s).sec = s.sec := by exact wrapArea_keeps (fun t => t.sec) (fun m s => rfl) s
@[simp] theorem wrapArea_free : (wrapArea s).free = s.free := by exact wrapArea_keeps (fun t => t.free) (fun m s => rfl) s
end

section
variable  (s : State)
@[simp] theorem flushSnaps_pending : (flushSnaps s).pending = s.pending := by simp [flushSnaps]
@[simp] theorem flushSnaps_regs : (flushSnaps s).regs = s.regs := by simp [flushSnaps]
@[simp] theorem flushSnaps_hif : (flushSnaps s).hif = s.hif := by simp [flushSnaps]
@[simp] theorem flushSnaps_sched : (flushSnaps s).sched = s.sched := by simp [flushSnaps]
@[simp] theorem flushSnaps_obj : (flushSnaps s).obj = s.obj := by simp [flushSnaps]
@[simp] theorem flushSnaps_gen : (flushSnaps s).gen = s.gen := by simp [flushSnaps]
@[simp] theorem flushSnaps_search : (flushSnaps s).search = s.search := by simp [flushSnaps]
@[simp] theorem flushSnaps_mem : (flushSnaps s).mem = s.mem := by simp [flushSnaps]
@[simp] theorem flushSnaps_flash : (flushSnaps s).flash = s.flash := by simp [flushSnaps]
@[simp] theorem flushSnaps_fab : (flushSnaps s).fab = s.fab := by simp [flushSnaps]
@[simp] theorem flushSnaps_boot : (flushSnaps s).boot = s.boot := by simp [flushSnaps]
@[simp] theorem flushSnaps_sec : (flushSnaps s).sec = s.sec := by simp [flushSnaps]
@[simp] theorem flushSnaps_free : (flushSnaps s).free = s.free := by simp [flushSnaps]
end

section
variable (s : State)
@[simp] theorem wrapArea_mgmt_pcrCtl : (wrapArea s).mgmt.pcrCtl = s.mgmt.pcrCtl := by exact wrapArea_mgmt_keeps (fun m => m.pcrCtl) (fun _ _ _ _ _ => rfl) s
@[simp] theorem wrapArea_mgmt_powerCap : (wrapArea s).mgmt.powerCap = s.mgmt.powerCap := by exact wrapArea_mgmt_keeps (fun m => m.powerCap) (fun _ _ _ _ _ => rfl) s
@[simp] theorem wrapArea_mgmt_rtcSet : (wrapArea s).mgmt.rtcSet = s.mgmt.rtcSet := by exact wrapArea_mgmt_keeps (fun m => m.rtcSet) (fun _ _ _ _ _ => rfl) s
@[simp] theorem wrapArea_mgmt_rtc : (wrapArea s).mgmt.rtc = s.mgmt.rtc := by exact wrapArea_mgmt_keeps (fun m => m.rtc) (fun _ _ _ _ _ => rfl) s
@[simp] theorem wrapArea_mgmt_update : (wrapArea s).mgmt.update = s.mgmt.update := by exact wrapArea_mgmt_keeps (fun m => m.update) (fun _ _ _ _ _ => rfl) s
@[simp] theorem wrapArea_mgmt_manualList : (wrapArea s).mgmt.manualList = s.mgmt.manualList := by exact wrapArea_mgmt_keeps (fun m => m.manualList) (fun _ _ _ _ _ => rfl) s
@[simp] theorem wrapArea_mgmt_i3c : (wrapArea s).mgmt.i3c = s.mgmt.i3c := by exact wrapArea_mgmt_keeps (fun m => m.i3c) (fun _ _ _ _ _ => rfl) s
@[simp] theorem wrapArea_mgmt_clkBounds : (wrapArea s).mgmt.clkBounds = s.mgmt.clkBounds := by exact wrapArea_mgmt_keeps (fun m => m.clkBounds) (fun _ _ _ _ _ => rfl) s
@[simp] theorem wrapArea_mgmt_admBounds : (wrapArea s).mgmt.admBounds = s.mgmt.admBounds := by exact wrapArea_mgmt_keeps (fun m => m.admBounds) (fun _ _ _ _ _ => rfl) s
@[simp] theorem wrapArea_mgmt_triggers : (wrapArea s).mgmt.triggers = s.mgmt.triggers := by exact wrapArea_mgmt_keeps (fun m => m.triggers) (fun _ _ _ _ _ => rfl) s
@[simp] theorem wrapArea_mgmt_lists : (wrapArea s).mgmt.lists = s.mgmt.lists := by exact wrapArea_mgmt_keeps (fun m => m.lists) (fun _ _ _ _ _ => rfl) s
end

section
variable (s : State)
@[simp] theorem flushSnaps_mgmt_pcrCtl : (flushSnaps s).mgmt.pcrCtl = s.mgmt.pcrCtl := by simp [flushSnaps]
@[simp] theorem flushSnaps_mgmt_powerCap : (flushSnaps s).mgmt.powerCap = s.mgmt.powerCap := by simp [flushSnaps]
@[simp] theorem flushSnaps_mgmt_rtcSet : (flushSnaps s).mgmt.rtcSet = s.mgmt.rtcSet := by simp [flushSnaps]
@[simp] theorem flushSnaps_mgmt_rtc : (flushSnaps s).mgmt.rtc = s.mgmt.rtc := by simp [flushSnaps]
@[simp] theorem flushSnaps_mgmt_update : (flushSnaps s).mgmt.update = s.mgmt.update := by simp [flushSnaps]
@[simp] theorem flushSnaps_mgmt_manualList : (flushSnaps s).mgmt.manualList = s.mgmt.manualList := by simp [flushSnaps]
@[simp] theorem flushSnaps_mgmt_i3c : (flushSnaps s).mgmt.i3c = s.mgmt.i3c := by simp [flushSnaps]
@[simp] theorem flushSnaps_mgmt_clkBounds : (flushSnaps s).mgmt.clkBounds = s.mgmt.clkBounds := by simp [flushSnaps]
@[simp] theorem flushSnaps_mgmt_admBounds : (flushSnaps s).mgmt.admBounds = s.mgmt.admBounds := by simp [flushSnaps]
@[simp] theorem flushSnaps_mgmt_triggers : (flushSnaps s).mgmt.triggers = s.mgmt.triggers := by simp [flushSnaps]
@[simp] theorem flushSnaps_mgmt_lists : (flushSnaps s).mgmt.lists = s.mgmt.lists := by simp [flushSnaps]
end

section
variable (q : Option Nat) (kind sev source code inst : Nat) (sup : Option Nat) (pl : List Nat) (s : State)
@[simp] theorem recordWith_pending : (recordWith q kind sev source code inst sup pl s).pending = s.pending := by unfold recordWith whenS; dsimp only; split <;> split <;> simp
@[simp] theorem recordWith_sched : (recordWith q kind sev source code inst sup pl s).sched = s.sched := by unfold recordWith whenS; dsimp only; split <;> split <;> simp
@[simp] theorem recordWith_obj : (recordWith q kind sev source code inst sup pl s).obj = s.obj := by unfold recordWith whenS; dsimp only; split <;> split <;> simp
@[simp] theorem recordWith_gen : (recordWith q kind sev source code inst sup pl s).gen = s.gen := by unfold recordWith whenS; dsimp only; split <;> split <;> simp
@[simp] theorem recordWith_search : (recordWith q kind sev source code inst sup pl s).search = s.search := by unfold recordWith whenS; dsimp only; split <;> split <;> simp
@[simp] theorem recordWith_mem : (recordWith q kind sev source code inst sup pl s).mem = s.mem := by unfold recordWith whenS; dsimp only; split <;> split <;> simp
@[simp] theorem recordWith_flash : (recordWith q kind sev source code inst sup pl s).flash = s.flash := by unfold recordWith whenS; dsimp only; split <;> split <;> simp
@[simp] theorem recordWith_fab : (recordWith q kind sev source code inst sup pl s).fab = s.fab := by unfold recordWith whenS; dsimp only; split <;> split <;> simp
@[simp] theorem recordWith_boot : (recordWith q kind sev source code inst sup pl s).boot = s.boot := by unfold recordWith whenS; dsimp only; split <;> split <;> simp
@[simp] theorem recordWith_sec : (recordWith q kind sev source code inst sup pl s).sec = s.sec := by unfold recordWith whenS; dsimp only; split <;> split <;> simp
@[simp] theorem recordWith_free : (recordWith q kind sev source code inst sup pl s).free = s.free := by unfold recordWith whenS; dsimp only; split <;> split <;> simp
@[simp] theorem recordWith_hif_hostMem : (recordWith q kind sev source code inst sup pl s).hif.hostMem = s.hif.hostMem := by unfold recordWith whenS; dsimp only; split <;> split <;> simp
@[simp] theorem recordWith_hif_qps : (recordWith q kind sev source code inst sup pl s).hif.qps = s.hif.qps := by unfold recordWith whenS; dsimp only; split <;> split <;> simp
@[simp] theorem recordWith_hif_waits0 : (recordWith q kind sev source code inst sup pl s).hif.waits0 = s.hif.waits0 := by unfold recordWith whenS; dsimp only; split <;> split <;> simp
@[simp] theorem recordWith_hif_waits1 : (recordWith q kind sev source code inst sup pl s).hif.waits1 = s.hif.waits1 := by unfold recordWith whenS; dsimp only; split <;> split <;> simp
@[simp] theorem recordWith_hif_notices0 : (recordWith q kind sev source code inst sup pl s).hif.notices0 = s.hif.notices0 := by unfold recordWith whenS; dsimp only; split <;> split <;> simp
@[simp] theorem recordWith_hif_notices1 : (recordWith q kind sev source code inst sup pl s).hif.notices1 = s.hif.notices1 := by unfold recordWith whenS; dsimp only; split <;> split <;> simp
@[simp] theorem recordWith_hif_lost0 : (recordWith q kind sev source code inst sup pl s).hif.lost0 = s.hif.lost0 := by unfold recordWith whenS; dsimp only; split <;> split <;> simp
@[simp] theorem recordWith_hif_lost1 : (recordWith q kind sev source code inst sup pl s).hif.lost1 = s.hif.lost1 := by unfold recordWith whenS; dsimp only; split <;> split <;> simp
@[simp] theorem recordWith_hif_link : (recordWith q kind sev source code inst sup pl s).hif.link = s.hif.link := by unfold recordWith whenS; dsimp only; split <;> split <;> simp
@[simp] theorem recordWith_hif_bar4Base : (recordWith q kind sev source code inst sup pl s).hif.bar4Base = s.hif.bar4Base := by unfold recordWith whenS; dsimp only; split <;> split <;> simp
@[simp] theorem recordWith_hif_bar4Denied : (recordWith q kind sev source code inst sup pl s).hif.bar4Denied = s.hif.bar4Denied := by unfold recordWith whenS; dsimp only; split <;> split <;> simp
@[simp] theorem recordWith_regs_evcFreeze : (recordWith q kind sev source code inst sup pl s).regs.evcFreeze = s.regs.evcFreeze := by unfold recordWith whenS; dsimp only; split <;> split <;> simp
@[simp] theorem recordWith_regs_latched : (recordWith q kind sev source code inst sup pl s).regs.latched = s.regs.latched := by unfold recordWith whenS; dsimp only; split <;> split <;> simp
@[simp] theorem recordWith_regs_held : (recordWith q kind sev source code inst sup pl s).regs.held = s.regs.held := by unfold recordWith whenS; dsimp only; split <;> split <;> simp
@[simp] theorem recordWith_regs_badAccess : (recordWith q kind sev source code inst sup pl s).regs.badAccess = s.regs.badAccess := by unfold recordWith whenS; dsimp only; split <;> split <;> simp
@[simp] theorem recordWith_regs_readValue : (recordWith q kind sev source code inst sup pl s).regs.readValue = s.regs.readValue := by unfold recordWith whenS; dsimp only; split <;> split <;> simp
@[simp] theorem recordWith_mgmt_pcrCtl : (recordWith q kind sev source code inst sup pl s).mgmt.pcrCtl = s.mgmt.pcrCtl := by unfold recordWith whenS; dsimp only; split <;> split <;> simp
@[simp] theorem recordWith_mgmt_powerCap : (recordWith q kind sev source code inst sup pl s).mgmt.powerCap = s.mgmt.powerCap := by unfold recordWith whenS; dsimp only; split <;> split <;> simp
@[simp] theorem recordWith_mgmt_rtcSet : (recordWith q kind sev source code inst sup pl s).mgmt.rtcSet = s.mgmt.rtcSet := by unfold recordWith whenS; dsimp only; split <;> split <;> simp
@[simp] theorem recordWith_mgmt_rtc : (recordWith q kind sev source code inst sup pl s).mgmt.rtc = s.mgmt.rtc := by unfold recordWith whenS; dsimp only; split <;> split <;> simp
@[simp] theorem recordWith_mgmt_update : (recordWith q kind sev source code inst sup pl s).mgmt.update = s.mgmt.update := by unfold recordWith whenS; dsimp only; split <;> split <;> simp
@[simp] theorem recordWith_mgmt_manualList : (recordWith q kind sev source code inst sup pl s).mgmt.manualList = s.mgmt.manualList := by unfold recordWith whenS; dsimp only; split <;> split <;> simp
@[simp] theorem recordWith_mgmt_i3c : (recordWith q kind sev source code inst sup pl s).mgmt.i3c = s.mgmt.i3c := by unfold recordWith whenS; dsimp only; split <;> split <;> simp
@[simp] theorem recordWith_mgmt_clkBounds : (recordWith q kind sev source code inst sup pl s).mgmt.clkBounds = s.mgmt.clkBounds := by unfold recordWith whenS; dsimp only; split <;> split <;> simp
@[simp] theorem recordWith_mgmt_admBounds : (recordWith q kind sev source code inst sup pl s).mgmt.admBounds = s.mgmt.admBounds := by unfold recordWith whenS; dsimp only; split <;> split <;> simp
@[simp] theorem recordWith_mgmt_triggers : (recordWith q kind sev source code inst sup pl s).mgmt.triggers = s.mgmt.triggers := by unfold recordWith whenS; dsimp only; split <;> split <;> simp
@[simp] theorem recordWith_mgmt_lists : (recordWith q kind sev source code inst sup pl s).mgmt.lists = s.mgmt.lists := by unfold recordWith whenS; dsimp only; split <;> split <;> simp
end

section
variable (kind sev source code inst : Nat) (sup : Option Nat) (pl : List Nat) (s : State)
@[simp] theorem recordFull_pending : (recordFull kind sev source code inst sup pl s).pending = s.pending := by simp [recordFull]
@[simp] theorem recordFull_sched : (recordFull kind sev source code inst sup pl s).sched = s.sched := by simp [recordFull]
@[simp] theorem recordFull_obj : (recordFull kind sev source code inst sup pl s).obj = s.obj := by simp [recordFull]
@[simp] theorem recordFull_gen : (recordFull kind sev source code inst sup pl s).gen = s.gen := by simp [recordFull]
@[simp] theorem recordFull_search : (recordFull kind sev source code inst sup pl s).search = s.search := by simp [recordFull]
@[simp] theorem recordFull_mem : (recordFull kind sev source code inst sup pl s).mem = s.mem := by simp [recordFull]
@[simp] theorem recordFull_flash : (recordFull kind sev source code inst sup pl s).flash = s.flash := by simp [recordFull]
@[simp] theorem recordFull_fab : (recordFull kind sev source code inst sup pl s).fab = s.fab := by simp [recordFull]
@[simp] theorem recordFull_boot : (recordFull kind sev source code inst sup pl s).boot = s.boot := by simp [recordFull]
@[simp] theorem recordFull_sec : (recordFull kind sev source code inst sup pl s).sec = s.sec := by simp [recordFull]
@[simp] theorem recordFull_free : (recordFull kind sev source code inst sup pl s).free = s.free := by simp [recordFull]
@[simp] theorem recordFull_hif_hostMem : (recordFull kind sev source code inst sup pl s).hif.hostMem = s.hif.hostMem := by simp [recordFull]
@[simp] theorem recordFull_hif_qps : (recordFull kind sev source code inst sup pl s).hif.qps = s.hif.qps := by simp [recordFull]
@[simp] theorem recordFull_hif_waits0 : (recordFull kind sev source code inst sup pl s).hif.waits0 = s.hif.waits0 := by simp [recordFull]
@[simp] theorem recordFull_hif_waits1 : (recordFull kind sev source code inst sup pl s).hif.waits1 = s.hif.waits1 := by simp [recordFull]
@[simp] theorem recordFull_hif_notices0 : (recordFull kind sev source code inst sup pl s).hif.notices0 = s.hif.notices0 := by simp [recordFull]
@[simp] theorem recordFull_hif_notices1 : (recordFull kind sev source code inst sup pl s).hif.notices1 = s.hif.notices1 := by simp [recordFull]
@[simp] theorem recordFull_hif_lost0 : (recordFull kind sev source code inst sup pl s).hif.lost0 = s.hif.lost0 := by simp [recordFull]
@[simp] theorem recordFull_hif_lost1 : (recordFull kind sev source code inst sup pl s).hif.lost1 = s.hif.lost1 := by simp [recordFull]
@[simp] theorem recordFull_hif_link : (recordFull kind sev source code inst sup pl s).hif.link = s.hif.link := by simp [recordFull]
@[simp] theorem recordFull_hif_bar4Base : (recordFull kind sev source code inst sup pl s).hif.bar4Base = s.hif.bar4Base := by simp [recordFull]
@[simp] theorem recordFull_hif_bar4Denied : (recordFull kind sev source code inst sup pl s).hif.bar4Denied = s.hif.bar4Denied := by simp [recordFull]
@[simp] theorem recordFull_regs_evcFreeze : (recordFull kind sev source code inst sup pl s).regs.evcFreeze = s.regs.evcFreeze := by simp [recordFull]
@[simp] theorem recordFull_regs_latched : (recordFull kind sev source code inst sup pl s).regs.latched = s.regs.latched := by simp [recordFull]
@[simp] theorem recordFull_regs_held : (recordFull kind sev source code inst sup pl s).regs.held = s.regs.held := by simp [recordFull]
@[simp] theorem recordFull_regs_badAccess : (recordFull kind sev source code inst sup pl s).regs.badAccess = s.regs.badAccess := by simp [recordFull]
@[simp] theorem recordFull_regs_readValue : (recordFull kind sev source code inst sup pl s).regs.readValue = s.regs.readValue := by simp [recordFull]
@[simp] theorem recordFull_mgmt_pcrCtl : (recordFull kind sev source code inst sup pl s).mgmt.pcrCtl = s.mgmt.pcrCtl := by simp [recordFull]
@[simp] theorem recordFull_mgmt_powerCap : (recordFull kind sev source code inst sup pl s).mgmt.powerCap = s.mgmt.powerCap := by simp [recordFull]
@[simp] theorem recordFull_mgmt_rtcSet : (recordFull kind sev source code inst sup pl s).mgmt.rtcSet = s.mgmt.rtcSet := by simp [recordFull]
@[simp] theorem recordFull_mgmt_rtc : (recordFull kind sev source code inst sup pl s).mgmt.rtc = s.mgmt.rtc := by simp [recordFull]
@[simp] theorem recordFull_mgmt_update : (recordFull kind sev source code inst sup pl s).mgmt.update = s.mgmt.update := by simp [recordFull]
@[simp] theorem recordFull_mgmt_manualList : (recordFull kind sev source code inst sup pl s).mgmt.manualList = s.mgmt.manualList := by simp [recordFull]
@[simp] theorem recordFull_mgmt_i3c : (recordFull kind sev source code inst sup pl s).mgmt.i3c = s.mgmt.i3c := by simp [recordFull]
@[simp] theorem recordFull_mgmt_clkBounds : (recordFull kind sev source code inst sup pl s).mgmt.clkBounds = s.mgmt.clkBounds := by simp [recordFull]
@[simp] theorem recordFull_mgmt_admBounds : (recordFull kind sev source code inst sup pl s).mgmt.admBounds = s.mgmt.admBounds := by simp [recordFull]
@[simp] theorem recordFull_mgmt_triggers : (recordFull kind sev source code inst sup pl s).mgmt.triggers = s.mgmt.triggers := by simp [recordFull]
@[simp] theorem recordFull_mgmt_lists : (recordFull kind sev source code inst sup pl s).mgmt.lists = s.mgmt.lists := by simp [recordFull]
end

section
variable (sev source code inst : Nat) (pl : List Nat) (s : State)
@[simp] theorem recordEvent_pending : (recordEvent sev source code inst pl s).pending = s.pending := by simp [recordEvent]
@[simp] theorem recordEvent_sched : (recordEvent sev source code inst pl s).sched = s.sched := by simp [recordEvent]
@[simp] theorem recordEvent_obj : (recordEvent sev source code inst pl s).obj = s.obj := by simp [recordEvent]
@[simp] theorem recordEvent_gen : (recordEvent sev source code inst pl s).gen = s.gen := by simp [recordEvent]
@[simp] theorem recordEvent_search : (recordEvent sev source code inst pl s).search = s.search := by simp [recordEvent]
@[simp] theorem recordEvent_mem : (recordEvent sev source code inst pl s).mem = s.mem := by simp [recordEvent]
@[simp] theorem recordEvent_flash : (recordEvent sev source code inst pl s).flash = s.flash := by simp [recordEvent]
@[simp] theorem recordEvent_fab : (recordEvent sev source code inst pl s).fab = s.fab := by simp [recordEvent]
@[simp] theorem recordEvent_boot : (recordEvent sev source code inst pl s).boot = s.boot := by simp [recordEvent]
@[simp] theorem recordEvent_sec : (recordEvent sev source code inst pl s).sec = s.sec := by simp [recordEvent]
@[simp] theorem recordEvent_free : (recordEvent sev source code inst pl s).free = s.free := by simp [recordEvent]
@[simp] theorem recordEvent_hif_hostMem : (recordEvent sev source code inst pl s).hif.hostMem = s.hif.hostMem := by simp [recordEvent]
@[simp] theorem recordEvent_hif_qps : (recordEvent sev source code inst pl s).hif.qps = s.hif.qps := by simp [recordEvent]
@[simp] theorem recordEvent_hif_waits0 : (recordEvent sev source code inst pl s).hif.waits0 = s.hif.waits0 := by simp [recordEvent]
@[simp] theorem recordEvent_hif_waits1 : (recordEvent sev source code inst pl s).hif.waits1 = s.hif.waits1 := by simp [recordEvent]
@[simp] theorem recordEvent_hif_notices0 : (recordEvent sev source code inst pl s).hif.notices0 = s.hif.notices0 := by simp [recordEvent]
@[simp] theorem recordEvent_hif_notices1 : (recordEvent sev source code inst pl s).hif.notices1 = s.hif.notices1 := by simp [recordEvent]
@[simp] theorem recordEvent_hif_lost0 : (recordEvent sev source code inst pl s).hif.lost0 = s.hif.lost0 := by simp [recordEvent]
@[simp] theorem recordEvent_hif_lost1 : (recordEvent sev source code inst pl s).hif.lost1 = s.hif.lost1 := by simp [recordEvent]
@[simp] theorem recordEvent_hif_link : (recordEvent sev source code inst pl s).hif.link = s.hif.link := by simp [recordEvent]
@[simp] theorem recordEvent_hif_bar4Base : (recordEvent sev source code inst pl s).hif.bar4Base = s.hif.bar4Base := by simp [recordEvent]
@[simp] theorem recordEvent_hif_bar4Denied : (recordEvent sev source code inst pl s).hif.bar4Denied = s.hif.bar4Denied := by simp [recordEvent]
@[simp] theorem recordEvent_regs_evcFreeze : (recordEvent sev source code inst pl s).regs.evcFreeze = s.regs.evcFreeze := by simp [recordEvent]
@[simp] theorem recordEvent_regs_latched : (recordEvent sev source code inst pl s).regs.latched = s.regs.latched := by simp [recordEvent]
@[simp] theorem recordEvent_regs_held : (recordEvent sev source code inst pl s).regs.held = s.regs.held := by simp [recordEvent]
@[simp] theorem recordEvent_regs_badAccess : (recordEvent sev source code inst pl s).regs.badAccess = s.regs.badAccess := by simp [recordEvent]
@[simp] theorem recordEvent_regs_readValue : (recordEvent sev source code inst pl s).regs.readValue = s.regs.readValue := by simp [recordEvent]
@[simp] theorem recordEvent_mgmt_pcrCtl : (recordEvent sev source code inst pl s).mgmt.pcrCtl = s.mgmt.pcrCtl := by simp [recordEvent]
@[simp] theorem recordEvent_mgmt_powerCap : (recordEvent sev source code inst pl s).mgmt.powerCap = s.mgmt.powerCap := by simp [recordEvent]
@[simp] theorem recordEvent_mgmt_rtcSet : (recordEvent sev source code inst pl s).mgmt.rtcSet = s.mgmt.rtcSet := by simp [recordEvent]
@[simp] theorem recordEvent_mgmt_rtc : (recordEvent sev source code inst pl s).mgmt.rtc = s.mgmt.rtc := by simp [recordEvent]
@[simp] theorem recordEvent_mgmt_update : (recordEvent sev source code inst pl s).mgmt.update = s.mgmt.update := by simp [recordEvent]
@[simp] theorem recordEvent_mgmt_manualList : (recordEvent sev source code inst pl s).mgmt.manualList = s.mgmt.manualList := by simp [recordEvent]
@[simp] theorem recordEvent_mgmt_i3c : (recordEvent sev source code inst pl s).mgmt.i3c = s.mgmt.i3c := by simp [recordEvent]
@[simp] theorem recordEvent_mgmt_clkBounds : (recordEvent sev source code inst pl s).mgmt.clkBounds = s.mgmt.clkBounds := by simp [recordEvent]
@[simp] theorem recordEvent_mgmt_admBounds : (recordEvent sev source code inst pl s).mgmt.admBounds = s.mgmt.admBounds := by simp [recordEvent]
@[simp] theorem recordEvent_mgmt_triggers : (recordEvent sev source code inst pl s).mgmt.triggers = s.mgmt.triggers := by simp [recordEvent]
@[simp] theorem recordEvent_mgmt_lists : (recordEvent sev source code inst pl s).mgmt.lists = s.mgmt.lists := by simp [recordEvent]
end

section
variable (a : Nat) (b : Bytes) (s : State)
@[simp] theorem dmaWrite_pending : (dmaWrite a b s).pending = s.pending := by simp [dmaWrite]
@[simp] theorem dmaWrite_sched : (dmaWrite a b s).sched = s.sched := by simp [dmaWrite]
@[simp] theorem dmaWrite_obj : (dmaWrite a b s).obj = s.obj := by simp [dmaWrite]
@[simp] theorem dmaWrite_gen : (dmaWrite a b s).gen = s.gen := by simp [dmaWrite]
@[simp] theorem dmaWrite_search : (dmaWrite a b s).search = s.search := by simp [dmaWrite]
@[simp] theorem dmaWrite_mem : (dmaWrite a b s).mem = s.mem := by simp [dmaWrite]
@[simp] theorem dmaWrite_flash : (dmaWrite a b s).flash = s.flash := by simp [dmaWrite]
@[simp] theorem dmaWrite_fab : (dmaWrite a b s).fab = s.fab := by simp [dmaWrite]
@[simp] theorem dmaWrite_boot : (dmaWrite a b s).boot = s.boot := by simp [dmaWrite]
@[simp] theorem dmaWrite_sec : (dmaWrite a b s).sec = s.sec := by simp [dmaWrite]
@[simp] theorem dmaWrite_mgmt : (dmaWrite a b s).mgmt = s.mgmt := by simp [dmaWrite]
@[simp] theorem dmaWrite_free : (dmaWrite a b s).free = s.free := by simp [dmaWrite]
@[simp] theorem dmaWrite_hif_qps : (dmaWrite a b s).hif.qps = s.hif.qps := by simp [dmaWrite]
@[simp] theorem dmaWrite_hif_waits0 : (dmaWrite a b s).hif.waits0 = s.hif.waits0 := by simp [dmaWrite]
@[simp] theorem dmaWrite_hif_waits1 : (dmaWrite a b s).hif.waits1 = s.hif.waits1 := by simp [dmaWrite]
@[simp] theorem dmaWrite_hif_notices0 : (dmaWrite a b s).hif.notices0 = s.hif.notices0 := by simp [dmaWrite]
@[simp] theorem dmaWrite_hif_notices1 : (dmaWrite a b s).hif.notices1 = s.hif.notices1 := by simp [dmaWrite]
@[simp] theorem dmaWrite_hif_lost0 : (dmaWrite a b s).hif.lost0 = s.hif.lost0 := by simp [dmaWrite]
@[simp] theorem dmaWrite_hif_lost1 : (dmaWrite a b s).hif.lost1 = s.hif.lost1 := by simp [dmaWrite]
@[simp] theorem dmaWrite_hif_link : (dmaWrite a b s).hif.link = s.hif.link := by simp [dmaWrite]
@[simp] theorem dmaWrite_hif_bar4Base : (dmaWrite a b s).hif.bar4Base = s.hif.bar4Base := by simp [dmaWrite]
@[simp] theorem dmaWrite_hif_bar4Denied : (dmaWrite a b s).hif.bar4Denied = s.hif.bar4Denied := by simp [dmaWrite]
@[simp] theorem dmaWrite_regs_evcFreeze : (dmaWrite a b s).regs.evcFreeze = s.regs.evcFreeze := by simp [dmaWrite]
@[simp] theorem dmaWrite_regs_latched : (dmaWrite a b s).regs.latched = s.regs.latched := by simp [dmaWrite]
@[simp] theorem dmaWrite_regs_held : (dmaWrite a b s).regs.held = s.regs.held := by simp [dmaWrite]
@[simp] theorem dmaWrite_regs_badAccess : (dmaWrite a b s).regs.badAccess = s.regs.badAccess := by simp [dmaWrite]
@[simp] theorem dmaWrite_regs_readValue : (dmaWrite a b s).regs.readValue = s.regs.readValue := by simp [dmaWrite]
end

/-- A DMA write stores its bytes and nothing else of host memory (15 R554). -/
@[simp] theorem dmaWrite_hostMem (a : Nat) (b : Bytes) (s : State) :
    (dmaWrite a b s).hif.hostMem = memWrite s.hif.hostMem a b := by simp [dmaWrite]

section
variable (q : Nat) (s : State)
@[simp] theorem qpEvent_pending : (qpEvent q s).pending = s.pending := by unfold qpEvent; dsimp only; split <;> simp
@[simp] theorem qpEvent_sched : (qpEvent q s).sched = s.sched := by unfold qpEvent; dsimp only; split <;> simp
@[simp] theorem qpEvent_obj : (qpEvent q s).obj = s.obj := by unfold qpEvent; dsimp only; split <;> simp
@[simp] theorem qpEvent_gen : (qpEvent q s).gen = s.gen := by unfold qpEvent; dsimp only; split <;> simp
@[simp] theorem qpEvent_search : (qpEvent q s).search = s.search := by unfold qpEvent; dsimp only; split <;> simp
@[simp] theorem qpEvent_mem : (qpEvent q s).mem = s.mem := by unfold qpEvent; dsimp only; split <;> simp
@[simp] theorem qpEvent_flash : (qpEvent q s).flash = s.flash := by unfold qpEvent; dsimp only; split <;> simp
@[simp] theorem qpEvent_fab : (qpEvent q s).fab = s.fab := by unfold qpEvent; dsimp only; split <;> simp
@[simp] theorem qpEvent_boot : (qpEvent q s).boot = s.boot := by unfold qpEvent; dsimp only; split <;> simp
@[simp] theorem qpEvent_sec : (qpEvent q s).sec = s.sec := by unfold qpEvent; dsimp only; split <;> simp
@[simp] theorem qpEvent_mgmt : (qpEvent q s).mgmt = s.mgmt := by unfold qpEvent; dsimp only; split <;> simp
@[simp] theorem qpEvent_free : (qpEvent q s).free = s.free := by unfold qpEvent; dsimp only; split <;> simp
@[simp] theorem qpEvent_hif_hostMem : (qpEvent q s).hif.hostMem = s.hif.hostMem := by unfold qpEvent; dsimp only; split <;> simp
@[simp] theorem qpEvent_hif_waits0 : (qpEvent q s).hif.waits0 = s.hif.waits0 := by unfold qpEvent; dsimp only; split <;> simp
@[simp] theorem qpEvent_hif_waits1 : (qpEvent q s).hif.waits1 = s.hif.waits1 := by unfold qpEvent; dsimp only; split <;> simp
@[simp] theorem qpEvent_hif_notices0 : (qpEvent q s).hif.notices0 = s.hif.notices0 := by unfold qpEvent; dsimp only; split <;> simp
@[simp] theorem qpEvent_hif_notices1 : (qpEvent q s).hif.notices1 = s.hif.notices1 := by unfold qpEvent; dsimp only; split <;> simp
@[simp] theorem qpEvent_hif_lost0 : (qpEvent q s).hif.lost0 = s.hif.lost0 := by unfold qpEvent; dsimp only; split <;> simp
@[simp] theorem qpEvent_hif_lost1 : (qpEvent q s).hif.lost1 = s.hif.lost1 := by unfold qpEvent; dsimp only; split <;> simp
@[simp] theorem qpEvent_hif_link : (qpEvent q s).hif.link = s.hif.link := by unfold qpEvent; dsimp only; split <;> simp
@[simp] theorem qpEvent_hif_bar4Base : (qpEvent q s).hif.bar4Base = s.hif.bar4Base := by unfold qpEvent; dsimp only; split <;> simp
@[simp] theorem qpEvent_hif_bar4Denied : (qpEvent q s).hif.bar4Denied = s.hif.bar4Denied := by unfold qpEvent; dsimp only; split <;> simp
@[simp] theorem qpEvent_regs_evcFreeze : (qpEvent q s).regs.evcFreeze = s.regs.evcFreeze := by unfold qpEvent; dsimp only; split <;> simp
@[simp] theorem qpEvent_regs_latched : (qpEvent q s).regs.latched = s.regs.latched := by unfold qpEvent; dsimp only; split <;> simp
@[simp] theorem qpEvent_regs_held : (qpEvent q s).regs.held = s.regs.held := by unfold qpEvent; dsimp only; split <;> simp
@[simp] theorem qpEvent_regs_badAccess : (qpEvent q s).regs.badAccess = s.regs.badAccess := by unfold qpEvent; dsimp only; split <;> simp
@[simp] theorem qpEvent_regs_readValue : (qpEvent q s).regs.readValue = s.regs.readValue := by unfold qpEvent; dsimp only; split <;> simp
end

section
variable (q : Nat) (c : Cpl) (s : State)
@[simp] theorem complete_pending : (complete q c s).pending = s.pending := by unfold complete; dsimp only; split <;> simp
@[simp] theorem complete_sched : (complete q c s).sched = s.sched := by unfold complete; dsimp only; split <;> simp
@[simp] theorem complete_obj : (complete q c s).obj = s.obj := by unfold complete; dsimp only; split <;> simp
@[simp] theorem complete_gen : (complete q c s).gen = s.gen := by unfold complete; dsimp only; split <;> simp
@[simp] theorem complete_search : (complete q c s).search = s.search := by unfold complete; dsimp only; split <;> simp
@[simp] theorem complete_mem : (complete q c s).mem = s.mem := by unfold complete; dsimp only; split <;> simp
@[simp] theorem complete_flash : (complete q c s).flash = s.flash := by unfold complete; dsimp only; split <;> simp
@[simp] theorem complete_fab : (complete q c s).fab = s.fab := by unfold complete; dsimp only; split <;> simp
@[simp] theorem complete_boot : (complete q c s).boot = s.boot := by unfold complete; dsimp only; split <;> simp
@[simp] theorem complete_sec : (complete q c s).sec = s.sec := by unfold complete; dsimp only; split <;> simp
@[simp] theorem complete_mgmt : (complete q c s).mgmt = s.mgmt := by unfold complete; dsimp only; split <;> simp
@[simp] theorem complete_free : (complete q c s).free = s.free := by unfold complete; dsimp only; split <;> simp
@[simp] theorem complete_hif_waits0 : (complete q c s).hif.waits0 = s.hif.waits0 := by unfold complete; dsimp only; split <;> simp
@[simp] theorem complete_hif_waits1 : (complete q c s).hif.waits1 = s.hif.waits1 := by unfold complete; dsimp only; split <;> simp
@[simp] theorem complete_hif_notices0 : (complete q c s).hif.notices0 = s.hif.notices0 := by unfold complete; dsimp only; split <;> simp
@[simp] theorem complete_hif_notices1 : (complete q c s).hif.notices1 = s.hif.notices1 := by unfold complete; dsimp only; split <;> simp
@[simp] theorem complete_hif_lost0 : (complete q c s).hif.lost0 = s.hif.lost0 := by unfold complete; dsimp only; split <;> simp
@[simp] theorem complete_hif_lost1 : (complete q c s).hif.lost1 = s.hif.lost1 := by unfold complete; dsimp only; split <;> simp
@[simp] theorem complete_hif_link : (complete q c s).hif.link = s.hif.link := by unfold complete; dsimp only; split <;> simp
@[simp] theorem complete_hif_bar4Base : (complete q c s).hif.bar4Base = s.hif.bar4Base := by unfold complete; dsimp only; split <;> simp
@[simp] theorem complete_hif_bar4Denied : (complete q c s).hif.bar4Denied = s.hif.bar4Denied := by unfold complete; dsimp only; split <;> simp
@[simp] theorem complete_regs_evcFreeze : (complete q c s).regs.evcFreeze = s.regs.evcFreeze := by unfold complete; dsimp only; split <;> simp
@[simp] theorem complete_regs_latched : (complete q c s).regs.latched = s.regs.latched := by unfold complete; dsimp only; split <;> simp
@[simp] theorem complete_regs_held : (complete q c s).regs.held = s.regs.held := by unfold complete; dsimp only; split <;> simp
@[simp] theorem complete_regs_badAccess : (complete q c s).regs.badAccess = s.regs.badAccess := by unfold complete; dsimp only; split <;> simp
@[simp] theorem complete_regs_readValue : (complete q c s).regs.readValue = s.regs.readValue := by unfold complete; dsimp only; split <;> simp
end

/-- Where the next completion entry of a queue pair lies (15 R564). -/
def cplAddr (qp : Qp) : Nat := qp.cqBase.toNat + 32 * qp.cqTail

/-- A completion writes its entry at the completion tail of a live function's queue pair, and nothing else of host memory
(15 R563, R564, R584). -/
theorem complete_hostMem (q : Nat) (c : Cpl) (s : State) : (complete q c s).hif.hostMem =
    if fnLive s ((qpFn s q).getD 0) then memWrite s.hif.hostMem (cplAddr (qpOf s q)) (c.bytes q (qpOf s q).phase)
    else s.hif.hostMem := by
  unfold complete
  dsimp only
  split <;> simp [cplAddr]

section
variable (a : Nat) (c : Counters) (s : State)
@[simp] theorem chargeAcct_pending : (chargeAcct a c s).pending = s.pending := by rfl
@[simp] theorem chargeAcct_regs : (chargeAcct a c s).regs = s.regs := by rfl
@[simp] theorem chargeAcct_hif : (chargeAcct a c s).hif = s.hif := by rfl
@[simp] theorem chargeAcct_obj : (chargeAcct a c s).obj = s.obj := by rfl
@[simp] theorem chargeAcct_gen : (chargeAcct a c s).gen = s.gen := by rfl
@[simp] theorem chargeAcct_search : (chargeAcct a c s).search = s.search := by rfl
@[simp] theorem chargeAcct_mem : (chargeAcct a c s).mem = s.mem := by rfl
@[simp] theorem chargeAcct_flash : (chargeAcct a c s).flash = s.flash := by rfl
@[simp] theorem chargeAcct_fab : (chargeAcct a c s).fab = s.fab := by rfl
@[simp] theorem chargeAcct_boot : (chargeAcct a c s).boot = s.boot := by rfl
@[simp] theorem chargeAcct_sec : (chargeAcct a c s).sec = s.sec := by rfl
@[simp] theorem chargeAcct_mgmt : (chargeAcct a c s).mgmt = s.mgmt := by rfl
@[simp] theorem chargeAcct_free : (chargeAcct a c s).free = s.free := by rfl
end

section
variable (e : Nat) (c : Counters) (s : State)
@[simp] theorem charge_pending : (charge e c s).pending = s.pending := by unfold charge; split <;> rfl
@[simp] theorem charge_regs : (charge e c s).regs = s.regs := by unfold charge; split <;> rfl
@[simp] theorem charge_hif : (charge e c s).hif = s.hif := by unfold charge; split <;> rfl
@[simp] theorem charge_obj : (charge e c s).obj = s.obj := by unfold charge; split <;> rfl
@[simp] theorem charge_search : (charge e c s).search = s.search := by unfold charge; split <;> rfl
@[simp] theorem charge_mem : (charge e c s).mem = s.mem := by unfold charge; split <;> rfl
@[simp] theorem charge_flash : (charge e c s).flash = s.flash := by unfold charge; split <;> rfl
@[simp] theorem charge_fab : (charge e c s).fab = s.fab := by unfold charge; split <;> rfl
@[simp] theorem charge_boot : (charge e c s).boot = s.boot := by unfold charge; split <;> rfl
@[simp] theorem charge_sec : (charge e c s).sec = s.sec := by unfold charge; split <;> rfl
@[simp] theorem charge_mgmt : (charge e c s).mgmt = s.mgmt := by unfold charge; split <;> rfl
@[simp] theorem charge_free : (charge e c s).free = s.free := by unfold charge; split <;> rfl
end

section
variable (b : Bytes) (s : State)
@[simp] theorem acctLog_pending : (acctLog b s).pending = s.pending := by rfl
@[simp] theorem acctLog_regs : (acctLog b s).regs = s.regs := by rfl
@[simp] theorem acctLog_hif : (acctLog b s).hif = s.hif := by rfl
@[simp] theorem acctLog_obj : (acctLog b s).obj = s.obj := by rfl
@[simp] theorem acctLog_gen : (acctLog b s).gen = s.gen := by rfl
@[simp] theorem acctLog_search : (acctLog b s).search = s.search := by rfl
@[simp] theorem acctLog_mem : (acctLog b s).mem = s.mem := by rfl
@[simp] theorem acctLog_flash : (acctLog b s).flash = s.flash := by rfl
@[simp] theorem acctLog_fab : (acctLog b s).fab = s.fab := by rfl
@[simp] theorem acctLog_boot : (acctLog b s).boot = s.boot := by rfl
@[simp] theorem acctLog_sec : (acctLog b s).sec = s.sec := by rfl
@[simp] theorem acctLog_mgmt : (acctLog b s).mgmt = s.mgmt := by rfl
@[simp] theorem acctLog_free : (acctLog b s).free = s.free := by rfl
end

section
variable (q t : Nat) (s : State)
@[simp] theorem rememberTag_pending : (rememberTag q t s).pending = s.pending := by rfl
@[simp] theorem rememberTag_regs : (rememberTag q t s).regs = s.regs := by rfl
@[simp] theorem rememberTag_sched : (rememberTag q t s).sched = s.sched := by rfl
@[simp] theorem rememberTag_obj : (rememberTag q t s).obj = s.obj := by rfl
@[simp] theorem rememberTag_gen : (rememberTag q t s).gen = s.gen := by rfl
@[simp] theorem rememberTag_search : (rememberTag q t s).search = s.search := by rfl
@[simp] theorem rememberTag_mem : (rememberTag q t s).mem = s.mem := by rfl
@[simp] theorem rememberTag_flash : (rememberTag q t s).flash = s.flash := by rfl
@[simp] theorem rememberTag_fab : (rememberTag q t s).fab = s.fab := by rfl
@[simp] theorem rememberTag_boot : (rememberTag q t s).boot = s.boot := by rfl
@[simp] theorem rememberTag_sec : (rememberTag q t s).sec = s.sec := by rfl
@[simp] theorem rememberTag_mgmt : (rememberTag q t s).mgmt = s.mgmt := by rfl
@[simp] theorem rememberTag_free : (rememberTag q t s).free = s.free := by rfl
@[simp] theorem rememberTag_hif_hostMem : (rememberTag q t s).hif.hostMem = s.hif.hostMem := by rfl
@[simp] theorem rememberTag_hif_waits0 : (rememberTag q t s).hif.waits0 = s.hif.waits0 := by rfl
@[simp] theorem rememberTag_hif_waits1 : (rememberTag q t s).hif.waits1 = s.hif.waits1 := by rfl
@[simp] theorem rememberTag_hif_notices0 : (rememberTag q t s).hif.notices0 = s.hif.notices0 := by rfl
@[simp] theorem rememberTag_hif_notices1 : (rememberTag q t s).hif.notices1 = s.hif.notices1 := by rfl
@[simp] theorem rememberTag_hif_lost0 : (rememberTag q t s).hif.lost0 = s.hif.lost0 := by rfl
@[simp] theorem rememberTag_hif_lost1 : (rememberTag q t s).hif.lost1 = s.hif.lost1 := by rfl
@[simp] theorem rememberTag_hif_link : (rememberTag q t s).hif.link = s.hif.link := by rfl
@[simp] theorem rememberTag_hif_bar4Base : (rememberTag q t s).hif.bar4Base = s.hif.bar4Base := by rfl
@[simp] theorem rememberTag_hif_bar4Denied : (rememberTag q t s).hif.bar4Denied = s.hif.bar4Denied := by rfl
@[simp] theorem rememberTag_regs_evcFreeze : (rememberTag q t s).regs.evcFreeze = s.regs.evcFreeze := by rfl
@[simp] theorem rememberTag_regs_latched : (rememberTag q t s).regs.latched = s.regs.latched := by rfl
@[simp] theorem rememberTag_regs_held : (rememberTag q t s).regs.held = s.regs.held := by rfl
@[simp] theorem rememberTag_regs_badAccess : (rememberTag q t s).regs.badAccess = s.regs.badAccess := by rfl
@[simp] theorem rememberTag_regs_readValue : (rememberTag q t s).regs.readValue = s.regs.readValue := by rfl
end

section
variable (h : HostCmd) (f : Fetched) (c : Cpl) (s : State)
@[simp] theorem cplCmd_pending : (cplCmd h f c s).pending = s.pending := by unfold cplCmd whenS; split <;> simp
@[simp] theorem cplCmd_sched : (cplCmd h f c s).sched = s.sched := by unfold cplCmd whenS; split <;> simp
@[simp] theorem cplCmd_obj : (cplCmd h f c s).obj = s.obj := by unfold cplCmd whenS; split <;> simp
@[simp] theorem cplCmd_gen : (cplCmd h f c s).gen = s.gen := by unfold cplCmd whenS; split <;> simp
@[simp] theorem cplCmd_search : (cplCmd h f c s).search = s.search := by unfold cplCmd whenS; split <;> simp
@[simp] theorem cplCmd_mem : (cplCmd h f c s).mem = s.mem := by unfold cplCmd whenS; split <;> simp
@[simp] theorem cplCmd_flash : (cplCmd h f c s).flash = s.flash := by unfold cplCmd whenS; split <;> simp
@[simp] theorem cplCmd_fab : (cplCmd h f c s).fab = s.fab := by unfold cplCmd whenS; split <;> simp
@[simp] theorem cplCmd_boot : (cplCmd h f c s).boot = s.boot := by unfold cplCmd whenS; split <;> simp
@[simp] theorem cplCmd_sec : (cplCmd h f c s).sec = s.sec := by unfold cplCmd whenS; split <;> simp
@[simp] theorem cplCmd_mgmt : (cplCmd h f c s).mgmt = s.mgmt := by unfold cplCmd whenS; split <;> simp
@[simp] theorem cplCmd_free : (cplCmd h f c s).free = s.free := by unfold cplCmd whenS; split <;> simp
@[simp] theorem cplCmd_hif_waits0 : (cplCmd h f c s).hif.waits0 = s.hif.waits0 := by unfold cplCmd whenS; split <;> simp
@[simp] theorem cplCmd_hif_waits1 : (cplCmd h f c s).hif.waits1 = s.hif.waits1 := by unfold cplCmd whenS; split <;> simp
@[simp] theorem cplCmd_hif_notices0 : (cplCmd h f c s).hif.notices0 = s.hif.notices0 := by unfold cplCmd whenS; split <;> simp
@[simp] theorem cplCmd_hif_notices1 : (cplCmd h f c s).hif.notices1 = s.hif.notices1 := by unfold cplCmd whenS; split <;> simp
@[simp] theorem cplCmd_hif_lost0 : (cplCmd h f c s).hif.lost0 = s.hif.lost0 := by unfold cplCmd whenS; split <;> simp
@[simp] theorem cplCmd_hif_lost1 : (cplCmd h f c s).hif.lost1 = s.hif.lost1 := by unfold cplCmd whenS; split <;> simp
@[simp] theorem cplCmd_hif_link : (cplCmd h f c s).hif.link = s.hif.link := by unfold cplCmd whenS; split <;> simp
@[simp] theorem cplCmd_hif_bar4Base : (cplCmd h f c s).hif.bar4Base = s.hif.bar4Base := by unfold cplCmd whenS; split <;> simp
@[simp] theorem cplCmd_hif_bar4Denied : (cplCmd h f c s).hif.bar4Denied = s.hif.bar4Denied := by unfold cplCmd whenS; split <;> simp
@[simp] theorem cplCmd_regs_evcFreeze : (cplCmd h f c s).regs.evcFreeze = s.regs.evcFreeze := by unfold cplCmd whenS; split <;> simp
@[simp] theorem cplCmd_regs_latched : (cplCmd h f c s).regs.latched = s.regs.latched := by unfold cplCmd whenS; split <;> simp
@[simp] theorem cplCmd_regs_held : (cplCmd h f c s).regs.held = s.regs.held := by unfold cplCmd whenS; split <;> simp
@[simp] theorem cplCmd_regs_badAccess : (cplCmd h f c s).regs.badAccess = s.regs.badAccess := by unfold cplCmd whenS; split <;> simp
@[simp] theorem cplCmd_regs_readValue : (cplCmd h f c s).regs.readValue = s.regs.readValue := by unfold cplCmd whenS; split <;> simp
end

section
variable (h : HostCmd) (f : Fetched) (st d : Nat) (s : State)
@[simp] theorem cplStatus_pending : (cplStatus h f st d s).pending = s.pending := by simp [cplStatus]
@[simp] theorem cplStatus_sched : (cplStatus h f st d s).sched = s.sched := by simp [cplStatus]
@[simp] theorem cplStatus_obj : (cplStatus h f st d s).obj = s.obj := by simp [cplStatus]
@[simp] theorem cplStatus_gen : (cplStatus h f st d s).gen = s.gen := by simp [cplStatus]
@[simp] theorem cplStatus_search : (cplStatus h f st d s).search = s.search := by simp [cplStatus]
@[simp] theorem cplStatus_mem : (cplStatus h f st d s).mem = s.mem := by simp [cplStatus]
@[simp] theorem cplStatus_flash : (cplStatus h f st d s).flash = s.flash := by simp [cplStatus]
@[simp] theorem cplStatus_fab : (cplStatus h f st d s).fab = s.fab := by simp [cplStatus]
@[simp] theorem cplStatus_boot : (cplStatus h f st d s).boot = s.boot := by simp [cplStatus]
@[simp] theorem cplStatus_sec : (cplStatus h f st d s).sec = s.sec := by simp [cplStatus]
@[simp] theorem cplStatus_mgmt : (cplStatus h f st d s).mgmt = s.mgmt := by simp [cplStatus]
@[simp] theorem cplStatus_free : (cplStatus h f st d s).free = s.free := by simp [cplStatus]
@[simp] theorem cplStatus_hif_waits0 : (cplStatus h f st d s).hif.waits0 = s.hif.waits0 := by simp [cplStatus]
@[simp] theorem cplStatus_hif_waits1 : (cplStatus h f st d s).hif.waits1 = s.hif.waits1 := by simp [cplStatus]
@[simp] theorem cplStatus_hif_notices0 : (cplStatus h f st d s).hif.notices0 = s.hif.notices0 := by simp [cplStatus]
@[simp] theorem cplStatus_hif_notices1 : (cplStatus h f st d s).hif.notices1 = s.hif.notices1 := by simp [cplStatus]
@[simp] theorem cplStatus_hif_lost0 : (cplStatus h f st d s).hif.lost0 = s.hif.lost0 := by simp [cplStatus]
@[simp] theorem cplStatus_hif_lost1 : (cplStatus h f st d s).hif.lost1 = s.hif.lost1 := by simp [cplStatus]
@[simp] theorem cplStatus_hif_link : (cplStatus h f st d s).hif.link = s.hif.link := by simp [cplStatus]
@[simp] theorem cplStatus_hif_bar4Base : (cplStatus h f st d s).hif.bar4Base = s.hif.bar4Base := by simp [cplStatus]
@[simp] theorem cplStatus_hif_bar4Denied : (cplStatus h f st d s).hif.bar4Denied = s.hif.bar4Denied := by simp [cplStatus]
@[simp] theorem cplStatus_regs_evcFreeze : (cplStatus h f st d s).regs.evcFreeze = s.regs.evcFreeze := by simp [cplStatus]
@[simp] theorem cplStatus_regs_latched : (cplStatus h f st d s).regs.latched = s.regs.latched := by simp [cplStatus]
@[simp] theorem cplStatus_regs_held : (cplStatus h f st d s).regs.held = s.regs.held := by simp [cplStatus]
@[simp] theorem cplStatus_regs_badAccess : (cplStatus h f st d s).regs.badAccess = s.regs.badAccess := by simp [cplStatus]
@[simp] theorem cplStatus_regs_readValue : (cplStatus h f st d s).regs.readValue = s.regs.readValue := by simp [cplStatus]
end

end Sys2Proof.Machine
end

