-- ==== Sys2Proof/Safety.lean ====
section
/-! DEFINITION. What the statements about runs are said in: the invariant of the block, ring commands at hand, and the parts of
the state a command may touch. -/

namespace Sys2Proof.Machine

/-- What holds of the block in every state a run reaches: host memory keeps its canonical form, the service level is one of the
four of 17 R638, and no record held is numbered above EVR_LAST (19 R716). -/
def Good (s : State) : Prop :=
  memWf s.hif.hostMem = true ∧ s.boot.level ≤ 3 ∧ ∀ r ∈ s.mgmt.records, r.seq ≤ s.mgmt.lastSeq

/-- What holds of the pages and links in every state a run reaches: every page has its eight counters (20 R737), and no internal link is set
in both of the global link registers, whose bits from 54 on are zero (20 R750). -/
def Sound (s : State) : Prop :=
  (∀ p, (pageOf s p).evcs.length = 8) ∧ s.boot.linkFailed &&& s.boot.linkDegraded = 0 ∧ s.boot.linkFailed.toNat < 2 ^ 54 ∧
    s.boot.linkDegraded.toNat < 2 ^ 54

/-- A ring command at hand: it is taken from its queue pair as `f`, leaving `t`; its slot holds no reserved bit, and its queue
pair and the service level serve it (15 R563, R575, R777; 17 R638). -/
def Taken (op : Nat) (h : HostCmd) (s : State) (f : Fetched) (t : State) : Prop :=
  cmdOp h = op ∧ takeCmd h s = some (f, t) ∧ slotFault op h = none ∧ queueAllowed op h.qp = true ∧
    levelAllows t.boot.level op = true

/-- Nothing but the host interface and the register pages differs. -/
def HostOnly (s t : State) : Prop := t = { s with hif := t.hif, regs := t.regs }

/-- Nothing but the named part, the host interface and the register pages differs: the parts that an effect with a completion,
a message or a counted event touches. -/
def SchedOnly (s t : State) : Prop := t = { s with sched := t.sched, hif := t.hif, regs := t.regs }
def ObjOnly (s t : State) : Prop := t = { s with obj := t.obj, hif := t.hif, regs := t.regs }
def GenOnly (s t : State) : Prop := t = { s with gen := t.gen, hif := t.hif, regs := t.regs }
def SearchOnly (s t : State) : Prop := t = { s with search := t.search, hif := t.hif, regs := t.regs }
def MemOnly (s t : State) : Prop := t = { s with mem := t.mem, hif := t.hif, regs := t.regs }
def FlashOnly (s t : State) : Prop := t = { s with flash := t.flash, hif := t.hif, regs := t.regs }
def FabOnly (s t : State) : Prop := t = { s with fab := t.fab, hif := t.hif, regs := t.regs }
def BootOnly (s t : State) : Prop := t = { s with boot := t.boot, hif := t.hif, regs := t.regs }
def SecOnly (s t : State) : Prop := t = { s with sec := t.sec, hif := t.hif, regs := t.regs }
def MgmtOnly (s t : State) : Prop := t = { s with mgmt := t.mgmt, hif := t.hif, regs := t.regs }

/-- The hubs have taken writes or dropped units: nothing but the flash, its open choices and what it counts differs. -/
def FlashWork (s t : State) : Prop :=
  t = { s with flash := t.flash, free := t.free, hif := t.hif, regs := t.regs } ∧ t.hif.hostMem = s.hif.hostMem ∧ t.hif.qps = s.hif.qps

/-- A collection's change, and the hubs' writes that it makes (13 R486). -/
def CollChanged (k : Nat) (c : Collection) (s t : State) : Prop :=
  mget t.obj.collections k = some c ∧ (∀ j, j ≠ k → mget t.obj.collections j = mget s.obj.collections j) ∧
    FlashWork { s with obj := { s.obj with collections := t.obj.collections } } t

/-- A table's change, and the hubs' writes that it makes (13 R486). -/
def TableChanged (k : Nat) (x : Table) (s t : State) : Prop :=
  mget t.obj.tables k = some x ∧ (∀ j, j ≠ k → mget t.obj.tables j = mget s.obj.tables j) ∧
    FlashWork { s with obj := { s.obj with tables := t.obj.tables } } t

/-- Nothing but the objects, the pacers' records and what they count differs. -/
def ObjAndRecords (s t : State) : Prop :=
  t = { s with obj := t.obj, mgmt := t.mgmt, hif := t.hif, regs := t.regs } ∧ t.hif.hostMem = s.hif.hostMem ∧ t.hif.qps = s.hif.qps

/-- Whether a channel's spares of a partition have been noted as low (13 R496). -/
def spareLowNoted (s : State) (ch part : Nat) : Bool :=
  if part = 0 then (channelOf s ch).sprintLow else (channelOf s ch).storeLow

/-- Host memory reads as before outside `n` bytes from `a`. -/
def HostBytesKept (s t : State) (a n : Nat) : Prop :=
  ∀ j, (j < a ∨ a + n ≤ j) → memGet t.hif.hostMem j = memGet s.hif.hostMem j

/-- A table's version, and a row of it that is not in HOME (11 R401, R423). -/
def versionOf (s : State) (slot v : Nat) : Option Version := (mget s.obj.tables slot).bind fun t => mget t.versions v
def hotOf (s : State) (slot v row : Nat) : Option HotRow := (versionOf s slot v).bind fun x => mget x.hot row

/-- A packet for this module, on the fabric, that is no part of a train (16 R602, R618). -/
def ToMe (p : Packet) (s : State) : Prop := p.dst = s.fab.id ∧ s.fab.state = .admitted ∧ p.account / 32768 % 2 = 0

/-- A request for this module whose turn has come, with none held early (16 R611). -/
def InTurn (p : Packet) (s : State) : Prop :=
  ToMe p s ∧ p.pairSeq = (pairOf s p.src).rxNext ∧ (pairOf s p.src).early = []

/-- A management packet from the recorded anchor for this module (16 R605). -/
def FromAnchor (p : Packet) (s : State) : Prop := p.dst = s.fab.id ∧ s.fab.state ≠ .unassigned ∧ p.src = s.fab.anchorId

/-- Another module that this one, on the fabric, has a route to (16 R606, R607). -/
def Routed (dst : Nat) (s : State) : Prop :=
  dst ≠ s.fab.id ∧ (s.fab.state = .admitted ∨ s.fab.state = .leaving) ∧ (routeEntry s.fab dst).getLsbD 13 = true ∧
    (levelAfter (routeEntry s.fab dst) 0).isSome = true

/-- A PLDM or MCTP request is answered with a completion code and bytes, and nothing else changes (19 R695, R697). -/
def Answered (binding code : Nat) (b : Bytes) (s t : State) : Prop :=
  t = { s with mgmt := { s.mgmt with answers := (binding, code, b) :: s.mgmt.answers } }

/-- The module has been reset for a cause (20 R753; 17 R637, R639): the cause and the count of bring-ups are kept, no request, search, unit
or session is left, and nothing is served. -/
def HasReset (cause : Nat) (s t : State) : Prop :=
  t.boot.resetCause = cause ∧ t.boot.bootCount = (s.boot.bootCount + 1) % 2 ^ 32 ∧ t.boot.level = 0 ∧ t.gen = {} ∧ t.search = {} ∧
    t.sched.units = [] ∧ t.sec.sessions = [] ∧ t.hif.qps = [] ∧ t.hif.hostMem = s.hif.hostMem

/-- The hand-over has begun: the hubs take no more writes, nothing is served, and every buffered snapshot set is flushed (21 R759). -/
def HandingOver (t : State) : Prop :=
  t.boot.handover = true ∧ t.boot.level = 0 ∧ t.flash.stopped = true ∧ ∀ x ∈ t.mgmt.snaps, x.flushed = true

/-- A live-service operation has started (17 R662, R663). -/
def Serving (op target : Nat) (t : State) : Prop :=
  (t.boot.lsOp.map fun o => (o.op, o.target)) = some (op, target) ∧ t.boot.lsValid = false ∧ t.boot.lsProgress = 0

/-- An owner has a key set drawn afresh, and its one key entry is the valid wrapping of that set, with a write count above those
before (18 R678, R679); no other owner's keys change. -/
def NewKeys (a : Nat) (s t : State) : Prop :=
  mget t.sec.keySets a = some (s.sec.keyDraws + 1) ∧ t.sec.keyDraws = s.sec.keyDraws + 1 ∧
    mget t.sec.keyFlash a = some [{ set := s.sec.keyDraws + 1, count := topCount (mgetD s.sec.keyFlash a []) + 1
                                    bytes := Config.keyWrap kekBytes (Config.dataKeys (s.sec.keyDraws + 1)), valid := true }] ∧
    (∀ b, b ≠ a → mget t.sec.keySets b = mget s.sec.keySets b ∧ mget t.sec.keyFlash b = mget s.sec.keyFlash b) ∧
    t.sec = { s.sec with keySets := t.sec.keySets, keyDraws := t.sec.keyDraws, keyFlash := t.sec.keyFlash }

/-- LS_CMD is answered with a result, and nothing else changes (17 R663). -/
def LsRefused (op result : Nat) (s t : State) : Prop :=
  t = { s with boot := { s.boot with lsResult := result, lsValid := true, lsLast := op } }

/-- A message goes out on a mailbox (18 R675). -/
def Says (mailbox : Nat) (b : Bytes) (s t : State) : Prop := t.sec.responses = (mailbox, b) :: s.sec.responses

end Sys2Proof.Machine
end

