-- ==== Sys2Proof/Certificates/Slice0/Obligations.lean ====
section
/-! DEFINITION. The statements about the block, by chapter of the spec. -/

open Sys2Proof Sys2Proof.Machine


/-! ### The queue and the interface -/

/-- A command at the front of the queue runs on the state with the queue's rest. -/
def Obligations.step_runs_the_front_command : Prop :=
  ∀ (c : Instr) (rest : List Instr) (s : State), step { s with pending := c :: rest } = exec c { s with pending := rest }

/-- On an empty queue one cycle of the I/O die passes, in which nothing has yet been freed (00 R776), and the queue stays empty (the model's choice: assumption 1); module time
never steps back (19 R704). -/
def Obligations.empty_queue_lets_one_cycle_pass : Prop :=
  ∀ s : State, s.pending = [] → ∃ t, step s = .next t ∧ t.pending = [] ∧ t.boot = { s.boot with cycles := s.boot.cycles + 1, freed := [] } ∧
    now s ≤ now t ∧ BootOnly s t

/-- Every command, in every state, answers a next state in which what waits behind it is what runs next. -/
def Obligations.commands_answer_and_keep_the_queue : Prop :=
  ∀ (c : Instr) (s : State), ∃ t, exec c s = .next t ∧ t.pending = s.pending

/-- The invariant `Good` is kept by every step: host memory keeps its canonical form, the service level stays one of the four,
and no record is numbered above EVR_LAST. -/
def Obligations.every_step_keeps_good : Prop :=
  ∀ s t : State, Good s → step s = .next t → Good t

/-- Every step keeps the eight counters of each page, and no internal link is ever set in both of the link registers, whose bits from 54
on stay zero (20 R737, R750). -/
def Obligations.every_step_keeps_sound : Prop :=
  ∀ s t : State, Sound s → step s = .next t → Sound t

/-- Both invariants hold at reset. -/
def Obligations.reset_is_good : Prop := Good State.reset ∧ Sound State.reset

/-! ### Completions, doorbells, queue pairs (15) -/

/-- A completion writes its 32 bytes at the completion tail with the current phase, moves the tail by one entry modulo the ring,
flips the phase at the wrap and returns the reserved entry; no other byte of host memory changes (15 R563, R564, R581).  A
command ended by its function's disable writes nothing (15 R584).
A ring command that is taken leaves everything but its queue pair, the counters of the host interface page and, of an INGEST_COMMIT or
INGEST_ABORT, the session it closes to later operations (07 R249). -/
def Obligations.completing_and_taking_touch_only_their_part : Prop :=
  (∀ (q : Nat) (c : Cpl) (s : State), fnLive s ((qpFn s q).getD 0) = true →
    memRead (complete q c s).hif.hostMem (cplAddr (qpOf s q)) 32 = c.bytes q (qpOf s q).phase ∧
    HostBytesKept s (complete q c s) (cplAddr (qpOf s q)) 32 ∧
    (qpOf (complete q c s) q).cqTail = (if cqSize (qpOf s q) ≤ (qpOf s q).cqTail + 1 then 0 else (qpOf s q).cqTail + 1) ∧
    (qpOf (complete q c s) q).phase = (if cqSize (qpOf s q) ≤ (qpOf s q).cqTail + 1 then !(qpOf s q).phase else (qpOf s q).phase) ∧
    (qpOf (complete q c s) q).cqUsed = (qpOf s q).cqUsed + 1 ∧ (qpOf (complete q c s) q).reserved = (qpOf s q).reserved - 1 ∧
    (∀ j, j ≠ q → qpOf (complete q c s) j = qpOf s j) ∧ HostOnly s (complete q c s)) ∧
  (∀ (q : Nat) (c : Cpl) (s : State), fnLive s ((qpFn s q).getD 0) = false →
    complete q c s = modQp q (fun x => { x with reserved := x.reserved - 1 }) s) ∧
  (∀ (op : Nat) (h : HostCmd) (s t : State) (f : Fetched), Taken op h s f t →
    (op ≠ 8 → op ≠ 9 → HostOnly s t) ∧
    t = { s with hif := t.hif, regs := t.regs, obj := { s.obj with collections := t.obj.collections } } ∧
    t.hif.hostMem = s.hif.hostMem ∧ ∀ j, j ≠ h.qp → qpOf t j = qpOf s j)

/-- Doorbells of an enabled queue pair of a live function (15 R561, R562): the SQ tail announces slots, the CQ head returns
entries, for use from the next cycle (00 R776), the stream head returns bytes; nothing else of the block changes.
Each bad doorbell value puts its queue pair in error with the cause of 15 R562. -/
def Obligations.doorbells : Prop :=
  (∀ (fn q k v : Nat) (s : State), fnLive s fn = true → ownQp s fn q = some k → (qpOf s k).enable = true →
    v % 65536 < sqSize (qpOf s k) → v % 65536 ≠ (qpOf s k).sqTail →
    ∃ t, exec (.sqTailDoorbell fn q v) s = .next t ∧ (qpOf t k).sqTail = v % 65536 ∧
      qpOf t k = { qpOf s k with sqTail := v % 65536, observed := (qpOf s k).observed ++ [(v % 65536, now s)] } ∧
      (∀ j, j ≠ k → qpOf t j = qpOf s j) ∧ t = { s with hif := { s.hif with qps := t.hif.qps } }) ∧
  (∀ (fn q k v : Nat) (s : State), fnLive s fn = true → ownQp s fn q = some k → (qpOf s k).enable = true →
    v % 65536 < cqSize (qpOf s k) → ringDist (cqSize (qpOf s k)) (qpOf s k).cqHead (v % 65536) ≤ (qpOf s k).cqUsed →
    ∃ t, exec (.cqHeadDoorbell fn q v) s = .next t ∧ (qpOf t k).cqHead = v % 65536 ∧
      (qpOf t k).cqUsed + ringDist (cqSize (qpOf s k)) (qpOf s k).cqHead (v % 65536) = (qpOf s k).cqUsed ∧
      (qpOf t k).err = (qpOf s k).err ∧ (∀ j, j ≠ k → qpOf t j = qpOf s j) ∧
      freedCount t (.cpl k) = freedCount s (.cpl k) + ringDist (cqSize (qpOf s k)) (qpOf s k).cqHead (v % 65536) ∧
      t = { s with hif := { s.hif with qps := t.hif.qps }, boot := { s.boot with freed := t.boot.freed } }) ∧
  (∀ (fn q k v : Nat) (s : State), fnLive s fn = true → ownQp s fn q = some k → (qpOf s k).enable = true →
    (qpOf s k).consumed + (v % 2 ^ 32 + 2 ^ 32 - (qpOf s k).consumed % 2 ^ 32) % 2 ^ 32 ≤ (qpOf s k).produced →
    ∃ t, exec (.streamHeadDoorbell fn q v) s = .next t ∧ (qpOf t k).consumed % 2 ^ 32 = v % 2 ^ 32 ∧
      (qpOf s k).consumed ≤ (qpOf t k).consumed ∧ (qpOf t k).consumed ≤ (qpOf t k).produced ∧
      (∀ j, j ≠ k → qpOf t j = qpOf s j) ∧ t = { s with hif := { s.hif with qps := t.hif.qps } }) ∧
  (∀ (fn q k v : Nat) (s : State), fnLive s fn = true → ownQp s fn q = some k → (qpOf s k).enable = true → (qpOf s k).err = false →
    sqSize (qpOf s k) ≤ v % 65536 →
    ∃ t, exec (.sqTailDoorbell fn q v) s = .next t ∧ qpOf t k = { qpOf s k with err := true, cause := 1 }) ∧
  (∀ (fn q k v : Nat) (s : State), fnLive s fn = true → ownQp s fn q = some k → (qpOf s k).enable = true → (qpOf s k).err = false →
    (cqSize (qpOf s k) ≤ v % 65536 ∨ (qpOf s k).cqUsed < ringDist (cqSize (qpOf s k)) (qpOf s k).cqHead (v % 65536)) →
    ∃ t, exec (.cqHeadDoorbell fn q v) s = .next t ∧ qpOf t k = { qpOf s k with err := true, cause := 2 }) ∧
  (∀ (fn q k v : Nat) (s : State), fnLive s fn = true → ownQp s fn q = some k → (qpOf s k).enable = true → (qpOf s k).err = false →
    (qpOf s k).produced < (qpOf s k).consumed + (v % 2 ^ 32 + 2 ^ 32 - (qpOf s k).consumed % 2 ^ 32) % 2 ^ 32 →
    ∃ t, exec (.streamHeadDoorbell fn q v) s = .next t ∧ qpOf t k = { qpOf s k with err := true, cause := 3 }) ∧
  (∀ (q : Nat) (e : DmaError) (s : State), (qpOf s q).err = false →
    ∃ t, exec (.dmaReadError (.ring q) e) s = .next t ∧ qpOf t q = { qpOf s q with err := true, cause := 4 })

/-- Enabling clears the indices and sets the phase, a size or base out of range gives err with cause 5, disabling clears enable
alone, and QP_FIND answers the lowest bound queue pair at or above its argument (15 R559, R560, R568). -/
def Obligations.queue_pair_control : Prop :=
  (∀ (fn q k : Nat) (s : State), ownQp s fn q = some k → fnLive s fn = true → (qpOf s k).enable = false →
    sizesOk (isAdmin k) (qpOf s k) = true →
    ∃ t, exec (.qpEnable fn q) s = .next t ∧ (qpOf t k).enable = true ∧ (qpOf t k).err = false ∧ (qpOf t k).sqHead = 0 ∧
      (qpOf t k).sqTail = 0 ∧ (qpOf t k).cqTail = 0 ∧ (qpOf t k).cqHead = 0 ∧ (qpOf t k).produced = 0 ∧ (qpOf t k).phase = true ∧
      (qpOf t k).bound = (qpOf s k).bound ∧ (∀ j, j ≠ k → qpOf t j = qpOf s j) ∧ t = { s with hif := { s.hif with qps := t.hif.qps } }) ∧
  (∀ (fn q k : Nat) (s : State), ownQp s fn q = some k → fnLive s fn = true → (qpOf s k).enable = false →
    sizesOk (isAdmin k) (qpOf s k) = false →
    ∃ t, exec (.qpEnable fn q) s = .next t ∧ qpOf t k = { qpOf s k with err := true, cause := 5 }) ∧
  (∀ (fn q k : Nat) (s : State), ownQp s fn q = some k →
    ∃ t, exec (.qpDisable fn q) s = .next t ∧ qpOf t k = { qpOf s k with enable := false } ∧
      (∀ j, j ≠ k → qpOf t j = qpOf s j) ∧ t = { s with hif := { s.hif with qps := t.hif.qps } }) ∧
  (∀ (fn q : Nat) (s : State), ∃ t, exec (.qpFind fn q) s = .next t ∧
      fnOf t fn = { fnOf s fn with qpFind := findQp s fn (q % 0x4000) } ∧ t = { s with hif := { s.hif with fns := t.hif.fns } })

/-- The moderation timer sends the queue pair's message and returns its pending events to zero; clearing a mask sends what it
held (15 R573).
The BAR4 window (15 R557): a whole-line write to a line of a served kind stores its bytes there, under the keys in use (12 R445), and
clears poison, and one
to a line of another kind is dropped and counted. -/
def Obligations.interrupt_messages_and_the_bar4_window : Prop :=
  (∀ (q : Nat) (s : State), (qpOf s q).irq.getLsbD 11 = true → 0 < bitsOf (qpOf s q).irq.toNat 31 20 → 0 < (qpOf s q).events →
    ∃ t, exec (.irqModerationTimer q) s = .next t ∧ (qpOf t q).events = 0 ∧ (∀ j, j ≠ q → qpOf t j = qpOf s j) ∧ BootOnly s t ∧
      t.boot.cycles = max s.boot.cycles (cycleOfNs ((qpOf s q).firstEvent + 1000 * bitsOf (qpOf s q).irq.toNat 31 20))) ∧
  (∀ (fn : Nat) (s : State), ∃ t, exec (.msixUnmask fn none) s = .next t ∧ (fnOf t fn).fnMask = false ∧
      t.hif.qps = s.hif.qps ∧ t.hif.hostMem = s.hif.hostMem ∧ HostOnly s t) ∧
  (∀ (fn v : Nat) (s : State), ∃ t, exec (.msixUnmask fn (some v)) s = .next t ∧ v ∉ (fnOf t fn).vecMask ∧
      t.hif.qps = s.hif.qps ∧ t.hif.hostMem = s.hif.hostMem ∧ HostOnly s t) ∧
  (∀ (a : Nat) (b : Bytes) (s : State), b.length = 64 → a % 64 = 0 → a < 64 * 2 ^ 30 →
    bar4Serves (lineAt s ((bar4Start s + a) / 64)).kind = true →
    ∃ t, exec (.bar4Access a 64 (some b)) s = .next t ∧
      lineAt t ((bar4Start s + a) / 64) = sealLine s ((bar4Start s + a) / 64)
        { lineAt s ((bar4Start s + a) / 64) with data := b, poison := false, errBits := [] } ∧
      linePlain t ((bar4Start s + a) / 64) (lineAt t ((bar4Start s + a) / 64)) = b ∧
      (∀ l, l ≠ (bar4Start s + a) / 64 → lineAt t l = lineAt s l) ∧ t = { s with mem := { s.mem with lines := t.mem.lines } }) ∧
  (∀ (a : Nat) (b : Bytes) (s : State), b.length = 64 → a % 64 = 0 → a < 64 * 2 ^ 30 →
    bar4Serves (lineAt s ((bar4Start s + a) / 64)).kind = false →
    exec (.bar4Access a 64 (some b)) s = .next { s with hif := { s.hif with bar4Denied := s.hif.bar4Denied + 1 } })

/-- COMMAND_FETCH moves the head past the command's slots and reserves a completion entry (15 R563); ASYNC_WAIT waits when no
notice is queued, takes the oldest notice when one is, and the seventeenth is refused (15 R585). -/
def Obligations.fetches_and_waits : Prop :=
  (∀ (h : HostCmd) (r : CmdRow) (s : State), canFetch s h = true → cmdRow (cmdOp h) = some r →
    ∃ t, exec (.commandFetch h) s = .next t ∧
      (qpOf t h.qp).sqHead = ((qpOf s h.qp).sqHead + cmdCount h) % sqSize (qpOf s h.qp) ∧
      (qpOf t h.qp).reserved = (qpOf s h.qp).reserved + 1 ∧
      (∃ x, (qpOf t h.qp).fetched = (qpOf s h.qp).fetched ++ [x] ∧ x.slots = h.slots ∧ x.sqHead = (qpOf t h.qp).sqHead) ∧
      (∀ j, j ≠ h.qp → qpOf t j = qpOf s j) ∧ t.hif.hostMem = s.hif.hostMem ∧
      (cmdOp h ≠ 8 → cmdOp h ≠ 9 → HostOnly s t)) ∧
  (∀ (h : HostCmd) (s t : State) (f : Fetched), Taken 0x34 h s f t → h.qp = 0x4000 → t.hif.notices0 = [] → t.hif.waits0.length < 16 →
    exec (.asyncWait h) s = .next { t with hif := { t.hif with waits0 := t.hif.waits0 ++ [{ tag := cmdTag h, sqHead := f.sqHead }] } }) ∧
  (∀ (h : HostCmd) (s t : State) (f : Fetched), Taken 0x34 h s f t → h.qp = 0x4001 → t.hif.notices1 = [] → t.hif.waits1.length < 16 →
    exec (.asyncWait h) s = .next { t with hif := { t.hif with waits1 := t.hif.waits1 ++ [{ tag := cmdTag h, sqHead := f.sqHead }] } }) ∧
  (∀ (h : HostCmd) (n : Notice) (ns : List Notice) (s t : State) (f : Fetched), Taken 0x34 h s f t → h.qp = 0x4000 → t.hif.notices0 = n :: ns →
    exec (.asyncWait h) s = .next (cplCmd h f { tag := 0, status := n.status, result := noticeResult n }
      { t with hif := { t.hif with notices0 := ns } })) ∧
  (∀ (h : HostCmd) (s t : State) (f : Fetched), Taken 0x34 h s f t → h.qp = 0x4000 → t.hif.notices0 = [] → 16 ≤ t.hif.waits0.length →
    exec (.asyncWait h) s = .next (cplStatus h f Status.noResources 0 t))

/-! ### Accounts and functions (14, 15) -/

/-- Accounts are created, updated and deleted, creation and deletion draw the account a new key set, kept wrapped (18 R678, R679), and the
deletion's scrub empties the account's lines (14 R517, R518, R521).
Queue pairs are bound and unbound, and the accounting log moves its oldest records to the host (14 R523, R542). -/
def Obligations.accounts_and_bindings : Prop :=
  (∀ (h : HostCmd) (a : Nat) (r : AcctRec) (s t : State) (f : Fetched), Taken 0x2D h s f t → parseAccount (cmdBody h 32) = some (a, r) →
    t.sec.unlocked = false → acctExists t a = false → t.sched.scrubbing.contains a = false →
    ∃ u, exec (.accountCreate h) s = .next (cplStatus h f Status.ok 0 u) ∧ mget u.sched.accounts a = some { record := r } ∧
      (∀ j, j ≠ a → mget u.sched.accounts j = mget t.sched.accounts j) ∧ NewKeys a t u ∧
      u = { t with sched := { t.sched with accounts := u.sched.accounts }, sec := u.sec }) ∧
  (∀ (h : HostCmd) (a : Nat) (r : AcctRec) (x : Account) (s t : State) (f : Fetched), Taken 0x2E h s f t →
    parseAccount (cmdBody h 32) = some (a, r) → mget t.sched.accounts a = some x →
    ∃ u, exec (.accountUpdate h) s = .next (cplStatus h f Status.ok 0 u) ∧ mget u.sched.accounts a = some { x with record := r } ∧
      (∀ j, j ≠ a → mget u.sched.accounts j = mget t.sched.accounts j) ∧
      u = { t with sched := { t.sched with accounts := u.sched.accounts } }) ∧
  (∀ (h : HostCmd) (x : Account) (s t : State) (f : Fetched), Taken 0x2F h s f t →
    mget t.sched.accounts (cmdAux h % 4096) = some x → acctHolds t (cmdAux h % 4096) = false →
    ∃ u, exec (.accountDelete h) s = .next (cplStatus h f Status.ok 0 u) ∧ mget u.sched.accounts (cmdAux h % 4096) = none ∧
      (∀ j, j ≠ cmdAux h % 4096 → mget u.sched.accounts j = mget t.sched.accounts j) ∧ cmdAux h % 4096 ∈ u.sched.scrubbing ∧
      mgetD u.sched.keygen (cmdAux h % 4096) 0 = (mgetD t.sched.keygen (cmdAux h % 4096) 0 + 1) % 16 ∧
      u.sched.log.getLast? = some (deletedRecord (cmdAux h % 4096) (now t) x.ctr) ∧
      NewKeys (cmdAux h % 4096) t u ∧ u = { t with sched := u.sched, sec := u.sec }) ∧
  (∀ (a : Nat) (s : State), s.sched.scrubbing.contains a = true →
    ∃ t, exec (.accountScrubEnd a) s = .next t ∧ (∀ l, l ∈ t.mem.lines → ¬ (l.2.kind = 0 ∧ l.2.owner = a)) ∧
      (∀ l, l ∈ s.mem.lines → ¬ (l.2.kind = 0 ∧ l.2.owner = a) → l ∈ t.mem.lines) ∧ t.sched.scrubbing = s.sched.scrubbing.erase a ∧
      t = { s with mem := { s.mem with lines := t.mem.lines }, sched := { s.sched with scrubbing := t.sched.scrubbing } }) ∧
  (∀ (h : HostCmd) (s t : State) (f : Fetched), Taken 0x30 h s f t → (qpOf t (cmdAux h % 16384)).bound = none →
    acctExists t (bitsOf (cmdParam h) 27 16) = true → cmdParam h % 1024 ≤ 513 → fnLive t (cmdParam h % 1024) = true →
    ∃ u, exec (.qpBind h) s = .next (cplStatus h f Status.ok 0 u) ∧
      qpOf u (cmdAux h % 16384) = { qpOf t (cmdAux h % 16384) with bound := some (cmdParam h % 1024, bitsOf (cmdParam h) 27 16) } ∧
      (∀ j, j ≠ cmdAux h % 16384 → qpOf u j = qpOf t j) ∧ u = { t with hif := { t.hif with qps := u.hif.qps } }) ∧
  (∀ (h : HostCmd) (s t : State) (f : Fetched), Taken 0x31 h s f t → (qpOf t (cmdAux h % 16384)).bound.isSome = true →
    (∀ e, e ∈ t.gen.entries → e.2.qp ≠ cmdAux h % 16384) →
    ∃ u, exec (.qpUnbind h) s = .next (cplStatus h f Status.ok 0 u) ∧
      qpOf u (cmdAux h % 16384) = { qpOf t (cmdAux h % 16384) with bound := none } ∧
      (∀ j, j ≠ cmdAux h % 16384 → qpOf u j = qpOf t j) ∧ u = { t with hif := { t.hif with qps := u.hif.qps } }) ∧
  (∀ (h : HostCmd) (s t : State) (f : Fetched), Taken 0x33 h s f t → cmdLen0 h % 128 = 0 →
    ∃ u, exec (.acctLogRead h) s = .next (cplCmd h f { tag := 0, status := Status.ok, result := min (cmdLen0 h / 128) t.sched.log.length } u) ∧
      u.sched = { t.sched with log := t.sched.log.drop (min (cmdLen0 h / 128) t.sched.log.length) } ∧
      u.hif.hostMem = memWrite t.hif.hostMem (cmdAddr0 h) (t.sched.log.take (min (cmdLen0 h / 128) t.sched.log.length)).flatten ∧
      HostBytesKept t u (cmdAddr0 h) (t.sched.log.take (min (cmdLen0 h / 128) t.sched.log.length)).flatten.length ∧ SchedOnly t u)

/-- Disabling a function (14 R541): each way begins one, noting its time; bus-master clear, VF-enable clear and D3hot leave the
function disabled; it completes when no entry of the function is left, with its queue pairs reading enable 0 and idle 1. -/
def Obligations.function_disables : Prop :=
  (∀ (h : HostCmd) (s t : State) (f : Fetched), Taken 0x32 h s f t → (fnOf t (2 + cmdAux h % 512)).disabling = none →
    (∀ e, e ∈ t.gen.entries → e.2.fn ≠ 2 + cmdAux h % 512) →
    ∃ u, exec (.fnDisable h) s = .next (cplStatus h f Status.ok 0 u) ∧ (fnOf u (2 + cmdAux h % 512)).disabling = some (now t) ∧
      ∀ q, q ∈ qpsOf t (2 + cmdAux h % 512) → (qpOf u q).fetched = []) ∧
  (∀ (fn : Nat) (s : State), 1 ≤ fn → fn ≤ 513 → (fnOf s fn).disabling = none → (∀ e, e ∈ s.gen.entries → e.2.fn ≠ fn) →
    ∃ u, exec (.functionLevelReset fn) s = .next u ∧ (fnOf u fn).disabling = some (now s) ∧ (fnOf u fn).enabled = (fnOf s fn).enabled) ∧
  (∀ (s : State), (fnOf s 0).disabling = none → s.gen.entries = [] → s.obj.collections = [] → s.gen.batons = [] →
    ∃ u, exec (.functionLevelReset 0) s = .next u ∧ (fnOf u 0).disabling = some (now s) ∧
      ∀ v, 2 ≤ v → v ≤ 513 → (fnOf u v).disabling.isSome = true ∧ (fnOf u v).enabled = (fnOf s v).enabled) ∧
  (∀ (fn : Nat) (s : State), fn ≤ 513 → (fnOf s fn).disabling = none → (∀ e, e ∈ s.gen.entries → e.2.fn ≠ fn) →
    ∃ u, exec (.busMasterClear fn) s = .next u ∧ (fnOf u fn).disabling = some (now s) ∧ (fnOf u fn).enabled = false) ∧
  (∀ (fn : Nat) (s : State), fn ≤ 513 → (fnOf s fn).disabling = none → (∀ e, e ∈ s.gen.entries → e.2.fn ≠ fn) →
    ∃ u, exec (.d3hotEntry fn) s = .next u ∧ (fnOf u fn).disabling = some (now s) ∧ (fnOf u fn).enabled = false ∧ (fnOf u fn).d3hot = true) ∧
  (∀ (fn : Nat) (s : State), 2 ≤ fn → fn ≤ 513 → s.gen.entries = [] → s.obj.collections = [] → s.gen.batons = [] →
    ∃ u, exec .vfEnableClear s = .next u ∧ (fnOf u fn).enabled = false ∧ (fnOf u fn).disabling.isSome = true) ∧
  (∀ (fn : Nat) (s : State), (fnOf s fn).disabling.isSome = true → (∀ e, e ∈ s.gen.entries → e.2.fn ≠ fn) →
    ∃ u, exec (.functionDisableComplete fn) s = .next u ∧ (fnOf u fn).disabling = none ∧
      (∀ q, q ∈ qpsOf s fn → (qpOf u q).enable = false ∧ (qpOf u q).reserved = 0 ∧ (qpOf u q).bound = (qpOf s q).bound) ∧
      (∀ l, l ∈ u.regs.latched → l.1 ≠ fn) ∧ (∀ l, l ∈ u.regs.held → l.1 ≠ fn) ∧
      u = { s with hif := u.hif, regs := { s.regs with latched := u.regs.latched, held := u.regs.held } })

/-! ### Profiles, tokenizers, templates (01, 06, 09) -/

/-- A profile is loaded under its profile_id and the version it replaces drains while requests use it (01 R22, R27, R28); an unload
leaves none; a load or unload that finds a version draining waits, and is answered when the drain has ended; a record that breaks R22 is
refused.
Tokenizers and templates are loaded under their IDs when their objects hold, into the lowest free slot, and unloaded while no
loaded profile names them (06 R187 to R192; 09 R334 to R336). -/
def Obligations.profiles_tokenizers_and_templates : Prop :=
  (∀ (h : HostCmd) (k : Nat) (x : ProfileSlot) (s t : State) (f : Fetched), Taken 0x20 h s f t → k = rd (cmdBody h 128) 0 1 → k < 64 →
    x = mgetD t.obj.profiles k {} → x.draining = none → x.held = [] → profileOk t (cmdBody h 128) = true →
    ∃ u, exec (.profileLoad h) s = .next (cplStatus h f Status.ok 0 u) ∧
      mget u.obj.profiles k = some { cur := some (profileOf (cmdBody h 128)), draining := x.cur.filter (profileUsed t), held := [] } ∧
      u = { t with obj := u.obj, flash := u.flash }) ∧
  (∀ (h : HostCmd) (s t : State) (f : Fetched), Taken 0x20 h s f t → rd (cmdBody h 128) 0 1 < 64 →
    (mgetD t.obj.profiles (rd (cmdBody h 128) 0 1) {}).draining = none → (mgetD t.obj.profiles (rd (cmdBody h 128) 0 1) {}).held = [] →
    profileOk t (cmdBody h 128) = false → exec (.profileLoad h) s = .next (cplStatus h f Status.profileInvalid 0 t)) ∧
  (∀ (h : HostCmd) (k : Nat) (x : ProfileSlot) (s t : State) (f : Fetched), Taken 0x20 h s f t → k = rd (cmdBody h 128) 0 1 → k < 64 →
    mget t.obj.profiles k = some x → (x.draining.isSome = true ∨ x.held ≠ []) →
    ∃ u, exec (.profileLoad h) s = .next u ∧ mget u.obj.profiles k = some { x with
        held := x.held ++ [{ qp := h.qp, tag := cmdTag h, sqHead := f.sqHead, record := cmdBody h 128 }] } ∧
      (∀ j, j ≠ k → mget u.obj.profiles j = mget t.obj.profiles j) ∧ u = { t with obj := { t.obj with profiles := u.obj.profiles } }) ∧
  (∀ (h : HostCmd) (k : Nat) (p : Profile) (x : ProfileSlot) (s t : State) (f : Fetched), Taken 0x21 h s f t → k = cmdAux h % 64 →
    mget t.obj.profiles k = some x → x.cur = some p → x.draining = none → x.held = [] →
    ∃ u, exec (.profileUnload h) s = .next (cplStatus h f Status.ok 0 u) ∧
      mgetD u.obj.profiles k {} = { cur := none, draining := if profileUsed t p then some p else none, held := [] } ∧
      u = { t with obj := u.obj, flash := u.flash }) ∧
  (∀ (k : Nat) (x : ProfileSlot) (l : HeldLoad) (ls : List HeldLoad) (s v : State), mget (releaseUnused s).obj.profiles k = some x →
    x.draining = none → x.held = l :: ls → l.record ≠ [] →
    v = modObj (fun o => { o with profiles := mmod o.profiles k {} fun y => { y with held := ls } }) (releaseUnused s) →
    profileOk v l.record = true →
    ∃ u y, exec (.profileLoadRelease k) s = .next (complete l.qp { tag := l.tag, status := Status.ok, sqHead := l.sqHead } u) ∧
      mget u.obj.profiles k = some y ∧ y.cur = some (profileOf l.record) ∧ y.held = ls ∧ u = { s with obj := u.obj, flash := u.flash }) ∧
  (∀ (h : HostCmd) (k : Tokenizer) (slot : Nat) (s t : State) (f : Fetched), Taken 0x24 h s f t →
    parseTokenizer (cmdBody h (cmdLen0 h)) = some k → lowestFree t.obj.tokenizers 16 = some slot → tokenizerById t k.id = none →
    ∃ u, exec (.tokenizerLoad h) s = .next (cplCmd h f { tag := 0, status := Status.ok, result := slot } u) ∧
      mget u.obj.tokenizers slot = some k ∧ (∀ j, j ≠ slot → mget u.obj.tokenizers j = mget t.obj.tokenizers j) ∧
      u = { t with obj := { t.obj with tokenizers := u.obj.tokenizers } }) ∧
  (∀ (h : HostCmd) (s t : State) (f : Fetched), Taken 0x24 h s f t →
    (parseTokenizer (cmdBody h (cmdLen0 h)) = none ∨ lowestFree t.obj.tokenizers 16 = none) →
    exec (.tokenizerLoad h) s = .next (cplStatus h f Status.tokenizerInvalid 0 t)) ∧
  (∀ (h : HostCmd) (k : Nat × Tokenizer) (s t : State) (f : Fetched), Taken 0x25 h s f t →
    (t.obj.tokenizers.find? fun x => x.2.id == cmdAux h) = some k →
    (∀ p, p ∈ loadedProfiles t → p.mode = 2 ∨ p.tokenizer ≠ cmdAux h) →
    ∃ u, exec (.tokenizerUnload h) s = .next (cplStatus h f Status.ok 0 u) ∧ mget u.obj.tokenizers k.1 = none ∧
      (∀ j, j ≠ k.1 → mget u.obj.tokenizers j = mget t.obj.tokenizers j) ∧
      u = { t with obj := { t.obj with tokenizers := u.obj.tokenizers } }) ∧
  (∀ (h : HostCmd) (k : Template) (s t : State) (f : Fetched), Taken 0x26 h s f t → parseTemplate (cmdBody h (cmdLen0 h)) = some k →
    mget t.obj.templates k.id = none → t.obj.templates.length < 256 →
    ∃ u, exec (.templateLoad h) s = .next (cplStatus h f Status.ok 0 u) ∧ mget u.obj.templates k.id = some k ∧
      (∀ j, j ≠ k.id → mget u.obj.templates j = mget t.obj.templates j) ∧ u = { t with obj := { t.obj with templates := u.obj.templates } }) ∧
  (∀ (h : HostCmd) (s t : State) (f : Fetched), Taken 0x27 h s f t → (mget t.obj.templates (cmdAux h)).isSome = true →
    (∀ p, p ∈ loadedProfiles t → p.mode ≠ 0 ∨ p.template ≠ cmdAux h) →
    ∃ u, exec (.templateUnload h) s = .next (cplStatus h f Status.ok 0 u) ∧ mget u.obj.templates (cmdAux h) = none ∧
      (∀ j, j ≠ cmdAux h → mget u.obj.templates j = mget t.obj.templates j) ∧ u = { t with obj := { t.obj with templates := u.obj.templates } })

/-! ### Collections and filters (07) -/

/-- A collection is created when its object holds and the module has room (07 R224) and refused when not, and a deletion takes it from the loaded ones
(07 R225).
Filters are registered under their ID in place of the one before, and unregistered by a holder (07 R256, R260, R261).
Leases whose pages a new collection or filter needs are reclaimed (12 R470). -/
def Obligations.collections_and_filters : Prop :=
  (∀ (h : HostCmd) (s t : State) (f : Fetched), Taken 0x28 h s f t → eitherRo t = false →
    (parseCollection (cmdBody h (cmdLen0 h)) = none ∨ (∃ c, parseCollection (cmdBody h (cmdLen0 h)) = some c ∧
      collAdmitted t (rd (cmdBody h (cmdLen0 h)) 0 4) c = false)) →
    exec (.collectionCreate h) s = .next (cplStatus h f Status.collectionInvalid 0 t)) ∧
  (∀ (h : HostCmd) (c : Collection) (s t : State) (f : Fetched), Taken 0x28 h s f t → eitherRo t = false →
    parseCollection (cmdBody h (cmdLen0 h)) = some c → collAdmitted t (rd (cmdBody h (cmdLen0 h)) 0 4) c = true →
    ∃ u, exec (.collectionCreate h) s = .next (cplStatus h f Status.ok 0 (fitLeases u)) ∧ CollChanged (rd (cmdBody h (cmdLen0 h)) 0 4) c t u) ∧
  (∀ (h : HostCmd) (c : Collection) (s t : State) (f : Fetched), Taken 0x29 h s f t → eitherRo t = false →
    cmdAux h < 2 ^ 32 → mget t.obj.collections (cmdAux h) = some c → c.session = none →
    (∀ p, p ∈ loadedProfiles t → modeSearches p.mode = false ∨ p.collection ≠ cmdAux h) →
    ∃ u, exec (.collectionDelete h) s = .next (cplStatus h f Status.ok 0 u) ∧ mget u.obj.collections (cmdAux h) = none ∧
      u.hif = t.hif ∧ u.sched = t.sched ∧ u.mem = t.mem ∧ u.boot = t.boot ∧ u.mgmt = t.mgmt) ∧
  (∀ (h : HostCmd) (c : Collection) (g : Filter) (s t : State) (f : Fetched), Taken 0x0A h s f t →
    mayRegister t h.qp (cmdBody h (cmdLen0 h)) = true → mget t.obj.collections (rd (cmdBody h (cmdLen0 h)) 8 4) = some c →
    parseFilter (cmdBody h (cmdLen0 h)) c t.obj.nextFilter = some g → filterUse (dropFilter g.id t) + g.size ≤ 64 * 2 ^ 30 →
    ∃ u, exec (.filterRegister h) s = .next (cplStatus h f Status.ok 0 (fitLeases u)) ∧ mget u.obj.filters g.id = some g ∧
      (∀ j, j ≠ g.id → mget u.obj.filters j = mget t.obj.filters j) ∧ u.obj.nextFilter = t.obj.nextFilter + 1 ∧
      u = { t with obj := { t.obj with filters := u.obj.filters, oldFilters := u.obj.oldFilters, nextFilter := u.obj.nextFilter } }) ∧
  (∀ (h : HostCmd) (g : Filter) (s t : State) (f : Fetched), Taken 0x0B h s f t →
    mget t.obj.filters (cmdAux h % 4096) = some g → holdsFilter t h.qp g = true →
    ∃ u, exec (.filterUnregister h) s = .next (cplStatus h f Status.ok 0 u) ∧ mget u.obj.filters (cmdAux h % 4096) = none ∧
      (∀ j, j ≠ cmdAux h % 4096 → mget u.obj.filters j = mget t.obj.filters j) ∧
      u = { t with obj := { t.obj with filters := u.obj.filters, oldFilters := u.obj.oldFilters } })

/-- An ingest session: an open takes the next epoch, an operation counts in the session, a commit waits for its record and
publishes the epoch when that is durable, an abort rolls the session back (07 R248 to R253); an operation fetched after its session was closed is refused (R249).
Nothing an open session wrote shows after its rollback: an item of its epoch is visible at no epoch, and one it deleted is
visible again (07 R250, R252). -/
def Obligations.ingest_and_rollback : Prop :=
  (∀ (h : HostCmd) (c : Collection) (s t : State) (f : Fetched), Taken 0x06 h s f t → eitherRo t = false →
    mget t.obj.collections (cmdAux h) = some c → mayIngest t h.qp c = true → c.session = none → c.frozen = false →
    c.highest + 1 < 0xFFFFFFFF →
    ∃ u, exec (.ingestOpen h) s = .next (cplCmd h f { tag := 0, status := Status.ok, result := c.highest + 1 } u) ∧
      mget u.obj.collections (cmdAux h) = some { c with highest := c.highest + 1, session := (some
        { epoch := c.highest + 1, fn := (qpFn t h.qp).getD 0, account := qpAccount t h.qp, qp := h.qp }) } ∧
      (∀ j, j ≠ cmdAux h → mget u.obj.collections j = mget t.obj.collections j) ∧
      u = { t with obj := { t.obj with collections := u.obj.collections } }) ∧
  (∀ (h : HostCmd) (c : Collection) (x : Session) (i : Item) (s t : State) (f : Fetched), Taken 0x07 h s f t → eitherRo t = false →
    mget t.obj.collections (cmdAux h) = some c → sessionFor t h.qp c = .ok x → f.late = false →
    ingestFault c.desc (cmdLen0 h) (cmdBody h (cmdLen0 h)) = none → rd (cmdBody h (cmdLen0 h)) 0 1 = 2 →
    mget c.items (rd (cmdBody h (cmdLen0 h)) 8 8) = some i → i.visible c.epoch = true →
    ∃ u d, exec (.ingestOp h) s = .next (cplStatus h f Status.ok 0 u) ∧ CollChanged (cmdAux h) d t u ∧
      mget d.items (rd (cmdBody h (cmdLen0 h)) 8 8) = some { i with deleteEpoch := x.epoch } ∧
      (∀ j, j ≠ rd (cmdBody h (cmdLen0 h)) 8 8 → mget d.items j = mget c.items j) ∧
      d = { c with items := d.items, session := some { x with deleted := insertNum (rd (cmdBody h (cmdLen0 h)) 8 8) x.deleted } }) ∧
  (∀ (h : HostCmd) (c : Collection) (x : Session) (s t : State) (f : Fetched), Taken 0x07 h s f t → eitherRo t = false →
    mget t.obj.collections (cmdAux h) = some c → sessionFor t h.qp c = .ok x → f.late = false →
    ingestFault c.desc (cmdLen0 h) (cmdBody h (cmdLen0 h)) = none → rd (cmdBody h (cmdLen0 h)) 0 1 ≠ 2 →
    rd (cmdBody h (cmdLen0 h)) 4 4 ≤ c.desc.textMax → c.nextId < c.desc.idBase + c.desc.idSpan →
    ∃ u, exec (.ingestOp h) s = .next (cplCmd h f { tag := 0, status := Status.ok, result := c.nextId } u) ∧
      CollChanged (cmdAux h) (noteSession (fun z => { z with inserted := insertNum c.nextId z.inserted })
        (insertItem c x.epoch (cmdBody h (cmdLen0 h)))) t u) ∧
  (∀ (h : HostCmd) (c : Collection) (x : Session) (s t : State) (f : Fetched), Taken 0x07 h s f t → eitherRo t = false →
    mget t.obj.collections (cmdAux h) = some c → sessionFor t h.qp c = .ok x → f.late = true →
    exec (.ingestOp h) s = .next (cplStatus h f Status.sessionClosed 0 t)) ∧
  (∀ (h : HostCmd) (c : Collection) (x : Session) (s t : State) (f : Fetched), Taken 0x08 h s f t → eitherRo t = false →
    mget t.obj.collections (cmdAux h) = some c → sessionFor t h.qp c = .ok x → x.committing = none →
    ∃ u, exec (.ingestCommit h) s = .next u ∧
      mget u.obj.collections (cmdAux h) = some { c with session := some { x with committing := some (h.qp, cmdTag h, f.sqHead) } } ∧
      (∀ j, j ≠ cmdAux h → mget u.obj.collections j = mget t.obj.collections j) ∧
      u = { t with obj := { t.obj with collections := u.obj.collections } }) ∧
  (∀ (coll : Nat) (c : Collection) (x : Session) (w : Nat × Nat × Nat) (s : State), mget s.obj.collections coll = some c →
    c.session = some x → x.committing = some w → eitherRo s = false → s.flash.stopped = false →
    ∃ u d, exec (.commitDurable coll) s = .next (complete w.1 { tag := w.2.1, status := Status.ok, sqHead := w.2.2 } u) ∧
      CollChanged coll d s u ∧ d.epoch = x.epoch ∧ d.session = none ∧ d.lastCommitted = true ∧ d.items = c.items ∧
      mget d.entryTables x.epoch = some (entryTable c x.epoch)) ∧
  (∀ (h : HostCmd) (c : Collection) (x : Session) (s t : State) (f : Fetched), Taken 0x09 h s f t →
    mget t.obj.collections (cmdAux h) = some c → sessionFor t h.qp c = .ok x → x.committing = none →
    ∃ u, exec (.ingestAbort h) s = .next (cplStatus h f Status.ok 0 u) ∧
      CollChanged (cmdAux h) { rollback x.epoch c with session := none, lastCommitted := false } t u) ∧
  (∀ (e n : Nat) (c : Collection) (i : Item), mget c.items n = some i →
    ∃ j, mget (rollback e c).items n = some j ∧
      (i.insertEpoch = e → ∀ q, j.visible q = false) ∧
      (i.insertEpoch ≠ e → i.deleteEpoch = e → ∀ q, q < 0xFFFFFFFF → j.visible q = decide (i.insertEpoch ≤ q)) ∧
      (i.insertEpoch ≠ e → i.deleteEpoch ≠ e → j = i))

/-! ### Tables (11) -/

/-- A table is created in the lowest free slot with version 1 CURRENT (11 R394), and a deletion takes its ID (11 R397).
Version commands (11 R402 to R405, R427): a new version is LIVE under the next number, a switch makes its version the CURRENT
one, a retirement retires one that is not CURRENT, a pin joins the list of pins. -/
def Obligations.tables_and_versions : Prop :=
  (∀ (h : HostCmd) (x : Table) (k : Nat) (s t : State) (f : Fetched), Taken 0x2A h s f t → t.flash.storeRo = false →
    parseTable (cmdBody h (cmdLen0 h)) = some x → freeTableSlot t = some k → tableSlot t x.id = none → shadowOk t x = true →
    (x.shared = true ∨ acctExists t x.owner = true) →
    (t.obj.tables.map fun y => y.2.reserved).sum + x.reserved ≤ 120 * 10 ^ 12 →
    storedBytes t + x.reservedRows * slotBytesOf x.fmt x.rowElems ≤ usableBytes t 1 →
    ∃ u, exec (.tableCreate h) s = .next (cplStatus h f Status.ok 0 u) ∧ TableChanged k x t u ∧ currentVersion x = some 1) ∧
  (∀ (h : HostCmd) (k : Nat) (s t : State) (f : Fetched), Taken 0x2B h s f t → tableSlot t (cmdAux h) = some k →
    (t.obj.tables.filter fun x => x.2.id == cmdAux h && !x.2.deleted).length = 1 →
    ∃ u, exec (.tableDelete h) s = .next (cplStatus h f Status.ok 0 u) ∧ tableSlot u (cmdAux h) = none ∧
      u.hif.hostMem = t.hif.hostMem ∧ u.hif.qps = t.hif.qps ∧ u.sched = t.sched ∧ u.gen = t.gen ∧ u.mem = t.mem) ∧
  (∀ (h : HostCmd) (k : Nat) (x : Table) (b v : Version) (l : Map Bytes) (s t : State) (f : Fetched), Taken 0x2C h s f t → cmdParam h % 4 = 0 →
    verTable h t = some (k, x) → t.flash.storeRo = false →
    (if verOp h 0 = 0 then b = { cond := .live } else mget x.versions (verOp h 0) = some b ∧ b.cond ≠ .retired) →
    (if h.stop = [] then l = [] else
      rowList (slotBytesOf x.fmt x.rowElems) x.nRows (if x.sparse then some x.capacity else none) h.stop = some l) →
    v = { cond := .live, rows := l.foldl (fun m e => mset m e.1 e.2) b.rows,
          shares := if verOp h 0 = 0 then [] else verOp h 0 :: b.shares,
          dirty := b.dirty.filter fun d => !mhas l d.1, homes := b.homes.filter fun d => !mhas l d.1 } →
    (x.sparse = false ∨ v.rows.length ≤ x.capacity) → x.versions.length < 8 →
    storedBytes (modTable k (fun y => { y with highest := (x.highest + 1) % 2 ^ 32, versions := mset y.versions ((x.highest + 1) % 2 ^ 32) v }) t) ≤
      usableBytes t 1 →
    ∃ u y, exec (.versionNew h) s = .next (cplCmd h f { tag := 0, status := Status.ok, result := (x.highest + 1) % 2 ^ 32 } u) ∧
      TableChanged k y t u ∧ mget y.versions ((x.highest + 1) % 2 ^ 32) = some v ∧
      (∀ j, j ≠ (x.highest + 1) % 2 ^ 32 → mget y.versions j = mget x.versions j) ∧
      y = { x with highest := (x.highest + 1) % 2 ^ 32, versions := y.versions }) ∧
  (∀ (h : HostCmd) (k : Nat) (x : Table) (v : Version) (s t : State) (f : Fetched), Taken 0x2C h s f t → cmdParam h % 4 = 1 →
    verTable h t = some (k, x) → mget x.versions (verOp h 0) = some v → v.cond ≠ .retired →
    ∃ u y, exec (.versionSwitch h) s = .next (cplStatus h f Status.ok 0 u) ∧ mget u.obj.tables k = some y ∧
      mget y.versions (verOp h 0) = some { v with cond := .current } ∧ currentVersion y = some (verOp h 0) ∧
      (∀ j z, j ≠ verOp h 0 → mget x.versions j = some z → z.cond = .current → mget y.versions j = some { z with cond := .live }) ∧
      u = { t with obj := { t.obj with tables := u.obj.tables } }) ∧
  (∀ (h : HostCmd) (k : Nat) (x : Table) (v : Version) (s t : State) (f : Fetched), Taken 0x2C h s f t → cmdParam h % 4 = 2 →
    verTable h t = some (k, x) → mget x.versions (verOp h 0) = some v → v.cond ≠ .current →
    exec (.versionRetire h) s = .next (cplStatus h f Status.ok 0 (retireVersion k (verOp h 0) t)) ∧
      (∀ w, versionOf (retireVersion k (verOp h 0) t) k (verOp h 0) = some w →
        w.cond = .retired) ∧ (retireVersion k (verOp h 0) t).hif.hostMem = t.hif.hostMem) ∧
  (∀ (h : HostCmd) (k : Nat) (x : Table) (v : Version) (s t : State) (f : Fetched), Taken 0x2C h s f t → cmdParam h % 4 = 3 →
    verTable h t = some (k, x) → mget x.versions (verOp h 0) = some v → v.cond ≠ .retired → x.pins.length < 64 →
    verOp h 1 + verOp h 2 ≤ x.nRows → verOp h 3 ≤ 8 →
    ∃ u y, exec (.rowPin h) s = .next (cplStatus h f Status.ok 0 u) ∧ mget u.obj.tables k = some y ∧
      y.pins = x.pins ++ [⟨verOp h 0, verOp h 1, verOp h 2, verOp h 3⟩] ∧ y.id = x.id ∧ u.hif.hostMem = t.hif.hostMem ∧ ObjOnly t u) ∧
  (∀ (h : HostCmd) (k : Nat) (x : Table) (s t : State) (f : Fetched), Taken 0x2C h s f t → cmdParam h % 4 = 3 →
    verTable h t = some (k, x) → (x.nRows < verOp h 1 + verOp h 2 ∨ 8 < verOp h 3) →
    exec (.rowPin h) s = .next (cplStatus h f Status.tableInvalid 0 t))

/-- A row's way to REPLICATED and back to HOME (11 R423 to R425); leases whose pages its replicas need are reclaimed (12 R470).
A combined delta lands at its row's home: the row, its sequence number and its dirty mark (11 R413, R414, R422; 12 R436); one
for a retired version is dropped and counted (R415), one past the rows too (R414); a write-back clears the mark. -/
def Obligations.hot_rows_and_deltas : Prop :=
  (∀ (id v row n k : Nat) (t : Table) (x : Version) (s : State), rowOf s id v = some (k, t, x) → row < t.nRows → x.cond ≠ .retired →
    s.obj.tblCtl.toNat % 4 = 0 → mget x.hot row = none → (grantedReplicas s k t v row n).1 ≠ [] →
    ∃ u, exec (.rowPromote id v row n) s = .next (fitLeases u) ∧
      hotOf u k v row = some { state := .copyingUp, replicas := (grantedReplicas s k t v row n).1 } ∧
      (∀ r, r ≠ row → hotOf u k v r = hotOf s k v r) ∧ ObjAndRecords s u) ∧
  (∀ (id v row k : Nat) (t : Table) (x : Version) (r : HotRow) (s : State), rowOf s id v = some (k, t, x) → mget x.hot row = some r →
    r.state = .copyingUp →
    ∃ u, exec (.promotionSnapshotsDone id v row) s = .next u ∧ hotOf u k v row = some { r with holding := true } ∧
      (∀ q, q ≠ row → hotOf u k v q = hotOf s k v q) ∧ u = { s with obj := { s.obj with tables := u.obj.tables } }) ∧
  (∀ (id v row k : Nat) (t : Table) (x : Version) (r : HotRow) (s : State), rowOf s id v = some (k, t, x) → mget x.hot row = some r →
    r.state = .copyingUp → r.holding = true → r.heldAdds = [] → r.wanted = none → x.cond ≠ .retired →
    ∃ u, exec (.promotionLogApplied id v row) s = .next u ∧
      hotOf u k v row = some { r with state := .replicated, holding := false, log := [], heldAdds := [] } ∧
      u = { s with obj := { s.obj with tables := u.obj.tables } }) ∧
  (∀ (id v row k : Nat) (t : Table) (x : Version) (r : HotRow) (s : State), rowOf s id v = some (k, t, x) → pinnedCount t v row = none →
    mget x.hot row = some r → r.state = .replicated →
    ∃ u, exec (.rowDemote id v row) s = .next u ∧ hotOf u k v row = some { r with state := .copyingDown } ∧
      (∀ q, q ≠ row → hotOf u k v q = hotOf s k v q) ∧ ObjAndRecords s u) ∧
  (∀ (id v row k : Nat) (t : Table) (x : Version) (r : HotRow) (s : State), rowOf s id v = some (k, t, x) →
    mget x.hot row = some r → r.state = .copyingDown → r.wanted = none →
    ∃ u, exec (.demotionReadsDone id v row) s = .next u ∧ hotOf u k v row = none ∧
      (∀ q, q ≠ row → hotOf u k v q = hotOf s k v q) ∧ u = { s with obj := { s.obj with tables := u.obj.tables } }) ∧
  (∀ (id v row k src : Nat) (ds : List RowDelta) (t : Table) (x : Version) (s : State),
    (s.obj.tables.find? fun y => y.2.id == id) = some (k, t) → mget s.obj.tables k = some t → t.addable = true → row < t.nRows →
    mget t.versions v = some x → x.cond ≠ .retired → mget x.hot row = none →
    ((mget x.rows row).isSome = true ∨ t.sparse = false ∨ x.rows.length < t.capacity) →
    ∃ u y, exec (.rowDeltaArrive id v row ds src) s = .next u ∧ versionOf u k v = some y ∧
      mget y.rows row = some (addRow t.fmt ((mget x.rows row).getD (zeros (slotBytesOf t.fmt t.rowElems)))
        ((ds.take t.rowElems).map fun d => (convDelta t.fmt t.frac d).1)).1 ∧
      (∀ q, q ≠ row → mget y.rows q = mget x.rows q) ∧ mgetD y.seqs row 0 = mgetD x.seqs row 0 + 1 ∧ mhas y.dirty row = true ∧
      y.cond = x.cond ∧ y.hot = x.hot ∧ u.hif.hostMem = s.hif.hostMem ∧ ObjOnly s u) ∧
  (∀ (id v row k src : Nat) (ds : List RowDelta) (t : Table) (x : Version) (s : State),
    (s.obj.tables.find? fun y => y.2.id == id) = some (k, t) → mget s.obj.tables k = some t → t.addable = true → row < t.nRows →
    mget t.versions v = some x → x.cond = .retired →
    ∃ u y, exec (.rowDeltaArrive id v row ds src) s = .next u ∧ mget u.obj.tables k = some y ∧ y.dropRetired = t.dropRetired + 1 ∧
      y.flags.getLsbD 2 = true ∧ y.versions = t.versions) ∧
  (∀ (id v row k src : Nat) (ds : List RowDelta) (t : Table) (s : State),
    (s.obj.tables.find? fun y => y.2.id == id) = some (k, t) → mget s.obj.tables k = some t → t.addable = true → t.nRows ≤ row →
    ∃ u, exec (.rowDeltaArrive id v row ds src) s = .next u ∧ mget u.obj.tables k = some { t with dropIndex := t.dropIndex + 1 }) ∧
  (∀ (id v row k : Nat) (t : Table) (x : Version) (s : State), rowOf s id v = some (k, t, x) → s.flash.storeRo = false →
    mhas x.dirty row = true →
    ∃ u y z, exec (.dirtyWriteback id v row) s = .next u ∧ TableChanged k z s u ∧ mget z.versions v = some y ∧ mhas y.dirty row = false ∧
      (∀ q, q ≠ row → mget y.dirty q = mget x.dirty q) ∧ y.rows = x.rows)

/-! ### Images, requests and runs (05, 01, 10, 15) -/

/-- A load of an image that is loaded answers its handle (05 R145); one whose key-value count does not fit its kind is malformed with detail
58; another is judged: one that holds is kept under a free handle, with room made for its payload and pages, and its floor is raised (05
R144, R147, 10 R350, 18 R674), one that does not fit is refused, and one that does not hold is refused with its reason.
An unload ends new use at once (05 R146). -/
def Obligations.image_commands : Prop :=
  (∀ (h : HostCmd) (s t : State) (f : Fetched), Taken 0x22 h s f t →
    ((rd (cmdBody h (cmdLen0 h)) 6 1 == 2 || rd (cmdBody h (cmdLen0 h)) 6 1 == 3) ≠ decide (0 < bitsOf (cmdParam h) 39 16)) →
    exec (.imageLoad h) s = .next (cplStatus h f Status.descMalformed 58 t)) ∧
  (∀ (h : HostCmd) (k : Nat) (s t : State) (f : Fetched), Taken 0x22 h s f t →
    ((rd (cmdBody h (cmdLen0 h)) 6 1 == 2 || rd (cmdBody h (cmdLen0 h)) 6 1 == 3) = decide (0 < bitsOf (cmdParam h) 39 16)) →
    sameImage t (if (cmdParam h).testBit 15 then none else some (cmdParam h % 4096)) (cmdBody h (cmdLen0 h)) = some k →
    exec (.imageLoad h) s = .next (cplCmd h f { tag := 0, status := Status.ok, result := k } t)) ∧
  (∀ (h : HostCmd) (o : Bytes) (owner : Option Nat) (r : Nat) (s t v : State) (f : Fetched), Taken 0x22 h s f t → o = cmdBody h (cmdLen0 h) →
    owner = (if (cmdParam h).testBit 15 then none else some (cmdParam h % 4096)) → v = evCount 12 2 1 t →
    ((rd o 6 1 == 2 || rd o 6 1 == 3) = decide (0 < bitsOf (cmdParam h) 39 16)) → sameImage t owner o = none → imageReason v owner o = some r →
    exec (.imageLoad h) s = .next (cplStatus h f Status.imageInvalid r v)) ∧
  (∀ (h : HostCmd) (o : Bytes) (owner : Option Nat) (p : ImageParts) (i : Image) (k : Nat) (s t v : State) (f : Fetched), Taken 0x22 h s f t →
    o = cmdBody h (cmdLen0 h) → owner = (if (cmdParam h).testBit 15 then none else some (cmdParam h % 4096)) → v = evCount 12 2 1 t →
    ((rd o 6 1 == 2 || rd o 6 1 == 3) = decide (0 < bitsOf (cmdParam h) 39 16)) → sameImage t owner o = none → imageReason v owner o = none →
    imageParts o = some p → i = imageOf o p owner (bitsOf (cmdParam h) 39 16) →
    i.payload.length + bitsOf (cmdParam h) 39 16 * i.pageBytes ≤ freeBrixjo v →
    k = freeHandle t.obj.images (Config.handleChoice t.obj.handleDraws).toNat (t.obj.images.length + 2) →
    ∃ u, exec (.imageLoad h) s = .next (cplCmd h f { tag := 0, status := Status.ok, result := k } u) ∧ mget u.obj.images k = some i ∧
      (∀ j, j ≠ k → mget u.obj.images j = mget t.obj.images j) ∧ u.obj.handleDraws = t.obj.handleDraws + 1 ∧
      u.sec = (raiseFloor 3 p.sig t).sec ∧ u.gen = t.gen ∧ u.sched = t.sched ∧ u.hif.hostMem = t.hif.hostMem) ∧
  (∀ (h : HostCmd) (o : Bytes) (owner : Option Nat) (p : ImageParts) (i : Image) (s t v : State) (f : Fetched), Taken 0x22 h s f t →
    o = cmdBody h (cmdLen0 h) → owner = (if (cmdParam h).testBit 15 then none else some (cmdParam h % 4096)) → v = evCount 12 2 1 t →
    ((rd o 6 1 == 2 || rd o 6 1 == 3) = decide (0 < bitsOf (cmdParam h) 39 16)) → sameImage t owner o = none → imageReason v owner o = none →
    imageParts o = some p → i = imageOf o p owner (bitsOf (cmdParam h) 39 16) →
    freeBrixjo v < i.payload.length + bitsOf (cmdParam h) 39 16 * i.pageBytes →
    exec (.imageLoad h) s = .next (cplStatus h f Status.noResources 0 v)) ∧
  (∀ (h : HostCmd) (i : Image) (s t : State) (f : Fetched), Taken 0x23 h s f t → mget t.obj.images (cmdParam h % 2 ^ 32) = some i →
    i.unloaded = false → (∀ p, p ∈ loadedProfiles t → p.encoder ≠ cmdParam h % 2 ^ 32 ∧ p.reranker ≠ cmdParam h % 2 ^ 32 ∧
      p.generator ≠ cmdParam h % 2 ^ 32 ∧ p.draft ≠ cmdParam h % 2 ^ 32) →
    ∃ u, exec (.imageUnload h) s = .next (cplStatus h f Status.ok 0 u) ∧
      (∀ y, mget u.obj.images (cmdParam h % 2 ^ 32) = some y → y.unloaded = true) ∧
      (∀ b z, mget u.gen.batons b = some z → z.image = cmdParam h % 2 ^ 32 → z.live = false) ∧
      u.gen.entries = t.gen.entries ∧
      u = { t with obj := u.obj, gen := u.gen, flash := u.flash, boot := { t.boot with freed := u.boot.freed } })

/-- A REQUEST that passes its checks takes the lowest free entry, in PRE at stage 1, under its tag, queue pair, account and
function (10 R345, 01 R26); one with a bad slot or no profile completes at stage 1 and takes none (15 R576, 01 R22).
A RUN takes the lowest free entry in mode 4 and a unit of the scheduler (10 R348, 14 R528); an input chunk joins the input of
the request it names, and in stage 2 the pieces that close become tokens at once (15 R578; 06 R203); BATON_RELEASE leaves no live baton under its handle (10 R359). -/
def Obligations.requests_runs_and_batons : Prop :=
  (∀ (h : HostCmd) (p : Profile) (fn acct e : Nat) (fs : List Filter) (pins : List (Nat × Nat × Option Nat)) (s t : State) (f : Fetched),
    cmdOp h = 1 → takeCmd h s = some (f, t) → requestProfile t h = some p → requestSlotFault t h (some p) = none →
    isAdmin h.qp = false → (t.boot.level = 1 ∨ t.boot.level = 2) → (qpOf t h.qp).bound = some (fn, acct) →
    requestRecordFault t h p = none → admitChecks t h acct p = .ok (fs, pins) → freeEntry t = some e →
    ∃ u x, exec (.request h) s = .next u ∧ mget u.gen.entries e = some x ∧ x.state = .pre ∧ x.qp = h.qp ∧ x.tag = cmdTag h ∧
      x.account = acct ∧ x.fn = fn ∧ x.mode = p.mode ∧ x.profile = p.id ∧ x.deadline = cmdFld h 96 8 ∧ x.admitTime = now t ∧
      x.prio = (clampPrio t acct (cmdFld h 65 1 % 4)).1 ∧ x.finish = 0 ∧ x.cancelPending = false ∧ x.work.stage = 1 ∧ x.work.pins = pins ∧
      x.work.profile = some p ∧ (∀ j, j ≠ e → mget u.gen.entries j = mget t.gen.entries j) ∧
      (∀ a, a ≠ acct → mget u.sched.accounts a = mget t.sched.accounts a) ∧ u.hif.hostMem = t.hif.hostMem ∧
      u = { t with gen := u.gen, sched := u.sched, fab := u.fab, hif := u.hif, regs := u.regs, free := u.free }) ∧
  (∀ (h : HostCmd) (d : Nat) (s t : State) (f : Fetched), cmdOp h = 1 → takeCmd h s = some (f, t) →
    requestSlotFault t h (requestProfile t h) = some d → cmdReport h = 0 →
    exec (.request h) s = .next (cplCmd h f { tag := 0, status := Status.descMalformed, stage := 1, detail := d } t)) ∧
  (∀ (h : HostCmd) (s t : State) (f : Fetched), cmdOp h = 1 → takeCmd h s = some (f, t) → requestProfile t h = none →
    requestSlotFault t h none = none → isAdmin h.qp = false → (t.boot.level = 1 ∨ t.boot.level = 2) → cmdReport h = 0 →
    exec (.request h) s = .next (cplCmd h f { tag := 0, status := Status.profileInvalid, stage := 1 } t)) ∧
  (∀ (h : HostCmd) (i : Image) (fn acct e : Nat) (pins : List (Nat × Nat × Option Nat)) (s t : State) (f : Fetched), Taken 4 h s f t →
    liveEntry t h.qp (cmdTag h) = none → cmdLen0 h % 16 = 0 → cmdReport h % 64 = 0 →
    mget t.obj.images (cmdParam h % 2 ^ 32) = some i → (qpOf t h.qp).bound = some (fn, acct) → i.unloaded = false →
    (i.shared = true ∨ i.owner = acct) → bindingFault i (cmdBody h (cmdLen0 h)) (cmdLen0 h / 16) = none →
    checkBinds t acct i.tables = .ok pins → freeEntry t = some e →
    ∃ u x y, exec (.run h) s = .next u ∧ mget u.gen.entries e = some x ∧ x.state = .pre ∧ x.mode = 4 ∧ x.genImage = cmdParam h % 2 ^ 32 ∧
      x.qp = h.qp ∧ x.tag = cmdTag h ∧ x.account = acct ∧ x.fn = fn ∧ x.work.pins = pins ∧
      mget u.sched.units t.sched.nextUnit = some y ∧ y.kind = .run e ∧ y.slots = [] ∧ y.members = [(e, acct, 1)] ∧
      (∀ j, j ≠ e → mget u.gen.entries j = mget t.gen.entries j) ∧ u.hif.hostMem = t.hif.hostMem ∧
      u = { t with gen := u.gen, sched := u.sched, fab := u.fab, hif := u.hif, regs := u.regs }) ∧
  (∀ (h : HostCmd) (e : Nat) (x : RtEntry) (s t : State) (f : Fetched), Taken 2 h s f t → cmdLen0 h ≤ 16777216 →
    openRequest t h.qp (cmdParam h) = some e → mget t.gen.entries e = some x → (x.work.stage ≠ 2 ∨ x.work.tokenizer = none) →
    ∃ u, exec (.inputChunk h) s = .next (cplStatus h f Status.ok 0 u) ∧ mget u.gen.entries e = some { x with work := { x.work with
        input := x.work.input ++ cmdBody h (cmdLen0 h), inputDone := (cmdFlags h).testBit 0 } } ∧
      (∀ j, j ≠ e → mget u.gen.entries j = mget t.gen.entries j) ∧ u = { t with gen := { t.gen with entries := u.gen.entries } }) ∧
  (∀ (h : HostCmd) (e : Nat) (x : RtEntry) (tk : Tokenizer) (r : List Nat × Nat × TextIn) (s t : State) (f : Fetched), Taken 2 h s f t →
    cmdLen0 h ≤ 16777216 → openRequest t h.qp (cmdParam h) = some e → mget t.gen.entries e = some x → x.work.stage = 2 →
    x.work.tokenizer = some tk →
    r = feed tk x.work.textOpts ((cmdFlags h).testBit 0) x.work.lane (x.work.input ++ cmdBody h (cmdLen0 h)) →
    ∃ u y, exec (.inputChunk h) s = .next (cplStatus h f Status.ok 0 u) ∧ mget u.gen.entries e = some y ∧ y.work.input = [] ∧
      y.work.inputDone = (cmdFlags h).testBit 0 ∧ y.work.tokens = x.work.tokens ++ r.1 ∧ y.work.lane = r.2.2 ∧
      y.work.invalidBytes = x.work.invalidBytes + r.2.1 ∧ y.state = x.state ∧ u.obj.txtTokensOut = t.obj.txtTokensOut + r.1.length ∧
      (∀ j, j ≠ e → mget u.gen.entries j = mget t.gen.entries j) ∧
      u = { t with gen := { t.gen with entries := u.gen.entries }, sched := { t.sched with accounts := u.sched.accounts }, obj := u.obj
                   hif := u.hif, regs := u.regs }) ∧
  (∀ (h : HostCmd) (s t : State) (f : Fetched), Taken 2 h s f t → cmdLen0 h ≤ 16777216 → openRequest t h.qp (cmdParam h) = none →
    exec (.inputChunk h) s = .next (cplStatus h f Status.requestUnknown 0 t)) ∧
  (∀ (h : HostCmd) (k a : Nat) (b : Baton) (s t : State) (f : Fetched), Taken 5 h s f t → batonSlot t (cmdParam h) = some k →
    qpAccount t h.qp = some a → mget t.gen.batons k = some b → b.live = true → b.account = a →
    ∃ u, exec (.batonRelease h) s = .next (cplStatus h f Status.ok 0 u) ∧ (∀ y, mget u.gen.batons k = some y → y = { b with live := false }) ∧
      (∀ j, j ≠ k → mget u.gen.batons j = mget t.gen.batons j) ∧
      u = { t with gen := { t.gen with batons := u.gen.batons }, obj := { t.obj with images := u.obj.images }
                   boot := { t.boot with freed := u.boot.freed } })

/-- At a stage boundary the request goes to its mode's next stage (01 R17, R20): from stage 1 to stage 4, or to stage 2 where what input has
arrived becomes tokens; with a cancel accepted it ends CANCELLED (01 R29), and at or past its deadline DEADLINE (01 R33); while a stage
is not over nothing happens.  A DRAIN entry that has completed and returned its pages becomes FREE, to be taken from the next cycle on
(10 R384, 00 R776).
CANCEL (10 R378): a request in a step or at work in a stage is marked, and its walks are killed; one that waits (for input, for pages, for
a step, held before stage 5) ends CANCELLED at once; a tag that has completed answers ALREADY_COMPLETE and another REQUEST_UNKNOWN. -/
def Obligations.stages_and_cancels : Prop :=
  (∀ (e : Nat) (x : RtEntry) (p : Profile) (s : State), mget s.gen.entries e = some x → x.work.profile = some p →
    x.state = .pre → x.mode = 2 → x.work.stage = 1 → x.work.pinsLeft = 0 → x.work.search.tag = none → x.cancelPending = false →
    x.work.disabled = false → x.work.pendingFault = none → (x.deadline = 0 ∨ now s < x.deadline) → entryUnits s e = [] →
    ∃ u y, exec (.stageBoundary e) s = .next u ∧ mget u.gen.entries e = some { x with work := { x.work with stage := 4 } } ∧
      mget u.sched.units s.sched.nextUnit = some y ∧ y.kind = .stage e 4 ∧
      (∀ j, j ≠ e → mget u.gen.entries j = mget s.gen.entries j) ∧ u = { s with gen := u.gen, sched := u.sched }) ∧
  (∀ (e : Nat) (x : RtEntry) (p : Profile) (tk : Tokenizer) (r : List Nat × Nat × TextIn) (s : State), mget s.gen.entries e = some x →
    x.work.profile = some p → x.state = .pre → x.mode ≠ 2 → x.mode ≠ 4 → x.work.stage = 1 → x.work.pinsLeft = 0 →
    x.work.search.tag = none → x.cancelPending = false → x.work.disabled = false → x.work.pendingFault = none →
    (x.deadline = 0 ∨ now s < x.deadline) → entryUnits s e = [] → x.work.tokenizer = some tk →
    r = feed tk x.work.textOpts x.work.inputDone x.work.lane x.work.input →
    ∃ u y, exec (.stageBoundary e) s = .next u ∧ mget u.gen.entries e = some y ∧ y.state = .pre ∧ y.work.stage = 2 ∧ y.work.input = [] ∧
      y.work.tokens = x.work.tokens ++ r.1 ∧ y.work.lane = r.2.2 ∧ (∀ j, j ≠ e → mget u.gen.entries j = mget s.gen.entries j) ∧
      u = { s with gen := u.gen, sched := u.sched, obj := u.obj, hif := u.hif, regs := u.regs }) ∧
  (∀ (e : Nat) (x : RtEntry) (p : Profile) (s : State), mget s.gen.entries e = some x → x.work.profile = some p →
    x.state = .pre → x.mode ≠ 4 → x.work.stage = 1 → x.work.pinsLeft = 0 → x.work.search.tag = none → x.cancelPending = true →
    x.work.disabled = false → entryUnits s e = [] →
    ∃ u y, exec (.stageBoundary e) s = .next u ∧ mget u.gen.entries e = some y ∧ y.state = .drain ∧ y.finish = Status.cancelled ∧
      y.work.endStage = 1 ∧ y.work.completed = true ∧ (∀ j, j ≠ e → mget u.gen.entries j = mget s.gen.entries j)) ∧
  (∀ (e : Nat) (x : RtEntry) (p : Profile) (s : State), mget s.gen.entries e = some x → x.work.profile = some p →
    x.state = .pre → x.mode ≠ 4 → x.work.stage = 1 → x.work.pinsLeft = 0 → x.work.search.tag = none → x.cancelPending = false →
    x.work.disabled = false → x.work.pendingFault = none → x.deadline ≠ 0 → x.deadline ≤ now s → entryUnits s e = [] →
    ∃ u y, exec (.stageBoundary e) s = .next u ∧ mget u.gen.entries e = some y ∧ y.state = .drain ∧ y.finish = Status.deadline ∧
      y.work.endStage = 1 ∧ y.work.completed = true ∧ (∀ j, j ≠ e → mget u.gen.entries j = mget s.gen.entries j)) ∧
  (∀ (e : Nat) (x : RtEntry) (p : Profile) (s : State), mget s.gen.entries e = some x → x.work.profile = some p →
    x.work.stage = 1 → x.work.pinsLeft ≠ 0 → exec (.stageBoundary e) s = .next s) ∧
  (∀ (e : Nat) (x : RtEntry) (s : State), mget s.gen.entries e = some x → x.state = .drain → x.work.completed = true →
    x.work.pagesReturned = true →
    ∃ u, exec (.entryFree e) s = .next u ∧ mget u.gen.entries e = none ∧ (∀ j, j ≠ e → mget u.gen.entries j = mget s.gen.entries j) ∧
      justFreed u (.entry e) = true ∧
      u = { s with gen := u.gen, obj := u.obj, search := u.search, flash := u.flash, boot := { s.boot with freed := u.boot.freed } }) ∧
  (∀ (h : HostCmd) (e : Nat) (x : RtEntry) (s t : State) (f : Fetched), Taken 3 h s f t →
    (qpOf t (cmdAux h % 16384)).bound = (qpOf t h.qp).bound → (qpOf t h.qp).bound.isSome = true →
    liveEntry t (cmdAux h % 16384) (cmdParam h) = some e → mget t.gen.entries e = some x →
    (x.state = .step ∨ (x.state = .pre ∧ idlePre x = false ∧ x.work.stage ≠ 5 ∧ x.work.stage ≠ 6)) →
    ∃ u, exec (.cancel h) s = .next u ∧ mget u.gen.entries e = some { x with
        cancelTime := (if x.cancelPending then x.cancelTime else now t), cancelPending := true,
        cancellers := x.cancellers ++ [(h.qp, cmdTag h, f.sqHead, t.boot.cycles)] } ∧
      (∀ j, j ≠ e → mget u.gen.entries j = mget t.gen.entries j) ∧ u = { t with gen := { t.gen with entries := u.gen.entries } }) ∧
  (∀ (h : HostCmd) (e : Nat) (x : RtEntry) (s t : State) (f : Fetched), Taken 3 h s f t →
    (qpOf t (cmdAux h % 16384)).bound = (qpOf t h.qp).bound → (qpOf t h.qp).bound.isSome = true →
    liveEntry t (cmdAux h % 16384) (cmdParam h) = some e → mget t.gen.entries e = some x →
    x.state = .pre → idlePre x = false → (x.work.stage = 5 ∨ x.work.stage = 6) →
    ∃ u y, exec (.cancel h) s = .next u ∧ mget u.gen.entries e = some y ∧ y.state = .pre ∧ y.cancelPending = true ∧
      y.cancellers = x.cancellers ++ [(h.qp, cmdTag h, f.sqHead, t.boot.cycles)] ∧
      (∀ k, x.work.search.tag = some k → k ∈ u.search.killed) ∧ (∀ j, j ≠ e → mget u.gen.entries j = mget t.gen.entries j) ∧
      u = { t with gen := { t.gen with entries := u.gen.entries }, search := { t.search with killed := u.search.killed } }) ∧
  (∀ (h : HostCmd) (e : Nat) (x : RtEntry) (s t : State) (f : Fetched), Taken 3 h s f t →
    (qpOf t (cmdAux h % 16384)).bound = (qpOf t h.qp).bound → (qpOf t h.qp).bound.isSome = true →
    liveEntry t (cmdAux h % 16384) (cmdParam h) = some e → mget t.gen.entries e = some x →
    (x.state = .wait ∨ x.state = .reserve ∨ (x.state = .pre ∧ idlePre x = true)) → x.work.disabled = false →
    ∃ u y, exec (.cancel h) s = .next u ∧ mget u.gen.entries e = some y ∧ y.state = .drain ∧ y.finish = Status.cancelled ∧
      y.work.endStage = (if x.state = .pre then (if x.work.search.heldHere then 4 else x.work.stage) else 12) ∧
      y.work.completed = true ∧ y.cancellers = [] ∧
      (entryUnits t e = [] → ∀ j, j ≠ e → mget u.gen.entries j = mget t.gen.entries j)) ∧
  (∀ (h : HostCmd) (s t : State) (f : Fetched), Taken 3 h s f t → (qpOf t (cmdAux h % 16384)).bound = (qpOf t h.qp).bound →
    (qpOf t h.qp).bound.isSome = true → liveEntry t (cmdAux h % 16384) (cmdParam h) = none →
    ((qpOf t (cmdAux h % 16384)).recent.contains (cmdParam h) = true ∨ (drainingEntry t (cmdAux h % 16384) (cmdParam h)).isSome = true) →
    exec (.cancel h) s = .next (cplStatus h f Status.alreadyComplete 0 t)) ∧
  (∀ (h : HostCmd) (s t : State) (f : Fetched), Taken 3 h s f t → (qpOf t (cmdAux h % 16384)).bound = (qpOf t h.qp).bound →
    (qpOf t h.qp).bound.isSome = true → liveEntry t (cmdAux h % 16384) (cmdParam h) = none →
    (qpOf t (cmdAux h % 16384)).recent.contains (cmdParam h) = false → drainingEntry t (cmdAux h % 16384) (cmdParam h) = none →
    exec (.cancel h) s = .next (cplStatus h f Status.requestUnknown 0 t)) ∧
  (∀ (h : HostCmd) (s t : State) (f : Fetched), Taken 3 h s f t → (qpOf t (cmdAux h % 16384)).bound ≠ (qpOf t h.qp).bound →
    exec (.cancel h) s = .next (cplStatus h f Status.notPermitted 0 t))

/-! ### Generation (10) -/

/-- A grant takes a request in RESERVE, the first that waits for its pools, to WAIT with its pages reserved, and none that the pools do
not cover (10 R352).
A step of an image takes its members from WAIT to STEP and becomes a unit of its draft and generator jobs (10 R361, R372, 14 R528); none is formed while GEN_CTL.hold
is set or another step of the image runs (10 R386). -/
def Obligations.reservations_and_steps : Prop :=
  (∀ (e : Nat) (x : RtEntry) (s : State), mget s.gen.entries e = some x → x.state = .reserve → nextReserve s e x = true →
    canGrant s x = true →
    ∃ u y, exec (.reservationGrant e) s = .next u ∧ mget u.gen.entries e = some y ∧ y.state = .wait ∧ y.pagesRsvd = pagesNeeded x ∧
      y.draftRsvd = (if x.draftLen = 0 then 0 else pagesNeeded x) ∧ y.pages = x.pages ∧ y.promptLen = x.promptLen ∧ y.finish = x.finish ∧
      y.ctr = x.ctr.add { waitNs := now s - x.work.since } ∧ (∀ j, j ≠ e → mget u.gen.entries j = mget s.gen.entries j) ∧
      u = { s with gen := { s.gen with entries := u.gen.entries }, sched := { s.sched with accounts := u.sched.accounts } }) ∧
  (∀ (e : Nat) (x : RtEntry) (s : State), mget s.gen.entries e = some x → (canGrant s x = false ∨ nextReserve s e x = false) →
    exec (.reservationGrant e) s = .next s) ∧
  (∀ (image mask : Nat) (proofing : Bool) (i : Image) (ms : List (Nat × Nat × Nat × Nat)) (s v t : State), mget s.obj.images image = some i →
    s.gen.hold = false → stepInFlight s image = false →
    v = expire ((s.gen.entries.filter fun e => e.2.state == .wait && e.2.genImage == image).map Prod.fst) s →
    takeMembers (sortBy stepBefore (v.gen.entries.filter fun e => e.2.state == .wait && e.2.genImage == image &&
      acctDies v e.2.account == mask && e.2.work.proofing == proofing)) i.maxBatch i.maxStepTokens v = (ms, t) → ms ≠ [] →
    ∃ u r y, exec (.stepForm image mask proofing) s = .next u ∧ mget u.gen.steps t.gen.nextStep = some r ∧ r.image = image ∧
      r.dieMask = mask ∧ r.proofing = proofing ∧ r.members = ms.map (fun m => { entry := m.1, prefill := m.2.1, drafts := m.2.2.1 }) ∧ r.jobs = stepJobs t image r.members ∧
      mget u.sched.units r.unit = some y ∧ y.kind = .step t.gen.nextStep ∧ y.slots = [] ∧
      (∀ m, m ∈ ms → ∃ x, mget u.gen.entries m.1 = some x ∧ x.state = .step) ∧ u.gen.nextStep = t.gen.nextStep + 1) ∧
  (∀ (image mask : Nat) (proofing : Bool) (s : State), (s.gen.hold = true ∨ stepInFlight s image = true) →
    exec (.stepForm image mask proofing) s = .next s)

/-- A step's commit point, once its unit has run its last job (10 R363): the step and its unit are gone; a member whose prompt is not
through is in WAIT with its prefilled positions counted; one that yields tokens and is not finished by them delivers those its drafts
are verified for (10 R372, R374); one with a cancel accepted before ends CANCELLED (10 R379, R380).  A member whose own dynamic extent is
too large ends FAULT with detail 6 when the operation starts (10 R366). -/
def Obligations.steps_committed : Prop :=
  (∀ (k : Nat) (r : StepRec) (s : State), mget s.gen.steps k = some r → stepDone s r = true →
    ∃ u, exec (.stepCommit k) s = .next u ∧ mget u.gen.steps k = none ∧ (∀ j, j ≠ k → mget u.gen.steps j = mget s.gen.steps j) ∧
      u.gen.stepCount = s.gen.stepCount + 1 ∧ mget u.sched.units r.unit = none) ∧
  (∀ (k : Nat) (r : StepRec) (s : State), mget s.gen.steps k = some r → stepDone s r = false → exec (.stepCommit k) s = .next s) ∧
  (∀ (k : Nat) (r : StepRec) (m : StepMember) (x : RtEntry) (s : State), mget s.gen.steps k = some r → stepDone s r = true →
    r.members = [m] → mget s.gen.entries m.entry = some x → x.state = .step → forcedFinish s x = none → x.cancelPending = false →
    x.prefilled + m.prefill < x.promptLen →
    ∃ u y, exec (.stepCommit k) s = .next u ∧ mget u.gen.entries m.entry = some y ∧ y.state = .wait ∧
      y.prefilled = x.prefilled + m.prefill ∧ y.lastCommit = now s ∧ y.genLen = x.genLen ∧ y.stepSeq = x.stepSeq ∧
      u.hif.hostMem = s.hif.hostMem) ∧
  (∀ (k : Nat) (r : StepRec) (m : StepMember) (x : RtEntry) (tk : Tokenizer) (dv : Delivery) (s : State), mget s.gen.steps k = some r →
    stepDone s r = true → r.members = [m] → mget s.gen.entries m.entry = some x → x.state = .step → forcedFinish s x = none →
    x.cancelPending = false → x.promptLen ≤ x.prefilled + m.prefill → m.tokens ≠ [] → x.work.tokenizer = some tk →
    dv = deliverTokens tk x.stop x.maxNew x.genLen (m.tokens.take (accepted m.tokens (m.proposed.take m.drafts) + 1))
      ⟨x.work.out, x.work.rel, x.work.tail, x.work.invalidOut, none⟩ → dv.finish = none →
    ∃ u y, exec (.stepCommit k) s = .next u ∧ mget u.gen.entries m.entry = some y ∧ y.state = .wait ∧ y.lastCommit = now s ∧
      y.prefilled = x.prefilled + m.prefill ∧ y.genLen = x.genLen + dv.ids.length ∧ y.work.gen = x.work.gen ++ dv.ids ∧
      y.stepSeq = x.stepSeq + 1 ∧ u.gen.tokens = s.gen.tokens + dv.ids.length) ∧
  (∀ (k : Nat) (r : StepRec) (m : StepMember) (x : RtEntry) (s : State), mget s.gen.steps k = some r → stepDone s r = true →
    r.members = [m] → mget s.gen.entries m.entry = some x → x.state = .step → cancelledBefore s x = true → x.deadline = 0 →
    x.work.disabled = false →
    ∃ u y, exec (.stepCommit k) s = .next u ∧ mget u.gen.entries m.entry = some y ∧ y.state = .drain ∧ y.finish = Status.cancelled ∧
      y.genLen = x.genLen) ∧
  (∀ (g slot k : Nat) (env : OpEnv) (x : OpCx) (r : StepRec) (m : StepMember) (y : RtEntry) (ts : List TensorDesc) (s : State),
    opReady s g slot = some x → x.u.kind = .step k → mget s.gen.steps k = some r → r.members = [m] →
    ts = (x.o.ins ++ x.o.outs).filterMap (tensorAt x.i.tensors) → ts.any (overExtent s x.n x.u) = true →
    overMembers s x.u ts = [m.entry] → mget s.gen.entries m.entry = some y → y.state = .step → y.cancelPending = false →
    y.work.disabled = false →
    ∃ u z, exec (.operationStart g slot env) s = .next u ∧ mget u.gen.entries m.entry = some z ∧ z.state = .drain ∧
      z.finish = Status.fault ∧ z.work.detail = 6 ∧ mget u.gen.steps k = none)

/-- GEN_CTL.hold and the entry window are written by a physical function alone (10 R386, R389).
SCHED_CTL and the account window are a physical function's (14 R548, R551, R552); a cluster with nothing resident and nothing
queued may sleep (02 R50).
Routes and sets are written by the management function (16 R606, R609, R624, R631). -/
def Obligations.hold_and_window_registers : Prop :=
  (∀ (fn : Nat) (v : BitVec 32) (s : State), fn ≤ 1 →
    exec (.genHold fn v) s = .next { s with gen := { s.gen with hold := v.getLsbD 0 } }) ∧
  (∀ (fn : Nat) (v : BitVec 32) (s : State), fn ≤ 1 →
    exec (.schedHold fn v) s = .next { s with sched := { s.sched with hold := v.getLsbD 0 } }) ∧
  (∀ (fn : Nat) (v : BitVec 32) (s : State), 1 < fn → exec (.genHold fn v) s = .next s ∧ exec (.schedHold fn v) s = .next s ∧
    exec (.rtWinLatch fn v) s = .next s ∧ exec (.acctWinLatch fn v) s = .next s) ∧
  (∀ (fn : Nat) (v : BitVec 32) (s : State), fn ≤ 1 →
    ∃ u, exec (.rtWinLatch fn v) s = .next u ∧ u.gen.win.length = 256 ∧
      (mget s.gen.entries (v.toNat % 4096) = none → u.gen.win = zeros 256) ∧
      (∀ x, mget s.gen.entries (v.toNat % 4096) = some x → rd u.gen.win 0 1 = x.state.code ∧ rd u.gen.win 8 8 = x.tag % 2 ^ 64) ∧
      u = { s with gen := { s.gen with win := u.gen.win, winSel := u.gen.winSel } }) ∧
  (∀ (fn : Nat) (v : BitVec 32) (s : State), fn ≤ 1 →
    ∃ u, exec (.acctWinLatch fn v) s = .next u ∧ u.sched.acctSel = (v &&& 0xFFF) ∧ u.sched.acctWin.length = 256 ∧
      (∀ x, mget s.sched.accounts (v.toNat % 4096) = some x → u.sched.acctWin.take 32 = acctRecBytes (v.toNat % 4096) x.record ∧
        rd u.sched.acctWin 152 4 = 1 + 4 * (mgetD s.sched.keygen (v.toNat % 4096) 0 % 16)) ∧
      (mget s.sched.accounts (v.toNat % 4096) = none → v.toNat % 4096 ∉ s.sched.scrubbing → u.sched.acctWin = zeros 256) ∧
      u = { s with sched := { s.sched with acctSel := u.sched.acctSel, acctWin := u.sched.acctWin } }) ∧
  (∀ (g : Nat) (s : State), (clusterOf s g).awake = true → (clusterOf s g).idle = true → (clusterOf s g).spareOp = none →
    ∃ u, exec (.clusterSleep g) s = .next u ∧ clusterOf u g = { clusterOf s g with awake := false } ∧
      (∀ j, j ≠ g → clusterOf u j = clusterOf s j) ∧ BootOnly s u) ∧
  (∀ (g : Nat) (s : State), ((clusterOf s g).idle = false ∨ (clusterOf s g).spareOp.isSome = true) → exec (.clusterSleep g) s = .next s) ∧
  (∀ (v : BitVec 32) (s : State), ∃ u, exec (.fabRtDataWrite 1 v) s = .next u ∧
    (if s.fab.rtSel.getLsbD 14 then u.fab.rtGroup = mset s.fab.rtGroup (s.fab.rtSel.toNat % 2 ^ 14) (v &&& 0x3FFF) ∧ u.fab.rtLocal = s.fab.rtLocal
      else u.fab.rtLocal = mset s.fab.rtLocal (s.fab.rtSel.toNat % 2 ^ 14) (v &&& 0x3FFF) ∧ u.fab.rtGroup = s.fab.rtGroup) ∧
    u = { s with fab := { s.fab with rtGroup := u.fab.rtGroup, rtLocal := u.fab.rtLocal } }) ∧
  (∀ (fn : Nat) (v : BitVec 32) (s : State), fn ≠ 1 → exec (.fabRtDataWrite fn v) s = .next s) ∧
  (∀ s : State, selSet s ≠ 0 → setBusy s (selSet s) = false →
    ∃ u, exec (.fabSetClear 1) s = .next u ∧ mget u.fab.setSizes (selSet s) = some 0 ∧ setMembersOf u (selSet s) = [] ∧
      (∀ j, j ≠ selSet s → mget u.fab.setSizes j = mget s.fab.setSizes j) ∧ mget u.fab.redCount (selSet s) = none ∧ FabOnly s u) ∧
  (∀ (fn : Nat) (s : State), (fn ≠ 1 ∨ selSet s = 0 ∨ setBusy s (selSet s) = true) → exec (.fabSetClear fn) s = .next s)

/-! ### Walks and the merge (08) -/

/-- A pass starts when credits for all its walks are free and no pass has waited longer (08 R281).
A killed walk ends with reason 4 before its hop (08 R289); another expands its node: the hop is counted, and the walk goes on in
its engine, relays to another, or ends with its report (08 R272, R284 to R287), with reason 3 where the way is cut (02 R46); a relay is
accepted once, in whatever order it comes (08 R284). -/
def Obligations.walks : Prop :=
  (∀ (e place : Nat) (w : SearchWork) (c : Collection) (s : State), workOf s e = some w → w.waiting = some place →
    mget s.obj.collections w.par.coll = some c → minNat (waitingPlaces s) = some place → s.search.credits + freedCount s .credit + w.entryNodes.length ≤ 16384 →
    ∃ u, exec (.walkStart e) s = .next u ∧ u.search.credits = s.search.credits + w.entryNodes.length ∧
      workOf u e = some { w with waiting := none, walks := w.walks + w.entryNodes.length } ∧ u.hif.hostMem = s.hif.hostMem ∧
      u.obj = s.obj ∧ u.flash = s.flash ∧ u.sched = s.sched) ∧
  (∀ (e : Nat) (w : SearchWork) (s : State), workOf s e = some w → 16384 < s.search.credits + freedCount s .credit + w.entryNodes.length →
    exec (.walkStart e) s = .next s) ∧
  (∀ (tag n : Nat) (rdb : Bool) (w : Walk) (s : State), mget s.search.walks (walkKey tag n) = some w → w.place = some true →
    s.boot.hubRestart.contains (w.engine / 8) = false → s.search.killed.contains tag = true →
    ∃ u, exec (.walkHop tag n rdb) s = .next u ∧ mget u.search.walks (walkKey tag n) = none ∧
      endReportOf w w.engine 4 ∈ u.search.endsOut ∧ u.search.hops = s.search.hops ∧ SearchOnly s u) ∧
  (∀ (tag n nx : Nat) (rdb : Bool) (w x : Walk) (l : List Cand) (c : Collection) (sw : SearchWork) (s : State),
    mget s.search.walks (walkKey tag n) = some w → w.place = some true → s.boot.hubRestart.contains (w.engine / 8) = false →
    s.search.killed.contains tag = false → mget s.obj.collections w.coll = some c → workOf s w.entry = some sw →
    hopOnce c.desc w (rdb && c.nodeReadable w.next && !(channelOf s w.engine).failed) (slotNbrs c sw.sketch w.next) = (x, l, HopEnd.next nx) →
    c.engineOf nx = w.engine → hubUnreachable s (w.engine / 8) = false →
    ∃ u, exec (.walkHop tag n rdb) s = .next u ∧ mget u.search.walks (walkKey tag n) = some x ∧ u.search.hops = s.search.hops + 1 ∧
      u.search.offers = s.search.offers + l.length ∧ u.flash.reads = s.flash.reads + 1 ∧
      (∀ j, j ≠ walkKey tag n → mget u.search.walks j = mget s.search.walks j) ∧ u.hif.hostMem = s.hif.hostMem) ∧
  (∀ (tag n why : Nat) (rdb : Bool) (w x : Walk) (l : List Cand) (c : Collection) (sw : SearchWork) (s : State),
    mget s.search.walks (walkKey tag n) = some w → w.place = some true → s.boot.hubRestart.contains (w.engine / 8) = false →
    s.search.killed.contains tag = false → mget s.obj.collections w.coll = some c → workOf s w.entry = some sw →
    hopOnce c.desc w (rdb && c.nodeReadable w.next && !(channelOf s w.engine).failed) (slotNbrs c sw.sketch w.next) = (x, l, HopEnd.ended why) →
    ∃ u, exec (.walkHop tag n rdb) s = .next u ∧ mget u.search.walks (walkKey tag n) = none ∧
      endReportOf x x.engine why ∈ u.search.endsOut ∧ u.search.hops = s.search.hops + 1) ∧
  (∀ (tag n nx : Nat) (rdb : Bool) (w x : Walk) (l : List Cand) (c : Collection) (sw : SearchWork) (s : State),
    mget s.search.walks (walkKey tag n) = some w → w.place = some true → s.boot.hubRestart.contains (w.engine / 8) = false →
    s.search.killed.contains tag = false → mget s.obj.collections w.coll = some c → workOf s w.entry = some sw →
    hopOnce c.desc w (rdb && c.nodeReadable w.next && !(channelOf s w.engine).failed) (slotNbrs c sw.sketch w.next) = (x, l, HopEnd.next nx) →
    c.engineOf nx ≠ w.engine → relayBlocked s w.engine (c.engineOf nx) = false →
    ∃ u y, exec (.walkHop tag n rdb) s = .next u ∧ mget u.search.walks (walkKey tag n) = some y ∧ y.place = none ∧
      y.engine = c.engineOf nx ∧ y.src = w.engine ∧ y.relays = x.relays + 1 ∧
      y.seq = mgetD s.search.seqSent (pairKey (c.engineOf nx) w.engine) 0 ∧ y.queue = x.queue ∧
      u.search.relays = s.search.relays + 1 ∧ u.search.hops = s.search.hops + 1 ∧ u.hif.hostMem = s.hif.hostMem) ∧
  (∀ (tag n nx : Nat) (rdb : Bool) (w x : Walk) (l : List Cand) (c : Collection) (sw : SearchWork) (s : State),
    mget s.search.walks (walkKey tag n) = some w → w.place = some true → s.boot.hubRestart.contains (w.engine / 8) = false →
    s.search.killed.contains tag = false → mget s.obj.collections w.coll = some c → workOf s w.entry = some sw →
    hopOnce c.desc w (rdb && c.nodeReadable w.next && !(channelOf s w.engine).failed) (slotNbrs c sw.sketch w.next) = (x, l, HopEnd.next nx) →
    relayBlocked s w.engine (c.engineOf nx) = true →
    ∃ u, exec (.walkHop tag n rdb) s = .next u ∧ mget u.search.walks (walkKey tag n) = none ∧ endReportOf x x.engine 3 ∈ u.search.endsOut) ∧
  (∀ (m : RelayMsg) (w : Walk) (s : State), seqTaken s (pairKey m.dst m.src) m.seq = false → walkInMsg s m = some w →
    hubWaits s m.dst = false → s.search.killed.contains w.tag = false →
    ∃ u x, exec (.relayArrive m) s = .next u ∧ seqTaken u (pairKey m.dst m.src) m.seq = true ∧
      (∀ q, seqTaken s (pairKey m.dst m.src) q = true → seqTaken u (pairKey m.dst m.src) q = true) ∧
      mget u.search.walks (walkKey m.tag m.walk) = some x ∧ x.place.isSome = true ∧ x.arrival = s.search.nextArrival) ∧
  (∀ (m : RelayMsg) (s : State), seqTaken s (pairKey m.dst m.src) m.seq = true → exec (.relayArrive m) s = .next s)

/-- The merge unit takes an offer batch into the list of its walk, admitting what passes, and an end report returns its walk's
credit (08 R288, R290, R291); the lists of a request in stage 7 unite once (08 R292).
The shards whose lists have not come when the wait is over are left out and counted (01 R35); a lost node is rebuilt from its
stored vector (08 R302); the hold bit stops searches before stage 5 and lets them go on (08 R304). -/
def Obligations.merging_and_search_ends : Prop :=
  (∀ (b : OfferMsg) (e : Nat) (w : SearchWork) (c : Collection) (s : State), b ∈ s.search.offersOut → tagOwner s b.tag = some e →
    workOf s e = some w → mget s.obj.collections w.par.coll = some c →
    ∃ u, exec (.offerBatch b) s = .next u ∧ u.search.offersOut = s.search.offersOut.erase b ∧ workOf u e = some { w with
        lists := (mset w.lists b.walk ((b.entries.filter fun x => match mget c.items x.id with | some i => admits w x.id i | none => false).foldl
          (listInsert (passPar w).queueLen) (mgetD w.lists b.walk []))),
        received := mset w.received b.walk (mgetD w.received b.walk 0 + b.entries.length) } ∧
      u.hif.hostMem = s.hif.hostMem ∧ u = { s with search := u.search, gen := u.gen, hif := u.hif, regs := u.regs }) ∧
  (∀ (m : EndMsg) (e : Nat) (w : SearchWork) (s : State), m ∈ s.search.endsOut → tagOwner s m.tag = some e → workOf s e = some w →
    ∃ u, exec (.endReport m) s = .next u ∧ u.search.endsOut = s.search.endsOut.erase m ∧ u.search.credits = s.search.credits - 1 ∧
      workOf u e = some { w with ended := mset w.ended m.walk m.offered, hops := w.hops + m.hops, relays := w.relays + m.relays,
                                 badHops := w.badHops + m.bad } ∧
      freedCount u .credit = freedCount s .credit + 1 ∧
      u = { s with search := u.search, gen := u.gen, boot := { s.boot with freed := u.boot.freed } }) ∧
  (∀ (e : Nat) (x : RtEntry) (s : State), e < 4096 → mget s.gen.entries e = some x → x.state = .pre → x.work.stage = 7 →
    passFinished x.work.search = true → x.work.search.merged = false →
    ∃ u, exec (.mergeUnite e) s = .next u ∧ mget u.gen.entries e = some { x with work := { x.work with search := settlePass x.work.search } } ∧
      (settlePass x.work.search).merged = true ∧ (∀ j, j ≠ e → mget u.gen.entries j = mget s.gen.entries j) ∧
      u = { s with gen := { s.gen with entries := u.gen.entries } }) ∧
  (∀ (e : Nat) (x : RtEntry) (s : State), mget s.gen.entries e = some x → x.state = .pre → x.work.search.shardsLeft ≠ [] →
    ∃ u, exec (.shardWaitExpiry e) s = .next u ∧ mget u.gen.entries e = some { x with work := { x.work with search := { x.work.search with
        missingShards := x.work.search.missingShards + x.work.search.shardsLeft.length, shardsLeft := [] } } } ∧
      (∀ j, j ≠ e → mget u.gen.entries j = mget s.gen.entries j) ∧
      u = { s with gen := { s.gen with entries := u.gen.entries }, search := { s.search with owed := u.search.owed }
                   boot := u.boot, hif := u.hif, regs := u.regs }) ∧
  (∀ (k n : Nat) (c : Collection) (i : Item) (s : State), mget s.obj.collections k = some c → n ∈ c.rebuild → mget c.items n = some i →
    hubWaits s (c.engineOf n) = false →
    ∃ u d, exec (.nodeRebuild k n) s = .next u ∧ CollChanged k d s u ∧ n ∉ d.rebuild ∧
      (∃ x, mget d.nodes n = some x ∧ x.sketch = nodeSketch c n) ∧ (∀ j, j ≠ n → mget d.nodes j = mget c.nodes j) ∧ d.items = c.items) ∧
  (∀ (fn : Nat) (s : State), fn ≤ 1 → exec (.searchHoldSet fn) s = .next { s with search := { s.search with hold := true } }) ∧
  (∀ (fn : Nat) (s : State), 1 < fn → exec (.searchHoldSet fn) s = .next s ∧ exec (.searchHoldClear fn) s = .next s) ∧
  (∀ (fn : Nat) (s : State), fn ≤ 1 → heldSearches s = [] →
    exec (.searchHoldClear fn) s = .next { s with search := { s.search with hold := false } }) ∧
  (∀ (fn place e : Nat) (x : RtEntry) (p : Profile) (c : Collection) (s : State), fn ≤ 1 → heldSearches s = [(place, e)] → e < 4096 →
    mget s.gen.entries e = some x → x.work.profile = some p → p.shardSet = 0 → mget s.obj.collections x.work.search.par.coll = some c →
    ∃ u y, exec (.searchHoldClear fn) s = .next u ∧ u.search = { s.search with hold := false } ∧
      mget u.gen.entries e = some { x with work := { x.work with search := { x.work.search with heldHere := false } } } ∧
      mget u.sched.units s.sched.nextUnit = some y ∧ y.kind = .stage e 5 ∧
      (∀ j, j ≠ e → mget u.gen.entries j = mget s.gen.entries j) ∧ u = { s with gen := u.gen, sched := u.sched, search := u.search })

/-! ### The scheduler (14) -/

/-- A heat falls on the next multiple of 100 µs and is counted; a unit alone in the queue that finds its slots is placed on them
with its slice (14 R527, R531, R535). -/
def Obligations.heats_place_units : Prop :=
  (∀ s : State, (∀ e, e ∈ s.gen.entries → e.2.deadline = 0) → s.sched.units = [] →
    ∃ u, exec .heat s = .next u ∧ u.sched = { s.sched with heats := s.sched.heats + 1 } ∧
      u.boot.cycles = max s.boot.cycles (cycleOfNs (100000 * (now s / 100000 + 1))) ∧ u = { s with sched := u.sched, boot := u.boot, hif := u.hif, regs := u.regs }) ∧
  (∀ (n : Nat) (x : SUnit) (l : List (Nat × Nat)) (s : State), (∀ e, e ∈ s.gen.entries → e.2.deadline = 0) → s.sched.units = [(n, x)] → x.slots = [] → s.sched.hold = false →
    bestSlots (advanceTo (100000 * (now s / 100000 + 1)) s) n x = some l →
    ∃ u y, exec .heat s = .next u ∧ mget u.sched.units n = some y ∧ y.slots = l ∧ y.saved = [] ∧ y.ownNs = x.ownNs ∧
      y.sliceEnd = x.ownNs + (sliceOf s x).1 ∧ (∀ p, p ∈ l → (clusterOf u p.1).awake = true) ∧ u.sched.heats = s.sched.heats + 1) ∧
  (∀ s : State, (∀ e, e ∈ s.gen.entries → e.2.deadline = 0) → s.sched.hold = true → (∀ x, x ∈ s.sched.units → x.2.slots = []) → (∀ x, x ∈ s.sched.units → x.2.sliceEnded = none) →
    ∃ u, exec .heat s = .next u ∧ u.sched = { s.sched with heats := s.sched.heats + 1 })

/-- A slice ends at its instant of the unit's own time (14 R535); at a preemption point an unmarked unit goes on past it and a marked
one leaves its slot with its context saved (05 R161, R179; 14 R530); a run past its last operation completes OK (10 R348).
The watchdog of a context that does not stand at a point tears it down with fault 3 (05 R184 to R186, 14 R539): its slot is empty, the fault is counted and recorded, and the
request it served ends FAULT with that detail (14 R540). -/
def Obligations.slices_and_the_watchdog : Prop :=
  (∀ (n : Nat) (x : SUnit) (s : State), mget s.sched.units n = some x → x.slots ≠ [] → x.sliceEnded = none → x.ownNs ≤ x.sliceEnd →
    unitWatchdog s x + (x.sliceEnd - x.ownNs) ≤ watchdogNs →
    ∃ u, exec (.sliceEnd n) s = .next u ∧ mget u.sched.units n = some { x with sliceEnded := some x.sliceEnd, ownNs := x.sliceEnd } ∧
      (∀ j, j ≠ n → mget u.sched.units j = mget s.sched.units j) ∧
      u = { s with sched := { s.sched with units := u.sched.units, accounts := u.sched.accounts }
                   boot := { s.boot with clusters := u.boot.clusters } }) ∧
  (∀ (n : Nat) (x : SUnit) (s : State), mget s.sched.units n = some x → watchdogNs < unitWatchdog s x + (x.sliceEnd - x.ownNs) →
    exec (.sliceEnd n) s = .next s) ∧
  (∀ (n ran e st : Nat) (p : Nat × Nat) (x : SUnit) (c : Ctx) (s : State), mget s.sched.units n = some x → x.slots = [p] → x.kind = .stage e st →
    mget (clusterOf s p.1).slots p.2 = some c → atPoint (mget s.obj.images x.image) c = true → x.marked = none →
    (clusterOf s p.1).drain = false → c.watchdog + ran ≤ watchdogNs →
    ∃ u y, exec (.preemptPointReached n ran) s = .next u ∧ mget u.sched.units n = some y ∧ y.slots = [p] ∧ y.ownNs = x.ownNs + ran ∧
      mget (clusterOf u p.1).slots p.2 = some (passPoint (mget s.obj.images x.image) c) ∧
      (∀ g, g ≠ p.1 → clusterOf u g = clusterOf s g) ∧ u = { s with sched := u.sched, boot := u.boot }) ∧
  (∀ (n ran e st w : Nat) (b : Bool) (p : Nat × Nat) (x : SUnit) (c : Ctx) (s : State), mget s.sched.units n = some x → x.slots = [p] →
    x.kind = .stage e st → mget (clusterOf s p.1).slots p.2 = some c → c.unit = n → atPoint (mget s.obj.images x.image) c = true →
    x.marked = some (w, b) → mget s.sched.units w = none → c.watchdog + ran ≤ watchdogNs →
    ∃ u y, exec (.preemptPointReached n ran) s = .next u ∧ mget u.sched.units n = some y ∧ y.slots = [] ∧ y.marked = none ∧
      y.saved = [(0, passPoint (mget s.obj.images x.image) c)] ∧ mget (clusterOf u p.1).slots p.2 = none ∧
      u.sched.preempts = s.sched.preempts + 1 ∧ u.hif.hostMem = s.hif.hostMem) ∧
  (∀ (n ran e : Nat) (x : SUnit) (y : RtEntry) (s : State), mget s.sched.units n = some x → x.slots ≠ [] → x.kind = .run e →
    (unitCtxs s x).all (ctxDone (mget s.obj.images x.image)) = true → (unitCtxs s x).all (atPoint (mget s.obj.images x.image)) = true →
    mget s.gen.entries e = some y → y.state ≠ .drain → y.cancellers = [] → y.work.disabled = false → y.work.pendingFault = none →
    y.work.dropsRetired = 0 → y.work.dropsFull = 0 → tripOf s x ran = none →
    ∃ u z, exec (.preemptPointReached n ran) s = .next u ∧ mget u.gen.entries e = some z ∧ z.state = .drain ∧ z.finish = Status.ok ∧
      z.work.completed = true) ∧
  (∀ (g slot e st : Nat) (c : Ctx) (x : SUnit) (y : RtEntry) (s : State), mget (clusterOf s g).slots slot = some c →
    mget s.sched.units c.unit = some x → x.kind = .stage e st → mget s.gen.entries e = some y → y.state ≠ .drain → y.cancelPending = false →
    y.work.disabled = false → standing (mget s.obj.images x.image) slot (clusterOf s g) c = false →
    ∃ u z, exec (.watchdogExpiry g slot) s = .next u ∧ mget (clusterOf u g).slots slot = none ∧ u.sched.faults = s.sched.faults + 1 ∧
      s.mgmt.lastSeq < u.mgmt.lastSeq ∧ mget u.gen.entries e = some z ∧ z.state = .drain ∧ z.finish = Status.fault ∧ z.work.detail = 3 ∧
      z.work.endStage = st) ∧
  (∀ (g slot : Nat) (c : Ctx) (x : SUnit) (s : State), mget (clusterOf s g).slots slot = some c → mget s.sched.units c.unit = some x →
    standing (mget s.obj.images x.image) slot (clusterOf s g) c = true → exec (.watchdogExpiry g slot) s = .next s)

/-! ### Operations and passes (04, 05) -/

/-- An operation whose operands are at hand writes its outputs and its context goes on past it (05 R159); a run-time extent above its
largest, a refused access and a poisoned line tear the context down before anything is read (05 R153, 12 R444, R447). -/
def Obligations.operations_start : Prop :=
  (∀ (g slot : Nat) (env : OpEnv) (x : OpCx) (ins : List Operand) (outs : List OutVal) (fl : BitVec 4) (s v : State),
    opReady s g slot = some x → env.extentBad = false → env.tagBad = false → env.poison = false →
    ((x.o.ins ++ x.o.outs).filterMap (tensorAt x.i.tensors)).any (overExtent s x.n x.u) = false →
    (∀ l, l ∈ env.memberLines → ∀ m, m ∈ x.u.members → m.1 ≠ l.1) →
    v = chargeUnit x.u (64 * env.brixjoLines) (fun q => { brixjoBytes := q }) (countCores g env s) →
    (∀ t, t ∈ x.o.ins → lateFetches x t = []) →
    x.o.opcode ∉ [0x01, 0x02, 0x21, 0x50, 0x51, 0x52, 0x33, 0x40, 0x41, 0x70, 0x71, 0x73, 0x74] → operandsOf v v.free x = some ins →
    evalOp v.free x.o ins ((x.o.outs[0]?.bind (tensorAt x.i.tensors)).map (runDims v x.n x.u) |>.getD [])
      ((x.o.outs[0]?.bind (tensorAt x.i.tensors)).map (fun t => tensorBytesOf t.fmt (runDims v x.n x.u t)) |>.getD 0) = some (outs, fl) →
    ∃ u c, exec (.operationStart g slot env) s = .next u ∧ mget (clusterOf u g).slots slot = some c ∧ c.pc = x.c.pc + 1 ∧
      c.waiting = false ∧ c.unit = x.c.unit ∧ (∀ j, j ≠ slot → mget (clusterOf u g).slots j = mget (clusterOf s g).slots j) ∧
      (∀ j, j ≠ g → clusterOf u j = clusterOf s j) ∧ u.hif.hostMem = s.hif.hostMem ∧ u.obj.tables = s.obj.tables ∧
      u.obj.collections = s.obj.collections ∧ (∀ j, j ≠ x.n → mget u.sched.units j = mget s.sched.units j)) ∧
  (∀ (g slot : Nat) (env : OpEnv) (x : OpCx) (s : State), opReady s g slot = some x → (env.extentBad = true ∨ env.tagBad = true ∨ env.poison = true) →
    ∃ u, exec (.operationStart g slot env) s = .next u ∧ mget (clusterOf u g).slots slot = none ∧ u.sched.faults = s.sched.faults + 1 ∧
      (env.extentBad = false → env.tagBad = true →
        ((x.o.ins ++ x.o.outs).filterMap (tensorAt x.i.tensors)).any (overExtent s x.n x.u) = false → u.mem.tagFaults = s.mem.tagFaults + 1)) ∧
  (∀ (g slot : Nat) (env : OpEnv) (s : State), opReady s g slot = none → exec (.operationStart g slot env) s = .next s)

/-- A pass in its turn issues: it is counted, its weights and slot are noted, and its group goes on or, with the last pass, ends
(04 R103, R104, R107); a bad descriptor, a pass out of turn, or a new group before that of a slot whose turn it is (05 R178) issues nothing; a range outside the allocation tears the context
down with fault 2 and issues nothing (04 R133). -/
def Obligations.passes_issue : Prop :=
  (∀ (g slot : Nat) (b : Bytes) (env : PassEnv) (c : Ctx) (x : SUnit) (acc : List AccEntry) (s : State), mget (clusterOf s g).slots slot = some c →
    mget s.sched.units c.unit = some x → passForm b = true → passFormats (passOf b) = true → passTurn (clusterOf s g) slot (passOf b) = some acc →
    ((clusterOf s g).group.isSome = true ∨ arrayTurn s g slot = true) → inAlloc x.sram (passOf b) = true → env.residueColumn = none → (passOf b).last = false →
    ∃ u q, exec (.passIssue g slot b env) s = .next u ∧ (clusterOf u g).passCount = (clusterOf s g).passCount + 1 ∧
      (clusterOf u g).lastSlot = slot ∧ (clusterOf u g).weights = some (weightId c.unit (x.slots.idxOf (g, slot)) b (passOf b)) ∧ (clusterOf u g).group = some q ∧
      q.slot = slot ∧ q.next = (passOf b).index + 1 ∧ (clusterOf u g).slots = (clusterOf s g).slots ∧
      (∀ j, j ≠ g → clusterOf u j = clusterOf s j) ∧ u.hif.hostMem = s.hif.hostMem ∧ u.sched.units = s.sched.units) ∧
  (∀ (g slot : Nat) (b : Bytes) (env : PassEnv) (c : Ctx) (x : SUnit) (acc : List AccEntry) (s : State), mget (clusterOf s g).slots slot = some c →
    mget s.sched.units c.unit = some x → passForm b = true → passFormats (passOf b) = true → passTurn (clusterOf s g) slot (passOf b) = some acc →
    ((clusterOf s g).group.isSome = true ∨ arrayTurn s g slot = true) → inAlloc x.sram (passOf b) = true → env.residueColumn = none → (passOf b).last = true →
    ∃ u, exec (.passIssue g slot b env) s = .next u ∧ (clusterOf u g).passCount = (clusterOf s g).passCount + 1 ∧
      (clusterOf u g).lastSlot = slot ∧ (clusterOf u g).group = none ∧
      (∀ j, j ≠ slot → mget (clusterOf u g).slots j = mget (clusterOf s g).slots j) ∧ (∀ j, j ≠ g → clusterOf u j = clusterOf s j)) ∧
  (∀ (g slot : Nat) (b : Bytes) (env : PassEnv) (s : State), (passForm b = false ∨ passFormats (passOf b) = false ∨
      passTurn (clusterOf s g) slot (passOf b) = none ∨ ((clusterOf s g).group = none ∧ arrayTurn s g slot = false)) → exec (.passIssue g slot b env) s = .next s) ∧
  (∀ (g slot : Nat) (b : Bytes) (env : PassEnv) (c : Ctx) (x : SUnit) (acc : List AccEntry) (s : State), mget (clusterOf s g).slots slot = some c →
    mget s.sched.units c.unit = some x → passForm b = true → passFormats (passOf b) = true → passTurn (clusterOf s g) slot (passOf b) = some acc →
    ((clusterOf s g).group.isSome = true ∨ arrayTurn s g slot = true) → inAlloc x.sram (passOf b) = false →
    ∃ u, exec (.passIssue g slot b env) s = .next u ∧ (clusterOf u g).fault.getLsbD 1 = true ∧ (clusterOf u g).passCount = (clusterOf s g).passCount ∧
      mget (clusterOf u g).slots slot = none ∧ u.sched.faults = s.sched.faults + 1)

/-- Draining, retiring, sparing and self-test of an array (04 R120 to R125, R135): only a physical function asks; an operation starts
on a drained array with a healthy spare left, else its result says why not, the lowest of those that hold (the model's order: assumption
36); at its end the map takes the spare (04 R116). -/
def Obligations.array_service : Prop :=
  (∀ (fn g : Nat) (b : Bool) (s : State), fn ≤ 1 → g < 320 →
    ∃ u, exec (.arrDrain fn g b) s = .next u ∧ clusterOf u g = (if b then { clusterOf s g with drain := true, undrainAfter := false }
        else if (clusterOf s g).spareOp.isSome then { clusterOf s g with undrainAfter := true } else { clusterOf s g with drain := false }) ∧
      (∀ j, j ≠ g → clusterOf u j = clusterOf s j) ∧ u = { s with boot := { s.boot with clusters := u.boot.clusters } }) ∧
  (∀ (fn g : Nat) (s : State), fn ≤ 1 → g < 320 → (clusterOf s g).retired = false →
    ∃ u, exec (.arrRetire fn g) s = .next u ∧ clusterOf u g = { clusterOf s g with retired := true } ∧
      (∀ j, j ≠ g → clusterOf u j = clusterOf s j) ∧ s.mgmt.lastSeq < u.mgmt.lastSeq ∧ u.hif.hostMem = s.hif.hostMem ∧ u.sched = s.sched) ∧
  (∀ (fn g i : Nat) (s : State), fn ≤ 1 → g < 320 → (clusterOf s g).spareOp = none → (clusterOf s g).drained = true →
    spareLines (clusterOf s g).rows (clusterOf s g).badRows ≠ 0 → i % 256 < 128 → i % 256 ∉ (clusterOf s g).rows →
    ∃ u, exec (.arrSpareRow fn g i) s = .next u ∧
      clusterOf u g = { clusterOf s g with spareOp := some (.row (i % 256)), resultValid := false, weights := none } ∧
      (∀ j, j ≠ g → clusterOf u j = clusterOf s j) ∧ u = { s with boot := { s.boot with clusters := u.boot.clusters } }) ∧
  (∀ (fn g i : Nat) (s : State), fn ≤ 1 → g < 320 → (clusterOf s g).spareOp = none → (clusterOf s g).drained = true →
    spareLines (clusterOf s g).cols (clusterOf s g).badCols ≠ 0 → i % 256 < 128 → i % 256 ∉ (clusterOf s g).cols →
    ∃ u, exec (.arrSpareColumn fn g i) s = .next u ∧
      clusterOf u g = { clusterOf s g with spareOp := some (.col (i % 256)), resultValid := false, weights := none } ∧
      (∀ j, j ≠ g → clusterOf u j = clusterOf s j) ∧ u = { s with boot := { s.boot with clusters := u.boot.clusters } }) ∧
  (∀ (fn g : Nat) (s : State), fn ≤ 1 → g < 320 → (clusterOf s g).spareOp = none → (clusterOf s g).drained = true →
    ∃ u, exec (.arrSelfTest fn g) s = .next u ∧ clusterOf u g = { clusterOf s g with spareOp := some .selfTest, resultValid := false } ∧
      (∀ j, j ≠ g → clusterOf u j = clusterOf s j) ∧ u = { s with boot := { s.boot with clusters := u.boot.clusters } }) ∧
  (∀ (fn g i r : Nat) (s : State), fn ≤ 1 → g < 320 → (clusterOf s g).spareOp = none →
    ((clusterOf s g).drained = false ∧ r = 1 ∨ (clusterOf s g).drained = true ∧ spareLines (clusterOf s g).rows (clusterOf s g).badRows = 0 ∧ r = 2 ∨
      (clusterOf s g).drained = true ∧ spareLines (clusterOf s g).rows (clusterOf s g).badRows ≠ 0 ∧ (128 ≤ i % 256 ∨ i % 256 ∈ (clusterOf s g).rows) ∧ r = 3) →
    ∃ u, exec (.arrSpareRow fn g i) s = .next u ∧ clusterOf u g = { clusterOf s g with result := r, resultValid := true }) ∧
  (∀ (fn g i r : Nat) (s : State), fn ≤ 1 → g < 320 → (clusterOf s g).spareOp = none →
    ((clusterOf s g).drained = false ∧ r = 1 ∨ (clusterOf s g).drained = true ∧ spareLines (clusterOf s g).cols (clusterOf s g).badCols = 0 ∧ r = 2 ∨
      (clusterOf s g).drained = true ∧ spareLines (clusterOf s g).cols (clusterOf s g).badCols ≠ 0 ∧ (128 ≤ i % 256 ∨ i % 256 ∈ (clusterOf s g).cols) ∧ r = 3) →
    ∃ u, exec (.arrSpareColumn fn g i) s = .next u ∧ clusterOf u g = { clusterOf s g with result := r, resultValid := true }) ∧
  (∀ (fn g : Nat) (s : State), fn ≤ 1 → g < 320 → (clusterOf s g).spareOp = none → (clusterOf s g).drained = false →
    ∃ u, exec (.arrSelfTest fn g) s = .next u ∧ clusterOf u g = { clusterOf s g with result := 1, resultValid := true }) ∧
  (∀ (g : Nat) (fault : Option (Nat × Nat)) (op : SpareOp) (s : State), (clusterOf s g).spareOp = some op →
    ∃ u, exec (.arrSpareDone g fault) s = .next u ∧ (clusterOf u g).spareOp = none ∧ (clusterOf u g).resultValid = true ∧
      (clusterOf u g).result = (if fault.isSome then 4 else 0) ∧
      (∀ i l, op = .row i → bypassFor (i :: (clusterOf s g).rows ++ (clusterOf s g).badRows) = some l →
        (clusterOf u g).rows = l ∧ (clusterOf u g).cols = (clusterOf s g).cols ∧ (i < 128 → i ∈ (clusterOf u g).rows)) ∧
      (∀ i l, op = .col i → bypassFor (i :: (clusterOf s g).cols ++ (clusterOf s g).badCols) = some l →
        (clusterOf u g).cols = l ∧ (clusterOf u g).rows = (clusterOf s g).rows ∧ (i < 128 → i ∈ (clusterOf u g).cols)) ∧
      (fault.isSome = true → (clusterOf u g).fault.getLsbD 2 = true) ∧ (fault.isSome = true → op ≠ .selfTest → (clusterOf u g).drain = true) ∧
      (∀ j, j ≠ g → clusterOf u j = clusterOf s j) ∧ BootOnly s u)

/-! ### Pacers (19) -/

/-- At its millisecond the clock pacer moves each cluster's code by at most one (19 R710): by the rule of its step, and not under an
override (19 R713).  The admission pacer sets a priority's rate within its bounds, and its upper bound when it is off; while the management pair
restarts neither moves (17 R647).
A safety override begins at its limit, takes one code off its die's clusters every 100 µs, and ends below its leave value
(19 R713). -/
def Obligations.pacers_and_safety_limits : Prop :=
  (∀ (w : Nat) (s : State), s.boot.mgmtRun = true → ∃ u, exec (.clockPacerStep w) s = .next u ∧
    (∀ g, g < 320 → clusterOf u g = { clusterOf s g with code := if overridden s (g / 80) then (clusterOf s g).code else
      (paceCode (s.mgmt.pcrCtl.getLsbD 0) s.boot.clockCap ((Config.free64 s.free).getLsbD 0) (decide (s.mgmt.powerCap < w))
        (clkBoundsOf s (g / 80)).1 (clkBoundsOf s (g / 80)).2 (clusterOf s g).code).1 }) ∧
    (∀ g, 320 ≤ g → clusterOf u g = clusterOf s g) ∧ u.boot.cycles = max s.boot.cycles (cycleOfNs (1000000 * (now s / 1000000 + 1))) ∧
    u.hif.hostMem = s.hif.hostMem ∧ u.sched = s.sched ∧ u.obj = s.obj) ∧
  (∀ (en cap raise excess : Bool) (lo hi code : Nat), (paceCode en cap raise excess lo hi code).1 ≤ code + 1 ∧ code ≤ (paceCode en cap raise excess lo hi code).1 + 1) ∧
  (∀ (w p : Nat) (s : State), s.boot.mgmtRun = false → exec (.clockPacerStep w) s = .next s ∧ exec (.admissionPacer p w) s = .next s) ∧
  (∀ (p w : Nat) (s : State), 1 ≤ p → p ≤ 3 → s.boot.mgmtRun = true →
    ∃ u, exec (.admissionPacer p w) s = .next u ∧
      (s.mgmt.pcrCtl.getLsbD 1 = true → mget u.mgmt.admRate p = some (max (admBoundsOf s p).1 (min (admBoundsOf s p).2 w))) ∧
      (s.mgmt.pcrCtl.getLsbD 1 = false → mget u.mgmt.admRate p = some (admBoundsOf s p).2) ∧ (∀ j, j ≠ p → mget u.mgmt.admRate j = mget s.mgmt.admRate j) ∧ MgmtOnly s u) ∧
  (∀ (q : SafetyQuantity) (v : Nat) (s : State), quantityOk q = true → (safetyLimits q).1 ≤ v → (∀ o, o ∈ s.mgmt.overrides → o.1 ≠ q) →
    ∃ u b, exec (.safetyOverrideEnter q v) s = .next u ∧ u.mgmt.overrides = s.mgmt.overrides ++ [(q, now s, b)] ∧
      u.mgmt.overrideCount = s.mgmt.overrideCount + 1 ∧ MgmtOnly s u) ∧
  (∀ s : State, s.mgmt.overrides ≠ [] →
    ∃ u, exec .safetyOverrideStep s = .next u ∧ (∀ g, g < 320 → clusterOf u g = { clusterOf s g with code :=
        (if overridden s (g / 80) then (clusterOf s g).code - 1 else (clusterOf s g).code) }) ∧
      u.boot.cycles = max s.boot.cycles (cycleOfNs (now s + 100000)) ∧ u.mgmt = s.mgmt ∧ BootOnly s u) ∧
  (∀ (q : SafetyQuantity) (v : Nat) (o : SafetyQuantity × Nat × Bool) (s : State), o ∈ s.mgmt.overrides → o.1 = q → v < (safetyLimits q).2 →
    ∃ u, exec (.safetyOverrideLeave q v) s = .next u ∧ u.mgmt.overrides = s.mgmt.overrides.filter (fun x => x.1 != q) ∧
      u.mgmt.overrideCount = s.mgmt.overrideCount ∧ MgmtOnly s u) ∧
  (∀ (q : SafetyQuantity) (v : Nat) (s : State), (safetyLimits q).2 ≤ v → exec (.safetyOverrideLeave q v) s = .next s)

/-! ### Fetches, scrub, leases (12) -/

/-- A fetch is issued with its deadline (12 R458), arrives when its data are readable, or at its deadline instant has missed and is
counted (12 R460, R462). -/
def Obligations.fetches : Prop :=
  (∀ (n seq : Nat) (p : Nat × Nat) (x : SUnit) (i : Image) (c : Ctx) (r : RelayEntry) (s : State), fetchOf s n seq = some (x, i, c, r) →
    x.slots = [p] → mayIssue i c r = true → s.mem.ctl.getLsbD 2 = false →
    ∃ u f, exec (.fetchIssue n seq) s = .next u ∧ mget (clusterOf u p.1).slots p.2 = some { c with fetches := c.fetches ++ [f] } ∧
      f.seq = r.seq ∧ f.issued = now s ∧ f.deadline = now s + 1000 * r.deadlineUs ∧ (f.state = .arrived ∨ f.state = .outstanding) ∧
      u.mem.fetches = s.mem.fetches + 1 ∧ (∀ g, g ≠ p.1 → clusterOf u g = clusterOf s g) ∧
      u = { s with mem := u.mem, boot := u.boot, hif := u.hif, regs := u.regs }) ∧
  (∀ (n seq : Nat) (p : Nat × Nat) (x : SUnit) (i : Image) (c : Ctx) (r : RelayEntry) (f : Fetch) (rows : List Nat) (s : State),
    fetchOf s n seq = some (x, i, c, r) → x.slots = [p] → fetchOut c seq = some f → now s ≤ f.deadline →
    (f.rowsLeft.filter fun y => !rows.contains y) = [] → (r.fromTier ≠ 2 ∨ s.mem.ctl.getLsbD 2 = false) →
    ∃ u, exec (.fetchArrive n seq rows) s = .next u ∧ mget (clusterOf u p.1).slots p.2 = some { c with fetches := c.fetches.map fun g =>
        (if g.seq = r.seq ∧ g.state = .outstanding then { g with rowsLeft := [], state := .arrived } else g) } ∧
      (∀ g, g ≠ p.1 → clusterOf u g = clusterOf s g) ∧ u.mem.misses = s.mem.misses ∧
      u = { s with mem := u.mem, boot := u.boot, hif := u.hif, regs := u.regs }) ∧
  (∀ (n seq : Nat) (p : Nat × Nat) (x : SUnit) (i : Image) (c : Ctx) (r : RelayEntry) (f : Fetch) (s : State),
    fetchOf s n seq = some (x, i, c, r) → x.slots = [p] → fetchOut c seq = some f →
    ∃ u, exec (.fetchDeadline n seq) s = .next u ∧ mget (clusterOf u p.1).slots p.2 = some { c with
        fetches := (c.fetches.map fun g => if g.seq = r.seq then { g with state := .missed } else g), missed := c.missed ++ [r.seq] } ∧
      u.mem.misses = s.mem.misses + 1 ∧ u.boot.cycles = max s.boot.cycles (cycleOfNs f.deadline) ∧
      (∀ g, g ≠ p.1 → clusterOf u g = clusterOf s g))

/-- A scrub pass leaves clean lines as they are and corrects a line with a correctable error (12 R442, R450); the error that reaches
MEM_SPARE_THRESH within a day spares its row (12 R451); a lease is reclaimed
once, by its lender's event or by clearing lend_en (12 R470, R474); a lease whose path is lost is gone (12 R471). -/
def Obligations.scrub_and_leases : Prop :=
  (∀ (n : Nat) (s : State), (∀ l x, mget s.mem.lines l = some x → x.errBits = []) → exec (.scrubPass n) s = .next s) ∧
  (∀ (n l m : Nat) (left : Map Nat) (x : Line) (s : State), s.mem.ctl.getLsbD 0 = true → n < 20 → (stackOf s n).ok = true →
    lineStack s l = n → s.mem.lines = [(l, x)] →
    decodeLine x.errBits = .corrected left m →
    ((mgetD (stackOf s n).rowErrs (Config.dramRow l) []).filter fun t => decide (now s < t + dayNs)).length + 1 < s.mem.spareThresh →
    ∃ u, exec (.scrubPass n) s = .next u ∧ mget u.mem.lines l = some (metaApply m (miscorrect s l left { x with errBits := [] })) ∧
      (stackOf u n).ce = (stackOf s n).ce + 1 ∧ (stackOf u n).rowsSpared = (stackOf s n).rowsSpared ∧ u.free = s.free ∧
      u.hif.hostMem = s.hif.hostMem) ∧
  (∀ (n l m : Nat) (left : Map Nat) (x : Line) (s : State), s.mem.ctl.getLsbD 0 = true → n < 20 → (stackOf s n).ok = true →
    lineStack s l = n → s.mem.lines = [(l, x)] → decodeLine x.errBits = .corrected left m →
    s.mem.spareThresh ≤ ((mgetD (stackOf s n).rowErrs (Config.dramRow l) []).filter fun t => decide (now s < t + dayNs)).length + 1 →
    (stackOf s n).spares ≠ 0 →
    ∃ u, exec (.scrubPass n) s = .next u ∧ (stackOf u n).rowsSpared = (stackOf s n).rowsSpared + 1 ∧
      (stackOf u n).spares = (stackOf s n).spares - 1 ∧ mget (stackOf u n).spareOf (Config.dramRow l) = some (stackOf s n).rowsSpared ∧
      s.mgmt.lastSeq < u.mgmt.lastSeq) ∧
  (∀ (k : Nat) (l : Lease) (s : State), mget s.mem.lent k = some l → l.reclaimed = false →
    ∃ u, exec (.lendReclaimStart k) s = .next u ∧ mget u.mem.lent k = some { l with reclaimed := true } ∧
      (∀ j, j ≠ k → mget u.mem.lent j = mget s.mem.lent j) ∧ (pairOf u l.peer).unacked.length = (pairOf s l.peer).unacked.length + 1 ∧
      u = { s with mem := { s.mem with lent := u.mem.lent }, fab := u.fab, hif := u.hif, regs := u.regs }) ∧
  (∀ (k : Nat) (s : State), mhas s.mem.borrowed k = true →
    ∃ u, exec (.leasePathLost k) s = .next u ∧ mget u.mem.borrowed k = none ∧ (∀ j, j ≠ k → mget u.mem.borrowed j = mget s.mem.borrowed j) ∧
      u = { s with mem := { s.mem with borrowed := u.mem.borrowed, reclaims := s.mem.reclaims + 1 } }) ∧
  (∀ (fn : Nat) (s : State), fn ≤ 1 →
    ∃ u, exec (.memLendDisable fn) s = .next u ∧ u.mem.ctl.getLsbD 1 = false ∧ u.mem.ctl.getLsbD 2 = s.mem.ctl.getLsbD 2 ∧
      (∀ k l, mget u.mem.lent k = some l → l.reclaimed = true) ∧ u.mem.lines = s.mem.lines)

/-! ### Flash (13) -/

/-- A page that decodes is counted, and a retried one as such (13 R488); level 5 or above marks its block for refresh (R490); an
unreadable one is counted, its block is retired while a spare is left, and a graph page joins its collection's bad pages (R489). -/
def Obligations.flash_reads : Prop :=
  (∀ (r : FlashRead) (l : Nat) (s : State), r.channel < 64 → r.part < 2 → (channelOf s r.channel).failed = false →
    (channelOf s r.channel).retired = false → hubWaits s r.channel = false → r.level = some l → l < 5 →
    ∃ u, exec (.flashReadDecode r) s = .next u ∧ u.flash = { s.flash with reads := s.flash.reads + 1, retry := s.flash.retry + b2n (l != 0) } ∧
      u.obj = s.obj ∧ u.mem = s.mem ∧ u.hif.hostMem = s.hif.hostMem) ∧
  (∀ (r : FlashRead) (l : Nat) (s : State), r.channel < 64 → r.part < 2 → (channelOf s r.channel).failed = false →
    (channelOf s r.channel).retired = false → hubWaits s r.channel = false → r.level = some l → 5 ≤ l → l < 8 →
    (blockAt (channelOf s r.channel) r.part r.die r.block).refresh = none →
    ∃ u, exec (.flashReadDecode r) s = .next u ∧ (blockAt (channelOf u r.channel) r.part r.die r.block).refresh = some s.flash.nextRefresh ∧
      u.flash.nextRefresh = s.flash.nextRefresh + 1 ∧ u.flash.reads = s.flash.reads + 1 ∧ (∀ c, c ≠ r.channel → channelOf u c = channelOf s c)) ∧
  (∀ (r : FlashRead) (k page : Nat) (c : Collection) (s : State), r.channel < 64 → r.part < 2 → (channelOf s r.channel).failed = false →
    (channelOf s r.channel).retired = false → hubWaits s r.channel = false → r.level = none → r.holds = .graphPage k page → mget s.obj.collections k = some c →
    sparesLeft s r.channel r.part ≠ 0 →
    ∃ u d, exec (.flashReadDecode r) s = .next u ∧ mget u.obj.collections k = some d ∧ page ∈ d.badPages ∧ d.items = c.items ∧
      u.flash.fail = s.flash.fail + 1 ∧ (blockAt (channelOf u r.channel) r.part r.die r.block).state = .retired)

/-- Garbage collection starts on a share whose free blocks have fallen below the start level (13 R494, R508), moves its best block's units into a free block and erases it, stops where there is
no candidate, and takes no block of the reserve (13 R493, R494, R499);
wear levelling moves the coldest block likewise while the spread exceeds its limit (13 R491, R492).
Spares running low are noted and noticed once (13 R496); a failed program retires its block onto a spare, and without a spare the
partition becomes read-only (13 R497, R498); a failed channel makes both partitions read-only (13 R498). -/
def Obligations.flash_upkeep_and_wear : Prop :=
  (∀ (ch part : Nat) (s : State), gcDue s ch part = false → exec (.gcStart ch part) s = .next s) ∧
  (∀ (ch part : Nat) (s : State), ch < 64 → part < 2 → (channelOf s ch).ok = true → partRo s part = false → gcDue s ch part = true →
    ∃ u, exec (.gcStart ch part) s = .next u ∧ gcOn (channelOf u ch) part = true ∧ (∀ c, c ≠ ch → channelOf u c = channelOf s c) ∧
      (channelOf u ch).blocks = (channelOf s ch).blocks ∧ u = { s with flash := { s.flash with channels := u.flash.channels } }) ∧
  (∀ (ch part : Nat) (b : Block) (s : State), ch < 64 → part < 2 → gcOn (channelOf s ch) part = true → gcCandidate s ch part = some b →
    hubWaits s ch = false → (b.units = [] ∨ hasFree s ch part = true) → (s.flash.buffered.filter fun y => y.1 == part && y.2.1 == ch) = [] →
    ∃ u x, exec (.gcBlock ch part) s = .next u ∧ blockAt (channelOf u ch) b.part b.die b.num = x ∧ x.state = .free ∧ x.erases = b.erases + 1 ∧
      x.units = [] ∧ (b.units ≠ [] → pickFree s ch part ≠ (b.die, b.num) →
        (blockAt (channelOf u ch) part (pickFree s ch part).1 (pickFree s ch part).2).units = b.units) ∧
      u.flash.gcMoves = s.flash.gcMoves + b.units.length ∧ u.flash.erases = s.flash.erases + 1 ∧
      (∀ c, c ≠ ch → channelOf u c = channelOf s c) ∧ u = { s with flash := u.flash, free := u.free, hif := u.hif, regs := u.regs }) ∧
  (∀ (ch part : Nat) (s : State), ch < 64 → part < 2 → gcOn (channelOf s ch) part = true → gcCandidate s ch part = none →
    hubWaits s ch = false →
    ∃ u, exec (.gcBlock ch part) s = .next u ∧ gcOn (channelOf u ch) part = false ∧ u.flash.gcMoves = s.flash.gcMoves) ∧
  (∀ (ch part : Nat) (b : Block) (s : State), gcOn (channelOf s ch) part = true → gcCandidate s ch part = some b → b.units ≠ [] →
    hasFree s ch part = false → exec (.gcBlock ch part) s = .next s) ∧
  (∀ (ch part : Nat) (b : Block) (s : State), ch < 64 → part < 2 → s.flash.ctl.getLsbD 1 = true → partRo s part = false →
    spreadLimit s part < wearSpreadOf s ch part → coldest s ch part = some b →
    hubWaits s ch = false → (b.units = [] ∨ hasFree s ch part = true) → (s.flash.buffered.filter fun y => y.1 == part && y.2.1 == ch) = [] →
    ∃ u x, exec (.wearLevelMove ch part) s = .next u ∧ blockAt (channelOf u ch) b.part b.die b.num = x ∧ x.state = .free ∧
      x.erases = b.erases + 1 ∧ x.units = [] ∧ u.flash.wlMoves = s.flash.wlMoves + b.units.length ∧
      (∀ c, c ≠ ch → channelOf u c = channelOf s c)) ∧
  (∀ (ch part : Nat) (s : State), wearSpreadOf s ch part ≤ spreadLimit s part → exec (.wearLevelMove ch part) s = .next s) ∧
  (∀ (ch part : Nat) (s : State), ch < 64 → part < 2 → spareLowNoted s ch part = false →
    sparesLeft s ch part * 10 < initialSpares s part → s.hif.waits0 = [] → s.hif.waits1 = [] →
    ∃ u n, exec (.spareLowReached ch part) s = .next u ∧ spareLowNoted u ch part = true ∧
      n ∈ u.hif.notices0 ∧ n.status = Status.spareLow ∧ n.part = part ∧ n.channel = ch ∧ s.mgmt.lastSeq < u.mgmt.lastSeq) ∧
  (∀ (ch part : Nat) (s : State), spareLowNoted s ch part = true →
    exec (.spareLowReached ch part) s = .next s) ∧
  (∀ (ch part die b : Nat) (s : State), ch < 64 → part < 2 → (blockAt (channelOf s ch) part die b).state ≠ .retired → sparesLeft s ch part ≠ 0 →
    ∃ u, exec (.programFail ch part die b) s = .next u ∧ (blockAt (channelOf u ch) part die b).state = .retired ∧
      (blockAt (channelOf u ch) part die b).units = [] ∧ sparesTaken (channelOf u ch) part = sparesTaken (channelOf s ch) part + 1 ∧
      u.flash.retired = s.flash.retired + 1 ∧ u.obj = s.obj ∧ partRo u part = partRo s part) ∧
  (∀ (ch part die b : Nat) (s : State), ch < 64 → part < 2 → (blockAt (channelOf s ch) part die b).state ≠ .retired → sparesLeft s ch part = 0 →
    ∃ u, exec (.programFail ch part die b) s = .next u ∧ partRo u part = true) ∧
  (∀ (ch : Nat) (s : State), ch < 64 → (channelOf s ch).failed = false → (channelOf s ch).retired = false →
    ∃ u, exec (.channelFail ch) s = .next u ∧ (channelOf u ch).failed = true ∧ (channelOf u ch).ok = false ∧ u.flash.sprintRo = true ∧
      u.flash.storeRo = true ∧ u.sched.accounts = s.sched.accounts ∧ u.gen = s.gen)

/-! ### The fabric's links (16) -/

/-- A data flit in order moves the next number on and is acknowledged (16 R596, R597); one whose CRC fails is discarded and answered with a
retry request (16 R593, R597); a port that is DOWN takes none.  A codeword of the short-reach FEC is decoded, and what its blocks do not
complete waits (16 R590, R592).
Retries, key updates, training, sessions and the loss of a link (16 R597 to R601). -/
def Obligations.link_flits_and_ports : Prop :=
  (∀ (port corr uncorr : Nat) (b : Bytes) (s : State), (portOf s port).state = .local → b.length = 256 →
    (crc64 (b.take 248)).toNat = rd b 248 8 → bitsOf (rd b 0 8) 33 32 = 0 → rd b 0 8 % 4096 = (portOf s port).rxSeq →
    ∃ u, exec (.flitReceive port (.flit b corr uncorr)) s = .next u ∧ (portOf u port).rxSeq = ((portOf s port).rxSeq + 1) % 4096 ∧
      ⟨1, (portOf s port).rxSeq, 4 * bitsOf (rd b 0 8) 35 34 + bitsOf (rd b 0 8) 37 36, 1⟩ ∈ (portOf u port).ctl ∧ (portOf u port).state = .local ∧
      (portOf u port).fecCorr = (portOf s port).fecCorr + corr ∧ (portOf u port).fecUncorr = (portOf s port).fecUncorr + uncorr ∧
      FabOnly s u) ∧
  (∀ (port corr uncorr : Nat) (b : Bytes) (s : State), (portOf s port).state = .local → b.length = 256 →
    (crc64 (b.take 248)).toNat ≠ rd b 248 8 → bitsOf (rd b 0 8) 33 32 = 0 →
    ∃ u, exec (.flitReceive port (.flit b corr uncorr)) s = .next u ∧ portOf u port = pushCtl port ⟨2, (portOf s port).rxSeq, 0, 0⟩ { portOf s port with
        linkRetry := (portOf s port).linkRetry + 1, fecCorr := (portOf s port).fecCorr + corr
        fecUncorr := (portOf s port).fecUncorr + uncorr } ∧
      (∀ q, q ≠ port → portOf u q = portOf s q) ∧ FabOnly s u) ∧
  (∀ (port : Nat) (lanes : List (List Nat)) (d : List Nat) (c : Bool) (s : State), (portOf s port).state = .local →
    (portOf s port).shortFec = true → (portOf s port).rxBlocks = [] → linkDecode (laneWord lanes) = some (d, c) →
    ∃ u, exec (.flitReceive port (.words [lanes])) s = .next u ∧ (portOf u port).rxBlocks = (symbolBlocks d).drop 8 ∧
      (portOf u port).fecCorr = (portOf s port).fecCorr + b2n c ∧ (portOf u port).fecUncorr = (portOf s port).fecUncorr ∧ FabOnly s u) ∧
  (∀ (port : Nat) (x : LineIn) (s : State), (portOf s port).state = .down → exec (.flitReceive port x) s = .next s) ∧
  (∀ (port q : Nat) (l : List Nat) (s : State), (portOf s port).state = .local →
    l = ((portOf s port).replay.map Prod.fst).dropWhile (· ≠ q % 4096) →
    ∃ u, exec (.retryRequest port q) s = .next u ∧ (portOf u port).resent = (portOf s port).resent ++ l ∧
      (portOf u port).flits.length = (portOf s port).flits.length + l.length ∧ (portOf u port).replay = (portOf s port).replay ∧
      (portOf u port).credits = (portOf s port).credits ∧ (portOf u port).state = .local ∧ (portOf u port).rxSeq = (portOf s port).rxSeq ∧
      (∀ j, j ≠ port → portOf u j = portOf s j) ∧ FabOnly s u) ∧
  (∀ (port : Nat) (s : State), (portOf s port).state = .secure → (portOf s port).keyUpdate = false →
    ∃ u, exec (.linkKeyUpdate port) s = .next u ∧ portOf u port = pushCtl port ⟨3, 0, 0, 0⟩ { portOf s port with keyUpdate := true } ∧
      (portOf u port).ivCount = (portOf s port).ivCount + 1 ∧ (portOf u port).txKey = (portOf s port).txKey ∧
      (∀ j, j ≠ port → portOf u j = portOf s j) ∧ FabOnly s u) ∧
  (∀ (port fec : Nat) (short : Bool) (s : State), ((portOf s port).state = .down ∨ (portOf s port).state = .training) → port < 32 →
    portsHeld s = false → engineServes s port = true →
    ∃ u, exec (.portTrained port fec short) s = .next u ∧
      (portOf u port).state = (if portFec (portOf s port) short = fec then .local else .training) ∧ (portOf u port).lanes = 15 ∧
      (portFec (portOf s port) short = fec → (portOf u port).rxSeq = 0 ∧ (portOf u port).shortFec = decide (fec = 2)) ∧
      (∀ j, j ≠ port → portOf u j = portOf s j) ∧ FabOnly s u) ∧
  (∀ (port fec : Nat) (short : Bool) (s : State), (portsHeld s = true ∨ engineServes s port = false) →
    exec (.portTrained port fec short) s = .next s) ∧
  (∀ (port peer : Nat) (s : State), (portOf s port).state = .local → s.fab.state = .admitted →
    ∃ u, exec (.linkSession port peer true) s = .next u ∧ (portOf u port).state = .secure ∧ (portOf u port).rxGen = 0 ∧ (portOf u port).txGen = 0 ∧
      (portOf u port).txKey = (sessionKeys port s.fab.id peer (portOf s port)).txKey ∧
      (portOf u port).rxKey = (sessionKeys port s.fab.id peer (portOf s port)).rxKey ∧
      (∀ j, j ≠ port → portOf u j = portOf s j) ∧ FabOnly s u) ∧
  (∀ (port peer : Nat) (ok : Bool) (s : State), (s.fab.state ≠ .admitted ∨ ok = false) → exec (.linkSession port peer ok) s = .next s) ∧
  (∀ (port : Nat) (s : State), (portOf s port).state ≠ .down →
    ∃ u, exec (.portDown port) s = .next u ∧ (portOf u port).state = .down ∧ (portOf u port).replay = [] ∧ (portOf u port).lanes = 0 ∧
      (∀ j, j ≠ port → portOf u j = portOf s j) ∧ s.mgmt.lastSeq < u.mgmt.lastSeq ∧ u.hif.hostMem = s.hif.hostMem ∧ u.sched = s.sched)

/-- An unacknowledged request is sent again (16 R611), an acknowledgement takes the requests up to its number off, and a peer that has been
silent too long, or is reported gone, is lost: its leases end, and it is recorded (16 R612). -/
def Obligations.pairs : Prop :=
  (∀ (peer : Nat) (s : State), (pairOf s peer).unacked ≠ [] →
    ∃ u, exec (.retxTimer peer) s = .next u ∧ s.fab.retx < u.fab.retx ∧
      (pairOf u peer).unacked.map (·.seq) = (pairOf s peer).unacked.map (·.seq) ∧ (∀ j, j ≠ peer → pairOf u j = pairOf s j) ∧
      u = { s with fab := u.fab, boot := u.boot, hif := u.hif, regs := u.regs }) ∧
  (∀ (peer : Nat) (s : State), (pairOf s peer).unacked ≠ [] →
    ∃ u, exec (.peerLossTimer peer) s = .next u ∧ peer ∈ u.fab.lost ∧ u.fab.peersLost = s.fab.peersLost + 1 ∧
      (∀ l, l ∈ u.mem.lent → l.2.peer ≠ peer) ∧ (∀ l, l ∈ u.mem.borrowed → l.2.peer ≠ peer) ∧ s.mgmt.lastSeq < u.mgmt.lastSeq) ∧
  (∀ (peer : Nat) (s : State), ∃ u, exec (.peerReportedGone peer) s = .next u ∧ peer ∈ u.fab.lost ∧ u.fab.peersLost = s.fab.peersLost + 1 ∧
      (∀ l, l ∈ u.mem.lent → l.2.peer ≠ peer) ∧ (∀ l, l ∈ u.mem.borrowed → l.2.peer ≠ peer) ∧ s.mgmt.lastSeq < u.mgmt.lastSeq) ∧
  (∀ (p : Packet) (s : State), ToMe p s →
    ∃ u, exec (.pairAck p) s = .next u ∧ pairOf u p.src = { pairOf s p.src with
        unacked := (pairOf s p.src).unacked.filter fun r => r.seq != p.pairSeq && !seqBehind r.seq p.pairSeq } ∧
      (∀ j, j ≠ p.src → pairOf u j = pairOf s j) ∧
      u = { s with fab := { s.fab with pairs := u.fab.pairs, delivered := u.fab.delivered } })

/-! ### Joining and leaving the fabric (16) -/

/-- ASSIGN gives an UNASSIGNED module its ID and its anchor, ADMIT admits it, UNASSIGN takes the ID back (16 R602, R603); the anchor takes its
own through FAB_ASSIGN (16 R627).
LEAVE, or FAB_CTL.leave, makes an ADMITTED module LEAVING with every lease it lent reclaimed; when it owes and is owed nothing more
it is UNASSIGNED (16 R621). -/
def Obligations.joining_and_leaving : Prop :=
  (∀ (p : Packet) (s : State), s.fab.state = .unassigned →
    ∃ u, exec (.assign p) s = .next u ∧ u.fab.state = .assigned ∧ u.fab.id = p.arg0.toNat % 2 ^ 20 ∧ u.fab.anchorId = p.arg1.toNat % 2 ^ 20 ∧
      u.fab.upstream = p.port ∧ s.mgmt.lastSeq < u.mgmt.lastSeq ∧ u.gen = s.gen ∧ u.obj = s.obj ∧ u.hif.hostMem = s.hif.hostMem) ∧
  (∀ (p : Packet) (s : State), s.fab.state ≠ .unassigned →
    ∃ u, exec (.assign p) s = .next u ∧ u.fab = { s.fab with assignDropped := s.fab.assignDropped + 1, delivered := u.fab.delivered } ∧
      u = { s with fab := u.fab }) ∧
  (∀ (p : Packet) (s : State), FromAnchor p s → s.fab.state = .assigned →
    ∃ u, exec (.admitPacket p) s = .next u ∧ u.fab.state = .admitted ∧ u.fab.id = s.fab.id ∧ s.mgmt.lastSeq < u.mgmt.lastSeq ∧ u.gen = s.gen) ∧
  (∀ (p : Packet) (s : State), FromAnchor p s → s.fab.state = .assigned →
    ∃ u, exec (.unassign p) s = .next u ∧ u.fab.state = .unassigned ∧ u.fab.id = 0xFFFFF ∧ u.fab.anchor = false ∧ FabOnly s u) ∧
  (∀ (p : Packet) (s : State), FromAnchor p s → s.fab.state = .admitted →
    ∃ u, exec (.unassign p) s = .next u ∧ u.fab.state = .admitted ∧ u.fab.id = s.fab.id ∧ FabOnly s u) ∧
  (∀ (v : BitVec 32) (s : State), s.fab.state = .unassigned → v.getLsbD 31 = true →
    ∃ u, exec (.fabAssign 1 v) s = .next u ∧ u.fab = { s.fab with id := v.toNat % 2 ^ 20, state := .admitted, anchor := true, anchorId := v.toNat % 2 ^ 20, pairs := [] } ∧
      s.mgmt.lastSeq < u.mgmt.lastSeq ∧ u.gen = s.gen) ∧
  (∀ (fn : Nat) (v : BitVec 32) (s : State), (fn ≠ 1 ∨ s.fab.state ≠ .unassigned) → exec (.fabAssign fn v) s = .next s) ∧
  (∀ (p : Packet) (s : State), FromAnchor p s → s.fab.state = .admitted →
    ∃ u, exec (.leavePacket p) s = .next u ∧ u.fab.state = .leaving ∧ (∀ k l, mget u.mem.lent k = some l → l.reclaimed = true) ∧
      u.fab.remotePins = []) ∧
  (∀ s : State, s.fab.state = .admitted →
    ∃ u, exec (.fabLeave 1) s = .next u ∧ u.fab.state = .leaving ∧ u.fab.leaveUntil = now s + lossNs s ∧
      (∀ k l, mget u.mem.lent k = some l → l.reclaimed = true) ∧ u.fab.remotePins = []) ∧
  (∀ (fn : Nat) (s : State), fn ≠ 1 → exec (.fabLeave fn) s = .next s) ∧
  (∀ s : State, s.fab.state = .leaving → s.search.shardWork = [] → addsHeld s = false → busyPeers s = [] →
    ∃ u, exec .leaveDrained s = .next u ∧ u.fab.state = .unassigned ∧ u.fab.id = 0xFFFFF ∧ u.fab.anchor = false ∧
      s.mgmt.lastSeq < u.mgmt.lastSeq ∧ u.gen = s.gen ∧ u.obj = s.obj) ∧
  (∀ s : State, (s.fab.state ≠ .leaving ∨ s.search.shardWork ≠ [] ∨ addsHeld s = true) → exec .leaveDrained s = .next s)

/-- ASSIGN_VIA sends the ASSIGN out of a LOCAL port, or answers NO_NEIGHBOUR; the anchor keeps ASSIGNED and NO_NEIGHBOUR for its fabric
manager (16 R603); ANCHOR_MOVE changes the recorded anchor (16 R605). -/
def Obligations.anchoring : Prop :=
  (∀ (p : Packet) (s : State), FromAnchor p s → s.fab.state = .admitted → (portOf s (bitsOf p.arg0.toNat 24 20)).state = .local →
    ∃ u q, exec (.assignVia p) s = .next u ∧ q ∈ u.fab.sent ∧ q.ptype = 0x40 ∧ q.port = bitsOf p.arg0.toNat 24 20 ∧
      q.arg0.toNat = p.arg0.toNat % 2 ^ 20 ∧ q.arg1 = p.arg1 ∧ FabOnly s u) ∧
  (∀ (p : Packet) (s : State), FromAnchor p s → s.fab.state = .admitted → (portOf s (bitsOf p.arg0.toNat 24 20)).state ≠ .local →
    Routed s.fab.anchorId s →
    ∃ u q, exec (.assignVia p) s = .next u ∧ q ∈ u.fab.sent ∧ q.ptype = 0x4A ∧ q.dst = s.fab.anchorId ∧
      q.arg0.toNat = bitsOf p.arg0.toNat 24 20 ∧ FabOnly s u) ∧
  (∀ (p : Packet) (s : State), p.dst = s.fab.id → s.fab.anchor = true → { p with ptype := 0x42 } ∉ s.fab.delivered →
    exec (.assigned p) s = .next { s with fab := { s.fab with delivered := s.fab.delivered ++ [{ p with ptype := 0x42 }] } }) ∧
  (∀ (p : Packet) (s : State), p.dst = s.fab.id → s.fab.anchor = true → { p with ptype := 0x4A } ∉ s.fab.delivered →
    exec (.noNeighbour p) s = .next { s with fab := { s.fab with delivered := s.fab.delivered ++ [{ p with ptype := 0x4A }] } }) ∧
  (∀ (p : Packet) (s : State), FromAnchor p s →
    ∃ u, exec (.anchorMove p) s = .next u ∧ u.fab.anchorId = p.arg0.toNat % 2 ^ 20 ∧ u.fab.anchor = decide (s.fab.id = p.arg0.toNat % 2 ^ 20) ∧
      u.fab.id = s.fab.id ∧ u.fab.state = s.fab.state ∧ FabOnly s u)

/-! ### What modules ask of each other (16) -/

/-- Requests in their turn about tables: a pin joins the CURRENT version and is answered, an unpin takes it off, a read of a version that is
not there is answered VERSION_RETIRED, an add past the rows is dropped and counted (16 R611, R614, R615). -/
def Obligations.remote_tables : Prop :=
  (∀ (p : Packet) (k v : Nat) (t : Table) (x : Version) (s : State), InTurn p s → packetTable p s = some (k, t) →
    (p.arg1.getLsbD 0 = true → t.shared = true ∨ t.owner = p.account % 4096) →
    (p.arg1.getLsbD 1 = true → t.addable = true ∧ t.shared = false ∧ t.owner = p.account % 4096) → currentVersion t = some v →
    mget t.versions v = some x →
    ∃ u y, exec (.tablePin p) s = .next u ∧ versionOf u k v = some y ∧ y = { x with remotePins := x.remotePins ++ [p.src] } ∧
      (pairOf u p.src).rxNext = ((pairOf s p.src).rxNext + 1) % 2 ^ 32 ∧
      u = { s with obj := { s.obj with tables := u.obj.tables }, fab := u.fab, hif := u.hif, regs := u.regs }) ∧
  (∀ (p : Packet) (k : Nat) (t : Table) (x : Version) (s : State), InTurn p s → namedSlot s p.arg0.toNat (p.arg1.toNat % 2 ^ 32) p.src = some k →
    mget s.obj.tables k = some t → t.deleted = false → mget t.versions (p.arg1.toNat % 2 ^ 32) = some x → x.cond ≠ .retired →
    ∃ u y, exec (.tableUnpin p) s = .next u ∧ versionOf u k (p.arg1.toNat % 2 ^ 32) = some y ∧
      y = { x with remotePins := x.remotePins.erase p.src } ∧ (pairOf u p.src).rxNext = ((pairOf s p.src).rxNext + 1) % 2 ^ 32 ∧ u.gen = s.gen) ∧
  (∀ (p : Packet) (s : State), InTurn p s → pinnedSlot s p.arg0.toNat (rd p.payload 0 4) p.src = none → Routed p.src s →
    ∃ u q, exec (.rowRead p) s = .next u ∧ q ∈ u.fab.sent ∧ q.ptype = 0x83 ∧ q.dst = p.src ∧ q.pairSeq = p.pairSeq ∧
      q.arg0.toNat = Status.versionRetired ∧ (pairOf u p.src).rxNext = ((pairOf s p.src).rxNext + 1) % 2 ^ 32 ∧ FabOnly s u) ∧
  (∀ (p : Packet) (k : Nat) (t : Table) (x : Version) (b : Bytes) (s : State), InTurn p s → pinnedSlot s p.arg0.toNat (rd p.payload 0 4) p.src = some k →
    mget s.obj.tables k = some t → mget t.versions (rd p.payload 0 4) = some x → findRow t x (p.arg1.toNat % 2 ^ 41) = .present b →
    b.length ≤ 32768 → Routed p.src s →
    ∃ u q, exec (.rowRead p) s = .next u ∧ q ∈ u.fab.sent ∧ q.ptype = 0x83 ∧ q.dst = p.src ∧ q.pairSeq = p.pairSeq ∧ q.payload = b ∧
      q.arg0.toNat = Status.ok ∧ FabOnly s u) ∧
  (∀ (p : Packet) (k : Nat) (t : Table) (s : State), InTurn p s → namedSlot s p.arg0.toNat (rd p.payload 0 4) p.src = some k →
    mget s.obj.tables k = some t → t.nRows ≤ p.arg1.toNat % 2 ^ 41 →
    ∃ u, exec (.rowAdd p) s = .next u ∧ mget u.obj.tables k = some { t with dropIndex := t.dropIndex + 1 } ∧
      (pairOf u p.src).rxNext = ((pairOf s p.src).rxNext + 1) % 2 ^ 32 ∧ u.gen = s.gen) ∧
  (∀ (p : Packet) (k : Nat) (t : Table) (x : Version) (s : State), InTurn p s → namedSlot s p.arg0.toNat (rd p.payload 0 4) p.src = some k →
    mget s.obj.tables k = some t → p.arg1.toNat % 2 ^ 41 < t.nRows → mget t.versions (rd p.payload 0 4) = some x → x.cond ≠ .retired →
    mget x.hot (p.arg1.toNat % 2 ^ 41) = none → (mget x.rows (p.arg1.toNat % 2 ^ 41)).isSome = true →
    ∃ u y, exec (.rowAdd p) s = .next u ∧ versionOf u k (rd p.payload 0 4) = some y ∧
      mget y.rows (p.arg1.toNat % 2 ^ 41) = some (addRow t.fmt ((mget x.rows (p.arg1.toNat % 2 ^ 41)).getD [])
        (signedInts (if t.fmt = 0xC then 8 else 12) t.rowElems (p.payload.drop 8))).1 ∧
      (∀ q, q ≠ p.arg1.toNat % 2 ^ 41 → mget y.rows q = mget x.rows q))

/-- Lent memory (16 R617; 12 R467 to R471): a lender grants pages within its limits, takes frames while the lease serves and gives them
back, and forgets a released lease; a borrower keeps a grant and drops a reclaimed one.
Answers: GONE loses the peer (16 R612, R621); another answer ends its question, and that to LEASE_RECLAIM ends the lease (16 R617, R620). -/
def Obligations.leases_and_answers : Prop :=
  (∀ (p : Packet) (k n : Nat) (s : State), InTurn p s → s.mem.ctl.getLsbD 1 = true → p.hops ≤ s.mem.lendHops →
    lowestFree s.mem.lent 4096 = some k →
    n = min (p.arg0.toNat % 2 ^ 20) (min (s.mem.lendMax - lentPages s) (idleBrixjo s / 2097152)) → 0 < n →
    ∃ u, exec (.leaseReq p) s = .next u ∧ mget u.mem.lent k = some { peer := p.src, pages := n } ∧
      (∀ j, j ≠ k → mget u.mem.lent j = mget s.mem.lent j) ∧
      u = { s with mem := { s.mem with lent := u.mem.lent }, fab := u.fab, hif := u.hif, regs := u.regs }) ∧
  (∀ (p : Packet) (s : State), InTurn p s → s.mem.ctl.getLsbD 1 = false → ∃ u, exec (.leaseReq p) s = .next u ∧ FabOnly s u) ∧
  (∀ (p : Packet) (s : State), ToMe p s →
    ∃ u, exec (.leaseGrant p) s = .next u ∧ mget u.mem.borrowed (4096 * p.src + p.arg0.toNat % 4096) =
        some { peer := p.src, pages := p.arg1.toNat % 2 ^ 20 } ∧
      (∀ j, j ≠ 4096 * p.src + p.arg0.toNat % 4096 → mget u.mem.borrowed j = mget s.mem.borrowed j) ∧
      u = { s with mem := { s.mem with borrowed := u.mem.borrowed }, fab := u.fab }) ∧
  (∀ (p : Packet) (s : State), InTurn p s →
    ∃ u, exec (.leaseReclaim p) s = .next u ∧ mget u.mem.borrowed (4096 * p.src + p.arg0.toNat % 4096) = none ∧
      (∀ j, j ≠ 4096 * p.src + p.arg0.toNat % 4096 → mget u.mem.borrowed j = mget s.mem.borrowed j) ∧ u.mem.lent = s.mem.lent ∧ u.mem.lines = s.mem.lines) ∧
  (∀ (p : Packet) (l : Lease) (s : State), InTurn p s → mget s.mem.lent (p.arg0.toNat % 4096) = some l → l.peer = p.src →
    ∃ u, exec (.leaseRelease p) s = .next u ∧ mget u.mem.lent (p.arg0.toNat % 4096) = none ∧
      (∀ j, j ≠ p.arg0.toNat % 4096 → mget u.mem.lent j = mget s.mem.lent j)) ∧
  (∀ (p : Packet) (l : Lease) (s : State), ToMe p s → liveLease p s = some l → p.arg1.toNat % 2 ^ 32 % 64 = 0 →
    p.arg1.toNat % 2 ^ 32 + p.payload.length ≤ l.pages * 2097152 →
    ∃ u, exec (.lentWrite p) s = .next u ∧ mget u.mem.lent (p.arg0.toNat % 4096) =
        some { l with frames := mset l.frames (p.arg1.toNat % 2 ^ 32) p.payload } ∧
      (∀ j, j ≠ p.arg0.toNat % 4096 → mget u.mem.lent j = mget s.mem.lent j) ∧ u.mem.lines = s.mem.lines) ∧
  (∀ (p : Packet) (l : Lease) (f : Nat × Bytes) (s : State), ToMe p s → liveLease p s = some l → frameAt l.frames (p.arg1.toNat % 2 ^ 32) = some f →
    f.2.length ≤ 32768 → Routed p.src s →
    ∃ u q, exec (.lentRead p) s = .next u ∧ q ∈ u.fab.sent ∧ q.ptype = 0x84 ∧ q.dst = p.src ∧ q.arg0.toNat = Status.ok ∧
      q.payload = (f.2.drop (p.arg1.toNat % 2 ^ 32 - f.1)).take (rd p.payload 0 4) ∧ FabOnly s u) ∧
  (∀ (p : Packet) (s : State), ToMe p s → liveLease p s = none → Routed p.src s →
    ∃ u q, exec (.lentRead p) s = .next u ∧ q ∈ u.fab.sent ∧ q.ptype = 0x84 ∧ q.arg0.toNat = Status.refused ∧ FabOnly s u) ∧
  (∀ (p : Packet) (s : State), ToMe p s → 0x81 ≤ p.ptype → p.ptype ≤ 0x85 → s.fab.anchor = false → p.arg0.toNat % 65536 = Status.gone →
    ∃ u, exec (.fabAnswer p) s = .next u ∧ p.src ∈ u.fab.lost ∧ u.fab.peersLost = s.fab.peersLost + 1) ∧
  (∀ (p : Packet) (r : PairReq) (s : State), ToMe p s → 0x81 ≤ p.ptype → p.ptype ≤ 0x85 → p.arg0.toNat % 65536 ≠ Status.gone →
    askedFor p s = some r → r.pkt.ptype = 0x22 →
    ∃ u, exec (.fabAnswer p) s = .next u ∧ mget u.mem.lent (r.pkt.arg0.toNat % 4096) = none ∧
      (∀ j, j ≠ r.pkt.arg0.toNat % 4096 → mget u.mem.lent j = mget s.mem.lent j) ∧
      (pairOf u p.src).asked = (pairOf s p.src).asked.erase r ∧ (∀ j, j ≠ p.src → pairOf u j = pairOf s j) ∧
      u = { s with mem := { s.mem with lent := u.mem.lent }, fab := u.fab }) ∧
  (∀ (p : Packet) (s : State), (p.ptype < 0x81 ∨ 0x85 < p.ptype) → exec (.fabAnswer p) s = .next s)

/-- Reductions (16 R616; 03 R82 to R84): what arrives is kept until every member's share is there, a partial at another exponent than the agreed
one ends it, a result that is whole ends it, an
abort ends a started one and is kept for one not yet begun. -/
def Obligations.reductions : Prop :=
  (∀ (p : Packet) (k m first : Nat) (r x : Reduction) (s : State), ToMe p s → redOf p s = (k, some m, first) → r = mgetD s.fab.reductions k {} →
    x = { r with exps := mset r.exps m (putFrom (mgetD r.exps m []) first (expsOf p.payload)) } →
    (r.started = true → redFits x = true ∧ allSent (setIds s (k / 2 ^ 32)).length r.own.length x.exps = false) →
    ∃ u, exec (.redExp p) s = .next u ∧ mget u.fab.reductions k = some x ∧ (∀ j, j ≠ k → mget u.fab.reductions j = mget s.fab.reductions j) ∧
      u = { s with fab := { s.fab with reductions := u.fab.reductions, delivered := u.fab.delivered } }) ∧
  (∀ (p : Packet) (k first : Nat) (m : Option Nat) (r x : Reduction) (s : State), ToMe p s → redOf p s = (k, m, first) →
    r = mgetD s.fab.reductions k {} → x = { r with agreed := putFrom r.agreed first (expsOf p.payload) } →
    (r.started = true → redFits x = true ∧ x.agreed.length < r.own.length) →
    ∃ u, exec (.redAgree p) s = .next u ∧ mget u.fab.reductions k = some x ∧ (∀ j, j ≠ k → mget u.fab.reductions j = mget s.fab.reductions j) ∧
      u = { s with fab := { s.fab with reductions := u.fab.reductions, delivered := u.fab.delivered } }) ∧
  (∀ (p : Packet) (k m first : Nat) (r x : Reduction) (s : State), ToMe p s → redOf p s = (k, some m, first) → r = mgetD s.fab.reductions k {} →
    x = { r with parts := mset r.parts m (putFrom (mgetD r.parts m []) first (partsOf p.payload)) } →
    (r.started = true → redFits x = true ∧ allSent (setIds s (k / 2 ^ 32)).length r.own.length x.parts = false) →
    ∃ u, exec (.redPart p) s = .next u ∧ mget u.fab.reductions k = some x ∧ (∀ j, j ≠ k → mget u.fab.reductions j = mget s.fab.reductions j) ∧
      u = { s with fab := { s.fab with reductions := u.fab.reductions, delivered := u.fab.delivered } }) ∧
  (∀ (p : Packet) (k m first : Nat) (r x : Reduction) (s : State), ToMe p s → redOf p s = (k, some m, first) →
    mget s.fab.reductions k = some r → r.started = true →
    x = { r with parts := mset r.parts m (putFrom (mgetD r.parts m []) first (partsOf p.payload)) } → redFits x = false →
    ∃ u, exec (.redPart p) s = .next u ∧ mget u.fab.reductions k = none) ∧
  (∀ (p : Packet) (k first : Nat) (m : Option Nat) (r : Reduction) (x : SUnit) (h : Nat × Nat) (c : Ctx) (s : State), ToMe p s →
    redOf p s = (k, m, first) → mget s.fab.reductions k = some r → r.started = true → r.result = [] →
    r.own.length ≤ chunkElems r.fmtOut p.payload.length → mget s.sched.units r.unit = some x → x.slots = [h] →
    mget (clusterOf s h.1).slots h.2 = some c →
    ∃ u d, exec (.redResult p) s = .next u ∧ mget u.fab.reductions k = none ∧ (∀ j, j ≠ k → mget u.fab.reductions j = mget s.fab.reductions j) ∧
      mget (clusterOf u h.1).slots h.2 = some d ∧ d.waiting = false ∧ d.pc = c.pc ∧ (∀ g, g ≠ h.1 → clusterOf u g = clusterOf s g) ∧
      u.hif = s.hif ∧ u.obj = s.obj ∧ u.mem = s.mem) ∧
  (∀ (p : Packet) (r : Reduction) (s : State), ToMe p s →
    mget s.fab.reductions (redKey (p.arg0.toNat % 256) (p.arg1.toNat % 2 ^ 32)) = some r → r.started = false →
    ∃ u, exec (.redAbort p) s = .next u ∧ mget u.fab.reductions (redKey (p.arg0.toNat % 256) (p.arg1.toNat % 2 ^ 32)) = some { r with aborted := true } ∧
      u = { s with fab := { s.fab with reductions := u.fab.reductions, delivered := u.fab.delivered } }) ∧
  (∀ (p : Packet) (r : Reduction) (x : SUnit) (e : Nat) (y : RtEntry) (s : State), ToMe p s →
    mget s.fab.reductions (redKey (p.arg0.toNat % 256) (p.arg1.toNat % 2 ^ 32)) = some r → r.started = true →
    mget s.sched.units r.unit = some x → x.kind = .run e → mget s.gen.entries e = some y → y.state ≠ .drain → y.cancelPending = false →
    y.work.disabled = false →
    ∃ u z, exec (.redAbort p) s = .next u ∧ mget u.fab.reductions (redKey (p.arg0.toNat % 256) (p.arg1.toNat % 2 ^ 32)) = none ∧
      mget u.gen.entries e = some z ∧ z.state = .drain ∧ z.finish = Status.fault ∧ z.work.detail = 0x202)

/-- A shard query of another module waits for its walks under a tag of its own (16 R619), and a shard's list that comes in time joins its
search, which waits for one shard fewer; one that comes late joins none (01 R35, 09 R325). -/
def Obligations.shards : Prop :=
  (∀ (p : Packet) (c : Collection) (tag n : Nat) (s : State), ToMe p s → mget s.obj.collections (rd p.payload 0 4) = some c → freeTag s = some tag →
    c.deleted = false → rd p.payload 20 2 = c.desc.dim → usesExact s c = false →
    ((filterIds ((p.payload.drop 24).take 16)).all fun i => match mget s.obj.filters i with
      | some f => f.coll == rd p.payload 0 4 | none => false) = true →
    lowestFree s.search.shardWork 16384 = some n →
    ∃ u w, exec (.shardQuery p) s = .next u ∧ mget u.search.shardWork n = some w ∧ w.tag = some tag ∧ w.par = shardPar p.payload ∧
      w.origin = some (p.src, p.arg0.toNat % 16384) ∧ w.epoch = c.epoch ∧ w.heldHere = s.search.hold ∧
      mget u.search.tags tag = some (true, n) ∧ (s.search.hold = false → w.waiting = some s.search.nextWait) ∧
      (∀ j, j ≠ n → mget u.search.shardWork j = mget s.search.shardWork j) ∧ u.gen = s.gen ∧ u.hif = s.hif) ∧
  (∀ (p : Packet) (e i : Nat) (x : RtEntry) (s : State), ToMe p s → mget s.search.tags (p.arg0.toNat % 16384) = some (false, e) →
    mget s.gen.entries e = some x → s.search.owed.contains (p.arg0.toNat % 16384, p.src) = false → now s ≤ x.work.search.shardUntil →
    (x.work.search.shardsLeft.find? fun m => m.2 == p.src) = some (i, p.src) →
    ∃ u y, exec (.shardList p) s = .next u ∧ mget u.gen.entries e = some y ∧
      y.work.search.shardsLeft = (x.work.search.shardsLeft.filter fun z => z.1 != i) ∧
      mget y.work.search.shardLists i = some ((shardEntries p.payload).map fun z => { z with dist := keyDist x.work.search z.key }) ∧
      y.work.search.hops = x.work.search.hops + rd p.payload 8 4 ∧ y.state = x.state ∧
      (∀ j, j ≠ e → mget u.gen.entries j = mget s.gen.entries j) ∧
      u = { s with gen := { s.gen with entries := u.gen.entries }, fab := { s.fab with delivered := u.fab.delivered } }) ∧
  (∀ (p : Packet) (s : State), ToMe p s → s.search.owed.contains (p.arg0.toNat % 16384, p.src) = false →
    mget s.search.tags (p.arg0.toNat % 16384) = none →
    ∃ u, exec (.shardList p) s = .next u ∧ u = { s with fab := { s.fab with delivered := u.fab.delivered } }) ∧
  (∀ (p : Packet) (e : Nat) (x : RtEntry) (s : State), ToMe p s → s.search.owed.contains (p.arg0.toNat % 16384, p.src) = false →
    mget s.search.tags (p.arg0.toNat % 16384) = some (false, e) → mget s.gen.entries e = some x → x.work.search.shardUntil < now s →
    ∃ u, exec (.shardList p) s = .next u ∧ u = { s with fab := { s.fab with delivered := u.fab.delivered } }) ∧
  (∀ (p : Packet) (s : State), ToMe p s → s.search.owed.contains (p.arg0.toNat % 16384, p.src) = true →
    ∃ u, exec (.shardList p) s = .next u ∧ u.search.owed = s.search.owed.erase (p.arg0.toNat % 16384, p.src) ∧
      u = { s with search := { s.search with owed := u.search.owed }, fab := { s.fab with delivered := u.fab.delivered } })

/-! ### Power, bring-up and service levels (17, 18, 21) -/

/-- Auxiliary power starts the always-on domain, the starter's check starts the management pair or ends in RECOVERY, the main input
enables the stage, and phases 4 and 5 bring up domains, clusters, stacks and channels and open the data keys, or make them
with every mapping dropped (17 R632 to R636, R645; 18 R679, R688; 21 R755, R764). -/
def Obligations.power_up : Prop :=
  (∀ (ok : Bool) (s : State), s.boot.aux = false → s.boot.handover = false →
    ∃ u, exec (.auxPowerApplied ok) s = .next u ∧ u.boot.aux = true ∧ u.boot.hv = false ∧ u.boot.phase = 1 ∧ u.sec.identityOk = ok ∧
      HasReset 0 s u) ∧
  (∀ (ok : Bool) (s : State), s.boot.aux = true → exec (.auxPowerApplied ok) s = .next s) ∧
  (∀ s : State, s.boot.aux = true → s.boot.phase = 1 → s.boot.level = 0 →
    ∃ u, exec (.starterVerify 0) s = .next u ∧ u.boot.fwOk = true ∧ u.boot.mgmtRun = true ∧ u.boot.level = 0 ∧ 2 ≤ u.boot.phase ∧
      u = { s with boot := u.boot }) ∧
  (∀ (v : Nat) (s : State), v ≠ 0 → s.boot.aux = true → s.boot.phase = 1 → s.boot.level = 0 →
    ∃ u, exec (.starterVerify v) s = .next u ∧ u.boot.level = 3 ∧ u.boot.fwOk = s.boot.fwOk ∧ u.boot.mgmtRun = s.boot.mgmtRun ∧
      u = { s with boot := u.boot }) ∧
  (∀ s : State, s.boot.aux = true → s.boot.handover = false → s.boot.shutdown = false → s.boot.resetLow = false → s.boot.fwOk = true →
    ∃ u, exec .mainInputPresent s = .next u ∧ u.boot.main = true ∧ u.boot.hv = true ∧ 3 ≤ u.boot.phase ∧ BootOnly s u) ∧
  (∀ s : State, s.boot.aux = false → ∃ u, exec .mainInputPresent s = .next u ∧ u.boot.main = true ∧ u.boot.hv = s.boot.hv ∧ BootOnly s u) ∧
  (∀ s : State, s.boot.hv = true → s.boot.fwOk = true → s.boot.phase = 3 → s.boot.handover = false → s.sec.identityOk = false →
    exec .bringupPhase4 s = .next { s with
      boot := { s.boot with phase := 4, domain := 0x1FFFFFFFFFF, pll := 0x1FFF }, hif := { s.hif with link := hostLinkWord }
      sec := { s.sec with boardKeys := (List.range 8).map (Config.boardKey s.boot.bootCount) } }) ∧
  (∀ (l : List KeyEntry) (e : KeyEntry) (s : State), s.boot.hv = true → s.boot.fwOk = true → s.boot.phase = 3 → s.boot.handover = false →
    s.sec.identityOk = true → mget s.sec.keyFlash 4096 = some l → (∀ x, x ∈ s.sec.keyFlash → x.1 = 4096 → x.2 = l) → bestEntry l = some e →
    ∃ u, exec .bringupPhase4 s = .next u ∧ u.boot = { s.boot with phase := 4, domain := 0x1FFFFFFFFFF, pll := 0x1FFF } ∧
      mget u.sec.keySets 4096 = some e.set ∧ mget u.sec.keyFlash 4096 = some [e] ∧
      u.sec.boardKeys = (List.range 8).map (Config.boardKey s.boot.bootCount) ∧
      u = { s with boot := u.boot, sec := u.sec, hif := { s.hif with link := hostLinkWord } }) ∧
  (∀ s : State, s.boot.hv = true → s.boot.fwOk = true → s.boot.phase = 3 → s.boot.handover = false → s.sec.identityOk = true →
    s.sec.keyFlash = [] → s.sec.keySets = [] →
    ∃ u, exec .bringupPhase4 s = .next u ∧ u.boot.phase = 4 ∧ u.obj.images = [] ∧ u.obj.collections = [] ∧ u.obj.tables = [] ∧
      u.sched.accounts = [] ∧ NewKeys 4096 (makeBoardKeys s) u) ∧
  (∀ (r : Phase5) (s : State), s.boot.phase = 4 → s.boot.handover = false →
    ∃ u, exec (.bringupPhase5 r) s = .next u ∧ u.boot.phase = 5 ∧
      (∀ n, n ∈ r.failed → n < 20 → (stackOf s n).retired = false → (stackOf u n).retired = true ∧ (stackOf u n).ok = false) ∧
      (∀ n, n < 64 → (channelOf u n).retired = false → hubUnreachable u (n / 8) = false → (channelOf u n).ok = true)) ∧
  (∀ (n : Nat) (s : State), n < 20 → 5 ≤ s.boot.phase → s.boot.handover = false → (stackOf s n).retired = false → (stackOf s n).ok = false →
    ∃ u, exec (.stackTrained n) s = .next u ∧ stackServes u n = true ∧ (∀ k, k ≠ n → stackOf u k = stackOf s k) ∧
      (stackOf u n).spares = (Config.spareRows n).toNat ∧ u.mem.lines.map Prod.fst = s.mem.lines.map Prod.fst ∧
      (∀ e, e ∈ s.mem.lines → lineTweak s e.1 = lineTweak u e.1 → e ∈ u.mem.lines) ∧
      u = { s with mem := { s.mem with stackTab := u.mem.stackTab, lines := u.mem.lines } }) ∧
  (∀ (n : Nat) (s : State), (stackOf s n).retired = true → exec (.stackTrained n) s = .next s)

/-- The catalogue is loaded again without the revoked images; PROOFING waits for a stack, an identity and a configuration record; a
collection is verified and its lost pages are noted; FULL waits for everything, and lifts the clock cap (17 R637 to R644; 18 R674). -/
def Obligations.service_levels : Prop :=
  (∀ (rv : List Nat) (s : State), 5 ≤ s.boot.phase → anyStack s = true → s.boot.handover = false → s.boot.reloaded = false →
    ∃ u, exec (.catalogueReload rv) s = .next u ∧ u.boot = { s.boot with reloaded := true, phase := 6 } ∧
      (∀ h, h ∈ rv → revokedKeys s ≠ [] → mget u.obj.images h = none) ∧
      (∀ h, (h ∉ rv ∨ revokedKeys s = []) → mget u.obj.images h = mget s.obj.images h) ∧
      u = { s with obj := { s.obj with images := u.obj.images }, boot := u.boot, mgmt := u.mgmt, hif := u.hif, regs := u.regs }) ∧
  (∀ s : State, s.boot.level = 0 → s.boot.mgmtRun = true → 5 ≤ s.boot.phase → anyStack s = true → s.boot.handover = false →
    s.sec.identityOk = true → s.sec.config ≠ none → s.sec.unlocked = false →
    ∃ u, exec .proofingBegin s = .next u ∧ u.boot = { s.boot with level := 1, clockCap := true } ∧ s.mgmt.lastSeq < u.mgmt.lastSeq ∧
      u = { s with boot := u.boot, mgmt := u.mgmt, hif := u.hif, regs := u.regs }) ∧
  (∀ s : State, (s.sec.identityOk = false ∨ s.sec.config = none ∨ s.sec.unlocked = true) → exec .proofingBegin s = .next s) ∧
  (∀ (k : Nat) (lost : List Nat) (c : Collection) (s : State), mget s.obj.collections k = some c → 5 ≤ s.boot.phase →
    c.desc.privileged = false → c.verified = false →
    ∃ u d, exec (.collectionVerified k lost) s = .next u ∧ mget u.obj.collections k = some d ∧
      d = { c with verified := true, badPages := d.badPages, rebuild := d.rebuild } ∧ (lost = [] → d.badPages = c.badPages) ∧
      (∀ p, p ∈ lost → pageNodes c p ≠ [] → p ∈ d.badPages ∧ ∀ n, n ∈ pageNodes c p → n ∈ d.rebuild) ∧
      (∀ j, j ≠ k → mget u.obj.collections j = mget s.obj.collections j) ∧
      u = { s with obj := { s.obj with collections := u.obj.collections } }) ∧
  (∀ s : State, s.boot.level = 1 → fullReady s = true →
    ∃ u, exec .fullBegin s = .next u ∧ u.boot = { s.boot with level := 2, clockCap := false } ∧
      (∀ h i, mget u.obj.images h = some i → i.resident = true) ∧ s.mgmt.lastSeq < u.mgmt.lastSeq ∧ u.gen = s.gen) ∧
  (∀ s : State, (s.boot.level ≠ 1 ∨ fullReady s = false) → exec .fullBegin s = .next s)

/-- Losing the main input, or a hard limit, starts the hand-over and records why; its end takes the stage down and resets the module; losing
the auxiliary input with the stage off ends the always-on domain (21 R756 to R763, R768 to R770). -/
def Obligations.losses_and_limits : Prop :=
  (∀ (c : LossCause) (s : State), s.boot.main = true → s.boot.hv = true → s.boot.handover = false →
    ∃ u, exec (.mainInputLost c) s = .next u ∧ u.boot.main = false ∧ u.boot.hv = true ∧ HandingOver u ∧ s.mgmt.lastSeq < u.mgmt.lastSeq ∧
      u.obj = s.obj ∧ u.gen = s.gen ∧ u.sec = s.sec) ∧
  (∀ (c : LossCause) (s : State), s.boot.main = true → s.boot.hv = false → s.boot.handover = false →
    exec (.mainInputLost c) s = .next { s with boot := { s.boot with main := false } }) ∧
  (∀ (c : LossCause) (s : State), s.boot.main = false → exec (.mainInputLost c) s = .next s) ∧
  (∀ s : State, s.boot.aux = true → s.boot.hv = true → s.boot.handover = false →
    ∃ u, exec .auxInputLost s = .next u ∧ u.boot.aux = false ∧ u.boot.main = false ∧ HandingOver u ∧ s.mgmt.lastSeq < u.mgmt.lastSeq ∧ u.obj = s.obj) ∧
  (∀ s : State, s.boot.aux = true → s.boot.hv = false → s.boot.handover = false →
    ∃ u, exec .auxInputLost s = .next u ∧ u.boot.aux = false ∧ u.boot.mgmtRun = false ∧ u.boot.phase = 0 ∧ u.boot.level = 0 ∧ u.gen = {} ∧
      u.sec.identityOk = false ∧ s.mgmt.lastSeq < u.mgmt.lastSeq) ∧
  (∀ s : State, s.boot.handover = true → s.boot.aux = true →
    ∃ u, exec .handoverEnd s = .next u ∧ u.boot.handover = false ∧ HasReset (if s.boot.shutdown then 3 else 4) s u ∧ u.flash.dump = true ∧
      ((s.boot.main = false ∧ s.boot.mainBack = false) ∨ s.boot.shutdown = true → u.boot.hv = false)) ∧
  (∀ s : State, s.boot.handover = true → s.boot.aux = false →
    ∃ u, exec .handoverEnd s = .next u ∧ u.boot.handover = false ∧ u.boot.hv = false ∧ u.boot.phase = 0 ∧ u.gen = {} ∧ u.flash.dump = true) ∧
  (∀ s : State, s.boot.handover = false → exec .handoverEnd s = .next s) ∧
  (∀ (l : List HardLimit) (s : State), l ≠ [] → s.boot.hv = true → s.boot.handover = false →
    ∃ u, exec (.hardLimitTrip l) s = .next u ∧ u.boot.shutdown = true ∧ u.boot.limits = l ∧ HandingOver u ∧ s.mgmt.lastSeq < u.mgmt.lastSeq ∧
      u.obj = s.obj ∧ u.gen = s.gen) ∧
  (∀ (l : List HardLimit) (s : State), l ≠ [] → .busCurrent ∈ l → .busCurrent ∉ s.boot.limits → s.boot.hv = true → s.boot.handover = true →
    s.boot.aux = true → s.boot.main = false → s.boot.mainBack = false →
    ∃ u, exec (.hardLimitTrip l) s = .next u ∧ u.boot.hv = false ∧ u.boot.cut = true ∧ u.boot.handover = false ∧ u.flash.dump = true) ∧
  (∀ (l : List HardLimit) (s : State), s.boot.hv = false → exec (.hardLimitTrip l) s = .next s)

/-- GLB_RESET with its key, from the management function, and RESET_N reset everything but the always-on domain; RESET_N's rise ends a
shutdown (20 R753; 21 R767, R769). -/
def Obligations.resets : Prop :=
  (∀ (v : BitVec 32) (s : State), v.getLsbD 0 = true → v.toNat / 2 ^ 16 = 0xA5C3 → s.boot.handover = false →
    ∃ u, exec (.glbReset 1 v) s = .next u ∧ HasReset 2 s u ∧ (s.boot.hv = true → u.flash.dump = true)) ∧
  (∀ (fn : Nat) (v : BitVec 32) (s : State), (fn ≠ 1 ∨ v.getLsbD 0 = false ∨ v.toNat / 2 ^ 16 ≠ 0xA5C3) → exec (.glbReset fn v) s = .next s) ∧
  (∀ s : State, s.boot.aux = true → s.boot.handover = false → s.boot.resetLow = false →
    ∃ u, exec .resetNLow s = .next u ∧ u.boot.resetLow = true ∧ u.boot.hv = s.boot.hv ∧ HasReset 1 s u) ∧
  (∀ s : State, s.boot.resetLow = true → exec .resetNLow s = .next s) ∧
  (∀ s : State, s.boot.resetLow = true →
    ∃ u, exec .resetNRise s = .next u ∧ u.boot.resetLow = false ∧ u.boot.shutdown = false ∧ u.boot.limits = [] ∧
      (s.boot.aux = true → s.boot.main = true → s.boot.fwOk = true → s.boot.handover = false → u.boot.hv = true) ∧ u.gen = s.gen ∧ u.obj = s.obj) ∧
  (∀ s : State, s.boot.resetLow = false → exec .resetNRise s = .next s)

/-- A failed internal link takes the channels of a hub it cuts off and the ports of its optical engine, a degraded one is recorded (02 R44 to R47); a drained cluster loses its
power and gets it back with its map tested (20 R752); a lockstep mismatch restarts the management pair, which records it (19 R693). -/
def Obligations.links_clusters_and_the_management_pair : Prop :=
  (∀ (i : Nat) (s : State), i < 54 → linkFailed s i = false →
    ∃ u, exec (.internalLinkFail i) s = .next u ∧ linkFailed u i = true ∧ (∀ j, j ≠ i → linkFailed u j = linkFailed s j) ∧
      u.boot.linkDegraded.getLsbD i = false ∧
      (∀ n, n < 64 → hubUnreachable u (n / 8) = true → (channelOf u n).retired = false → (channelOf u n).failed = true) ∧ u.gen = s.gen ∧
      u.sched = s.sched ∧ (i < 46 → u.fab = s.fab) ∧ (∀ p, p ∈ portsBehind i → (portOf u p).state = .down)) ∧
  (∀ (i : Nat) (s : State), i < 54 → linkFailed s i = false → s.boot.linkDegraded.getLsbD i = false →
    ∃ u, exec (.linkDegraded i) s = .next u ∧ u.boot = { s.boot with linkDegraded := s.boot.linkDegraded ||| BitVec.twoPow 64 i } ∧
      s.mgmt.lastSeq < u.mgmt.lastSeq ∧ u = { s with boot := u.boot, mgmt := u.mgmt, hif := u.hif, regs := u.regs }) ∧
  (∀ (i : Nat) (s : State), linkFailed s i = true → exec (.internalLinkFail i) s = .next s ∧ exec (.linkDegraded i) s = .next s) ∧
  (∀ (fn g : Nat) (s : State), fn ≤ 1 → g < 320 → (clusterOf s g).powered = true → (clusterOf s g).drained = true →
    ∃ u, exec (.clusterPowerOff fn g) s = .next u ∧ (clusterOf u g).powered = false ∧ (clusterOf u g).weights = none ∧
      (∀ j, j ≠ g → clusterOf u j = clusterOf s j) ∧ (∀ n x, mget u.sched.units n = some x → x.savedOn ≠ some g) ∧
      u = { s with boot := { s.boot with clusters := u.boot.clusters }, sched := { s.sched with units := u.sched.units } }) ∧
  (∀ (fn g : Nat) (s : State), (1 < fn ∨ (clusterOf s g).drained = false) → exec (.clusterPowerOff fn g) s = .next s) ∧
  (∀ (fn g : Nat) (s : State), fn ≤ 1 → g < 320 → (clusterOf s g).powered = false → netOn s g = true →
    ∃ u, exec (.clusterPowerOn fn g) s = .next u ∧ clusterOf u g = { clusterOf s g with powered := true, poweringOn := true } ∧
      (∀ j, j ≠ g → clusterOf u j = clusterOf s j) ∧ u = { s with boot := { s.boot with clusters := u.boot.clusters } }) ∧
  (∀ (fn g : Nat) (s : State), (1 < fn ∨ netOn s g = false) → exec (.clusterPowerOn fn g) s = .next s) ∧
  (∀ (g : Nat) (rows cols r k a b : List Nat) (s : State), (clusterOf s g).poweringOn = true →
    r = cleanNums 130 ((clusterOf s g).rows ++ (clusterOf s g).badRows ++ rows) →
    k = cleanNums 130 ((clusterOf s g).cols ++ (clusterOf s g).badCols ++ cols) → bypassFor r = some a → bypassFor k = some b →
    ∃ u, exec (.clusterPowerOnDone g rows cols) s = .next u ∧
      clusterOf u g = { clusterOf s g with
        poweringOn := false, awake := true, rows := a, cols := b, badRows := failedSpares r, badCols := failedSpares k } ∧
      (∀ j, j ≠ g → clusterOf u j = clusterOf s j) ∧ u = { s with boot := { s.boot with clusters := u.boot.clusters } }) ∧
  (∀ (g : Nat) (rows cols : List Nat) (s : State), (clusterOf s g).poweringOn = true →
    bypassFor (cleanNums 130 ((clusterOf s g).rows ++ (clusterOf s g).badRows ++ rows)) = none →
    ∃ u, exec (.clusterPowerOnDone g rows cols) s = .next u ∧ (clusterOf u g).retired = true ∧ (clusterOf u g).poweringOn = false) ∧
  (∀ s : State, s.boot.mgmtRun = true →
    exec .lockstepMismatch s = .next { s with
      mgmt := { s.mgmt with lockstep := (s.mgmt.lockstep + 1) % 2 ^ 32, restart := 1 }, boot := { s.boot with mgmtRun := false } }) ∧
  (∀ s : State, s.boot.aux = true → s.boot.fwOk = true → s.boot.mgmtRun = false →
    ∃ u, exec .managementRestartEnd s = .next u ∧ u.boot = { s.boot with mgmtRun := true } ∧ u.mgmt.restart = 0 ∧
      (s.mgmt.restart = 1 → s.mgmt.lastSeq < u.mgmt.lastSeq) ∧ u = { s with boot := u.boot, mgmt := u.mgmt, hif := u.hif, regs := u.regs }) ∧
  (∀ s : State, s.boot.mgmtRun = true → exec .managementRestartEnd s = .next s)

/-- RECOVERY asks both neighbours for an image, takes it from a neighbour or from host memory, and leaves only into an image that verifies
and is new enough; an ADMITTED neighbour sends its own (17 R648 to R651). -/
def Obligations.recovery : Prop :=
  (∀ s : State, s.boot.level = 3 → s.boot.hv = true →
    ∃ u, exec .rcvReqTimer s = .next u ∧ (∀ port, port < 2 → { rcvPacket 0x4B 0 0 [] with port := port } ∈ u.fab.sent) ∧
      100000000 * (now s / 100000000 + 1) ≤ now u ∧ u.obj = s.obj ∧ u.gen = s.gen ∧ u.hif.hostMem = s.hif.hostMem) ∧
  (∀ (port : Nat) (b : Bytes) (s : State), port < 32 → s.fab.state = .admitted → portCarries (portOf s port) 3 = true →
    ((portOf s port).outq.all fun f => f.vc != 3) = true →
    b = fwImageOf s →
    ∃ u, exec (.rcvReq port) s = .next u ∧ (∀ k, 32768 * k < b.length →
        { rcvPacket 0x4C (32768 * k) b.length ((b.drop (32768 * k)).take 32768) with port := port } ∈ u.fab.sent) ∧ FabOnly s u) ∧
  (∀ (port : Nat) (s : State), s.fab.state ≠ .admitted → exec (.rcvReq port) s = .next s) ∧
  (∀ (port : Nat) (b : Bytes) (s : State), s.boot.level = 3 → s.boot.hv = true → s.boot.rcvState < 2 → port < 2 →
    mget s.boot.rcvParts port = none →
    exec (.rcvData port 0 b.length b) s =
      .next { s with boot := { s.boot with rcvState := 2, rcvSource := 1, rcvWhole := some b, rcvParts := [] } }) ∧
  (∀ (port off total : Nat) (b : Bytes) (s : State), (s.boot.level ≠ 3 ∨ 2 ≤ s.boot.rcvState) → exec (.rcvData port off total b) s = .next s) ∧
  (∀ (b : Bytes) (s : State), s.boot.level = 3 → s.boot.hv = true → s.boot.rcvState = 0 → s.boot.rcvLen.toNat ≤ 16 * 2 ^ 20 →
    s.boot.rcvLen.toNat ≤ b.length →
    exec (.rcvGo b) s = .next { s with boot := { s.boot with
      rcvState := 2, rcvSource := 0, rcvWhole := some (b.take s.boot.rcvLen.toNat), rcvParts := [] } }) ∧
  (∀ (b : Bytes) (s : State), s.boot.level = 3 → s.boot.hv = true → s.boot.rcvState = 0 → b.length < s.boot.rcvLen.toNat →
    exec (.rcvGo b) s = .next { s with boot := { s.boot with rcvFail := 3, rcvSource := 0 } }) ∧
  (∀ (b : Bytes) (s : State), s.boot.level = 3 → s.boot.rcvState = 2 → s.boot.rcvWhole = some b →
    ∃ u, exec .rcvImageComplete s = .next u ∧ u.boot.rcvWhole = none ∧
      (if 8 ≤ b.length ∧ sigVerifies s 0 (splitSigned b).1 (splitSigned b).2 = true then
        (if rd (splitSigned b).2 8 4 < floorOf s 0 then u.boot.rcvState = 0 ∧ u.boot.rcvFail = 2 ∧ u.boot.level = 3
          else u.boot.rcvState = 3 ∧ u.boot.level = 0 ∧ u.boot.fwOk = true ∧ u.boot.mgmtRun = true ∧ u.boot.fwImage = some b)
        else u.boot.rcvState = 0 ∧ u.boot.rcvFail = 1 ∧ u.boot.level = 3) ∧
      u = { s with boot := u.boot, sec := u.sec, hif := u.hif, regs := u.regs }) ∧
  (∀ s : State, s.boot.rcvWhole = none → exec .rcvImageComplete s = .next s)

/-! ### Live servicing (17) -/

/-- LS_CMD starts an operation that its target allows, refuses one that it does not or while another runs, and ignores virtual functions;
the end of an operation reports it with its effect (17 R652 to R655, R662, R663). -/
def Obligations.live_service : Prop :=
  (∀ (fn n : Nat) (s : State), fn ≤ 1 → s.boot.lsOp = none → n < 20 → stackServes s n = true → brixjoUsed s + 96 * 2 ^ 30 ≤ brixjoSize s →
    ∃ u, exec (.lsRetireStack fn n) s = .next u ∧ Serving 1 n u ∧ stackOf u n = { stackOf s n with retiring := true } ∧
      (∀ k, k ≠ n → stackOf u k = stackOf s k) ∧ u.obj = s.obj ∧ u.flash = s.flash) ∧
  (∀ (fn n : Nat) (s : State), fn ≤ 1 → s.boot.lsOp = none → n < 20 → stackServes s n = true → brixjoSize s < brixjoUsed s + 96 * 2 ^ 30 →
    ∃ u, exec (.lsRetireStack fn n) s = .next u ∧ LsRefused 1 3 s u) ∧
  (∀ (fn n : Nat) (s : State), fn ≤ 1 → s.boot.lsOp = none → n < 64 → (channelOf s n).retired = false → unitsFit s n 0 = true → unitsFit s n 1 = true →
    ∃ u, exec (.lsRetireChannel fn n) s = .next u ∧ Serving 2 n u ∧ u.boot.lsTotal = (unitsHeld s n 0).length + (unitsHeld s n 1).length ∧
      u = { s with boot := u.boot }) ∧
  (∀ (fn n : Nat) (s : State), fn ≤ 1 → s.boot.lsOp = none → n < 64 → (channelOf s n).retired = false → unitsFit s n 0 = false →
    ∃ u, exec (.lsRetireChannel fn n) s = .next u ∧ LsRefused 2 3 s u) ∧
  (∀ (fn n : Nat) (s : State), fn ≤ 1 → s.boot.lsOp = none → n < 32 →
    ∃ u, exec (.lsRecalibratePort fn n) s = .next u ∧ Serving 3 n u ∧ (portOf u n).state = .down ∧
      (∀ k, k ≠ n → portOf u k = portOf s k) ∧ u.obj = s.obj ∧ u.gen = s.gen) ∧
  (∀ (fn n : Nat) (s : State), fn ≤ 1 → s.boot.lsOp = none → n < 320 → (clusterOf s n).retired = false → (clusterOf s n).drain = true →
    (clusterOf s n).drained = true → s.boot.stagedUcode ≠ none →
    ∃ u, exec (.lsMicrocode fn n) s = .next u ∧ Serving 4 n u ∧ u = { s with boot := u.boot }) ∧
  (∀ (fn n : Nat) (s : State), fn ≤ 1 → s.boot.lsOp = none → n < 320 → (clusterOf s n).retired = false → (clusterOf s n).drain = false →
    ∃ u, exec (.lsMicrocode fn n) s = .next u ∧ LsRefused 4 5 s u) ∧
  (∀ (fn n : Nat) (s : State), fn ≤ 1 → s.boot.lsOp = none → n < 8 → s.boot.stagedHub ≠ none →
    ∃ u, exec (.lsHubFirmware fn n) s = .next u ∧ Serving 5 n u ∧ n ∈ u.boot.hubRestart ∧ u = { s with boot := u.boot }) ∧
  (∀ (fn n : Nat) (s : State), fn ≤ 1 → s.boot.lsOp = none → n < 8 → s.boot.stagedHub = none →
    ∃ u, exec (.lsHubFirmware fn n) s = .next u ∧ LsRefused 5 4 s u) ∧
  (∀ (fn n op : Nat) (i : Instr) (s : State), fn ≤ 1 → s.boot.lsOp ≠ none →
    (op, i) ∈ [(1, .lsRetireStack fn n), (2, .lsRetireChannel fn n), (3, .lsRecalibratePort fn n), (4, .lsMicrocode fn n), (5, .lsHubFirmware fn n)] →
    ∃ u, exec i s = .next u ∧ LsRefused op 1 s u) ∧
  (∀ (fn n op top : Nat) (i : Instr) (s : State), fn ≤ 1 → s.boot.lsOp = none → top ≤ n →
    (op, top, i) ∈ [(1, 20, .lsRetireStack fn n), (2, 64, .lsRetireChannel fn n), (3, 32, .lsRecalibratePort fn n), (4, 320, .lsMicrocode fn n),
      (5, 8, .lsHubFirmware fn n)] →
    ∃ u, exec i s = .next u ∧ LsRefused op 2 s u) ∧
  (∀ (fn n : Nat) (i : Instr) (s : State), 1 < fn →
    i ∈ [.lsRetireStack fn n, .lsRetireChannel fn n, .lsRecalibratePort fn n, .lsMicrocode fn n, .lsHubFirmware fn n] → exec i s = .next s) ∧
  (∀ (o : LsOp) (s : State), s.boot.lsOp = some o →
    ∃ u, exec .lsOperationEnd s = .next u ∧ u.boot.lsOp = none ∧ u.boot.lsResult = 0 ∧ u.boot.lsValid = true ∧ u.boot.lsLast = o.op ∧
      u.boot.lsProgress = s.boot.lsTotal ∧ s.mgmt.lastSeq < u.mgmt.lastSeq ∧
      (o.op = 1 → (stackOf u o.target).retired = true ∧ (stackOf u o.target).ok = false) ∧
      (o.op = 2 → (channelOf u o.target).retired = true ∧ (channelOf u o.target).ok = false ∧
        ((∀ c, c ∈ s.obj.collections → c.2.frozen = false) → (channelOf u o.target).blocks = [])) ∧
      (o.op = 3 → o.prior ≠ .down → (portOf u o.target).state = o.prior) ∧
      (o.op = 4 → ∀ v, s.boot.stagedUcode = some v → (clusterOf u o.target).ucode = v) ∧
      (o.op = 5 → ∀ v, s.boot.stagedHub = some v → mgetD u.boot.hubFw o.target 0 = v ∧ o.target ∉ u.boot.hubRestart)) ∧
  (∀ s : State, s.boot.lsOp = none → exec .lsOperationEnd s = .next s)

/-! ### Security (18, 19) -/

/-- The SPDM responder answers each request on its mailbox: one measurement, a signed challenge, a session that begins, is confirmed, makes
new keys and ends; a request outside its session gets an error; a relayed request is answered likewise (18 R664, R666, R675 to R677). -/
def Obligations.secure_sessions : Prop :=
  (∀ (m : SpdmMsg) (s : State), m.mailbox ≤ 2 → (rd m.msg 2 1).testBit 0 = false → 1 ≤ rd m.msg 3 1 → rd m.msg 3 1 ≤ 10 →
    ∃ u, exec (.getMeasurements m) s = .next u ∧ Says m.mailbox (spdmHead 0x60 0 0 ++ leBytes 1 1 ++
        leBytes 3 (measureBlock s (rd m.msg 3 1)).length ++ measureBlock s (rd m.msg 3 1) ++ nonceBytes s.sec.draws ++ leBytes 2 0) s u ∧
      u.sec.draws = s.sec.draws + 1 ∧ u.sec.sessions = s.sec.sessions ∧ SecOnly s u) ∧
  (∀ (m : SpdmMsg) (s : State), m.mailbox ≤ 2 → (rd m.msg 2 1).testBit 0 = true → s.sec.identityOk = false → rd m.msg 3 1 ≤ 10 →
    ∃ u, exec (.getMeasurements m) s = .next u ∧ Says m.mailbox (spdmError 5) s u ∧ u.sec.draws = s.sec.draws ∧ SecOnly s u) ∧
  (∀ (m : SpdmMsg) (s : State), m.mailbox ≤ 2 → rd m.msg 2 1 = 0 → s.sec.identityOk = true →
    ∃ u b, exec (.spdmChallenge m) s = .next u ∧ Says m.mailbox (b ++ Config.spdmSign (m.msg ++ b)) s u ∧ rd b 1 1 = 0x03 ∧
      (b.drop 4).take (Config.sha512 Config.certChain).length = Config.sha512 Config.certChain ∧ u.sec.sessions = s.sec.sessions ∧ SecOnly s u) ∧
  (∀ (m : SpdmMsg) (s : State), m.mailbox ≤ 2 → rd m.msg 2 1 ≠ 0 →
    ∃ u, exec (.spdmChallenge m) s = .next u ∧ Says m.mailbox (spdmError 1) s u ∧ u.sec.draws = s.sec.draws ∧ SecOnly s u) ∧
  (∀ (m : SpdmMsg) (s : State), m.mailbox ≤ 2 → rd m.msg 3 1 = 0 → s.sec.identityOk = true →
    ∃ u b, exec (.keyExchange m) s = .next u ∧ Says m.mailbox (b ++ Config.spdmSign (m.msg ++ b)) s u ∧ rd b 1 1 = 0x64 ∧
      u.sec.nextSession = s.sec.nextSession + 1 ∧ mget u.sec.sessions s.sec.nextSession = some { mailbox := m.mailbox, began := now s } ∧
      (∀ j, j ≠ s.sec.nextSession → mget u.sec.sessions j = mget s.sec.sessions j) ∧ SecOnly s u) ∧
  (∀ (m : SpdmMsg) (x : SpdmSession) (s : State), m.mailbox ≤ 2 → mget s.sec.sessions m.session = some x → x.mailbox = m.mailbox →
    x.established = false →
    ∃ u, exec (.spdmFinish m) s = .next u ∧
      (if Config.finishOk m.session m.msg then mget u.sec.sessions m.session = some { x with established := true, mutualAuth := m.mutualAuth } ∧
          Says m.mailbox (spdmHead 0x65 0 0) s u
        else mget u.sec.sessions m.session = none ∧ Says m.mailbox (spdmError 6) s u) ∧
      (∀ j, j ≠ m.session → mget u.sec.sessions j = mget s.sec.sessions j) ∧ SecOnly s u) ∧
  (∀ (m : SpdmMsg) (x : SpdmSession) (s : State), m.mailbox ≤ 2 → mget s.sec.sessions m.session = some x → x.mailbox = m.mailbox →
    x.established = true → (rd m.msg 2 1 = 1 ∨ rd m.msg 2 1 = 2) →
    ∃ u, exec (.keyUpdate m) s = .next u ∧ Says m.mailbox (spdmHead 0x69 (rd m.msg 2 1) (rd m.msg 3 1)) s u ∧
      mget u.sec.sessions m.session = some { x with keyGen := x.keyGen + 1 } ∧
      (∀ j, j ≠ m.session → mget u.sec.sessions j = mget s.sec.sessions j) ∧ SecOnly s u) ∧
  (∀ (m : SpdmMsg) (x : SpdmSession) (s : State), m.mailbox ≤ 2 → mget s.sec.sessions m.session = some x → x.mailbox = m.mailbox →
    x.established = true →
    (∃ u, exec (.spdmHeartbeat m) s = .next u ∧ Says m.mailbox (spdmHead 0x68 0 0) s u ∧ u.sec.sessions = s.sec.sessions ∧ SecOnly s u) ∧
    (∃ u, exec (.endSession m) s = .next u ∧ Says m.mailbox (spdmHead 0x6C 0 0) s u ∧ mget u.sec.sessions m.session = none ∧
      (∀ j, j ≠ m.session → mget u.sec.sessions j = mget s.sec.sessions j) ∧ SecOnly s u)) ∧
  (∀ (m : SpdmMsg) (i : Instr) (s : State), m.mailbox ≤ 2 → mget s.sec.sessions m.session = none →
    i ∈ [.spdmFinish m, .keyUpdate m, .spdmHeartbeat m, .endSession m] →
    ∃ u, exec i s = .next u ∧ Says m.mailbox (spdmError 2) s u ∧ u.sec.sessions = s.sec.sessions ∧ SecOnly s u) ∧
  (∀ (m : SpdmMsg) (i : Instr) (s : State), 2 < m.mailbox →
    i ∈ [.getMeasurements m, .spdmChallenge m, .keyExchange m, .spdmFinish m, .keyUpdate m, .spdmHeartbeat m, .endSession m] →
    exec i s = .next s) ∧
  (∀ (p : Packet) (s : State), FromAnchor p s → s.fab.anchor = false → 0x80 ≤ rd p.payload 1 1 →
    ∃ u, exec (.spdmRelay p) s = .next u ∧ Says 2 (spdmByCode { mailbox := 2, session := p.src, msg := p.payload } s).1 s u ∧
      u = { s with fab := u.fab, sec := u.sec, hif := u.hif, regs := u.regs }) ∧
  (∀ (p : Packet) (s : State), FromAnchor p s → s.fab.anchor = false → rd p.payload 1 1 < 0x80 →
    ∃ u, exec (.spdmRelay p) s = .next u ∧ { p with ptype := 0x49 } ∈ u.fab.delivered ∧
      u = { s with fab := { s.fab with delivered := u.fab.delivered } })

/-- The recorder is cleared only in a mutually authenticated session whose key may do so, and the clear is recorded (19 R724); debug is
unlocked only by a fresh challenge that a verifying object answers, and the unlock ends service and zeroises the keys (18 R686, R687, R691). -/
def Obligations.recorder_clear_and_debug_unlock : Prop :=
  (∀ (k n : Nat) (x : SpdmSession) (s : State), mget s.sec.sessions k = some x → x.established = true → x.mutualAuth = true → n ≤ s.mgmt.lastSeq →
    ∃ u b, exec (.recorderClear k n) s = .next u ∧ Says x.mailbox b s u ∧
      (if Config.recorderClearOk k then (∀ r ∈ u.mgmt.records, n < r.seq) ∧ (∀ y ∈ u.mgmt.snaps, n < y.seq) ∧ s.mgmt.lastSeq < u.mgmt.lastSeq
        else u.mgmt = s.mgmt) ∧ u.gen = s.gen ∧ u.obj = s.obj) ∧
  (∀ (k n : Nat) (x : SpdmSession) (s : State), mget s.sec.sessions k = some x → (x.established = false ∨ x.mutualAuth = false) →
    exec (.recorderClear k n) s = .next s) ∧
  (∀ s : State, unlockAllowed s = true →
    exec (.secDbgChallenge 1) s = .next { s with sec := { s.sec with
      chal := some (s.sec.draws, now s), draws := s.sec.draws + 1, dbgResult := 0, dbgValid := true } }) ∧
  (∀ (o : Bytes) (s : State), unlockAllowed s = false →
    exec (.secDbgChallenge 1) s = .next { s with sec := { s.sec with dbgResult := 2, dbgValid := true } } ∧
    exec (.secDbgRespond 1 o) s = .next { s with sec := { s.sec with dbgResult := 2, dbgValid := true } }) ∧
  (∀ (fn : Nat) (o : Bytes) (s : State), fn ≠ 1 → exec (.secDbgChallenge fn) s = .next s ∧ exec (.secDbgRespond fn o) s = .next s) ∧
  (∀ (o : Bytes) (s : State), unlockAllowed s = true → (s.sec.chal = none ∨ ∃ n t, s.sec.chal = some (n, t) ∧ t + 600000000000 ≤ now s) →
    exec (.secDbgRespond 1 o) s = .next { s with sec := { s.sec with chal := none, dbgResult := 3, dbgValid := true } }) ∧
  (∀ (o : Bytes) (n t : Nat) (s : State), unlockAllowed s = true → s.sec.chal = some (n, t) → now s < t + 600000000000 →
    ∃ u, exec (.secDbgRespond 1 o) s = .next u ∧ u.sec.chal = none ∧ u.sec.dbgValid = true ∧
      (if objectAccepted s 5 (o.take (s.sec.dbgLen.toNat % 65536)) = false then u.sec.dbgResult = 4 ∧ u.sec.unlocked = s.sec.unlocked
        else if (splitSigned (o.take (s.sec.dbgLen.toNat % 65536))).1 ≠ chalBytes s n then u.sec.dbgResult = 5 ∧ u.sec.unlocked = s.sec.unlocked
        else u.sec.dbgResult = 1 ∧ u.sec.unlocked = true ∧ u.sec.debugOpen = true ∧ u.sec.keySets = [] ∧ u.sec.boardKeys = [] ∧ u.sec.keyFlash = [] ∧
          u.sec.unlocks = (s.sec.unlocks + 1) % 2 ^ 32 ∧ u.boot.level = 0 ∧ s.mgmt.lastSeq < u.mgmt.lastSeq)) ∧
  (∀ (n t : Nat) (s : State), s.sec.chal = some (n, t) →
    ∃ u, exec .challengeExpiry s = .next u ∧ u.sec = { s.sec with chal := none } ∧ t + 600000000000 ≤ now u ∧ u.obj = s.obj ∧ u.mgmt = s.mgmt) ∧
  (∀ s : State, s.sec.chal = none → exec .challengeExpiry s = .next s)

/-! ### Management (19) -/

/-- While the management pair runs and the binding has its address, each MCTP and PLDM request gets its answer; an unknown type, sensor or
record gets an error; without them none is answered (19 R694 to R697, R700). -/
def Obligations.management_requests : Prop :=
  (∀ (b e : Nat) (s : State), pldmUp b s = true → 0 < e → e < 255 →
    ∃ u, exec (.setEndpointId b e) s = .next u ∧
      Answered b 0 (leBytes 1 e) (if b = 0 then { s with mgmt := { s.mgmt with eidI3c := e } } else { s with mgmt := { s.mgmt with eidPcie := e } }) u) ∧
  (∀ (b e : Nat) (s : State), pldmUp b s = true → (e = 0 ∨ 255 ≤ e) →
    ∃ u, exec (.setEndpointId b e) s = .next u ∧ Answered b 2 [] s u) ∧
  (∀ (a : Nat) (s : State), s.boot.aux = true → a < 128 → s.mgmt.i3c = none →
    exec (.entdaa a) s = .next { s with mgmt := { s.mgmt with
      i3c := some a, answers := (0, 0, (leBytes 6 provisionedId).reverse) :: s.mgmt.answers } }) ∧
  (∀ s : State, exec .rstdaa s = .next { s with mgmt := { s.mgmt with i3c := none } }) ∧
  (∀ (b : Nat) (s : State), pldmUp b s = true → ∃ u x, exec (.getTid b) s = .next u ∧ x.length = 1 ∧ Answered b 0 x s u) ∧
  (∀ (b : Nat) (s : State), pldmUp b s = true →
    ∃ u, exec (.getPldmTypes b) s = .next u ∧ Answered b 0 [0x35, 0, 0, 0, 0, 0, 0, 0x80] s u) ∧
  (∀ (b t : Nat) (s : State), pldmUp b s = true → t ∈ [0, 2, 4, 5, 63] →
    (∃ u x, exec (.getPldmCommands b t) s = .next u ∧ x.length = 32 ∧ Answered b 0 x s u) ∧
    (∃ u x, exec (.getPldmVersion b t) s = .next u ∧ x.length = 4 ∧ Answered b 0 x s u)) ∧
  (∀ (b t : Nat) (s : State), pldmUp b s = true → t ∉ [0, 2, 4, 5, 63] →
    (∃ u, exec (.getPldmCommands b t) s = .next u ∧ Answered b 0x83 [] s u) ∧ (∃ u, exec (.getPldmVersion b t) s = .next u ∧ Answered b 0x83 [] s u)) ∧
  (∀ (b n v : Nat) (s : State), pldmUp b s = true → n ∈ sensorIds →
    ∃ u, exec (.sensorRead b n v) s = .next u ∧
      Answered b 0 (leBytes 4 v) { s with mgmt := { s.mgmt with sensors := mset s.mgmt.sensors n v } } u) ∧
  (∀ (b n v : Nat) (s : State), pldmUp b s = true → n ∉ sensorIds → ∃ u, exec (.sensorRead b n v) s = .next u ∧ Answered b 0x80 [] s u) ∧
  (∀ (b h : Nat) (s : State), pldmUp b s = true →
    (h + 1 < 73 → ∃ u, exec (.pdrRead b h) s = .next u ∧ Answered b 0 (leBytes 4 (h + 1) ++ Config.pdrBytes h) s u) ∧
    (h + 1 = 73 → ∃ u, exec (.pdrRead b h) s = .next u ∧ Answered b 0 (leBytes 4 0 ++ Config.pdrBytes h) s u) ∧
    (73 ≤ h → ∃ u, exec (.pdrRead b h) s = .next u ∧ Answered b 0x82 [] s u)) ∧
  (∀ (b : Nat) (s : State), pldmUp b s = true →
    ∃ u x, exec (.fruRead b) s = .next u ∧ x.take 16 = (List.range 16).map Config.serialByte ∧ Answered b 0 x s u) ∧
  (∀ (b e : Nat) (s : State), pldmUp b s = true → e ≤ 255 →
    ∃ u, exec (.setEventReceiver b e) s = .next u ∧ Answered b 0 [] { s with mgmt := { s.mgmt with receiver := some e } } u) ∧
  (∀ (b : Nat) (v : BitVec 32) (s : State), pldmUp b s = true → 1000 ≤ v.toNat → v.toNat ≤ 3400 →
    ∃ u, exec (.effecterWrite b 0 v) s = .next u ∧ u.mgmt.powerCap = v.toNat ∧ u.mgmt.clkBounds = s.mgmt.clkBounds ∧
      u.mgmt.admBounds = s.mgmt.admBounds ∧ u.mgmt.answers = (b, 0, []) :: s.mgmt.answers ∧ s.mgmt.lastSeq < u.mgmt.lastSeq ∧ MgmtOnly s u) ∧
  (∀ (b : Nat) (v : BitVec 32) (s : State), pldmUp b s = true → (v.toNat < 1000 ∨ 3400 < v.toNat) →
    ∃ u, exec (.effecterWrite b 0 v) s = .next u ∧ Answered b 2 [] s u) ∧
  (∀ (b k : Nat) (v : BitVec 32) (s : State), pldmUp b s = true → 19 ≤ k → ∃ u, exec (.effecterWrite b k v) s = .next u ∧ Answered b 0x80 [] s u) ∧
  (∀ (b n k : Nat) (v : BitVec 32) (i : Instr) (s : State), pldmUp b s = false →
    i ∈ [.setEndpointId b n, .getTid b, .getPldmTypes b, .getPldmCommands b n, .getPldmVersion b n, .sensorRead b n k, .pdrRead b n, .fruRead b,
      .setEventReceiver b n, .effecterWrite b n v, .requestUpdate b, .activateFirmware b, .setCalendar b n, .getCalendar b] →
    exec i s = .next s)

/-- One firmware update runs at a time; a component is kept when its object verifies; activation restarts the management pair into its
image, or stages microcode or hub firmware (19 R701 to R703; 18 R670, R673).  The calendar is set and read (19 R706 to R709). -/
def Obligations.firmware_and_calendar : Prop :=
  (∀ (b : Nat) (s : State), pldmUp b s = true → s.mgmt.update = none →
    ∃ u, exec (.requestUpdate b) s = .next u ∧ Answered b 0 [] { s with mgmt := { s.mgmt with update := some { binding := b } } } u) ∧
  (∀ (b : Nat) (x : Update) (s : State), pldmUp b s = true → s.mgmt.update = some x →
    ∃ u, exec (.requestUpdate b) s = .next u ∧ Answered b 0x81 [] s u) ∧
  (∀ (c : Nat) (o : Bytes) (x : Update) (s : State), s.boot.mgmtRun = true → s.mgmt.update = some x → 1 ≤ c → c ≤ 3 →
    ∃ u, exec (.componentTransfer c o) s = .next u ∧ MgmtOnly s u ∧
      (if objectAccepted s (c - 1) o then u.mgmt.update = some { x with comps := x.comps.filter (fun y => y.1 != c) ++ [(c, o)] } ∧
          u.mgmt.answers = (x.binding, 0, []) :: s.mgmt.answers
        else u.mgmt.update = some x ∧ u.mgmt.answers = (x.binding, 1, []) :: s.mgmt.answers)) ∧
  (∀ (o : Bytes) (x : Update) (s : State), s.boot.mgmtRun = true → s.mgmt.update = some x →
    ∃ u, exec (.componentTransfer 4 o) s = .next u ∧ u.gen = s.gen ∧ u.sec.config = s.sec.config ∧ s.sec.storedSeq ≤ u.sec.storedSeq ∧
      (if objectAccepted s 4 o = true ∧ (∃ r, parseConfig o = some r ∧ s.sec.storedSeq < r.seq) then s.sec.storedSeq < u.sec.storedSeq
        else u.sec.storedSeq = s.sec.storedSeq ∧ s.mgmt.lastSeq < u.mgmt.lastSeq)) ∧
  (∀ (c : Nat) (o : Bytes) (x : Update) (s : State), s.boot.mgmtRun = true → s.mgmt.update = some x → 4 < c →
    ∃ u, exec (.componentTransfer c o) s = .next u ∧ Answered x.binding 1 [] s u) ∧
  (∀ (c : Nat) (o : Bytes) (s : State), s.mgmt.update = none → exec (.componentTransfer c o) s = .next s) ∧
  (∀ (b : Nat) (x : Update) (o : Bytes) (s : State), pldmUp b s = true → s.mgmt.update = some x → x.comps = [(1, o)] →
    ∃ u, exec (.activateFirmware b) s = .next u ∧ u.boot = { s.boot with fwImage := some o, mgmtRun := false } ∧ u.mgmt.update = none ∧
      u.mgmt.restart = 2 ∧ s.mgmt.lastSeq < u.mgmt.lastSeq) ∧
  (∀ (b : Nat) (x : Update) (o : Bytes) (s : State), pldmUp b s = true → s.mgmt.update = some x → x.comps = [(2, o)] →
    ∃ u, exec (.activateFirmware b) s = .next u ∧ u.boot.stagedUcode = some (Config.objectVersion o).toNat ∧ u.boot.stagedHub = s.boot.stagedHub ∧
      u.boot.clusters = s.boot.clusters ∧ u.mgmt.update = none ∧ s.mgmt.lastSeq < u.mgmt.lastSeq) ∧
  (∀ (b : Nat) (x : Update) (o : Bytes) (s : State), pldmUp b s = true → s.mgmt.update = some x → x.comps = [(3, o)] →
    ∃ u, exec (.activateFirmware b) s = .next u ∧ u.boot.stagedHub = some (Config.objectVersion o).toNat ∧ u.boot.hubFw = s.boot.hubFw ∧
      u.mgmt.update = none ∧ s.mgmt.lastSeq < u.mgmt.lastSeq) ∧
  (∀ (b : Nat) (s : State), pldmUp b s = true → s.mgmt.update = none →
    ∃ u, exec (.activateFirmware b) s = .next u ∧ Answered b 0x80 [] s u) ∧
  (∀ (b v : Nat) (s : State), pldmUp b s = true → v % 2 ^ 64 ≠ 0 →
    ∃ u, exec (.setCalendar b v) s = .next u ∧ u.mgmt.rtcSet = true ∧ u.mgmt.rtc = v % 2 ^ 64 ∧ u.mgmt.rtcAt = now s ∧
      u.mgmt.answers = (b, 0, []) :: s.mgmt.answers ∧ s.mgmt.lastSeq < u.mgmt.lastSeq ∧ MgmtOnly s u) ∧
  (∀ (b v : Nat) (s : State), pldmUp b s = true → v % 2 ^ 64 = 0 → ∃ u, exec (.setCalendar b v) s = .next u ∧ Answered b 2 [] s u) ∧
  (∀ (b : Nat) (s : State), pldmUp b s = true → ∃ u, exec (.getCalendar b) s = .next u ∧ Answered b 0 (leBytes 8 (calendar s)) s u)

/-- A waiting snapshot set is taken into the buffer, or dropped when it does not fit; a flush writes out every set (19 R719 to R722); the
management function writes a record by hand and latches records and sets to read (19 R723, R730). -/
def Obligations.recorder_and_snapshots : Prop :=
  (∀ (n t src id : Nat) (l : List (Nat × Nat × Nat × Nat)) (s : State), s.mgmt.snapWait = (n, t, src, id) :: l → bufferBytes s.mgmt + 65536 ≤ 3145728 →
    (∀ r ∈ s.mgmt.records, r.seq = n → r.severity < 2) →
    ∃ u x, exec (.snapshotSet n) s = .next u ∧ u.mgmt = { s.mgmt with snaps := s.mgmt.snaps ++ [x], snapWait := l } ∧ x.id = id ∧ x.seq = n ∧
      x.list = trigList s.mgmt t ∧ x.capture = now s ∧ x.flushed = false ∧ x.size ≤ 65536 ∧ MgmtOnly s u) ∧
  (∀ (n t src id : Nat) (l : List (Nat × Nat × Nat × Nat)) (s : State), s.mgmt.snapWait = (n, t, src, id) :: l → 4194304 < bufferBytes s.mgmt + 64 →
    ∃ u, exec (.snapshotSet n) s = .next u ∧ u.mgmt.snaps = s.mgmt.snaps ∧ u.mgmt.snapDropped = s.mgmt.snapDropped + 1 ∧ u.mgmt.snapWait = l ∧
      (∀ r ∈ u.mgmt.records, r.seq = n → r.snapDropped = true) ∧ MgmtOnly s u) ∧
  (∀ (n : Nat) (s : State), s.mgmt.snapWait = [] → exec (.snapshotSet n) s = .next s) ∧
  (∀ s : State, ∃ u, exec .snapshotFlush s = .next u ∧ (∀ x ∈ u.mgmt.snaps, x.flushed = true) ∧
    (areaBytes s.mgmt + bufferBytes s.mgmt ≤ areaSize →
      u.mgmt = { s.mgmt with snaps := s.mgmt.snaps.map fun x => { x with flushed := true } }) ∧ u = { s with mgmt := u.mgmt }) ∧
  (∀ s : State, s.mgmt.snapWait.length < 9 →
    ∃ u, exec (.evrManual 1) s = .next u ∧ s.mgmt.lastSeq < u.mgmt.lastSeq ∧
      u.mgmt.snapWait = s.mgmt.snapWait ++ [(s.mgmt.lastSeq + 1, 256 + s.mgmt.manualList, 13, s.mgmt.nextSnap)] ∧
      u.mgmt.nextSnap = s.mgmt.nextSnap + 1 ∧ MgmtOnly s u) ∧
  (∀ (r : Rec) (s : State), (s.mgmt.records.find? fun x => x.marked && decide (s.mgmt.cursor + 1 ≤ x.seq)) = some r →
    exec (.evrAdvance 1) s = .next { s with mgmt := { s.mgmt with cursor := r.seq, win := padTo r.bytes 512, winKind := 1 } }) ∧
  (∀ (v : Nat) (r : Rec) (s : State), v < 2 ^ 64 → (s.mgmt.records.find? fun x => x.marked && decide (v ≤ x.seq)) = some r →
    exec (.evrCursorWrite 1 v) s = .next { s with mgmt := { s.mgmt with cursor := r.seq, win := padTo r.bytes 512, winKind := 1 } }) ∧
  (∀ (v : Nat) (s : State), v < 2 ^ 64 → (∀ r ∈ s.mgmt.records, r.marked = true → r.seq < v) →
    exec (.evrCursorWrite 1 v) s = .next { s with mgmt := { s.mgmt with cursor := s.mgmt.lastSeq + 1, win := [], winKind := 0 } }) ∧
  (∀ (v n : Nat) (x : SnapSet) (s : State), n = bitsOf v 38 32 →
    (s.mgmt.snaps.find? fun y => y.id == v % 2 ^ 32 && decide (512 * n < y.size)) = some x →
    exec (.evrSnapSelWrite 1 v) s = .next { s with mgmt := { s.mgmt with
      snapSel := BitVec.ofNat 64 (v % 2 ^ 39), win := padTo (x.bytes.drop (512 * n)) 512, winKind := 2 } }) ∧
  (∀ (fn v : Nat) (i : Instr) (s : State), fn ≠ 1 → i ∈ [.evrManual fn, .evrAdvance fn, .evrCursorWrite fn v, .evrSnapSelWrite fn v] →
    exec i s = .next s)

/-- The event counters freeze and run together, are captured together, are preset only while stopped, and set their overflow bit when they
wrap (19 R725 to R727; 20 R743); a page's error log and its interrupt registers are written and evaluated again (20 R739 to R741). -/
def Obligations.counters_and_page_interrupts : Prop :=
  (∀ (b : Bool) (s : State), exec (.evcFreeze 1 b) s = .next { s with regs := { s.regs with evcFreeze := b } }) ∧
  (∀ s : State, ∃ u, exec (.evcSnap 1) s = .next u ∧
    (∀ p, pageOf u p = { pageOf s p with evcs := (pageOf s p).evcs.map fun e => { e with snap := e.count } }) ∧
    u = { s with regs := { s.regs with pages := u.regs.pages } }) ∧
  (∀ (fn : Nat) (b : Bool) (s : State), fn ≠ 1 → exec (.evcFreeze fn b) s = .next s ∧ exec (.evcSnap fn) s = .next s) ∧
  (∀ (fn p i v : Nat) (e : Evc) (s : State), mayWrite fn p = true → i < 8 → (pageOf s p).evcs[i]? = some e →
    (s.regs.evcFreeze = true ∨ e.enable = false) →
    ∃ u, exec (.evcCountWrite fn p i v) s = .next u ∧
      pageOf u p = { pageOf s p with evcs := (pageOf s p).evcs.set i { e with count := v % 2 ^ 48 } } ∧ (∀ q, q ≠ p → pageOf u q = pageOf s q) ∧
      u = { s with regs := { s.regs with pages := u.regs.pages } }) ∧
  (∀ (fn p i v : Nat) (e : Evc) (s : State), (pageOf s p).evcs[i]? = some e → s.regs.evcFreeze = false → e.enable = true →
    exec (.evcCountWrite fn p i v) s = .next s) ∧
  (∀ (p i : Nat) (e : Evc) (s : State), i < 8 → (pageOf s p).evcs[i]? = some e → e.enable = true → e.count = 2 ^ 48 - 1 →
    s.regs.evcFreeze = false → pageCounts s p = true → (blockType p).isSome = true → (p ≠ 1 ∨ e.source ≠ 4) →
    ∃ u, exec (.evcOverflow p i) s = .next u ∧ (pageOf u p).ovf.getLsbD i = true ∧
      ((pageOf u p).evcs[i]?).map (·.count) = some 0 ∧ HostOnly s u) ∧
  (∀ (fn p : Nat) (s : State), mayWrite fn p = true →
    ∃ u, exec (.pgErrPop fn p) s = .next u ∧ (pageOf u p).errs = (pageOf s p).errs.drop 1 ∧ (pageOf u p).errOvf = (pageOf s p).errOvf ∧
      HostOnly s u) ∧
  (∀ (fn p : Nat) (v : BitVec 32) (s : State), mayWrite fn p = true →
    (∃ u, exec (.pgIrqReevaluate fn p 0x18 v) s = .next u ∧ (pageOf u p).enable = (v &&& 0x3FF) ∧ HostOnly s u) ∧
    (∃ u, exec (.pgIrqReevaluate fn p 0x14 v) s = .next u ∧ (p ≠ 1 → (pageOf u p).ovf = (pageOf s p).ovf &&& ~~~(v.setWidth 8)) ∧ HostOnly s u) ∧
    (v.toNat % 2048 < targetVectors v →
      ∃ u, exec (.pgIrqReevaluate fn p 0xC v) s = .next u ∧ (pageOf u p).ctl = (v &&& 0x1FFF) ∧ HostOnly s u)) ∧
  (∀ (fn p o : Nat) (v : BitVec 32) (s : State), mayWrite fn p = false → exec (.pgErrPop fn p) s = .next s ∧ exec (.pgIrqReevaluate fn p o v) s = .next s)

/-! ### Registers (20) -/

/-- Halves of a 64-bit register are latched and held (20 R735); an access of another size or alignment counts, reads zero and writes nothing
(20 R734); a write of a selector or a limit changes that register alone (12, 13); the anchor's packets reach the fabric page only, and are
answered (16 R605, R618, R624). -/
def Obligations.registers : Prop :=
  (∀ (fn p o : Nat) (l : List RegSpan) (s : State), pageSpans s fn p = l → is64 l o = true →
    ∃ u, exec (.halfReadLatch fn p o) s = .next u ∧ u.regs.readValue = leBytes 4 (wordAt l o) ∧
      halfOf u.regs.latched fn p o = some (BitVec.ofNat 32 (wordAt l (o + 4))) ∧
      u = { s with regs := { s.regs with readValue := u.regs.readValue, latched := u.regs.latched } }) ∧
  (∀ (fn p o : Nat) (x : BitVec 32) (l : List RegSpan) (s : State), pageSpans s fn p = l → is64 l (o + 4) = false → is64 l o = true →
    halfOf s.regs.latched fn p o = some x →
    exec (.halfReadLatch fn p (o + 4)) s = .next { s with regs := { s.regs with readValue := leBytes 4 x.toNat } }) ∧
  (∀ (fn p o : Nat) (v : BitVec 32) (s : State), wide s fn p o = true →
    ∃ u, exec (.halfWrite fn p o v) s = .next u ∧ halfOf u.regs.held fn p o = some v ∧ u = { s with regs := { s.regs with held := u.regs.held } }) ∧
  (∀ (v x : BitVec 32) (s : State), s.boot.level ≠ 3 → halfOf s.regs.held 1 12 0x1008 = some x →
    ∃ u, exec (.halfWrite 1 12 0x100C v) s = .next u ∧ u.sec.dbgAddr.toNat = (x.toNat + 2 ^ 32 * v.toNat) / 64 * 64 ∧
      halfOf u.regs.held 1 12 0x1008 = none ∧
      u = { s with sec := { s.sec with dbgAddr := u.sec.dbgAddr }, regs := { s.regs with held := u.regs.held } }) ∧
  (∀ (fn p o n : Nat) (s : State), goodAccess o n = false → fn < 514 → p < 512 →
    (∃ u, exec (.badAccess fn p o n true) s = .next u ∧ u.regs.badAccess = (s.regs.badAccess + 1) % 2 ^ 64 ∧
      u.regs.readValue = s.regs.readValue ∧ HostOnly s u ∧ u.hif.hostMem = s.hif.hostMem) ∧
    (∃ u, exec (.badAccess fn p o n false) s = .next u ∧ u.regs.badAccess = (s.regs.badAccess + 1) % 2 ^ 64 ∧
      u.regs.readValue = zeros n ∧ HostOnly s u ∧ u.hif.hostMem = s.hif.hostMem)) ∧
  (∀ (fn p o n : Nat) (v : BitVec 64) (s : State), goodAccess o n = false →
    ∃ u, exec (.registerWrite fn p o n v) s = .next u ∧ u.regs.badAccess = (s.regs.badAccess + 1) % 2 ^ 64 ∧ HostOnly s u) ∧
  (∀ (fn : Nat) (v : BitVec 64) (s : State), fn ≤ 1 → s.boot.level ≠ 3 →
    exec (.registerWrite fn 9 0x1014 4 v) s = .next { s with flash := { s.flash with chSel := BitVec.ofNat 32 (v.toNat % 64) } }) ∧
  (∀ (fn : Nat) (v : BitVec 64) (s : State), fn ≤ 1 → s.boot.level ≠ 3 →
    exec (.registerWrite fn 8 0x1014 4 v) s =
      .next (if v.toNat % 32 < 20 then { s with mem := { s.mem with stackSel := v.toNat % 32 } } else s)) ∧
  (∀ (v : BitVec 64) (s : State), s.boot.level ≠ 3 →
    exec (.registerWrite 1 10 0x1010 4 v) s = .next { s with fab := { s.fab with portSel := BitVec.ofNat 32 (v.toNat % 32) } }) ∧
  (∀ (v : BitVec 64) (s : State), s.boot.level ≠ 3 → exec (.registerWrite 0 10 0x1010 4 v) s = .next s) ∧
  (∀ (fn p : Nat) (v : BitVec 64) (s : State), 2 ≤ fn → p ≠ 1 → s.boot.level ≠ 3 → exec (.registerWrite fn p 0x1014 4 v) s = .next s) ∧
  (∀ (p : Packet) (s : State), FromAnchor p s → Routed p.src s → regPage p = 10 → goodAccess (regOffset p) (regSize p) = true →
    ∃ u q, exec (.regRead p) s = .next u ∧ q ∈ u.fab.sent ∧ q.ptype = 0x85 ∧ q.dst = p.src ∧ q.arg0.toNat = Status.ok ∧ FabOnly s u ∧
      (regSize p = 4 → q.arg1.toNat = read4 s 1 10 (regOffset p)) ∧ (regSize p = 8 → q.arg1.toNat = read8 s 1 10 (regOffset p))) ∧
  (∀ (p : Packet) (s : State), FromAnchor p s → Routed p.src s → regPage p ≠ 10 →
    (∃ u q, exec (.regRead p) s = .next u ∧ q ∈ u.fab.sent ∧ q.ptype = 0x85 ∧ q.dst = p.src ∧ q.arg0.toNat = Status.refused ∧ FabOnly s u) ∧
    (∃ u q, exec (.regWrite p) s = .next u ∧ q ∈ u.fab.sent ∧ q.ptype = 0x81 ∧ q.dst = p.src ∧ q.arg0.toNat = Status.refused ∧ FabOnly s u)) ∧
  (∀ (p : Packet) (s : State), FromAnchor p s → s.boot.level ≠ 3 → regPage p = 10 → regOffset p = 0x1010 → regSize p = 4 →
    ∃ u, exec (.regWrite p) s = .next u ∧ u.fab.portSel = BitVec.ofNat 32 (rd p.payload 0 8 % 32) ∧ u.fab.state = s.fab.state ∧
      u.fab.id = s.fab.id ∧ FabOnly s u)

/-- MEM_SCRUB_PERIOD, MEM_LEND_MAX, MEM_LEND_HOPS, MEM_STACK_SEL and MEM_SPARE_THRESH take what lies in their range and read it back with
zeros above it; a write outside the range is ignored (12 R476, R477). -/
def Obligations.memory_limit_registers : Prop :=
  ∀ (fn o lo hi w : Nat) (v : BitVec 64) (s : State), fn ≤ 1 → s.boot.level ≠ 3 →
    (o, w, lo, hi) ∈ [(0x1008, 8, 1, 168), (0x100C, 20, 0, 983040), (0x1010, 3, 1, 4), (0x1014, 5, 0, 19), (0x101C, 8, 1, 255)] →
    (lo ≤ v.toNat % 2 ^ w ∧ v.toNat % 2 ^ w ≤ hi →
      ∃ u, exec (.registerWrite fn 8 o 4 v) s = .next u ∧ (Sound s → read4 u fn 8 o = v.toNat % 2 ^ w) ∧
        u = { s with mem := { s.mem with
          scrubPeriod := if o = 0x1008 then v.toNat % 2 ^ w else s.mem.scrubPeriod, lendMax := if o = 0x100C then v.toNat % 2 ^ w else s.mem.lendMax
          lendHops := if o = 0x1010 then v.toNat % 2 ^ w else s.mem.lendHops, stackSel := if o = 0x1014 then v.toNat % 2 ^ w else s.mem.stackSel
          spareThresh := if o = 0x101C then v.toNat % 2 ^ w else s.mem.spareThresh } }) ∧
    ((v.toNat % 2 ^ w < lo ∨ hi < v.toNat % 2 ^ w) → exec (.registerWrite fn 8 o 4 v) s = .next s)

/-- PG_ID reads the page number and the block type of the page (20 R738); a page not mapped for a function reads zero and ignores writes, and
the service function's writes of the fabric page are refused (20 R732). -/
def Obligations.page_identity_and_mapping : Prop :=
  (∀ (fn p : Nat) (s : State), pageMapped fn p = true → s.boot.level ≠ 3 →
    read4 s fn p 0 = p + 2 ^ 16 * (if p < 14 then p else 0x40) ∧ p < 512) ∧
  (∀ (fn p o : Nat) (s : State), pageMapped fn p = false → s.boot.level ≠ 3 → read4 s fn p o = 0 ∧ read8 s fn p o = 0) ∧
  (∀ (fn p o n : Nat) (v : BitVec 64) (s : State), pageMapped fn p = false → s.boot.level ≠ 3 → goodAccess o n = true →
    exec (.registerWrite fn p o n v) s = .next s) ∧
  (∀ (o n : Nat) (v : BitVec 64) (s : State), s.boot.level ≠ 3 → goodAccess o n = true →
    ∃ u, exec (.registerWrite 0 10 o n v) s = .next u ∧ u = { s with regs := { s.regs with held := u.regs.held, latched := u.regs.latched } })
end

