-- ==== Sys2Proof/Laws/Bytes.lean ====
section
/-! SUPPORT. What little-endian byte strings are: their length, their parts, and the numbers read from them. -/

namespace Sys2Proof.Machine

theorem leBytes_length (n v : Nat) : (leBytes n v).length = n := by
  induction n generalizing v with
  | zero => rfl
  | succ n ih => simp [leBytes, ih]

theorem leBytes_drop (n v a : Nat) : (leBytes n v).drop a = leBytes (n - a) (v / 256 ^ a) := by
  induction a generalizing n v with
  | zero => simp
  | succ a ih =>
    cases n with
    | zero => simp [leBytes]
    | succ n => simp [leBytes, ih, Nat.div_div_eq_div_mul, Nat.pow_succ, Nat.mul_comm]

theorem leBytes_take (n v k : Nat) : (leBytes n v).take k = leBytes (min k n) v := by
  induction n generalizing v k with
  | zero => simp [leBytes]
  | succ n ih =>
    cases k with
    | zero => simp [leBytes]
    | succ k => simp [leBytes, ih, Nat.succ_min_succ]

theorem leNat_leBytes (n v : Nat) : leNat (leBytes n v) = v % 256 ^ n := by
  induction n generalizing v with
  | zero => simp [leBytes, leNat, Nat.mod_one]
  | succ n ih => simp [leBytes, leNat, ih, Nat.pow_succ, Nat.mul_comm (256 ^ n), Nat.mod_mul]

/-- A field of a byte string is that field of the number the string stands for. -/
theorem rd_leBytes (n v a k : Nat) : rd (leBytes n v) a k = v / 256 ^ a % 256 ^ min k (n - a) := by
  simp [rd, leBytes_drop, leBytes_take, leNat_leBytes]

end Sys2Proof.Machine
end

