-- ==== Sys2Proof/Laws/PerInstr.lean ====
section
/-! SUPPORT. One lemma per command about its syntax: a ring command's opcode is one of the submission table (15 R575). -/

namespace Sys2Proof.Laws.Opcode

/-- A ring command has a row of the submission table. -/
def Statement (i : Sys2Proof.Instr) : Prop :=
  ∀ op, i.opcode? = some op → (Sys2Proof.Machine.cmdRow op).isSome = true

/-- A command that is not given on a ring has no opcode. -/
theorem of_none {i : Sys2Proof.Instr} (h : i.opcode? = none) : Statement i := fun op e => by rw [h] at e; cases e

/-- A ring command of an opcode of the table. -/
theorem of_some {i : Sys2Proof.Instr} {k : Nat} (h : i.opcode? = some k) (r : (Sys2Proof.Machine.cmdRow k).isSome = true) :
    Statement i := fun op e => by rw [h] at e; cases e; exact r

theorem request : ∀ x1, Statement (.request x1) := fun _ => of_some rfl rfl
theorem inputChunk : ∀ x1, Statement (.inputChunk x1) := fun _ => of_some rfl rfl
theorem cancel : ∀ x1, Statement (.cancel x1) := fun _ => of_some rfl rfl
theorem run : ∀ x1, Statement (.run x1) := fun _ => of_some rfl rfl
theorem batonRelease : ∀ x1, Statement (.batonRelease x1) := fun _ => of_some rfl rfl
theorem ingestOpen : ∀ x1, Statement (.ingestOpen x1) := fun _ => of_some rfl rfl
theorem ingestOp : ∀ x1, Statement (.ingestOp x1) := fun _ => of_some rfl rfl
theorem ingestCommit : ∀ x1, Statement (.ingestCommit x1) := fun _ => of_some rfl rfl
theorem commitDurable : ∀ x1, Statement (.commitDurable x1) := fun _ => of_none rfl
theorem ingestAbort : ∀ x1, Statement (.ingestAbort x1) := fun _ => of_some rfl rfl
theorem filterRegister : ∀ x1, Statement (.filterRegister x1) := fun _ => of_some rfl rfl
theorem filterUnregister : ∀ x1, Statement (.filterUnregister x1) := fun _ => of_some rfl rfl
theorem profileLoad : ∀ x1, Statement (.profileLoad x1) := fun _ => of_some rfl rfl
theorem profileLoadRelease : ∀ x1, Statement (.profileLoadRelease x1) := fun _ => of_none rfl
theorem profileUnload : ∀ x1, Statement (.profileUnload x1) := fun _ => of_some rfl rfl
theorem imageLoad : ∀ x1, Statement (.imageLoad x1) := fun _ => of_some rfl rfl
theorem imageUnload : ∀ x1, Statement (.imageUnload x1) := fun _ => of_some rfl rfl
theorem tokenizerLoad : ∀ x1, Statement (.tokenizerLoad x1) := fun _ => of_some rfl rfl
theorem tokenizerUnload : ∀ x1, Statement (.tokenizerUnload x1) := fun _ => of_some rfl rfl
theorem templateLoad : ∀ x1, Statement (.templateLoad x1) := fun _ => of_some rfl rfl
theorem templateUnload : ∀ x1, Statement (.templateUnload x1) := fun _ => of_some rfl rfl
theorem collectionCreate : ∀ x1, Statement (.collectionCreate x1) := fun _ => of_some rfl rfl
theorem collectionDelete : ∀ x1, Statement (.collectionDelete x1) := fun _ => of_some rfl rfl
theorem tableCreate : ∀ x1, Statement (.tableCreate x1) := fun _ => of_some rfl rfl
theorem tableDelete : ∀ x1, Statement (.tableDelete x1) := fun _ => of_some rfl rfl
theorem versionNew : ∀ x1, Statement (.versionNew x1) := fun _ => of_some rfl rfl
theorem versionSwitch : ∀ x1, Statement (.versionSwitch x1) := fun _ => of_some rfl rfl
theorem versionRetire : ∀ x1, Statement (.versionRetire x1) := fun _ => of_some rfl rfl
theorem rowPin : ∀ x1, Statement (.rowPin x1) := fun _ => of_some rfl rfl
theorem accountCreate : ∀ x1, Statement (.accountCreate x1) := fun _ => of_some rfl rfl
theorem accountUpdate : ∀ x1, Statement (.accountUpdate x1) := fun _ => of_some rfl rfl
theorem accountDelete : ∀ x1, Statement (.accountDelete x1) := fun _ => of_some rfl rfl
theorem accountScrubEnd : ∀ x1, Statement (.accountScrubEnd x1) := fun _ => of_none rfl
theorem qpBind : ∀ x1, Statement (.qpBind x1) := fun _ => of_some rfl rfl
theorem qpUnbind : ∀ x1, Statement (.qpUnbind x1) := fun _ => of_some rfl rfl
theorem fnDisable : ∀ x1, Statement (.fnDisable x1) := fun _ => of_some rfl rfl
theorem acctLogRead : ∀ x1, Statement (.acctLogRead x1) := fun _ => of_some rfl rfl
theorem asyncWait : ∀ x1, Statement (.asyncWait x1) := fun _ => of_some rfl rfl
theorem commandFetch : ∀ x1, Statement (.commandFetch x1) := fun _ => of_none rfl
theorem sqTailDoorbell : ∀ x1 x2 x3, Statement (.sqTailDoorbell x1 x2 x3) := fun _ _ _ => of_none rfl
theorem cqHeadDoorbell : ∀ x1 x2 x3, Statement (.cqHeadDoorbell x1 x2 x3) := fun _ _ _ => of_none rfl
theorem streamHeadDoorbell : ∀ x1 x2 x3, Statement (.streamHeadDoorbell x1 x2 x3) := fun _ _ _ => of_none rfl
theorem qpEnable : ∀ x1 x2, Statement (.qpEnable x1 x2) := fun _ _ => of_none rfl
theorem qpDisable : ∀ x1 x2, Statement (.qpDisable x1 x2) := fun _ _ => of_none rfl
theorem qpFind : ∀ x1 x2, Statement (.qpFind x1 x2) := fun _ _ => of_none rfl
theorem irqModerationTimer : ∀ x1, Statement (.irqModerationTimer x1) := fun _ => of_none rfl
theorem bar4Access : ∀ x1 x2 x3, Statement (.bar4Access x1 x2 x3) := fun _ _ _ => of_none rfl
theorem dmaReadError : ∀ x1 x2, Statement (.dmaReadError x1 x2) := fun _ _ => of_none rfl
theorem stageBoundary : ∀ x1, Statement (.stageBoundary x1) := fun _ => of_none rfl
theorem walkStart : ∀ x1, Statement (.walkStart x1) := fun _ => of_none rfl
theorem walkHop : ∀ x1 x2 x3, Statement (.walkHop x1 x2 x3) := fun _ _ _ => of_none rfl
theorem relayArrive : ∀ x1, Statement (.relayArrive x1) := fun _ => of_none rfl
theorem offerBatch : ∀ x1, Statement (.offerBatch x1) := fun _ => of_none rfl
theorem endReport : ∀ x1, Statement (.endReport x1) := fun _ => of_none rfl
theorem mergeUnite : ∀ x1, Statement (.mergeUnite x1) := fun _ => of_none rfl
theorem shardWaitExpiry : ∀ x1, Statement (.shardWaitExpiry x1) := fun _ => of_none rfl
theorem nodeRebuild : ∀ x1 x2, Statement (.nodeRebuild x1 x2) := fun _ _ => of_none rfl
theorem searchHoldSet : ∀ x1, Statement (.searchHoldSet x1) := fun _ => of_none rfl
theorem searchHoldClear : ∀ x1, Statement (.searchHoldClear x1) := fun _ => of_none rfl
theorem reservationGrant : ∀ x1, Statement (.reservationGrant x1) := fun _ => of_none rfl
theorem stepForm : ∀ x1 x2 x3, Statement (.stepForm x1 x2 x3) := fun _ _ _ => of_none rfl
theorem stepCommit : ∀ x1, Statement (.stepCommit x1) := fun _ => of_none rfl
theorem entryFree : ∀ x1, Statement (.entryFree x1) := fun _ => of_none rfl
theorem genHold : ∀ x1 x2, Statement (.genHold x1 x2) := fun _ _ => of_none rfl
theorem rtWinLatch : ∀ x1 x2, Statement (.rtWinLatch x1 x2) := fun _ _ => of_none rfl
theorem heat : Statement (.heat) := of_none rfl
theorem sliceEnd : ∀ x1, Statement (.sliceEnd x1) := fun _ => of_none rfl
theorem preemptPointReached : ∀ x1 x2, Statement (.preemptPointReached x1 x2) := fun _ _ => of_none rfl
theorem watchdogExpiry : ∀ x1 x2, Statement (.watchdogExpiry x1 x2) := fun _ _ => of_none rfl
theorem schedHold : ∀ x1 x2, Statement (.schedHold x1 x2) := fun _ _ => of_none rfl
theorem acctWinLatch : ∀ x1 x2, Statement (.acctWinLatch x1 x2) := fun _ _ => of_none rfl
theorem clusterSleep : ∀ x1, Statement (.clusterSleep x1) := fun _ => of_none rfl
theorem operationStart : ∀ x1 x2 x3, Statement (.operationStart x1 x2 x3) := fun _ _ _ => of_none rfl
theorem passIssue : ∀ x1 x2 x3 x4, Statement (.passIssue x1 x2 x3 x4) := fun _ _ _ _ => of_none rfl
theorem arrDrain : ∀ x1 x2 x3, Statement (.arrDrain x1 x2 x3) := fun _ _ _ => of_none rfl
theorem arrRetire : ∀ x1 x2, Statement (.arrRetire x1 x2) := fun _ _ => of_none rfl
theorem arrSpareRow : ∀ x1 x2 x3, Statement (.arrSpareRow x1 x2 x3) := fun _ _ _ => of_none rfl
theorem arrSpareColumn : ∀ x1 x2 x3, Statement (.arrSpareColumn x1 x2 x3) := fun _ _ _ => of_none rfl
theorem arrSelfTest : ∀ x1 x2, Statement (.arrSelfTest x1 x2) := fun _ _ => of_none rfl
theorem arrSpareDone : ∀ x1 x2, Statement (.arrSpareDone x1 x2) := fun _ _ => of_none rfl
theorem rowDeltaArrive : ∀ x1 x2 x3 x4 x5, Statement (.rowDeltaArrive x1 x2 x3 x4 x5) := fun _ _ _ _ _ => of_none rfl
theorem fetchIssue : ∀ x1 x2, Statement (.fetchIssue x1 x2) := fun _ _ => of_none rfl
theorem fetchArrive : ∀ x1 x2 x3, Statement (.fetchArrive x1 x2 x3) := fun _ _ _ => of_none rfl
theorem fetchDeadline : ∀ x1 x2, Statement (.fetchDeadline x1 x2) := fun _ _ => of_none rfl
theorem rowPromote : ∀ x1 x2 x3 x4, Statement (.rowPromote x1 x2 x3 x4) := fun _ _ _ _ => of_none rfl
theorem promotionSnapshotsDone : ∀ x1 x2 x3, Statement (.promotionSnapshotsDone x1 x2 x3) := fun _ _ _ => of_none rfl
theorem promotionLogApplied : ∀ x1 x2 x3, Statement (.promotionLogApplied x1 x2 x3) := fun _ _ _ => of_none rfl
theorem rowDemote : ∀ x1 x2 x3, Statement (.rowDemote x1 x2 x3) := fun _ _ _ => of_none rfl
theorem demotionReadsDone : ∀ x1 x2 x3, Statement (.demotionReadsDone x1 x2 x3) := fun _ _ _ => of_none rfl
theorem dirtyWriteback : ∀ x1 x2 x3, Statement (.dirtyWriteback x1 x2 x3) := fun _ _ _ => of_none rfl
theorem scrubPass : ∀ x1, Statement (.scrubPass x1) := fun _ => of_none rfl
theorem lendReclaimStart : ∀ x1, Statement (.lendReclaimStart x1) := fun _ => of_none rfl
theorem leasePathLost : ∀ x1, Statement (.leasePathLost x1) := fun _ => of_none rfl
theorem memLendDisable : ∀ x1, Statement (.memLendDisable x1) := fun _ => of_none rfl
theorem flashReadDecode : ∀ x1, Statement (.flashReadDecode x1) := fun _ => of_none rfl
theorem gcStart : ∀ x1 x2, Statement (.gcStart x1 x2) := fun _ _ => of_none rfl
theorem gcBlock : ∀ x1 x2, Statement (.gcBlock x1 x2) := fun _ _ => of_none rfl
theorem wearLevelMove : ∀ x1 x2, Statement (.wearLevelMove x1 x2) := fun _ _ => of_none rfl
theorem spareLowReached : ∀ x1 x2, Statement (.spareLowReached x1 x2) := fun _ _ => of_none rfl
theorem programFail : ∀ x1 x2 x3 x4, Statement (.programFail x1 x2 x3 x4) := fun _ _ _ _ => of_none rfl
theorem channelFail : ∀ x1, Statement (.channelFail x1) := fun _ => of_none rfl
theorem flitReceive : ∀ x1 x2, Statement (.flitReceive x1 x2) := fun _ _ => of_none rfl
theorem retryRequest : ∀ x1 x2, Statement (.retryRequest x1 x2) := fun _ _ => of_none rfl
theorem linkKeyUpdate : ∀ x1, Statement (.linkKeyUpdate x1) := fun _ => of_none rfl
theorem portTrained : ∀ x1 x2 x3, Statement (.portTrained x1 x2 x3) := fun _ _ _ => of_none rfl
theorem linkSession : ∀ x1 x2 x3, Statement (.linkSession x1 x2 x3) := fun _ _ _ => of_none rfl
theorem retxTimer : ∀ x1, Statement (.retxTimer x1) := fun _ => of_none rfl
theorem peerLossTimer : ∀ x1, Statement (.peerLossTimer x1) := fun _ => of_none rfl
theorem tablePin : ∀ x1, Statement (.tablePin x1) := fun _ => of_none rfl
theorem tableUnpin : ∀ x1, Statement (.tableUnpin x1) := fun _ => of_none rfl
theorem rowRead : ∀ x1, Statement (.rowRead x1) := fun _ => of_none rfl
theorem rowAdd : ∀ x1, Statement (.rowAdd x1) := fun _ => of_none rfl
theorem redExp : ∀ x1, Statement (.redExp x1) := fun _ => of_none rfl
theorem redAgree : ∀ x1, Statement (.redAgree x1) := fun _ => of_none rfl
theorem redPart : ∀ x1, Statement (.redPart x1) := fun _ => of_none rfl
theorem redResult : ∀ x1, Statement (.redResult x1) := fun _ => of_none rfl
theorem redAbort : ∀ x1, Statement (.redAbort x1) := fun _ => of_none rfl
theorem shardQuery : ∀ x1, Statement (.shardQuery x1) := fun _ => of_none rfl
theorem shardList : ∀ x1, Statement (.shardList x1) := fun _ => of_none rfl
theorem leaseReq : ∀ x1, Statement (.leaseReq x1) := fun _ => of_none rfl
theorem leaseGrant : ∀ x1, Statement (.leaseGrant x1) := fun _ => of_none rfl
theorem leaseReclaim : ∀ x1, Statement (.leaseReclaim x1) := fun _ => of_none rfl
theorem leaseRelease : ∀ x1, Statement (.leaseRelease x1) := fun _ => of_none rfl
theorem lentWrite : ∀ x1, Statement (.lentWrite x1) := fun _ => of_none rfl
theorem lentRead : ∀ x1, Statement (.lentRead x1) := fun _ => of_none rfl
theorem pairAck : ∀ x1, Statement (.pairAck x1) := fun _ => of_none rfl
theorem assign : ∀ x1, Statement (.assign x1) := fun _ => of_none rfl
theorem assignVia : ∀ x1, Statement (.assignVia x1) := fun _ => of_none rfl
theorem assigned : ∀ x1, Statement (.assigned x1) := fun _ => of_none rfl
theorem admitPacket : ∀ x1, Statement (.admitPacket x1) := fun _ => of_none rfl
theorem unassign : ∀ x1, Statement (.unassign x1) := fun _ => of_none rfl
theorem leavePacket : ∀ x1, Statement (.leavePacket x1) := fun _ => of_none rfl
theorem anchorMove : ∀ x1, Statement (.anchorMove x1) := fun _ => of_none rfl
theorem regRead : ∀ x1, Statement (.regRead x1) := fun _ => of_none rfl
theorem regWrite : ∀ x1, Statement (.regWrite x1) := fun _ => of_none rfl
theorem spdmRelay : ∀ x1, Statement (.spdmRelay x1) := fun _ => of_none rfl
theorem noNeighbour : ∀ x1, Statement (.noNeighbour x1) := fun _ => of_none rfl
theorem fabAnswer : ∀ x1, Statement (.fabAnswer x1) := fun _ => of_none rfl
theorem fabLeave : ∀ x1, Statement (.fabLeave x1) := fun _ => of_none rfl
theorem leaveDrained : Statement (.leaveDrained) := of_none rfl
theorem fabAssign : ∀ x1 x2, Statement (.fabAssign x1 x2) := fun _ _ => of_none rfl
theorem fabRtDataWrite : ∀ x1 x2, Statement (.fabRtDataWrite x1 x2) := fun _ _ => of_none rfl
theorem fabSetClear : ∀ x1, Statement (.fabSetClear x1) := fun _ => of_none rfl
theorem rcvReqTimer : Statement (.rcvReqTimer) := of_none rfl
theorem rcvReq : ∀ x1, Statement (.rcvReq x1) := fun _ => of_none rfl
theorem rcvData : ∀ x1 x2 x3 x4, Statement (.rcvData x1 x2 x3 x4) := fun _ _ _ _ => of_none rfl
theorem rcvGo : ∀ x1, Statement (.rcvGo x1) := fun _ => of_none rfl
theorem rcvImageComplete : Statement (.rcvImageComplete) := of_none rfl
theorem lsRetireStack : ∀ x1 x2, Statement (.lsRetireStack x1 x2) := fun _ _ => of_none rfl
theorem lsRetireChannel : ∀ x1 x2, Statement (.lsRetireChannel x1 x2) := fun _ _ => of_none rfl
theorem lsRecalibratePort : ∀ x1 x2, Statement (.lsRecalibratePort x1 x2) := fun _ _ => of_none rfl
theorem lsMicrocode : ∀ x1 x2, Statement (.lsMicrocode x1 x2) := fun _ _ => of_none rfl
theorem lsHubFirmware : ∀ x1 x2, Statement (.lsHubFirmware x1 x2) := fun _ _ => of_none rfl
theorem lsOperationEnd : Statement (.lsOperationEnd) := of_none rfl
theorem secDbgChallenge : ∀ x1, Statement (.secDbgChallenge x1) := fun _ => of_none rfl
theorem secDbgRespond : ∀ x1 x2, Statement (.secDbgRespond x1 x2) := fun _ _ => of_none rfl
theorem challengeExpiry : Statement (.challengeExpiry) := of_none rfl
theorem getMeasurements : ∀ x1, Statement (.getMeasurements x1) := fun _ => of_none rfl
theorem spdmChallenge : ∀ x1, Statement (.spdmChallenge x1) := fun _ => of_none rfl
theorem keyExchange : ∀ x1, Statement (.keyExchange x1) := fun _ => of_none rfl
theorem spdmFinish : ∀ x1, Statement (.spdmFinish x1) := fun _ => of_none rfl
theorem keyUpdate : ∀ x1, Statement (.keyUpdate x1) := fun _ => of_none rfl
theorem spdmHeartbeat : ∀ x1, Statement (.spdmHeartbeat x1) := fun _ => of_none rfl
theorem endSession : ∀ x1, Statement (.endSession x1) := fun _ => of_none rfl
theorem recorderClear : ∀ x1 x2, Statement (.recorderClear x1 x2) := fun _ _ => of_none rfl
theorem lockstepMismatch : Statement (.lockstepMismatch) := of_none rfl
theorem setEndpointId : ∀ x1 x2, Statement (.setEndpointId x1 x2) := fun _ _ => of_none rfl
theorem entdaa : ∀ x1, Statement (.entdaa x1) := fun _ => of_none rfl
theorem rstdaa : Statement (.rstdaa) := of_none rfl
theorem getTid : ∀ x1, Statement (.getTid x1) := fun _ => of_none rfl
theorem getPldmTypes : ∀ x1, Statement (.getPldmTypes x1) := fun _ => of_none rfl
theorem getPldmCommands : ∀ x1 x2, Statement (.getPldmCommands x1 x2) := fun _ _ => of_none rfl
theorem getPldmVersion : ∀ x1 x2, Statement (.getPldmVersion x1 x2) := fun _ _ => of_none rfl
theorem sensorRead : ∀ x1 x2 x3, Statement (.sensorRead x1 x2 x3) := fun _ _ _ => of_none rfl
theorem pdrRead : ∀ x1 x2, Statement (.pdrRead x1 x2) := fun _ _ => of_none rfl
theorem effecterWrite : ∀ x1 x2 x3, Statement (.effecterWrite x1 x2 x3) := fun _ _ _ => of_none rfl
theorem setEventReceiver : ∀ x1 x2, Statement (.setEventReceiver x1 x2) := fun _ _ => of_none rfl
theorem fruRead : ∀ x1, Statement (.fruRead x1) := fun _ => of_none rfl
theorem requestUpdate : ∀ x1, Statement (.requestUpdate x1) := fun _ => of_none rfl
theorem componentTransfer : ∀ x1 x2, Statement (.componentTransfer x1 x2) := fun _ _ => of_none rfl
theorem activateFirmware : ∀ x1, Statement (.activateFirmware x1) := fun _ => of_none rfl
theorem setCalendar : ∀ x1 x2, Statement (.setCalendar x1 x2) := fun _ _ => of_none rfl
theorem getCalendar : ∀ x1, Statement (.getCalendar x1) := fun _ => of_none rfl
theorem clockPacerStep : ∀ x1, Statement (.clockPacerStep x1) := fun _ => of_none rfl
theorem admissionPacer : ∀ x1 x2, Statement (.admissionPacer x1 x2) := fun _ _ => of_none rfl
theorem safetyOverrideEnter : ∀ x1 x2, Statement (.safetyOverrideEnter x1 x2) := fun _ _ => of_none rfl
theorem safetyOverrideStep : Statement (.safetyOverrideStep) := of_none rfl
theorem safetyOverrideLeave : ∀ x1 x2, Statement (.safetyOverrideLeave x1 x2) := fun _ _ => of_none rfl
theorem snapshotSet : ∀ x1, Statement (.snapshotSet x1) := fun _ => of_none rfl
theorem snapshotFlush : Statement (.snapshotFlush) := of_none rfl
theorem evrManual : ∀ x1, Statement (.evrManual x1) := fun _ => of_none rfl
theorem evrAdvance : ∀ x1, Statement (.evrAdvance x1) := fun _ => of_none rfl
theorem evrCursorWrite : ∀ x1 x2, Statement (.evrCursorWrite x1 x2) := fun _ _ => of_none rfl
theorem evrSnapSelWrite : ∀ x1 x2, Statement (.evrSnapSelWrite x1 x2) := fun _ _ => of_none rfl
theorem evcFreeze : ∀ x1 x2, Statement (.evcFreeze x1 x2) := fun _ _ => of_none rfl
theorem evcSnap : ∀ x1, Statement (.evcSnap x1) := fun _ => of_none rfl
theorem evcCountWrite : ∀ x1 x2 x3 x4, Statement (.evcCountWrite x1 x2 x3 x4) := fun _ _ _ _ => of_none rfl
theorem evcOverflow : ∀ x1 x2, Statement (.evcOverflow x1 x2) := fun _ _ => of_none rfl
theorem pgErrPop : ∀ x1 x2, Statement (.pgErrPop x1 x2) := fun _ _ => of_none rfl
theorem pgIrqReevaluate : ∀ x1 x2 x3 x4, Statement (.pgIrqReevaluate x1 x2 x3 x4) := fun _ _ _ _ => of_none rfl
theorem glbReset : ∀ x1 x2, Statement (.glbReset x1 x2) := fun _ _ => of_none rfl
theorem clusterPowerOff : ∀ x1 x2, Statement (.clusterPowerOff x1 x2) := fun _ _ => of_none rfl
theorem clusterPowerOn : ∀ x1 x2, Statement (.clusterPowerOn x1 x2) := fun _ _ => of_none rfl
theorem clusterPowerOnDone : ∀ x1 x2 x3, Statement (.clusterPowerOnDone x1 x2 x3) := fun _ _ _ => of_none rfl
theorem halfReadLatch : ∀ x1 x2 x3, Statement (.halfReadLatch x1 x2 x3) := fun _ _ _ => of_none rfl
theorem halfWrite : ∀ x1 x2 x3 x4, Statement (.halfWrite x1 x2 x3 x4) := fun _ _ _ _ => of_none rfl
theorem badAccess : ∀ x1 x2 x3 x4 x5, Statement (.badAccess x1 x2 x3 x4 x5) := fun _ _ _ _ _ => of_none rfl
theorem registerWrite : ∀ x1 x2 x3 x4 x5, Statement (.registerWrite x1 x2 x3 x4 x5) := fun _ _ _ _ _ => of_none rfl
theorem auxPowerApplied : ∀ x1, Statement (.auxPowerApplied x1) := fun _ => of_none rfl
theorem starterVerify : ∀ x1, Statement (.starterVerify x1) := fun _ => of_none rfl
theorem mainInputPresent : Statement (.mainInputPresent) := of_none rfl
theorem bringupPhase4 : Statement (.bringupPhase4) := of_none rfl
theorem bringupPhase5 : ∀ x1, Statement (.bringupPhase5 x1) := fun _ => of_none rfl
theorem catalogueReload : ∀ x1, Statement (.catalogueReload x1) := fun _ => of_none rfl
theorem proofingBegin : Statement (.proofingBegin) := of_none rfl
theorem collectionVerified : ∀ x1 x2, Statement (.collectionVerified x1 x2) := fun _ _ => of_none rfl
theorem fullBegin : Statement (.fullBegin) := of_none rfl
theorem mainInputLost : ∀ x1, Statement (.mainInputLost x1) := fun _ => of_none rfl
theorem auxInputLost : Statement (.auxInputLost) := of_none rfl
theorem handoverEnd : Statement (.handoverEnd) := of_none rfl
theorem resetNLow : Statement (.resetNLow) := of_none rfl
theorem hardLimitTrip : ∀ x1, Statement (.hardLimitTrip x1) := fun _ => of_none rfl
theorem functionLevelReset : ∀ x1, Statement (.functionLevelReset x1) := fun _ => of_none rfl
theorem busMasterClear : ∀ x1, Statement (.busMasterClear x1) := fun _ => of_none rfl
theorem vfEnableClear : Statement (.vfEnableClear) := of_none rfl
theorem d3hotEntry : ∀ x1, Statement (.d3hotEntry x1) := fun _ => of_none rfl
theorem functionDisableComplete : ∀ x1, Statement (.functionDisableComplete x1) := fun _ => of_none rfl
theorem internalLinkFail : ∀ x1, Statement (.internalLinkFail x1) := fun _ => of_none rfl
theorem linkDegraded : ∀ x1, Statement (.linkDegraded x1) := fun _ => of_none rfl
theorem portDown : ∀ x1, Statement (.portDown x1) := fun _ => of_none rfl
theorem resetNRise : Statement (.resetNRise) := of_none rfl
theorem stackTrained : ∀ x1, Statement (.stackTrained x1) := fun _ => of_none rfl
theorem managementRestartEnd : Statement (.managementRestartEnd) := of_none rfl
theorem msixUnmask : ∀ x1 x2, Statement (.msixUnmask x1 x2) := fun _ _ => of_none rfl
theorem peerReportedGone : ∀ x1, Statement (.peerReportedGone x1) := fun _ => of_none rfl

end Sys2Proof.Laws.Opcode
end

