-- ==== Sys2Proof/Laws/Units.lean ====
section
/-! SUPPORT. What the shared operations of the flash's units and of the pacers' conflicts leave unchanged. -/

namespace Sys2Proof.Machine

section
variable (x : Freed) (s : State)
@[simp] theorem noteFreed_pending : (noteFreed x s).pending = s.pending := by exact rfl
@[simp] theorem noteFreed_regs : (noteFreed x s).regs = s.regs := by exact rfl
@[simp] theorem noteFreed_hif : (noteFreed x s).hif = s.hif := by exact rfl
@[simp] theorem noteFreed_sched : (noteFreed x s).sched = s.sched := by exact rfl
@[simp] theorem noteFreed_obj : (noteFreed x s).obj = s.obj := by exact rfl
@[simp] theorem noteFreed_gen : (noteFreed x s).gen = s.gen := by exact rfl
@[simp] theorem noteFreed_search : (noteFreed x s).search = s.search := by exact rfl
@[simp] theorem noteFreed_mem : (noteFreed x s).mem = s.mem := by exact rfl
@[simp] theorem noteFreed_flash : (noteFreed x s).flash = s.flash := by exact rfl
@[simp] theorem noteFreed_fab : (noteFreed x s).fab = s.fab := by exact rfl
@[simp] theorem noteFreed_sec : (noteFreed x s).sec = s.sec := by exact rfl
@[simp] theorem noteFreed_mgmt : (noteFreed x s).mgmt = s.mgmt := by exact rfl
@[simp] theorem noteFreed_free : (noteFreed x s).free = s.free := by exact rfl
end

/-- A resource is freed in the present cycle; nothing else of the bring-up state changes (00 R776). -/
theorem noteFreed_boot (x : Freed) (s : State) : (noteFreed x s).boot = { s.boot with freed := x :: s.boot.freed } := by exact rfl

section
variable (n : Nat) (s : State)
@[simp] theorem countPrograms_pending : (countPrograms n s).pending = s.pending := by simp [countPrograms]
@[simp] theorem countPrograms_sched : (countPrograms n s).sched = s.sched := by simp [countPrograms]
@[simp] theorem countPrograms_obj : (countPrograms n s).obj = s.obj := by simp [countPrograms]
@[simp] theorem countPrograms_gen : (countPrograms n s).gen = s.gen := by simp [countPrograms]
@[simp] theorem countPrograms_search : (countPrograms n s).search = s.search := by simp [countPrograms]
@[simp] theorem countPrograms_mem : (countPrograms n s).mem = s.mem := by simp [countPrograms]
@[simp] theorem countPrograms_fab : (countPrograms n s).fab = s.fab := by simp [countPrograms]
@[simp] theorem countPrograms_boot : (countPrograms n s).boot = s.boot := by simp [countPrograms]
@[simp] theorem countPrograms_sec : (countPrograms n s).sec = s.sec := by simp [countPrograms]
@[simp] theorem countPrograms_mgmt : (countPrograms n s).mgmt = s.mgmt := by simp [countPrograms]
@[simp] theorem countPrograms_free : (countPrograms n s).free = s.free := by simp [countPrograms]
@[simp] theorem countPrograms_hif_hostMem : (countPrograms n s).hif.hostMem = s.hif.hostMem := by simp [countPrograms]
@[simp] theorem countPrograms_hif_qps : (countPrograms n s).hif.qps = s.hif.qps := by simp [countPrograms]
@[simp] theorem countPrograms_hif_waits0 : (countPrograms n s).hif.waits0 = s.hif.waits0 := by simp [countPrograms]
@[simp] theorem countPrograms_hif_waits1 : (countPrograms n s).hif.waits1 = s.hif.waits1 := by simp [countPrograms]
@[simp] theorem countPrograms_hif_notices0 : (countPrograms n s).hif.notices0 = s.hif.notices0 := by simp [countPrograms]
@[simp] theorem countPrograms_hif_notices1 : (countPrograms n s).hif.notices1 = s.hif.notices1 := by simp [countPrograms]
@[simp] theorem countPrograms_hif_lost0 : (countPrograms n s).hif.lost0 = s.hif.lost0 := by simp [countPrograms]
@[simp] theorem countPrograms_hif_lost1 : (countPrograms n s).hif.lost1 = s.hif.lost1 := by simp [countPrograms]
end

section
variable (n : Nat) (s : State)
@[simp] theorem countReads_pending : (countReads n s).pending = s.pending := by simp [countReads]
@[simp] theorem countReads_sched : (countReads n s).sched = s.sched := by simp [countReads]
@[simp] theorem countReads_obj : (countReads n s).obj = s.obj := by simp [countReads]
@[simp] theorem countReads_gen : (countReads n s).gen = s.gen := by simp [countReads]
@[simp] theorem countReads_search : (countReads n s).search = s.search := by simp [countReads]
@[simp] theorem countReads_mem : (countReads n s).mem = s.mem := by simp [countReads]
@[simp] theorem countReads_fab : (countReads n s).fab = s.fab := by simp [countReads]
@[simp] theorem countReads_boot : (countReads n s).boot = s.boot := by simp [countReads]
@[simp] theorem countReads_sec : (countReads n s).sec = s.sec := by simp [countReads]
@[simp] theorem countReads_mgmt : (countReads n s).mgmt = s.mgmt := by simp [countReads]
@[simp] theorem countReads_free : (countReads n s).free = s.free := by simp [countReads]
@[simp] theorem countReads_hif_hostMem : (countReads n s).hif.hostMem = s.hif.hostMem := by simp [countReads]
@[simp] theorem countReads_hif_qps : (countReads n s).hif.qps = s.hif.qps := by simp [countReads]
@[simp] theorem countReads_hif_waits0 : (countReads n s).hif.waits0 = s.hif.waits0 := by simp [countReads]
@[simp] theorem countReads_hif_waits1 : (countReads n s).hif.waits1 = s.hif.waits1 := by simp [countReads]
@[simp] theorem countReads_hif_notices0 : (countReads n s).hif.notices0 = s.hif.notices0 := by simp [countReads]
@[simp] theorem countReads_hif_notices1 : (countReads n s).hif.notices1 = s.hif.notices1 := by simp [countReads]
@[simp] theorem countReads_hif_lost0 : (countReads n s).hif.lost0 = s.hif.lost0 := by simp [countReads]
@[simp] theorem countReads_hif_lost1 : (countReads n s).hif.lost1 = s.hif.lost1 := by simp [countReads]
end

section
variable (k : Nat) (s : State)
@[simp] theorem unmapUnit_pending : (unmapUnit k s).pending = s.pending := by simp [unmapUnit]
@[simp] theorem unmapUnit_regs : (unmapUnit k s).regs = s.regs := by simp [unmapUnit]
@[simp] theorem unmapUnit_hif : (unmapUnit k s).hif = s.hif := by simp [unmapUnit]
@[simp] theorem unmapUnit_sched : (unmapUnit k s).sched = s.sched := by simp [unmapUnit]
@[simp] theorem unmapUnit_obj : (unmapUnit k s).obj = s.obj := by simp [unmapUnit]
@[simp] theorem unmapUnit_gen : (unmapUnit k s).gen = s.gen := by simp [unmapUnit]
@[simp] theorem unmapUnit_search : (unmapUnit k s).search = s.search := by simp [unmapUnit]
@[simp] theorem unmapUnit_mem : (unmapUnit k s).mem = s.mem := by simp [unmapUnit]
@[simp] theorem unmapUnit_fab : (unmapUnit k s).fab = s.fab := by simp [unmapUnit]
@[simp] theorem unmapUnit_boot : (unmapUnit k s).boot = s.boot := by simp [unmapUnit]
@[simp] theorem unmapUnit_sec : (unmapUnit k s).sec = s.sec := by simp [unmapUnit]
@[simp] theorem unmapUnit_mgmt : (unmapUnit k s).mgmt = s.mgmt := by simp [unmapUnit]
@[simp] theorem unmapUnit_free : (unmapUnit k s).free = s.free := by simp [unmapUnit]
end

section
variable (r : Bool) (p c k : Nat) (s : State)
@[simp] theorem programUnit_pending : (programUnit r p c k s).pending = s.pending := by unfold programUnit; split; simp; split; simp; split <;> simp
@[simp] theorem programUnit_sched : (programUnit r p c k s).sched = s.sched := by unfold programUnit; split; simp; split; simp; split <;> simp
@[simp] theorem programUnit_obj : (programUnit r p c k s).obj = s.obj := by unfold programUnit; split; simp; split; simp; split <;> simp
@[simp] theorem programUnit_gen : (programUnit r p c k s).gen = s.gen := by unfold programUnit; split; simp; split; simp; split <;> simp
@[simp] theorem programUnit_search : (programUnit r p c k s).search = s.search := by unfold programUnit; split; simp; split; simp; split <;> simp
@[simp] theorem programUnit_mem : (programUnit r p c k s).mem = s.mem := by unfold programUnit; split; simp; split; simp; split <;> simp
@[simp] theorem programUnit_fab : (programUnit r p c k s).fab = s.fab := by unfold programUnit; split; simp; split; simp; split <;> simp
@[simp] theorem programUnit_boot : (programUnit r p c k s).boot = s.boot := by unfold programUnit; split; simp; split; simp; split <;> simp
@[simp] theorem programUnit_sec : (programUnit r p c k s).sec = s.sec := by unfold programUnit; split; simp; split; simp; split <;> simp
@[simp] theorem programUnit_mgmt : (programUnit r p c k s).mgmt = s.mgmt := by unfold programUnit; split; simp; split; simp; split <;> simp
@[simp] theorem programUnit_hif_hostMem : (programUnit r p c k s).hif.hostMem = s.hif.hostMem := by unfold programUnit; split; simp; split; simp; split <;> simp
@[simp] theorem programUnit_hif_qps : (programUnit r p c k s).hif.qps = s.hif.qps := by unfold programUnit; split; simp; split; simp; split <;> simp
@[simp] theorem programUnit_hif_waits0 : (programUnit r p c k s).hif.waits0 = s.hif.waits0 := by unfold programUnit; split; simp; split; simp; split <;> simp
@[simp] theorem programUnit_hif_waits1 : (programUnit r p c k s).hif.waits1 = s.hif.waits1 := by unfold programUnit; split; simp; split; simp; split <;> simp
@[simp] theorem programUnit_hif_notices0 : (programUnit r p c k s).hif.notices0 = s.hif.notices0 := by unfold programUnit; split; simp; split; simp; split <;> simp
@[simp] theorem programUnit_hif_notices1 : (programUnit r p c k s).hif.notices1 = s.hif.notices1 := by unfold programUnit; split; simp; split; simp; split <;> simp
@[simp] theorem programUnit_hif_lost0 : (programUnit r p c k s).hif.lost0 = s.hif.lost0 := by unfold programUnit; split; simp; split; simp; split <;> simp
@[simp] theorem programUnit_hif_lost1 : (programUnit r p c k s).hif.lost1 = s.hif.lost1 := by unfold programUnit; split; simp; split; simp; split <;> simp
end

section
variable (w : UnitWrite) (s : State)
@[simp] theorem acceptWrite_pending : (acceptWrite w s).pending = s.pending := by unfold acceptWrite; dsimp only; split <;> simp
@[simp] theorem acceptWrite_sched : (acceptWrite w s).sched = s.sched := by unfold acceptWrite; dsimp only; split <;> simp
@[simp] theorem acceptWrite_obj : (acceptWrite w s).obj = s.obj := by unfold acceptWrite; dsimp only; split <;> simp
@[simp] theorem acceptWrite_gen : (acceptWrite w s).gen = s.gen := by unfold acceptWrite; dsimp only; split <;> simp
@[simp] theorem acceptWrite_search : (acceptWrite w s).search = s.search := by unfold acceptWrite; dsimp only; split <;> simp
@[simp] theorem acceptWrite_mem : (acceptWrite w s).mem = s.mem := by unfold acceptWrite; dsimp only; split <;> simp
@[simp] theorem acceptWrite_fab : (acceptWrite w s).fab = s.fab := by unfold acceptWrite; dsimp only; split <;> simp
@[simp] theorem acceptWrite_boot : (acceptWrite w s).boot = s.boot := by unfold acceptWrite; dsimp only; split <;> simp
@[simp] theorem acceptWrite_sec : (acceptWrite w s).sec = s.sec := by unfold acceptWrite; dsimp only; split <;> simp
@[simp] theorem acceptWrite_mgmt : (acceptWrite w s).mgmt = s.mgmt := by unfold acceptWrite; dsimp only; split <;> simp
@[simp] theorem acceptWrite_hif_hostMem : (acceptWrite w s).hif.hostMem = s.hif.hostMem := by unfold acceptWrite; dsimp only; split <;> simp
@[simp] theorem acceptWrite_hif_qps : (acceptWrite w s).hif.qps = s.hif.qps := by unfold acceptWrite; dsimp only; split <;> simp
@[simp] theorem acceptWrite_hif_waits0 : (acceptWrite w s).hif.waits0 = s.hif.waits0 := by unfold acceptWrite; dsimp only; split <;> simp
@[simp] theorem acceptWrite_hif_waits1 : (acceptWrite w s).hif.waits1 = s.hif.waits1 := by unfold acceptWrite; dsimp only; split <;> simp
@[simp] theorem acceptWrite_hif_notices0 : (acceptWrite w s).hif.notices0 = s.hif.notices0 := by unfold acceptWrite; dsimp only; split <;> simp
@[simp] theorem acceptWrite_hif_notices1 : (acceptWrite w s).hif.notices1 = s.hif.notices1 := by unfold acceptWrite; dsimp only; split <;> simp
@[simp] theorem acceptWrite_hif_lost0 : (acceptWrite w s).hif.lost0 = s.hif.lost0 := by unfold acceptWrite; dsimp only; split <;> simp
@[simp] theorem acceptWrite_hif_lost1 : (acceptWrite w s).hif.lost1 = s.hif.lost1 := by unfold acceptWrite; dsimp only; split <;> simp
end

section
variable (l : List UnitWrite) (s : State)
@[simp] theorem acceptWrites_pending : (acceptWrites l s).pending = s.pending := by exact foldS_keeps (fun t => t.pending) _ _ _ fun t x => by simp
@[simp] theorem acceptWrites_sched : (acceptWrites l s).sched = s.sched := by exact foldS_keeps (fun t => t.sched) _ _ _ fun t x => by simp
@[simp] theorem acceptWrites_obj : (acceptWrites l s).obj = s.obj := by exact foldS_keeps (fun t => t.obj) _ _ _ fun t x => by simp
@[simp] theorem acceptWrites_gen : (acceptWrites l s).gen = s.gen := by exact foldS_keeps (fun t => t.gen) _ _ _ fun t x => by simp
@[simp] theorem acceptWrites_search : (acceptWrites l s).search = s.search := by exact foldS_keeps (fun t => t.search) _ _ _ fun t x => by simp
@[simp] theorem acceptWrites_mem : (acceptWrites l s).mem = s.mem := by exact foldS_keeps (fun t => t.mem) _ _ _ fun t x => by simp
@[simp] theorem acceptWrites_fab : (acceptWrites l s).fab = s.fab := by exact foldS_keeps (fun t => t.fab) _ _ _ fun t x => by simp
@[simp] theorem acceptWrites_boot : (acceptWrites l s).boot = s.boot := by exact foldS_keeps (fun t => t.boot) _ _ _ fun t x => by simp
@[simp] theorem acceptWrites_sec : (acceptWrites l s).sec = s.sec := by exact foldS_keeps (fun t => t.sec) _ _ _ fun t x => by simp
@[simp] theorem acceptWrites_mgmt : (acceptWrites l s).mgmt = s.mgmt := by exact foldS_keeps (fun t => t.mgmt) _ _ _ fun t x => by simp
@[simp] theorem acceptWrites_hif_hostMem : (acceptWrites l s).hif.hostMem = s.hif.hostMem := by exact foldS_keeps (fun t => t.hif.hostMem) _ _ _ fun t x => by simp
@[simp] theorem acceptWrites_hif_qps : (acceptWrites l s).hif.qps = s.hif.qps := by exact foldS_keeps (fun t => t.hif.qps) _ _ _ fun t x => by simp
@[simp] theorem acceptWrites_hif_waits0 : (acceptWrites l s).hif.waits0 = s.hif.waits0 := by exact foldS_keeps (fun t => t.hif.waits0) _ _ _ fun t x => by simp
@[simp] theorem acceptWrites_hif_waits1 : (acceptWrites l s).hif.waits1 = s.hif.waits1 := by exact foldS_keeps (fun t => t.hif.waits1) _ _ _ fun t x => by simp
@[simp] theorem acceptWrites_hif_notices0 : (acceptWrites l s).hif.notices0 = s.hif.notices0 := by exact foldS_keeps (fun t => t.hif.notices0) _ _ _ fun t x => by simp
@[simp] theorem acceptWrites_hif_notices1 : (acceptWrites l s).hif.notices1 = s.hif.notices1 := by exact foldS_keeps (fun t => t.hif.notices1) _ _ _ fun t x => by simp
@[simp] theorem acceptWrites_hif_lost0 : (acceptWrites l s).hif.lost0 = s.hif.lost0 := by exact foldS_keeps (fun t => t.hif.lost0) _ _ _ fun t x => by simp
@[simp] theorem acceptWrites_hif_lost1 : (acceptWrites l s).hif.lost1 = s.hif.lost1 := by exact foldS_keeps (fun t => t.hif.lost1) _ _ _ fun t x => by simp
end

section
variable (r : Bool) (c p : Nat) (s : State)
@[simp] theorem drainBuffers_pending : (drainBuffers r c p s).pending = s.pending := by unfold drainBuffers; dsimp only; rw [foldS_keeps (fun t => t.pending) _ _ _ fun t x => by simp]; simp
@[simp] theorem drainBuffers_sched : (drainBuffers r c p s).sched = s.sched := by unfold drainBuffers; dsimp only; rw [foldS_keeps (fun t => t.sched) _ _ _ fun t x => by simp]; simp
@[simp] theorem drainBuffers_obj : (drainBuffers r c p s).obj = s.obj := by unfold drainBuffers; dsimp only; rw [foldS_keeps (fun t => t.obj) _ _ _ fun t x => by simp]; simp
@[simp] theorem drainBuffers_gen : (drainBuffers r c p s).gen = s.gen := by unfold drainBuffers; dsimp only; rw [foldS_keeps (fun t => t.gen) _ _ _ fun t x => by simp]; simp
@[simp] theorem drainBuffers_search : (drainBuffers r c p s).search = s.search := by unfold drainBuffers; dsimp only; rw [foldS_keeps (fun t => t.search) _ _ _ fun t x => by simp]; simp
@[simp] theorem drainBuffers_mem : (drainBuffers r c p s).mem = s.mem := by unfold drainBuffers; dsimp only; rw [foldS_keeps (fun t => t.mem) _ _ _ fun t x => by simp]; simp
@[simp] theorem drainBuffers_fab : (drainBuffers r c p s).fab = s.fab := by unfold drainBuffers; dsimp only; rw [foldS_keeps (fun t => t.fab) _ _ _ fun t x => by simp]; simp
@[simp] theorem drainBuffers_boot : (drainBuffers r c p s).boot = s.boot := by unfold drainBuffers; dsimp only; rw [foldS_keeps (fun t => t.boot) _ _ _ fun t x => by simp]; simp
@[simp] theorem drainBuffers_sec : (drainBuffers r c p s).sec = s.sec := by unfold drainBuffers; dsimp only; rw [foldS_keeps (fun t => t.sec) _ _ _ fun t x => by simp]; simp
@[simp] theorem drainBuffers_mgmt : (drainBuffers r c p s).mgmt = s.mgmt := by unfold drainBuffers; dsimp only; rw [foldS_keeps (fun t => t.mgmt) _ _ _ fun t x => by simp]; simp
@[simp] theorem drainBuffers_hif_hostMem : (drainBuffers r c p s).hif.hostMem = s.hif.hostMem := by unfold drainBuffers; dsimp only; rw [foldS_keeps (fun t => t.hif.hostMem) _ _ _ fun t x => by simp]; simp
@[simp] theorem drainBuffers_hif_qps : (drainBuffers r c p s).hif.qps = s.hif.qps := by unfold drainBuffers; dsimp only; rw [foldS_keeps (fun t => t.hif.qps) _ _ _ fun t x => by simp]; simp
@[simp] theorem drainBuffers_hif_waits0 : (drainBuffers r c p s).hif.waits0 = s.hif.waits0 := by unfold drainBuffers; dsimp only; rw [foldS_keeps (fun t => t.hif.waits0) _ _ _ fun t x => by simp]; simp
@[simp] theorem drainBuffers_hif_waits1 : (drainBuffers r c p s).hif.waits1 = s.hif.waits1 := by unfold drainBuffers; dsimp only; rw [foldS_keeps (fun t => t.hif.waits1) _ _ _ fun t x => by simp]; simp
@[simp] theorem drainBuffers_hif_notices0 : (drainBuffers r c p s).hif.notices0 = s.hif.notices0 := by unfold drainBuffers; dsimp only; rw [foldS_keeps (fun t => t.hif.notices0) _ _ _ fun t x => by simp]; simp
@[simp] theorem drainBuffers_hif_notices1 : (drainBuffers r c p s).hif.notices1 = s.hif.notices1 := by unfold drainBuffers; dsimp only; rw [foldS_keeps (fun t => t.hif.notices1) _ _ _ fun t x => by simp]; simp
@[simp] theorem drainBuffers_hif_lost0 : (drainBuffers r c p s).hif.lost0 = s.hif.lost0 := by unfold drainBuffers; dsimp only; rw [foldS_keeps (fun t => t.hif.lost0) _ _ _ fun t x => by simp]; simp
@[simp] theorem drainBuffers_hif_lost1 : (drainBuffers r c p s).hif.lost1 = s.hif.lost1 := by unfold drainBuffers; dsimp only; rw [foldS_keeps (fun t => t.hif.lost1) _ _ _ fun t x => by simp]; simp
end

section
variable (code p r : Nat) (l : List Nat) (s : State)
@[simp] theorem pacerRecord_pending : (pacerRecord code p r l s).pending = s.pending := by simp [pacerRecord]
@[simp] theorem pacerRecord_sched : (pacerRecord code p r l s).sched = s.sched := by simp [pacerRecord]
@[simp] theorem pacerRecord_obj : (pacerRecord code p r l s).obj = s.obj := by simp [pacerRecord]
@[simp] theorem pacerRecord_gen : (pacerRecord code p r l s).gen = s.gen := by simp [pacerRecord]
@[simp] theorem pacerRecord_search : (pacerRecord code p r l s).search = s.search := by simp [pacerRecord]
@[simp] theorem pacerRecord_mem : (pacerRecord code p r l s).mem = s.mem := by simp [pacerRecord]
@[simp] theorem pacerRecord_flash : (pacerRecord code p r l s).flash = s.flash := by simp [pacerRecord]
@[simp] theorem pacerRecord_fab : (pacerRecord code p r l s).fab = s.fab := by simp [pacerRecord]
@[simp] theorem pacerRecord_boot : (pacerRecord code p r l s).boot = s.boot := by simp [pacerRecord]
@[simp] theorem pacerRecord_sec : (pacerRecord code p r l s).sec = s.sec := by simp [pacerRecord]
@[simp] theorem pacerRecord_free : (pacerRecord code p r l s).free = s.free := by simp [pacerRecord]
@[simp] theorem pacerRecord_hif_hostMem : (pacerRecord code p r l s).hif.hostMem = s.hif.hostMem := by simp [pacerRecord]
@[simp] theorem pacerRecord_hif_qps : (pacerRecord code p r l s).hif.qps = s.hif.qps := by simp [pacerRecord]
@[simp] theorem pacerRecord_hif_waits0 : (pacerRecord code p r l s).hif.waits0 = s.hif.waits0 := by simp [pacerRecord]
@[simp] theorem pacerRecord_hif_waits1 : (pacerRecord code p r l s).hif.waits1 = s.hif.waits1 := by simp [pacerRecord]
@[simp] theorem pacerRecord_hif_notices0 : (pacerRecord code p r l s).hif.notices0 = s.hif.notices0 := by simp [pacerRecord]
@[simp] theorem pacerRecord_hif_notices1 : (pacerRecord code p r l s).hif.notices1 = s.hif.notices1 := by simp [pacerRecord]
@[simp] theorem pacerRecord_hif_lost0 : (pacerRecord code p r l s).hif.lost0 = s.hif.lost0 := by simp [pacerRecord]
@[simp] theorem pacerRecord_hif_lost1 : (pacerRecord code p r l s).hif.lost1 = s.hif.lost1 := by simp [pacerRecord]
end

theorem beginRecord_recent (code p r : Nat) (s : State) (h : recentBegin s (16 * p + r) = true) :
    beginRecord code p r s = (false, modMgmt (fun m =>
      { m with lastBegin := mupd m.lastBegin (16 * p + r) fun e => (e.1, e.2 + 1) }) s) := if_pos h

theorem beginRecord_written (code p r : Nat) (s : State) (h : ¬ recentBegin s (16 * p + r) = true) :
    beginRecord code p r s = (true, modMgmt (fun m =>
      { m with lastBegin := mset m.lastBegin (16 * p + r) (now s, 0) }) (pacerRecord code p r [] s)) := if_neg h

/-- What a change of the management state and a pacer's record keep, a begin record keeps. -/
theorem beginRecord_keeps {α : Type} (f : State → α) (code p r : Nat) (s : State) (hm : ∀ g t, f (modMgmt g t) = f t)
    (hp : f (pacerRecord code p r [] s) = f s) : f (beginRecord code p r s).2 = f s := by
  by_cases h : recentBegin s (16 * p + r) = true
  · rw [beginRecord_recent code p r s h]; simp only [hm]
  · rw [beginRecord_written code p r s h]; simp only [hm, hp]

section
variable (code p r : Nat) (s : State)
@[simp] theorem beginRecord_pending : (beginRecord code p r s).2.pending = s.pending := beginRecord_keeps (fun t => t.pending) code p r s (fun _ _ => rfl) (pacerRecord_pending ..)
@[simp] theorem beginRecord_sched : (beginRecord code p r s).2.sched = s.sched := beginRecord_keeps (fun t => t.sched) code p r s (fun _ _ => rfl) (pacerRecord_sched ..)
@[simp] theorem beginRecord_obj : (beginRecord code p r s).2.obj = s.obj := beginRecord_keeps (fun t => t.obj) code p r s (fun _ _ => rfl) (pacerRecord_obj ..)
@[simp] theorem beginRecord_gen : (beginRecord code p r s).2.gen = s.gen := beginRecord_keeps (fun t => t.gen) code p r s (fun _ _ => rfl) (pacerRecord_gen ..)
@[simp] theorem beginRecord_search : (beginRecord code p r s).2.search = s.search := beginRecord_keeps (fun t => t.search) code p r s (fun _ _ => rfl) (pacerRecord_search ..)
@[simp] theorem beginRecord_mem : (beginRecord code p r s).2.mem = s.mem := beginRecord_keeps (fun t => t.mem) code p r s (fun _ _ => rfl) (pacerRecord_mem ..)
@[simp] theorem beginRecord_flash : (beginRecord code p r s).2.flash = s.flash := beginRecord_keeps (fun t => t.flash) code p r s (fun _ _ => rfl) (pacerRecord_flash ..)
@[simp] theorem beginRecord_fab : (beginRecord code p r s).2.fab = s.fab := beginRecord_keeps (fun t => t.fab) code p r s (fun _ _ => rfl) (pacerRecord_fab ..)
@[simp] theorem beginRecord_boot : (beginRecord code p r s).2.boot = s.boot := beginRecord_keeps (fun t => t.boot) code p r s (fun _ _ => rfl) (pacerRecord_boot ..)
@[simp] theorem beginRecord_sec : (beginRecord code p r s).2.sec = s.sec := beginRecord_keeps (fun t => t.sec) code p r s (fun _ _ => rfl) (pacerRecord_sec ..)
@[simp] theorem beginRecord_free : (beginRecord code p r s).2.free = s.free := beginRecord_keeps (fun t => t.free) code p r s (fun _ _ => rfl) (pacerRecord_free ..)
@[simp] theorem beginRecord_hif_hostMem : (beginRecord code p r s).2.hif.hostMem = s.hif.hostMem := beginRecord_keeps (fun t => t.hif.hostMem) code p r s (fun _ _ => rfl) (pacerRecord_hif_hostMem ..)
@[simp] theorem beginRecord_hif_qps : (beginRecord code p r s).2.hif.qps = s.hif.qps := beginRecord_keeps (fun t => t.hif.qps) code p r s (fun _ _ => rfl) (pacerRecord_hif_qps ..)
@[simp] theorem beginRecord_hif_waits0 : (beginRecord code p r s).2.hif.waits0 = s.hif.waits0 := beginRecord_keeps (fun t => t.hif.waits0) code p r s (fun _ _ => rfl) (pacerRecord_hif_waits0 ..)
@[simp] theorem beginRecord_hif_waits1 : (beginRecord code p r s).2.hif.waits1 = s.hif.waits1 := beginRecord_keeps (fun t => t.hif.waits1) code p r s (fun _ _ => rfl) (pacerRecord_hif_waits1 ..)
@[simp] theorem beginRecord_hif_notices0 : (beginRecord code p r s).2.hif.notices0 = s.hif.notices0 := beginRecord_keeps (fun t => t.hif.notices0) code p r s (fun _ _ => rfl) (pacerRecord_hif_notices0 ..)
@[simp] theorem beginRecord_hif_notices1 : (beginRecord code p r s).2.hif.notices1 = s.hif.notices1 := beginRecord_keeps (fun t => t.hif.notices1) code p r s (fun _ _ => rfl) (pacerRecord_hif_notices1 ..)
@[simp] theorem beginRecord_hif_lost0 : (beginRecord code p r s).2.hif.lost0 = s.hif.lost0 := beginRecord_keeps (fun t => t.hif.lost0) code p r s (fun _ _ => rfl) (pacerRecord_hif_lost0 ..)
@[simp] theorem beginRecord_hif_lost1 : (beginRecord code p r s).2.hif.lost1 = s.hif.lost1 := beginRecord_keeps (fun t => t.hif.lost1) code p r s (fun _ _ => rfl) (pacerRecord_hif_lost1 ..)
end

section
variable (p r : Nat) (k : Nat × Nat × Nat) (s : State)
@[simp] theorem beginClamp_pending : (beginClamp p r k s).pending = s.pending := by simp [beginClamp]
@[simp] theorem beginClamp_sched : (beginClamp p r k s).sched = s.sched := by simp [beginClamp]
@[simp] theorem beginClamp_obj : (beginClamp p r k s).obj = s.obj := by simp [beginClamp]
@[simp] theorem beginClamp_gen : (beginClamp p r k s).gen = s.gen := by simp [beginClamp]
@[simp] theorem beginClamp_search : (beginClamp p r k s).search = s.search := by simp [beginClamp]
@[simp] theorem beginClamp_mem : (beginClamp p r k s).mem = s.mem := by simp [beginClamp]
@[simp] theorem beginClamp_flash : (beginClamp p r k s).flash = s.flash := by simp [beginClamp]
@[simp] theorem beginClamp_fab : (beginClamp p r k s).fab = s.fab := by simp [beginClamp]
@[simp] theorem beginClamp_boot : (beginClamp p r k s).boot = s.boot := by simp [beginClamp]
@[simp] theorem beginClamp_sec : (beginClamp p r k s).sec = s.sec := by simp [beginClamp]
@[simp] theorem beginClamp_free : (beginClamp p r k s).free = s.free := by simp [beginClamp]
@[simp] theorem beginClamp_hif_hostMem : (beginClamp p r k s).hif.hostMem = s.hif.hostMem := by simp [beginClamp]
@[simp] theorem beginClamp_hif_qps : (beginClamp p r k s).hif.qps = s.hif.qps := by simp [beginClamp]
@[simp] theorem beginClamp_hif_waits0 : (beginClamp p r k s).hif.waits0 = s.hif.waits0 := by simp [beginClamp]
@[simp] theorem beginClamp_hif_waits1 : (beginClamp p r k s).hif.waits1 = s.hif.waits1 := by simp [beginClamp]
@[simp] theorem beginClamp_hif_notices0 : (beginClamp p r k s).hif.notices0 = s.hif.notices0 := by simp [beginClamp]
@[simp] theorem beginClamp_hif_notices1 : (beginClamp p r k s).hif.notices1 = s.hif.notices1 := by simp [beginClamp]
@[simp] theorem beginClamp_hif_lost0 : (beginClamp p r k s).hif.lost0 = s.hif.lost0 := by simp [beginClamp]
@[simp] theorem beginClamp_hif_lost1 : (beginClamp p r k s).hif.lost1 = s.hif.lost1 := by simp [beginClamp]
end

section
variable (c : Clamp) (s : State)
@[simp] theorem endClamp_pending : (endClamp c s).pending = s.pending := by unfold endClamp; dsimp only; split <;> simp
@[simp] theorem endClamp_sched : (endClamp c s).sched = s.sched := by unfold endClamp; dsimp only; split <;> simp
@[simp] theorem endClamp_obj : (endClamp c s).obj = s.obj := by unfold endClamp; dsimp only; split <;> simp
@[simp] theorem endClamp_gen : (endClamp c s).gen = s.gen := by unfold endClamp; dsimp only; split <;> simp
@[simp] theorem endClamp_search : (endClamp c s).search = s.search := by unfold endClamp; dsimp only; split <;> simp
@[simp] theorem endClamp_mem : (endClamp c s).mem = s.mem := by unfold endClamp; dsimp only; split <;> simp
@[simp] theorem endClamp_flash : (endClamp c s).flash = s.flash := by unfold endClamp; dsimp only; split <;> simp
@[simp] theorem endClamp_fab : (endClamp c s).fab = s.fab := by unfold endClamp; dsimp only; split <;> simp
@[simp] theorem endClamp_boot : (endClamp c s).boot = s.boot := by unfold endClamp; dsimp only; split <;> simp
@[simp] theorem endClamp_sec : (endClamp c s).sec = s.sec := by unfold endClamp; dsimp only; split <;> simp
@[simp] theorem endClamp_free : (endClamp c s).free = s.free := by unfold endClamp; dsimp only; split <;> simp
@[simp] theorem endClamp_hif_hostMem : (endClamp c s).hif.hostMem = s.hif.hostMem := by unfold endClamp; dsimp only; split <;> simp
@[simp] theorem endClamp_hif_qps : (endClamp c s).hif.qps = s.hif.qps := by unfold endClamp; dsimp only; split <;> simp
@[simp] theorem endClamp_hif_waits0 : (endClamp c s).hif.waits0 = s.hif.waits0 := by unfold endClamp; dsimp only; split <;> simp
@[simp] theorem endClamp_hif_waits1 : (endClamp c s).hif.waits1 = s.hif.waits1 := by unfold endClamp; dsimp only; split <;> simp
@[simp] theorem endClamp_hif_notices0 : (endClamp c s).hif.notices0 = s.hif.notices0 := by unfold endClamp; dsimp only; split <;> simp
@[simp] theorem endClamp_hif_notices1 : (endClamp c s).hif.notices1 = s.hif.notices1 := by unfold endClamp; dsimp only; split <;> simp
@[simp] theorem endClamp_hif_lost0 : (endClamp c s).hif.lost0 = s.hif.lost0 := by unfold endClamp; dsimp only; split <;> simp
@[simp] theorem endClamp_hif_lost1 : (endClamp c s).hif.lost1 = s.hif.lost1 := by unfold endClamp; dsimp only; split <;> simp
end

section
variable (k : Nat × Nat × Nat) (c : Clamp) (s : State)
@[simp] theorem leaveClamp_pending : (leaveClamp k c s).pending = s.pending := by unfold leaveClamp; dsimp only; split <;> simp
@[simp] theorem leaveClamp_sched : (leaveClamp k c s).sched = s.sched := by unfold leaveClamp; dsimp only; split <;> simp
@[simp] theorem leaveClamp_obj : (leaveClamp k c s).obj = s.obj := by unfold leaveClamp; dsimp only; split <;> simp
@[simp] theorem leaveClamp_gen : (leaveClamp k c s).gen = s.gen := by unfold leaveClamp; dsimp only; split <;> simp
@[simp] theorem leaveClamp_search : (leaveClamp k c s).search = s.search := by unfold leaveClamp; dsimp only; split <;> simp
@[simp] theorem leaveClamp_mem : (leaveClamp k c s).mem = s.mem := by unfold leaveClamp; dsimp only; split <;> simp
@[simp] theorem leaveClamp_flash : (leaveClamp k c s).flash = s.flash := by unfold leaveClamp; dsimp only; split <;> simp
@[simp] theorem leaveClamp_fab : (leaveClamp k c s).fab = s.fab := by unfold leaveClamp; dsimp only; split <;> simp
@[simp] theorem leaveClamp_boot : (leaveClamp k c s).boot = s.boot := by unfold leaveClamp; dsimp only; split <;> simp
@[simp] theorem leaveClamp_sec : (leaveClamp k c s).sec = s.sec := by unfold leaveClamp; dsimp only; split <;> simp
@[simp] theorem leaveClamp_free : (leaveClamp k c s).free = s.free := by unfold leaveClamp; dsimp only; split <;> simp
@[simp] theorem leaveClamp_hif_hostMem : (leaveClamp k c s).hif.hostMem = s.hif.hostMem := by unfold leaveClamp; dsimp only; split <;> simp
@[simp] theorem leaveClamp_hif_qps : (leaveClamp k c s).hif.qps = s.hif.qps := by unfold leaveClamp; dsimp only; split <;> simp
@[simp] theorem leaveClamp_hif_waits0 : (leaveClamp k c s).hif.waits0 = s.hif.waits0 := by unfold leaveClamp; dsimp only; split <;> simp
@[simp] theorem leaveClamp_hif_waits1 : (leaveClamp k c s).hif.waits1 = s.hif.waits1 := by unfold leaveClamp; dsimp only; split <;> simp
@[simp] theorem leaveClamp_hif_notices0 : (leaveClamp k c s).hif.notices0 = s.hif.notices0 := by unfold leaveClamp; dsimp only; split <;> simp
@[simp] theorem leaveClamp_hif_notices1 : (leaveClamp k c s).hif.notices1 = s.hif.notices1 := by unfold leaveClamp; dsimp only; split <;> simp
@[simp] theorem leaveClamp_hif_lost0 : (leaveClamp k c s).hif.lost0 = s.hif.lost0 := by unfold leaveClamp; dsimp only; split <;> simp
@[simp] theorem leaveClamp_hif_lost1 : (leaveClamp k c s).hif.lost1 = s.hif.lost1 := by unfold leaveClamp; dsimp only; split <;> simp
end

section
variable (p r : Nat) (k : Nat × Nat × Nat) (s : State)
@[simp] theorem joinClamp_pending : (joinClamp p r k s).pending = s.pending := by unfold joinClamp; split; split <;> simp; simp
@[simp] theorem joinClamp_sched : (joinClamp p r k s).sched = s.sched := by unfold joinClamp; split; split <;> simp; simp
@[simp] theorem joinClamp_obj : (joinClamp p r k s).obj = s.obj := by unfold joinClamp; split; split <;> simp; simp
@[simp] theorem joinClamp_gen : (joinClamp p r k s).gen = s.gen := by unfold joinClamp; split; split <;> simp; simp
@[simp] theorem joinClamp_search : (joinClamp p r k s).search = s.search := by unfold joinClamp; split; split <;> simp; simp
@[simp] theorem joinClamp_mem : (joinClamp p r k s).mem = s.mem := by unfold joinClamp; split; split <;> simp; simp
@[simp] theorem joinClamp_flash : (joinClamp p r k s).flash = s.flash := by unfold joinClamp; split; split <;> simp; simp
@[simp] theorem joinClamp_fab : (joinClamp p r k s).fab = s.fab := by unfold joinClamp; split; split <;> simp; simp
@[simp] theorem joinClamp_boot : (joinClamp p r k s).boot = s.boot := by unfold joinClamp; split; split <;> simp; simp
@[simp] theorem joinClamp_sec : (joinClamp p r k s).sec = s.sec := by unfold joinClamp; split; split <;> simp; simp
@[simp] theorem joinClamp_free : (joinClamp p r k s).free = s.free := by unfold joinClamp; split; split <;> simp; simp
@[simp] theorem joinClamp_hif_hostMem : (joinClamp p r k s).hif.hostMem = s.hif.hostMem := by unfold joinClamp; split; split <;> simp; simp
@[simp] theorem joinClamp_hif_qps : (joinClamp p r k s).hif.qps = s.hif.qps := by unfold joinClamp; split; split <;> simp; simp
@[simp] theorem joinClamp_hif_waits0 : (joinClamp p r k s).hif.waits0 = s.hif.waits0 := by unfold joinClamp; split; split <;> simp; simp
@[simp] theorem joinClamp_hif_waits1 : (joinClamp p r k s).hif.waits1 = s.hif.waits1 := by unfold joinClamp; split; split <;> simp; simp
@[simp] theorem joinClamp_hif_notices0 : (joinClamp p r k s).hif.notices0 = s.hif.notices0 := by unfold joinClamp; split; split <;> simp; simp
@[simp] theorem joinClamp_hif_notices1 : (joinClamp p r k s).hif.notices1 = s.hif.notices1 := by unfold joinClamp; split; split <;> simp; simp
@[simp] theorem joinClamp_hif_lost0 : (joinClamp p r k s).hif.lost0 = s.hif.lost0 := by unfold joinClamp; split; split <;> simp; simp
@[simp] theorem joinClamp_hif_lost1 : (joinClamp p r k s).hif.lost1 = s.hif.lost1 := by unfold joinClamp; split; split <;> simp; simp
end

section
variable (p : Nat) (k : Nat × Nat × Nat) (l : List Nat) (s : State)
@[simp] theorem holdOutput_pending : (holdOutput p k l s).pending = s.pending := by unfold holdOutput; dsimp only; rw [foldS_keeps (fun t => t.pending) _ _ _ fun t x => by simp, foldS_keeps (fun t => t.pending) _ _ _ fun t x => by simp]
@[simp] theorem holdOutput_sched : (holdOutput p k l s).sched = s.sched := by unfold holdOutput; dsimp only; rw [foldS_keeps (fun t => t.sched) _ _ _ fun t x => by simp, foldS_keeps (fun t => t.sched) _ _ _ fun t x => by simp]
@[simp] theorem holdOutput_obj : (holdOutput p k l s).obj = s.obj := by unfold holdOutput; dsimp only; rw [foldS_keeps (fun t => t.obj) _ _ _ fun t x => by simp, foldS_keeps (fun t => t.obj) _ _ _ fun t x => by simp]
@[simp] theorem holdOutput_gen : (holdOutput p k l s).gen = s.gen := by unfold holdOutput; dsimp only; rw [foldS_keeps (fun t => t.gen) _ _ _ fun t x => by simp, foldS_keeps (fun t => t.gen) _ _ _ fun t x => by simp]
@[simp] theorem holdOutput_search : (holdOutput p k l s).search = s.search := by unfold holdOutput; dsimp only; rw [foldS_keeps (fun t => t.search) _ _ _ fun t x => by simp, foldS_keeps (fun t => t.search) _ _ _ fun t x => by simp]
@[simp] theorem holdOutput_mem : (holdOutput p k l s).mem = s.mem := by unfold holdOutput; dsimp only; rw [foldS_keeps (fun t => t.mem) _ _ _ fun t x => by simp, foldS_keeps (fun t => t.mem) _ _ _ fun t x => by simp]
@[simp] theorem holdOutput_flash : (holdOutput p k l s).flash = s.flash := by unfold holdOutput; dsimp only; rw [foldS_keeps (fun t => t.flash) _ _ _ fun t x => by simp, foldS_keeps (fun t => t.flash) _ _ _ fun t x => by simp]
@[simp] theorem holdOutput_fab : (holdOutput p k l s).fab = s.fab := by unfold holdOutput; dsimp only; rw [foldS_keeps (fun t => t.fab) _ _ _ fun t x => by simp, foldS_keeps (fun t => t.fab) _ _ _ fun t x => by simp]
@[simp] theorem holdOutput_boot : (holdOutput p k l s).boot = s.boot := by unfold holdOutput; dsimp only; rw [foldS_keeps (fun t => t.boot) _ _ _ fun t x => by simp, foldS_keeps (fun t => t.boot) _ _ _ fun t x => by simp]
@[simp] theorem holdOutput_sec : (holdOutput p k l s).sec = s.sec := by unfold holdOutput; dsimp only; rw [foldS_keeps (fun t => t.sec) _ _ _ fun t x => by simp, foldS_keeps (fun t => t.sec) _ _ _ fun t x => by simp]
@[simp] theorem holdOutput_free : (holdOutput p k l s).free = s.free := by unfold holdOutput; dsimp only; rw [foldS_keeps (fun t => t.free) _ _ _ fun t x => by simp, foldS_keeps (fun t => t.free) _ _ _ fun t x => by simp]
@[simp] theorem holdOutput_hif_hostMem : (holdOutput p k l s).hif.hostMem = s.hif.hostMem := by unfold holdOutput; dsimp only; rw [foldS_keeps (fun t => t.hif.hostMem) _ _ _ fun t x => by simp, foldS_keeps (fun t => t.hif.hostMem) _ _ _ fun t x => by simp]
@[simp] theorem holdOutput_hif_qps : (holdOutput p k l s).hif.qps = s.hif.qps := by unfold holdOutput; dsimp only; rw [foldS_keeps (fun t => t.hif.qps) _ _ _ fun t x => by simp, foldS_keeps (fun t => t.hif.qps) _ _ _ fun t x => by simp]
@[simp] theorem holdOutput_hif_waits0 : (holdOutput p k l s).hif.waits0 = s.hif.waits0 := by unfold holdOutput; dsimp only; rw [foldS_keeps (fun t => t.hif.waits0) _ _ _ fun t x => by simp, foldS_keeps (fun t => t.hif.waits0) _ _ _ fun t x => by simp]
@[simp] theorem holdOutput_hif_waits1 : (holdOutput p k l s).hif.waits1 = s.hif.waits1 := by unfold holdOutput; dsimp only; rw [foldS_keeps (fun t => t.hif.waits1) _ _ _ fun t x => by simp, foldS_keeps (fun t => t.hif.waits1) _ _ _ fun t x => by simp]
@[simp] theorem holdOutput_hif_notices0 : (holdOutput p k l s).hif.notices0 = s.hif.notices0 := by unfold holdOutput; dsimp only; rw [foldS_keeps (fun t => t.hif.notices0) _ _ _ fun t x => by simp, foldS_keeps (fun t => t.hif.notices0) _ _ _ fun t x => by simp]
@[simp] theorem holdOutput_hif_notices1 : (holdOutput p k l s).hif.notices1 = s.hif.notices1 := by unfold holdOutput; dsimp only; rw [foldS_keeps (fun t => t.hif.notices1) _ _ _ fun t x => by simp, foldS_keeps (fun t => t.hif.notices1) _ _ _ fun t x => by simp]
@[simp] theorem holdOutput_hif_lost0 : (holdOutput p k l s).hif.lost0 = s.hif.lost0 := by unfold holdOutput; dsimp only; rw [foldS_keeps (fun t => t.hif.lost0) _ _ _ fun t x => by simp, foldS_keeps (fun t => t.hif.lost0) _ _ _ fun t x => by simp]
@[simp] theorem holdOutput_hif_lost1 : (holdOutput p k l s).hif.lost1 = s.hif.lost1 := by unfold holdOutput; dsimp only; rw [foldS_keeps (fun t => t.hif.lost1) _ _ _ fun t x => by simp, foldS_keeps (fun t => t.hif.lost1) _ _ _ fun t x => by simp]
end

end Sys2Proof.Machine
end

