-- ==== Sys2Proof/Tests/Slice0.lean ====
section
/-! SUPPORT. Tests: ill-formed commands are refused, worked examples of the spec, and for every statement states and operands
that meet the hypotheses of each of its clauses. -/

namespace Sys2Proof.Tests

open Sys2Proof Sys2Proof.Machine

set_option Elab.async false

/-! ### Small states -/

/-- The state after reset. -/
def z : State := State.reset

/-- A ring command of one slot, with tag 7, and the bytes it points to. -/
def cmd (op aux len0 param : Nat) (data : Bytes := []) (q : Nat := 0x4000) : HostCmd :=
  { qp := q, data := data
    slots := leBytes 1 op ++ zeros 3 ++ leBytes 4 aux ++ leBytes 8 7 ++ zeros 8 ++ leBytes 4 len0 ++ zeros 28 ++ leBytes 8 param }

/-- The command as its queue pair holds it. -/
def slot (h : HostCmd) : Fetched := { slots := h.slots, sqHead := 1 }

/-- A state in FULL whose queue pair has fetched the command. -/
def ring (h : HostCmd) (s : State) : State :=
  modQp h.qp (fun x => { x with fetched := [slot h] }) (modBoot (fun b => { b with level := 2 }) s)

/-- The state once the command is taken. -/
def after_ (h : HostCmd) (s : State) : State :=
  modQp h.qp (fun x => { x with fetched := eraseFetched h.slots x.fetched }) (ring h s)

theorem take_ok (h : HostCmd) (s : State)
    (k : waitsForOps h (ring h s) = false ∧ ((slot h).bears && (freeEntry (ring h s)).isNone) = false) :
    takeCmd h (ring h s) = some (slot h, after_ h s) := by
  have e : (qpOf (ring h s) h.qp).fetched = [slot h] := by simp [ring, modQp, modHif, qpOf]
  unfold takeCmd
  rw [k.1, e]
  have b := k.2
  simp only [slot] at b ⊢
  simp [b, after_]

theorem taken_ok (op : Nat) (h : HostCmd) (s : State)
    (k : (cmdOp h = op ∧ slotFault op h = none ∧ queueAllowed op h.qp = true ∧ levelAllows 2 op = true) ∧
      waitsForOps h (ring h s) = false ∧ ((slot h).bears && (freeEntry (ring h s)).isNone) = false) :
    Taken op h (ring h s) (slot h) (after_ h s) :=
  ⟨k.1.1, take_ok h s k.2, k.1.2⟩

/-- The same for a command fetched after the command that ends its session. -/
def ringLate (h : HostCmd) (s : State) : State :=
  modQp h.qp (fun x => { x with fetched := [{ slot h with late := true }] }) (modBoot (fun b => { b with level := 2 }) s)
theorem taken_late (op : Nat) (h : HostCmd) (s : State)
    (k : (cmdOp h = op ∧ slotFault op h = none ∧ queueAllowed op h.qp = true ∧ levelAllows 2 op = true) ∧
      waitsForOps h (ringLate h s) = false ∧ (({ slot h with late := true } : Fetched).bears && (freeEntry (ringLate h s)).isNone) = false) :
    Taken op h (ringLate h s) { slot h with late := true }
      (modQp h.qp (fun x => { x with fetched := eraseFetched h.slots x.fetched }) (ringLate h s)) := by
  refine ⟨k.1.1, ?_, k.1.2⟩
  have e : (qpOf (ringLate h s) h.qp).fetched = [{ slot h with late := true }] := by simp [ringLate, modQp, modHif, qpOf]
  have b := k.2.2
  unfold takeCmd
  rw [k.2.1, e]
  simp only [slot] at b ⊢
  simp [b]

/-- A queue pair of virtual function 2 and account 1. -/
def qp5 : Qp := { bound := some (2, 1), enable := true, sizes := 0x5084, cqUsed := 3, produced := 64, events := 1, irq := 0x100800 }
def sQp : State := modHif (fun x => { x with qps := [(5, qp5)] }) z
def sQpOff : State := modHif (fun x => { x with qps := [(5, { qp5 with enable := false })] }) z
def sQpBad : State := modHif (fun x => { x with qps := [(5, { qp5 with enable := false, sizes := 0 })] }) z

/-- An account record, and the module with that account. -/
def acct1 : AcctRec := { maxPrio := 0, dieMask := 15, weight := 1, entriesMax := 1, sliceUs := 0 }
def acctBytes : Bytes := leBytes 2 1 ++ [0, 15, 1, 0, 1, 0] ++ zeros 24
def sAcct : State := modSched (fun d => { d with accounts := [(1, { record := acct1 })] }) sQp

/-- Collections: of one item, in the service function's hands. -/
def item1 : Item := { insertEpoch := 0, code := [], vec := zeros 16, blob := [], centroid := 0 }
def desc1 : CollDesc :=
  { shared := true, privileged := false, metric := 0, vecFmt := 0, sketchBits := 256, inlineBits := 64, dim := 1, pqM := 1, degree := 0
    owner := 0, idBase := 0, idSpan := 4, textMax := 8, ingestQueue := 0 }
def coll1 : Collection :=
  { desc := desc1, rotation := [], codebooks := [], centroids := [], items := [(0, item1)], nextId := 1, verified := true }
def ses1 : Session := { epoch := 1, fn := 0, account := none, qp := 0x4000 }
def coll2 : Collection := { coll1 with session := some ses1, highest := 1 }
def sColl : State := modObj (fun o => { o with collections := [(3, coll1)] }) z
def sSes : State := modObj (fun o => { o with collections := [(3, coll2)] }) z

/-- A profile record of mode 2 (search), version 1, over shared collection 3. -/
def profRec : Bytes :=
  [5, 2, 1, 0] ++ leBytes 4 1 ++ zeros 12 ++ leBytes 4 3 ++ zeros 8 ++ [1, 1] ++ (List.replicate 5 [1, 0]).flatten ++
    zeros 4 ++ [1, 0] ++ zeros 78
def prof5 : Profile := profileOf profRec
def tok1 : Tokenizer := { id := 9, pretok := 0, digitGroups := false, vocab := [], vocabSize := 0, merges := [], eos := [] }
def tmpl1 : Bytes :=
  leBytes 4 0x544D504C ++ leBytes 4 1 ++ leBytes 2 2 ++ zeros 2 ++ leBytes 4 0 ++ zeros 48 ++ [1, 0, 0, 0, 0, 0, 0, 0] ++
    [2, 0, 0, 0, 0, 0, 0, 0]
def template1 : Template :=
  { id := 1, bestLast := false, fixedTokens := 0, pre := [], post := [], parts := [.query, .passages], digest := Config.sha512 tmpl1 }
def sProf (x : ProfileSlot) : State := modObj (fun o => { o with profiles := [(5, x)] }) sColl
def filt1 : Bytes := leBytes 4 0x544C4946 ++ leBytes 2 4095 ++ leBytes 2 0x8000 ++ leBytes 4 3 ++ zeros 52
def filter1 : Filter :=
  { uid := 0, id := 4095, owner := 0, shared := true, coll := 3, idBase := 0, chunks := [], cardinality := 0, size := 64 }
def tab9 : Bytes :=
  leBytes 4 9 ++ [0xC, 1, 0, 0] ++ zeros 4 ++ leBytes 4 16 ++ leBytes 8 4 ++ zeros 8 ++ zeros 8 ++ leBytes 8 64 ++ zeros 8 ++
    zeros 8 ++ zeros 64
def table9 : Table := (parseTable tab9).getD
  { id := 0, fmt := 0, shared := false, addable := false, sparse := false, frac := 0, fallback := 0, owner := 0, maxReplicas := 0
    rowElems := 0, nRows := 0, capacity := 0, shadow := 0, defaultRow := [], versions := [] }
def sTab (x : Table) : State := modObj (fun o => { o with tables := [(0, x)] }) z
def verCmd (op : Nat) : HostCmd := cmd 0x2C 9 0 op
def tableV (h : HostCmd) (c : VerCond) : Table := { table9 with versions := [(verOp h 0, { cond := c })] }
theorem heldRows_zero (x : Table) (h : ∀ v ∈ x.versions, v.2.rows = []) : x.heldRows = 0 := by
  simp [Table.heldRows, List.flatMap_eq_nil_iff.2 h]
theorem verTable_ok (op : Nat) (x : Table) (h : x.id = 9) (hd : x.deleted = false) :
    verTable (verCmd op) (after_ (verCmd op) (sTab x)) = some (0, x) := by
  have a : cmdAux (verCmd op) = 9 := by
    simp only [cmdAux, verCmd, cmd, cmdFld, rd]; rfl
  simp [verTable, a, tableSlot, after_, ring, sTab, modQp, modHif, modBoot, modObj, h, hd, mget]
theorem newVersion_stored (v : Version) (s : State) (hv : v.rows = []) (x : Table) (hx : ∀ v ∈ x.versions, v.2.rows = []) (hs : s.obj.tables = [(0, x)]) (n m : Nat) :
    storedBytes (modTable 0 (fun y => { y with highest := n, versions := mset y.versions m v }) s) = x.reservedRows * slotBytesOf x.fmt x.rowElems := by
  have e : ({ x with highest := n, versions := mset x.versions m v } : Table).heldRows = 0 := heldRows_zero _ fun w h => by
    rcases mem_mset h with rfl | h
    · exact hv
    · exact hx w h
  have k : ({ x with highest := n, versions := mset x.versions m v } : Table).reservedRows = x.reservedRows := by simp [Table.reservedRows]
  have u : (modTable 0 (fun y => { y with highest := n, versions := mset y.versions m v }) s).obj.tables =
      [(0, { x with highest := n, versions := mset x.versions m v })] := by
    simp only [modTable, modObj, hs]
    rfl
  simp [storedBytes, u, e, k]
theorem tableV_get (h : HostCmd) (c : VerCond) : mget (tableV h c).versions (verOp h 0) = some { cond := c } := by
  simp [tableV, mget]
/-- The same table with as many rows as the pin's operands name. -/
def tableP : Table := { tableV (verCmd 3) .live with nRows := verOp (verCmd 3) 1 + verOp (verCmd 3) 2 }
theorem tableP_get : mget tableP.versions (verOp (verCmd 3) 0) = some { cond := .live } := by simp [tableP, tableV, mget]
theorem usable_ok (s : State) (n : Nat) (h : s.flash = z.flash) (hn : n ≤ 10 ^ 9) : n ≤ usableBytes s 1 := by
  have e : liveChannels s = 64 := by unfold liveChannels channelOf; rw [h]; decide +kernel
  have k : sprintPerDie s = 0 := by unfold sprintPerDie; rw [h]; decide +kernel
  unfold usableBytes initialSpares channelBlocks diesPerChannel blockBytes
  rw [e, k]
  split <;> exact Nat.le_trans hn (by decide +kernel)

/-- Table 9 with one version, current, and the module that holds it. -/
def ver1 (hot : Map HotRow) : Version := { cond := .current, hot := hot }
def tabH (hot : Map HotRow) : Table := { table9 with versions := [(1, ver1 hot)] }
def tabA (x : Version) : Table := { table9 with addable := true, shared := false, versions := [(1, x)] }
def up1 : HotRow := { state := .copyingUp, replicas := [8], holding := true }
def rep1 : HotRow := { state := .replicated, replicas := [8] }
def down1 : HotRow := { state := .copyingDown, replicas := [8] }
def img1 : Image :=
  { owner := 1, shared := true, kind := 0, imageId := 7, version := 1, minMicrocode := 0, sram := 0, span := 1, tensors := [], ops := []
    relay := [], tables := [], payload := [], digest := [], kvPages := 4, pageBytes := 64, freePages := [0, 1, 2, 3], maxPrompt := 16
    maxBatch := 4, maxStepTokens := 64 }
def sImg : State := modObj (fun o => { o with images := [(5, img1)] }) sQp
def imgHead : Bytes := zeros 8 ++ leBytes 4 7 ++ leBytes 4 1
/-- A REQUEST of mode 2 for profile 5, and the module ready for it. -/
def reqCmd : HostCmd :=
  { qp := 5
    slots := [1, 2, 0, 0] ++ leBytes 4 0 ++ leBytes 8 7 ++ zeros 8 ++ leBytes 4 desc1.vecLen ++ zeros 12 ++ leBytes 4 80 ++ zeros 20 ++
      [5] ++ zeros 127 }
def sReq : State :=
  modSched (fun d => { d with accounts := [(1, { record := acct1 })] })
    (modObj (fun o => { o with profiles := [(5, { cur := some prof5 })], collections := [(3, coll1)] }) sQp)
/-- A live request of queue pair 5 with tag 9. -/
def ent1 : RtEntry := { qp := 5, tag := 9, fn := 2, account := 1, work := { profile := some prof5 } }
def sEnt (x : RtEntry) : State := modGen (fun g => { g with entries := [(0, x)] }) sQp
def bat1 : Baton := { issue := 1, live := true, account := 1, fn := 2, image := 5, pages := [], tokens := [] }
def sBat : State := modGen (fun g => { g with batons := [(0, bat1)] }) sQp
/-- An entry that waits to generate, and the module with its image. -/
def genE (st : RtState) : RtEntry :=
  { state := st, qp := 5, tag := 9, fn := 2, account := 1, genImage := 5, promptLen := 4, maxNew := 4
    work := { stage := 12, promptBudget := 16 } }
def sGen (x : RtEntry) : State := modGen (fun g => { g with entries := [(0, x)] }) sImg
def stp1 (x : List StepMember) : StepRec := { image := 5, dieMask := 15, proofing := false, unit := 0, members := x, formed := 0 }
def sStp (x : RtEntry) (m : List StepMember) : State := modGen (fun g => { g with steps := [(0, stp1 m)] }) (sGen x)

/-- Collection 3 with two nodes in one page, and searches over it. -/
def descN : CollDesc := { desc1 with idSpan := 1024 }
def collN (l : List (Nat × Nat)) : Collection := { coll1 with desc := descN, items := [(0, item1), (1, item1)], nextId := 2, nodes := [(0, { sketch := 0, nbrs := l })] }
def sw1 : SearchWork := { par := { coll := 3 }, entryNodes := [0], tag := some 4 }
def walk1 : Walk :=
  { entry := 0, shard := false, tag := 4, num := 0, coll := 3, widened := false, qlen := 4, hopBudget := 10, stallHops := 10
    entryId := 0, next := 0, engine := 0, place := some true }
def sWalk (w : SearchWork) (k : Walk) (l : List (Nat × Nat)) : State :=
  modSearch (fun x => { x with walks := [(64, k)], tags := [(4, (false, 0))] })
    (modGen (fun g => { g with entries := [(0, { ent1 with work := { stage := 7, search := w } })] })
      (modObj (fun o => { o with collections := [(3, collN l)] }) z))
/-- A unit of one share in slot 0 of cluster 0. -/
def unit1 (k : UnitKind) : SUnit :=
  { kind := k, members := [(0, 0, 0)], prio := 0, image := 5, span := 1, sram := 1000000, dieMask := 15, readyTime := 0, slots := [(0, 0)] }
def ctx1 : Ctx := { unit := 3, account := 1, image := 5 }
def sUnit (x : SUnit) (c : Ctx) (i : Image) (e : RtEntry) : State :=
  modSched (fun d => { d with units := [(3, x)] }) (modCluster 0 (fun k => { k with slots := [(0, c)], powered := true, awake := true })
    (modGen (fun g => { g with entries := [(0, e)] }) (modObj (fun o => { o with images := [(5, i)] }) sQp)))
/-- An image of one operation, CONVERT of tensor 1 into tensor 2. -/
def tens1 : TensorDesc :=
  { fmt := 0, axis := 0, rank := 1, tier := 1, constant := false, compressed := false, hasShadow := false, shift := 0, dims := [1]
    dataOff := 0, dataLen := 0, shadow := 0 }
def imgOp : Image :=
  { img1 with tensors := [tens1, tens1], ops := [{ opcode := 0x13, sub := 0, saturate := false, draft := false, ins := [1], outs := [2], params := [] }] }
def relay1 : RelayEntry := { seq := 0, target := 1, first := 0, count := 4, needOp := 0, deadlineUs := 100, fromTier := 1, fallback := 0 }
def imgRel : Image := { img1 with tensors := [tens1], relay := [relay1] }
def ctxF : Ctx := { ctx1 with fetches := [{ seq := 0, issued := 0, deadline := 100000, state := .outstanding }] }
/-- A pass descriptor of one problem in one cell: index 0 of a group of `len`. -/
def pass1 (len flags : Nat) : Bytes :=
  [0x21, 0x11, 0, 1] ++ leBytes 2 flags ++ zeros 2 ++ leBytes 4 0 ++ leBytes 4 len ++ leBytes 4 0 ++ zeros 12 ++
    zeros 4 ++ [1, 0, 0, 0] ++ leBytes 4 4096 ++ zeros 4 ++ leBytes 4 8192 ++ zeros 4 ++ leBytes 4 12288 ++ zeros 4
theorem spares_ok (s : State) (ch : Nat) (h : s.flash.sprintShare = 0) (k : (channelOf s ch).storeTaken = 0) : sparesLeft s ch 1 ≠ 0 := by
  unfold sparesLeft initialSpares channelBlocks diesPerChannel sparesTaken sprintPerDie
  rw [h, k]
  split <;> simp
theorem spares_low (s : State) (ch : Nat) (h : s.flash.sprintShare = 0) (k : (channelOf s ch).storeTaken = 10 ^ 9) :
    sparesLeft s ch 1 * 10 < initialSpares s 1 := by
  unfold sparesLeft initialSpares channelBlocks diesPerChannel sparesTaken sprintPerDie
  rw [h, k]
  split <;> simp

/-- A share that holds no free block: more blocks are closed than it has. -/
def fullShare : State := { modChannel 0 (fun c => { c with ok := true, blocks := List.replicate 608 { part := 0, die := 0, num := 8, state := .closed } }) z with
  flash := { (modChannel 0 (fun c => { c with ok := true, blocks := List.replicate 608 { part := 0, die := 0, num := 8, state := .closed } }) z).flash with sprintShare := 1 } }
theorem full_due : gcDue fullShare 0 0 = true := by
  have h : ((listedBlocks (channelOf fullShare 0) 0).filter fun b => b.state != .free).length = 608 := by decide +kernel
  have g : fullShare.flash.sprintShare = 1 := by decide +kernel
  have k : fullShare.flash.gcThresh = 0x1E14 := by decide +kernel
  have c : fullShare.flash.ctl.getLsbD 0 = true := by decide +kernel
  unfold gcDue freeBlocks channelBlocks sprintPerDie diesPerChannel
  rw [h, g, k, c]
  cases Config.is131 <;> simp [bitsOf] <;> omega
theorem none_due : gcDue z 0 0 = false := by
  unfold gcDue channelBlocks sprintPerDie
  simp [z, State.reset]

/-! ### A tokenizer and a collection, as objects a load command points to

Their bytes are given by the numbers they spell, so that a field of them is arithmetic. -/

def tokRank : List Nat := 266 :: (List.range 255).map fun b => 274 + 3 * b
def tokTrie : List Nat :=
  [8, 0] ++ List.replicate 8 0xFFFFFFFF ++ tokRank ++ [5, 0, 0, 0, 271] ++ [1, 266, 256] ++
    (List.range 255).flatMap fun b => [1 + 65536 * (b + 1), 0, b + 1]
def natOf (l : List Nat) : Nat := l.foldr (fun w a => w + 2 ^ 32 * a) 0
def trieN : Nat := natOf tokTrie
def leafTodo (b : Nat) : TrieTodo := ⟨274 + 3 * b, b + 1, 0, [BitVec.ofNat 8 (b + 1)], false⟩
/-- The trie of 257 tokens: each byte, and two zero bytes. -/
def tokT : Bytes := leBytes 4156 trieN
theorem leafTodo_off (b : Nat) : (leafTodo b).off = 274 + 3 * b := by unfold leafTodo; rfl
def leafTerm (b : Nat) : TrieTerm := ⟨274 + 3 * b, b + 1, false, [BitVec.ofNat 8 (b + 1)]⟩
def kid (b : Nat) : TrieTodo := if b = 0 then ⟨266, 0, 0, [0], false⟩ else leafTodo (b - 1)
theorem leaf_all : ∀ b < 255, readTrieNode tokT (leafTodo b) = some (3, some (leafTerm b), []) := by
  unfold tokT readTrieNode trieWord
  simp only [rd_leBytes, leBytes_drop, leBytes_take, leBytes_length]
  decide +kernel
theorem root_bits : bitmapBytes ((tokT.drop 8).take 32) = List.range 256 := by
  unfold tokT bitmapBytes
  simp only [rd_leBytes, leBytes_drop, leBytes_take]
  decide +kernel
theorem root_words : ∀ b < 256, trieWord tokT (10 + b) = (kid b).off ∧ (kid b).inByte = b ∧ (kid b).off < 2 ^ 28 ∧
    kid b = ⟨(kid b).off, b, 0, [BitVec.ofNat 8 b], false⟩ := by
  unfold tokT trieWord
  simp only [rd_leBytes]
  decide +kernel
theorem root_head : trieWord tokT 0 = 8 ∧ trieWord tokT 1 = 0 ∧ tokT.length = 4156 := by
  unfold tokT trieWord
  simp only [rd_leBytes, leBytes_length]
  decide +kernel
theorem root_ok : readTrieNode tokT ⟨0, 0, 0, [], false⟩ = some (266, none, (List.range 256).map kid) := by
  have e : (withPos ((List.range 256).map fun b => ([BitVec.ofNat 8 b], b))).map
      (fun (e : Nat × List Byte × Nat) => (trieWord tokT (10 + e.1), e.2)) = (List.range 256).map fun b => ((kid b).off, [BitVec.ofNat 8 b], b) := by
    rw [withPos, List.length_map, List.length_range, List.zip_map_right, List.zip_eq_zipWith, List.zipWith_self, List.map_map, List.map_map]
    exact List.map_congr_left fun b h => by simp [(root_words b (List.mem_range.1 h)).1]
  have k : ((List.range 256).map fun b => ((kid b).off, [BitVec.ofNat 8 b], b)).all (fun k => decide (k.1 < 2 ^ 28)) = true := by
    rw [List.all_map, List.all_eq_true]
    exact fun b h => decide_eq_true (root_words b (List.mem_range.1 h)).2.2.1
  have m : ((List.range 256).map fun b => ((kid b).off, [BitVec.ofNat 8 b], b)).map
      (fun (k : Nat × List Byte × Nat) => (⟨k.1, k.2.2, 0, k.2.1, false⟩ : TrieTodo)) = (List.range 256).map kid := by
    rw [List.map_map]
    exact List.map_congr_left fun b h => (root_words b (List.mem_range.1 h)).2.2.2.symm
  have q : ∀ b < 256, (kid b).off < 268435456 := fun b h => (root_words b h).2.2.1
  unfold readTrieNode
  simp [root_head, bitsOf, b2n, root_bits, e, k, m, (by decide : Nat.testBit 8 1 = false)] <;> exact q

def term0 : TrieTerm := ⟨266, 0, false, [0]⟩
def term256 : TrieTerm := ⟨271, 256, false, [0, 0]⟩
theorem node_ok : readTrieNode tokT (kid 0) = some (5, some term0, [⟨271, 0, 266, [0, 0], false⟩]) ∧
    readTrieNode tokT ⟨271, 0, 266, [0, 0], false⟩ = some (3, some term256, []) := by
  unfold tokT readTrieNode trieWord
  simp only [rd_leBytes, leBytes_drop, leBytes_take, leBytes_length]
  decide +kernel
theorem trie_nil (t : Bytes) (f) (u a) : readTrie t f [] u a = some a := by cases f <;> exact rfl
theorem trie_cons (t : Bytes) (f) (d td u a) (n : Nat) (x : Option TrieTerm) (k : List TrieTodo) (h : readTrieNode t d = some (n, x, k))
  (hu : (u.any fun u => decide (u.1 < d.off + n) && decide (d.off < u.1 + u.2)) = false) : readTrie t (f+1) (d :: td) u a = readTrie t f (k ++ td) ((d.off, n) :: u) (x.toList ++ a) := by
  have e : readTrie t (f+1) (d :: td) u a = match readTrieNode t d with
    | none => none
    | some (size, term, kids) =>
      if u.any fun u => decide (u.1 < d.off + size) && decide (d.off < u.1 + u.2) then none
      else readTrie t f (kids ++ td) ((d.off, size) :: u) (term.toList ++ a) := id rfl
  rw [e, h]
  simp only [hu, Bool.false_eq_true, if_false]
theorem leaves_ok (t : Bytes) (ht : ∀ b < 255, readTrieNode t (leafTodo b) = some (3, some (leafTerm b), [])) (n k fuel : Nat)
    (used : List (Nat × Nat)) (acc : List TrieTerm) (hk : k + n ≤ 255) (hf : n < fuel) (hu : ∀ u ∈ used, u.1 + u.2 ≤ 274 + 3 * k) :
    readTrie t fuel ((List.range' k n).map leafTodo) used acc = some (((List.range' k n).map leafTerm).reverse ++ acc) := by
  induction n generalizing k fuel used acc with
  | zero => exact trie_nil _ _ _ _
  | succ n ih =>
    cases fuel with
    | zero => omega
    | succ fuel =>
      rw [List.range'_succ, List.map_cons, trie_cons _ _ _ _ _ _ _ _ _ (ht k (by omega)), List.nil_append, ih (k + 1) fuel]
      · simp
      · omega
      · omega
      · intro u h
        rcases List.mem_cons.1 h with rfl | h
        · rw [leafTodo_off]; simp; omega
        · have := hu u h; omega
      · rw [List.any_eq_false]
        intro u h
        have := hu u h
        rw [leafTodo_off]; simp; omega
def tokTerms : List TrieTerm := ((List.range' 0 255).map leafTerm).reverse ++ [term256, term0]
theorem trie_ok : readTrie tokT 1039 [⟨0, 0, 0, [], false⟩] [] [] = some tokTerms := by
  have c : (List.range 256).map kid = kid 0 :: (List.range' 0 255).map leafTodo := by decide +kernel
  rw [trie_cons _ _ _ _ _ _ _ _ _ (root_ok.trans (by rw [c])) rfl, List.append_nil, trie_cons _ _ _ _ _ _ _ _ _ node_ok.1 (by decide),
    List.singleton_append, trie_cons _ _ _ _ _ _ _ _ _ node_ok.2 (by decide), List.nil_append]
  exact leaves_ok _ leaf_all 255 0 1036 _ _ (by decide) (by decide) (by decide)

/-- The whole object. -/
def tokHead : Nat :=
  0x4B544F4B + 2 ^ 32 * (1 + 2 ^ 32 * (9 + 2 ^ 32 * (257 + 2 ^ 64 * (4156 + 2 ^ 32 * (64 + 2 ^ 64 * (1152 + 2 ^ 64 * 64))))))
def tokN : Nat := tokHead + 256 ^ 64 * natOf (tokRank ++ [271]) + 256 ^ 1152 * trieN
def tokObj : Bytes := leBytes 5308 tokN
theorem tok_trie : (tokObj.drop 1152).take 4156 = tokT := by
  unfold tokObj tokT
  rw [leBytes_drop, leBytes_take]
  exact congrArg (leBytes 4156) (by decide +kernel)
theorem tok_fields : rd tokObj 0 4 = 0x4B544F4B ∧ rd tokObj 4 2 = 1 ∧ rd tokObj 6 1 = 0 ∧ rd tokObj 8 4 = 9 ∧ rd tokObj 12 4 = 257 ∧
    rd tokObj 16 4 = 0 ∧ rd tokObj 20 4 = 4156 ∧ rd tokObj 24 8 = 64 ∧ rd tokObj 32 8 = 1152 ∧ rd tokObj 40 8 = 64 ∧
    rd tokObj 48 4 = 0 ∧ rd tokObj 52 4 = 0 ∧ rd tokObj 56 4 = 0 ∧ rd tokObj 60 4 = 0 ∧ tokObj.length = 5308 ∧
    offending 0 (tokObj.take 64) tokHeaderMask = none := by
  unfold tokObj
  simp only [rd_leBytes, leBytes_length, leBytes_take]
  decide +kernel
theorem mem_leaf (b : Nat) (h : b < 255) : leafTerm b ∈ tokTerms :=
  List.mem_append_left _ (List.mem_reverse.2 (List.mem_map_of_mem (List.mem_range'_1.2 ⟨Nat.zero_le b, by omega⟩)))
theorem mem_two : term0 ∈ tokTerms ∧ term256 ∈ tokTerms :=
  ⟨List.mem_append_right _ (by decide), List.mem_append_right _ (by decide)⟩
theorem rank_words : rd tokObj 64 4 = 266 ∧ rd tokObj (64 + 4 * 256) 4 = 271 ∧ ∀ b < 255, rd tokObj (64 + 4 * (b + 1)) 4 = 274 + 3 * b := by
  unfold tokObj
  simp only [rd_leBytes]
  decide +kernel
theorem tok_rank : ((List.range 257).all fun i => tokTerms.any fun x => x.off == rd tokObj (64 + 4 * i) 4 && x.id == i) = true := by
  rw [List.all_eq_true]
  intro i h
  rw [List.any_eq_true]
  rcases i with _ | b
  · exact ⟨term0, mem_two.1, by simp [rank_words, term0]⟩
  · by_cases k : b = 255
    · subst k
      exact ⟨term256, mem_two.2, by simp only [rank_words.2.1]; rfl⟩
    · have m : b < 255 := by have := List.mem_range.1 h; omega
      exact ⟨leafTerm b, mem_leaf b m, by simp [rank_words.2.2 b m, leafTerm]⟩
theorem tok_bytes : ((List.range 256).all fun b => tokTerms.any fun x => !x.special && x.str == [BitVec.ofNat 8 b]) = true := by
  rw [List.all_eq_true]
  intro i h
  rw [List.any_eq_true]
  rcases i with _ | b
  · exact ⟨term0, mem_two.1, by decide⟩
  · exact ⟨leafTerm b, mem_leaf b (by have := List.mem_range.1 h; omega), by simp [leafTerm]⟩
theorem tok_vocab : (tokTerms.foldl (fun m x => mset m x.id (⟨x.str, x.special⟩ : Token)) []).length = tokTerms.length := by decide +kernel
theorem tok_terms : (tokTerms.all fun x => decide (x.id < 257) && decide (x.str ≠ [])) = true := by decide +kernel
theorem tok_parses : (parseTokenizer tokObj).isSome = true := by
  unfold parseTokenizer
  have d : ∀ x, x ∈ tokTerms → x.id < 257 ∧ ¬x.str = [] := by simpa using tok_terms
  simp [tok_fields, tok_trie, trie_ok, tok_rank, tok_bytes, tok_vocab, rangesOverlap, mergesOk]
  exact d

theorem tok_body : cmdBody (cmd 0x24 0 5308 0 tokObj) (cmdLen0 (cmd 0x24 0 5308 0 tokObj)) = tokObj := by
  have e : cmdLen0 (cmd 0x24 0 5308 0 tokObj) = 5308 := by decide +kernel
  have n : tokObj.length = 5308 := leBytes_length _ _
  rw [e]
  simp [cmdBody, cmd, padTo, n, zeros, List.take_of_length_le]

/-- A privileged collection of 32 components: descriptor, and sections of zeros. -/
def collNum : Nat :=
  3 + 2 ^ 32 * (3 + 2 ^ 32 * (32 + 2 ^ 16 * (16 + 2 ^ 112 * (1 + 2 ^ 64 * (16 + 2 ^ 16 * (1 + 2 ^ 48 * (128 + 2 ^ 64 * (8320 + 2 ^ 64 * 24704))))))))
def collObj : Bytes := leBytes 24768 collNum
theorem coll_fields : rd collObj 0 4 = 3 ∧ rd collObj 4 1 = 3 ∧ rd collObj 5 1 = 0 ∧ rd collObj 6 1 = 0 ∧ rd collObj 7 1 = 0 ∧ rd collObj 8 2 = 32 ∧
    rd collObj 10 1 = 16 ∧ rd collObj 11 1 = 0 ∧ rd collObj 12 2 = 0 ∧ rd collObj 14 2 = 0 ∧ rd collObj 16 8 = 0 ∧ rd collObj 24 8 = 1 ∧
    rd collObj 32 2 = 16 ∧ rd collObj 34 2 = 1 ∧ rd collObj 40 8 = 128 ∧ rd collObj 48 8 = 8320 ∧ rd collObj 56 8 = 24704 ∧
    collObj.length = 24768 ∧ offending 0 (collObj.take 128) collMask = none := by
  unfold collObj
  simp only [rd_leBytes, leBytes_length, leBytes_take]
  decide +kernel
theorem coll_words (off n : Nat) (h : 128 ≤ off) : words16 collObj off n = List.replicate n 0 := by
  refine List.eq_replicate_iff.2 ⟨by simp [words16], fun w k => ?_⟩
  obtain ⟨i, -, rfl⟩ := List.mem_map.1 k
  unfold collObj
  rw [rd_leBytes, Nat.div_eq_of_lt, Nat.zero_mod]
  exact Nat.lt_of_lt_of_le (by decide +kernel : collNum < 256 ^ 128) (Nat.pow_le_pow_right (by decide) (by omega))
def collMade : Collection :=
  { desc := collDescOf collObj, rotation := words16 collObj 128 4096, codebooks := words16 collObj 8320 8192
    centroids := chunksOf 32 1 (words16 collObj 24704 32), nextId := 0 }
def collRead : CollDesc :=
  { shared := true, privileged := true, metric := 0, vecFmt := 0, sketchBits := 128, inlineBits := 128, dim := 32, pqM := 16, degree := 0
    owner := 0, idBase := 0, idSpan := 1, textMax := 16, ingestQueue := 1 }
theorem coll_desc : collDescOf collObj = collRead := by
  simp only [collDescOf, coll_fields]; decide
theorem coll_parses : parseCollection collObj = some collMade := by
  have f : ((words16 collObj 128 4096 ++ words16 collObj 8320 8192 ++ words16 collObj 24704 32).all fun w => (decodeFp bf16 w).isFinite) = true := by
    rw [coll_words _ _ (by decide), coll_words _ _ (by decide), coll_words _ _ (by decide), List.all_eq_true]
    intro w h
    have e : w = 0 := by
      rcases List.mem_append.1 h with h | h
      · rcases List.mem_append.1 h with h | h <;> exact List.eq_of_mem_replicate h
      · exact List.eq_of_mem_replicate h
    rw [e]; decide
  have d := coll_desc
  unfold parseCollection
  simp only [d, coll_fields, collRead, Option.isNone_none, rangesOverlap, inRange]
  rw [if_pos (by decide), if_pos f]
  simp only [collMade, d, collRead]
theorem coll_taken : collAdmitted (after_ (cmd 0x28 0 24768 0 collObj) z) (rd collObj 0 4) collMade = true := by
  have c : collMade.centroids.length = 1 := by simp [collMade, chunksOf]
  have d : collMade.desc = collRead := coll_desc
  unfold collAdmitted
  rw [c, d, coll_fields.1]
  decide +kernel
theorem coll_body : cmdBody (cmd 0x28 0 24768 0 collObj) (cmdLen0 (cmd 0x28 0 24768 0 collObj)) = collObj := by
  have e : cmdLen0 (cmd 0x28 0 24768 0 collObj) = 24768 := by decide +kernel
  have n : collObj.length = 24768 := leBytes_length _ _
  rw [e]
  simp [cmdBody, cmd, padTo, n, zeros, List.take_of_length_le]

/-- A signed image without operations, with so many bytes of payload. -/
def imgSig : Bytes := leBytes 4 0x53474953 ++ [3, 0, 1, 0] ++ zeros 152
def imgObj (n : Nat) : Bytes :=
  leBytes 4 0x49464C4B ++ leBytes 2 1 ++ zeros 2 ++ leBytes 4 7 ++ leBytes 4 1 ++ zeros 12 ++ leBytes 2 1 ++ zeros 2 ++ zeros 80 ++
    leBytes 8 256 ++ leBytes 8 n ++ leBytes 8 (256 + n) ++ leBytes 8 160 ++ zeros 112 ++ zeros n ++ imgSig
def imgCmd (n : Nat) : HostCmd := cmd 0x22 0 (416 + n) 0x8000 (imgObj n)
def imgBody (n : Nat) : Bytes := cmdBody (imgCmd n) (cmdLen0 (imgCmd n))
def imgState (n : Nat) : State := evCount 12 2 1 (after_ (imgCmd n) z)
def noParts : ImageParts := ⟨[], [], [], [], [], [], []⟩
/-- What the configuration has to accept for the image to be valid. -/
def imgSigned (n : Nat) : Prop := Config.signatureOk 3 ((imgObj n).take (256 + n)) imgSig [] = true
theorem image_pages (n : Nat) (h : n = 0 ∨ n = 64) :
    imageOf (imgBody n) ((imageParts (imgBody n)).getD noParts) none 0 =
      imageOf (imgBody n) ((imageParts (imgBody n)).getD noParts) none (bitsOf (cmdParam (imgCmd n)) 39 16) := by
  rcases h with rfl | rfl
  · rw [(by decide +kernel : bitsOf (cmdParam (imgCmd 0)) 39 16 = 0)]
  · rw [(by decide +kernel : bitsOf (cmdParam (imgCmd 64)) 39 16 = 0)]
theorem image_valid_0 (hs : imgSigned 0) : imageReason (imgState 0) none (imgBody 0) = none := by
  have e : (decide (256 ≤ (imgBody 0).length) && Config.signatureOk 3 ((imgBody 0).take (sectionAt (imgBody 0) 6).1) (sectionBytes (imgBody 0) 6)
      (revokedKeys (imgState 0))) = true := by
    rw [(by decide +kernel : (imgBody 0).take (sectionAt (imgBody 0) 6).1 = (imgObj 0).take 256),
      (by decide +kernel : sectionBytes (imgBody 0) 6 = imgSig), (by decide +kernel : revokedKeys (imgState 0) = []),
      (by decide +kernel : decide (256 ≤ (imgBody 0).length) = true), Bool.true_and]
    exact hs
  unfold imageReason
  dsimp only
  rw [e]
  decide +kernel
theorem image_valid_64 (hs : imgSigned 64) : imageReason (imgState 64) none (imgBody 64) = none := by
  have e : (decide (256 ≤ (imgBody 64).length) && Config.signatureOk 3 ((imgBody 64).take (sectionAt (imgBody 64) 6).1) (sectionBytes (imgBody 64) 6)
      (revokedKeys (imgState 64))) = true := by
    rw [(by decide +kernel : (imgBody 64).take (sectionAt (imgBody 64) 6).1 = (imgObj 64).take 320),
      (by decide +kernel : sectionBytes (imgBody 64) 6 = imgSig), (by decide +kernel : revokedKeys (imgState 64) = []),
      (by decide +kernel : decide (256 ≤ (imgBody 64).length) = true), Bool.true_and]
    exact hs
  unfold imageReason
  dsimp only
  rw [e]
  decide +kernel

/-! ### A step whose operation's tensor is too large for a member -/

def tensOver : TensorDesc := { tens1 with dims := [2 ^ 31 + 2 * 2 ^ 28 + 1] }
def imgOver : Image := { imgOp with tensors := [tensOver, tensOver] }
def stpJ : StepRec := { stp1 [] with jobs := [(5, 0), (5, 1)] }
def eOver : RtEntry := { genE .step with genLen := 2 }
def uOver : SUnit := { unit1 (.step 0) with members := [(0, 1, 2)] }
def sOver : State := modGen (fun g => { g with steps := [(0, stp1 [⟨0, 2, 0, [], []⟩])] }) (sUnit uOver ctx1 imgOver eOver)
def opOver : OpCx := (opReady sOver 0 0).getD ⟨0, 0, 3, uOver, 0, ctx1, imgOver, ⟨0, 0, false, false, [], [], []⟩⟩

def lineE : Line := { data := zeros 64, owner := 0, kind := 0, errBits := [0] }

/-! ### The fabric -/

/-- Module 7 on the fabric, with a route to module 9, its anchor. -/
def sFab : State :=
  modFab (fun f => { f with id := 7, state := .admitted, anchorId := 9, rtLocal := [(9, 0x2000)] }) (sTab table9)
def sFabIn (k : FabState) : State := modFab (fun f => { f with state := k }) sFab
def pk (ty : Nat) (a0 : BitVec 32) (a1 : BitVec 64) (b : Bytes) : Packet :=
  { ptype := ty, account := 1, dst := 7, src := 9, arg0 := a0, arg1 := a1, payload := b }
def sPort (f : Port → Port) (s : State) : State := modPort 3 f s
def flit1 (n : Nat) : Bytes := zeros 248 ++ leBytes 8 (13021020697539691691 + n)
def req22 : PairReq := { seq := 0, sent := 0, first := 0, pkt := { ptype := 0x22, dst := 9, src := 7 } }
/-- Shard set 2 of modules 7 and 9, with a reduction whose own elements are in. -/
def red1 (st : Bool) : Reduction := { own := [(none, 0)], started := st, unit := 3 }
def sRed (l : Map Reduction) : State :=
  modSched (fun d => { d with units := [(3, unit1 (.run 0))] }) (modGen (fun g => { g with entries := [(0, ent1)] })
    (modFab (fun f => { f with setSizes := [(2, 2)], setMembers := [(131072, 7), (131073, 9)], reductions := l }) sFab))
/-- One whose result is awaited: one FP32 element. -/
def redW : Reduction := { red1 true with fmtOut := 0 }
def key1 : KeyEntry := { set := 0, count := 1, bytes := [], valid := true }
def lease1 : Lease := { peer := 9, pages := 4, frames := [(64, zeros 64)] }
def sLease (l : Lease) : State := modMem (fun m => { m with lent := [(2, l)] }) sFab
def sStk : State := modMem (fun m => { m with stackTab := (List.range 20).map fun k => (k, { ok := true }) }) sFab
def tabR (x : Version) : Table := { table9 with shared := false, addable := true, owner := 1, versions := [(1, x)] }
def sTabR : State := modObj (fun o => { o with tables := [(0, tabR { cond := .current, rows := [(0, zeros 64)] })] }) sFab
def boot (f : Boot → Boot) : State := modBoot f z
def cfg1 : ConfigRec := { seq := 1, sprintShare := 0, fabric := true, lending := false, debugUnlock := true, revoked := [], digest := [] }
def lsop1 : LsOp := { op := 5, target := 0 }

theorem crc_0 : (zeros 31).foldl crcByte 18446744073709551615 = 151211592990947899 := by decide +kernel
theorem crc_1 : (zeros 31).foldl crcByte 151211592990947899 = 13657400180621429760 := by decide +kernel
theorem crc_2 : (zeros 31).foldl crcByte 13657400180621429760 = 9336504170114628395 := by decide +kernel
theorem crc_3 : (zeros 31).foldl crcByte 9336504170114628395 = 14099407903962750694 := by decide +kernel
theorem crc_4 : (zeros 31).foldl crcByte 14099407903962750694 = 6768989374681846303 := by decide +kernel
theorem crc_5 : (zeros 31).foldl crcByte 6768989374681846303 = 6705212691892282349 := by decide +kernel
theorem crc_6 : (zeros 31).foldl crcByte 6705212691892282349 = 6183841022296043313 := by decide +kernel
theorem crc_7 : (zeros 31).foldl crcByte 6183841022296043313 = 5425723376169859924 := by decide +kernel
theorem crc_zeros : crc64 (zeros 248) = 13021020697539691691 := by
  have e : zeros 248 = zeros 31 ++ (zeros 31 ++ (zeros 31 ++ (zeros 31 ++ (zeros 31 ++ (zeros 31 ++ (zeros 31 ++ zeros 31)))))) := by
    decide +kernel
  simp only [crc64, e, List.foldl_append, crc_0, crc_1, crc_2, crc_3, crc_4, crc_5, crc_6, crc_7]
  decide +kernel
theorem flit1_take (n : Nat) : (flit1 n).take 248 = zeros 248 := by
  unfold flit1
  exact List.take_left' (by decide +kernel)

/-! ### Management -/

def sesE : SpdmSession := { mailbox := 0, established := true, mutualAuth := true }
def sSpdm (x : SpdmSession) : State := modSec (fun k => { k with identityOk := true, sessions := [(1, x)] }) z
def spdm (a b : Nat) : SpdmMsg := { mailbox := 0, session := 1, msg := [0x12, 0] ++ leBytes 1 a ++ leBytes 1 b }
def sUnl (c : Option (Nat × Nat)) : State := modSec (fun k => { k with config := some cfg1, chal := c }) z
/-- The management pair runs and BMC's I3C address is assigned. -/
def sMg (f : Mgmt → Mgmt) : State := modMgmt (fun m => f { m with i3c := some 8, eidI3c := 10 }) (boot (fun b => { b with mgmtRun := true, aux := true }))
def recd1 : Rec := { severity := 0, source := 1, code := 0, seq := 4, boot := 0, time := 0, calendar := 0 }
def set1 : SnapSet := { id := 4, seq := 4, trigger := 0, list := 0, truncated := false, entries := 1, capture := 0, words := zeros 600 }
def evc1 : Evc := { enable := true, count := 2 ^ 48 - 1 }
def sEvc (p : Nat) (e : Evc) : State := modRegs (fun r => { r with pages := [(p, { evcs := e :: List.replicate 7 {} })] }) z
def sSnap (w : Bytes) : State := modMgmt (fun m => { m with snapWait := [(4, 0, 0, 1)], records := [recd1], snaps := [{ set1 with words := w }] }) z
theorem snap_bytes (w : Bytes) : bufferBytes (sSnap w).mgmt = 64 + w.length := by
  simp [sSnap, bufferBytes, modMgmt, SnapSet.size, set1]
theorem snap_big (n : Nat) (h : 4194304 ≤ n) : 4194304 < bufferBytes (sSnap (zeros n)).mgmt + 64 := by
  rw [snap_bytes, zeros, List.length_replicate]; omega

/-! ### Ill-formed commands are refused -/

def okHost : HostCmd := { qp := 5, slots := [3] ++ zeros 63 }
theorem test_wf_host : (Instr.cancel okHost).wf = true ∧ (Instr.cancel { okHost with qp := 0x4002 }).wf = false ∧
    (Instr.cancel { okHost with slots := zeros 63 }).wf = false ∧ (Instr.cancel { okHost with slots := [3, 1] ++ zeros 62 }).wf = false := by
  decide
theorem test_wf_opcode : (Instr.run okHost).wf = false ∧ (Instr.commandFetch okHost).wf = true := by decide
theorem test_wf_version_operation :
    (Instr.versionNew { qp := 0x4000, slots := [0x2C] ++ zeros 63 }).wf = true ∧
    (Instr.rowPin { qp := 0x4000, slots := [0x2C] ++ zeros 63 }).wf = false := by decide
theorem test_wf_packet : (Instr.rowRead { ptype := 0x22, account := 32769 }).wf = true ∧
    (Instr.rowRead { ptype := 0x100 }).wf = false ∧ (Instr.rowRead { ptype := 0x22, account := 4096 }).wf = false ∧
    (Instr.rowRead { ptype := 0x22, dst := 2 ^ 20 }).wf = false ∧ (Instr.rowRead { ptype := 0x22, port := 32 }).wf = false := by decide
theorem test_wf_flash_read :
    (Instr.flashReadDecode { channel := 64, part := 0, die := 0, block := 0, level := none, holds := .other 0 0, account := 0 }).wf = false ∧
    (Instr.flashReadDecode { channel := 63, part := 1, die := 15, block := 0, level := none, holds := .other 0 0, account := 0 }).wf = true := by
  decide
theorem test_wf_ranges : (Instr.fabLeave 514).wf = false ∧ (Instr.pgErrPop 1 512).wf = false ∧ (Instr.arrDrain 1 320 true).wf = false ∧
    (Instr.portDown 32).wf = false ∧ (Instr.scrubPass 20).wf = false ∧ (Instr.channelFail 64).wf = false ∧
    (Instr.internalLinkFail 54).wf = false ∧ (Instr.watchdogExpiry 0 4).wf = false ∧ (Instr.entryFree 4096).wf = false ∧
    (Instr.profileLoadRelease 64).wf = false ∧ (Instr.accountScrubEnd 4096).wf = false ∧ (Instr.qpFind 1 0x4000).wf = false ∧
    (Instr.walkHop 0 16 true).wf = false ∧ (Instr.stepForm 0 16 false).wf = false ∧ (Instr.gcStart 0 2).wf = false ∧
    (Instr.programFail 0 0 16 0).wf = false ∧ (Instr.portTrained 0 2 false).wf = false ∧ (Instr.retxTimer 1048576).wf = false ∧
    (Instr.admissionPacer 4 0).wf = false ∧ (Instr.evcOverflow 0 8).wf = false ∧ (Instr.getTid 2).wf = false ∧
    (Instr.componentTransfer 5 []).wf = false ∧ (Instr.registerWrite 1 0 0 2 0).wf = false ∧
    (Instr.endSession { mailbox := 3, session := 0, msg := [] }).wf = false ∧ (Instr.sqTailDoorbell 1 16385 0).wf = false := by decide

/-! ### Worked examples of the spec -/

/-- 03, "Placing a product": 1,344 - 2^-17 in the accumulator, at r = 3 exactly and at r = 40 with a truncated product. -/
theorem test_accumulate : accumulate 3 [⟨1344, 0⟩, ⟨-1, -17⟩] = (0xA7FFFFF0000000, 0) ∧
    (accumulate 40 [⟨1344, 0⟩, ⟨-1, -17⟩]).1 = 1344 * 2 ^ 8 ∧ rn32Bits (accDy 3 0xA7FFFFF0000000) = 0x44A80000 := by decide +kernel
/-- 03, "Exact adds": deltas of an FX32 table with f = 16. -/
theorem test_fixed_point_deltas : [roundFx 16 ⟨1, -17⟩, roundFx 16 ⟨3, -17⟩, roundFx 16 ⟨1, -2⟩, roundFx 16 ⟨-1, -3⟩] = [0, 2, 16384, -8192] := by
  decide +kernel
/-- 06 R207: "aaab" under the merges aa, aab and ab is aa, ab. -/
theorem test_merges : mergeLoop [(97, 97, 1), (1, 98, 2), (97, 98, 3)] 4 [97, 97, 97, 98] = [1, 3] := by decide +kernel
/-- 06 R211 to R216: the four tokens of the example of stop strings release "42 ", nothing, "</answer" and one space. -/
def stopTk : Tokenizer :=
  { tok1 with vocab := [(1, ⟨[0x34, 0x32, 0x20, 0x3C, 0x2F], false⟩), (2, ⟨[0x61, 0x6E], false⟩), (3, ⟨[0x73, 0x77, 0x65, 0x72], false⟩),
      (4, ⟨[0x20, 0x3C, 0x2F, 0x61, 0x6E, 0x73, 0x3E, 0x0A, 0x0A, 0x6F, 0x6B], false⟩)] }
def stopSt : StopSet := { stops := [[0x3C, 0x2F, 0x61, 0x6E, 0x73, 0x3E], [0x0A, 0x0A]] }
theorem test_stop_strings :
    let a := detokPush stopTk stopSt 1 ⟨[], 0, [], 0, none⟩
    let b := detokPush stopTk stopSt 2 a.2
    let c := detokPush stopTk stopSt 3 b.2
    let d := detokPush stopTk stopSt 4 c.2
    a.1 = [0x34, 0x32, 0x20] ∧ b.1 = [] ∧ c.1 = [0x3C, 0x2F, 0x61, 0x6E, 0x73, 0x77, 0x65, 0x72] ∧ d.1 = [0x20] ∧ d.2.stop = some 0 := by
  decide +kernel
/-- 09 R312: the exact top 3 of 2, 5, 3, 5, -0 and NaN, with its sums at r = 4. -/
theorem test_top_three :
    let x := selectTop 0 0 3 [(false, 0x40000000), (false, 0x40A00000), (false, 0x40400000), (false, 0x40A00000), (false, 0x80000000),
      (false, 0x7FC00000)]
    x.entries.map (·.idx) = [1, 3, 2] ∧ x.nValid = 5 ∧ x.nNan = 1 ∧ x.r = 4 ∧ x.sel = 13 * 2 ^ 44 ∧ x.out = 2 * 2 ^ 44 := by decide +kernel
/-- 11 R421: a row whose home is BX03 gets its two copies on BX05 and BX10; 12, Placement: row 81,204 of slot 12 lies on BX03. -/
theorem test_placement :
    placeReplicas sStk 3 512 2 = [5, 10] ∧ homeStack sStk 12 { table9 with fmt := 3, rowElems := 512 } 81204 = 3 := by
  decide +kernel
/-- 13 R493: of blocks A, B and C of the example, C scores highest and B next. -/
def gcBlk (n closed erases : Nat) : Block := { part := 1, die := 0, num := n, state := .closed, erases := erases, closedAt := closed, units := List.replicate n 0 }
def sGc : State := modFlash (fun f => { f with flashTime := 864000 }) z
theorem test_gc_scores :
    fvLt (blockScore sGc (gcBlk 2458 86400 1200)) (blockScore sGc (gcBlk 2048 561600 0)) = true ∧
    fvLt (blockScore sGc (gcBlk 1024 777600 300)) (blockScore sGc (gcBlk 2458 86400 1200)) = true := by decide +kernel
/-- 14 R545: 1,000,003 array cycles shared by 512, 1 and 3 positions. -/
theorem test_shares : shares 1000003 [512, 1, 3] = [992252, 1938, 5813] := by decide
/-- 10 R361: a stream ring of 1 MiB admits 81 members to one step. -/
theorem test_step_reserve : 1048576 / stepReserve = 81 := by decide

theorem test_witness_empty_queue_lets_one_cycle_pass :
    (∃ (s : State),
      s.pending = []) :=
  ⟨z, by decide +kernel⟩

theorem test_witness_every_step_keeps_good :
    (∃ (s : State) (t : State),
      Good s ∧ step s = .next t) :=
  ⟨{ z with pending := [.evcFreeze 1 true] }, modRegs (fun r => { r with evcFreeze := true }) z, by unfold Good; decide +kernel, by rfl⟩

theorem test_witness_every_step_keeps_sound :
    (∃ (s : State) (t : State),
      Sound s ∧ step s = .next t) :=
  ⟨{ z with pending := [.evcFreeze 1 true] }, modRegs (fun r => { r with evcFreeze := true }) z, ⟨fun _ => rfl, by decide +kernel, by decide +kernel, by decide +kernel⟩, by rfl⟩

theorem test_witness_completing_and_taking_touch_only_their_part :
    (∃ (q : Nat) (s : State),
      fnLive s ((qpFn s q).getD 0) = true) ∧
    (∃ (q : Nat) (s : State),
      fnLive s ((qpFn s q).getD 0) = false) ∧
    (∃ (op : Nat) (h : HostCmd) (s : State) (t : State) (f : Fetched),
      Taken op h s f t) :=
  ⟨⟨0x4000, z, by decide +kernel⟩,
   ⟨0x4000, modFn 0 (fun x => { x with enabled := false }) z, by decide +kernel⟩,
   ⟨0x34, cmd 0x34 0 0 0, ring (cmd 0x34 0 0 0) (z), after_ (cmd 0x34 0 0 0) (z), slot (cmd 0x34 0 0 0), taken_ok _ _ _ (by decide +kernel)⟩⟩

theorem test_witness_doorbells :
    (∃ (fn : Nat) (q : Nat) (k : Nat) (v : Nat) (s : State),
      fnLive s fn = true ∧ ownQp s fn q = some k ∧ (qpOf s k).enable = true ∧ v % 65536 < sqSize (qpOf s k) ∧ v % 65536 ≠ (qpOf s k).sqTail) ∧
    (∃ (fn : Nat) (q : Nat) (k : Nat) (v : Nat) (s : State),
      fnLive s fn = true ∧ ownQp s fn q = some k ∧ (qpOf s k).enable = true ∧ v % 65536 < cqSize (qpOf s k) ∧ ringDist (cqSize (qpOf s k)) (qpOf s k).cqHead (v % 65536) ≤ (qpOf s k).cqUsed) ∧
    (∃ (fn : Nat) (q : Nat) (k : Nat) (v : Nat) (s : State),
      fnLive s fn = true ∧ ownQp s fn q = some k ∧ (qpOf s k).enable = true ∧ (qpOf s k).consumed + (v % 2 ^ 32 + 2 ^ 32 - (qpOf s k).consumed % 2 ^ 32) % 2 ^ 32 ≤ (qpOf s k).produced) ∧
    (∃ (fn : Nat) (q : Nat) (k : Nat) (v : Nat) (s : State),
      fnLive s fn = true ∧ ownQp s fn q = some k ∧ (qpOf s k).enable = true ∧ (qpOf s k).err = false ∧ sqSize (qpOf s k) ≤ v % 65536) ∧
    (∃ (fn : Nat) (q : Nat) (k : Nat) (v : Nat) (s : State),
      fnLive s fn = true ∧ ownQp s fn q = some k ∧ (qpOf s k).enable = true ∧ (qpOf s k).err = false ∧ (cqSize (qpOf s k) ≤ v % 65536 ∨ (qpOf s k).cqUsed < ringDist (cqSize (qpOf s k)) (qpOf s k).cqHead (v % 65536))) ∧
    (∃ (fn : Nat) (q : Nat) (k : Nat) (v : Nat) (s : State),
      fnLive s fn = true ∧ ownQp s fn q = some k ∧ (qpOf s k).enable = true ∧ (qpOf s k).err = false ∧ (qpOf s k).produced < (qpOf s k).consumed + (v % 2 ^ 32 + 2 ^ 32 - (qpOf s k).consumed % 2 ^ 32) % 2 ^ 32) ∧
    (∃ (q : Nat) (s : State),
      (qpOf s q).err = false) :=
  ⟨⟨2, 5, 5, 15, sQp, by decide +kernel⟩,
   ⟨2, 5, 5, 3, sQp, by decide +kernel⟩,
   ⟨2, 5, 5, 64, sQp, by decide +kernel⟩,
   ⟨2, 5, 5, 16, sQp, by decide +kernel⟩,
   ⟨2, 5, 5, 4, sQp, by decide +kernel⟩,
   ⟨2, 5, 5, 65, sQp, by decide +kernel⟩,
   ⟨5, sQp, by decide +kernel⟩⟩

theorem test_witness_queue_pair_control :
    (∃ (fn : Nat) (q : Nat) (k : Nat) (s : State),
      ownQp s fn q = some k ∧ fnLive s fn = true ∧ (qpOf s k).enable = false ∧ sizesOk (isAdmin k) (qpOf s k) = true) ∧
    (∃ (fn : Nat) (q : Nat) (k : Nat) (s : State),
      ownQp s fn q = some k ∧ fnLive s fn = true ∧ (qpOf s k).enable = false ∧ sizesOk (isAdmin k) (qpOf s k) = false) ∧
    (∃ (fn : Nat) (q : Nat) (k : Nat) (s : State),
      ownQp s fn q = some k) :=
  ⟨⟨2, 5, 5, sQpOff, by decide +kernel⟩,
   ⟨2, 5, 5, sQpBad, by decide +kernel⟩,
   ⟨2, 5, 5, sQp, by decide +kernel⟩⟩

theorem test_witness_interrupt_messages_and_the_bar4_window :
    (∃ (q : Nat) (s : State),
      (qpOf s q).irq.getLsbD 11 = true ∧ 0 < bitsOf (qpOf s q).irq.toNat 31 20 ∧ 0 < (qpOf s q).events) ∧
    (∃ (a : Nat) (b : Bytes) (s : State),
      b.length = 64 ∧ a % 64 = 0 ∧ a < 64 * 2 ^ 30 ∧ bar4Serves (lineAt s ((bar4Start s + a) / 64)).kind = true) ∧
    (∃ (a : Nat) (b : Bytes) (s : State),
      b.length = 64 ∧ a % 64 = 0 ∧ a < 64 * 2 ^ 30 ∧ bar4Serves (lineAt s ((bar4Start s + a) / 64)).kind = false) :=
  ⟨⟨5, sQp, by decide +kernel⟩,
   ⟨64 * 2 ^ 30 - 64, zeros 64, z, by decide +kernel⟩,
   ⟨0, zeros 64, modMem (fun m => { m with lines := [(0, { data := zeros 64, owner := 1, kind := 3 })] }) z, by decide +kernel⟩⟩

theorem test_witness_fetches_and_waits :
    (∃ (h : HostCmd) (r : CmdRow) (s : State),
      cmdRow (cmdOp h) = some r ∧ canFetch s h = true) ∧
    (∃ (h : HostCmd) (s : State) (t : State) (f : Fetched),
      Taken 0x34 h s f t ∧ h.qp = 0x4000 ∧ t.hif.notices0 = [] ∧ t.hif.waits0.length < 16) ∧
    (∃ (h : HostCmd) (s : State) (t : State) (f : Fetched),
      Taken 0x34 h s f t ∧ h.qp = 0x4001 ∧ t.hif.notices1 = [] ∧ t.hif.waits1.length < 16) ∧
    (∃ (h : HostCmd) (n : Notice) (ns : List Notice) (s : State) (t : State) (f : Fetched),
      Taken 0x34 h s f t ∧ h.qp = 0x4000 ∧ t.hif.notices0 = n :: ns) ∧
    (∃ (h : HostCmd) (s : State) (t : State) (f : Fetched),
      Taken 0x34 h s f t ∧ h.qp = 0x4000 ∧ t.hif.notices0 = [] ∧ 16 ≤ t.hif.waits0.length) :=
  ⟨⟨cmd 0x34 0 0 0, ⟨.eitherAq, []⟩, modHif (fun x => { x with qps := [(0x4000, { enable := true, sizes := 0x5084, sqTail := 1 })] }) z, rfl, by decide +kernel⟩,
   ⟨cmd 0x34 0 0 0, ring (cmd 0x34 0 0 0) (z), after_ (cmd 0x34 0 0 0) (z), slot (cmd 0x34 0 0 0), taken_ok _ _ _ (by decide +kernel), by decide +kernel⟩,
   ⟨cmd 0x34 0 0 0 [] 0x4001, ring (cmd 0x34 0 0 0 [] 0x4001) (z), after_ (cmd 0x34 0 0 0 [] 0x4001) (z), slot (cmd 0x34 0 0 0 [] 0x4001), taken_ok _ _ _ (by decide +kernel), by decide +kernel⟩,
   ⟨cmd 0x34 0 0 0, ⟨0x51, 0, 3⟩, [], ring (cmd 0x34 0 0 0) (modHif (fun x => { x with notices0 := [⟨0x51, 0, 3⟩] }) z), after_ (cmd 0x34 0 0 0) (modHif (fun x => { x with notices0 := [⟨0x51, 0, 3⟩] }) z), slot (cmd 0x34 0 0 0), taken_ok _ _ _ (by decide +kernel), by decide +kernel⟩,
   ⟨cmd 0x34 0 0 0, ring (cmd 0x34 0 0 0) (modHif (fun x => { x with waits0 := List.replicate 16 ⟨0, 0⟩ }) z), after_ (cmd 0x34 0 0 0) (modHif (fun x => { x with waits0 := List.replicate 16 ⟨0, 0⟩ }) z), slot (cmd 0x34 0 0 0), taken_ok _ _ _ (by decide +kernel), by decide +kernel⟩⟩

theorem test_witness_accounts_and_bindings :
    (∃ (h : HostCmd) (a : Nat) (r : AcctRec) (s : State) (t : State) (f : Fetched),
      Taken 0x2D h s f t ∧ parseAccount (cmdBody h 32) = some (a, r) ∧ t.sec.unlocked = false ∧ acctExists t a = false ∧ t.sched.scrubbing.contains a = false) ∧
    (∃ (h : HostCmd) (a : Nat) (r : AcctRec) (x : Account) (s : State) (t : State) (f : Fetched),
      Taken 0x2E h s f t ∧ parseAccount (cmdBody h 32) = some (a, r) ∧ mget t.sched.accounts a = some x) ∧
    (∃ (h : HostCmd) (x : Account) (s : State) (t : State) (f : Fetched),
      Taken 0x2F h s f t ∧ mget t.sched.accounts (cmdAux h % 4096) = some x ∧ acctHolds t (cmdAux h % 4096) = false) ∧
    (∃ (a : Nat) (s : State),
      s.sched.scrubbing.contains a = true) ∧
    (∃ (h : HostCmd) (s : State) (t : State) (f : Fetched),
      Taken 0x30 h s f t ∧ (qpOf t (cmdAux h % 16384)).bound = none ∧ acctExists t (bitsOf (cmdParam h) 27 16) = true ∧ cmdParam h % 1024 ≤ 513 ∧ fnLive t (cmdParam h % 1024) = true) ∧
    (∃ (h : HostCmd) (s : State) (t : State) (f : Fetched),
      Taken 0x31 h s f t ∧ (∀ e, e ∈ t.gen.entries → e.2.qp ≠ cmdAux h % 16384) ∧ (qpOf t (cmdAux h % 16384)).bound.isSome = true) ∧
    (∃ (h : HostCmd) (s : State) (t : State) (f : Fetched),
      Taken 0x33 h s f t ∧ cmdLen0 h % 128 = 0) :=
  ⟨⟨cmd 0x2D 0 0 0 acctBytes, 1, acct1, ring (cmd 0x2D 0 0 0 acctBytes) (z), after_ (cmd 0x2D 0 0 0 acctBytes) (z), slot (cmd 0x2D 0 0 0 acctBytes), taken_ok _ _ _ (by decide +kernel), by decide +kernel⟩,
   ⟨cmd 0x2E 0 0 0 acctBytes, 1, acct1, { record := acct1 }, ring (cmd 0x2E 0 0 0 acctBytes) (sAcct), after_ (cmd 0x2E 0 0 0 acctBytes) (sAcct), slot (cmd 0x2E 0 0 0 acctBytes), taken_ok _ _ _ (by decide +kernel), by decide +kernel⟩,
   ⟨cmd 0x2F 1 0 0, { record := acct1 }, ring (cmd 0x2F 1 0 0) (modSched (fun d => { d with accounts := [(1, { record := acct1 })] }) z), after_ (cmd 0x2F 1 0 0) (modSched (fun d => { d with accounts := [(1, { record := acct1 })] }) z), slot (cmd 0x2F 1 0 0), taken_ok _ _ _ (by decide +kernel), by decide +kernel⟩,
   ⟨1, modSched (fun d => { d with scrubbing := [1] }) z, by decide +kernel⟩,
   ⟨cmd 0x30 6 0 0x10002, ring (cmd 0x30 6 0 0x10002) (sAcct), after_ (cmd 0x30 6 0 0x10002) (sAcct), slot (cmd 0x30 6 0 0x10002), taken_ok _ _ _ (by decide +kernel), by decide +kernel⟩,
   ⟨cmd 0x31 5 0 0, ring (cmd 0x31 5 0 0) (sAcct), after_ (cmd 0x31 5 0 0) (sAcct), slot (cmd 0x31 5 0 0), taken_ok _ _ _ (by decide +kernel), by simp [after_, ring, sAcct, sQp, z, State.reset], by decide +kernel⟩,
   ⟨cmd 0x33 0 0 0, ring (cmd 0x33 0 0 0) (z), after_ (cmd 0x33 0 0 0) (z), slot (cmd 0x33 0 0 0), taken_ok _ _ _ (by decide +kernel), by decide +kernel⟩⟩

theorem test_witness_function_disables :
    (∃ (h : HostCmd) (s : State) (t : State) (f : Fetched),
      Taken 0x32 h s f t ∧ (∀ e, e ∈ t.gen.entries → e.2.fn ≠ 2 + cmdAux h % 512) ∧ (fnOf t (2 + cmdAux h % 512)).disabling = none) ∧
    (∃ (fn : Nat) (s : State),
      (∀ e, e ∈ s.gen.entries → e.2.fn ≠ fn) ∧ 1 ≤ fn ∧ fn ≤ 513 ∧ (fnOf s fn).disabling = none) ∧
    (∃ (s : State),
      (fnOf s 0).disabling = none ∧ s.gen.entries = [] ∧ s.obj.collections = [] ∧ s.gen.batons = []) ∧
    (∃ (fn : Nat) (s : State),
      (∀ e, e ∈ s.gen.entries → e.2.fn ≠ fn) ∧ fn ≤ 513 ∧ (fnOf s fn).disabling = none) ∧
    (∃ (fn : Nat) (s : State),
      (∀ e, e ∈ s.gen.entries → e.2.fn ≠ fn) ∧ fn ≤ 513 ∧ (fnOf s fn).disabling = none) ∧
    (∃ (fn : Nat) (s : State),
      2 ≤ fn ∧ fn ≤ 513 ∧ s.gen.entries = [] ∧ s.obj.collections = [] ∧ s.gen.batons = []) ∧
    (∃ (fn : Nat) (s : State),
      (∀ e, e ∈ s.gen.entries → e.2.fn ≠ fn) ∧ (fnOf s fn).disabling.isSome = true) :=
  ⟨⟨cmd 0x32 511 0 0, ring (cmd 0x32 511 0 0) (z), after_ (cmd 0x32 511 0 0) (z), slot (cmd 0x32 511 0 0), taken_ok _ _ _ (by decide +kernel), by simp [after_, ring, z, State.reset], by decide +kernel⟩,
   ⟨513, z, by simp [z, State.reset], by decide +kernel⟩,
   ⟨z, by decide +kernel⟩,
   ⟨513, z, by simp [z, State.reset], by decide +kernel⟩,
   ⟨513, z, by simp [z, State.reset], by decide +kernel⟩,
   ⟨513, z, by decide +kernel⟩,
   ⟨2, modFn 2 (fun x => { x with disabling := some 0 }) z, by simp [z, State.reset], by decide +kernel⟩⟩

theorem test_witness_profiles_tokenizers_and_templates :
    (∃ (h : HostCmd) (k : Nat) (x : ProfileSlot) (s : State) (t : State) (f : Fetched),
      Taken 0x20 h s f t ∧ k = rd (cmdBody h 128) 0 1 ∧ k < 64 ∧ x = mgetD t.obj.profiles k {} ∧ x.draining = none ∧ x.held = [] ∧ profileOk t (cmdBody h 128) = true) ∧
    (∃ (h : HostCmd) (s : State) (t : State) (f : Fetched),
      Taken 0x20 h s f t ∧ rd (cmdBody h 128) 0 1 < 64 ∧ (mgetD t.obj.profiles (rd (cmdBody h 128) 0 1) {}).draining = none ∧ (mgetD t.obj.profiles (rd (cmdBody h 128) 0 1) {}).held = [] ∧ profileOk t (cmdBody h 128) = false) ∧
    (∃ (h : HostCmd) (k : Nat) (x : ProfileSlot) (s : State) (t : State) (f : Fetched),
      Taken 0x20 h s f t ∧ k = rd (cmdBody h 128) 0 1 ∧ k < 64 ∧ mget t.obj.profiles k = some x ∧ (x.draining.isSome = true ∨ x.held ≠ [])) ∧
    (∃ (h : HostCmd) (k : Nat) (p : Profile) (x : ProfileSlot) (s : State) (t : State) (f : Fetched),
      Taken 0x21 h s f t ∧ k = cmdAux h % 64 ∧ mget t.obj.profiles k = some x ∧ x.cur = some p ∧ x.draining = none ∧ x.held = []) ∧
    (∃ (k : Nat) (x : ProfileSlot) (l : HeldLoad) (ls : List HeldLoad) (s : State) (v : State),
      v = modObj (fun o => { o with profiles := mmod o.profiles k {} fun y => { y with held := ls } }) (releaseUnused s) ∧ mget (releaseUnused s).obj.profiles k = some x ∧ x.draining = none ∧ x.held = l :: ls ∧ l.record ≠ [] ∧ profileOk v l.record = true) ∧
    (∃ (h : HostCmd) (k : Tokenizer) (slot : Nat) (s : State) (t : State) (f : Fetched),
      Taken 0x24 h s f t ∧ parseTokenizer (cmdBody h (cmdLen0 h)) = some k ∧ tokenizerById t k.id = none ∧ lowestFree t.obj.tokenizers 16 = some slot) ∧
    (∃ (h : HostCmd) (s : State) (t : State) (f : Fetched),
      Taken 0x24 h s f t ∧ (parseTokenizer (cmdBody h (cmdLen0 h)) = none ∨ lowestFree t.obj.tokenizers 16 = none)) ∧
    (∃ (h : HostCmd) (k : Nat × Tokenizer) (s : State) (t : State) (f : Fetched),
      Taken 0x25 h s f t ∧ (∀ p, p ∈ loadedProfiles t → p.mode = 2 ∨ p.tokenizer ≠ cmdAux h) ∧ (t.obj.tokenizers.find? fun x => x.2.id == cmdAux h) = some k) ∧
    (∃ (h : HostCmd) (k : Template) (s : State) (t : State) (f : Fetched),
      Taken 0x26 h s f t ∧ parseTemplate (cmdBody h (cmdLen0 h)) = some k ∧ mget t.obj.templates k.id = none ∧ t.obj.templates.length < 256) ∧
    (∃ (h : HostCmd) (s : State) (t : State) (f : Fetched),
      Taken 0x27 h s f t ∧ (mget t.obj.templates (cmdAux h)).isSome = true ∧ (∀ p, p ∈ loadedProfiles t → p.mode ≠ 0 ∨ p.template ≠ cmdAux h)) :=
  ⟨⟨cmd 0x20 0 0 0 profRec, 5, {}, ring (cmd 0x20 0 0 0 profRec) (sColl), after_ (cmd 0x20 0 0 0 profRec) (sColl), slot (cmd 0x20 0 0 0 profRec), taken_ok _ _ _ (by decide +kernel), by decide +kernel⟩,
   ⟨cmd 0x20 0 0 0 profRec, ring (cmd 0x20 0 0 0 profRec) (z), after_ (cmd 0x20 0 0 0 profRec) (z), slot (cmd 0x20 0 0 0 profRec), taken_ok _ _ _ (by decide +kernel), by decide +kernel⟩,
   ⟨cmd 0x20 0 0 0 profRec, 5, { held := [⟨0, 0, 0, profRec⟩] }, ring (cmd 0x20 0 0 0 profRec) (sProf ({ held := [⟨0, 0, 0, profRec⟩] })), after_ (cmd 0x20 0 0 0 profRec) (sProf ({ held := [⟨0, 0, 0, profRec⟩] })), slot (cmd 0x20 0 0 0 profRec), taken_ok _ _ _ (by decide +kernel), by decide +kernel⟩,
   ⟨cmd 0x21 5 0 0, 5, prof5, { cur := some prof5 }, ring (cmd 0x21 5 0 0) (sProf { cur := some prof5 }), after_ (cmd 0x21 5 0 0) (sProf { cur := some prof5 }), slot (cmd 0x21 5 0 0), taken_ok _ _ _ (by decide +kernel), by decide +kernel⟩,
   ⟨5, { held := [⟨0, 0, 0, profRec⟩] }, ⟨0, 0, 0, profRec⟩, [], sProf { held := [⟨0, 0, 0, profRec⟩] }, modObj (fun o => { o with profiles := mmod o.profiles 5 {} fun y => { y with held := [] } }) (releaseUnused (sProf { held := [⟨0, 0, 0, profRec⟩] })), rfl, by decide +kernel⟩,
   ⟨cmd 0x24 0 5308 0 tokObj, (parseTokenizer tokObj).get tok_parses, 0, ring (cmd 0x24 0 5308 0 tokObj) (z), after_ (cmd 0x24 0 5308 0 tokObj) (z), slot (cmd 0x24 0 5308 0 tokObj), taken_ok _ _ _ (by decide +kernel), by rw [tok_body, Option.some_get], by rfl, by decide +kernel⟩,
   ⟨cmd 0x24 0 0 0, ring (cmd 0x24 0 0 0) (z), after_ (cmd 0x24 0 0 0) (z), slot (cmd 0x24 0 0 0), taken_ok _ _ _ (by decide +kernel), by decide +kernel⟩,
   ⟨cmd 0x25 9 0 0, (0, tok1), ring (cmd 0x25 9 0 0) (modObj (fun o => { o with tokenizers := [(0, tok1)] }) z), after_ (cmd 0x25 9 0 0) (modObj (fun o => { o with tokenizers := [(0, tok1)] }) z), slot (cmd 0x25 9 0 0), taken_ok _ _ _ (by decide +kernel), by simp [loadedProfiles, after_, ring, modQp, modHif, modBoot, modObj, z, State.reset], by decide +kernel⟩,
   ⟨cmd 0x26 0 80 0 tmpl1, template1, ring (cmd 0x26 0 80 0 tmpl1) (z), after_ (cmd 0x26 0 80 0 tmpl1) (z), slot (cmd 0x26 0 80 0 tmpl1), taken_ok _ _ _ (by decide +kernel), by rfl, by decide +kernel⟩,
   ⟨cmd 0x27 1 0 0, ring (cmd 0x27 1 0 0) (modObj (fun o => { o with templates := [(1, template1)] }) z), after_ (cmd 0x27 1 0 0) (modObj (fun o => { o with templates := [(1, template1)] }) z), slot (cmd 0x27 1 0 0), taken_ok _ _ _ (by decide +kernel), by simp [after_, ring, modQp, modHif, modBoot, modObj, mget]; rfl, by simp [loadedProfiles, after_, ring, modQp, modHif, modBoot, modObj, z, State.reset]⟩⟩

theorem test_witness_collections_and_filters :
    (∃ (h : HostCmd) (s : State) (t : State) (f : Fetched),
      Taken 0x28 h s f t ∧ eitherRo t = false ∧ (parseCollection (cmdBody h (cmdLen0 h)) = none ∨ (∃ c, parseCollection (cmdBody h (cmdLen0 h)) = some c ∧ collAdmitted t (rd (cmdBody h (cmdLen0 h)) 0 4) c = false))) ∧
    (∃ (h : HostCmd) (c : Collection) (s : State) (t : State) (f : Fetched),
      Taken 0x28 h s f t ∧ parseCollection (cmdBody h (cmdLen0 h)) = some c ∧ collAdmitted t (rd (cmdBody h (cmdLen0 h)) 0 4) c = true ∧ eitherRo t = false) ∧
    (∃ (h : HostCmd) (c : Collection) (s : State) (t : State) (f : Fetched),
      Taken 0x29 h s f t ∧ (∀ p, p ∈ loadedProfiles t → modeSearches p.mode = false ∨ p.collection ≠ cmdAux h) ∧ eitherRo t = false ∧ cmdAux h < 2 ^ 32 ∧ mget t.obj.collections (cmdAux h) = some c ∧ c.session = none) ∧
    (∃ (h : HostCmd) (c : Collection) (g : Filter) (s : State) (t : State) (f : Fetched),
      Taken 0x0A h s f t ∧ mayRegister t h.qp (cmdBody h (cmdLen0 h)) = true ∧ mget t.obj.collections (rd (cmdBody h (cmdLen0 h)) 8 4) = some c ∧ parseFilter (cmdBody h (cmdLen0 h)) c t.obj.nextFilter = some g ∧ filterUse (dropFilter g.id t) + g.size ≤ 64 * 2 ^ 30) ∧
    (∃ (h : HostCmd) (g : Filter) (s : State) (t : State) (f : Fetched),
      Taken 0x0B h s f t ∧ mget t.obj.filters (cmdAux h % 4096) = some g ∧ holdsFilter t h.qp g = true) :=
  ⟨⟨cmd 0x28 0 0 0, ring (cmd 0x28 0 0 0) (z), after_ (cmd 0x28 0 0 0) (z), slot (cmd 0x28 0 0 0), taken_ok _ _ _ (by decide +kernel), by decide +kernel⟩,
   ⟨cmd 0x28 0 24768 0 collObj, collMade, ring (cmd 0x28 0 24768 0 collObj) (z), after_ (cmd 0x28 0 24768 0 collObj) (z), slot (cmd 0x28 0 24768 0 collObj), taken_ok _ _ _ (by decide +kernel), by rw [coll_body, coll_parses], by rw [coll_body]; exact coll_taken, by decide +kernel⟩,
   ⟨cmd 0x29 3 0 0, coll1, ring (cmd 0x29 3 0 0) (sColl), after_ (cmd 0x29 3 0 0) (sColl), slot (cmd 0x29 3 0 0), taken_ok _ _ _ (by decide +kernel), by simp [loadedProfiles, after_, ring, modQp, modHif, modBoot, modObj, z, State.reset, sColl], by decide +kernel⟩,
   ⟨cmd 0x0A 0 64 0 filt1, coll1, filter1, ring (cmd 0x0A 0 64 0 filt1) (sColl), after_ (cmd 0x0A 0 64 0 filt1) (sColl), slot (cmd 0x0A 0 64 0 filt1), taken_ok _ _ _ (by decide +kernel), by decide +kernel⟩,
   ⟨cmd 0x0B 4095 0 0, filter1, ring (cmd 0x0B 4095 0 0) (modObj (fun o => { o with filters := [(4095, filter1)] }) z), after_ (cmd 0x0B 4095 0 0) (modObj (fun o => { o with filters := [(4095, filter1)] }) z), slot (cmd 0x0B 4095 0 0), taken_ok _ _ _ (by decide +kernel), by decide +kernel⟩⟩

theorem test_witness_ingest_and_rollback :
    (∃ (h : HostCmd) (c : Collection) (s : State) (t : State) (f : Fetched),
      Taken 0x06 h s f t ∧ eitherRo t = false ∧ mget t.obj.collections (cmdAux h) = some c ∧ mayIngest t h.qp c = true ∧ c.session = none ∧ c.frozen = false ∧ c.highest + 1 < 0xFFFFFFFF) ∧
    (∃ (h : HostCmd) (c : Collection) (x : Session) (i : Item) (s : State) (t : State) (f : Fetched),
      Taken 0x07 h s f t ∧ sessionFor t h.qp c = .ok x ∧ eitherRo t = false ∧ mget t.obj.collections (cmdAux h) = some c ∧ f.late = false ∧ ingestFault c.desc (cmdLen0 h) (cmdBody h (cmdLen0 h)) = none ∧ rd (cmdBody h (cmdLen0 h)) 0 1 = 2 ∧ mget c.items (rd (cmdBody h (cmdLen0 h)) 8 8) = some i ∧ i.visible c.epoch = true) ∧
    (∃ (h : HostCmd) (c : Collection) (x : Session) (s : State) (t : State) (f : Fetched),
      Taken 0x07 h s f t ∧ sessionFor t h.qp c = .ok x ∧ eitherRo t = false ∧ mget t.obj.collections (cmdAux h) = some c ∧ f.late = false ∧ ingestFault c.desc (cmdLen0 h) (cmdBody h (cmdLen0 h)) = none ∧ rd (cmdBody h (cmdLen0 h)) 0 1 ≠ 2 ∧ rd (cmdBody h (cmdLen0 h)) 4 4 ≤ c.desc.textMax ∧ c.nextId < c.desc.idBase + c.desc.idSpan) ∧
    (∃ (h : HostCmd) (c : Collection) (x : Session) (s : State) (t : State) (f : Fetched),
      Taken 0x07 h s f t ∧ sessionFor t h.qp c = .ok x ∧ eitherRo t = false ∧ mget t.obj.collections (cmdAux h) = some c ∧ f.late = true) ∧
    (∃ (h : HostCmd) (c : Collection) (x : Session) (s : State) (t : State) (f : Fetched),
      Taken 0x08 h s f t ∧ sessionFor t h.qp c = .ok x ∧ eitherRo t = false ∧ mget t.obj.collections (cmdAux h) = some c ∧ x.committing = none) ∧
    (∃ (coll : Nat) (c : Collection) (x : Session) (w : Nat × Nat × Nat) (s : State),
      mget s.obj.collections coll = some c ∧ c.session = some x ∧ x.committing = some w ∧ eitherRo s = false ∧ s.flash.stopped = false) ∧
    (∃ (h : HostCmd) (c : Collection) (x : Session) (s : State) (t : State) (f : Fetched),
      Taken 0x09 h s f t ∧ sessionFor t h.qp c = .ok x ∧ mget t.obj.collections (cmdAux h) = some c ∧ x.committing = none) ∧
    (∃ (n : Nat) (c : Collection) (i : Item),
      mget c.items n = some i) :=
  ⟨⟨cmd 6 3 0 0, coll1, ring (cmd 6 3 0 0) (sColl), after_ (cmd 6 3 0 0) (sColl), slot (cmd 6 3 0 0), taken_ok _ _ _ (by decide +kernel), by decide +kernel⟩,
   ⟨cmd 7 3 16 0 [2], { coll2 with epoch := 0 }, ses1, item1, ring (cmd 7 3 16 0 [2]) (sSes), after_ (cmd 7 3 16 0 [2]) (sSes), slot (cmd 7 3 16 0 [2]), taken_ok _ _ _ (by decide +kernel), by rfl, by decide +kernel⟩,
   ⟨cmd 7 3 (20 + desc1.vecLen) 0 ([1, 0, 0, 0, 1] ++ zeros (15 + desc1.vecLen)), coll2, ses1, ring (cmd 7 3 (20 + desc1.vecLen) 0 ([1, 0, 0, 0, 1] ++ zeros (15 + desc1.vecLen))) (sSes), after_ (cmd 7 3 (20 + desc1.vecLen) 0 ([1, 0, 0, 0, 1] ++ zeros (15 + desc1.vecLen))) (sSes), slot (cmd 7 3 (20 + desc1.vecLen) 0 ([1, 0, 0, 0, 1] ++ zeros (15 + desc1.vecLen))), taken_ok _ _ _ (by decide +kernel), by rfl, by decide +kernel⟩,
   ⟨cmd 7 3 16 0 [2], coll2, ses1, ringLate (cmd 7 3 16 0 [2]) sSes, modQp 0x4000 (fun x => { x with fetched := eraseFetched (cmd 7 3 16 0 [2]).slots x.fetched }) (ringLate (cmd 7 3 16 0 [2]) sSes), { slot (cmd 7 3 16 0 [2]) with late := true }, taken_late _ _ _ (by decide +kernel), by rfl, by decide +kernel⟩,
   ⟨cmd 8 3 0 0, coll2, ses1, ring (cmd 8 3 0 0) (sSes), after_ (cmd 8 3 0 0) (sSes), slot (cmd 8 3 0 0), taken_ok _ _ _ (by decide +kernel), by rfl, by decide +kernel⟩,
   ⟨3, { coll2 with session := some { ses1 with committing := some (0, 0, 0) } }, { ses1 with committing := some (0, 0, 0) }, (0, 0, 0), modObj (fun o => { o with collections := [(3, { coll2 with session := some { ses1 with committing := some (0, 0, 0) } })] }) z, by decide +kernel⟩,
   ⟨cmd 9 3 0 0, coll2, ses1, ring (cmd 9 3 0 0) (sSes), after_ (cmd 9 3 0 0) (sSes), slot (cmd 9 3 0 0), taken_ok _ _ _ (by decide +kernel), by rfl, by decide +kernel⟩,
   ⟨0, coll1, item1, by decide +kernel⟩⟩

theorem test_witness_tables_and_versions_5 (hs : verOp (verCmd 3) 3 ≤ 8) :
    (∃ (h : HostCmd) (k : Nat) (x : Table) (v : Version) (s : State) (t : State) (f : Fetched),
      Taken 0x2C h s f t ∧ verTable h t = some (k, x) ∧ mget x.versions (verOp h 0) = some v ∧ v.cond ≠ .retired ∧ verOp h 1 + verOp h 2 ≤ x.nRows ∧ verOp h 3 ≤ 8 ∧ cmdParam h % 4 = 3 ∧ x.pins.length < 64) :=
  ⟨verCmd 3, 0, tableP, { cond := .live }, ring (verCmd 3) (sTab tableP), after_ (verCmd 3) (sTab tableP), slot (verCmd 3), taken_ok _ _ _ (by decide +kernel), verTable_ok _ _ (by decide +kernel) (by decide +kernel), tableP_get, by decide +kernel, Nat.le_refl _, hs, by decide +kernel⟩

theorem test_witness_tables_and_versions_6 (hs : 8 < verOp (verCmd 3) 3) :
    (∃ (h : HostCmd) (k : Nat) (x : Table) (s : State) (t : State) (f : Fetched),
      Taken 0x2C h s f t ∧ verTable h t = some (k, x) ∧ (x.nRows < verOp h 1 + verOp h 2 ∨ 8 < verOp h 3) ∧ cmdParam h % 4 = 3) :=
  ⟨verCmd 3, 0, tableV (verCmd 3) .live, ring (verCmd 3) (sTab (tableV (verCmd 3) .live)), after_ (verCmd 3) (sTab (tableV (verCmd 3) .live)), slot (verCmd 3), taken_ok _ _ _ (by decide +kernel), verTable_ok _ _ (by decide +kernel) (by decide +kernel), .inr hs, by decide +kernel⟩

theorem test_witness_tables_and_versions :
    (∃ (h : HostCmd) (x : Table) (k : Nat) (s : State) (t : State) (f : Fetched),
      Taken 0x2A h s f t ∧ storedBytes t + x.reservedRows * slotBytesOf x.fmt x.rowElems ≤ usableBytes t 1 ∧ t.flash.storeRo = false ∧ parseTable (cmdBody h (cmdLen0 h)) = some x ∧ freeTableSlot t = some k ∧ tableSlot t x.id = none ∧ shadowOk t x = true ∧ (x.shared = true ∨ acctExists t x.owner = true) ∧ (t.obj.tables.map fun y => y.2.reserved).sum + x.reserved ≤ 120 * 10 ^ 12) ∧
    (∃ (h : HostCmd) (k : Nat) (s : State) (t : State) (f : Fetched),
      Taken 0x2B h s f t ∧ tableSlot t (cmdAux h) = some k ∧ (t.obj.tables.filter fun x => x.2.id == cmdAux h && !x.2.deleted).length = 1) ∧
    (∃ (h : HostCmd) (k : Nat) (x : Table) (b : Version) (v : Version) (l : Map Bytes) (s : State) (t : State) (f : Fetched),
      Taken 0x2C h s f t ∧ verTable h t = some (k, x) ∧ (if verOp h 0 = 0 then b = { cond := .live } else mget x.versions (verOp h 0) = some b ∧ b.cond ≠ .retired) ∧ (if h.stop = [] then l = [] else rowList (slotBytesOf x.fmt x.rowElems) x.nRows (if x.sparse then some x.capacity else none) h.stop = some l) ∧ v = { cond := .live, rows := l.foldl (fun m e => mset m e.1 e.2) b.rows, shares := if verOp h 0 = 0 then [] else verOp h 0 :: b.shares, dirty := b.dirty.filter fun d => !mhas l d.1, homes := b.homes.filter fun d => !mhas l d.1 } ∧ storedBytes (modTable k (fun y => { y with highest := (x.highest + 1) % 2 ^ 32, versions := mset y.versions ((x.highest + 1) % 2 ^ 32) v }) t) ≤ usableBytes t 1 ∧ cmdParam h % 4 = 0 ∧ t.flash.storeRo = false ∧ (x.sparse = false ∨ v.rows.length ≤ x.capacity) ∧ x.versions.length < 8) ∧
    (∃ (h : HostCmd) (k : Nat) (x : Table) (v : Version) (s : State) (t : State) (f : Fetched),
      Taken 0x2C h s f t ∧ verTable h t = some (k, x) ∧ mget x.versions (verOp h 0) = some v ∧ v.cond ≠ .retired ∧ cmdParam h % 4 = 1) ∧
    (∃ (h : HostCmd) (k : Nat) (x : Table) (v : Version) (s : State) (t : State) (f : Fetched),
      Taken 0x2C h s f t ∧ verTable h t = some (k, x) ∧ mget x.versions (verOp h 0) = some v ∧ v.cond ≠ .current ∧ cmdParam h % 4 = 2) :=
  ⟨⟨cmd 0x2A 0 128 0 tab9, table9, 0, ring (cmd 0x2A 0 128 0 tab9) (z), after_ (cmd 0x2A 0 128 0 tab9) (z), slot (cmd 0x2A 0 128 0 tab9), taken_ok _ _ _ (by decide +kernel), usable_ok _ _ (by decide +kernel) (by decide +kernel), by decide +kernel⟩,
   ⟨cmd 0x2B 9 0 0, 0, ring (cmd 0x2B 9 0 0) (sTab table9), after_ (cmd 0x2B 9 0 0) (sTab table9), slot (cmd 0x2B 9 0 0), taken_ok _ _ _ (by decide +kernel), by decide +kernel⟩,
   ⟨verCmd 0, 0, tableV (verCmd 0) .live, { cond := .live }, { cond := .live, shares := if verOp (verCmd 0) 0 = 0 then [] else [verOp (verCmd 0) 0] }, [], ring (verCmd 0) (sTab (tableV (verCmd 0) .live)), after_ (verCmd 0) (sTab (tableV (verCmd 0) .live)), slot (verCmd 0), taken_ok _ _ _ (by decide +kernel), verTable_ok _ _ (by decide +kernel) (by decide +kernel), by split; rfl; exact ⟨tableV_get _ _, by decide⟩, by rw [if_pos (by decide +kernel)], by rfl, Nat.le_trans (Nat.le_of_eq (newVersion_stored _ _ rfl (tableV (verCmd 0) .live) (by decide) rfl _ _)) (usable_ok _ _ (by decide +kernel) (by decide +kernel)), by decide +kernel⟩,
   ⟨verCmd 1, 0, tableV (verCmd 1) .live, { cond := .live }, ring (verCmd 1) (sTab (tableV (verCmd 1) .live)), after_ (verCmd 1) (sTab (tableV (verCmd 1) .live)), slot (verCmd 1), taken_ok _ _ _ (by decide +kernel), verTable_ok _ _ (by decide +kernel) (by decide +kernel), tableV_get _ _, by decide +kernel, by decide +kernel⟩,
   ⟨verCmd 2, 0, tableV (verCmd 2) .live, { cond := .live }, ring (verCmd 2) (sTab (tableV (verCmd 2) .live)), after_ (verCmd 2) (sTab (tableV (verCmd 2) .live)), slot (verCmd 2), taken_ok _ _ _ (by decide +kernel), verTable_ok _ _ (by decide +kernel) (by decide +kernel), tableV_get _ _, by decide +kernel, by decide +kernel⟩⟩

theorem test_witness_hot_rows_and_deltas :
    (∃ (id : Nat) (v : Nat) (row : Nat) (n : Nat) (k : Nat) (t : Table) (x : Version) (s : State),
      rowOf s id v = some (k, t, x) ∧ row < t.nRows ∧ x.cond ≠ .retired ∧ s.obj.tblCtl.toNat % 4 = 0 ∧ mget x.hot row = none ∧ (grantedReplicas s k t v row n).1 ≠ []) ∧
    (∃ (id : Nat) (v : Nat) (row : Nat) (k : Nat) (t : Table) (x : Version) (r : HotRow) (s : State),
      rowOf s id v = some (k, t, x) ∧ mget x.hot row = some r ∧ r.state = .copyingUp) ∧
    (∃ (id : Nat) (v : Nat) (row : Nat) (k : Nat) (t : Table) (x : Version) (r : HotRow) (s : State),
      rowOf s id v = some (k, t, x) ∧ mget x.hot row = some r ∧ r.state = .copyingUp ∧ r.holding = true ∧ r.heldAdds = [] ∧ r.wanted = none ∧ x.cond ≠ .retired) ∧
    (∃ (id : Nat) (v : Nat) (row : Nat) (k : Nat) (t : Table) (x : Version) (r : HotRow) (s : State),
      rowOf s id v = some (k, t, x) ∧ pinnedCount t v row = none ∧ mget x.hot row = some r ∧ r.state = .replicated) ∧
    (∃ (id : Nat) (v : Nat) (row : Nat) (k : Nat) (t : Table) (x : Version) (r : HotRow) (s : State),
      rowOf s id v = some (k, t, x) ∧ mget x.hot row = some r ∧ r.state = .copyingDown ∧ r.wanted = none) ∧
    (∃ (id : Nat) (v : Nat) (row : Nat) (k : Nat) (t : Table) (x : Version) (s : State),
      (s.obj.tables.find? fun y => y.2.id == id) = some (k, t) ∧ mget s.obj.tables k = some t ∧ t.addable = true ∧ row < t.nRows ∧ mget t.versions v = some x ∧ x.cond ≠ .retired ∧ mget x.hot row = none ∧ ((mget x.rows row).isSome = true ∨ t.sparse = false ∨ x.rows.length < t.capacity)) ∧
    (∃ (id : Nat) (v : Nat) (row : Nat) (k : Nat) (t : Table) (x : Version) (s : State),
      (s.obj.tables.find? fun y => y.2.id == id) = some (k, t) ∧ mget s.obj.tables k = some t ∧ t.addable = true ∧ row < t.nRows ∧ mget t.versions v = some x ∧ x.cond = .retired) ∧
    (∃ (id : Nat) (row : Nat) (k : Nat) (t : Table) (s : State),
      (s.obj.tables.find? fun y => y.2.id == id) = some (k, t) ∧ mget s.obj.tables k = some t ∧ t.addable = true ∧ t.nRows ≤ row) ∧
    (∃ (id : Nat) (v : Nat) (row : Nat) (k : Nat) (t : Table) (x : Version) (s : State),
      rowOf s id v = some (k, t, x) ∧ s.flash.storeRo = false ∧ mhas x.dirty row = true) :=
  ⟨⟨9, 1, 0, 1, 0, { tabH [] with maxReplicas := 2 }, ver1 ([]), modMem (fun m => { m with stackTab := (List.range 20).map fun k => (k, { ok := true }) }) <| modMgmt (fun m => { m with replBudget := 1 }) (sTab { tabH [] with maxReplicas := 2 }), by decide +kernel⟩,
   ⟨9, 1, 0, 0, tabH ([(0, up1)]), ver1 ([(0, up1)]), up1, sTab (tabH ([(0, up1)])), by decide +kernel⟩,
   ⟨9, 1, 0, 0, tabH ([(0, up1)]), ver1 ([(0, up1)]), up1, sTab (tabH ([(0, up1)])), by decide +kernel⟩,
   ⟨9, 1, 0, 0, tabH ([(0, rep1)]), ver1 ([(0, rep1)]), rep1, sTab (tabH ([(0, rep1)])), by decide +kernel⟩,
   ⟨9, 1, 0, 0, tabH ([(0, down1)]), ver1 ([(0, down1)]), down1, sTab (tabH ([(0, down1)])), by decide +kernel⟩,
   ⟨9, 1, 0, 0, tabA (ver1 []), ver1 [], sTab (tabA (ver1 [])), by decide +kernel⟩,
   ⟨9, 1, 0, 0, tabA ({ cond := .retired }), { cond := .retired }, sTab (tabA ({ cond := .retired })), by decide +kernel⟩,
   ⟨9, 4, 0, tabA (ver1 []), sTab (tabA (ver1 [])), by decide +kernel⟩,
   ⟨9, 1, 0, 0, tabA { cond := .current, dirty := [(0, 0)] }, { cond := .current, dirty := [(0, 0)] }, sTab (tabA { cond := .current, dirty := [(0, 0)] }), by decide +kernel⟩⟩

theorem test_witness_image_commands_3 (hs : imgSigned 0) :
    (∃ (h : HostCmd) (o : Bytes) (owner : Option Nat) (p : ImageParts) (i : Image) (k : Nat) (s : State) (t : State) (v : State) (f : Fetched),
      Taken 0x22 h s f t ∧ o = cmdBody h (cmdLen0 h) ∧ v = evCount 12 2 1 t ∧ imageReason v owner o = none ∧ i = imageOf o p owner (bitsOf (cmdParam h) 39 16) ∧ k = freeHandle t.obj.images (Config.handleChoice t.obj.handleDraws).toNat (t.obj.images.length + 2) ∧ owner = (if (cmdParam h).testBit 15 then none else some (cmdParam h % 4096)) ∧ ((rd o 6 1 == 2 || rd o 6 1 == 3) = decide (0 < bitsOf (cmdParam h) 39 16)) ∧ sameImage t owner o = none ∧ imageParts o = some p ∧ i.payload.length + bitsOf (cmdParam h) 39 16 * i.pageBytes ≤ freeBrixjo v) :=
  ⟨imgCmd 0, imgBody 0, none, ((imageParts (imgBody 0)).getD noParts), (imageOf (imgBody 0) ((imageParts (imgBody 0)).getD noParts) none 0), (freeHandle (after_ (imgCmd 0) z).obj.images (Config.handleChoice (after_ (imgCmd 0) z).obj.handleDraws).toNat ((after_ (imgCmd 0) z).obj.images.length + 2)), ring (imgCmd 0) (z), after_ (imgCmd 0) (z), imgState 0, slot (imgCmd 0), taken_ok _ _ _ (by decide +kernel), rfl, rfl, image_valid_0 hs, image_pages 0 (.inl rfl), rfl, by decide +kernel⟩

theorem test_witness_image_commands_4 (hs : imgSigned 64) :
    (∃ (h : HostCmd) (o : Bytes) (owner : Option Nat) (p : ImageParts) (i : Image) (s : State) (t : State) (v : State) (f : Fetched),
      Taken 0x22 h s f t ∧ o = cmdBody h (cmdLen0 h) ∧ v = evCount 12 2 1 t ∧ imageReason v owner o = none ∧ i = imageOf o p owner (bitsOf (cmdParam h) 39 16) ∧ owner = (if (cmdParam h).testBit 15 then none else some (cmdParam h % 4096)) ∧ ((rd o 6 1 == 2 || rd o 6 1 == 3) = decide (0 < bitsOf (cmdParam h) 39 16)) ∧ sameImage t owner o = none ∧ imageParts o = some p ∧ freeBrixjo v < i.payload.length + bitsOf (cmdParam h) 39 16 * i.pageBytes) :=
  ⟨imgCmd 64, imgBody 64, none, ((imageParts (imgBody 64)).getD noParts), (imageOf (imgBody 64) ((imageParts (imgBody 64)).getD noParts) none 0), ring (imgCmd 64) (z), after_ (imgCmd 64) (z), imgState 64, slot (imgCmd 64), taken_ok _ _ _ (by decide +kernel), rfl, rfl, image_valid_64 hs, image_pages 64 (.inr rfl), by decide +kernel⟩

theorem test_witness_image_commands :
    (∃ (h : HostCmd) (s : State) (t : State) (f : Fetched),
      Taken 0x22 h s f t ∧ ((rd (cmdBody h (cmdLen0 h)) 6 1 == 2 || rd (cmdBody h (cmdLen0 h)) 6 1 == 3) ≠ decide (0 < bitsOf (cmdParam h) 39 16))) ∧
    (∃ (h : HostCmd) (k : Nat) (s : State) (t : State) (f : Fetched),
      Taken 0x22 h s f t ∧ ((rd (cmdBody h (cmdLen0 h)) 6 1 == 2 || rd (cmdBody h (cmdLen0 h)) 6 1 == 3) = decide (0 < bitsOf (cmdParam h) 39 16)) ∧ sameImage t (if (cmdParam h).testBit 15 then none else some (cmdParam h % 4096)) (cmdBody h (cmdLen0 h)) = some k) ∧
    (∃ (h : HostCmd) (o : Bytes) (owner : Option Nat) (r : Nat) (s : State) (t : State) (v : State) (f : Fetched),
      Taken 0x22 h s f t ∧ o = cmdBody h (cmdLen0 h) ∧ v = evCount 12 2 1 t ∧ owner = (if (cmdParam h).testBit 15 then none else some (cmdParam h % 4096)) ∧ ((rd o 6 1 == 2 || rd o 6 1 == 3) = decide (0 < bitsOf (cmdParam h) 39 16)) ∧ sameImage t owner o = none ∧ imageReason v owner o = some r) ∧
    (∃ (h : HostCmd) (i : Image) (s : State) (t : State) (f : Fetched),
      Taken 0x23 h s f t ∧ (∀ p, p ∈ loadedProfiles t → p.encoder ≠ cmdParam h % 2 ^ 32 ∧ p.reranker ≠ cmdParam h % 2 ^ 32 ∧ p.generator ≠ cmdParam h % 2 ^ 32 ∧ p.draft ≠ cmdParam h % 2 ^ 32) ∧ mget t.obj.images (cmdParam h % 2 ^ 32) = some i ∧ i.unloaded = false) :=
  ⟨⟨cmd 0x22 0 16 0x18000 imgHead, ring (cmd 0x22 0 16 0x18000 imgHead) (z), after_ (cmd 0x22 0 16 0x18000 imgHead) (z), slot (cmd 0x22 0 16 0x18000 imgHead), taken_ok _ _ _ (by decide +kernel), by decide +kernel⟩,
   ⟨cmd 0x22 0 16 0x8000 imgHead, 5, ring (cmd 0x22 0 16 0x8000 imgHead) (sImg), after_ (cmd 0x22 0 16 0x8000 imgHead) (sImg), slot (cmd 0x22 0 16 0x8000 imgHead), taken_ok _ _ _ (by decide +kernel), by decide +kernel⟩,
   ⟨cmd 0x22 0 16 0x8000 imgHead, cmdBody (cmd 0x22 0 16 0x8000 imgHead) (cmdLen0 (cmd 0x22 0 16 0x8000 imgHead)), none, 1, ring (cmd 0x22 0 16 0x8000 imgHead) (z), after_ (cmd 0x22 0 16 0x8000 imgHead) (z), evCount 12 2 1 (after_ (cmd 0x22 0 16 0x8000 imgHead) z), slot (cmd 0x22 0 16 0x8000 imgHead), taken_ok _ _ _ (by decide +kernel), rfl, rfl, by decide +kernel⟩,
   ⟨cmd 0x23 0 0 5, img1, ring (cmd 0x23 0 0 5) (sImg), after_ (cmd 0x23 0 0 5) (sImg), slot (cmd 0x23 0 0 5), taken_ok _ _ _ (by decide +kernel), by simp [loadedProfiles, after_, ring, modQp, modHif, modBoot, modObj, z, State.reset, sImg, sQp], by decide +kernel⟩⟩

theorem test_witness_requests_runs_and_batons :
    (∃ (h : HostCmd) (p : Profile) (fn : Nat) (acct : Nat) (e : Nat) (fs : List Filter) (pins : List (Nat × Nat × Option Nat)) (s : State) (t : State) (f : Fetched),
      takeCmd h s = some (f, t) ∧ admitChecks t h acct p = .ok (fs, pins) ∧ cmdOp h = 1 ∧ requestProfile t h = some p ∧ requestSlotFault t h (some p) = none ∧ isAdmin h.qp = false ∧ (t.boot.level = 1 ∨ t.boot.level = 2) ∧ (qpOf t h.qp).bound = some (fn, acct) ∧ requestRecordFault t h p = none ∧ freeEntry t = some e) ∧
    (∃ (h : HostCmd) (d : Nat) (s : State) (t : State) (f : Fetched),
      takeCmd h s = some (f, t) ∧ cmdOp h = 1 ∧ requestSlotFault t h (requestProfile t h) = some d ∧ cmdReport h = 0) ∧
    (∃ (h : HostCmd) (s : State) (t : State) (f : Fetched),
      takeCmd h s = some (f, t) ∧ cmdOp h = 1 ∧ requestProfile t h = none ∧ requestSlotFault t h none = none ∧ isAdmin h.qp = false ∧ (t.boot.level = 1 ∨ t.boot.level = 2) ∧ cmdReport h = 0) ∧
    (∃ (h : HostCmd) (i : Image) (fn : Nat) (acct : Nat) (e : Nat) (pins : List (Nat × Nat × Option Nat)) (s : State) (t : State) (f : Fetched),
      Taken 4 h s f t ∧ checkBinds t acct i.tables = .ok pins ∧ liveEntry t h.qp (cmdTag h) = none ∧ cmdLen0 h % 16 = 0 ∧ cmdReport h % 64 = 0 ∧ mget t.obj.images (cmdParam h % 2 ^ 32) = some i ∧ (qpOf t h.qp).bound = some (fn, acct) ∧ i.unloaded = false ∧ (i.shared = true ∨ i.owner = acct) ∧ bindingFault i (cmdBody h (cmdLen0 h)) (cmdLen0 h / 16) = none ∧ freeEntry t = some e) ∧
    (∃ (h : HostCmd) (e : Nat) (x : RtEntry) (s : State) (t : State) (f : Fetched),
      Taken 2 h s f t ∧ cmdLen0 h ≤ 16777216 ∧ openRequest t h.qp (cmdParam h) = some e ∧ mget t.gen.entries e = some x ∧ (x.work.stage ≠ 2 ∨ x.work.tokenizer = none)) ∧
    (∃ (h : HostCmd) (e : Nat) (x : RtEntry) (tk : Tokenizer) (r : List Nat × Nat × TextIn) (s : State) (t : State) (f : Fetched),
      Taken 2 h s f t ∧ r = feed tk x.work.textOpts ((cmdFlags h).testBit 0) x.work.lane (x.work.input ++ cmdBody h (cmdLen0 h)) ∧ cmdLen0 h ≤ 16777216 ∧ openRequest t h.qp (cmdParam h) = some e ∧ mget t.gen.entries e = some x ∧ x.work.stage = 2 ∧ x.work.tokenizer = some tk) ∧
    (∃ (h : HostCmd) (s : State) (t : State) (f : Fetched),
      Taken 2 h s f t ∧ cmdLen0 h ≤ 16777216 ∧ openRequest t h.qp (cmdParam h) = none) ∧
    (∃ (h : HostCmd) (k : Nat) (a : Nat) (b : Baton) (s : State) (t : State) (f : Fetched),
      Taken 5 h s f t ∧ batonSlot t (cmdParam h) = some k ∧ qpAccount t h.qp = some a ∧ mget t.gen.batons k = some b ∧ b.live = true ∧ b.account = a) :=
  ⟨⟨reqCmd, prof5, 2, 1, 0, [], [], ring reqCmd sReq, after_ reqCmd sReq, slot reqCmd, take_ok _ _ (by decide +kernel), by rfl, by decide +kernel⟩,
   ⟨cmd 1 0 0 0 [] 5, 1, ring (cmd 1 0 0 0 [] 5) sQp, after_ (cmd 1 0 0 0 [] 5) sQp, slot (cmd 1 0 0 0 [] 5), take_ok _ _ (by decide +kernel), by decide +kernel⟩,
   ⟨reqCmd, ring reqCmd sQp, after_ reqCmd sQp, slot reqCmd, take_ok _ _ (by decide +kernel), by decide +kernel⟩,
   ⟨cmd 4 0 0 5 [] 5, img1, 2, 1, 0, [], ring (cmd 4 0 0 5 [] 5) (sImg), after_ (cmd 4 0 0 5 [] 5) (sImg), slot (cmd 4 0 0 5 [] 5), taken_ok _ _ _ (by decide +kernel), by rfl, by decide +kernel⟩,
   ⟨cmd 2 0 0 9 [] 5, 0, { ent1 with work := { inputDone := false } }, ring (cmd 2 0 0 9 [] 5) (sEnt { ent1 with work := { inputDone := false } }), after_ (cmd 2 0 0 9 [] 5) (sEnt { ent1 with work := { inputDone := false } }), slot (cmd 2 0 0 9 [] 5), taken_ok _ _ _ (by decide +kernel), by decide +kernel⟩,
   ⟨cmd 2 0 0 9 [] 5, 0, { ent1 with work := { stage := 2, inputDone := false, tokenizer := some tok1 } }, tok1, feed tok1 0 ((cmdFlags (cmd 2 0 0 9 [] 5)).testBit 0) {} ([] ++ cmdBody (cmd 2 0 0 9 [] 5) (cmdLen0 (cmd 2 0 0 9 [] 5))), ring (cmd 2 0 0 9 [] 5) (sEnt ({ ent1 with work := { stage := 2, inputDone := false, tokenizer := some tok1 } })), after_ (cmd 2 0 0 9 [] 5) (sEnt ({ ent1 with work := { stage := 2, inputDone := false, tokenizer := some tok1 } })), slot (cmd 2 0 0 9 [] 5), taken_ok _ _ _ (by decide +kernel), by rfl, by decide +kernel⟩,
   ⟨cmd 2 0 0 9 [] 5, ring (cmd 2 0 0 9 [] 5) (sQp), after_ (cmd 2 0 0 9 [] 5) (sQp), slot (cmd 2 0 0 9 [] 5), taken_ok _ _ _ (by decide +kernel), by decide +kernel⟩,
   ⟨cmd 5 0 0 65536 [] 5, 0, 1, bat1, ring (cmd 5 0 0 65536 [] 5) (sBat), after_ (cmd 5 0 0 65536 [] 5) (sBat), slot (cmd 5 0 0 65536 [] 5), taken_ok _ _ _ (by decide +kernel), by decide +kernel⟩⟩

theorem test_witness_stages_and_cancels :
    (∃ (e : Nat) (x : RtEntry) (p : Profile) (s : State),
      mget s.gen.entries e = some x ∧ x.work.profile = some p ∧ x.state = .pre ∧ x.mode = 2 ∧ x.work.stage = 1 ∧ x.work.pinsLeft = 0 ∧ x.work.search.tag = none ∧ x.cancelPending = false ∧ x.work.disabled = false ∧ x.work.pendingFault = none ∧ (x.deadline = 0 ∨ now s < x.deadline) ∧ entryUnits s e = []) ∧
    (∃ (e : Nat) (x : RtEntry) (p : Profile) (tk : Tokenizer) (r : List Nat × Nat × TextIn) (s : State),
      r = feed tk x.work.textOpts x.work.inputDone x.work.lane x.work.input ∧ mget s.gen.entries e = some x ∧ x.work.profile = some p ∧ x.state = .pre ∧ x.mode ≠ 2 ∧ x.mode ≠ 4 ∧ x.work.stage = 1 ∧ x.work.pinsLeft = 0 ∧ x.work.search.tag = none ∧ x.cancelPending = false ∧ x.work.disabled = false ∧ x.work.pendingFault = none ∧ (x.deadline = 0 ∨ now s < x.deadline) ∧ entryUnits s e = [] ∧ x.work.tokenizer = some tk) ∧
    (∃ (e : Nat) (x : RtEntry) (p : Profile) (s : State),
      mget s.gen.entries e = some x ∧ x.work.profile = some p ∧ x.state = .pre ∧ x.mode ≠ 4 ∧ x.work.stage = 1 ∧ x.work.pinsLeft = 0 ∧ x.work.search.tag = none ∧ x.cancelPending = true ∧ x.work.disabled = false ∧ entryUnits s e = []) ∧
    (∃ (e : Nat) (x : RtEntry) (p : Profile) (s : State),
      mget s.gen.entries e = some x ∧ x.work.profile = some p ∧ x.state = .pre ∧ x.mode ≠ 4 ∧ x.work.stage = 1 ∧ x.work.pinsLeft = 0 ∧ x.work.search.tag = none ∧ x.cancelPending = false ∧ x.work.disabled = false ∧ x.work.pendingFault = none ∧ x.deadline ≠ 0 ∧ x.deadline ≤ now s ∧ entryUnits s e = []) ∧
    (∃ (e : Nat) (x : RtEntry) (p : Profile) (s : State),
      mget s.gen.entries e = some x ∧ x.work.profile = some p ∧ x.work.stage = 1 ∧ x.work.pinsLeft ≠ 0) ∧
    (∃ (e : Nat) (x : RtEntry) (s : State),
      mget s.gen.entries e = some x ∧ x.state = .drain ∧ x.work.completed = true ∧ x.work.pagesReturned = true) ∧
    (∃ (h : HostCmd) (e : Nat) (x : RtEntry) (s : State) (t : State) (f : Fetched),
      Taken 3 h s f t ∧ (qpOf t (cmdAux h % 16384)).bound = (qpOf t h.qp).bound ∧ (qpOf t h.qp).bound.isSome = true ∧ liveEntry t (cmdAux h % 16384) (cmdParam h) = some e ∧ mget t.gen.entries e = some x ∧ (x.state = .step ∨ (x.state = .pre ∧ idlePre x = false ∧ x.work.stage ≠ 5 ∧ x.work.stage ≠ 6))) ∧
    (∃ (h : HostCmd) (e : Nat) (x : RtEntry) (s : State) (t : State) (f : Fetched),
      Taken 3 h s f t ∧ (qpOf t (cmdAux h % 16384)).bound = (qpOf t h.qp).bound ∧ (qpOf t h.qp).bound.isSome = true ∧ liveEntry t (cmdAux h % 16384) (cmdParam h) = some e ∧ mget t.gen.entries e = some x ∧ x.state = .pre ∧ idlePre x = false ∧ (x.work.stage = 5 ∨ x.work.stage = 6)) ∧
    (∃ (h : HostCmd) (e : Nat) (x : RtEntry) (s : State) (t : State) (f : Fetched),
      Taken 3 h s f t ∧ (qpOf t (cmdAux h % 16384)).bound = (qpOf t h.qp).bound ∧ (qpOf t h.qp).bound.isSome = true ∧ liveEntry t (cmdAux h % 16384) (cmdParam h) = some e ∧ mget t.gen.entries e = some x ∧ (x.state = .wait ∨ x.state = .reserve ∨ (x.state = .pre ∧ idlePre x = true)) ∧ x.work.disabled = false) ∧
    (∃ (h : HostCmd) (s : State) (t : State) (f : Fetched),
      Taken 3 h s f t ∧ (qpOf t (cmdAux h % 16384)).bound = (qpOf t h.qp).bound ∧ (qpOf t h.qp).bound.isSome = true ∧ liveEntry t (cmdAux h % 16384) (cmdParam h) = none ∧ ((qpOf t (cmdAux h % 16384)).recent.contains (cmdParam h) = true ∨ (drainingEntry t (cmdAux h % 16384) (cmdParam h)).isSome = true)) ∧
    (∃ (h : HostCmd) (s : State) (t : State) (f : Fetched),
      Taken 3 h s f t ∧ (qpOf t (cmdAux h % 16384)).bound = (qpOf t h.qp).bound ∧ (qpOf t h.qp).bound.isSome = true ∧ liveEntry t (cmdAux h % 16384) (cmdParam h) = none ∧ (qpOf t (cmdAux h % 16384)).recent.contains (cmdParam h) = false ∧ drainingEntry t (cmdAux h % 16384) (cmdParam h) = none) ∧
    (∃ (h : HostCmd) (s : State) (t : State) (f : Fetched),
      Taken 3 h s f t ∧ (qpOf t (cmdAux h % 16384)).bound ≠ (qpOf t h.qp).bound) :=
  ⟨⟨0, { ent1 with mode := 2 }, prof5, sEnt ({ ent1 with mode := 2 }), by decide +kernel⟩,
   ⟨0, { ent1 with work := { profile := some prof5, tokenizer := some tok1 } }, prof5, tok1, feed tok1 0 true {} [], sEnt ({ ent1 with work := { profile := some prof5, tokenizer := some tok1 } }), by rfl, by decide +kernel⟩,
   ⟨0, { ent1 with cancelPending := true }, prof5, sEnt ({ ent1 with cancelPending := true }), by decide +kernel⟩,
   ⟨0, { ent1 with deadline := 1 }, prof5, modBoot (fun b => { b with cycles := 1000 }) (sEnt { ent1 with deadline := 1 }), by decide +kernel⟩,
   ⟨0, { ent1 with work := { profile := some prof5, pinsLeft := 1 } }, prof5, sEnt ({ ent1 with work := { profile := some prof5, pinsLeft := 1 } }), by decide +kernel⟩,
   ⟨0, { ent1 with state := .drain, work := { completed := true, pagesReturned := true } }, sEnt ({ ent1 with state := .drain, work := { completed := true, pagesReturned := true } }), by decide +kernel⟩,
   ⟨cmd 3 5 0 9 [] 5, 0, { ent1 with state := .step }, ring (cmd 3 5 0 9 [] 5) (sEnt ({ ent1 with state := .step })), after_ (cmd 3 5 0 9 [] 5) (sEnt ({ ent1 with state := .step })), slot (cmd 3 5 0 9 [] 5), taken_ok _ _ _ (by decide +kernel), by decide +kernel⟩,
   ⟨cmd 3 5 0 9 [] 5, 0, { ent1 with work := { stage := 5 } }, ring (cmd 3 5 0 9 [] 5) (sEnt ({ ent1 with work := { stage := 5 } })), after_ (cmd 3 5 0 9 [] 5) (sEnt ({ ent1 with work := { stage := 5 } })), slot (cmd 3 5 0 9 [] 5), taken_ok _ _ _ (by decide +kernel), by decide +kernel⟩,
   ⟨cmd 3 5 0 9 [] 5, 0, { ent1 with state := .wait }, ring (cmd 3 5 0 9 [] 5) (sEnt ({ ent1 with state := .wait })), after_ (cmd 3 5 0 9 [] 5) (sEnt ({ ent1 with state := .wait })), slot (cmd 3 5 0 9 [] 5), taken_ok _ _ _ (by decide +kernel), by decide +kernel⟩,
   ⟨cmd 3 5 0 9 [] 5, ring (cmd 3 5 0 9 [] 5) (sEnt ({ ent1 with state := .drain })), after_ (cmd 3 5 0 9 [] 5) (sEnt ({ ent1 with state := .drain })), slot (cmd 3 5 0 9 [] 5), taken_ok _ _ _ (by decide +kernel), by decide +kernel⟩,
   ⟨cmd 3 5 0 9 [] 5, ring (cmd 3 5 0 9 [] 5) (sQp), after_ (cmd 3 5 0 9 [] 5) (sQp), slot (cmd 3 5 0 9 [] 5), taken_ok _ _ _ (by decide +kernel), by decide +kernel⟩,
   ⟨cmd 3 6 0 9 [] 5, ring (cmd 3 6 0 9 [] 5) (sQp), after_ (cmd 3 6 0 9 [] 5) (sQp), slot (cmd 3 6 0 9 [] 5), taken_ok _ _ _ (by decide +kernel), by decide +kernel⟩⟩

theorem test_witness_reservations_and_steps :
    (∃ (e : Nat) (x : RtEntry) (s : State),
      mget s.gen.entries e = some x ∧ x.state = .reserve ∧ nextReserve s e x = true ∧ canGrant s x = true) ∧
    (∃ (e : Nat) (x : RtEntry) (s : State),
      mget s.gen.entries e = some x ∧ (canGrant s x = false ∨ nextReserve s e x = false)) ∧
    (∃ (image : Nat) (mask : Nat) (proofing : Bool) (i : Image) (ms : List (Nat × Nat × Nat × Nat)) (s : State) (v : State) (t : State),
      v = expire ((s.gen.entries.filter fun e => e.2.state == .wait && e.2.genImage == image).map Prod.fst) s ∧ takeMembers (sortBy stepBefore (v.gen.entries.filter fun e => e.2.state == .wait && e.2.genImage == image && acctDies v e.2.account == mask && e.2.work.proofing == proofing)) i.maxBatch i.maxStepTokens v = (ms, t) ∧ mget s.obj.images image = some i ∧ s.gen.hold = false ∧ stepInFlight s image = false ∧ ms ≠ []) ∧
    (∃ (image : Nat) (s : State),
      (s.gen.hold = true ∨ stepInFlight s image = true)) :=
  ⟨⟨0, genE .reserve, sGen (genE .reserve), by decide +kernel⟩,
   ⟨0, { genE .reserve with genImage := 6 }, sGen { genE .reserve with genImage := 6 }, by decide +kernel⟩,
   ⟨5, 15, false, img1, (takeMembers [(0, genE .wait)] 4 64 (sGen (genE .wait))).1, sGen (genE .wait), sGen (genE .wait), (takeMembers [(0, genE .wait)] 4 64 (sGen (genE .wait))).2, by rfl, by rfl, by decide +kernel⟩,
   ⟨5, modGen (fun g => { g with hold := true }) z, by decide +kernel⟩⟩

theorem test_witness_steps_committed :
    (∃ (k : Nat) (r : StepRec) (s : State),
      mget s.gen.steps k = some r ∧ stepDone s r = true) ∧
    (∃ (k : Nat) (r : StepRec) (s : State),
      mget s.gen.steps k = some r ∧ stepDone s r = false) ∧
    (∃ (k : Nat) (r : StepRec) (m : StepMember) (x : RtEntry) (s : State),
      mget s.gen.steps k = some r ∧ stepDone s r = true ∧ r.members = [m] ∧ mget s.gen.entries m.entry = some x ∧ x.state = .step ∧ forcedFinish s x = none ∧ x.cancelPending = false ∧ x.prefilled + m.prefill < x.promptLen) ∧
    (∃ (k : Nat) (r : StepRec) (m : StepMember) (x : RtEntry) (tk : Tokenizer) (dv : Delivery) (s : State),
      dv = deliverTokens tk x.stop x.maxNew x.genLen (m.tokens.take (accepted m.tokens (m.proposed.take m.drafts) + 1)) ⟨x.work.out, x.work.rel, x.work.tail, x.work.invalidOut, none⟩ ∧ mget s.gen.steps k = some r ∧ stepDone s r = true ∧ r.members = [m] ∧ mget s.gen.entries m.entry = some x ∧ x.state = .step ∧ forcedFinish s x = none ∧ x.cancelPending = false ∧ x.promptLen ≤ x.prefilled + m.prefill ∧ m.tokens ≠ [] ∧ x.work.tokenizer = some tk ∧ dv.finish = none) ∧
    (∃ (k : Nat) (r : StepRec) (m : StepMember) (x : RtEntry) (s : State),
      mget s.gen.steps k = some r ∧ stepDone s r = true ∧ r.members = [m] ∧ mget s.gen.entries m.entry = some x ∧ x.state = .step ∧ cancelledBefore s x = true ∧ x.deadline = 0 ∧ x.work.disabled = false) ∧
    (∃ (g : Nat) (slot : Nat) (k : Nat) (x : OpCx) (r : StepRec) (m : StepMember) (y : RtEntry) (ts : List TensorDesc) (s : State),
      opReady s g slot = some x ∧ x.u.kind = .step k ∧ mget s.gen.steps k = some r ∧ r.members = [m] ∧ ts = (x.o.ins ++ x.o.outs).filterMap (tensorAt x.i.tensors) ∧ ts.any (overExtent s x.n x.u) = true ∧ overMembers s x.u ts = [m.entry] ∧ mget s.gen.entries m.entry = some y ∧ y.state = .step ∧ y.cancelPending = false ∧ y.work.disabled = false) :=
  ⟨⟨0, stp1 [], sStp (genE .step) [], by decide +kernel⟩,
   ⟨0, stpJ, modGen (fun g => { g with steps := [(0, stpJ)] }) z, by decide +kernel⟩,
   ⟨0, stp1 [⟨0, 2, 0, [], []⟩], ⟨0, 2, 0, [], []⟩, genE .step, sStp (genE .step) [⟨0, 2, 0, [], []⟩], by decide +kernel⟩,
   ⟨0, stp1 [⟨0, 4, 0, [], [1]⟩], ⟨0, 4, 0, [], [1]⟩, { genE .step with work := { stage := 12, promptBudget := 16, tokenizer := some tok1 } }, tok1, deliverTokens tok1 {} 4 0 (List.take (accepted [1] (List.take 0 []) + 1) [1]) ⟨[], 0, [], 0, none⟩, sStp ({ genE .step with work := { stage := 12, promptBudget := 16, tokenizer := some tok1 } }) [⟨0, 4, 0, [], [1]⟩], by rfl, by decide +kernel⟩,
   ⟨0, stp1 [⟨0, 2, 0, [], []⟩], ⟨0, 2, 0, [], []⟩, { genE .step with cancelPending := true, cancellers := [(5, 9, 0, 0)] }, modBoot (fun b => { b with cycles := 1 }) (sStp { genE .step with cancelPending := true, cancellers := [(5, 9, 0, 0)] } [⟨0, 2, 0, [], []⟩]), by decide +kernel⟩,
   ⟨0, 0, 0, opOver, stp1 [⟨0, 2, 0, [], []⟩], ⟨0, 2, 0, [], []⟩, eOver, [tensOver, tensOver], sOver, by decide +kernel⟩⟩

theorem test_witness_hold_and_window_registers :
    (∃ (fn : Nat),
      fn ≤ 1) ∧
    (∃ (fn : Nat),
      fn ≤ 1) ∧
    (∃ (fn : Nat),
      1 < fn) ∧
    (∃ (fn : Nat),
      fn ≤ 1) ∧
    (∃ (fn : Nat),
      fn ≤ 1) ∧
    (∃ (g : Nat) (s : State),
      (clusterOf s g).awake = true ∧ (clusterOf s g).idle = true ∧ (clusterOf s g).spareOp = none) ∧
    (∃ (g : Nat) (s : State),
      ((clusterOf s g).idle = false ∨ (clusterOf s g).spareOp.isSome = true)) ∧
    (∃ (fn : Nat),
      fn ≠ 1) ∧
    (∃ (s : State),
      selSet s ≠ 0 ∧ setBusy s (selSet s) = false) ∧
    (∃ (fn : Nat) (s : State),
      (fn ≠ 1 ∨ selSet s = 0 ∨ setBusy s (selSet s) = true)) :=
  ⟨⟨1, by decide +kernel⟩,
   ⟨1, by decide +kernel⟩,
   ⟨2, by decide +kernel⟩,
   ⟨1, by decide +kernel⟩,
   ⟨0, by decide +kernel⟩,
   ⟨0, modCluster 0 (fun c => { c with awake := true, drain := true }) z, by decide +kernel⟩,
   ⟨0, modCluster 0 (fun c => { c with spareOp := some .selfTest }) z, by decide +kernel⟩,
   ⟨0, by decide +kernel⟩,
   ⟨modFab (fun f => { f with setSel := 3 }) z, by decide +kernel⟩,
   ⟨0, z, by decide +kernel⟩⟩

theorem test_witness_walks :
    (∃ (e : Nat) (place : Nat) (w : SearchWork) (c : Collection) (s : State),
      workOf s e = some w ∧ w.waiting = some place ∧ mget s.obj.collections w.par.coll = some c ∧ minNat (waitingPlaces s) = some place ∧ s.search.credits + freedCount s .credit + w.entryNodes.length ≤ 16384) ∧
    (∃ (e : Nat) (w : SearchWork) (s : State),
      workOf s e = some w ∧ 16384 < s.search.credits + freedCount s .credit + w.entryNodes.length) ∧
    (∃ (tag : Nat) (n : Nat) (w : Walk) (s : State),
      mget s.search.walks (walkKey tag n) = some w ∧ w.place = some true ∧ s.boot.hubRestart.contains (w.engine / 8) = false ∧ s.search.killed.contains tag = true) ∧
    (∃ (tag : Nat) (n : Nat) (nx : Nat) (rdb : Bool) (w : Walk) (x : Walk) (l : List Cand) (c : Collection) (sw : SearchWork) (s : State),
      mget s.search.walks (walkKey tag n) = some w ∧ w.place = some true ∧ s.boot.hubRestart.contains (w.engine / 8) = false ∧ s.search.killed.contains tag = false ∧ mget s.obj.collections w.coll = some c ∧ workOf s w.entry = some sw ∧ hopOnce c.desc w (rdb && c.nodeReadable w.next && !(channelOf s w.engine).failed) (slotNbrs c sw.sketch w.next) = (x, l, HopEnd.next nx) ∧ c.engineOf nx = w.engine ∧ hubUnreachable s (w.engine / 8) = false) ∧
    (∃ (tag : Nat) (n : Nat) (why : Nat) (rdb : Bool) (w : Walk) (x : Walk) (l : List Cand) (c : Collection) (sw : SearchWork) (s : State),
      mget s.search.walks (walkKey tag n) = some w ∧ w.place = some true ∧ s.boot.hubRestart.contains (w.engine / 8) = false ∧ s.search.killed.contains tag = false ∧ mget s.obj.collections w.coll = some c ∧ workOf s w.entry = some sw ∧ hopOnce c.desc w (rdb && c.nodeReadable w.next && !(channelOf s w.engine).failed) (slotNbrs c sw.sketch w.next) = (x, l, HopEnd.ended why)) ∧
    (∃ (tag : Nat) (n : Nat) (nx : Nat) (rdb : Bool) (w : Walk) (x : Walk) (l : List Cand) (c : Collection) (sw : SearchWork) (s : State),
      mget s.search.walks (walkKey tag n) = some w ∧ w.place = some true ∧ s.boot.hubRestart.contains (w.engine / 8) = false ∧ s.search.killed.contains tag = false ∧ mget s.obj.collections w.coll = some c ∧ workOf s w.entry = some sw ∧ hopOnce c.desc w (rdb && c.nodeReadable w.next && !(channelOf s w.engine).failed) (slotNbrs c sw.sketch w.next) = (x, l, HopEnd.next nx) ∧ c.engineOf nx ≠ w.engine ∧ relayBlocked s w.engine (c.engineOf nx) = false) ∧
    (∃ (tag : Nat) (n : Nat) (nx : Nat) (rdb : Bool) (w : Walk) (x : Walk) (l : List Cand) (c : Collection) (sw : SearchWork) (s : State),
      mget s.search.walks (walkKey tag n) = some w ∧ w.place = some true ∧ s.boot.hubRestart.contains (w.engine / 8) = false ∧ s.search.killed.contains tag = false ∧ mget s.obj.collections w.coll = some c ∧ workOf s w.entry = some sw ∧ hopOnce c.desc w (rdb && c.nodeReadable w.next && !(channelOf s w.engine).failed) (slotNbrs c sw.sketch w.next) = (x, l, HopEnd.next nx) ∧ relayBlocked s w.engine (c.engineOf nx) = true) ∧
    (∃ (m : RelayMsg) (w : Walk) (s : State),
      seqTaken s (pairKey m.dst m.src) m.seq = false ∧ walkInMsg s m = some w ∧ hubWaits s m.dst = false ∧ s.search.killed.contains w.tag = false) ∧
    (∃ (m : RelayMsg) (s : State),
      seqTaken s (pairKey m.dst m.src) m.seq = true) :=
  ⟨⟨0, 2, { sw1 with waiting := some 2 }, collN [], sWalk { sw1 with waiting := some 2 } walk1 [], by decide +kernel⟩,
   ⟨0, sw1, modSearch (fun x => { x with credits := 16384 }) (sWalk sw1 walk1 []), by decide +kernel⟩,
   ⟨4, 0, walk1, modSearch (fun x => { x with killed := [4] }) (sWalk sw1 walk1 []), by decide +kernel⟩,
   ⟨4, 0, 1, true, walk1, (hopOnce descN (walk1) true (slotNbrs (collN ([(1, 0)])) 0 0)).1, (hopOnce descN (walk1) true (slotNbrs (collN ([(1, 0)])) 0 0)).2.1, collN ([(1, 0)]), sw1, sWalk (sw1) (walk1) ([(1, 0)]), by decide +kernel⟩,
   ⟨4, 0, 2, true, walk1, (hopOnce descN (walk1) true (slotNbrs (collN ([])) 0 0)).1, (hopOnce descN (walk1) true (slotNbrs (collN ([])) 0 0)).2.1, collN ([]), sw1, sWalk (sw1) (walk1) ([]), by decide +kernel⟩,
   ⟨4, 0, 63, true, walk1, (hopOnce descN (walk1) true (slotNbrs (collN ([(63, 0)])) 0 0)).1, (hopOnce descN (walk1) true (slotNbrs (collN ([(63, 0)])) 0 0)).2.1, collN ([(63, 0)]), sw1, sWalk (sw1) (walk1) ([(63, 0)]), by decide +kernel⟩,
   ⟨4, 0, 504, true, walk1, (hopOnce descN (walk1) true (slotNbrs (collN ([(504, 0)])) 0 0)).1, (hopOnce descN (walk1) true (slotNbrs (collN ([(504, 0)])) 0 0)).2.1, collN ([(504, 0)]), sw1, modBoot (fun b => { b with linkFailed := BitVec.allOnes 64 }) (sWalk sw1 walk1 [(504, 0)]), by decide +kernel⟩,
   ⟨⟨1, 64, false, 4, 0, 3⟩, { walk1 with place := none, engine := 1, seq := 3 }, sWalk sw1 { walk1 with place := none, engine := 1, seq := 3 } [], by decide +kernel⟩,
   ⟨⟨1, 64, false, 4, 0, 3⟩, modSearch (fun x => { x with seqSeen := [(129, (4, []))] }) z, by decide +kernel⟩⟩

theorem test_witness_merging_and_search_ends :
    (∃ (b : OfferMsg) (e : Nat) (w : SearchWork) (c : Collection) (s : State),
      b ∈ s.search.offersOut ∧ tagOwner s b.tag = some e ∧ workOf s e = some w ∧ mget s.obj.collections w.par.coll = some c) ∧
    (∃ (m : EndMsg) (e : Nat) (w : SearchWork) (s : State),
      m ∈ s.search.endsOut ∧ tagOwner s m.tag = some e ∧ workOf s e = some w) ∧
    (∃ (e : Nat) (x : RtEntry) (s : State),
      e < 4096 ∧ mget s.gen.entries e = some x ∧ x.state = .pre ∧ x.work.stage = 7 ∧ passFinished x.work.search = true ∧ x.work.search.merged = false) ∧
    (∃ (e : Nat) (x : RtEntry) (s : State),
      mget s.gen.entries e = some x ∧ x.state = .pre ∧ x.work.search.shardsLeft ≠ []) ∧
    (∃ (k : Nat) (n : Nat) (c : Collection) (i : Item) (s : State),
      mget s.obj.collections k = some c ∧ n ∈ c.rebuild ∧ mget c.items n = some i ∧ hubWaits s (c.engineOf n) = false) ∧
    (∃ (fn : Nat),
      fn ≤ 1) ∧
    (∃ (fn : Nat),
      1 < fn) ∧
    (∃ (fn : Nat) (s : State),
      fn ≤ 1 ∧ heldSearches s = []) ∧
    (∃ (fn : Nat) (place : Nat) (e : Nat) (x : RtEntry) (p : Profile) (c : Collection) (s : State),
      fn ≤ 1 ∧ heldSearches s = [(place, e)] ∧ e < 4096 ∧ mget s.gen.entries e = some x ∧ x.work.profile = some p ∧ p.shardSet = 0 ∧ mget s.obj.collections x.work.search.par.coll = some c) :=
  ⟨⟨⟨0, false, 4, 0, 1, []⟩, 0, sw1, collN [], modSearch (fun x => { x with offersOut := [⟨0, false, 4, 0, 1, []⟩] }) (sWalk sw1 walk1 []), by decide +kernel⟩,
   ⟨⟨0, false, 0, 4, 0, 1, 0, 0, 0⟩, 0, sw1, modSearch (fun x => { x with endsOut := [⟨0, false, 0, 4, 0, 1, 0, 0, 0⟩] }) (sWalk sw1 walk1 []), by decide +kernel⟩,
   ⟨0, { ent1 with work := { stage := 7, search := { sw1 with ended := [(0, 0)] } } }, sWalk { sw1 with ended := [(0, 0)] } walk1 [], by decide +kernel⟩,
   ⟨0, { ent1 with work := { stage := 7, search := { sw1 with shardsLeft := [(1, 2)] } } }, sWalk { sw1 with shardsLeft := [(1, 2)] } walk1 [], by decide +kernel⟩,
   ⟨3, 0, { coll1 with rebuild := [0] }, item1, modObj (fun o => { o with collections := [(3, { coll1 with rebuild := [0] })] }) z, by decide +kernel⟩,
   ⟨1, by decide +kernel⟩,
   ⟨2, by decide +kernel⟩,
   ⟨1, z, by decide +kernel⟩,
   ⟨1, 2, 0, { ent1 with work := { profile := some prof5, stage := 4, search := { par := { coll := 3 }, heldHere := true, heldPlace := some 2 } } }, prof5, coll1, modObj (fun o => { o with collections := [(3, coll1)] }) (sEnt ({ ent1 with work := { profile := some prof5, stage := 4, search := { par := { coll := 3 }, heldHere := true, heldPlace := some 2 } } })), by decide +kernel⟩⟩

theorem test_witness_heats_place_units :
    (∃ (s : State),
      (∀ e, e ∈ s.gen.entries → e.2.deadline = 0) ∧ s.sched.units = []) ∧
    (∃ (n : Nat) (x : SUnit) (l : List (Nat × Nat)) (s : State),
      (∀ e, e ∈ s.gen.entries → e.2.deadline = 0) ∧ s.sched.units = [(n, x)] ∧ x.slots = [] ∧ s.sched.hold = false ∧ bestSlots (advanceTo (100000 * (now s / 100000 + 1)) s) n x = some l) ∧
    (∃ (s : State),
      (∀ e, e ∈ s.gen.entries → e.2.deadline = 0) ∧ (∀ x, x ∈ s.sched.units → x.2.slots = []) ∧ (∀ x, x ∈ s.sched.units → x.2.sliceEnded = none) ∧ s.sched.hold = true) :=
  ⟨⟨z, by simp [z, State.reset], by decide +kernel⟩,
   ⟨3, { unit1 (.stage 0 7) with slots := [] }, [(0, 0)], modBoot (fun b => { b with domain := BitVec.allOnes 64 }) (modSched (fun d => { d with units := [(3, { unit1 (.stage 0 7) with slots := [] })] }) z), by simp [z, State.reset], by decide +kernel⟩,
   ⟨modSched (fun d => { d with hold := true }) z, by simp [z, State.reset], by simp [z, State.reset], by simp [z, State.reset], by decide +kernel⟩⟩

theorem test_witness_slices_and_the_watchdog :
    (∃ (n : Nat) (x : SUnit) (s : State),
      mget s.sched.units n = some x ∧ x.slots ≠ [] ∧ x.sliceEnded = none ∧ x.ownNs ≤ x.sliceEnd ∧ unitWatchdog s x + (x.sliceEnd - x.ownNs) ≤ watchdogNs) ∧
    (∃ (n : Nat) (x : SUnit) (s : State),
      mget s.sched.units n = some x ∧ watchdogNs < unitWatchdog s x + (x.sliceEnd - x.ownNs)) ∧
    (∃ (n : Nat) (ran : Nat) (e : Nat) (st : Nat) (p : Nat × Nat) (x : SUnit) (c : Ctx) (s : State),
      mget s.sched.units n = some x ∧ x.slots = [p] ∧ x.kind = .stage e st ∧ mget (clusterOf s p.1).slots p.2 = some c ∧ atPoint (mget s.obj.images x.image) c = true ∧ x.marked = none ∧ (clusterOf s p.1).drain = false ∧ c.watchdog + ran ≤ watchdogNs) ∧
    (∃ (n : Nat) (ran : Nat) (e : Nat) (st : Nat) (w : Nat) (b : Bool) (p : Nat × Nat) (x : SUnit) (c : Ctx) (s : State),
      mget s.sched.units n = some x ∧ x.slots = [p] ∧ x.kind = .stage e st ∧ mget (clusterOf s p.1).slots p.2 = some c ∧ c.unit = n ∧ atPoint (mget s.obj.images x.image) c = true ∧ x.marked = some (w, b) ∧ mget s.sched.units w = none ∧ c.watchdog + ran ≤ watchdogNs) ∧
    (∃ (n : Nat) (ran : Nat) (e : Nat) (x : SUnit) (y : RtEntry) (s : State),
      mget s.sched.units n = some x ∧ x.slots ≠ [] ∧ x.kind = .run e ∧ (unitCtxs s x).all (ctxDone (mget s.obj.images x.image)) = true ∧ (unitCtxs s x).all (atPoint (mget s.obj.images x.image)) = true ∧ mget s.gen.entries e = some y ∧ y.state ≠ .drain ∧ y.cancellers = [] ∧ y.work.disabled = false ∧ y.work.pendingFault = none ∧ y.work.dropsRetired = 0 ∧ y.work.dropsFull = 0 ∧ tripOf s x ran = none) ∧
    (∃ (g : Nat) (slot : Nat) (e : Nat) (st : Nat) (c : Ctx) (x : SUnit) (y : RtEntry) (s : State),
      mget (clusterOf s g).slots slot = some c ∧ mget s.sched.units c.unit = some x ∧ x.kind = .stage e st ∧ mget s.gen.entries e = some y ∧ y.state ≠ .drain ∧ y.cancelPending = false ∧ y.work.disabled = false ∧ standing (mget s.obj.images x.image) slot (clusterOf s g) c = false) ∧
    (∃ (g : Nat) (slot : Nat) (c : Ctx) (x : SUnit) (s : State),
      mget (clusterOf s g).slots slot = some c ∧ mget s.sched.units c.unit = some x ∧ standing (mget s.obj.images x.image) slot (clusterOf s g) c = true) :=
  ⟨⟨3, unit1 (.stage 0 7), sUnit (unit1 (.stage 0 7)) (ctx1) (img1) (ent1), by decide +kernel⟩,
   ⟨3, { unit1 (.stage 0 7) with sliceEnd := 4000001 }, sUnit ({ unit1 (.stage 0 7) with sliceEnd := 4000001 }) (ctx1) (img1) (ent1), by decide +kernel⟩,
   ⟨3, 0, 0, 7, (0, 0), unit1 (.stage 0 7), ctx1, sUnit (unit1 (.stage 0 7)) (ctx1) (img1) (ent1), by decide +kernel⟩,
   ⟨3, 0, 0, 7, 9, true, (0, 0), { unit1 (.stage 0 7) with marked := some (9, true) }, ctx1, sUnit ({ unit1 (.stage 0 7) with marked := some (9, true) }) (ctx1) (img1) (ent1), by decide +kernel⟩,
   ⟨3, 0, 0, unit1 (.run 0), { ent1 with mode := 4 }, sUnit (unit1 (.run 0)) (ctx1) (img1) ({ ent1 with mode := 4 }), by decide +kernel⟩,
   ⟨0, 0, 0, 7, { ctx1 with asks := 1 }, unit1 (.stage 0 7), ent1, sUnit (unit1 (.stage 0 7)) ({ ctx1 with asks := 1 }) (img1) (ent1), by decide +kernel⟩,
   ⟨0, 0, ctx1, unit1 (.stage 0 7), sUnit (unit1 (.stage 0 7)) (ctx1) (img1) (ent1), by decide +kernel⟩⟩

theorem test_witness_operations_start :
    (∃ (g : Nat) (slot : Nat) (env : OpEnv) (x : OpCx) (ins : List Operand) (outs : List OutVal) (fl : BitVec 4) (s : State) (v : State),
      v = chargeUnit x.u (64 * env.brixjoLines) (fun q => { brixjoBytes := q }) (countCores g env s) ∧ opReady s g slot = some x ∧ env.extentBad = false ∧ env.tagBad = false ∧ env.poison = false ∧ ((x.o.ins ++ x.o.outs).filterMap (tensorAt x.i.tensors)).any (overExtent s x.n x.u) = false ∧ (∀ l, l ∈ env.memberLines → ∀ m, m ∈ x.u.members → m.1 ≠ l.1) ∧ (∀ t, t ∈ x.o.ins → lateFetches x t = []) ∧ x.o.opcode ∉ [0x01, 0x02, 0x21, 0x50, 0x51, 0x52, 0x33, 0x40, 0x41, 0x70, 0x71, 0x73, 0x74] ∧ operandsOf v v.free x = some ins ∧ evalOp v.free x.o ins ((x.o.outs[0]?.bind (tensorAt x.i.tensors)).map (runDims v x.n x.u) |>.getD []) ((x.o.outs[0]?.bind (tensorAt x.i.tensors)).map (fun t => tensorBytesOf t.fmt (runDims v x.n x.u t)) |>.getD 0) = some (outs, fl)) ∧
    (∃ (g : Nat) (slot : Nat) (env : OpEnv) (x : OpCx) (s : State),
      opReady s g slot = some x ∧ (env.extentBad = true ∨ env.tagBad = true ∨ env.poison = true)) ∧
    (∃ (g : Nat) (slot : Nat) (s : State),
      opReady s g slot = none) :=
  ⟨⟨0, 0, {}, (opReady (sUnit (unit1 (.stage 0 7)) ({ ctx1 with tensors := [(1, { dims := [1], data := [0, 0, 128, 63] })] }) (imgOp) (ent1)) 0 0).getD ⟨0, 0, 3, unit1 (.stage 0 7), 0, ctx1, imgOp, ⟨0, 0, false, false, [], [], []⟩⟩, (operandsOf (chargeUnit ((opReady (sUnit (unit1 (.stage 0 7)) ({ ctx1 with tensors := [(1, { dims := [1], data := [0, 0, 128, 63] })] }) (imgOp) (ent1)) 0 0).getD ⟨0, 0, 3, unit1 (.stage 0 7), 0, ctx1, imgOp, ⟨0, 0, false, false, [], [], []⟩⟩).u (64 * 0) (fun q => { brixjoBytes := q }) (evCount 64 4 0 (sUnit (unit1 (.stage 0 7)) ({ ctx1 with tensors := [(1, { dims := [1], data := [0, 0, 128, 63] })] }) (imgOp) (ent1)))) (chargeUnit ((opReady (sUnit (unit1 (.stage 0 7)) ({ ctx1 with tensors := [(1, { dims := [1], data := [0, 0, 128, 63] })] }) (imgOp) (ent1)) 0 0).getD ⟨0, 0, 3, unit1 (.stage 0 7), 0, ctx1, imgOp, ⟨0, 0, false, false, [], [], []⟩⟩).u (64 * 0) (fun q => { brixjoBytes := q }) (evCount 64 4 0 (sUnit (unit1 (.stage 0 7)) ({ ctx1 with tensors := [(1, { dims := [1], data := [0, 0, 128, 63] })] }) (imgOp) (ent1)))).free ((opReady (sUnit (unit1 (.stage 0 7)) ({ ctx1 with tensors := [(1, { dims := [1], data := [0, 0, 128, 63] })] }) (imgOp) (ent1)) 0 0).getD ⟨0, 0, 3, unit1 (.stage 0 7), 0, ctx1, imgOp, ⟨0, 0, false, false, [], [], []⟩⟩)).getD [], [.vals [((((operandsOf (chargeUnit ((opReady (sUnit (unit1 (.stage 0 7)) ({ ctx1 with tensors := [(1, { dims := [1], data := [0, 0, 128, 63] })] }) (imgOp) (ent1)) 0 0).getD ⟨0, 0, 3, unit1 (.stage 0 7), 0, ctx1, imgOp, ⟨0, 0, false, false, [], [], []⟩⟩).u (64 * 0) (fun q => { brixjoBytes := q }) (evCount 64 4 0 (sUnit (unit1 (.stage 0 7)) ({ ctx1 with tensors := [(1, { dims := [1], data := [0, 0, 128, 63] })] }) (imgOp) (ent1)))) (chargeUnit ((opReady (sUnit (unit1 (.stage 0 7)) ({ ctx1 with tensors := [(1, { dims := [1], data := [0, 0, 128, 63] })] }) (imgOp) (ent1)) 0 0).getD ⟨0, 0, 3, unit1 (.stage 0 7), 0, ctx1, imgOp, ⟨0, 0, false, false, [], [], []⟩⟩).u (64 * 0) (fun q => { brixjoBytes := q }) (evCount 64 4 0 (sUnit (unit1 (.stage 0 7)) ({ ctx1 with tensors := [(1, { dims := [1], data := [0, 0, 128, 63] })] }) (imgOp) (ent1)))).free ((opReady (sUnit (unit1 (.stage 0 7)) ({ ctx1 with tensors := [(1, { dims := [1], data := [0, 0, 128, 63] })] }) (imgOp) (ent1)) 0 0).getD ⟨0, 0, 3, unit1 (.stage 0 7), 0, ctx1, imgOp, ⟨0, 0, false, false, [], [], []⟩⟩)).getD [])[0]?).map (·.vals)).getD [] |>.headD (fvZero false)]], 0, sUnit (unit1 (.stage 0 7)) ({ ctx1 with tensors := [(1, { dims := [1], data := [0, 0, 128, 63] })] }) (imgOp) (ent1), chargeUnit ((opReady (sUnit (unit1 (.stage 0 7)) ({ ctx1 with tensors := [(1, { dims := [1], data := [0, 0, 128, 63] })] }) (imgOp) (ent1)) 0 0).getD ⟨0, 0, 3, unit1 (.stage 0 7), 0, ctx1, imgOp, ⟨0, 0, false, false, [], [], []⟩⟩).u (64 * 0) (fun q => { brixjoBytes := q }) (evCount 64 4 0 (sUnit (unit1 (.stage 0 7)) ({ ctx1 with tensors := [(1, { dims := [1], data := [0, 0, 128, 63] })] }) (imgOp) (ent1))), rfl, by decide +kernel⟩,
   ⟨0, 0, { poison := true }, (opReady (sUnit (unit1 (.stage 0 7)) (ctx1) (imgOp) (ent1)) 0 0).getD ⟨0, 0, 3, unit1 (.stage 0 7), 0, ctx1, imgOp, ⟨0, 0, false, false, [], [], []⟩⟩, sUnit (unit1 (.stage 0 7)) (ctx1) (imgOp) (ent1), by decide +kernel⟩,
   ⟨0, 0, z, by decide +kernel⟩⟩

theorem test_witness_passes_issue :
    (∃ (g : Nat) (slot : Nat) (b : Bytes) (env : PassEnv) (c : Ctx) (x : SUnit) (acc : List AccEntry) (s : State),
      mget (clusterOf s g).slots slot = some c ∧ mget s.sched.units c.unit = some x ∧ passForm b = true ∧ passFormats (passOf b) = true ∧ passTurn (clusterOf s g) slot (passOf b) = some acc ∧ ((clusterOf s g).group.isSome = true ∨ arrayTurn s g slot = true) ∧ inAlloc x.sram (passOf b) = true ∧ env.residueColumn = none ∧ (passOf b).last = false) ∧
    (∃ (g : Nat) (slot : Nat) (b : Bytes) (env : PassEnv) (c : Ctx) (x : SUnit) (acc : List AccEntry) (s : State),
      mget (clusterOf s g).slots slot = some c ∧ mget s.sched.units c.unit = some x ∧ passForm b = true ∧ passFormats (passOf b) = true ∧ passTurn (clusterOf s g) slot (passOf b) = some acc ∧ ((clusterOf s g).group.isSome = true ∨ arrayTurn s g slot = true) ∧ inAlloc x.sram (passOf b) = true ∧ env.residueColumn = none ∧ (passOf b).last = true) ∧
    (∃ (g : Nat) (slot : Nat) (b : Bytes) (s : State),
      (passForm b = false ∨ passFormats (passOf b) = false ∨ passTurn (clusterOf s g) slot (passOf b) = none ∨ ((clusterOf s g).group = none ∧ arrayTurn s g slot = false))) ∧
    (∃ (g : Nat) (slot : Nat) (b : Bytes) (c : Ctx) (x : SUnit) (acc : List AccEntry) (s : State),
      mget (clusterOf s g).slots slot = some c ∧ mget s.sched.units c.unit = some x ∧ passForm b = true ∧ passFormats (passOf b) = true ∧ passTurn (clusterOf s g) slot (passOf b) = some acc ∧ ((clusterOf s g).group.isSome = true ∨ arrayTurn s g slot = true) ∧ inAlloc x.sram (passOf b) = false) :=
  ⟨⟨0, 0, pass1 2 1, {}, ctx1, unit1 (.stage 0 7), [], sUnit (unit1 (.stage 0 7)) (ctx1) (img1) (ent1), by decide +kernel⟩,
   ⟨0, 0, pass1 1 3, {}, ctx1, unit1 (.stage 0 7), [], sUnit (unit1 (.stage 0 7)) (ctx1) (img1) (ent1), by decide +kernel⟩,
   ⟨0, 0, [], z, by decide +kernel⟩,
   ⟨0, 0, pass1 1 3, ctx1, { unit1 (.stage 0 7) with sram := 64 }, [], sUnit ({ unit1 (.stage 0 7) with sram := 64 }) ctx1 img1 ent1, by decide +kernel⟩⟩

theorem test_witness_array_service :
    (∃ (fn : Nat) (g : Nat),
      fn ≤ 1 ∧ g < 320) ∧
    (∃ (fn : Nat) (g : Nat) (s : State),
      fn ≤ 1 ∧ g < 320 ∧ (clusterOf s g).retired = false) ∧
    (∃ (fn : Nat) (g : Nat) (i : Nat) (s : State),
      fn ≤ 1 ∧ g < 320 ∧ (clusterOf s g).spareOp = none ∧ (clusterOf s g).drained = true ∧ spareLines (clusterOf s g).rows (clusterOf s g).badRows ≠ 0 ∧ i % 256 < 128 ∧ i % 256 ∉ (clusterOf s g).rows) ∧
    (∃ (fn : Nat) (g : Nat) (i : Nat) (s : State),
      fn ≤ 1 ∧ g < 320 ∧ (clusterOf s g).spareOp = none ∧ (clusterOf s g).drained = true ∧ spareLines (clusterOf s g).cols (clusterOf s g).badCols ≠ 0 ∧ i % 256 < 128 ∧ i % 256 ∉ (clusterOf s g).cols) ∧
    (∃ (fn : Nat) (g : Nat) (s : State),
      fn ≤ 1 ∧ g < 320 ∧ (clusterOf s g).spareOp = none ∧ (clusterOf s g).drained = true) ∧
    (∃ (fn : Nat) (g : Nat) (i : Nat) (r : Nat) (s : State),
      fn ≤ 1 ∧ g < 320 ∧ (clusterOf s g).spareOp = none ∧ ((clusterOf s g).drained = false ∧ r = 1 ∨ (clusterOf s g).drained = true ∧ spareLines (clusterOf s g).rows (clusterOf s g).badRows = 0 ∧ r = 2 ∨ (clusterOf s g).drained = true ∧ spareLines (clusterOf s g).rows (clusterOf s g).badRows ≠ 0 ∧ (128 ≤ i % 256 ∨ i % 256 ∈ (clusterOf s g).rows) ∧ r = 3)) ∧
    (∃ (fn : Nat) (g : Nat) (i : Nat) (r : Nat) (s : State),
      fn ≤ 1 ∧ g < 320 ∧ (clusterOf s g).spareOp = none ∧ ((clusterOf s g).drained = false ∧ r = 1 ∨ (clusterOf s g).drained = true ∧ spareLines (clusterOf s g).cols (clusterOf s g).badCols = 0 ∧ r = 2 ∨ (clusterOf s g).drained = true ∧ spareLines (clusterOf s g).cols (clusterOf s g).badCols ≠ 0 ∧ (128 ≤ i % 256 ∨ i % 256 ∈ (clusterOf s g).cols) ∧ r = 3)) ∧
    (∃ (fn : Nat) (g : Nat) (s : State),
      fn ≤ 1 ∧ g < 320 ∧ (clusterOf s g).spareOp = none ∧ (clusterOf s g).drained = false) ∧
    (∃ (g : Nat) (op : SpareOp) (s : State),
      (clusterOf s g).spareOp = some op) :=
  ⟨⟨1, 319, by decide +kernel⟩,
   ⟨1, 319, z, by decide +kernel⟩,
   ⟨1, 319, 127, modCluster 319 (fun c => { c with awake := true, drain := true }) z, by decide +kernel⟩,
   ⟨0, 0, 0, modCluster 0 (fun c => { c with awake := true, drain := true }) z, by decide +kernel⟩,
   ⟨1, 319, modCluster 319 (fun c => { c with awake := true, drain := true }) z, by decide +kernel⟩,
   ⟨1, 319, 0, 1, z, by decide +kernel⟩,
   ⟨0, 0, 128, 3, modCluster 0 (fun c => { c with awake := true, drain := true }) z, by decide +kernel⟩,
   ⟨1, 319, z, by decide +kernel⟩,
   ⟨0, .selfTest, modCluster 0 (fun c => { c with spareOp := some .selfTest }) z, by decide +kernel⟩⟩

theorem test_witness_pacers_and_safety_limits :
    (∃ (s : State),
      s.boot.mgmtRun = true) ∧
    (∃ (s : State),
      s.boot.mgmtRun = false) ∧
    (∃ (p : Nat) (s : State),
      1 ≤ p ∧ p ≤ 3 ∧ s.boot.mgmtRun = true) ∧
    (∃ (q : SafetyQuantity) (v : Nat) (s : State),
      (∀ o, o ∈ s.mgmt.overrides → o.1 ≠ q) ∧ quantityOk q = true ∧ (safetyLimits q).1 ≤ v) ∧
    (∃ (s : State),
      s.mgmt.overrides ≠ []) ∧
    (∃ (q : SafetyQuantity) (v : Nat) (o : SafetyQuantity × Nat × Bool) (s : State),
      o ∈ s.mgmt.overrides ∧ o.1 = q ∧ v < (safetyLimits q).2) ∧
    (∃ (q : SafetyQuantity) (v : Nat),
      (safetyLimits q).2 ≤ v) :=
  ⟨⟨modBoot (fun b => { b with mgmtRun := true }) z, by decide +kernel⟩,
   ⟨z, by decide +kernel⟩,
   ⟨3, modBoot (fun b => { b with mgmtRun := true }) z, by decide +kernel⟩,
   ⟨.dieHotspot 3, 1050, z, by simp [z, State.reset], by decide +kernel⟩,
   ⟨modMgmt (fun m => { m with overrides := [(.dieHotspot 3, 0, false)] }) z, by decide +kernel⟩,
   ⟨.dieHotspot 3, 999, (.dieHotspot 3, 0, false), modMgmt (fun m => { m with overrides := [(.dieHotspot 3, 0, false)] }) z, by decide +kernel⟩,
   ⟨.stackTemp 19, 900, by decide +kernel⟩⟩

theorem test_witness_fetches :
    (∃ (n : Nat) (seq : Nat) (p : Nat × Nat) (x : SUnit) (i : Image) (c : Ctx) (r : RelayEntry) (s : State),
      fetchOf s n seq = some (x, i, c, r) ∧ x.slots = [p] ∧ mayIssue i c r = true ∧ s.mem.ctl.getLsbD 2 = false) ∧
    (∃ (n : Nat) (seq : Nat) (p : Nat × Nat) (x : SUnit) (i : Image) (c : Ctx) (r : RelayEntry) (f : Fetch) (rows : List Nat) (s : State),
      fetchOf s n seq = some (x, i, c, r) ∧ x.slots = [p] ∧ fetchOut c seq = some f ∧ now s ≤ f.deadline ∧ (f.rowsLeft.filter fun y => !rows.contains y) = [] ∧ (r.fromTier ≠ 2 ∨ s.mem.ctl.getLsbD 2 = false)) ∧
    (∃ (n : Nat) (seq : Nat) (p : Nat × Nat) (x : SUnit) (i : Image) (c : Ctx) (r : RelayEntry) (f : Fetch) (s : State),
      fetchOf s n seq = some (x, i, c, r) ∧ x.slots = [p] ∧ fetchOut c seq = some f) :=
  ⟨⟨3, 0, (0, 0), unit1 (.stage 0 7), imgRel, ctx1, relay1, sUnit (unit1 (.stage 0 7)) (ctx1) (imgRel) (ent1), by decide +kernel⟩,
   ⟨3, 0, (0, 0), unit1 (.stage 0 7), imgRel, ctxF, relay1, { seq := 0, issued := 0, deadline := 100000, state := .outstanding }, [], sUnit (unit1 (.stage 0 7)) (ctxF) (imgRel) (ent1), by decide +kernel⟩,
   ⟨3, 0, (0, 0), unit1 (.stage 0 7), imgRel, ctxF, relay1, { seq := 0, issued := 0, deadline := 100000, state := .outstanding }, sUnit (unit1 (.stage 0 7)) (ctxF) (imgRel) (ent1), by decide +kernel⟩⟩

theorem test_witness_scrub_and_leases :
    (∃ (s : State),
      (∀ l x, mget s.mem.lines l = some x → x.errBits = [])) ∧
    (∃ (n : Nat) (l : Nat) (m : Nat) (left : Map Nat) (x : Line) (s : State),
      s.mem.ctl.getLsbD 0 = true ∧ n < 20 ∧ (stackOf s n).ok = true ∧ lineStack s l = n ∧ s.mem.lines = [(l, x)] ∧ decodeLine x.errBits = .corrected left m ∧ ((mgetD (stackOf s n).rowErrs (Config.dramRow l) []).filter fun t => decide (now s < t + dayNs)).length + 1 < s.mem.spareThresh) ∧
    (∃ (n : Nat) (l : Nat) (m : Nat) (left : Map Nat) (x : Line) (s : State),
      s.mem.ctl.getLsbD 0 = true ∧ n < 20 ∧ (stackOf s n).ok = true ∧ lineStack s l = n ∧ s.mem.lines = [(l, x)] ∧ decodeLine x.errBits = .corrected left m ∧ s.mem.spareThresh ≤ ((mgetD (stackOf s n).rowErrs (Config.dramRow l) []).filter fun t => decide (now s < t + dayNs)).length + 1 ∧ (stackOf s n).spares ≠ 0) ∧
    (∃ (k : Nat) (l : Lease) (s : State),
      mget s.mem.lent k = some l ∧ l.reclaimed = false) ∧
    (∃ (k : Nat) (s : State),
      mhas s.mem.borrowed k = true) ∧
    (∃ (fn : Nat),
      fn ≤ 1) :=
  ⟨⟨z, by intro l x h; simp [z, State.reset, mget] at h⟩,
   ⟨0, 0, 0, [], lineE, modStack 0 (fun k => { k with ok := true, spares := 1 }) (modMem (fun m => { m with lines := [(0, lineE)] }) z), by decide +kernel⟩,
   ⟨0, 0, 0, [], lineE, modMem (fun m => { m with spareThresh := 1 }) (modStack 0 (fun k => { k with ok := true, spares := 1 }) (modMem (fun m => { m with lines := [(0, lineE)] }) z)), by decide +kernel⟩,
   ⟨2, { peer := 1, pages := 4 }, modMem (fun m => { m with lent := [(2, { peer := 1, pages := 4 })] }) z, by decide +kernel⟩,
   ⟨2, modMem (fun m => { m with borrowed := [(2, { peer := 1, pages := 4 })] }) z, by decide +kernel⟩,
   ⟨1, by decide +kernel⟩⟩

theorem test_witness_flash_reads :
    (∃ (r : FlashRead) (l : Nat) (s : State),
      r.channel < 64 ∧ r.part < 2 ∧ (channelOf s r.channel).failed = false ∧ (channelOf s r.channel).retired = false ∧ hubWaits s r.channel = false ∧ r.level = some l ∧ l < 5) ∧
    (∃ (r : FlashRead) (l : Nat) (s : State),
      r.channel < 64 ∧ r.part < 2 ∧ (channelOf s r.channel).failed = false ∧ (channelOf s r.channel).retired = false ∧ hubWaits s r.channel = false ∧ r.level = some l ∧ 5 ≤ l ∧ l < 8 ∧ (blockAt (channelOf s r.channel) r.part r.die r.block).refresh = none) ∧
    (∃ (r : FlashRead) (k : Nat) (page : Nat) (c : Collection) (s : State),
      sparesLeft s r.channel r.part ≠ 0 ∧ r.channel < 64 ∧ r.part < 2 ∧ (channelOf s r.channel).failed = false ∧ (channelOf s r.channel).retired = false ∧ hubWaits s r.channel = false ∧ r.level = none ∧ r.holds = .graphPage k page ∧ mget s.obj.collections k = some c) :=
  ⟨⟨{ channel := 0, part := 1, die := 0, block := 9, level := some 4, holds := .graphPage 3 0, account := 1 }, 4, z, by decide +kernel⟩,
   ⟨{ channel := 0, part := 1, die := 0, block := 9, level := some 5, holds := .graphPage 3 0, account := 1 }, 5, z, by decide +kernel⟩,
   ⟨{ channel := 0, part := 1, die := 0, block := 9, level := none, holds := .graphPage 3 0, account := 1 }, 3, 0, coll1, sColl, spares_ok _ _ (by decide +kernel) (by decide +kernel), by decide +kernel⟩⟩

theorem test_witness_flash_upkeep_and_wear :
    (∃ (ch : Nat) (part : Nat) (s : State),
      gcDue s ch part = false) ∧
    (∃ (ch : Nat) (part : Nat) (s : State),
      gcDue s ch part = true ∧ ch < 64 ∧ part < 2 ∧ (channelOf s ch).ok = true ∧ partRo s part = false) ∧
    (∃ (ch : Nat) (part : Nat) (b : Block) (s : State),
      ch < 64 ∧ part < 2 ∧ gcOn (channelOf s ch) part = true ∧ gcCandidate s ch part = some b ∧ hubWaits s ch = false ∧ (b.units = [] ∨ hasFree s ch part = true) ∧ (s.flash.buffered.filter fun y => y.1 == part && y.2.1 == ch) = []) ∧
    (∃ (ch : Nat) (part : Nat) (s : State),
      ch < 64 ∧ part < 2 ∧ gcOn (channelOf s ch) part = true ∧ gcCandidate s ch part = none ∧ hubWaits s ch = false) ∧
    (∃ (ch : Nat) (part : Nat) (b : Block) (s : State),
      gcOn (channelOf s ch) part = true ∧ gcCandidate s ch part = some b ∧ b.units ≠ [] ∧ hasFree s ch part = false) ∧
    (∃ (ch : Nat) (part : Nat) (b : Block) (s : State),
      ch < 64 ∧ part < 2 ∧ s.flash.ctl.getLsbD 1 = true ∧ partRo s part = false ∧ spreadLimit s part < wearSpreadOf s ch part ∧ coldest s ch part = some b ∧ hubWaits s ch = false ∧ (b.units = [] ∨ hasFree s ch part = true) ∧ (s.flash.buffered.filter fun y => y.1 == part && y.2.1 == ch) = []) ∧
    (∃ (ch : Nat) (part : Nat) (s : State),
      wearSpreadOf s ch part ≤ spreadLimit s part) ∧
    (∃ (ch : Nat) (part : Nat) (s : State),
      sparesLeft s ch part * 10 < initialSpares s part ∧ ch < 64 ∧ part < 2 ∧ spareLowNoted s ch part = false ∧ s.hif.waits0 = [] ∧ s.hif.waits1 = []) ∧
    (∃ (ch : Nat) (part : Nat) (s : State),
      spareLowNoted s ch part = true) ∧
    (∃ (ch : Nat) (part : Nat) (die : Nat) (b : Nat) (s : State),
      sparesLeft s ch part ≠ 0 ∧ ch < 64 ∧ part < 2 ∧ (blockAt (channelOf s ch) part die b).state ≠ .retired) ∧
    (∃ (ch : Nat) (part : Nat) (die : Nat) (b : Nat) (s : State),
      ch < 64 ∧ part < 2 ∧ (blockAt (channelOf s ch) part die b).state ≠ .retired ∧ sparesLeft s ch part = 0) ∧
    (∃ (ch : Nat) (s : State),
      ch < 64 ∧ (channelOf s ch).failed = false ∧ (channelOf s ch).retired = false) :=
  ⟨⟨0, 0, z, none_due⟩,
   ⟨0, 0, fullShare, full_due, by decide +kernel⟩,
   ⟨0, 0, { part := 0, die := 0, num := 8, state := .closed, erases := 0, refresh := some 0 }, modChannel 0 (fun c => { c with gcSprint := true, blocks := [{ part := 0, die := 0, num := 8, state := .closed, erases := 0, refresh := some 0 }] }) z, by decide +kernel⟩,
   ⟨63, 1, modChannel 63 (fun c => { c with gcStore := true }) z, by decide +kernel⟩,
   ⟨0, 0, { part := 0, die := 0, num := 8, state := .closed, erases := 0, units := [0], refresh := some 0 }, modChannel 0 (fun c => { c with gcSprint := true, blocks := [{ part := 0, die := 0, num := 8, state := .closed, erases := 0, units := [0], refresh := some 0 }] }) z, by decide +kernel⟩,
   ⟨0, 0, { part := 0, die := 0, num := 8, state := .closed, erases := 0, refresh := some 0 }, modChannel 0 (fun c => { c with blocks := [{ part := 0, die := 0, num := 8, state := .closed, erases := 0, refresh := some 0 }, { part := 0, die := 0, num := 9, state := .closed, erases := 4000, refresh := some 0 }] }) z, by decide +kernel⟩,
   ⟨0, 0, z, by decide +kernel⟩,
   ⟨0, 1, modChannel 0 (fun c => { c with storeTaken := 10 ^ 9 }) z, spares_low _ _ (by decide +kernel) (by decide +kernel), by decide +kernel⟩,
   ⟨0, 1, modChannel 0 (fun c => { c with storeLow := true }) z, by decide +kernel⟩,
   ⟨63, 1, 0, 9, z, spares_ok _ _ (by decide +kernel) (by decide +kernel), by decide +kernel⟩,
   ⟨63, 0, 0, 9, z, by decide +kernel⟩,
   ⟨63, z, by decide +kernel⟩⟩

theorem test_witness_link_flits_and_ports :
    (∃ (port : Nat) (b : Bytes) (s : State),
      (crc64 (b.take 248)).toNat = rd b 248 8 ∧ (portOf s port).state = .local ∧ b.length = 256 ∧ bitsOf (rd b 0 8) 33 32 = 0 ∧ rd b 0 8 % 4096 = (portOf s port).rxSeq) ∧
    (∃ (port : Nat) (b : Bytes) (s : State),
      (crc64 (b.take 248)).toNat ≠ rd b 248 8 ∧ (portOf s port).state = .local ∧ b.length = 256 ∧ bitsOf (rd b 0 8) 33 32 = 0) ∧
    (∃ (port : Nat) (lanes : List (List Nat)) (d : List Nat) (c : Bool) (s : State),
      (portOf s port).state = .local ∧ (portOf s port).shortFec = true ∧ (portOf s port).rxBlocks = [] ∧ linkDecode (laneWord lanes) = some (d, c)) ∧
    (∃ (port : Nat) (s : State),
      (portOf s port).state = .down) ∧
    (∃ (port : Nat) (q : Nat) (l : List Nat) (s : State),
      (portOf s port).state = .local ∧ l = ((portOf s port).replay.map Prod.fst).dropWhile (· ≠ q % 4096)) ∧
    (∃ (port : Nat) (s : State),
      (portOf s port).state = .secure ∧ (portOf s port).keyUpdate = false) ∧
    (∃ (port : Nat) (s : State),
      ((portOf s port).state = .down ∨ (portOf s port).state = .training) ∧ port < 32 ∧ portsHeld s = false ∧ engineServes s port = true) ∧
    (∃ (port : Nat) (s : State),
      (portsHeld s = true ∨ engineServes s port = false)) ∧
    (∃ (port : Nat) (s : State),
      (portOf s port).state = .local ∧ s.fab.state = .admitted) ∧
    (∃ (ok : Bool) (s : State),
      (s.fab.state ≠ .admitted ∨ ok = false)) ∧
    (∃ (port : Nat) (s : State),
      (portOf s port).state ≠ .down) :=
  ⟨⟨3, flit1 0, sPort (fun p => { p with state := .local }) z, by rw [flit1_take, crc_zeros]; decide +kernel, by decide +kernel⟩,
   ⟨3, flit1 1, sPort (fun p => { p with state := .local }) z, by rw [flit1_take, crc_zeros]; decide +kernel, by decide +kernel⟩,
   ⟨3, [], List.replicate 257 0, false, sPort (fun p => { p with state := .local, shortFec := true }) z, by decide +kernel⟩,
   ⟨31, z, by decide +kernel⟩,
   ⟨3, 0, [], sPort (fun p => { p with state := .local }) z, by decide +kernel⟩,
   ⟨3, sPort (fun p => { p with state := .secure }) z, by decide +kernel⟩,
   ⟨31, modBoot (fun b => { b with domain := BitVec.allOnes 64 }) (z), by decide +kernel⟩,
   ⟨31, z, by decide +kernel⟩,
   ⟨3, sPort (fun p => { p with state := .local }) sFab, by decide +kernel⟩,
   ⟨true, z, by decide +kernel⟩,
   ⟨3, sPort (fun p => { p with state := .local }) z, by decide +kernel⟩⟩

theorem test_witness_pairs :
    (∃ (peer : Nat) (s : State),
      (pairOf s peer).unacked ≠ []) ∧
    (∃ (peer : Nat) (s : State),
      (pairOf s peer).unacked ≠ []) ∧
    (∃ (p : Packet) (s : State),
      ToMe p s) :=
  ⟨⟨9, modPair 9 (fun x => { x with unacked := [req22] }) sFab, by decide +kernel⟩,
   ⟨9, modPair 9 (fun x => { x with unacked := [req22] }) sFab, by decide +kernel⟩,
   ⟨pk 0x22 0 0 ([]), sFab, by unfold ToMe; decide +kernel⟩⟩

theorem test_witness_joining_and_leaving :
    (∃ (s : State),
      s.fab.state = .unassigned) ∧
    (∃ (s : State),
      s.fab.state ≠ .unassigned) ∧
    (∃ (p : Packet) (s : State),
      FromAnchor p s ∧ s.fab.state = .assigned) ∧
    (∃ (p : Packet) (s : State),
      FromAnchor p s ∧ s.fab.state = .assigned) ∧
    (∃ (p : Packet) (s : State),
      FromAnchor p s ∧ s.fab.state = .admitted) ∧
    (∃ (v : BitVec 32) (s : State),
      s.fab.state = .unassigned ∧ v.getLsbD 31 = true) ∧
    (∃ (fn : Nat) (s : State),
      (fn ≠ 1 ∨ s.fab.state ≠ .unassigned)) ∧
    (∃ (p : Packet) (s : State),
      FromAnchor p s ∧ s.fab.state = .admitted) ∧
    (∃ (s : State),
      s.fab.state = .admitted) ∧
    (∃ (fn : Nat),
      fn ≠ 1) ∧
    (∃ (s : State),
      s.fab.state = .leaving ∧ s.search.shardWork = [] ∧ addsHeld s = false ∧ busyPeers s = []) ∧
    (∃ (s : State),
      (s.fab.state ≠ .leaving ∨ s.search.shardWork ≠ [] ∨ addsHeld s = true)) :=
  ⟨⟨z, by decide +kernel⟩,
   ⟨sFab, by decide +kernel⟩,
   ⟨pk 0x41 0 0 ([]), sFabIn .assigned, by unfold FromAnchor; decide +kernel, by decide +kernel⟩,
   ⟨pk 0x41 0 0 ([]), sFabIn .assigned, by unfold FromAnchor; decide +kernel, by decide +kernel⟩,
   ⟨pk 0x41 0 0 ([]), sFab, by unfold FromAnchor; decide +kernel, by decide +kernel⟩,
   ⟨0x80000000, z, by decide +kernel⟩,
   ⟨0, z, by decide +kernel⟩,
   ⟨pk 0x41 0 0 ([]), sFab, by unfold FromAnchor; decide +kernel, by decide +kernel⟩,
   ⟨sFab, by decide +kernel⟩,
   ⟨0, by decide +kernel⟩,
   ⟨sFabIn .leaving, by decide +kernel⟩,
   ⟨z, by decide +kernel⟩⟩

theorem test_witness_anchoring :
    (∃ (p : Packet) (s : State),
      FromAnchor p s ∧ s.fab.state = .admitted ∧ (portOf s (bitsOf p.arg0.toNat 24 20)).state = .local) ∧
    (∃ (p : Packet) (s : State),
      FromAnchor p s ∧ Routed s.fab.anchorId s ∧ s.fab.state = .admitted ∧ (portOf s (bitsOf p.arg0.toNat 24 20)).state ≠ .local) ∧
    (∃ (p : Packet) (s : State),
      p.dst = s.fab.id ∧ s.fab.anchor = true ∧ { p with ptype := 0x42 } ∉ s.fab.delivered) ∧
    (∃ (p : Packet) (s : State),
      p.dst = s.fab.id ∧ s.fab.anchor = true ∧ { p with ptype := 0x4A } ∉ s.fab.delivered) ∧
    (∃ (p : Packet) (s : State),
      FromAnchor p s) :=
  ⟨⟨pk 0x41 0x300000 0 ([]), sPort (fun p => { p with state := .local }) sFab, by unfold FromAnchor; decide +kernel, by decide +kernel⟩,
   ⟨pk 0x41 0x300000 0 ([]), sFab, by unfold FromAnchor; decide +kernel, by unfold Routed; decide +kernel, by decide +kernel⟩,
   ⟨pk 0x42 0 0 ([]), modFab (fun f => { f with anchor := true }) sFab, by decide +kernel⟩,
   ⟨pk 0x4A 0 0 ([]), modFab (fun f => { f with anchor := true }) sFab, by decide +kernel⟩,
   ⟨pk 0x41 0 0 ([]), sFab, by unfold FromAnchor; decide +kernel⟩⟩

theorem test_witness_remote_tables :
    (∃ (p : Packet) (k : Nat) (v : Nat) (t : Table) (x : Version) (s : State),
      InTurn p s ∧ packetTable p s = some (k, t) ∧ (p.arg1.getLsbD 0 = true → t.shared = true ∨ t.owner = p.account % 4096) ∧ (p.arg1.getLsbD 1 = true → t.addable = true ∧ t.shared = false ∧ t.owner = p.account % 4096) ∧ currentVersion t = some v ∧ mget t.versions v = some x) ∧
    (∃ (p : Packet) (k : Nat) (t : Table) (x : Version) (s : State),
      InTurn p s ∧ namedSlot s p.arg0.toNat (p.arg1.toNat % 2 ^ 32) p.src = some k ∧ mget s.obj.tables k = some t ∧ t.deleted = false ∧ mget t.versions (p.arg1.toNat % 2 ^ 32) = some x ∧ x.cond ≠ .retired) ∧
    (∃ (p : Packet) (s : State),
      InTurn p s ∧ Routed p.src s ∧ pinnedSlot s p.arg0.toNat (rd p.payload 0 4) p.src = none) ∧
    (∃ (p : Packet) (k : Nat) (t : Table) (x : Version) (b : Bytes) (s : State),
      InTurn p s ∧ Routed p.src s ∧ pinnedSlot s p.arg0.toNat (rd p.payload 0 4) p.src = some k ∧ mget s.obj.tables k = some t ∧ mget t.versions (rd p.payload 0 4) = some x ∧ findRow t x (p.arg1.toNat % 2 ^ 41) = .present b ∧ b.length ≤ 32768) ∧
    (∃ (p : Packet) (k : Nat) (t : Table) (s : State),
      InTurn p s ∧ namedSlot s p.arg0.toNat (rd p.payload 0 4) p.src = some k ∧ mget s.obj.tables k = some t ∧ t.nRows ≤ p.arg1.toNat % 2 ^ 41) ∧
    (∃ (p : Packet) (k : Nat) (t : Table) (x : Version) (s : State),
      InTurn p s ∧ namedSlot s p.arg0.toNat (rd p.payload 0 4) p.src = some k ∧ mget s.obj.tables k = some t ∧ p.arg1.toNat % 2 ^ 41 < t.nRows ∧ mget t.versions (rd p.payload 0 4) = some x ∧ x.cond ≠ .retired ∧ mget x.hot (p.arg1.toNat % 2 ^ 41) = none ∧ (mget x.rows (p.arg1.toNat % 2 ^ 41)).isSome = true) :=
  ⟨⟨pk 0x20 9 3 ([]), 0, 1, tabR { cond := .current, rows := [(0, zeros 64)] }, { cond := .current, rows := [(0, zeros 64)] }, sTabR, by unfold InTurn ToMe; decide +kernel, by decide +kernel⟩,
   ⟨pk 0x21 9 1 ([]), 0, table9, { cond := .current }, sFab, by unfold InTurn ToMe; decide +kernel, by decide +kernel⟩,
   ⟨pk 0x22 8 0 ([]), sFab, by unfold InTurn ToMe; decide +kernel, by unfold Routed; decide +kernel, by decide +kernel⟩,
   ⟨pk 0x22 9 0 (leBytes 4 1), 0, table9, { cond := .current }, zeros 64, sFab, by unfold InTurn ToMe; decide +kernel, by unfold Routed; decide +kernel, by decide +kernel⟩,
   ⟨pk 0x23 9 4 ([]), 0, table9, sFab, by unfold InTurn ToMe; decide +kernel, by decide +kernel⟩,
   ⟨pk 0x23 9 0 (leBytes 4 1), 0, tabR { cond := .current, rows := [(0, zeros 64)] }, { cond := .current, rows := [(0, zeros 64)] }, sTabR, by unfold InTurn ToMe; decide +kernel, by decide +kernel⟩⟩

theorem test_witness_leases_and_answers :
    (∃ (p : Packet) (k : Nat) (n : Nat) (s : State),
      InTurn p s ∧ s.mem.ctl.getLsbD 1 = true ∧ p.hops ≤ s.mem.lendHops ∧ lowestFree s.mem.lent 4096 = some k ∧ n = min (p.arg0.toNat % 2 ^ 20) (min (s.mem.lendMax - lentPages s) (idleBrixjo s / 2097152)) ∧ 0 < n) ∧
    (∃ (p : Packet) (s : State),
      InTurn p s ∧ s.mem.ctl.getLsbD 1 = false) ∧
    (∃ (p : Packet) (s : State),
      ToMe p s) ∧
    (∃ (p : Packet) (s : State),
      InTurn p s) ∧
    (∃ (p : Packet) (l : Lease) (s : State),
      InTurn p s ∧ mget s.mem.lent (p.arg0.toNat % 4096) = some l ∧ l.peer = p.src) ∧
    (∃ (p : Packet) (l : Lease) (s : State),
      ToMe p s ∧ liveLease p s = some l ∧ p.arg1.toNat % 2 ^ 32 % 64 = 0 ∧ p.arg1.toNat % 2 ^ 32 + p.payload.length ≤ l.pages * 2097152) ∧
    (∃ (p : Packet) (l : Lease) (f : Nat × Bytes) (s : State),
      ToMe p s ∧ Routed p.src s ∧ liveLease p s = some l ∧ frameAt l.frames (p.arg1.toNat % 2 ^ 32) = some f ∧ f.2.length ≤ 32768) ∧
    (∃ (p : Packet) (s : State),
      ToMe p s ∧ Routed p.src s ∧ liveLease p s = none) ∧
    (∃ (p : Packet) (s : State),
      ToMe p s ∧ 0x81 ≤ p.ptype ∧ p.ptype ≤ 0x85 ∧ s.fab.anchor = false ∧ p.arg0.toNat % 65536 = Status.gone) ∧
    (∃ (p : Packet) (r : PairReq) (s : State),
      ToMe p s ∧ 0x81 ≤ p.ptype ∧ p.ptype ≤ 0x85 ∧ p.arg0.toNat % 65536 ≠ Status.gone ∧ askedFor p s = some r ∧ r.pkt.ptype = 0x22) ∧
    (∃ (p : Packet),
      (p.ptype < 0x81 ∨ 0x85 < p.ptype)) :=
  ⟨⟨pk 0x24 3 0 ([]), 0, 3, modMem (fun m => { m with ctl := 2, lendMax := 8 }) sStk, by unfold InTurn ToMe; decide +kernel, by decide +kernel⟩,
   ⟨pk 0x24 3 0 ([]), sFab, by unfold InTurn ToMe; decide +kernel, by decide +kernel⟩,
   ⟨pk 0x26 0 0 ([]), sFab, by unfold ToMe; decide +kernel⟩,
   ⟨pk 0x26 0 0 ([]), sFab, by unfold InTurn ToMe; decide +kernel⟩,
   ⟨pk 0x25 2 0 ([]), lease1, sLease lease1, by unfold InTurn ToMe; decide +kernel, by decide +kernel⟩,
   ⟨pk 0x26 2 64 (zeros 64), lease1, sLease lease1, by unfold ToMe; decide +kernel, by decide +kernel⟩,
   ⟨pk 0x27 2 64 ([]), lease1, (64, zeros 64), sLease lease1, by unfold ToMe; decide +kernel, by unfold Routed; decide +kernel, by decide +kernel⟩,
   ⟨pk 0x27 2 0 ([]), sFab, by unfold ToMe; decide +kernel, by unfold Routed; decide +kernel, by decide +kernel⟩,
   ⟨pk 0x81 (BitVec.ofNat 32 Status.gone) 0 ([]), sFab, by unfold ToMe; decide +kernel, by decide +kernel⟩,
   ⟨pk 0x82 0 0 ([]), req22, modPair 9 (fun x => { x with asked := [req22] }) sFab, by unfold ToMe; decide +kernel, by decide +kernel⟩,
   ⟨pk 0x80 0 0 ([]), by decide +kernel⟩⟩

theorem test_witness_reductions :
    (∃ (p : Packet) (k : Nat) (m : Nat) (first : Nat) (r : Reduction) (x : Reduction) (s : State),
      ToMe p s ∧ redOf p s = (k, some m, first) ∧ r = mgetD s.fab.reductions k {} ∧ x = { r with exps := mset r.exps m (putFrom (mgetD r.exps m []) first (expsOf p.payload)) } ∧ (r.started = true → redFits x = true ∧ allSent (setIds s (k / 2 ^ 32)).length r.own.length x.exps = false)) ∧
    (∃ (p : Packet) (k : Nat) (first : Nat) (m : Option Nat) (r : Reduction) (x : Reduction) (s : State),
      ToMe p s ∧ redOf p s = (k, m, first) ∧ r = mgetD s.fab.reductions k {} ∧ x = { r with agreed := putFrom r.agreed first (expsOf p.payload) } ∧ (r.started = true → redFits x = true ∧ x.agreed.length < r.own.length)) ∧
    (∃ (p : Packet) (k : Nat) (m : Nat) (first : Nat) (r : Reduction) (x : Reduction) (s : State),
      ToMe p s ∧ redOf p s = (k, some m, first) ∧ r = mgetD s.fab.reductions k {} ∧ x = { r with parts := mset r.parts m (putFrom (mgetD r.parts m []) first (partsOf p.payload)) } ∧ (r.started = true → redFits x = true ∧ allSent (setIds s (k / 2 ^ 32)).length r.own.length x.parts = false)) ∧
    (∃ (p : Packet) (k : Nat) (m : Nat) (first : Nat) (r : Reduction) (x : Reduction) (s : State),
      ToMe p s ∧ redOf p s = (k, some m, first) ∧ mget s.fab.reductions k = some r ∧ r.started = true ∧ x = { r with parts := mset r.parts m (putFrom (mgetD r.parts m []) first (partsOf p.payload)) } ∧ redFits x = false) ∧
    (∃ (p : Packet) (k : Nat) (first : Nat) (m : Option Nat) (r : Reduction) (x : SUnit) (h : Nat × Nat) (c : Ctx) (s : State),
      ToMe p s ∧ redOf p s = (k, m, first) ∧ mget s.fab.reductions k = some r ∧ r.started = true ∧ r.result = [] ∧ r.own.length ≤ chunkElems r.fmtOut p.payload.length ∧ mget s.sched.units r.unit = some x ∧ x.slots = [h] ∧ mget (clusterOf s h.1).slots h.2 = some c) ∧
    (∃ (p : Packet) (r : Reduction) (s : State),
      ToMe p s ∧ mget s.fab.reductions (redKey (p.arg0.toNat % 256) (p.arg1.toNat % 2 ^ 32)) = some r ∧ r.started = false) ∧
    (∃ (p : Packet) (r : Reduction) (x : SUnit) (e : Nat) (y : RtEntry) (s : State),
      ToMe p s ∧ mget s.fab.reductions (redKey (p.arg0.toNat % 256) (p.arg1.toNat % 2 ^ 32)) = some r ∧ r.started = true ∧ mget s.sched.units r.unit = some x ∧ x.kind = .run e ∧ mget s.gen.entries e = some y ∧ y.state ≠ .drain ∧ y.cancelPending = false ∧ y.work.disabled = false) :=
  ⟨⟨pk 0x28 2 0 ([1, 0]), redKey 2 0, 1, 0, {}, { exps := [(1, [(0, 1)])] }, sRed [], by unfold ToMe; decide +kernel, by decide +kernel⟩,
   ⟨pk 0x29 2 0 ([1, 0]), redKey 2 0, 0, some 1, {}, { agreed := [(0, 1)] }, sRed [], by unfold ToMe; decide +kernel, by decide +kernel⟩,
   ⟨pk 0x2A 2 0 ([]), redKey 2 0, 1, 0, {}, { parts := [(1, [])] }, sRed [], by unfold ToMe; decide +kernel, by decide +kernel⟩,
   ⟨pk 0x2A 2 0x500000000 (zeros 16), redKey 2 0, 1, 5, red1 true, { red1 true with parts := mset (red1 true).parts 1 (putFrom (mgetD (red1 true).parts 1 []) 5 (partsOf (zeros 16))) }, sRed [(redKey 2 0, red1 true)], by unfold ToMe; decide +kernel, by decide +kernel⟩,
   ⟨pk 0x2B 2 0 (zeros 16), redKey 2 0, 0, some 1, redW, unit1 (.run 0), (0, 0), ctx1, modCluster 0 (fun c => { c with slots := [(0, ctx1)] }) (sRed [(redKey 2 0, redW)]), by unfold ToMe; decide +kernel, by decide +kernel⟩,
   ⟨pk 0x2C 2 0 ([]), red1 false, sRed [(redKey 2 0, red1 false)], by unfold ToMe; decide +kernel, by decide +kernel⟩,
   ⟨pk 0x2C 2 0 ([]), red1 true, unit1 (.run 0), 0, ent1, sRed [(redKey 2 0, red1 true)], by unfold ToMe; decide +kernel, by decide +kernel⟩⟩

theorem test_witness_shards :
    (∃ (p : Packet) (c : Collection) (tag : Nat) (n : Nat) (s : State),
      ToMe p s ∧ mget s.obj.collections (rd p.payload 0 4) = some c ∧ freeTag s = some tag ∧ c.deleted = false ∧ rd p.payload 20 2 = c.desc.dim ∧ usesExact s c = false ∧ ((filterIds ((p.payload.drop 24).take 16)).all fun i => match mget s.obj.filters i with | some f => f.coll == rd p.payload 0 4 | none => false) = true ∧ lowestFree s.search.shardWork 16384 = some n) ∧
    (∃ (p : Packet) (e : Nat) (i : Nat) (x : RtEntry) (s : State),
      ToMe p s ∧ mget s.search.tags (p.arg0.toNat % 16384) = some (false, e) ∧ mget s.gen.entries e = some x ∧ s.search.owed.contains (p.arg0.toNat % 16384, p.src) = false ∧ now s ≤ x.work.search.shardUntil ∧ (x.work.search.shardsLeft.find? fun m => m.2 == p.src) = some (i, p.src)) ∧
    (∃ (p : Packet) (s : State),
      ToMe p s ∧ s.search.owed.contains (p.arg0.toNat % 16384, p.src) = false ∧ mget s.search.tags (p.arg0.toNat % 16384) = none) ∧
    (∃ (p : Packet) (e : Nat) (x : RtEntry) (s : State),
      ToMe p s ∧ s.search.owed.contains (p.arg0.toNat % 16384, p.src) = false ∧ mget s.search.tags (p.arg0.toNat % 16384) = some (false, e) ∧ mget s.gen.entries e = some x ∧ x.work.search.shardUntil < now s) ∧
    (∃ (p : Packet) (s : State),
      ToMe p s ∧ s.search.owed.contains (p.arg0.toNat % 16384, p.src) = true) :=
  ⟨⟨pk 0x2D 5 0 (leBytes 4 3 ++ zeros 16 ++ leBytes 2 1 ++ zeros 18), coll1, 0, 0, modObj (fun o => { o with collections := [(3, coll1)] }) sFab, by unfold ToMe; decide +kernel, by decide +kernel⟩,
   ⟨pk 0x2E 4 0 ([]), 0, 1, { ent1 with work := { search := { shardsLeft := [(1, 9)] } } }, modSearch (fun x => { x with tags := [(4, (false, 0))] }) (modGen (fun g => { g with entries := [(0, { ent1 with work := { search := { shardsLeft := [(1, 9)] } } })] }) sFab), by unfold ToMe; decide +kernel, by decide +kernel⟩,
   ⟨pk 0x2E 4 0 ([]), sFab, by unfold ToMe; decide +kernel, by decide +kernel⟩,
   ⟨pk 0x2E 4 0 ([]), 0, { ent1 with work := { search := { shardsLeft := [(1, 9)] } } }, modBoot (fun b => { b with cycles := 1000 }) (modSearch (fun x => { x with tags := [(4, (false, 0))] }) (modGen (fun g => { g with entries := [(0, { ent1 with work := { search := { shardsLeft := [(1, 9)] } } })] }) sFab)), by unfold ToMe; decide +kernel, by decide +kernel⟩,
   ⟨pk 0x2E 4 0 ([]), modSearch (fun x => { x with owed := [(4, 9)] }) sFab, by unfold ToMe; decide +kernel, by decide +kernel⟩⟩

theorem test_witness_power_up :
    (∃ (s : State),
      s.boot.aux = false ∧ s.boot.handover = false) ∧
    (∃ (s : State),
      s.boot.aux = true) ∧
    (∃ (s : State),
      s.boot.aux = true ∧ s.boot.phase = 1 ∧ s.boot.level = 0) ∧
    (∃ (v : Nat) (s : State),
      v ≠ 0 ∧ s.boot.aux = true ∧ s.boot.phase = 1 ∧ s.boot.level = 0) ∧
    (∃ (s : State),
      s.boot.aux = true ∧ s.boot.handover = false ∧ s.boot.shutdown = false ∧ s.boot.resetLow = false ∧ s.boot.fwOk = true) ∧
    (∃ (s : State),
      s.boot.aux = false) ∧
    (∃ (s : State),
      s.boot.hv = true ∧ s.boot.fwOk = true ∧ s.boot.phase = 3 ∧ s.boot.handover = false ∧ s.sec.identityOk = false) ∧
    (∃ (l : List KeyEntry) (e : KeyEntry) (s : State),
      s.boot.hv = true ∧ s.boot.fwOk = true ∧ s.boot.phase = 3 ∧ s.boot.handover = false ∧ s.sec.identityOk = true ∧ mget s.sec.keyFlash 4096 = some l ∧ (∀ x, x ∈ s.sec.keyFlash → x.1 = 4096 → x.2 = l) ∧ bestEntry l = some e) ∧
    (∃ (s : State),
      s.boot.hv = true ∧ s.boot.fwOk = true ∧ s.boot.phase = 3 ∧ s.boot.handover = false ∧ s.sec.identityOk = true ∧ s.sec.keyFlash = [] ∧ s.sec.keySets = []) ∧
    (∃ (s : State),
      s.boot.phase = 4 ∧ s.boot.handover = false) ∧
    (∃ (n : Nat) (s : State),
      n < 20 ∧ 5 ≤ s.boot.phase ∧ s.boot.handover = false ∧ (stackOf s n).retired = false ∧ (stackOf s n).ok = false) ∧
    (∃ (n : Nat) (s : State),
      (stackOf s n).retired = true) :=
  ⟨⟨z, by decide +kernel⟩,
   ⟨boot (fun b => { b with aux := true }), by decide +kernel⟩,
   ⟨boot (fun b => { b with aux := true, phase := 1 }), by decide +kernel⟩,
   ⟨1, boot (fun b => { b with aux := true, phase := 1 }), by decide +kernel⟩,
   ⟨boot (fun b => { b with aux := true, fwOk := true }), by decide +kernel⟩,
   ⟨z, by decide +kernel⟩,
   ⟨boot (fun b => { b with hv := true, fwOk := true, phase := 3 }), by decide +kernel⟩,
   ⟨[key1], key1, modSec (fun x => { x with identityOk := true, keyFlash := [(4096, [key1])] }) (boot (fun b => { b with hv := true, fwOk := true, phase := 3 })), by decide +kernel⟩,
   ⟨modSec (fun x => { x with identityOk := true }) (boot (fun b => { b with hv := true, fwOk := true, phase := 3 })), by decide +kernel⟩,
   ⟨boot (fun b => { b with phase := 4 }), by decide +kernel⟩,
   ⟨19, boot (fun b => { b with phase := 5 }), by decide +kernel⟩,
   ⟨19, modStack 19 (fun k => { k with retired := true }) z, by decide +kernel⟩⟩

theorem test_witness_service_levels :
    (∃ (s : State),
      5 ≤ s.boot.phase ∧ anyStack s = true ∧ s.boot.handover = false ∧ s.boot.reloaded = false) ∧
    (∃ (s : State),
      s.boot.level = 0 ∧ s.boot.mgmtRun = true ∧ 5 ≤ s.boot.phase ∧ anyStack s = true ∧ s.boot.handover = false ∧ s.sec.identityOk = true ∧ s.sec.config ≠ none ∧ s.sec.unlocked = false) ∧
    (∃ (s : State),
      (s.sec.identityOk = false ∨ s.sec.config = none ∨ s.sec.unlocked = true)) ∧
    (∃ (k : Nat) (c : Collection) (s : State),
      mget s.obj.collections k = some c ∧ 5 ≤ s.boot.phase ∧ c.desc.privileged = false ∧ c.verified = false) ∧
    (∃ (s : State),
      s.boot.level = 1 ∧ fullReady s = true) ∧
    (∃ (s : State),
      (s.boot.level ≠ 1 ∨ fullReady s = false)) :=
  ⟨⟨modStack 0 (fun k => { k with ok := true }) (boot (fun b => { b with phase := 5 })), by decide +kernel⟩,
   ⟨modSec (fun x => { x with identityOk := true, config := some cfg1 }) (modStack 0 (fun k => { k with ok := true }) (boot (fun b => { b with phase := 5, mgmtRun := true }))), by decide +kernel⟩,
   ⟨z, by decide +kernel⟩,
   ⟨3, { coll1 with verified := false }, modObj (fun o => { o with collections := [(3, { coll1 with verified := false })] }) (boot (fun b => { b with phase := 5 })), by decide +kernel⟩,
   ⟨modFlash (fun f => { f with channels := (List.range 64).map fun k => (k, { ok := true }) }) (modMem (fun m => { m with stackTab := (List.range 20).map fun k => (k, { ok := true }) }) (boot (fun b => { b with level := 1, reloaded := true }))), by decide +kernel⟩,
   ⟨z, by decide +kernel⟩⟩

theorem test_witness_losses_and_limits :
    (∃ (s : State),
      s.boot.main = true ∧ s.boot.hv = true ∧ s.boot.handover = false) ∧
    (∃ (s : State),
      s.boot.main = true ∧ s.boot.hv = false ∧ s.boot.handover = false) ∧
    (∃ (s : State),
      s.boot.main = false) ∧
    (∃ (s : State),
      s.boot.aux = true ∧ s.boot.hv = true ∧ s.boot.handover = false) ∧
    (∃ (s : State),
      s.boot.aux = true ∧ s.boot.hv = false ∧ s.boot.handover = false) ∧
    (∃ (s : State),
      s.boot.handover = true ∧ s.boot.aux = true) ∧
    (∃ (s : State),
      s.boot.handover = true ∧ s.boot.aux = false) ∧
    (∃ (s : State),
      s.boot.handover = false) ∧
    (∃ (l : List HardLimit) (s : State),
      l ≠ [] ∧ s.boot.hv = true ∧ s.boot.handover = false) ∧
    (∃ (l : List HardLimit) (s : State),
      l ≠ [] ∧ .busCurrent ∈ l ∧ .busCurrent ∉ s.boot.limits ∧ s.boot.hv = true ∧ s.boot.handover = true ∧ s.boot.aux = true ∧ s.boot.main = false ∧ s.boot.mainBack = false) ∧
    (∃ (s : State),
      s.boot.hv = false) :=
  ⟨⟨boot (fun b => { b with main := true, hv := true }), by decide +kernel⟩,
   ⟨boot (fun b => { b with main := true }), by decide +kernel⟩,
   ⟨z, by decide +kernel⟩,
   ⟨boot (fun b => { b with aux := true, hv := true }), by decide +kernel⟩,
   ⟨boot (fun b => { b with aux := true }), by decide +kernel⟩,
   ⟨boot (fun b => { b with handover := true, aux := true }), by decide +kernel⟩,
   ⟨boot (fun b => { b with handover := true }), by decide +kernel⟩,
   ⟨z, by decide +kernel⟩,
   ⟨[.hub], boot (fun b => { b with hv := true }), by decide +kernel⟩,
   ⟨[.busCurrent], boot (fun b => { b with hv := true, handover := true, aux := true }), by decide +kernel⟩,
   ⟨z, by decide +kernel⟩⟩

theorem test_witness_resets :
    (∃ (v : BitVec 32) (s : State),
      v.getLsbD 0 = true ∧ v.toNat / 2 ^ 16 = 0xA5C3 ∧ s.boot.handover = false) ∧
    (∃ (fn : Nat) (v : BitVec 32),
      (fn ≠ 1 ∨ v.getLsbD 0 = false ∨ v.toNat / 2 ^ 16 ≠ 0xA5C3)) ∧
    (∃ (s : State),
      s.boot.aux = true ∧ s.boot.handover = false ∧ s.boot.resetLow = false) ∧
    (∃ (s : State),
      s.boot.resetLow = true) ∧
    (∃ (s : State),
      s.boot.resetLow = true) ∧
    (∃ (s : State),
      s.boot.resetLow = false) :=
  ⟨⟨0xA5C30001, z, by decide +kernel⟩,
   ⟨0, 0xA5C30001, by decide +kernel⟩,
   ⟨boot (fun b => { b with aux := true }), by decide +kernel⟩,
   ⟨boot (fun b => { b with resetLow := true }), by decide +kernel⟩,
   ⟨boot (fun b => { b with resetLow := true }), by decide +kernel⟩,
   ⟨z, by decide +kernel⟩⟩

theorem test_witness_links_clusters_and_the_management_pair :
    (∃ (i : Nat) (s : State),
      i < 54 ∧ linkFailed s i = false) ∧
    (∃ (i : Nat) (s : State),
      i < 54 ∧ linkFailed s i = false ∧ s.boot.linkDegraded.getLsbD i = false) ∧
    (∃ (i : Nat) (s : State),
      linkFailed s i = true) ∧
    (∃ (fn : Nat) (g : Nat) (s : State),
      fn ≤ 1 ∧ g < 320 ∧ (clusterOf s g).powered = true ∧ (clusterOf s g).drained = true) ∧
    (∃ (fn : Nat) (g : Nat) (s : State),
      (1 < fn ∨ (clusterOf s g).drained = false)) ∧
    (∃ (fn : Nat) (g : Nat) (s : State),
      fn ≤ 1 ∧ g < 320 ∧ (clusterOf s g).powered = false ∧ netOn s g = true) ∧
    (∃ (fn : Nat) (g : Nat) (s : State),
      (1 < fn ∨ netOn s g = false)) ∧
    (∃ (g : Nat) (rows : List Nat) (cols : List Nat) (r : List Nat) (k : List Nat) (a : List Nat) (b : List Nat) (s : State),
      (clusterOf s g).poweringOn = true ∧ r = cleanNums 130 ((clusterOf s g).rows ++ (clusterOf s g).badRows ++ rows) ∧ k = cleanNums 130 ((clusterOf s g).cols ++ (clusterOf s g).badCols ++ cols) ∧ bypassFor r = some a ∧ bypassFor k = some b) ∧
    (∃ (g : Nat) (rows : List Nat) (s : State),
      (clusterOf s g).poweringOn = true ∧ bypassFor (cleanNums 130 ((clusterOf s g).rows ++ (clusterOf s g).badRows ++ rows)) = none) ∧
    (∃ (s : State),
      s.boot.mgmtRun = true) ∧
    (∃ (s : State),
      s.boot.aux = true ∧ s.boot.fwOk = true ∧ s.boot.mgmtRun = false) ∧
    (∃ (s : State),
      s.boot.mgmtRun = true) :=
  ⟨⟨53, z, by decide +kernel⟩,
   ⟨53, z, by decide +kernel⟩,
   ⟨53, boot (fun b => { b with linkFailed := 0x20000000000000 }), by decide +kernel⟩,
   ⟨1, 0, modCluster 0 (fun c => { c with awake := true, drain := true }) z, by decide +kernel⟩,
   ⟨2, 0, z, by decide +kernel⟩,
   ⟨1, 319, modBoot (fun b => { b with domain := BitVec.allOnes 64 }) (modCluster 319 (fun c => { c with powered := false }) z), by decide +kernel⟩,
   ⟨1, 319, z, by decide +kernel⟩,
   ⟨0, [5], [], [5], [], [5], [], modCluster 0 (fun c => { c with poweringOn := true }) z, by decide +kernel⟩,
   ⟨0, [5, 6, 127], modCluster 0 (fun c => { c with poweringOn := true }) z, by decide +kernel⟩,
   ⟨boot (fun b => { b with mgmtRun := true }), by decide +kernel⟩,
   ⟨boot (fun b => { b with aux := true, fwOk := true }), by decide +kernel⟩,
   ⟨boot (fun b => { b with mgmtRun := true }), by decide +kernel⟩⟩

theorem test_witness_recovery :
    (∃ (s : State),
      s.boot.level = 3 ∧ s.boot.hv = true) ∧
    (∃ (port : Nat) (b : Bytes) (s : State),
      b = fwImageOf s ∧ port < 32 ∧ s.fab.state = .admitted ∧ portCarries (portOf s port) 3 = true ∧ ((portOf s port).outq.all fun f => f.vc != 3) = true) ∧
    (∃ (s : State),
      s.fab.state ≠ .admitted) ∧
    (∃ (port : Nat) (s : State),
      s.boot.level = 3 ∧ s.boot.hv = true ∧ s.boot.rcvState < 2 ∧ port < 2 ∧ mget s.boot.rcvParts port = none) ∧
    (∃ (s : State),
      (s.boot.level ≠ 3 ∨ 2 ≤ s.boot.rcvState)) ∧
    (∃ (b : Bytes) (s : State),
      s.boot.level = 3 ∧ s.boot.hv = true ∧ s.boot.rcvState = 0 ∧ s.boot.rcvLen.toNat ≤ 16 * 2 ^ 20 ∧ s.boot.rcvLen.toNat ≤ b.length) ∧
    (∃ (b : Bytes) (s : State),
      s.boot.level = 3 ∧ s.boot.hv = true ∧ s.boot.rcvState = 0 ∧ b.length < s.boot.rcvLen.toNat) ∧
    (∃ (b : Bytes) (s : State),
      s.boot.level = 3 ∧ s.boot.rcvState = 2 ∧ s.boot.rcvWhole = some b) ∧
    (∃ (s : State),
      s.boot.rcvWhole = none) :=
  ⟨⟨boot (fun b => { b with level := 3, hv := true }), by decide +kernel⟩,
   ⟨3, fwImageOf (sPort (fun p => { p with state := .local }) sFab), sPort (fun p => { p with state := .local }) sFab, rfl, by decide +kernel⟩,
   ⟨z, by decide +kernel⟩,
   ⟨1, boot (fun b => { b with level := 3, hv := true }), by decide +kernel⟩,
   ⟨z, by decide +kernel⟩,
   ⟨zeros 4, boot (fun b => { b with level := 3, hv := true, rcvLen := 4 }), by decide +kernel⟩,
   ⟨zeros 3, boot (fun b => { b with level := 3, hv := true, rcvLen := 4 }), by decide +kernel⟩,
   ⟨zeros 3, boot (fun b => { b with level := 3, rcvState := 2, rcvWhole := some (zeros 3) }), by decide +kernel⟩,
   ⟨z, by decide +kernel⟩⟩

theorem test_witness_live_service :
    (∃ (fn : Nat) (n : Nat) (s : State),
      fn ≤ 1 ∧ s.boot.lsOp = none ∧ n < 20 ∧ stackServes s n = true ∧ brixjoUsed s + 96 * 2 ^ 30 ≤ brixjoSize s) ∧
    (∃ (fn : Nat) (n : Nat) (s : State),
      fn ≤ 1 ∧ s.boot.lsOp = none ∧ n < 20 ∧ stackServes s n = true ∧ brixjoSize s < brixjoUsed s + 96 * 2 ^ 30) ∧
    (∃ (fn : Nat) (n : Nat) (s : State),
      fn ≤ 1 ∧ s.boot.lsOp = none ∧ n < 64 ∧ (channelOf s n).retired = false ∧ unitsFit s n 0 = true ∧ unitsFit s n 1 = true) ∧
    (∃ (fn : Nat) (n : Nat) (s : State),
      fn ≤ 1 ∧ s.boot.lsOp = none ∧ n < 64 ∧ (channelOf s n).retired = false ∧ unitsFit s n 0 = false) ∧
    (∃ (fn : Nat) (n : Nat) (s : State),
      fn ≤ 1 ∧ s.boot.lsOp = none ∧ n < 32) ∧
    (∃ (fn : Nat) (n : Nat) (s : State),
      fn ≤ 1 ∧ s.boot.lsOp = none ∧ n < 320 ∧ (clusterOf s n).retired = false ∧ (clusterOf s n).drain = true ∧ (clusterOf s n).drained = true ∧ s.boot.stagedUcode ≠ none) ∧
    (∃ (fn : Nat) (n : Nat) (s : State),
      fn ≤ 1 ∧ s.boot.lsOp = none ∧ n < 320 ∧ (clusterOf s n).retired = false ∧ (clusterOf s n).drain = false) ∧
    (∃ (fn : Nat) (n : Nat) (s : State),
      fn ≤ 1 ∧ s.boot.lsOp = none ∧ n < 8 ∧ s.boot.stagedHub ≠ none) ∧
    (∃ (fn : Nat) (n : Nat) (s : State),
      fn ≤ 1 ∧ s.boot.lsOp = none ∧ n < 8 ∧ s.boot.stagedHub = none) ∧
    (∃ (fn : Nat) (n : Nat) (op : Nat) (i : Instr) (s : State),
      fn ≤ 1 ∧ s.boot.lsOp ≠ none ∧ (op, i) ∈ [(1, .lsRetireStack fn n), (2, .lsRetireChannel fn n), (3, .lsRecalibratePort fn n), (4, .lsMicrocode fn n), (5, .lsHubFirmware fn n)]) ∧
    (∃ (fn : Nat) (n : Nat) (op : Nat) (top : Nat) (i : Instr) (s : State),
      fn ≤ 1 ∧ s.boot.lsOp = none ∧ top ≤ n ∧ (op, top, i) ∈ [(1, 20, .lsRetireStack fn n), (2, 64, .lsRetireChannel fn n), (3, 32, .lsRecalibratePort fn n), (4, 320, .lsMicrocode fn n), (5, 8, .lsHubFirmware fn n)]) ∧
    (∃ (fn : Nat) (n : Nat) (i : Instr),
      1 < fn ∧ i ∈ [.lsRetireStack fn n, .lsRetireChannel fn n, .lsRecalibratePort fn n, .lsMicrocode fn n, .lsHubFirmware fn n]) ∧
    (∃ (o : LsOp) (s : State),
      s.boot.lsOp = some o) ∧
    (∃ (s : State),
      s.boot.lsOp = none) :=
  ⟨⟨1, 19, sStk, by decide +kernel⟩,
   ⟨1, 19, modStack 19 (fun k => { k with ok := true }) z, by decide +kernel⟩,
   ⟨1, 63, modChannel 0 (fun c => { c with ok := true }) z, by decide +kernel⟩,
   ⟨1, 63, z, by decide +kernel⟩,
   ⟨1, 31, z, by decide +kernel⟩,
   ⟨1, 0, modCluster 0 (fun c => { c with awake := true, drain := true }) (boot (fun b => { b with stagedUcode := some 4 })), by decide +kernel⟩,
   ⟨1, 319, z, by decide +kernel⟩,
   ⟨1, 7, boot (fun b => { b with stagedHub := some 4 }), by decide +kernel⟩,
   ⟨1, 7, z, by decide +kernel⟩,
   ⟨1, 0, 5, .lsHubFirmware 1 0, boot (fun b => { b with lsOp := some lsop1 }), by decide +kernel⟩,
   ⟨1, 20, 1, 20, .lsRetireStack 1 20, z, by decide +kernel⟩,
   ⟨2, 0, .lsHubFirmware 2 0, by decide +kernel⟩,
   ⟨lsop1, boot (fun b => { b with lsOp := some lsop1 }), by decide +kernel⟩,
   ⟨z, by decide +kernel⟩⟩

theorem test_witness_secure_sessions :
    (∃ (m : SpdmMsg),
      m.mailbox ≤ 2 ∧ (rd m.msg 2 1).testBit 0 = false ∧ 1 ≤ rd m.msg 3 1 ∧ rd m.msg 3 1 ≤ 10) ∧
    (∃ (m : SpdmMsg) (s : State),
      m.mailbox ≤ 2 ∧ (rd m.msg 2 1).testBit 0 = true ∧ s.sec.identityOk = false ∧ rd m.msg 3 1 ≤ 10) ∧
    (∃ (m : SpdmMsg) (s : State),
      m.mailbox ≤ 2 ∧ rd m.msg 2 1 = 0 ∧ s.sec.identityOk = true) ∧
    (∃ (m : SpdmMsg),
      m.mailbox ≤ 2 ∧ rd m.msg 2 1 ≠ 0) ∧
    (∃ (m : SpdmMsg) (s : State),
      m.mailbox ≤ 2 ∧ rd m.msg 3 1 = 0 ∧ s.sec.identityOk = true) ∧
    (∃ (m : SpdmMsg) (x : SpdmSession) (s : State),
      m.mailbox ≤ 2 ∧ mget s.sec.sessions m.session = some x ∧ x.mailbox = m.mailbox ∧ x.established = false) ∧
    (∃ (m : SpdmMsg) (x : SpdmSession) (s : State),
      m.mailbox ≤ 2 ∧ mget s.sec.sessions m.session = some x ∧ x.mailbox = m.mailbox ∧ x.established = true ∧ (rd m.msg 2 1 = 1 ∨ rd m.msg 2 1 = 2)) ∧
    (∃ (m : SpdmMsg) (x : SpdmSession) (s : State),
      m.mailbox ≤ 2 ∧ mget s.sec.sessions m.session = some x ∧ x.mailbox = m.mailbox ∧ x.established = true) ∧
    (∃ (m : SpdmMsg) (i : Instr) (s : State),
      m.mailbox ≤ 2 ∧ mget s.sec.sessions m.session = none ∧ i ∈ [.spdmFinish m, .keyUpdate m, .spdmHeartbeat m, .endSession m]) ∧
    (∃ (m : SpdmMsg) (i : Instr),
      2 < m.mailbox ∧ i ∈ [.getMeasurements m, .spdmChallenge m, .keyExchange m, .spdmFinish m, .keyUpdate m, .spdmHeartbeat m, .endSession m]) ∧
    (∃ (p : Packet) (s : State),
      FromAnchor p s ∧ s.fab.anchor = false ∧ 0x80 ≤ rd p.payload 1 1) ∧
    (∃ (p : Packet) (s : State),
      FromAnchor p s ∧ s.fab.anchor = false ∧ rd p.payload 1 1 < 0x80) :=
  ⟨⟨spdm 0 10, by decide +kernel⟩,
   ⟨spdm 1 10, z, by decide +kernel⟩,
   ⟨spdm 0 1, sSpdm sesE, by decide +kernel⟩,
   ⟨spdm 1 1, by decide +kernel⟩,
   ⟨spdm 0 0, sSpdm sesE, by decide +kernel⟩,
   ⟨spdm 0 0, { sesE with established := false }, sSpdm { sesE with established := false }, by decide +kernel⟩,
   ⟨spdm 1 0, sesE, sSpdm sesE, by decide +kernel⟩,
   ⟨spdm 0 0, sesE, sSpdm sesE, by decide +kernel⟩,
   ⟨spdm 0 0, .endSession (spdm 0 0), z, by decide +kernel⟩,
   ⟨{ spdm 0 0 with mailbox := 3 }, .endSession { spdm 0 0 with mailbox := 3 }, by decide +kernel⟩,
   ⟨pk 0x45 0 0 [0, 0x80], sFab, by unfold FromAnchor; decide +kernel, by decide +kernel⟩,
   ⟨pk 0x45 0 0 [0, 0x7F], sFab, by unfold FromAnchor; decide +kernel, by decide +kernel⟩⟩

theorem test_witness_recorder_clear_and_debug_unlock :
    (∃ (k : Nat) (n : Nat) (x : SpdmSession) (s : State),
      mget s.sec.sessions k = some x ∧ x.established = true ∧ x.mutualAuth = true ∧ n ≤ s.mgmt.lastSeq) ∧
    (∃ (k : Nat) (x : SpdmSession) (s : State),
      mget s.sec.sessions k = some x ∧ (x.established = false ∨ x.mutualAuth = false)) ∧
    (∃ (s : State),
      unlockAllowed s = true) ∧
    (∃ (s : State),
      unlockAllowed s = false) ∧
    (∃ (fn : Nat),
      fn ≠ 1) ∧
    (∃ (s : State),
      (s.sec.chal = none ∨ ∃ n t, s.sec.chal = some (n, t) ∧ t + 600000000000 ≤ now s) ∧ unlockAllowed s = true) ∧
    (∃ (n : Nat) (t : Nat) (s : State),
      unlockAllowed s = true ∧ s.sec.chal = some (n, t) ∧ now s < t + 600000000000) ∧
    (∃ (n : Nat) (t : Nat) (s : State),
      s.sec.chal = some (n, t)) ∧
    (∃ (s : State),
      s.sec.chal = none) :=
  ⟨⟨1, 0, sesE, sSpdm sesE, by decide +kernel⟩,
   ⟨1, { sesE with mutualAuth := false }, sSpdm { sesE with mutualAuth := false }, by decide +kernel⟩,
   ⟨sUnl none, by decide +kernel⟩,
   ⟨z, by decide +kernel⟩,
   ⟨0, by decide +kernel⟩,
   ⟨sUnl none, .inl (by decide +kernel), by decide +kernel⟩,
   ⟨5, 0, sUnl (some (5, 0)), by decide +kernel⟩,
   ⟨5, 0, sUnl (some (5, 0)), by decide +kernel⟩,
   ⟨z, by decide +kernel⟩⟩

theorem test_witness_management_requests :
    (∃ (b : Nat) (e : Nat) (s : State),
      pldmUp b s = true ∧ 0 < e ∧ e < 255) ∧
    (∃ (b : Nat) (e : Nat) (s : State),
      pldmUp b s = true ∧ (e = 0 ∨ 255 ≤ e)) ∧
    (∃ (a : Nat) (s : State),
      s.boot.aux = true ∧ a < 128 ∧ s.mgmt.i3c = none) ∧
    (∃ (b : Nat) (s : State),
      pldmUp b s = true) ∧
    (∃ (b : Nat) (s : State),
      pldmUp b s = true) ∧
    (∃ (b : Nat) (t : Nat) (s : State),
      pldmUp b s = true ∧ t ∈ [0, 2, 4, 5, 63]) ∧
    (∃ (b : Nat) (t : Nat) (s : State),
      pldmUp b s = true ∧ t ∉ [0, 2, 4, 5, 63]) ∧
    (∃ (b : Nat) (n : Nat) (s : State),
      pldmUp b s = true ∧ n ∈ sensorIds) ∧
    (∃ (b : Nat) (n : Nat) (s : State),
      pldmUp b s = true ∧ n ∉ sensorIds) ∧
    (∃ (b : Nat) (s : State),
      pldmUp b s = true) ∧
    (∃ (b : Nat) (s : State),
      pldmUp b s = true) ∧
    (∃ (b : Nat) (e : Nat) (s : State),
      pldmUp b s = true ∧ e ≤ 255) ∧
    (∃ (b : Nat) (v : BitVec 32) (s : State),
      pldmUp b s = true ∧ 1000 ≤ v.toNat ∧ v.toNat ≤ 3400) ∧
    (∃ (b : Nat) (v : BitVec 32) (s : State),
      pldmUp b s = true ∧ (v.toNat < 1000 ∨ 3400 < v.toNat)) ∧
    (∃ (b : Nat) (k : Nat) (s : State),
      pldmUp b s = true ∧ 19 ≤ k) ∧
    (∃ (b : Nat) (n : Nat) (k : Nat) (v : BitVec 32) (i : Instr) (s : State),
      pldmUp b s = false ∧ i ∈ [.setEndpointId b n, .getTid b, .getPldmTypes b, .getPldmCommands b n, .getPldmVersion b n, .sensorRead b n k, .pdrRead b n, .fruRead b, .setEventReceiver b n, .effecterWrite b n v, .requestUpdate b, .activateFirmware b, .setCalendar b n, .getCalendar b]) :=
  ⟨⟨0, 254, sMg (fun m => m), by decide +kernel⟩,
   ⟨0, 255, sMg (fun m => m), by decide +kernel⟩,
   ⟨127, modMgmt (fun m => { m with nextSnap := 1 }) (boot (fun b => { b with aux := true })), by decide +kernel⟩,
   ⟨0, sMg (fun m => m), by decide +kernel⟩,
   ⟨0, sMg (fun m => m), by decide +kernel⟩,
   ⟨0, 63, sMg (fun m => m), by decide +kernel⟩,
   ⟨0, 1, sMg (fun m => m), by decide +kernel⟩,
   ⟨0, 0x133, sMg (fun m => m), by decide +kernel⟩,
   ⟨0, 0x134, sMg (fun m => m), by decide +kernel⟩,
   ⟨0, sMg (fun m => m), by decide +kernel⟩,
   ⟨0, sMg (fun m => m), by decide +kernel⟩,
   ⟨0, 255, sMg (fun m => m), by decide +kernel⟩,
   ⟨0, 3400, sMg (fun m => m), by decide +kernel⟩,
   ⟨0, 3401, sMg (fun m => m), by decide +kernel⟩,
   ⟨0, 19, sMg (fun m => m), by decide +kernel⟩,
   ⟨0, 0, 0, 0, .getTid 0, z, by decide +kernel⟩⟩

theorem test_witness_firmware_and_calendar :
    (∃ (b : Nat) (s : State),
      pldmUp b s = true ∧ s.mgmt.update = none) ∧
    (∃ (b : Nat) (x : Update) (s : State),
      pldmUp b s = true ∧ s.mgmt.update = some x) ∧
    (∃ (c : Nat) (x : Update) (s : State),
      s.boot.mgmtRun = true ∧ s.mgmt.update = some x ∧ 1 ≤ c ∧ c ≤ 3) ∧
    (∃ (x : Update) (s : State),
      s.boot.mgmtRun = true ∧ s.mgmt.update = some x) ∧
    (∃ (c : Nat) (x : Update) (s : State),
      s.boot.mgmtRun = true ∧ s.mgmt.update = some x ∧ 4 < c) ∧
    (∃ (s : State),
      s.mgmt.update = none) ∧
    (∃ (b : Nat) (x : Update) (o : Bytes) (s : State),
      pldmUp b s = true ∧ s.mgmt.update = some x ∧ x.comps = [(1, o)]) ∧
    (∃ (b : Nat) (x : Update) (o : Bytes) (s : State),
      pldmUp b s = true ∧ s.mgmt.update = some x ∧ x.comps = [(2, o)]) ∧
    (∃ (b : Nat) (x : Update) (o : Bytes) (s : State),
      pldmUp b s = true ∧ s.mgmt.update = some x ∧ x.comps = [(3, o)]) ∧
    (∃ (b : Nat) (s : State),
      pldmUp b s = true ∧ s.mgmt.update = none) ∧
    (∃ (b : Nat) (v : Nat) (s : State),
      pldmUp b s = true ∧ v % 2 ^ 64 ≠ 0) ∧
    (∃ (b : Nat) (v : Nat) (s : State),
      pldmUp b s = true ∧ v % 2 ^ 64 = 0) ∧
    (∃ (b : Nat) (s : State),
      pldmUp b s = true) :=
  ⟨⟨0, sMg (fun m => m), by decide +kernel⟩,
   ⟨0, { binding := 0, comps := [] }, sMg (fun m => { m with update := some { binding := 0, comps := [] } }), by decide +kernel⟩,
   ⟨3, { binding := 0, comps := [] }, sMg (fun m => { m with update := some { binding := 0, comps := [] } }), by decide +kernel⟩,
   ⟨{ binding := 0, comps := [] }, sMg (fun m => { m with update := some { binding := 0, comps := [] } }), by decide +kernel⟩,
   ⟨5, { binding := 0, comps := [] }, sMg (fun m => { m with update := some { binding := 0, comps := [] } }), by decide +kernel⟩,
   ⟨z, by decide +kernel⟩,
   ⟨0, { binding := 0, comps := [(1, [])] }, [], sMg (fun m => { m with update := some { binding := 0, comps := [(1, [])] } }), by decide +kernel⟩,
   ⟨0, { binding := 0, comps := [(2, [])] }, [], sMg (fun m => { m with update := some { binding := 0, comps := [(2, [])] } }), by decide +kernel⟩,
   ⟨0, { binding := 0, comps := [(3, [])] }, [], sMg (fun m => { m with update := some { binding := 0, comps := [(3, [])] } }), by decide +kernel⟩,
   ⟨0, sMg (fun m => m), by decide +kernel⟩,
   ⟨0, 1, sMg (fun m => m), by decide +kernel⟩,
   ⟨0, 0, sMg (fun m => m), by decide +kernel⟩,
   ⟨0, sMg (fun m => m), by decide +kernel⟩⟩

theorem test_witness_recorder_and_snapshots :
    (∃ (n : Nat) (t : Nat) (src : Nat) (id : Nat) (l : List (Nat × Nat × Nat × Nat)) (s : State),
      (∀ r ∈ s.mgmt.records, r.seq = n → r.severity < 2) ∧ s.mgmt.snapWait = (n, t, src, id) :: l ∧ bufferBytes s.mgmt + 65536 ≤ 3145728) ∧
    (∃ (n : Nat) (t : Nat) (src : Nat) (id : Nat) (l : List (Nat × Nat × Nat × Nat)) (s : State),
      s.mgmt.snapWait = (n, t, src, id) :: l ∧ 4194304 < bufferBytes s.mgmt + 64) ∧
    (∃ (s : State),
      s.mgmt.snapWait = []) ∧
    (∃ (s : State),
      s.mgmt.snapWait.length < 9) ∧
    (∃ (r : Rec) (s : State),
      (s.mgmt.records.find? fun x => x.marked && decide (s.mgmt.cursor + 1 ≤ x.seq)) = some r) ∧
    (∃ (v : Nat) (r : Rec) (s : State),
      v < 2 ^ 64 ∧ (s.mgmt.records.find? fun x => x.marked && decide (v ≤ x.seq)) = some r) ∧
    (∃ (v : Nat) (s : State),
      (∀ r ∈ s.mgmt.records, r.marked = true → r.seq < v) ∧ v < 2 ^ 64) ∧
    (∃ (v : Nat) (n : Nat) (x : SnapSet) (s : State),
      n = bitsOf v 38 32 ∧ (s.mgmt.snaps.find? fun y => y.id == v % 2 ^ 32 && decide (512 * n < y.size)) = some x) ∧
    (∃ (fn : Nat) (v : Nat) (i : Instr),
      fn ≠ 1 ∧ i ∈ [.evrManual fn, .evrAdvance fn, .evrCursorWrite fn v, .evrSnapSelWrite fn v]) :=
  ⟨⟨4, 0, 0, 1, [], modMgmt (fun m => { m with snapWait := [(4, 0, 0, 1)], records := [recd1] }) z, by decide +kernel, by decide +kernel⟩,
   ⟨4, 0, 0, 1, [], sSnap (zeros 4194304), rfl, snap_big _ (by decide)⟩,
   ⟨z, by decide +kernel⟩,
   ⟨z, by decide +kernel⟩,
   ⟨recd1.seal, modMgmt (fun m => { m with records := [recd1.seal] }) z, by decide +kernel⟩,
   ⟨4, recd1.seal, modMgmt (fun m => { m with records := [recd1.seal] }) z, by decide +kernel⟩,
   ⟨5, modMgmt (fun m => { m with records := [recd1.seal] }) z, by decide +kernel, by decide +kernel⟩,
   ⟨2 ^ 32 + 4, 1, set1, modMgmt (fun m => { m with snaps := [set1] }) z, by decide +kernel⟩,
   ⟨0, 0, .evrManual 0, by decide +kernel⟩⟩

theorem test_witness_counters_and_page_interrupts :
    (∃ (fn : Nat),
      fn ≠ 1) ∧
    (∃ (fn : Nat) (p : Nat) (i : Nat) (e : Evc) (s : State),
      mayWrite fn p = true ∧ i < 8 ∧ (pageOf s p).evcs[i]? = some e ∧ (s.regs.evcFreeze = true ∨ e.enable = false)) ∧
    (∃ (p : Nat) (i : Nat) (e : Evc) (s : State),
      (pageOf s p).evcs[i]? = some e ∧ s.regs.evcFreeze = false ∧ e.enable = true) ∧
    (∃ (p : Nat) (i : Nat) (e : Evc) (s : State),
      i < 8 ∧ (pageOf s p).evcs[i]? = some e ∧ e.enable = true ∧ e.count = 2 ^ 48 - 1 ∧ s.regs.evcFreeze = false ∧ pageCounts s p = true ∧ (blockType p).isSome = true ∧ (p ≠ 1 ∨ e.source ≠ 4)) ∧
    (∃ (fn : Nat) (p : Nat),
      mayWrite fn p = true) ∧
    (∃ (fn : Nat) (p : Nat),
      mayWrite fn p = true) ∧
    (∃ (fn : Nat) (p : Nat),
      mayWrite fn p = false) :=
  ⟨⟨0, by decide +kernel⟩,
   ⟨1, 64, 7, {}, z, by decide +kernel⟩,
   ⟨64, 0, evc1, sEvc 64 evc1, by decide +kernel⟩,
   ⟨2, 0, evc1, sEvc 2 evc1, by decide +kernel⟩,
   ⟨1, 383, by decide +kernel⟩,
   ⟨0, 9, by decide +kernel⟩,
   ⟨2, 1, by decide +kernel⟩⟩

theorem test_witness_registers :
    (∃ (fn : Nat) (p : Nat) (o : Nat) (l : List RegSpan) (s : State),
      pageSpans s fn p = l ∧ is64 l o = true) ∧
    (∃ (fn : Nat) (p : Nat) (o : Nat) (x : BitVec 32) (l : List RegSpan) (s : State),
      pageSpans s fn p = l ∧ is64 l (o + 4) = false ∧ is64 l o = true ∧ halfOf s.regs.latched fn p o = some x) ∧
    (∃ (fn : Nat) (p : Nat) (o : Nat) (s : State),
      wide s fn p o = true) ∧
    (∃ (x : BitVec 32) (s : State),
      s.boot.level ≠ 3 ∧ halfOf s.regs.held 1 12 0x1008 = some x) ∧
    (∃ (fn : Nat) (p : Nat) (o : Nat) (n : Nat),
      goodAccess o n = false ∧ fn < 514 ∧ p < 512) ∧
    (∃ (o : Nat) (n : Nat),
      goodAccess o n = false) ∧
    (∃ (fn : Nat) (s : State),
      fn ≤ 1 ∧ s.boot.level ≠ 3) ∧
    (∃ (fn : Nat) (s : State),
      fn ≤ 1 ∧ s.boot.level ≠ 3) ∧
    (∃ (s : State),
      s.boot.level ≠ 3) ∧
    (∃ (s : State),
      s.boot.level ≠ 3) ∧
    (∃ (fn : Nat) (p : Nat) (s : State),
      2 ≤ fn ∧ p ≠ 1 ∧ s.boot.level ≠ 3) ∧
    (∃ (p : Packet) (s : State),
      FromAnchor p s ∧ Routed p.src s ∧ regPage p = 10 ∧ goodAccess (regOffset p) (regSize p) = true) ∧
    (∃ (p : Packet) (s : State),
      FromAnchor p s ∧ Routed p.src s ∧ regPage p ≠ 10) ∧
    (∃ (p : Packet) (s : State),
      FromAnchor p s ∧ s.boot.level ≠ 3 ∧ regPage p = 10 ∧ regOffset p = 0x1010 ∧ regSize p = 4) :=
  ⟨⟨1, 1, 0x60, pageSpans z 1 1, z, rfl, by decide +kernel⟩,
   ⟨1, 1, 0x60, 5, pageSpans (modRegs (fun r => { r with latched := [(1, 1, 0x60, 5)] }) z) 1 1, modRegs (fun r => { r with latched := [(1, 1, 0x60, 5)] }) z, rfl, by decide +kernel⟩,
   ⟨1, 1, 0x98, z, by decide +kernel⟩,
   ⟨5, modRegs (fun r => { r with held := [(1, 12, 0x1008, 5)] }) z, by decide +kernel⟩,
   ⟨513, 511, 2, 4, by decide +kernel⟩,
   ⟨4, 8, by decide +kernel⟩,
   ⟨1, z, by decide +kernel⟩,
   ⟨0, z, by decide +kernel⟩,
   ⟨z, by decide +kernel⟩,
   ⟨z, by decide +kernel⟩,
   ⟨2, 0, z, by decide +kernel⟩,
   ⟨pk 0x44 10 0x1010 [], sFab, by unfold FromAnchor; decide +kernel, by unfold Routed; decide +kernel, by decide +kernel⟩,
   ⟨pk 0x44 9 0x1010 [], sFab, by unfold FromAnchor; decide +kernel, by unfold Routed; decide +kernel, by decide +kernel⟩,
   ⟨pk 0x43 10 0x1010 [], sFab, by unfold FromAnchor; decide +kernel, by decide +kernel⟩⟩

theorem test_witness_memory_limit_registers :
    (∃ (fn : Nat) (o : Nat) (lo : Nat) (hi : Nat) (w : Nat) (s : State),
      fn ≤ 1 ∧ s.boot.level ≠ 3 ∧ (o, w, lo, hi) ∈ [(0x1008, 8, 1, 168), (0x100C, 20, 0, 983040), (0x1010, 3, 1, 4), (0x1014, 5, 0, 19), (0x101C, 8, 1, 255)]) :=
  ⟨1, 0x101C, 1, 255, 8, z, by decide +kernel⟩

theorem test_witness_page_identity_and_mapping :
    (∃ (fn : Nat) (p : Nat) (s : State),
      pageMapped fn p = true ∧ s.boot.level ≠ 3) ∧
    (∃ (fn : Nat) (p : Nat) (s : State),
      pageMapped fn p = false ∧ s.boot.level ≠ 3) ∧
    (∃ (fn : Nat) (p : Nat) (o : Nat) (n : Nat) (s : State),
      pageMapped fn p = false ∧ s.boot.level ≠ 3 ∧ goodAccess o n = true) ∧
    (∃ (o : Nat) (n : Nat) (s : State),
      s.boot.level ≠ 3 ∧ goodAccess o n = true) :=
  ⟨⟨2, 1, z, by decide +kernel⟩,
   ⟨2, 0, z, by decide +kernel⟩,
   ⟨0, 13, 0, 8, z, by decide +kernel⟩,
   ⟨0, 4, z, by decide +kernel⟩⟩

end Sys2Proof.Tests
end

section
/-! PROOFS. Stage boundaries, freed entries and cancels: what the one way a request ends does to the request table, and what a
boundary, an ENTRY_FREE and a CANCEL leave (01 R17 to R35, 10 R378 to R384). -/

namespace Sys2Proof.Machine

/-! ### Frames of shared operations -/

/-- States with the same parts are the same state. -/
theorem state_ext {s t : State} (pending : s.pending = t.pending) (regs : s.regs = t.regs) (hif : s.hif = t.hif)
    (sched : s.sched = t.sched) (obj : s.obj = t.obj) (gen : s.gen = t.gen) (search : s.search = t.search)
    (mem : s.mem = t.mem) (flash : s.flash = t.flash) (fab : s.fab = t.fab) (boot : s.boot = t.boot) (sec : s.sec = t.sec)
    (mgmt : s.mgmt = t.mgmt) (free : s.free = t.free) : s = t := by
  cases s; cases t; simp_all

section
variable (s : State)

@[simp] theorem pumpPort_gen (n : Nat) : (pumpPort n s).gen = s.gen := by simp [pumpPort]

@[simp] theorem putOn_gen (n lvl : Nat) (p : Packet) : (putOn n lvl p s).gen = s.gen := by simp [putOn]

@[simp] theorem dropNoRoute_gen : (dropNoRoute s).gen = s.gen := by simp [dropNoRoute]

@[simp] theorem routeAt_gen (lvl : Nat) (p : Packet) : (routeAt lvl p s).gen = s.gen := by
  unfold routeAt
  dsimp only
  split
  · rfl
  · split
    · simp
    · simp
    · split
      · split <;> simp
      · simp

@[simp] theorem sendAll_gen (p : Packet) : (sendAll p s).gen = s.gen :=
  foldS_keeps (fun t => t.gen) _ _ _ fun t _ => routeAt_gen t _ _

@[simp] theorem sendReq_gen (p : Packet) (who : Option Nat) : (sendReq p who s).gen = s.gen := by
  simp [sendReq, sendReqFor, modPair]

/-- The packets that release an entry's remote pins leave the request table (16 R614). -/
@[simp] theorem sendUnpins_gen (e : Nat) : (sendUnpins e s).gen = s.gen := by
  unfold sendUnpins
  split
  · rfl
  · refine foldS_keeps (fun t => t.gen) _ _ _ fun t _ => ?_
    split <;> simp

@[simp] theorem freeSlots_gen (n : Nat) (l : List (Nat × Nat)) : (freeSlots n l s).gen = s.gen :=
  foldS_keeps (fun t => t.gen) _ _ _ fun t x => by simp

@[simp] theorem endUnit_gen (n : Nat) : (endUnit n s).gen = s.gen := by
  unfold endUnit
  split <;> simp

@[simp] theorem returnPages_gen (h : Nat) (ps : List Nat) : (returnPages h ps s).gen = s.gen :=
  foldS_keeps (fun t => t.gen) _ _ _ fun t x => by simp

@[simp] theorem dropBaton_entries (k : Nat) : (dropBaton k s).gen.entries = s.gen.entries := by
  unfold dropBaton
  split
  · rfl
  · split <;> simp

@[simp] theorem killTag_gen (t : Nat) : (killTag t s).gen = s.gen := rfl

@[simp] theorem oweShards_gen (w : SearchWork) : (oweShards w s).gen = s.gen := by
  unfold oweShards
  split <;> rfl

/-- The text counters and their events touch nothing but the objects, the host interface and the register pages (06 R219). -/
theorem countText_only (a b c : Nat) : ∃ o h r, countText a b c s = { s with obj := o, hif := h, regs := r } := by
  refine ⟨(countText a b c s).obj, (countText a b c s).hif, (countText a b c s).regs, ?_⟩
  apply state_ext <;> simp [countText]

/-- What is kept only for requests that have ended is objects and flash units (01 R27, 05 R146, 07 R225, 11 R397). -/
theorem releaseUnused_only : ∃ o x, releaseUnused s = { s with obj := o, flash := x } := by
  refine ⟨(releaseUnused s).obj, (releaseUnused s).flash, ?_⟩
  simp only [releaseUnused, whenS]
  split <;> rfl

/-- Raising an account's vtime touches the accounts alone (14 R533). -/
theorem raiseVtime_only (prio a : Nat) : ∃ l, raiseVtime prio a s = { s with sched := { s.sched with accounts := l } } := by
  unfold raiseVtime
  dsimp only
  split
  · exact ⟨_, rfl⟩
  · split <;> exact ⟨_, rfl⟩

/-- A new unit takes the next number, and nothing but the scheduler's accounts and units differs (14 R528, R533). -/
theorem newUnit_only (kind : UnitKind) (ms : List (Nat × Nat × Nat)) (prio image span sram dies : Nat) :
    ∃ l y, y.kind = kind ∧ (newUnit kind ms prio image span sram dies s).2 =
      { s with sched := { s.sched with
          accounts := l, nextUnit := s.sched.nextUnit + 1, units := mset s.sched.units s.sched.nextUnit y } } := by
  have hraise : ∃ l, foldS (ms.map (·.2.1)) (fun t a => raiseVtime prio a t) s =
      { s with sched := { s.sched with accounts := l } } := by
    refine foldS_inv (fun t => ∃ l, t = { s with sched := { s.sched with accounts := l } }) _ _ _ ?_ ⟨_, rfl⟩
    rintro t a ⟨l, rfl⟩
    exact raiseVtime_only _ prio a
  obtain ⟨l, hl⟩ := hraise
  exact ⟨l, _, rfl, by simp only [newUnit, hl]; rfl⟩

/-- Settling a search tag touches its entry and the searches alone (08 R305). -/
theorem settleTag_only (e : Nat) :
    ∃ l q, settleTag e s = { s with gen := { s.gen with entries := l }, search := q } := by
  unfold settleTag oweShards
  split
  · exact ⟨_, _, rfl⟩
  · split
    · split
      · split <;> exact ⟨_, _, rfl⟩
      · exact ⟨_, _, rfl⟩
    · exact ⟨_, _, rfl⟩

end

/-- An entry without a search tag has none to settle. -/
theorem settleTag_of_no_tag {e : Nat} {x : RtEntry} {s : State} (hx : mget s.gen.entries e = some x)
    (ht : x.work.search.tag = none) : settleTag e s = s := by
  simp [settleTag, entryOf, hx, ht]

/-! ### What happens to an entry after its end -/

/-- What no operation after an entry's end changes: that it is in DRAIN, how and where it ended, and that it has been completed
and its cancels answered. -/
structure EndKept (x y : RtEntry) : Prop where
  state : y.state = x.state
  finish : y.finish = x.finish
  endStage : y.work.endStage = x.work.endStage
  completed : x.work.completed = true → y.work.completed = true
  cancellers : x.cancellers = [] → y.cancellers = []

theorem EndKept.refl (x : RtEntry) : EndKept x x := ⟨rfl, rfl, rfl, id, id⟩

theorem EndKept.trans {x y z : RtEntry} (h : EndKept x y) (k : EndKept y z) : EndKept x z :=
  ⟨k.state.trans h.state, k.finish.trans h.finish, k.endStage.trans h.endStage, k.completed ∘ h.completed,
    k.cancellers ∘ h.cancellers⟩

/-- An entry stays in the table with its end kept. -/
def EntryKept (e : Nat) (s u : State) : Prop :=
  ∀ x, mget s.gen.entries e = some x → ∃ y, mget u.gen.entries e = some y ∧ EndKept x y

theorem EntryKept.trans {e : Nat} {s t u : State} (h : EntryKept e s t) (k : EntryKept e t u) : EntryKept e s u := by
  intro x hx
  obtain ⟨y, hy, hxy⟩ := h x hx
  obtain ⟨z, hz, hyz⟩ := k y hy
  exact ⟨z, hz, hxy.trans hyz⟩

/-- Every other entry is as before. -/
def OthersKept (e : Nat) (s u : State) : Prop := ∀ j, j ≠ e → mget u.gen.entries j = mget s.gen.entries j

theorem OthersKept.trans {e : Nat} {s t u : State} (h : OthersKept e s t) (k : OthersKept e t u) : OthersKept e s u :=
  fun j hj => (k j hj).trans (h j hj)

/-- Nothing of the request table but one entry differs, and that entry's end is kept. -/
structure Follows (e : Nat) (s u : State) : Prop where
  others : OthersKept e s u
  entry : EntryKept e s u

theorem Follows.trans {e : Nat} {s t u : State} (h : Follows e s t) (k : Follows e t u) : Follows e s u :=
  ⟨h.others.trans k.others, h.entry.trans k.entry⟩

theorem Follows.of_entries {e : Nat} {s u : State} (h : u.gen.entries = s.gen.entries) : Follows e s u :=
  ⟨fun j _ => by rw [h], fun x hx => ⟨x, by rw [h, hx], EndKept.refl x⟩⟩

theorem Follows.refl (e : Nat) (s : State) : Follows e s s := .of_entries rfl

theorem mget_modEntry (e j : Nat) (f : RtEntry → RtEntry) (s : State) : mget (modEntry e f s).gen.entries j =
    if j = e then (mget s.gen.entries e).map f else mget s.gen.entries j := mget_mupd _ _ _ _

theorem modEntry_others (e : Nat) (f : RtEntry → RtEntry) (s : State) : OthersKept e s (modEntry e f s) :=
  fun j hj => by rw [mget_modEntry, if_neg hj]

theorem mget_modEntry_same {e : Nat} {x : RtEntry} {s : State} (f : RtEntry → RtEntry)
    (hx : mget s.gen.entries e = some x) : mget (modEntry e f s).gen.entries e = some (f x) := by
  rw [mget_modEntry, if_pos rfl, hx, Option.map_some]

theorem Follows.modEntry {e : Nat} {f : RtEntry → RtEntry} {s : State} (h : ∀ x, EndKept x (f x)) :
    Follows e s (modEntry e f s) :=
  ⟨modEntry_others e f s, fun x hx => ⟨f x, mget_modEntry_same f hx, h x⟩⟩

theorem Follows.modSearchWork {e : Nat} {f : SearchWork → SearchWork} {s : State} : Follows e s (modSearchWork e f s) :=
  .modEntry fun _ => ⟨rfl, rfl, rfl, id, id⟩

/-- An update of an entry that is not there leaves the table. -/
theorem modEntry_of_none {e : Nat} {f : RtEntry → RtEntry} {s : State} (hx : entryOf s e = none) : modEntry e f s = s := by
  have hx : mget s.gen.entries e = none := hx
  simp [modEntry, modGen, mupd, hx]

/-! ### The operations of an end -/

/-- A charge adds to the entry's counters (14 R543). -/
theorem charge_gen (e : Nat) (c : Counters) (s : State) :
    (charge e c s).gen = (modEntry e (fun y => { y with ctr := y.ctr.add c }) s).gen := by
  unfold charge
  split
  next hx => rw [modEntry_of_none hx]
  next => rfl

@[simp] theorem charge_units (e : Nat) (c : Counters) (s : State) : (charge e c s).sched.units = s.sched.units := by
  unfold charge
  split <;> rfl

/-- A charge to any entry keeps every entry's end. -/
theorem charge_entryKept (e j : Nat) (c : Counters) (s : State) : EntryKept e s (charge j c s) := by
  intro x hx
  rw [charge_gen, mget_modEntry]
  split
  next he =>
    subst he
    exact ⟨{ x with ctr := x.ctr.add c }, by rw [hx, Option.map_some], rfl, rfl, rfl, id, id⟩
  next => exact ⟨x, hx, EndKept.refl x⟩

theorem charge_follows (e : Nat) (c : Counters) (s : State) : Follows e s (charge e c s) :=
  ⟨fun j hj => by rw [charge_gen, mget_modEntry, if_neg hj], charge_entryKept e e c s⟩

theorem chargeHeld_follows (e : Nat) (x : RtEntry) (s : State) : Follows e s (chargeHeld e x s) := by
  unfold chargeHeld
  split
  · exact charge_follows _ _ _
  · exact .refl _ _

@[simp] theorem chargeHeld_units (e : Nat) (x : RtEntry) (s : State) : (chargeHeld e x s).sched.units = s.sched.units := by
  unfold chargeHeld
  split <;> simp

/-- No unit serves the entry: there is none to end. -/
theorem endUnitsOf_of_none {e : Nat} {s : State} (h : entryUnits s e = []) : endUnitsOf e s = s := by
  simp [endUnitsOf, h]

/-- Ending units charges their members' waits, which keeps every entry's end (14 R543). -/
theorem endUnitsOf_entryKept (e : Nat) (s : State) : EntryKept e s (endUnitsOf e s) := by
  refine foldS_inv (EntryKept e s) _ _ _ (fun t u ht => ?_) (Follows.refl e s).entry
  have hwait : EntryKept e t (chargeWait u.2 (now t - u.2.readyTime) t) :=
    foldS_inv (EntryKept e t) _ _ _ (fun v m hv => hv.trans (charge_entryKept e m.1 _ v)) (Follows.refl e t).entry
  split
  · exact ht.trans (hwait.trans (Follows.of_entries (by rw [endUnit_gen])).entry)
  · exact ht.trans (Follows.of_entries (by rw [endUnit_gen])).entry

/-- A completed entry is marked so, and nothing else of the request table differs (15 R582). -/
theorem completeEntry_gen (e result : Nat) (s : State) :
    (completeEntry e result s).gen = (modWork e (fun w => { w with completed := true }) s).gen := by
  unfold completeEntry
  split
  next hx => rw [modWork, modEntry_of_none hx]
  next =>
    dsimp only
    split
    · simp
    · split <;> simp

/-- The cancels of an entry are answered: it has none left (10 R378, R379). -/
theorem finishCanceller_gen (e : Nat) (s : State) :
    (finishCanceller e s).gen = (modEntry e (fun x => { x with cancellers := [] }) s).gen :=
  foldS_keeps (fun t => t.gen) _ _ _ fun t _ => complete_gen _ _ t

theorem killEntry_follows (e : Nat) (s : State) : Follows e s (killEntry e s) := by
  unfold killEntry
  split
  · exact (Follows.of_entries (by rw [killTag_gen])).trans .modSearchWork
  · exact .refl _ _

theorem settleTag_follows (e : Nat) (s : State) : Follows e s (settleTag e s) := by
  unfold settleTag
  split
  · exact .refl _ _
  · split
    · split
      · exact (Follows.of_entries (by simp [dropTag])).trans .modSearchWork
      · exact .refl _ _
    · exact .refl _ _

/-- An entry whose pages, reservations and baton reference have returned (10 R384). -/
def emptied (y : RtEntry) : RtEntry :=
  { y with pages := [], draftPages := [], pagesRsvd := 0, draftRsvd := 0, work := { y.work with pagesReturned := true } }

theorem emptied_endKept (y : RtEntry) : EndKept y (emptied y) := ⟨rfl, rfl, rfl, id, id⟩

theorem returnEntry_follows (e : Nat) (s : State) : Follows e s (returnEntry e s) := by
  unfold returnEntry
  split
  · exact .refl _ _
  · split
    · exact .refl _ _
    · refine (Follows.modEntry emptied_endKept).trans (.of_entries ?_)
      dsimp only
      split
      · simp only [dropBaton_entries, modGen_gen, returnPages_gen]
        rfl
      · simp only [returnPages_gen]
        rfl

/-! ### The end of a request (10 R347, R384) -/

/-- The finish of an ended request: the status it ends with, unless its function is disabled (14 R541). -/
def endFinish (x : RtEntry) (status : Nat) : Nat :=
  if x.work.disabled then (if x.cancelPending then Status.cancelled else Status.functionReset) else status

/-- Output bytes that a request still held when it ended, none where its finish delivers them; the report counts them (15 R582). -/
def heldAtEnd (x : RtEntry) (fin : Nat) : Nat :=
  if fin = Status.stop ∨ fin = Status.eos ∨ fin = Status.length then 0 else (x.work.out.length - x.work.rel) + x.work.tail.length

/-- An entry as it passes to DRAIN at an instant (10 R347). -/
def markEnded (fin held detail stage at_ : Nat) (y : RtEntry) : RtEntry :=
  { y with
    state := .drain, finish := fin
    work := { y.work with detail := detail, endStage := stage, endTime := at_,
                          heldDiscarded := y.work.heldDiscarded + (if 12 ≤ stage then held else 0) } }

/-- An entry that passes to DRAIN with the finish of its end. -/
def markedEntry (e status detail stage : Nat) (x : RtEntry) (s : State) : State :=
  modEntry e (markEnded (endFinish x status) (heldAtEnd x (endFinish x status)) detail stage (now s)) s

/-- The first part of an end: the entry passes to DRAIN, its charges close, the end is counted. -/
def openEnd (e status detail stage : Nat) (x : RtEntry) (s : State) : State :=
  evCount 3 2 1 (modGen (fun g => { g with
    cancelled := g.cancelled + b2n (decide (12 ≤ stage) && endFinish x status == Status.cancelled)
    deadlines := g.deadlines + b2n (decide (12 ≤ stage) && endFinish x status == Status.deadline) })
    (charge e { ended := 1 } (chargeHeld e x (markedEntry e status detail stage x s))))

/-- The last part of an end: its search is killed, it completes, its pins and cancels are answered, its pages return. -/
def closeEnd (e result : Nat) (x : RtEntry) (s : State) : State :=
  let answered := finishCanceller e (sendUnpins e (completeEntry e result (killEntry e s)))
  if stepInFlight answered x.genImage && holdsPages x then answered else returnEntry e answered

/-- An end is its first part, the end of the entry's units, and its last part. -/
theorem endEntry_eq {e : Nat} {x : RtEntry} {s : State} (status detail stage result : Nat)
    (hx : mget s.gen.entries e = some x) (hs : x.state ≠ .drain) :
    endEntry e status detail stage result s = closeEnd e result x (endUnitsOf e (openEnd e status detail stage x s)) := by
  have hx : entryOf s e = some x := hx
  simp only [endEntry, hx, hs, if_false]
  rfl

@[simp] theorem openEnd_units (e status detail stage : Nat) (x : RtEntry) (s : State) :
    (openEnd e status detail stage x s).sched.units = s.sched.units := by simp [openEnd, markedEntry]

/-- The charges and counts of an end keep the end that the entry is marked with. -/
theorem openEnd_follows (e status detail stage : Nat) (x : RtEntry) (s : State) :
    Follows e (markedEntry e status detail stage x s) (openEnd e status detail stage x s) :=
  (chargeHeld_follows e x _).trans ((charge_follows e { ended := 1 } _).trans (.of_entries (by simp [openEnd])))

theorem openEnd_others (e status detail stage : Nat) (x : RtEntry) (s : State) :
    OthersKept e s (openEnd e status detail stage x s) :=
  (modEntry_others e _ s).trans (openEnd_follows e status detail stage x s).others

/-- A request whose function is not disabled passes to DRAIN with the finish and the stage of its end. -/
theorem openEnd_entry {e : Nat} {x : RtEntry} {s : State} (status detail stage : Nat)
    (hx : mget s.gen.entries e = some x) (hd : x.work.disabled = false) :
    ∃ y, mget (openEnd e status detail stage x s).gen.entries e = some y ∧
      y.state = .drain ∧ y.finish = status ∧ y.work.endStage = stage := by
  obtain ⟨y, hy, hk⟩ := (openEnd_follows e status detail stage x s).entry _ (mget_modEntry_same _ hx)
  have hfin : endFinish x status = status := by simp [endFinish, hd]
  exact ⟨y, hy, hk.state, hk.finish.trans hfin, hk.endStage⟩

/-- The last part of an end up to the answers: the entry is completed and its cancels are answered. -/
theorem answered_entry {e : Nat} {x : RtEntry} {s : State} (result : Nat) (hx : mget s.gen.entries e = some x) :
    ∃ y, mget (finishCanceller e (sendUnpins e (completeEntry e result s))).gen.entries e = some y ∧
      EndKept x y ∧ y.work.completed = true ∧ y.cancellers = [] := by
  refine ⟨{ x with cancellers := [], work := { x.work with completed := true } }, ?_,
    ⟨rfl, rfl, rfl, fun _ => rfl, fun _ => rfl⟩, rfl, rfl⟩
  rw [finishCanceller_gen]
  refine mget_modEntry_same _ (x := { x with work := { x.work with completed := true } }) ?_
  rw [sendUnpins_gen, completeEntry_gen]
  exact mget_modEntry_same _ hx

theorem answered_others (e result : Nat) (s : State) :
    OthersKept e s (finishCanceller e (sendUnpins e (completeEntry e result s))) := by
  intro j hj
  rw [finishCanceller_gen, modEntry_others _ _ _ j hj, sendUnpins_gen, completeEntry_gen]
  exact modEntry_others _ _ _ j hj

theorem closeEnd_others (e result : Nat) (x : RtEntry) (s : State) : OthersKept e s (closeEnd e result x s) := by
  have h := (killEntry_follows e s).others.trans (answered_others e result _)
  unfold closeEnd
  dsimp only
  split
  · exact h
  · exact h.trans (returnEntry_follows e _).others

theorem closeEnd_entry {e : Nat} {y : RtEntry} {s : State} (result : Nat) (x : RtEntry)
    (hy : mget s.gen.entries e = some y) :
    ∃ z, mget (closeEnd e result x s).gen.entries e = some z ∧ EndKept y z ∧ z.work.completed = true ∧ z.cancellers = [] := by
  obtain ⟨y1, hy1, hk1⟩ := (killEntry_follows e s).entry y hy
  obtain ⟨y2, hy2, hk2, hdone, hnone⟩ := answered_entry result hy1
  unfold closeEnd
  dsimp only
  split
  · exact ⟨y2, hy2, hk1.trans hk2, hdone, hnone⟩
  · obtain ⟨z, hz, hk3⟩ := (returnEntry_follows e _).entry y2 hy2
    exact ⟨z, hz, (hk1.trans hk2).trans hk3, hk3.completed hdone, hk3.cancellers hnone⟩

/-- An entry that has ended: it is in DRAIN with a finish and the stage of its end, it has been completed, and no cancel of it
waits (10 R347, R378, R384). -/
structure Ended (fin stage : Nat) (y : RtEntry) : Prop where
  state : y.state = .drain
  finish : y.finish = fin
  endStage : y.work.endStage = stage
  completed : y.work.completed = true
  cancellers : y.cancellers = []

theorem Ended.kept {fin stage : Nat} {x y : RtEntry} (h : Ended fin stage x) (k : EndKept x y) : Ended fin stage y :=
  ⟨k.state.trans h.state, k.finish.trans h.finish, k.endStage.trans h.endStage, k.completed h.completed,
    k.cancellers h.cancellers⟩

/-- A request that has not ended, of a function that is not disabled, ends as it is told to. -/
theorem endEntry_ends {e : Nat} {x : RtEntry} {s : State} (status detail stage result : Nat)
    (hx : mget s.gen.entries e = some x) (hs : x.state ≠ .drain) (hd : x.work.disabled = false) :
    ∃ y, mget (endEntry e status detail stage result s).gen.entries e = some y ∧ Ended status stage y := by
  rw [endEntry_eq status detail stage result hx hs]
  obtain ⟨y1, hy1, hstate, hfin, hstage⟩ := openEnd_entry status detail stage hx hd
  obtain ⟨y2, hy2, hk2⟩ := endUnitsOf_entryKept e _ y1 hy1
  obtain ⟨z, hz, hk3, hdone, hnone⟩ := closeEnd_entry result x hy2
  have hk := hk2.trans hk3
  exact ⟨z, hz, hk.state.trans hstate, hk.finish.trans hfin, hk.endStage.trans hstage, hdone, hnone⟩

theorem entryUnits_congr {s t : State} (e : Nat) (h : t.sched.units = s.sched.units) : entryUnits t e = entryUnits s e := by
  simp only [entryUnits, h]

/-- The end of a request that no unit serves leaves every other entry. -/
theorem endEntry_others {e : Nat} {x : RtEntry} {s : State} (status detail stage result : Nat)
    (hx : mget s.gen.entries e = some x) (hs : x.state ≠ .drain) (hu : entryUnits s e = []) :
    OthersKept e s (endEntry e status detail stage result s) := by
  rw [endEntry_eq status detail stage result hx hs,
    endUnitsOf_of_none ((entryUnits_congr e (openEnd_units e status detail stage x s)).trans hu)]
  exact (openEnd_others e status detail stage x s).trans (closeEnd_others e result x _)

/-! ### The boundary after stage 1 (01 R17 to R35) -/

/-- A request has pinned all it needs in stage 1, and no unit serves it: its next boundary hands over (01 R17). -/
structure AtStage1 (e : Nat) (x : RtEntry) (p : Profile) (s : State) : Prop where
  entry : mget s.gen.entries e = some x
  profile : x.work.profile = some p
  state : x.state = .pre
  mode : x.mode ≠ 4
  stage : x.work.stage = 1
  pins : x.work.pinsLeft = 0
  units : entryUnits s e = []

/-- Nothing ends a request at its boundary: no cancel, disable or fault waits, and its deadline, where it has one, is ahead
(01 R31, R33; 14 R541; 15 R555). -/
structure GoesOn (x : RtEntry) (s : State) : Prop where
  cancel : x.cancelPending = false
  disabled : x.work.disabled = false
  fault : x.work.pendingFault = none
  deadline : x.deadline = 0 ∨ now s < x.deadline

section
variable {e : Nat} {x : RtEntry} {p : Profile} {s : State}

theorem exec_stageBoundary {u : State} (h : stageBoundary e s = u) : exec (.stageBoundary e) s = .next u :=
  congrArg Host.Outcome.next h

/-- While a pin of stage 1 is awaited nothing happens (11 R400; log entry 2). -/
theorem stageBoundary_waits (hx : mget s.gen.entries e = some x) (hp : x.work.profile = some p) (h1 : x.work.stage = 1)
    (hpins : x.work.pinsLeft ≠ 0) : stageBoundary e s = s := by
  simp [stageBoundary, handOver, entryOf, hx, hp, h1, hpins]

/-- At the boundary a cancelled request ends CANCELLED (01 R31). -/
theorem stageBoundary_cancelled (h : AtStage1 e x p s) (hc : x.cancelPending = true) :
    stageBoundary e s = settleTag e (endEntry e Status.cancelled 0 1 0 s) := by
  simp [stageBoundary, handOver, entryOf, h.entry, h.profile, h.state, h.mode, h.stage, h.pins, hc,
    endUnitsOf_of_none h.units]

/-- At the boundary a request at or past its deadline ends DEADLINE (01 R33). -/
theorem stageBoundary_deadline (h : AtStage1 e x p s) (hc : x.cancelPending = false) (hd : x.work.disabled = false)
    (hf : x.work.pendingFault = none) (hl : x.deadline ≠ 0) (hn : x.deadline ≤ now s) :
    stageBoundary e s = settleTag e (endEntry e Status.deadline 0 1 0 s) := by
  simp [stageBoundary, handOver, entryOf, h.entry, h.profile, h.state, h.mode, h.stage, h.pins, hc, hd, hf, hl, hn,
    endUnitsOf_of_none h.units]

/-- At the boundary a request that nothing ends starts its mode's next stage (01 R17, R20). -/
theorem stageBoundary_next (h : AtStage1 e x p s) (g : GoesOn x s) :
    stageBoundary e s = settleTag e (startStage e (nextStage x.mode 1) p s) := by
  have hn : ¬ (x.deadline ≠ 0 ∧ x.deadline ≤ now s) := by
    have := g.deadline
    omega
  simp [stageBoundary, handOver, entryOf, h.entry, h.profile, h.state, h.mode, h.stage, h.pins, g.cancel, g.disabled,
    g.fault, hn, endUnitsOf_of_none h.units]

/-- What ends at the boundary has ended at stage 1, and no other entry differs. -/
theorem settled_end_of_stage1 (h : AtStage1 e x p s) (hd : x.work.disabled = false) (status : Nat) :
    ∃ y, mget (settleTag e (endEntry e status 0 1 0 s)).gen.entries e = some y ∧ Ended status 1 y ∧
      OthersKept e s (settleTag e (endEntry e status 0 1 0 s)) := by
  have hs : x.state ≠ .drain := by simp [h.state]
  obtain ⟨y, hy, hend⟩ := endEntry_ends status 0 1 0 h.entry hs hd
  obtain ⟨z, hz, hk⟩ := (settleTag_follows e _).entry y hy
  exact ⟨z, hz, hend.kept hk, (endEntry_others status 0 1 0 h.entry hs h.units).trans (settleTag_follows e _).others⟩

/-- Stage 4 starts: the entry is in it, and a new unit serves it (14 R528). -/
theorem startStage_four (hx : mget s.gen.entries e = some x) : ∃ l y, y.kind = .stage e 4 ∧ startStage e 4 p s =
    modWork e (fun w => { w with stage := 4 }) { s with sched := { s.sched with
      accounts := l, nextUnit := s.sched.nextUnit + 1, units := mset s.sched.units s.sched.nextUnit y } } := by
  have hx : entryOf s e = some x := hx
  simp only [startStage, hx, stageUnit]
  obtain ⟨l, y, hy, heq⟩ := newUnit_only (modWork e (fun w => { w with stage := 4 }) s) (.stage e 4) [(e, x.account, 1)]
    x.prio 0 (max 1 (((mget s.obj.images 0).map (·.span)).getD 1)) (((mget s.obj.images 0).map (·.sram)).getD 0)
    (acctDies s x.account)
  exact ⟨l, y, hy, heq⟩

/-- An entry whose tokenizer lane has taken its input: the tokens of the pieces that close join its tokens (06 R201 to R203). -/
def textTaken (r : List Nat × Nat × TextIn) (x : RtEntry) : RtEntry :=
  { x with
    ctr := x.ctr.add { tokensIn := r.1.length }
    work := { x.work with
      input := [], lane := r.2.2, tokens := x.work.tokens ++ r.1, invalidBytes := x.work.invalidBytes + r.2.1 } }

/-- In stage 2 the input that has arrived becomes tokens, which are charged and counted (06 R219, 14 R543). -/
theorem takeText_taken {tk : Tokenizer} {r : List Nat × Nat × TextIn} (hx : mget s.gen.entries e = some x)
    (hs : x.work.stage = 2) (ht : x.work.tokenizer = some tk)
    (hr : r = feed tk x.work.textOpts x.work.inputDone x.work.lane x.work.input) :
    mget (takeText e s).gen.entries e = some (textTaken r x) ∧ OthersKept e s (takeText e s) ∧
      ∃ g d o h m, takeText e s = { s with gen := g, sched := d, obj := o, hif := h, regs := m } := by
  have hx' : entryOf s e = some x := hx
  obtain ⟨t, ht'⟩ : ∃ t, t = modWork e (fun w => { w with
      input := [], lane := r.2.2, tokens := w.tokens ++ r.1, invalidBytes := w.invalidBytes + r.2.1 }) s := ⟨_, rfl⟩
  have heq : takeText e s = countText x.work.input.length r.1.length r.2.1 (charge e { tokensIn := r.1.length } t) := by
    simp only [takeText, hx', ht, hs, ht', hr]
    rfl
  obtain ⟨o, h, m, hcount⟩ := countText_only (charge e { tokensIn := r.1.length } t) x.work.input.length r.1.length r.2.1
  rw [heq, hcount]
  refine ⟨?_, ?_, ?_⟩
  · subst ht'
    show mget (charge e _ _).gen.entries e = _
    rw [charge_gen]
    exact mget_modEntry_same _ (mget_modEntry_same _ hx)
  · subst ht'
    exact (modEntry_others e _ s).trans (charge_follows e _ _).others
  · refine ⟨(charge e { tokensIn := r.1.length } t).gen, (charge e { tokensIn := r.1.length } t).sched, o, h, m, ?_⟩
    subst ht'
    apply state_ext <;> simp [modWork]

/-- From stage 1 a SEARCH_VECTOR request goes to stage 4 (01 R20). -/
theorem stageBoundary_enters_four (h : AtStage1 e x p s) (g : GoesOn x s) (hm : x.mode = 2)
    (ht : x.work.search.tag = none) :
    ∃ l y, y.kind = .stage e 4 ∧ stageBoundary e s =
      modWork e (fun w => { w with stage := 4 }) { s with sched := { s.sched with
        accounts := l, nextUnit := s.sched.nextUnit + 1, units := mset s.sched.units s.sched.nextUnit y } } := by
  obtain ⟨l, y, hy, hstart⟩ := startStage_four (p := p) h.entry
  refine ⟨l, y, hy, ?_⟩
  rw [stageBoundary_next h g, hm, show nextStage 2 1 = 4 from rfl, hstart]
  exact settleTag_of_no_tag (x := { x with work := { x.work with stage := 4 } }) (mget_modEntry_same _ h.entry) ht

/-- From stage 1 a request whose input is text goes to stage 2, where its input becomes tokens (01 R20, 06 R201). -/
theorem stageBoundary_enters_text (h : AtStage1 e x p s) (g : GoesOn x s) (hm : x.mode ≠ 2)
    (ht : x.work.search.tag = none) {tk : Tokenizer} (htk : x.work.tokenizer = some tk) {r : List Nat × Nat × TextIn}
    (hr : r = feed tk x.work.textOpts x.work.inputDone x.work.lane x.work.input) :
    mget (stageBoundary e s).gen.entries e = some (textTaken r { x with work := { x.work with stage := 2 } }) ∧
      OthersKept e s (stageBoundary e s) ∧
      ∃ a d o i m, stageBoundary e s = { s with gen := a, sched := d, obj := o, hif := i, regs := m } := by
  have hent : entryOf s e = some x := h.entry
  have hmark : mget (modWork e (fun w => { w with stage := 2 }) s).gen.entries e =
      some { x with work := { x.work with stage := 2 } } := mget_modEntry_same _ h.entry
  obtain ⟨hy, hothers, a, d, o, i, m, hframe⟩ := takeText_taken hmark rfl htk hr
  have hb : stageBoundary e s = takeText e (modWork e (fun w => { w with stage := 2 }) s) := by
    rw [stageBoundary_next h g, show nextStage x.mode 1 = 2 by simp [nextStage, hm]]
    simp only [startStage, hent]
    exact settleTag_of_no_tag hy ht
  rw [hb]
  exact ⟨hy, (modEntry_others e _ s).trans hothers, a, d, o, i, m, hframe⟩

end

/-! ### ENTRY_FREE (10 R384) -/

/-- A DRAIN entry that has completed and returned its pages leaves the table, and it is noted as freed in this cycle
(10 R384, 00 R776). -/
theorem entryFree_frees {e : Nat} {x : RtEntry} {s : State} (hx : mget s.gen.entries e = some x) (hs : x.state = .drain)
    (hc : x.work.completed = true) (hr : x.work.pagesReturned = true) :
    ∃ u, exec (.entryFree e) s = .next u ∧ mget u.gen.entries e = none ∧ OthersKept e s u ∧ justFreed u (.entry e) = true ∧
      u = { s with gen := u.gen, obj := u.obj, search := u.search, flash := u.flash
                   boot := { s.boot with freed := u.boot.freed } } := by
  have hx' : entryOf s e = some x := hx
  have hexec : exec (.entryFree e) s = .next (releaseUnused (noteFreed (.entry e)
      (modGen (fun g => { g with entries := merase g.entries e }) (settleTag e s)))) := by
    show execEntryFree e s = _
    simp [execEntryFree, hx', hs, hc, hr]
  obtain ⟨l, q, hsettle⟩ := settleTag_only s e
  have hothers := (settleTag_follows e s).others
  rw [hsettle] at hexec hothers
  obtain ⟨o, y, hrelease⟩ := releaseUnused_only (noteFreed (.entry e) (modGen (fun g => { g with entries := merase g.entries e })
    { s with gen := { s.gen with entries := l }, search := q }))
  rw [hrelease] at hexec
  refine ⟨_, hexec, ?_, fun j hj => ?_, ?_, rfl⟩
  · exact (mget_merase l e e).trans (if_pos rfl)
  · exact (mget_merase l e j).trans ((if_neg hj).trans (hothers j hj))
  · simp [justFreed, noteFreed_boot]

/-! ### CANCEL (10 R378) -/

/-- A command taken from its ring runs its body on what the fetch leaves (15 R563). -/
theorem runCmd_taken {op : Nat} {h : HostCmd} {s t : State} {f : Fetched} (ht : Taken op h s f t)
    (body : Fetched → State → Reply) : runCmd op h body s = finishReply h f (body f t) := by
  obtain ⟨hop, htake, hslot, hqueue, hlevel⟩ := ht
  simp [runCmd, hop, htake, hslot, hqueue, hlevel]

theorem exec_cancel {h : HostCmd} {s t : State} {f : Fetched} (ht : Taken 3 h s f t) :
    exec (.cancel h) s = .next (finishReply h f (cancelBody h f t)) :=
  congrArg _ (runCmd_taken ht (cancelBody h))

/-- An entry for which a cancel has been accepted: when the first was, and the command that waits for its end (10 R378). -/
def cancelNoted (h : HostCmd) (f : Fetched) (t : State) (x : RtEntry) : RtEntry :=
  { x with
    cancelTime := if x.cancelPending then x.cancelTime else now t
    cancelPending := true, cancellers := x.cancellers ++ [(h.qp, cmdTag h, f.sqHead, t.boot.cycles)] }

theorem noteCancel_eq (e : Nat) (h : HostCmd) (f : Fetched) (t : State) :
    noteCancel e h f t = modEntry e (cancelNoted h f t) t := rfl

/-- A cancel of a queue pair with the same binding finds the live request or run of its tag (10 R378, 15 R579). -/
structure CancelFinds (h : HostCmd) (t : State) (e : Nat) (x : RtEntry) : Prop where
  binding : (qpOf t (cmdAux h % 16384)).bound = (qpOf t h.qp).bound
  bound : (qpOf t h.qp).bound.isSome = true
  live : liveEntry t (cmdAux h % 16384) (cmdParam h) = some e
  entry : mget t.gen.entries e = some x

section
variable {h : HostCmd} {f : Fetched} {t : State} {e : Nat} {x : RtEntry}

theorem CancelFinds.bound_ne (c : CancelFinds h t e x) : (qpOf t h.qp).bound ≠ none :=
  Option.isSome_iff_ne_none.1 c.bound

/-- A cancel of a request in a step, or at work in a stage other than 5 and 6, is noted and no more (10 R378). -/
theorem cancelBody_marks (c : CancelFinds h t e x)
    (hx : x.state = .step ∨ (x.state = .pre ∧ idlePre x = false ∧ x.work.stage ≠ 5 ∧ x.work.stage ≠ 6)) :
    cancelBody h f t = { state := noteCancel e h f t } := by
  have hent : entryOf t e = some x := c.entry
  unfold cancelBody
  rcases hx with hs | ⟨hs, hi, h5, h6⟩
  · simp [c.binding, c.bound_ne, c.live, hent, hs]
  · simp [c.binding, c.bound_ne, c.live, hent, hs, hi, h5, h6]

/-- A cancel of a request at work in stage 5 or 6 is noted, and its walks are killed (10 R378, 08 R289). -/
theorem cancelBody_kills (c : CancelFinds h t e x) (hs : x.state = .pre) (hi : idlePre x = false)
    (h56 : x.work.stage = 5 ∨ x.work.stage = 6) : cancelBody h f t = { state := killEntry e (noteCancel e h f t) } := by
  have hent : entryOf t e = some x := c.entry
  simp [cancelBody, c.binding, c.bound_ne, c.live, hent, hs, hi, h56]

/-- Where a request that waits is cancelled: the stage it waits in, that before stage 5 where it is held, or generation (10 R378). -/
def waitStage (x : RtEntry) : Nat :=
  if x.state = .pre then (if x.work.search.heldHere then 4 else x.work.stage) else 12

/-- A cancel of a request that waits ends it at once (10 R378). -/
theorem cancelBody_ends (c : CancelFinds h t e x)
    (hx : x.state = .wait ∨ x.state = .reserve ∨ (x.state = .pre ∧ idlePre x = true)) :
    ∃ result, cancelBody h f t =
      { state := endEntry e Status.cancelled 0 (waitStage x) result (noteCancel e h f t) } := by
  have hent : entryOf t e = some x := c.entry
  unfold cancelBody waitStage
  rcases hx with hs | hs | ⟨hs, hi⟩
  · exact ⟨x.genLen, by simp [c.binding, c.bound_ne, c.live, hent, hs]⟩
  · exact ⟨0, by simp [c.binding, c.bound_ne, c.live, hent, hs]⟩
  · exact ⟨0, by simp [c.binding, c.bound_ne, c.live, hent, hs, hi]⟩

/-- A cancel that finds no live request comes too late for one that has completed, and names no other (10 R378). -/
theorem cancelBody_misses (hb : (qpOf t (cmdAux h % 16384)).bound = (qpOf t h.qp).bound)
    (hs : (qpOf t h.qp).bound.isSome = true) (hl : liveEntry t (cmdAux h % 16384) (cmdParam h) = none) :
    cancelBody h f t = deny (if (qpOf t (cmdAux h % 16384)).recent.contains (cmdParam h) ||
      (drainingEntry t (cmdAux h % 16384) (cmdParam h)).isSome then Status.alreadyComplete else Status.requestUnknown) t := by
  have hadmit : ¬ ((qpOf t (cmdAux h % 16384)).bound ≠ (qpOf t h.qp).bound ∨ (qpOf t (cmdAux h % 16384)).bound.isNone) := by
    simpa [hb, Option.isSome_iff_ne_none] using hs
  simp only [cancelBody, if_neg hadmit, hl]

/-- A cancel of another binding's request is refused (15 R579). -/
theorem cancelBody_refuses (hb : (qpOf t (cmdAux h % 16384)).bound ≠ (qpOf t h.qp).bound) :
    cancelBody h f t = deny Status.notPermitted t := by
  simp only [cancelBody, if_pos (Or.inl hb)]

end

/-- A body that refuses with a status completes its command with it. -/
theorem finishReply_deny (h : HostCmd) (f : Fetched) (st : Nat) (t : State) :
    finishReply h f (deny st t) = cplStatus h f st 0 t := rfl

theorem mem_insertNum (k : Nat) (l : List Nat) : k ∈ insertNum k l := by
  induction l with
  | nil => simp [insertNum]
  | cons a l ih =>
    unfold insertNum
    split
    · simp
    · split <;> simp_all

/-- A killed tag is among those killed (08 R289). -/
theorem mem_killTag (k : Nat) (s : State) : k ∈ (killTag k s).search.killed := by
  simp only [killTag, modSearch_search]
  split
  next hk => simpa using hk
  next => exact mem_insertNum k _

/-- Killing an entry's search marks its tag and stops a pass that waits: nothing but the entry's work and the tags killed
differs (08 R289). -/
theorem killEntry_kills {e : Nat} {x : RtEntry} {s : State} (hx : mget s.gen.entries e = some x) :
    (∃ w, mget (killEntry e s).gen.entries e = some { x with work := w }) ∧
      (∀ k, x.work.search.tag = some k → k ∈ (killEntry e s).search.killed) ∧
      ∃ l q, killEntry e s = { s with gen := { s.gen with entries := l }, search := { s.search with killed := q } } := by
  have hx' : entryOf s e = some x := hx
  cases ht : x.work.search.tag with
  | none =>
    have heq : killEntry e s = s := by simp [killEntry, hx', ht]
    rw [heq]
    exact ⟨⟨x.work, hx⟩, by simp, _, _, rfl⟩
  | some k =>
    obtain ⟨g, heq⟩ : ∃ g, killEntry e s = modSearchWork e g (killTag k s) := by
      simp only [killEntry, hx', ht, Option.bind_some]
      exact ⟨_, rfl⟩
    obtain ⟨q, hkill⟩ : ∃ q, killTag k s = { s with search := { s.search with killed := q } } := by
      simp only [killTag, modSearch]
      split
      · exact ⟨_, rfl⟩
      · exact ⟨_, rfl⟩
    have hmem := mem_killTag k s
    rw [heq]
    refine ⟨⟨_, mget_modEntry_same _ hx⟩, ?_, ?_⟩
    · intro j hj
      obtain rfl : k = j := Option.some.inj hj
      exact hmem
    · rw [hkill]
      exact ⟨_, _, rfl⟩

/-- A request that waits ends CANCELLED at its stage, and its cancels are answered (10 R378). -/
theorem cancel_ends_waiting {h : HostCmd} {f : Fetched} {t : State} {e : Nat} {x : RtEntry} (c : CancelFinds h t e x)
    (hx : x.state = .wait ∨ x.state = .reserve ∨ (x.state = .pre ∧ idlePre x = true)) (hd : x.work.disabled = false) :
    ∃ u y, finishReply h f (cancelBody h f t) = u ∧ mget u.gen.entries e = some y ∧
      Ended Status.cancelled (waitStage x) y ∧ (entryUnits t e = [] → OthersKept e t u) := by
  obtain ⟨result, hbody⟩ := cancelBody_ends (f := f) c hx
  have hnote : mget (noteCancel e h f t).gen.entries e = some (cancelNoted h f t x) := mget_modEntry_same _ c.entry
  have hs : (cancelNoted h f t x).state ≠ .drain := by
    rcases hx with hs | hs | ⟨hs, -⟩ <;> simp [cancelNoted, hs]
  obtain ⟨y, hy, hend⟩ := endEntry_ends Status.cancelled 0 (waitStage x) result hnote hs hd
  rw [hbody]
  exact ⟨_, y, rfl, hy, hend, fun hu =>
    (modEntry_others e _ t).trans (endEntry_others Status.cancelled 0 (waitStage x) result hnote hs hu)⟩

/-- Settles O21: a boundary after stage 1 hands over, or ends the request through the one way a request ends; an ended entry is
freed; a CANCEL marks a request at work, ends one that waits, and answers for one that is not live. -/
theorem stagesAndCancels : Obligations.stages_and_cancels := by
  unfold Obligations.stages_and_cancels
  refine ⟨?_, ?_, ?_, ?_, ?_, ?_, ?_, ?_, ?_, ?_, ?_, ?_⟩
  · intro e x p s hx hp hs hm h1 hpins htag hc hd hf hn hu
    obtain ⟨l, y, hy, hb⟩ := stageBoundary_enters_four ⟨hx, hp, hs, by omega, h1, hpins, hu⟩ ⟨hc, hd, hf, hn⟩ hm htag
    exact ⟨_, y, exec_stageBoundary hb, mget_modEntry_same _ hx, mget_mset_same _ _ _, hy, modEntry_others e _ s, rfl⟩
  · intro e x p tk r s hx hp hs hm2 hm4 h1 hpins htag hc hd hf hn hu htk hr
    obtain ⟨hy, hothers, a, d, o, i, m, hframe⟩ :=
      stageBoundary_enters_text ⟨hx, hp, hs, hm4, h1, hpins, hu⟩ ⟨hc, hd, hf, hn⟩ hm2 htag htk hr
    exact ⟨_, _, exec_stageBoundary rfl, hy, hs, rfl, rfl, rfl, rfl, hothers, by rw [hframe]⟩
  · intro e x p s hx hp hs hm h1 hpins _ hc hd hu
    have hat : AtStage1 e x p s := ⟨hx, hp, hs, hm, h1, hpins, hu⟩
    obtain ⟨y, hy, hend, hothers⟩ := settled_end_of_stage1 hat hd Status.cancelled
    exact ⟨_, y, exec_stageBoundary (stageBoundary_cancelled hat hc), hy, hend.state, hend.finish, hend.endStage,
      hend.completed, hothers⟩
  · intro e x p s hx hp hs hm h1 hpins _ hc hd hf hl hn hu
    have hat : AtStage1 e x p s := ⟨hx, hp, hs, hm, h1, hpins, hu⟩
    obtain ⟨y, hy, hend, hothers⟩ := settled_end_of_stage1 hat hd Status.deadline
    exact ⟨_, y, exec_stageBoundary (stageBoundary_deadline hat hc hd hf hl hn), hy, hend.state, hend.finish, hend.endStage,
      hend.completed, hothers⟩
  · intro e x p s hx hp h1 hpins
    exact exec_stageBoundary (stageBoundary_waits hx hp h1 hpins)
  · intro e x s hx hs hc hr
    exact entryFree_frees hx hs hc hr
  · intro h e x s t f ht hb hsome hl hx hw
    have hexec : exec (.cancel h) s = .next (noteCancel e h f t) := by
      rw [exec_cancel ht, cancelBody_marks ⟨hb, hsome, hl, hx⟩ hw]
      rfl
    exact ⟨_, hexec, mget_modEntry_same _ hx, modEntry_others e _ t, rfl⟩
  · intro h e x s t f ht hb hsome hl hx hs hi h56
    have hnote : mget (noteCancel e h f t).gen.entries e = some (cancelNoted h f t x) := mget_modEntry_same _ hx
    obtain ⟨⟨w, hw⟩, hkilled, l, q, hframe⟩ := killEntry_kills hnote
    have hexec : exec (.cancel h) s = .next (killEntry e (noteCancel e h f t)) := by
      rw [exec_cancel ht, cancelBody_kills ⟨hb, hsome, hl, hx⟩ hs hi h56]
      rfl
    refine ⟨_, _, hexec, hw, hs, rfl, rfl, hkilled, ?_, ?_⟩
    · exact (modEntry_others e _ t).trans (killEntry_follows e _).others
    · rw [hframe]
      rfl
  · intro h e x s t f ht hb hsome hl hx hw hd
    obtain ⟨u, y, hu, hy, hend, hothers⟩ := cancel_ends_waiting (f := f) ⟨hb, hsome, hl, hx⟩ hw hd
    exact ⟨u, y, (exec_cancel ht).trans (congrArg _ hu), hy, hend.state, hend.finish, hend.endStage, hend.completed,
      hend.cancellers, hothers⟩
  · intro h s t f ht hb hsome hl hlate
    rw [exec_cancel ht, cancelBody_misses hb hsome hl, if_pos (by simpa using hlate), finishReply_deny]
  · intro h s t f ht hb hsome hl hrecent hdrain
    rw [exec_cancel ht, cancelBody_misses hb hsome hl, if_neg (by rw [hrecent, hdrain]; exact Bool.false_ne_true), finishReply_deny]
  · intro h s t f ht hb
    rw [exec_cancel ht, cancelBody_refuses hb, finishReply_deny]

end Sys2Proof.Machine
end

section
/-! PROOFS. Internal links, cluster power and the management pair: the channels and ports a failed link takes with it, and what a
record, a power switch and a self-test leave as it was (02 R44 to R47, R53; 19 R693; 20 R752). -/

namespace Sys2Proof.Machine

/-! ### Records -/

/-- Erasing the oldest records never lowers the last number given. -/
theorem wrapArea_lastSeq_le (s : State) : s.mgmt.lastSeq ≤ (wrapArea s).mgmt.lastSeq := by
  by_cases hn : areaBytes s.mgmt - areaSize = 0 <;> simp [wrapArea, hn]

theorem flushSnaps_lastSeq_le (s : State) : s.mgmt.lastSeq ≤ (flushSnaps s).mgmt.lastSeq := by
  unfold flushSnaps
  refine Nat.le_trans ?_ (wrapArea_lastSeq_le _)
  exact Nat.le_refl _

@[simp] theorem wrapArea_mgmt_restart (s : State) : (wrapArea s).mgmt.restart = s.mgmt.restart :=
  wrapArea_mgmt_keeps (fun m => m.restart) (fun _ _ _ _ _ => rfl) s

@[simp] theorem flushSnaps_mgmt_restart (s : State) : (flushSnaps s).mgmt.restart = s.mgmt.restart := by simp [flushSnaps]

section
variable (sev source code inst : Nat) (pl : List Nat) (s : State)

@[simp] theorem recordEvent_mgmt_restart : (recordEvent sev source code inst pl s).mgmt.restart = s.mgmt.restart := by
  unfold recordEvent recordFull recordWith whenS
  dsimp only
  split <;> split <;> simp

/-- A record takes a number above every earlier one (19 R716). -/
theorem recordEvent_lastSeq_lt : s.mgmt.lastSeq < (recordEvent sev source code inst pl s).mgmt.lastSeq := by
  have hflush (c : Bool) (t : State) : t.mgmt.lastSeq ≤ (whenS c flushSnaps t).mgmt.lastSeq := by
    unfold whenS
    split
    · exact flushSnaps_lastSeq_le t
    · exact Nat.le_refl _
  unfold recordEvent recordFull recordWith
  dsimp only
  refine Nat.lt_of_lt_of_le ?_ (hflush _ _)
  rw [evCount_mgmt]
  refine Nat.lt_of_lt_of_le ?_ (wrapArea_lastSeq_le _)
  unfold whenS
  split <;> simp

/-- A record takes the next number, and touches the recorder, the pages and the messages to the host alone (19 R715, R716; 20 R741). -/
theorem recordEvent_effect {u : State} (hu : u = recordEvent sev source code inst pl s) :
    u.boot = s.boot ∧ u.mgmt.restart = s.mgmt.restart ∧ s.mgmt.lastSeq < u.mgmt.lastSeq ∧
      u = { s with regs := u.regs, hif := u.hif, mgmt := u.mgmt } := by
  subst hu
  exact ⟨recordEvent_boot .., recordEvent_mgmt_restart .., recordEvent_lastSeq_lt .., by apply state_ext <;> simp⟩

end

/-! ### Channels that have failed or are retired -/

/-- What a read after a change of every value gives. -/
theorem mget_mmap {α : Type} (m : Map α) (f : Nat → α → α) (k : Nat) : mget (mmap m f) k = (mget m k).map (f k) := by
  induction m with
  | nil => rfl
  | cons e m ih =>
    change (if k = e.1 then some (f e.1 e.2) else mget (mmap m f) k) = (if k = e.1 then some e.2 else mget m k).map (f k)
    rw [ih]
    split
    next hk => rw [hk, Option.map_some]
    next => rfl

/-- Whether a channel has failed, and whether it is retired. -/
def marksOf (c : Channel) : Bool × Bool := (c.failed, c.retired)

/-- Which channels have failed and which are retired. -/
def channelMarks (s : State) (n : Nat) : Bool × Bool := marksOf (channelOf s n)

theorem channelMarks_congr {s u : State} (h : u.flash.channels = s.flash.channels) : channelMarks u = channelMarks s := by
  funext n
  simp only [channelMarks, channelOf, h]

theorem marksOf_mgetD_mmap {m : Map Channel} {f : Nat → Channel → Channel} (hf : ∀ n c, marksOf (f n c) = marksOf c) (n : Nat) :
    marksOf (mgetD (mmap m f) n {}) = marksOf (mgetD m n {}) := by
  simp only [mgetD, mget_mmap]
  cases mget m n with
  | none => rfl
  | some c => exact hf n c

theorem channelOf_modChannel (k n : Nat) (f : Channel → Channel) (s : State) :
    channelOf (modChannel k f s) n = if n = k then f (channelOf s n) else channelOf s n := by
  split
  next h => subst h; exact mgetD_mmod_same _ _ _ _
  next h => exact mgetD_mmod_other _ _ _ _ _ _ h

theorem modChannel_channelMarks {k : Nat} {f : Channel → Channel} (hf : ∀ c, marksOf (f c) = marksOf c) (s : State) :
    channelMarks (modChannel k f s) = channelMarks s := by
  funext n
  simp only [channelMarks, channelOf_modChannel]
  split
  · exact hf _
  · rfl

section
variable (s : State)

@[simp] theorem unmapUnit_channelMarks (key : Nat) : channelMarks (unmapUnit key s) = channelMarks s := by
  funext n
  simp only [channelMarks, channelOf, unmapUnit, modFlash_flash]
  exact marksOf_mgetD_mmap (fun _ _ => by rfl) n

@[simp] theorem countPrograms_channelMarks (n : Nat) : channelMarks (countPrograms n s) = channelMarks s :=
  channelMarks_congr (by simp [countPrograms])

@[simp] theorem countReads_channelMarks (n : Nat) : channelMarks (countReads n s) = channelMarks s :=
  channelMarks_congr (by simp [countReads])

/-- Programming a unit fills a block or a buffer, and no channel fails or retires by it. -/
@[simp] theorem programUnit_channelMarks (r : Bool) (part ch key : Nat) :
    channelMarks (programUnit r part ch key s) = channelMarks s := by
  have hput (b : Block) : channelMarks (modChannel ch (putBlock b) s) = channelMarks s :=
    modChannel_channelMarks (fun _ => by rfl) s
  unfold programUnit
  split
  · rfl
  · split
    · exact (countPrograms_channelMarks _ 1).trans (hput _)
    · split
      · exact (countPrograms_channelMarks _ 1).trans (hput _)
      · rfl

@[simp] theorem drainBuffers_channelMarks (r : Bool) (ch part : Nat) :
    channelMarks (drainBuffers r ch part s) = channelMarks s :=
  foldS_keeps channelMarks _ _ _ fun t b => programUnit_channelMarks t r part ch b.2.2

@[simp] theorem acceptWrite_channelMarks (w : UnitWrite) : channelMarks (acceptWrite w s) = channelMarks s := by
  unfold acceptWrite
  dsimp only
  split <;> simp

@[simp] theorem acceptWrites_channelMarks (l : List UnitWrite) : channelMarks (acceptWrites l s) = channelMarks s :=
  foldS_keeps channelMarks _ _ _ fun t w => acceptWrite_channelMarks t w

end

/-! ### The read-only transition -/

/-- What the read-only transition leaves as it was: power and links, the request table, the scheduler, the fabric, and which
channels have failed or are retired (13 R500). -/
def beyondFlash (s : State) : Boot × Gen × Sched × Fabric × (Nat → Bool × Bool) :=
  (s.boot, s.gen, s.sched, s.fab, channelMarks s)

section
variable (s : State)

theorem modFlash_beyondFlash {f : Flash → Flash}
    (h : ∀ n, marksOf (mgetD (f s.flash).channels n {}) = marksOf (channelOf s n)) : beyondFlash (modFlash f s) = beyondFlash s := by
  simp only [beyondFlash, modFlash_boot, modFlash_gen, modFlash_sched, modFlash_fab]
  rw [show channelMarks (modFlash f s) = channelMarks s from funext h]

theorem writeColl_beyondFlash (id : Nat) (f : Collection → Collection) : beyondFlash (writeColl id f s) = beyondFlash s := by
  unfold writeColl
  split
  · simp [beyondFlash, modColl, channelMarks_congr (u := modObj _ s) (s := s) rfl]
  · rfl

theorem complete_beyondFlash (q : Nat) (c : Cpl) : beyondFlash (complete q c s) = beyondFlash s := by
  simp [beyondFlash, channelMarks_congr (u := complete q c s) (s := s) (by simp)]

theorem abortSession_beyondFlash (id status : Nat) (written : Bool) : beyondFlash (abortSession id status written s) = beyondFlash s := by
  unfold abortSession
  split
  · rfl
  · split
    · rfl
    next c _ _ x _ =>
      have hlog (t : State) : beyondFlash (whenS written (acceptWrites (logWrites c x.epoch)) t) = beyondFlash t := by
        unfold whenS
        split
        · simp [beyondFlash]
        · rfl
      dsimp only
      split
      · rw [complete_beyondFlash, hlog, writeColl_beyondFlash]
      · rw [hlog, writeColl_beyondFlash]

theorem recordEvent_beyondFlash (sev source code inst : Nat) (pl : List Nat) :
    beyondFlash (recordEvent sev source code inst pl s) = beyondFlash s := by
  simp [beyondFlash, channelMarks_congr (u := recordEvent sev source code inst pl s) (s := s) (by simp)]

theorem flashIrq_beyondFlash : beyondFlash (flashIrq s) = beyondFlash s := by
  simp [beyondFlash, flashIrq, channelMarks_congr (u := irqEval false 9 (modPage 9 _ s)) (s := s) (by simp)]

theorem postNoticeOn_beyondFlash (f : Nat) (n : Notice) : beyondFlash (postNoticeOn f n s) = beyondFlash s := by
  unfold postNoticeOn
  dsimp only
  split
  · exact complete_beyondFlash _ _ _
  · rfl

theorem postNotice_beyondFlash (n : Notice) : beyondFlash (postNotice n s) = beyondFlash s :=
  (postNoticeOn_beyondFlash _ 1 n).trans (postNoticeOn_beyondFlash s 0 n)

theorem goReadOnly_beyondFlash (part ch cause : Nat) : beyondFlash (goReadOnly part ch cause s) = beyondFlash s := by
  have hdrain : beyondFlash (foldS (List.range 64) (fun t n => if (channelOf t n).ok then drainBuffers true n part t else t) s) =
      beyondFlash s := by
    refine foldS_keeps beyondFlash _ _ _ fun t n => ?_
    split
    · simp [beyondFlash]
    · rfl
  unfold goReadOnly
  dsimp only
  generalize foldS (List.range 64) _ s = t at hdrain ⊢
  split
  · exact hdrain
  · rw [postNotice_beyondFlash, flashIrq_beyondFlash, recordEvent_beyondFlash,
      foldS_keeps beyondFlash _ _ _ fun t id => abortSession_beyondFlash t id _ _, ← hdrain]
    refine (modFlash_beyondFlash _ fun n => ?_).trans (modFlash_beyondFlash t fun n => rfl)
    rw [marksOf_mgetD_mmap]
    · split <;> rfl
    · intro _ c
      split <;> rfl

end

/-! ### A change folded over a list -/

/-- Where each change of a fold brings about what belongs to its element, and every change keeps what another brought about, it
holds for every element in the end. -/
theorem foldS_forall {α : Type} {P : α → State → Prop} {f : State → α → State} (makes : ∀ t x, P x (f t x))
    (keeps : ∀ t x y, P y t → P y (f t x)) (l : List α) (s : State) : ∀ x ∈ l, P x (foldS l f s) := by
  induction l generalizing s with
  | nil => simp
  | cons y l ih =>
    intro x hx
    rcases List.mem_cons.mp hx with rfl | hx
    · exact foldS_inv (P x) l f _ (fun t z => keeps t z x) (makes s x)
    · exact ih _ x hx

/-! ### A channel that fails -/

/-- A channel that is out of use: failed, or retired before. -/
def ChannelOut (n : Nat) (s : State) : Prop := (channelOf s n).retired = false → (channelOf s n).failed = true

theorem channelOut_congr {s u : State} {n : Nat} (h : channelMarks u = channelMarks s) : ChannelOut n u ↔ ChannelOut n s := by
  have hn : marksOf (channelOf u n) = marksOf (channelOf s n) := congrFun h n
  obtain ⟨hfailed, hretired⟩ := Prod.ext_iff.mp hn
  simp only [marksOf] at hfailed hretired
  rw [ChannelOut, ChannelOut, hfailed, hretired]

/-- A channel marked as failed. -/
def markChannelFailed (ch : Nat) (s : State) : State := modChannel ch (fun c => { c with failed := true, ok := false }) s

theorem markChannelFailed_out (ch : Nat) (s : State) : ChannelOut ch (markChannelFailed ch s) := by
  intro _
  simp [markChannelFailed, channelOf_modChannel]

theorem ChannelOut.after_mark {n : Nat} {s : State} (h : ChannelOut n s) (ch : Nat) :
    ChannelOut n (markChannelFailed ch s) := by
  unfold ChannelOut markChannelFailed
  rw [channelOf_modChannel]
  split
  · exact fun _ => rfl
  · exact h

/-- A channel that fails is marked so, where it is not out of use already; all else that differs is what the read-only
transition touches (13 R498). -/
theorem failChannel_beyondFlash (ch : Nat) (s : State) :
    (beyondFlash (failChannel ch s) = beyondFlash s ∧ ChannelOut ch s) ∨
      beyondFlash (failChannel ch s) = beyondFlash (markChannelFailed ch s) := by
  unfold failChannel
  dsimp only
  split
  next h =>
    refine .inl ⟨rfl, fun hretired => ?_⟩
    rcases Bool.or_eq_true_iff.mp h with hfailed | hr
    · exact hfailed
    · exact absurd (hretired.symm.trans hr) Bool.false_ne_true
  next =>
    rw [goReadOnly_beyondFlash, goReadOnly_beyondFlash]
    exact .inr rfl

theorem channelMarks_of_beyondFlash {s u : State} (h : beyondFlash u = beyondFlash s) : channelMarks u = channelMarks s :=
  congrArg (fun x => x.2.2.2.2) h

theorem failChannel_out (ch : Nat) (s : State) : ChannelOut ch (failChannel ch s) := by
  rcases failChannel_beyondFlash ch s with ⟨h, hout⟩ | h
  · exact (channelOut_congr (channelMarks_of_beyondFlash h)).mpr hout
  · exact (channelOut_congr (channelMarks_of_beyondFlash h)).mpr (markChannelFailed_out ch s)

theorem ChannelOut.after_fail {n : Nat} {s : State} (h : ChannelOut n s) (ch : Nat) : ChannelOut n (failChannel ch s) := by
  rcases failChannel_beyondFlash ch s with ⟨hs, -⟩ | hs
  · exact (channelOut_congr (channelMarks_of_beyondFlash hs)).mpr h
  · exact (channelOut_congr (channelMarks_of_beyondFlash hs)).mpr (h.after_mark ch)

/-- Power and links, the request table and the scheduler are as they were. -/
structure CoreKept (s u : State) : Prop where
  boot : u.boot = s.boot
  gen : u.gen = s.gen
  sched : u.sched = s.sched

theorem CoreKept.refl (s : State) : CoreKept s s := ⟨rfl, rfl, rfl⟩

theorem CoreKept.trans {s t u : State} (h : CoreKept s t) (k : CoreKept t u) : CoreKept s u :=
  ⟨k.boot.trans h.boot, k.gen.trans h.gen, k.sched.trans h.sched⟩

theorem frame_of_beyondFlash {s u : State} (h : beyondFlash u = beyondFlash s) : CoreKept s u ∧ u.fab = s.fab := by
  simp only [beyondFlash, Prod.mk.injEq] at h
  obtain ⟨hboot, hgen, hsched, hfab, -⟩ := h
  exact ⟨⟨hboot, hgen, hsched⟩, hfab⟩

theorem failChannel_frame (ch : Nat) (s : State) : CoreKept s (failChannel ch s) ∧ (failChannel ch s).fab = s.fab := by
  rcases failChannel_beyondFlash ch s with ⟨h, -⟩ | h
  · exact frame_of_beyondFlash h
  · obtain ⟨hkept, hfab⟩ := frame_of_beyondFlash h
    exact ⟨⟨hkept.boot, hkept.gen, hkept.sched⟩, hfab⟩

/-! ### Internal links (02 R44 to R47, 20 R750) -/

theorem ringUp_congr {s u : State} (h : u.boot.linkFailed = s.boot.linkFailed) (a n : Nat) : ringUp u a n = ringUp s a n := by
  induction n generalizing a with
  | zero => rfl
  | succ n ih => simp only [ringUp, linkFailed, h, ih]

/-- Whether a hub is unreachable depends on the failed links alone. -/
theorem hubUnreachable_congr {s u : State} (h : u.boot.linkFailed = s.boot.linkFailed) (n : Nat) :
    hubUnreachable u n = hubUnreachable s n := by
  simp only [hubUnreachable, linkFailed, ringJoins, h, ringUp_congr h]

/-- What INTERNAL_LINK_FAIL first does: its link is marked as failed, and no longer as degraded. -/
def markLinkFailed (i : Nat) (s : State) : State :=
  modBoot (fun b => { b with
    linkFailed := b.linkFailed ||| BitVec.twoPow 64 i, linkDegraded := b.linkDegraded &&& ~~~(BitVec.twoPow 64 i) }) s

/-- The channels of the hubs that are unreachable fail. -/
def failCutHubs (s : State) : State :=
  foldS ((List.range 64).filter fun n => hubUnreachable s (n / 8)) (fun t n => failChannel n t) s

/-- The ports behind a link go DOWN where they are not. -/
def dropPortsBehind (i : Nat) (s : State) : State :=
  foldS ((portsBehind i).filter fun p => (portOf s p).state != .down) (fun t p => takeDown p 2 t) s

theorem exec_internalLinkFail {i : Nat} {s : State} (hi : i < 54) (hs : linkFailed s i = false) :
    exec (.internalLinkFail i) s = .next (dropPortsBehind i (failCutHubs (markLinkFailed i s))) :=
  congrArg Host.Outcome.next (if_pos ⟨hi, by rw [hs]; rfl⟩)

theorem exec_linkDegraded {i : Nat} {s : State} (hi : i < 54) (hs : linkFailed s i = false)
    (hd : s.boot.linkDegraded.getLsbD i = false) : exec (.linkDegraded i) s =
      .next (recordEvent 1 0 0x0401 0 [i] (modBoot (fun b => { b with linkDegraded := b.linkDegraded ||| BitVec.twoPow 64 i }) s)) :=
  congrArg Host.Outcome.next (if_pos ⟨hi, by rw [hs]; rfl, by rw [hd]; rfl⟩)

theorem linkFailed_markLinkFailed_same {i : Nat} (hi : i < 54) (s : State) : linkFailed (markLinkFailed i s) i = true := by
  simp [linkFailed, markLinkFailed, show i < 64 by omega]

theorem linkFailed_markLinkFailed_other {i j : Nat} (h : j ≠ i) (s : State) :
    linkFailed (markLinkFailed i s) j = linkFailed s j := by
  simp [linkFailed, markLinkFailed, h.symm]

theorem linkDegraded_markLinkFailed {i : Nat} (hi : i < 54) (s : State) :
    (markLinkFailed i s).boot.linkDegraded.getLsbD i = false := by
  simp [markLinkFailed, show i < 64 by omega]

section
variable (s : State)

theorem failCutHubs_coreKept : CoreKept s (failCutHubs s) :=
  foldS_inv (CoreKept s) _ _ s (fun t n h => h.trans (failChannel_frame n t).1) (.refl s)

theorem failCutHubs_fab : (failCutHubs s).fab = s.fab :=
  foldS_keeps (fun t => t.fab) _ _ s fun t n => (failChannel_frame n t).2

/-- Every channel of an unreachable hub is out of use in the end (02 R46). -/
theorem failCutHubs_out {n : Nat} (hn : n < 64) (h : hubUnreachable s (n / 8) = true) : ChannelOut n (failCutHubs s) :=
  foldS_forall (P := ChannelOut) (fun t ch => failChannel_out ch t) (fun _ ch _ hout => hout.after_fail ch) _ s n
    (List.mem_filter.mpr ⟨List.mem_range.mpr hn, h⟩)

variable (p code : Nat)

theorem takeDown_coreKept : CoreKept s (takeDown p code s) := ⟨by simp [takeDown], by simp [takeDown], by simp [takeDown]⟩

theorem takeDown_channelMarks : channelMarks (takeDown p code s) = channelMarks s :=
  channelMarks_congr (by simp [takeDown])

theorem takeDown_down : (portOf (takeDown p code s) p).state = .down := by simp [takeDown, portOf]

/-- A port that goes DOWN takes no other out of DOWN. -/
theorem takeDown_keeps_down {q : Nat} (h : (portOf s q).state = .down) : (portOf (takeDown p code s) q).state = .down := by
  by_cases hq : q = p
  · subst hq
    exact takeDown_down s q code
  · rw [← h]
    simp [takeDown, portOf, mgetD_mmod_other _ _ _ _ _ _ hq]

variable (i : Nat)

theorem dropPortsBehind_coreKept : CoreKept s (dropPortsBehind i s) :=
  foldS_inv (CoreKept s) _ _ s (fun t p h => h.trans (takeDown_coreKept t p 2)) (.refl s)

theorem dropPortsBehind_channelMarks : channelMarks (dropPortsBehind i s) = channelMarks s :=
  foldS_keeps channelMarks _ _ s fun t p => takeDown_channelMarks t p 2

/-- A link that is not an optical engine's has no ports behind it (02 R41). -/
theorem dropPortsBehind_of_lt {i : Nat} (hi : i < 46) : dropPortsBehind i s = s := by
  simp [dropPortsBehind, portsBehind, hi]

theorem dropPortsBehind_down {i p : Nat} (hp : p ∈ portsBehind i) : (portOf (dropPortsBehind i s) p).state = .down := by
  have keeps (t : State) (x y : Nat) (h : (portOf t y).state = .down) : (portOf (takeDown x 2 t) y).state = .down :=
    takeDown_keeps_down t x 2 h
  by_cases h : (portOf s p).state = .down
  · exact foldS_inv (fun t => (portOf t p).state = .down) _ _ s (fun t x => keeps t x p) h
  · exact foldS_forall (P := fun p t => (portOf t p).state = .down) (fun t x => takeDown_down t x 2) keeps _ s p
      (List.mem_filter.mpr ⟨hp, by simpa using h⟩)

end

/-- What a failed internal link takes with it, and what it leaves (02 R44 to R46, R41). -/
theorem internalLinkFail_effect {i : Nat} {s u : State} (hi : i < 54)
    (hu : u = dropPortsBehind i (failCutHubs (markLinkFailed i s))) :
    linkFailed u i = true ∧ (∀ j, j ≠ i → linkFailed u j = linkFailed s j) ∧ u.boot.linkDegraded.getLsbD i = false ∧
      (∀ n, n < 64 → hubUnreachable u (n / 8) = true → ChannelOut n u) ∧ u.gen = s.gen ∧ u.sched = s.sched ∧
      (i < 46 → u.fab = s.fab) ∧ ∀ p, p ∈ portsBehind i → (portOf u p).state = .down := by
  have hkept : CoreKept (markLinkFailed i s) u :=
    hu ▸ (failCutHubs_coreKept _).trans (dropPortsBehind_coreKept _ i)
  have hlinks : u.boot = (markLinkFailed i s).boot := hkept.boot
  have hfailed (j : Nat) : linkFailed u j = linkFailed (markLinkFailed i s) j := by rw [linkFailed, linkFailed, hlinks]
  refine ⟨?_, fun j hj => ?_, ?_, fun n hn hcut => ?_, ?_, ?_, fun hlow => ?_, fun p hp => ?_⟩
  · rw [hfailed, linkFailed_markLinkFailed_same hi]
  · rw [hfailed, linkFailed_markLinkFailed_other hj]
  · rw [hlinks, linkDegraded_markLinkFailed hi]
  · rw [hubUnreachable_congr (congrArg Boot.linkFailed hlinks)] at hcut
    rw [hu, channelOut_congr (dropPortsBehind_channelMarks _ i)]
    exact failCutHubs_out _ hn hcut
  · exact hkept.gen
  · exact hkept.sched
  · rw [hu, dropPortsBehind_of_lt _ hlow, failCutHubs_fab]
    rfl
  · rw [hu]
    exact dropPortsBehind_down _ hp

/-- A degraded link is marked and recorded (02 R47). -/
theorem linkDegraded_effect {i : Nat} {s u : State}
    (hu : u = recordEvent 1 0 0x0401 0 [i]
      (modBoot (fun b => { b with linkDegraded := b.linkDegraded ||| BitVec.twoPow 64 i }) s)) :
    u.boot = { s.boot with linkDegraded := s.boot.linkDegraded ||| BitVec.twoPow 64 i } ∧ s.mgmt.lastSeq < u.mgmt.lastSeq ∧
      u = { s with boot := u.boot, mgmt := u.mgmt, hif := u.hif, regs := u.regs } := by
  obtain ⟨hboot, -, hseq, hframe⟩ := recordEvent_effect _ _ _ _ _ _ hu
  exact ⟨hboot, hseq, hframe.trans (by rw [hboot]; rfl)⟩

/-- A link that has failed fails no more, and is not recorded as degraded either. -/
theorem internalLink_events_of_failed {i : Nat} {s : State} (h : linkFailed s i = true) :
    exec (.internalLinkFail i) s = .next s ∧ exec (.linkDegraded i) s = .next s := by
  have hno : ¬(!linkFailed s i) = true := by rw [h]; exact Bool.false_ne_true
  exact ⟨congrArg Host.Outcome.next (if_neg fun ⟨_, hf⟩ => hno hf),
    congrArg Host.Outcome.next (if_neg fun ⟨_, hf, _⟩ => hno hf)⟩

/-! ### Cluster power (20 R752, 02 R53) -/

theorem clusterOf_modCluster_same (g : Nat) (f : Cluster → Cluster) (s : State) :
    clusterOf (modCluster g f s) g = f (clusterOf s g) := mgetD_mmod_same _ _ _ _

theorem clusterOf_modCluster_other {g j : Nat} (h : j ≠ g) (f : Cluster → Cluster) (s : State) :
    clusterOf (modCluster g f s) j = clusterOf s j := mgetD_mmod_other _ _ _ _ _ _ h

theorem isPf_iff (fn : Nat) : isPf fn = true ↔ fn ≤ 1 := decide_eq_true_iff

/-- What CLUSTER_POWER_OFF makes of a cluster: what its memories and its array held is lost. -/
def Cluster.off (c : Cluster) : Cluster :=
  { c with powered := false, awake := false, poweringOn := false, weights := none, active := [], shadow := [], spareOp := none }

theorem exec_clusterPowerOff {fn g : Nat} {s : State} (hfn : fn ≤ 1) (hg : g < 320) (hp : (clusterOf s g).powered = true)
    (hd : (clusterOf s g).drained = true) :
    exec (.clusterPowerOff fn g) s = .next (forgetSaved g (modCluster g Cluster.off s)) :=
  congrArg Host.Outcome.next (if_pos ⟨(isPf_iff fn).mpr hfn, hg, hp, hd⟩)

theorem exec_clusterPowerOn {fn g : Nat} {s : State} (hfn : fn ≤ 1) (hg : g < 320) (hp : (clusterOf s g).powered = false)
    (hnet : netOn s g = true) :
    exec (.clusterPowerOn fn g) s = .next (modCluster g (fun c => { c with powered := true, poweringOn := true }) s) :=
  congrArg Host.Outcome.next (if_pos ⟨(isPf_iff fn).mpr hfn, hg, by rw [hp]; rfl, hnet⟩)

/-- Only a physical function switches a drained cluster off. -/
theorem clusterPowerOff_ignored {fn g : Nat} {s : State} (h : 1 < fn ∨ (clusterOf s g).drained = false) :
    exec (.clusterPowerOff fn g) s = .next s := by
  refine congrArg Host.Outcome.next (if_neg fun ⟨hpf, _, _, hd⟩ => ?_)
  rcases h with h | h
  · exact Nat.not_le.mpr h ((isPf_iff fn).mp hpf)
  · exact Bool.false_ne_true (h.symm.trans hd)

/-- Only a physical function switches a cluster on, and only while its die's network is on (02 R49). -/
theorem clusterPowerOn_ignored {fn g : Nat} {s : State} (h : 1 < fn ∨ netOn s g = false) :
    exec (.clusterPowerOn fn g) s = .next s := by
  refine congrArg Host.Outcome.next (if_neg fun ⟨hpf, _, _, hnet⟩ => ?_)
  rcases h with h | h
  · exact Nat.not_le.mpr h ((isPf_iff fn).mp hpf)
  · exact Bool.false_ne_true (h.symm.trans hnet)

/-- No unit's SRAM state is held by the cluster once it is forgotten (02 R53). -/
theorem forgetSaved_savedOn {g n : Nat} {s : State} {x : SUnit} (h : mget (forgetSaved g s).sched.units n = some x) :
    x.savedOn ≠ some g := by
  simp only [forgetSaved, modSched_sched, mget_mmap, Option.map_eq_some_iff] at h
  obtain ⟨y, -, rfl⟩ := h
  split
  · exact Option.some_ne_none g ∘ Eq.symm
  next hy => exact hy

theorem exec_clusterPowerOnDone {g : Nat} {rows cols : List Nat} {s : State} (h : (clusterOf s g).poweringOn = true) :
    exec (.clusterPowerOnDone g rows cols) s = .next (modCluster g (fun c => { c with poweringOn := false, awake := true })
      (selfTest g ((clusterOf s g).rows ++ (clusterOf s g).badRows ++ rows)
        ((clusterOf s g).cols ++ (clusterOf s g).badCols ++ cols) s)) :=
  congrArg Host.Outcome.next (if_pos h)

theorem selfTest_spared {g : Nat} {rows cols a b : List Nat} (s : State) (hr : bypassFor (cleanNums 130 rows) = some a)
    (hk : bypassFor (cleanNums 130 cols) = some b) :
    selfTest g rows cols s = modCluster g (fun c => { c with
      rows := a, cols := b, badRows := failedSpares (cleanNums 130 rows), badCols := failedSpares (cleanNums 130 cols) }) s := by
  simp only [selfTest, hr, hk]

theorem selfTest_too_many_rows {g : Nat} {rows : List Nat} (cols : List Nat) (s : State)
    (hr : bypassFor (cleanNums 130 rows) = none) : selfTest g rows cols s = retireCluster g s := by
  simp only [selfTest, hr]

theorem retireCluster_retired (g : Nat) (s : State) : (clusterOf (retireCluster g s) g).retired = true := by
  unfold retireCluster
  split
  next h => exact h
  next => simp [clusterOf]

/-! ### The management pair (19 R693, 17 R647) -/

/-- The management pair runs again, with nothing left to tell of its restart. -/
def pairRuns (s : State) : State :=
  modMgmt (fun m => { m with restart := 0 }) (modBoot (fun b => { b with mgmtRun := true }) s)

theorem exec_managementRestartEnd {s : State} (haux : s.boot.aux = true) (hfw : s.boot.fwOk = true)
    (hrun : s.boot.mgmtRun = false) : exec .managementRestartEnd s = .next
      (if s.mgmt.restart = 1 then recordEvent 1 13 0x0902 0 [s.mgmt.lockstep] (pairRuns s) else pairRuns s) :=
  congrArg Host.Outcome.next (if_pos ⟨haux, hfw, by rw [hrun]; rfl⟩)

/-- A pair that restarts after a mismatch records it (19 R693). -/
theorem managementRestartEnd_effect {s u : State}
    (hu : u = if s.mgmt.restart = 1 then recordEvent 1 13 0x0902 0 [s.mgmt.lockstep] (pairRuns s) else pairRuns s) :
    u.boot = { s.boot with mgmtRun := true } ∧ u.mgmt.restart = 0 ∧ (s.mgmt.restart = 1 → s.mgmt.lastSeq < u.mgmt.lastSeq) ∧
      u = { s with boot := u.boot, mgmt := u.mgmt, hif := u.hif, regs := u.regs } := by
  split at hu
  next =>
    obtain ⟨hboot, hrestart, hseq, hframe⟩ := recordEvent_effect _ _ _ _ _ _ hu
    exact ⟨hboot, hrestart, fun _ => hseq, hframe.trans (by rw [hboot]; rfl)⟩
  next h =>
    subst hu
    exact ⟨rfl, rfl, fun h1 => absurd h1 h, rfl⟩

/-- Settles O49: the failed channels and ports of a failed link by what one failed channel and one port's going DOWN bring about
and keep, the record of a degraded link and of a lockstep restart by what a record touches, cluster power by its equations. -/
theorem linksClustersAndTheManagementPair : Obligations.links_clusters_and_the_management_pair := by
  unfold Obligations.links_clusters_and_the_management_pair
  refine ⟨?_, ?_, ?_, ?_, ?_, ?_, ?_, ?_, ?_, ?_, ?_, ?_⟩
  · intro i s hi hs
    obtain ⟨hfailed, hothers, hdegraded, hchannels, hgen, hsched, hfab, hports⟩ := internalLinkFail_effect (s := s) hi rfl
    exact ⟨_, exec_internalLinkFail hi hs, hfailed, hothers, hdegraded, hchannels, hgen, hsched, hfab, hports⟩
  · intro i s hi hs hd
    obtain ⟨hboot, hseq, hframe⟩ := linkDegraded_effect (i := i) (s := s) rfl
    exact ⟨_, exec_linkDegraded hi hs hd, hboot, hseq, hframe⟩
  · exact fun i s h => internalLink_events_of_failed h
  · intro fn g s hfn hg hp hd
    refine ⟨_, exec_clusterPowerOff hfn hg hp hd, ?_, ?_, fun j hj => clusterOf_modCluster_other hj _ s,
      fun n x => forgetSaved_savedOn, rfl⟩
    · exact congrArg Cluster.powered (clusterOf_modCluster_same g Cluster.off s)
    · exact congrArg Cluster.weights (clusterOf_modCluster_same g Cluster.off s)
  · exact fun fn g s => clusterPowerOff_ignored
  · intro fn g s hfn hg hp hnet
    exact ⟨_, exec_clusterPowerOn hfn hg hp hnet, clusterOf_modCluster_same _ _ s, fun j hj => clusterOf_modCluster_other hj _ s, rfl⟩
  · exact fun fn g s => clusterPowerOn_ignored
  · rintro g rows cols _ _ a b s h rfl rfl ha hb
    rw [exec_clusterPowerOnDone h, selfTest_spared s ha hb]
    refine ⟨_, rfl, ?_, fun j hj => ?_, ?_⟩
    · rw [clusterOf_modCluster_same, clusterOf_modCluster_same]
    · rw [clusterOf_modCluster_other hj, clusterOf_modCluster_other hj]
    · rfl
  · intro g rows cols s h hr
    rw [exec_clusterPowerOnDone h, selfTest_too_many_rows _ s hr]
    refine ⟨_, rfl, ?_, ?_⟩
    · rw [clusterOf_modCluster_same]
      exact retireCluster_retired g s
    · rw [clusterOf_modCluster_same]
  · exact fun s h => congrArg Host.Outcome.next (if_pos h)
  · intro s haux hfw hrun
    obtain ⟨hboot, hrestart, hseq, hframe⟩ := managementRestartEnd_effect (s := s) rfl
    exact ⟨_, exec_managementRestartEnd haux hfw hrun, hboot, hrestart, hseq, hframe⟩
  · intro s h
    exact congrArg Host.Outcome.next (if_neg fun ⟨_, _, hrun⟩ => by simp [h] at hrun)

end Sys2Proof.Machine
end

section
/-! PROOFS. Teardowns: what the end or the rerun of a faulted context's work leaves of the clusters and of the count of faults
(14 R539, R540; 10 R365). -/

namespace Sys2Proof.Machine

/-! ### Operations that leave the clusters -/

/-- The clusters and SCHED_FAULTS. -/
def clustersAndFaults (s : State) : Map Cluster × Nat := (s.boot.clusters, s.sched.faults)

theorem clustersAndFaults_congr {s u : State} (hboot : u.boot.clusters = s.boot.clusters) (hsched : u.sched = s.sched) :
    clustersAndFaults u = clustersAndFaults s := by rw [clustersAndFaults, clustersAndFaults, hboot, hsched]

theorem clusterOf_congr {s u : State} (h : u.boot.clusters = s.boot.clusters) : clusterOf u = clusterOf s := by
  funext g
  rw [clusterOf, clusterOf, h]

section
variable (s : State)

@[simp] theorem charge_clustersAndFaults (e : Nat) (c : Counters) : clustersAndFaults (charge e c s) = clustersAndFaults s := by
  unfold charge
  split <;> rfl

@[simp] theorem chargeHeld_clustersAndFaults (e : Nat) (x : RtEntry) :
    clustersAndFaults (chargeHeld e x s) = clustersAndFaults s := by
  unfold chargeHeld
  split <;> simp

@[simp] theorem chargeWait_clustersAndFaults (u : SUnit) (q : Nat) : clustersAndFaults (chargeWait u q s) = clustersAndFaults s :=
  foldS_keeps clustersAndFaults _ _ _ fun t _ => charge_clustersAndFaults t _ _

@[simp] theorem chargeUnit_clustersAndFaults (u : SUnit) (q : Nat) (mk : Nat → Counters) :
    clustersAndFaults (chargeUnit u q mk s) = clustersAndFaults s :=
  foldS_keeps clustersAndFaults _ _ _ fun t _ => charge_clustersAndFaults t _ _

/-- The reads of a step are charged before it ends without a commit (14 R544). -/
@[simp] theorem settleReads_clustersAndFaults (r : StepRec) : clustersAndFaults (settleReads r s) = clustersAndFaults s := by
  unfold settleReads
  split
  · refine foldS_keeps clustersAndFaults _ _ _ fun t _ => ?_
    dsimp only
    split
    · exact charge_clustersAndFaults t _ _
    · exact charge_clustersAndFaults t _ _
    · exact chargeUnit_clustersAndFaults t _ _ _
  · rfl

@[simp] theorem pumpPort_clustersAndFaults (n : Nat) : clustersAndFaults (pumpPort n s) = clustersAndFaults s :=
  clustersAndFaults_congr (by simp [pumpPort]) (by simp [pumpPort])

@[simp] theorem putOn_clustersAndFaults (n lvl : Nat) (p : Packet) : clustersAndFaults (putOn n lvl p s) = clustersAndFaults s := by
  rw [putOn, pumpPort_clustersAndFaults]
  rfl

@[simp] theorem dropNoRoute_clustersAndFaults : clustersAndFaults (dropNoRoute s) = clustersAndFaults s :=
  clustersAndFaults_congr (by simp [dropNoRoute]) (by simp [dropNoRoute])

@[simp] theorem routeAt_clustersAndFaults (lvl : Nat) (p : Packet) : clustersAndFaults (routeAt lvl p s) = clustersAndFaults s := by
  unfold routeAt
  dsimp only
  split
  · rfl
  · split
    · simp
    · simp
    · split
      · split <;> simp
      · simp

@[simp] theorem sendReq_clustersAndFaults (p : Packet) (who : Option Nat) :
    clustersAndFaults (sendReq p who s) = clustersAndFaults s :=
  foldS_keeps clustersAndFaults _ _ _ fun t _ => routeAt_clustersAndFaults t _ _

@[simp] theorem sendUnpins_clustersAndFaults (e : Nat) : clustersAndFaults (sendUnpins e s) = clustersAndFaults s := by
  unfold sendUnpins
  split
  · rfl
  · refine foldS_keeps clustersAndFaults _ _ _ fun t _ => ?_
    split
    · exact sendReq_clustersAndFaults t _ _
    · rfl

@[simp] theorem returnPages_clustersAndFaults (h : Nat) (ps : List Nat) :
    clustersAndFaults (returnPages h ps s) = clustersAndFaults s :=
  foldS_keeps clustersAndFaults _ _ _ fun _ _ => rfl

@[simp] theorem dropBaton_clustersAndFaults (k : Nat) : clustersAndFaults (dropBaton k s) = clustersAndFaults s := by
  unfold dropBaton
  split
  · rfl
  · split
    · rfl
    · exact returnPages_clustersAndFaults _ _ _

@[simp] theorem returnEntry_clustersAndFaults (e : Nat) : clustersAndFaults (returnEntry e s) = clustersAndFaults s := by
  unfold returnEntry
  split
  · rfl
  · split
    · rfl
    · dsimp only
      split
      · rw [dropBaton_clustersAndFaults]
        exact (returnPages_clustersAndFaults _ _ _).trans (returnPages_clustersAndFaults _ _ _)
      · exact (returnPages_clustersAndFaults _ _ _).trans (returnPages_clustersAndFaults _ _ _)

@[simp] theorem killEntry_clustersAndFaults (e : Nat) : clustersAndFaults (killEntry e s) = clustersAndFaults s := by
  unfold killEntry
  split <;> rfl

/-- Completing an entry writes the host's memory, its queue pair and the accounting log (15 R582, 14 R542). -/
@[simp] theorem completeEntry_clustersAndFaults (e result : Nat) :
    clustersAndFaults (completeEntry e result s) = clustersAndFaults s := by
  unfold completeEntry
  split
  · rfl
  · dsimp only
    split
    · unfold acctLog
      simp only [clustersAndFaults, modSched_boot, modSched_sched]
      split <;> rfl
    · split <;> exact clustersAndFaults_congr (by simp [modWork]) (by simp [modWork])

@[simp] theorem finishCanceller_clustersAndFaults (e : Nat) : clustersAndFaults (finishCanceller e s) = clustersAndFaults s :=
  foldS_keeps clustersAndFaults _ _ _ fun t _ => clustersAndFaults_congr (by simp) (complete_sched _ _ t)

theorem openEnd_clustersAndFaults (e status detail stage : Nat) (x : RtEntry) :
    clustersAndFaults (openEnd e status detail stage x s) = clustersAndFaults s := by
  have hcount (n : Nat) (f : Gen → Gen) (t : State) : clustersAndFaults (evCount 3 2 n (modGen f t)) = clustersAndFaults t :=
    clustersAndFaults_congr (by simp) (by simp)
  rw [openEnd, hcount, charge_clustersAndFaults, chargeHeld_clustersAndFaults]
  rfl

theorem closeEnd_clustersAndFaults (e result : Nat) (x : RtEntry) :
    clustersAndFaults (closeEnd e result x s) = clustersAndFaults s := by
  unfold closeEnd
  dsimp only
  split <;> simp

/-- A step that starts over changes its record and its unit (10 R365). -/
theorem resetStep_clustersAndFaults (k : Nat) (r : StepRec) (left : List StepMember) :
    clustersAndFaults (resetStep k r left s) = clustersAndFaults s := rfl

end

/-! ### Operations that only free slots -/

/-- Slots may have become free: none that was free is taken, and the faults and counts of the arrays and SCHED_FAULTS are as
they were. -/
structure OnlyFrees (s u : State) : Prop where
  slots : ∀ g k, mget (clusterOf s g).slots k = none → mget (clusterOf u g).slots k = none
  fault : ∀ g, (clusterOf u g).fault = (clusterOf s g).fault
  passCount : ∀ g, (clusterOf u g).passCount = (clusterOf s g).passCount
  faults : u.sched.faults = s.sched.faults

theorem OnlyFrees.of_kept {s u : State} (h : clustersAndFaults u = clustersAndFaults s) : OnlyFrees s u := by
  obtain ⟨hclusters, hfaults⟩ := Prod.ext_iff.mp h
  have hc := clusterOf_congr hclusters
  exact ⟨fun g k hk => by rw [hc, hk], fun g => by rw [hc], fun g => by rw [hc], hfaults⟩

theorem OnlyFrees.refl (s : State) : OnlyFrees s s := .of_kept rfl

theorem OnlyFrees.trans {s t u : State} (h : OnlyFrees s t) (k : OnlyFrees t u) : OnlyFrees s u :=
  ⟨fun g x hx => k.slots g x (h.slots g x hx), fun g => (k.fault g).trans (h.fault g),
    fun g => (k.passCount g).trans (h.passCount g), k.faults.trans h.faults⟩

/-- What leaves the clusters may come before. -/
theorem OnlyFrees.after {s t u : State} (h : OnlyFrees t u) (k : clustersAndFaults t = clustersAndFaults s) : OnlyFrees s u :=
  (OnlyFrees.of_kept k).trans h

/-- What leaves the clusters may come afterwards. -/
theorem OnlyFrees.before {s t u : State} (h : OnlyFrees s t) (k : clustersAndFaults u = clustersAndFaults t) : OnlyFrees s u :=
  h.trans (.of_kept k)

theorem OnlyFrees.foldS {α : Type} {l : List α} {f : State → α → State} (s : State) (h : ∀ t x, OnlyFrees t (f t x)) :
    OnlyFrees s (foldS l f s) :=
  foldS_inv (OnlyFrees s) l f s (fun t x ht => ht.trans (h t x)) (.refl s)

/-- A change of one cluster that takes no slot and leaves its fault and count. -/
theorem OnlyFrees.modCluster {g : Nat} {f : Cluster → Cluster} {s : State}
    (hslots : ∀ k, mget (clusterOf s g).slots k = none → mget (f (clusterOf s g)).slots k = none)
    (hfault : (f (clusterOf s g)).fault = (clusterOf s g).fault)
    (hcount : (f (clusterOf s g)).passCount = (clusterOf s g).passCount) : OnlyFrees s (modCluster g f s) := by
  have hcases (j : Nat) : clusterOf (Machine.modCluster g f s) j = clusterOf s j ∨
      j = g ∧ clusterOf (Machine.modCluster g f s) j = f (clusterOf s g) := by
    by_cases hj : j = g
    · subst hj
      exact .inr ⟨rfl, clusterOf_modCluster_same _ _ _⟩
    · exact .inl (clusterOf_modCluster_other hj _ _)
  refine ⟨fun j k hk => ?_, fun j => ?_, fun j => ?_, rfl⟩
  all_goals rcases hcases j with h | ⟨rfl, h⟩ <;> rw [h]
  · exact hk
  · exact hslots k hk
  · exact hfault
  · exact hcount

theorem noteFreed_onlyFrees (x : Freed) (s : State) : OnlyFrees s (noteFreed x s) := .of_kept rfl

theorem freeSlots_onlyFrees (n : Nat) (l : List (Nat × Nat)) (s : State) : OnlyFrees s (freeSlots n l s) := by
  refine .foldS s fun t p => OnlyFrees.trans ?_ (noteFreed_onlyFrees (.slot p.1 p.2) _)
  refine .modCluster (fun k hk => ?_) rfl rfl
  dsimp only
  split
  · split
    · rw [mget_merase, hk, ite_self]
    · exact hk
  · exact hk

theorem endUnit_onlyFrees (n : Nat) (s : State) : OnlyFrees s (endUnit n s) := by
  unfold endUnit
  split
  · exact .refl s
  · exact (freeSlots_onlyFrees n _ _).after rfl

theorem endUnitsOf_onlyFrees (e : Nat) (s : State) : OnlyFrees s (endUnitsOf e s) := by
  refine .foldS s fun t u => OnlyFrees.trans ?_ (endUnit_onlyFrees u.1 _)
  split
  · exact .of_kept (chargeWait_clustersAndFaults t _ _)
  · exact .refl t

/-- The end of a request frees the slots of the units that served it (10 R347, R384). -/
theorem endEntry_onlyFrees (e status detail stage result : Nat) (s : State) :
    OnlyFrees s (endEntry e status detail stage result s) := by
  cases hx : mget s.gen.entries e with
  | none => simpa [endEntry, entryOf, hx] using OnlyFrees.refl s
  | some x =>
    by_cases hs : x.state = .drain
    · simpa [endEntry, entryOf, hx, hs] using OnlyFrees.refl s
    · rw [endEntry_eq status detail stage result hx hs]
      exact ((endUnitsOf_onlyFrees e _).after (openEnd_clustersAndFaults s e status detail stage x)).before
        (closeEnd_clustersAndFaults _ e result x)

theorem endFault_onlyFrees (e detail stage : Nat) (s : State) : OnlyFrees s (endFault e detail stage s) := by
  unfold endFault
  split
  · exact .refl s
  · split <;> exact endEntry_onlyFrees _ _ _ _ _ s

theorem endStepFault_onlyFrees (k n detail : Nat) (r : StepRec) (s : State) : OnlyFrees s (endStepFault k n detail r s) := by
  have hended : OnlyFrees s (endUnit n (settleReads r s)) :=
    (endUnit_onlyFrees n _).after (settleReads_clustersAndFaults s r)
  refine (hended.before (u := modGen (fun g => { g with steps := merase g.steps k }) _) rfl).trans (.foldS _ fun t m => ?_)
  split
  · exact (endFault_onlyFrees _ _ _ _).after rfl
  · exact .refl t

/-- A step that runs again gives up the slots of its unit, which is placed anew later (10 R365). -/
theorem restartStep_onlyFrees (n : Nat) (avoid : List Nat) (s : State) : OnlyFrees s (restartStep n avoid s) := by
  unfold restartStep
  split
  · exact .refl s
  next u _ =>
    refine ((freeSlots_onlyFrees n u.slots s).trans (.foldS _ fun t a => ?_)).before rfl
    obtain ⟨l, hl⟩ := raiseVtime_only t u.prio a
    rw [hl]
    exact .of_kept rfl

theorem rerunStep_onlyFrees (k n : Nat) (u : SUnit) (cause : Nat) (s : State) : OnlyFrees s (rerunStep k n u cause s) := by
  unfold rerunStep
  split
  · exact .refl s
  · split
    · exact (restartStep_onlyFrees _ _ _).after (resetStep_clustersAndFaults _ _ _ _)
    · exact endStepFault_onlyFrees _ _ _ _ s

/-! ### The teardown of a context -/

/-- A cluster without the context in a slot: the context is gone, and so is its pass group in flight. -/
def Cluster.without (slot : Nat) (k : Cluster) : Cluster :=
  { k with
    slots := merase k.slots slot
    group := match k.group with | some q => if q.slot = slot then none else some q | none => none }

section
variable (g slot cause : Nat) (c : Ctx) (u : SUnit) (s : State)

/-- The state as a fault is charged to the accounts of a unit (14 R543). -/
def chargedFault : State := foldS (firstOfAccounts u) (fun t e => charge e { faults := 1 } t) s

theorem chargedFault_clustersAndFaults : clustersAndFaults (chargedFault u s) = clustersAndFaults s :=
  foldS_keeps clustersAndFaults _ _ _ fun t _ => charge_clustersAndFaults t _ _

/-- The first part of a teardown: the fault is charged, counted and recorded, and the context leaves its slot (14 R539). -/
def tornDown : State :=
  modCluster g (Cluster.without slot) (recordEvent 2 (64 + g) (0x0100 + cause) (instCluster g)
    [c.account, ((u.members.head?.bind fun m => entryOf s m.1).map (·.tag)).getD 0, coreContext g 0 slot]
    (evCount 2 5 1 (modSched (fun d => { d with faults := d.faults + 1 }) (chargedFault u s))))

theorem clusterOf_tornDown : clusterOf (tornDown g slot cause c u s) g = (clusterOf s g).without slot := by
  rw [tornDown, clusterOf_modCluster_same]
  refine congrArg _ (congrFun (clusterOf_congr ?_) g)
  rw [recordEvent_boot, evCount_boot]
  exact congrArg Prod.fst (chargedFault_clustersAndFaults u s)

/-- The steps in flight are as they were: a charge touches entries alone. -/
theorem tornDown_steps : (tornDown g slot cause c u s).gen.steps = s.gen.steps := by
  have hcharged : (chargedFault u s).gen.steps = s.gen.steps :=
    foldS_keeps (fun t => t.gen.steps) _ _ _ fun t _ => by rw [charge_gen, modEntry_gen]
  rw [tornDown, modCluster_gen, recordEvent_gen, evCount_gen, modSched_gen, hcharged]

theorem tornDown_faults : (tornDown g slot cause c u s).sched.faults = s.sched.faults + 1 := by
  have hcharged : (chargedFault u s).sched.faults = s.sched.faults := congrArg Prod.snd (chargedFault_clustersAndFaults u s)
  rw [tornDown, modCluster_sched, recordEvent_sched, evCount_sched, modSched_sched, hcharged]

end

section
variable {g slot : Nat} {c : Ctx} {u : SUnit} {s : State}

/-- After a context has left its slot its step, run or request stage ends or runs again, which only frees slots (14 R540). -/
theorem tearDown_onlyFrees (cause : Nat) (hc : mget (clusterOf s g).slots slot = some c)
    (hu : mget s.sched.units c.unit = some u) : OnlyFrees (tornDown g slot cause c u s) (tearDown g slot cause s) := by
  unfold tearDown tearDownFor
  split
  next hnone => exact absurd (hc.symm.trans hnone) (Option.some_ne_none c)
  next c' hsome =>
  obtain rfl : c = c' := Option.some.inj (hc.symm.trans hsome)
  split
  next hnone => exact absurd (hu.symm.trans hnone) (Option.some_ne_none u)
  next u' hsome =>
  obtain rfl : u = u' := Option.some.inj (hu.symm.trans hsome)
  -- The state is named before the cases on the work, and its steps are those of `s`: no case then evaluates it.
  extract_lets charged tag counted recorded left
  have hleft : left = tornDown g slot cause c u s := rfl
  rw [hleft, tornDown_steps]
  split
  · exact endFault_onlyFrees _ _ _ _
  · exact endFault_onlyFrees _ _ _ _
  · split
    · exact .refl _
    · rw [if_pos List.isEmpty_nil]
      exact rerunStep_onlyFrees _ _ _ _ _

/-- A teardown counts one fault, empties the slot, and leaves the array's fault register and pass count (14 R539). -/
theorem tearDown_effect (cause : Nat) (hc : mget (clusterOf s g).slots slot = some c) (hu : mget s.sched.units c.unit = some u) :
    mget (clusterOf (tearDown g slot cause s) g).slots slot = none ∧
      (clusterOf (tearDown g slot cause s) g).fault = (clusterOf s g).fault ∧
      (clusterOf (tearDown g slot cause s) g).passCount = (clusterOf s g).passCount ∧
      (tearDown g slot cause s).sched.faults = s.sched.faults + 1 := by
  obtain ⟨hslots, hfault, hcount, hfaults⟩ := tearDown_onlyFrees cause hc hu
  have hg := clusterOf_tornDown g slot cause c u s
  refine ⟨hslots g slot ?_, (hfault g).trans (by rw [hg]; rfl), (hcount g).trans (by rw [hg]; rfl),
    hfaults.trans (tornDown_faults g slot cause c u s)⟩
  rw [hg, Cluster.without, mget_merase, if_pos rfl]

end

end Sys2Proof.Machine
end

section
/-! PROOFS. Passes of the arrays: what a pass in its turn makes of its cluster, what keeps one from issuing, and what a range
outside the allocation leaves (04 R103, R104, R107, R133; 05 R159, R178). -/

namespace Sys2Proof.Machine

/-! ### What the parts of a pass do to a cluster -/

/-- A pass notes its slot and its weights; the weights it takes leave the contexts and the count of passes (04 R97, R129). -/
theorem takeWeights_effect (m : List Host.Cell) (slot : Nat) (id : WeightId) (p : Pass) (k : Cluster) :
    (takeWeights m slot id p k).passCount = k.passCount ∧ (takeWeights m slot id p k).lastSlot = slot ∧
      (takeWeights m slot id p k).weights = some id ∧ (takeWeights m slot id p k).slots = k.slots := by
  unfold takeWeights
  split
  next h =>
    simp only [weightsHit, Bool.and_eq_true, beq_iff_eq] at h
    obtain ⟨⟨-, hid⟩, -⟩ := h
    exact ⟨rfl, rfl, hid, rfl⟩
  next => exact ⟨rfl, rfl, rfl, rfl⟩

/-- A write can end the identity of resident weights; the contexts, the group in flight, its slot and the count of passes stay
(04 R129). -/
theorem touchWeights_effect (unit share : Nat) (rs : List (Nat × Nat)) (k : Cluster) :
    (touchWeights unit share rs k).passCount = k.passCount ∧ (touchWeights unit share rs k).lastSlot = k.lastSlot ∧
      (touchWeights unit share rs k).group = k.group ∧ (touchWeights unit share rs k).slots = k.slots := by
  unfold touchWeights
  split
  · split <;> exact ⟨rfl, rfl, rfl, rfl⟩
  · exact ⟨rfl, rfl, rfl, rfl⟩

/-- A cluster whose group in flight has ended, the context of its slot changed. -/
def Cluster.groupDone (slot : Nat) (next : Ctx → Ctx) (k : Cluster) : Cluster :=
  { k with group := none, slots := mupd k.slots slot next }

/-- A cluster with passes, stall slots and reloads counted (04 R134). -/
def Cluster.counted (n stalls reloads : Nat) (k : Cluster) : Cluster :=
  { k with passCount := k.passCount + n, stalls := k.stalls + stalls, reloads := k.reloads + reloads }

section
variable (g : Nat) (u : SUnit) (n slots stalls : Nat) (reload : Bool) (s : State)

@[simp] theorem chargeUnit_hif (q : Nat) (mk : Nat → Counters) : (chargeUnit u q mk s).hif = s.hif :=
  foldS_keeps (fun t => t.hif) _ _ _ fun t _ => charge_hif _ _ t

@[simp] theorem chargeUnit_units (q : Nat) (mk : Nat → Counters) : (chargeUnit u q mk s).sched.units = s.sched.units :=
  foldS_keeps (fun t => t.sched.units) _ _ _ fun t _ => charge_units _ _ t

/-- The counters of a cluster's passes rise, and no other cluster differs. -/
theorem clusterOf_countPasses : clusterOf (countPasses g u n slots stalls reload s) =
    clusterOf (modCluster g (Cluster.counted n stalls (b2n reload)) s) := by
  refine clusterOf_congr ((congrArg Prod.fst (chargeUnit_clustersAndFaults _ _ _ _)).trans ?_)
  simp only [clustersAndFaults, evCount_boot]
  rfl

theorem countPasses_units : (countPasses g u n slots stalls reload s).sched.units = s.sched.units := by simp [countPasses]

theorem countPasses_hostMem : (countPasses g u n slots stalls reload s).hif.hostMem = s.hif.hostMem := by simp [countPasses]

end

/-- The flags of an operation are gathered in the request table. -/
@[simp] theorem gatherUnit_boot (u : SUnit) (f : BitVec 4) (s : State) : (gatherUnit u f s).boot = s.boot :=
  foldS_keeps (fun t => t.boot) _ _ _ fun _ _ => rfl

/-! ### A pass that issues -/

/-- A pass that issues is counted, and its weights become the active ones: the part of its issue before its products (04 R97,
R104, R105). -/
def passTaken (g slot : Nat) (c : Ctx) (u : SUnit) (b : Bytes) (p : Pass) (env : PassEnv) (s : State) : State :=
  let id := weightId c.unit (u.slots.idxOf (g, slot)) b p
  modCluster g (takeWeights (c.view (p.probs.flatMap p.reads)) slot id p)
    (countPasses g u 1 (passSlots p.fmtA) env.stalls (p.keep && !weightsHit (clusterOf s g) id p) s)

section
variable (g slot : Nat) (c : Ctx) (u : SUnit) (b : Bytes) (p : Pass) (env : PassEnv) (s : State)

/-- The cluster as the pass is taken: one pass more, its slot and its weights noted, its contexts as before. -/
theorem clusterOf_passTaken : (clusterOf (passTaken g slot c u b p env s) g).passCount = (clusterOf s g).passCount + 1 ∧
    (clusterOf (passTaken g slot c u b p env s) g).lastSlot = slot ∧
    (clusterOf (passTaken g slot c u b p env s) g).weights = some (weightId c.unit (u.slots.idxOf (g, slot)) b p) ∧
    (clusterOf (passTaken g slot c u b p env s) g).slots = (clusterOf s g).slots := by
  rw [passTaken, clusterOf_modCluster_same, clusterOf_countPasses, clusterOf_modCluster_same]
  exact takeWeights_effect _ _ _ _ _

theorem clusterOf_passTaken_other {j : Nat} (hj : j ≠ g) : clusterOf (passTaken g slot c u b p env s) j = clusterOf s j := by
  rw [passTaken, clusterOf_modCluster_other hj, clusterOf_countPasses, clusterOf_modCluster_other hj]

theorem passTaken_units : (passTaken g slot c u b p env s).sched.units = s.sched.units :=
  countPasses_units _ _ _ _ _ _ _

theorem passTaken_hostMem : (passTaken g slot c u b p env s).hif.hostMem = s.hif.hostMem :=
  countPasses_hostMem _ _ _ _ _ _ _

variable {p env} (acc : List AccEntry) (first : Bytes)

/-- A pass before the last leaves its group in flight, the next pass in its place (04 R103). -/
theorem issueNow_before_last (henv : env.residueColumn = none) (hlast : p.last = false) :
    ∃ q, issueNow g slot c u b p acc first env s =
      modCluster g (fun k => { k with group := some q }) (passTaken g slot c u b p env s) ∧
      q.slot = slot ∧ q.next = p.index + 1 := by
  simp only [issueNow, henv, Option.filter_none, hlast, Bool.false_eq_true, if_false]
  exact ⟨_, rfl, rfl, rfl⟩

/-- The last pass ends its group and writes the outputs of its context (04 R107). -/
theorem clusterOf_issueNow_last (henv : env.residueColumn = none) (hlast : p.last = true) :
    ∃ rs next, clusterOf (issueNow g slot c u b p acc first env s) =
      clusterOf (modCluster g (fun k => touchWeights c.unit (u.slots.idxOf (g, slot)) rs (k.groupDone slot next))
        (passTaken g slot c u b p env s)) := by
  simp only [issueNow, henv, Option.filter_none, hlast, if_true]
  exact ⟨_, _, clusterOf_congr (congrArg Boot.clusters (gatherUnit_boot _ _ _))⟩

end

/-- A pass group has ended with a pass of a slot: the pass is counted, the slot is noted, no group is in flight, and the other
slots and the other clusters are as they were (04 R107). -/
structure GroupEnded (g slot : Nat) (s u : State) : Prop where
  passCount : (clusterOf u g).passCount = (clusterOf s g).passCount + 1
  lastSlot : (clusterOf u g).lastSlot = slot
  group : (clusterOf u g).group = none
  slots : ∀ j, j ≠ slot → mget (clusterOf u g).slots j = mget (clusterOf s g).slots j
  others : ∀ j, j ≠ g → clusterOf u j = clusterOf s j

theorem mget_mupd_other {α : Type} {k j : Nat} (h : j ≠ k) (m : Map α) (f : α → α) : mget (mupd m k f) j = mget m j := by
  rw [mget_mupd, if_neg h]

theorem issueNow_groupEnded (g slot : Nat) (c : Ctx) (u : SUnit) (b : Bytes) {p : Pass} {env : PassEnv} (acc : List AccEntry)
    (first : Bytes) (s : State) (henv : env.residueColumn = none) (hlast : p.last = true) :
    GroupEnded g slot s (issueNow g slot c u b p acc first env s) := by
  obtain ⟨hcount, hslot, -, hslots⟩ := clusterOf_passTaken g slot c u b p env s
  obtain ⟨rs, next, hissue⟩ := clusterOf_issueNow_last g slot c u b s acc first henv hlast
  obtain ⟨tcount, tslot, tgroup, tslots⟩ := touchWeights_effect c.unit (u.slots.idxOf (g, slot)) rs
    ((clusterOf (passTaken g slot c u b p env s) g).groupDone slot next)
  have hg := (congrFun hissue g).trans (clusterOf_modCluster_same _ _ _)
  rw [← hg] at tcount tslot tgroup tslots
  refine ⟨tcount.trans hcount, tslot.trans hslot, tgroup, fun j hj => ?_, fun j hj => ?_⟩
  · rw [tslots, Cluster.groupDone, mget_mupd_other hj, hslots]
  · rw [hissue, clusterOf_modCluster_other hj, clusterOf_passTaken_other _ _ _ _ _ _ _ _ hj]

/-- A context that stood at the MATMUL_GROUP goes on to its next operation; nothing but its slot differs (05 R159). -/
theorem afterGroup_only (g slot : Nat) (s : State) : afterGroup g slot s = s ∨
    ∃ f, afterGroup g slot s = modCluster g (fun k => { k with slots := mupd k.slots slot f }) s := by
  unfold afterGroup
  split
  · exact .inl rfl
  · split
    · exact .inr ⟨_, rfl⟩
    · exact .inl rfl

theorem GroupEnded.afterGroup {g slot : Nat} {s t : State} (h : GroupEnded g slot s t) :
    GroupEnded g slot s (afterGroup g slot t) := by
  rcases afterGroup_only g slot t with hsame | ⟨f, hnext⟩
  · rw [hsame]
    exact h
  · have hg : clusterOf (Machine.afterGroup g slot t) g = { clusterOf t g with slots := mupd (clusterOf t g).slots slot f } := by
      rw [hnext, clusterOf_modCluster_same]
    refine ⟨?_, ?_, ?_, fun j hj => ?_, fun j hj => ?_⟩
    · rw [hg, ← h.passCount]
    · rw [hg, ← h.lastSlot]
    · rw [hg, ← h.group]
    · rw [hg, mget_mupd_other hj, h.slots j hj]
    · rw [hnext, clusterOf_modCluster_other hj, h.others j hj]

/-! ### Which passes issue -/

/-- A well-formed pass in its turn, of a context whose unit is in the scheduler: only its ranges can keep it from issuing (04
R103, R109, R126; 05 R178). -/
structure PassInTurn (g slot : Nat) (b : Bytes) (c : Ctx) (x : SUnit) (acc : List AccEntry) (s : State) : Prop where
  context : mget (clusterOf s g).slots slot = some c
  unit : mget s.sched.units c.unit = some x
  form : passForm b = true
  formats : passFormats (passOf b) = true
  turn : passTurn (clusterOf s g) slot (passOf b) = some acc
  array : (clusterOf s g).group.isSome = true ∨ arrayTurn s g slot = true

/-- The array takes a pass in its turn: it belongs to the group in flight or its slot may begin a group (05 R178). -/
theorem PassInTurn.array_takes {g slot : Nat} {b : Bytes} {c : Ctx} {x : SUnit} {acc : List AccEntry} {s : State}
    (h : PassInTurn g slot b c x acc s) : ((clusterOf s g).group.isNone && !arrayTurn s g slot) = false := by
  rcases h.array with hgroup | hturn
  · rw [Option.isNone_eq_false_iff.mpr hgroup, Bool.false_and]
  · rw [hturn, Bool.not_true, Bool.and_false]

theorem PassInTurn.issuePass_eq {g slot : Nat} {b : Bytes} {c : Ctx} {x : SUnit} {acc : List AccEntry} {s : State}
    (h : PassInTurn g slot b c x acc s) (env : PassEnv) : ∃ first, issuePass g slot b env s =
      if inAlloc x.sram (passOf b) then issueNow g slot c x b (passOf b) acc first env s else rangeError g slot s := by
  simp only [issuePass, h.context, h.unit, h.form, h.formats, h.array_takes, h.turn, Bool.not_true, Bool.or_false,
    Bool.false_eq_true, if_false]
  exact ⟨_, rfl⟩

/-- A bad descriptor, a pass out of turn and a group before that of a slot whose turn it is issue nothing (04 R103, 05 R178). -/
theorem issuePass_ignored {g slot : Nat} {b : Bytes} {s : State} (env : PassEnv) (h : passForm b = false ∨
    passFormats (passOf b) = false ∨ passTurn (clusterOf s g) slot (passOf b) = none ∨
    ((clusterOf s g).group = none ∧ arrayTurn s g slot = false)) : issuePass g slot b env s = s := by
  unfold issuePass
  dsimp only
  split
  · rfl
  · split
    · rfl
    · split
      · rfl
      next hgood =>
        simp only [Bool.or_eq_true, Bool.and_eq_true, not_or] at hgood
        obtain ⟨⟨hform, hformats⟩, harray⟩ := hgood
        rcases h with h | h | h | ⟨hgroup, hturn⟩
        · exact absurd (by rw [h]; rfl) hform
        · exact absurd (by rw [h]; rfl) hformats
        · rw [h]
        · exact absurd ⟨by rw [hgroup]; rfl, by rw [hturn]; rfl⟩ harray

/-- A cluster whose array shows a range outside an allocation, ARR_FAULT sram_range (04 R133, R141). -/
def Cluster.rangeFaulted (k : Cluster) : Cluster := { k with fault := k.fault ||| 2 }

/-- A range outside the allocation: the fault bit of the array stands, the context is torn down, and no pass is counted (04
R133). -/
theorem rangeError_effect {g slot : Nat} {c : Ctx} {x : SUnit} {s : State} (hc : mget (clusterOf s g).slots slot = some c)
    (hu : mget s.sched.units c.unit = some x) :
    (clusterOf (rangeError g slot s) g).fault = (clusterOf s g).fault ||| 2 ∧
      (clusterOf (rangeError g slot s) g).passCount = (clusterOf s g).passCount ∧
      mget (clusterOf (rangeError g slot s) g).slots slot = none ∧
      (rangeError g slot s).sched.faults = s.sched.faults + 1 := by
  have hmarked := clusterOf_modCluster_same g Cluster.rangeFaulted s
  obtain ⟨hslot, hfault, hcount, hfaults⟩ :=
    tearDown_effect (s := modCluster g Cluster.rangeFaulted s) 2 (by rw [hmarked]; exact hc) hu
  have hirq : clusterOf (rangeError g slot s) = clusterOf (tearDown g slot 2 (modCluster g Cluster.rangeFaulted s)) :=
    clusterOf_congr (congrArg Boot.clusters (irqEval_boot _ _ _))
  rw [hirq]
  refine ⟨hfault.trans (by rw [hmarked]; rfl), hcount.trans (by rw [hmarked]; rfl), hslot, ?_⟩
  rw [rangeError, irqEval_sched]
  exact hfaults

/-! ### PASS_ISSUE -/

/-- PASS_ISSUE of a pass that is not the last of its group, or is not counted, is the issue of the pass. -/
theorem exec_passIssue_within {g slot : Nat} {b : Bytes} {env : PassEnv} {s : State} (h : (passOf b).last = false ∨
    (clusterOf (issuePass g slot b env s) g).passCount = (clusterOf s g).passCount) :
    exec (.passIssue g slot b env) s = .next (issuePass g slot b env s) := by
  refine congrArg Host.Outcome.next (if_neg fun hlast => ?_)
  obtain ⟨hl, hcount⟩ := Bool.and_eq_true_iff.mp hlast
  rcases h with h | h
  · exact Bool.false_ne_true (h.symm.trans hl)
  · exact bne_iff_ne.mp hcount h

/-- PASS_ISSUE of the last pass of a group, when it is counted, also completes the operation (05 R159). -/
theorem exec_passIssue_last {g slot : Nat} {b : Bytes} {env : PassEnv} {s : State} (hlast : (passOf b).last = true)
    (hcount : (clusterOf (issuePass g slot b env s) g).passCount ≠ (clusterOf s g).passCount) :
    exec (.passIssue g slot b env) s = .next (afterGroup g slot (issuePass g slot b env s)) :=
  congrArg Host.Outcome.next (if_pos (Bool.and_eq_true_iff.mpr ⟨hlast, bne_iff_ne.mpr hcount⟩))

/-- Settles O30: a pass in its turn is taken and leaves its group in flight or ends it, one that may not issue changes nothing,
and one that leaves its allocation is a teardown. -/
theorem passesIssue : Obligations.passes_issue := by
  unfold Obligations.passes_issue
  refine ⟨?_, ?_, ?_, ?_⟩
  · intro g slot b env c x acc s hc hu hform hformats hturn harray halloc henv hlast
    obtain ⟨first, hissue⟩ := PassInTurn.issuePass_eq ⟨hc, hu, hform, hformats, hturn, harray⟩ env
    obtain ⟨q, hnow, hslot, hnext⟩ := issueNow_before_last g slot c x b s acc first henv hlast
    rw [if_pos halloc, hnow] at hissue
    obtain ⟨hcount, hlastSlot, hweights, hslots⟩ := clusterOf_passTaken g slot c x b (passOf b) env s
    have hg := clusterOf_modCluster_same g (fun k => { k with group := some q }) (passTaken g slot c x b (passOf b) env s)
    refine ⟨_, q, exec_passIssue_within (.inl hlast), ?_⟩
    rw [hissue, hg]
    exact ⟨hcount, hlastSlot, hweights, rfl, hslot, hnext, hslots,
      fun j hj => (clusterOf_modCluster_other hj _ _).trans (clusterOf_passTaken_other _ _ _ _ _ _ _ _ hj),
      passTaken_hostMem _ _ _ _ _ _ _ _, passTaken_units _ _ _ _ _ _ _ _⟩
  · intro g slot b env c x acc s hc hu hform hformats hturn harray halloc henv hlast
    obtain ⟨first, hissue⟩ := PassInTurn.issuePass_eq ⟨hc, hu, hform, hformats, hturn, harray⟩ env
    have hended := issueNow_groupEnded g slot c x b acc first s henv hlast
    rw [if_pos halloc] at hissue
    rw [← hissue] at hended
    have hmore : (clusterOf (issuePass g slot b env s) g).passCount ≠ (clusterOf s g).passCount := by
      rw [hended.passCount]
      exact Nat.succ_ne_self _
    obtain ⟨hcount, hlastSlot, hgroup, hslots, hothers⟩ := hended.afterGroup
    exact ⟨_, exec_passIssue_last hlast hmore, hcount, hlastSlot, hgroup, hslots, hothers⟩
  · intro g slot b env s h
    have hsame := issuePass_ignored env h
    rw [exec_passIssue_within (.inr (by rw [hsame])), hsame]
  · intro g slot b env c x acc s hc hu hform hformats hturn harray halloc
    obtain ⟨first, hissue⟩ := PassInTurn.issuePass_eq ⟨hc, hu, hform, hformats, hturn, harray⟩ env
    rw [if_neg (by rw [halloc]; exact Bool.false_ne_true)] at hissue
    obtain ⟨hfault, hcount, hslot, hfaults⟩ := rangeError_effect hc hu
    rw [← hissue] at hfault hcount hslot hfaults
    refine ⟨_, exec_passIssue_within (.inr hcount), ?_, hcount, hslot, hfaults⟩
    rw [hfault, BitVec.getLsbD_or]
    exact Bool.or_eq_true_iff.mpr (.inr rfl)

end Sys2Proof.Machine
end

section
/-! PROOFS. Images: what sending a packet and making room for a load leave as they were, and what a load and an unload bring about
(05 R144 to R147; 10 R350, R359; 12 R436, R470). -/

namespace Sys2Proof.Machine

/-! ### Sending a packet -/

/-- Packets have been sent: nothing but the fabric, the register pages and the messages to the host differs. -/
structure SendsOnly (s u : State) : Prop where
  only : FabOnly s u
  hostMem : u.hif.hostMem = s.hif.hostMem

theorem SendsOnly.refl (s : State) : SendsOnly s s := ⟨rfl, rfl⟩

theorem SendsOnly.trans {s t u : State} (h : SendsOnly s t) (k : SendsOnly t u) : SendsOnly s u := by
  refine ⟨?_, k.hostMem.trans h.hostMem⟩
  have hu := k.only
  rw [FabOnly, h.only] at hu
  exact hu

section
variable (s : State)

theorem modFab_sendsOnly (f : Fabric → Fabric) : SendsOnly s (modFab f s) := ⟨rfl, rfl⟩

theorem evCount_sendsOnly (p src n : Nat) : SendsOnly s (evCount p src n s) :=
  ⟨by apply state_ext <;> simp, evCount_hif_hostMem ..⟩

theorem pumpPort_sendsOnly (n : Nat) : SendsOnly s (pumpPort n s) :=
  (modFab_sendsOnly s _).trans (evCount_sendsOnly _ _ _ _)

theorem putOn_sendsOnly (n lvl : Nat) (p : Packet) : SendsOnly s (putOn n lvl p s) :=
  ((modFab_sendsOnly s _).trans (modFab_sendsOnly _ _)).trans (pumpPort_sendsOnly _ _)

theorem dropNoRoute_sendsOnly : SendsOnly s (dropNoRoute s) :=
  (modFab_sendsOnly s _).trans (evCount_sendsOnly _ _ _ _)

theorem routeAt_sendsOnly (lvl : Nat) (p : Packet) : SendsOnly s (routeAt lvl p s) := by
  unfold routeAt
  dsimp only
  split
  · exact modFab_sendsOnly s _
  · split
    · exact dropNoRoute_sendsOnly s
    · exact putOn_sendsOnly s _ _ _
    · split
      · split
        · exact putOn_sendsOnly s _ _ _
        · exact dropNoRoute_sendsOnly s
      · exact dropNoRoute_sendsOnly s

theorem sendAll_sendsOnly (p : Packet) : SendsOnly s (sendAll p s) :=
  foldS_inv (SendsOnly s) _ _ _ (fun t _ h => h.trans (routeAt_sendsOnly t _ _)) (.refl s)

theorem sendReq_sendsOnly (p : Packet) (who : Option Nat) : SendsOnly s (sendReq p who s) :=
  (modFab_sendsOnly s _).trans (sendAll_sendsOnly _ _)

end

/-! ### Room for a load (10 R350; 12 R436, R470) -/

/-- What making room leaves as it was: the loaded images and the draws of their handles, the security unit, the request table, the
scheduler and the host's memory. -/
def besideRoom (s : State) : Map Image × Nat × Sec × Gen × Sched × List Host.Cell :=
  (s.obj.images, s.obj.handleDraws, s.sec, s.gen, s.sched, s.hif.hostMem)

theorem SendsOnly.besideRoom_eq {s u : State} (h : SendsOnly s u) : besideRoom u = besideRoom s := by
  rw [besideRoom, h.hostMem, h.only]
  rfl

section
variable (s : State)

theorem reclaimLease_besideRoom (n : Nat) : besideRoom (reclaimLease n s) = besideRoom s := by
  unfold reclaimLease
  split
  · split
    · rfl
    · exact (sendReq_sendsOnly _ _ _).besideRoom_eq
  · rfl

theorem reclaimFor_besideRoom (need : Nat) (l : List Nat) : besideRoom (reclaimFor need l s) = besideRoom s := by
  induction l generalizing s with
  | nil => rfl
  | cons n l ih =>
    unfold reclaimFor
    split
    · rfl
    · exact (ih _).trans (reclaimLease_besideRoom s n)

theorem acceptWrites_besideRoom (l : List UnitWrite) : besideRoom (acceptWrites l s) = besideRoom s := by simp [besideRoom]

theorem evictRow_besideRoom (d : DirtyRow) : besideRoom (evictRow d s) = besideRoom s := by
  unfold evictRow writeRowBack
  dsimp only
  split
  · exact acceptWrites_besideRoom _ _
  · rfl

theorem evictFor_besideRoom (need : Nat) (l : List DirtyRow) : besideRoom (evictFor need l s) = besideRoom s := by
  induction l generalizing s with
  | nil => rfl
  | cons d l ih =>
    unfold evictFor
    split
    · rfl
    · exact (ih _).trans (evictRow_besideRoom s d)

theorem makeRoom_besideRoom (need : Nat) : besideRoom (makeRoom need s) = besideRoom s :=
  (reclaimFor_besideRoom _ _ _).trans (evictFor_besideRoom _ _ _)

/-! ### Floors (18 R671) -/

theorem raiseFloor_only (kind : Nat) (sig : Bytes) : raiseFloor kind sig s = { s with sec := (raiseFloor kind sig s).sec } := by
  unfold raiseFloor
  split <;> rfl

theorem raiseFloor_sec_congr (kind : Nat) (sig : Bytes) {t : State} (h : s.sec = t.sec) :
    (raiseFloor kind sig s).sec = (raiseFloor kind sig t).sec := by
  unfold raiseFloor
  split
  · exact congrArg (raiseFloorTo kind (rd sig 8 4)) h
  · exact h

end

/-! ### IMAGE_LOAD (05 R144, R145, R147; 10 R350) -/

theorem exec_imageLoad {h : HostCmd} {s t : State} {f : Fetched} (ht : Taken 0x22 h s f t) :
    exec (.imageLoad h) s = .next (finishReply h f (imageLoadBody h t)) :=
  congrArg _ (runCmd_taken ht fun _ => imageLoadBody h)

/-- A load whose bytes, owner and kind are at hand and that matches no loaded image: it is counted, and then judged. -/
structure LoadJudged (h : HostCmd) (o : Bytes) (owner : Option Nat) (t v : State) : Prop where
  bytes : o = cmdBody h (cmdLen0 h)
  owned : owner = if (cmdParam h).testBit 15 then none else some (cmdParam h % 4096)
  counted : v = evCount 12 2 1 t
  kind : (rd o 6 1 == 2 || rd o 6 1 == 3) = decide (0 < bitsOf (cmdParam h) 39 16)
  fresh : sameImage t owner o = none

/-- The state in which an image is kept under a handle: room is made for it, and its floor is raised (10 R350, 18 R671). -/
def keepImage (k need : Nat) (i : Image) (sig : Bytes) (s : State) : State :=
  raiseFloor 3 sig (modObj (fun x => { x with images := mset x.images k i, handleDraws := x.handleDraws + 1 }) (makeRoom need s))

section
variable {h : HostCmd} {o : Bytes} {owner : Option Nat} {t v : State}

/-- Key-value pages belong to images of kinds 2 and 3 and to no others (10 R350). -/
theorem imageLoadBody_malformed (hkind : (rd (cmdBody h (cmdLen0 h)) 6 1 == 2 || rd (cmdBody h (cmdLen0 h)) 6 1 == 3) ≠
    decide (0 < bitsOf (cmdParam h) 39 16)) : imageLoadBody h t = deny Status.descMalformed t 58 :=
  if_pos (bne_iff_ne.mpr hkind)

theorem imageLoadBody_loaded {k : Nat} (hkind : (rd (cmdBody h (cmdLen0 h)) 6 1 == 2 || rd (cmdBody h (cmdLen0 h)) 6 1 == 3) =
    decide (0 < bitsOf (cmdParam h) 39 16))
    (hsame : sameImage t (if (cmdParam h).testBit 15 then none else some (cmdParam h % 4096)) (cmdBody h (cmdLen0 h)) = some k) :
    imageLoadBody h t = okWith t k := by
  simp only [imageLoadBody, hkind, bne_self_eq_false, Bool.false_eq_true, if_false, hsame]

theorem LoadJudged.body_invalid (j : LoadJudged h o owner t v) {r : Nat} (hr : imageReason v owner o = some r) :
    imageLoadBody h t = deny Status.imageInvalid v r := by
  obtain ⟨rfl, rfl, rfl, hkind, hfresh⟩ := j
  simp only [imageLoadBody, hkind, bne_self_eq_false, Bool.false_eq_true, if_false, hfresh, hr]

variable {p : ImageParts} {i : Image} (j : LoadJudged h o owner t v) (hr : imageReason v owner o = none)
  (hp : imageParts o = some p) (hi : i = imageOf o p owner (bitsOf (cmdParam h) 39 16))
include j hr hp hi

theorem LoadJudged.body_unplaced (hfree : freeBrixjo v < i.payload.length + bitsOf (cmdParam h) 39 16 * i.pageBytes) :
    imageLoadBody h t = deny Status.noResources v := by
  obtain ⟨rfl, rfl, rfl, hkind, hfresh⟩ := j
  subst hi
  simp only [imageLoadBody, hkind, bne_self_eq_false, Bool.false_eq_true, if_false, hfresh, hr, hp, if_pos hfree]

theorem LoadJudged.body_kept {k : Nat} (hfree : i.payload.length + bitsOf (cmdParam h) 39 16 * i.pageBytes ≤ freeBrixjo v)
    (hk : k = freeHandle t.obj.images (Config.handleChoice t.obj.handleDraws).toNat (t.obj.images.length + 2)) :
    imageLoadBody h t = okWith (keepImage k (i.payload.length + bitsOf (cmdParam h) 39 16 * i.pageBytes) i p.sig v) k := by
  obtain ⟨rfl, rfl, rfl, hkind, hfresh⟩ := j
  subst hi hk
  simp only [imageLoadBody, hkind, bne_self_eq_false, Bool.false_eq_true, if_false, hfresh, hr, hp, if_neg (Nat.not_lt.mpr hfree),
    evCount_obj]
  rfl

end

/-- A kept image lies under its handle, and of the parts named nothing else differs but the draws and the floor. -/
theorem keepImage_effect (k need : Nat) (i : Image) (sig : Bytes) {t u : State} (hu : u = keepImage k need i sig (evCount 12 2 1 t)) :
    mget u.obj.images k = some i ∧ (∀ j, j ≠ k → mget u.obj.images j = mget t.obj.images j) ∧
      u.obj.handleDraws = t.obj.handleDraws + 1 ∧ u.sec = (raiseFloor 3 sig t).sec ∧ u.gen = t.gen ∧ u.sched = t.sched ∧
      u.hif.hostMem = t.hif.hostMem := by
  have hroom := (makeRoom_besideRoom (evCount 12 2 1 t) need).trans (evCount_sendsOnly t 12 2 1).besideRoom_eq
  simp only [besideRoom, Prod.mk.injEq] at hroom
  obtain ⟨himages, hdraws, hsec, hgen, hsched, hmem⟩ := hroom
  rw [keepImage, raiseFloor_only] at hu
  subst hu
  exact ⟨mget_mset_same _ _ _, fun j hj => (mget_mset_other _ _ _ _ hj).trans (congrArg (mget · j) himages),
    congrArg (· + 1) hdraws, raiseFloor_sec_congr _ _ _ hsec, hgen, hsched, hmem⟩

/-! ### Values of a map -/

theorem mem_of_mget {α : Type} {m : Map α} {k : Nat} {v : α} (h : mget m k = some v) : (k, v) ∈ m := by
  induction m with
  | nil => simp [mget] at h
  | cons e m ih =>
    simp only [mget] at h
    split at h
    next hk =>
      obtain rfl := Option.some.inj h
      exact hk ▸ List.mem_cons_self
    next => exact List.mem_cons_of_mem _ (ih h)

theorem ne_of_mem_merase {α : Type} {m : Map α} {k : Nat} {e : Nat × α} (h : e ∈ merase m k) : e.1 ≠ k := by
  induction m with
  | nil => simp [merase] at h
  | cons x m ih =>
    simp only [merase] at h
    split at h
    next => exact ih h
    next hk =>
      rcases List.mem_cons.mp h with rfl | h
      · exact fun he => hk he.symm
      · exact ih h

/-- A stored value is the only one under its number. -/
theorem eq_of_mem_mset {α : Type} {m : Map α} {k : Nat} {v w : α} (h : (k, w) ∈ mset m k v) : w = v := by
  rcases mem_mput h with h | h
  · exact (Prod.mk.inj h).2
  · exact absurd rfl (ne_of_mem_merase h)

theorem mem_mupd {α : Type} {m : Map α} {k : Nat} {f : α → α} {e : Nat × α} (h : e ∈ mupd m k f) :
    e ∈ m ∨ ∃ v, (k, v) ∈ m ∧ e = (k, f v) := by
  unfold mupd at h
  split at h
  · exact .inl h
  next v hv => exact (mem_mset h).symm.imp_right fun he => ⟨v, mem_of_mget hv, he⟩

/-! ### Batons of an image (10 R359, R360) -/

/-- Every image listed under a handle takes no new use (05 R146). -/
def UseEnded (k : Nat) (s : State) : Prop := ∀ i, (k, i) ∈ s.obj.images → i.unloaded = true

theorem UseEnded.of_mupd {k n : Nat} {f : Image → Image} {s u : State} (h : UseEnded k s)
    (hf : ∀ i, (f i).unloaded = i.unloaded) (hu : u.obj.images = mupd s.obj.images n f) : UseEnded k u := by
  intro i hi
  rw [hu] at hi
  rcases mem_mupd hi with hi | ⟨x, hx, he⟩
  · exact h i hi
  · obtain ⟨rfl, rfl⟩ := Prod.mk.inj he
    exact (hf x).trans (h x hx)

/-- Batons have been released: nothing but batons, the images and what was freed differs, and an image whose use has ended stays
so. -/
structure Releases (k : Nat) (s u : State) : Prop where
  only : u = { s with obj := u.obj, gen := { s.gen with batons := u.gen.batons }, boot := { s.boot with freed := u.boot.freed } }
  ended : UseEnded k s → UseEnded k u

theorem Releases.refl (k : Nat) (s : State) : Releases k s s := ⟨rfl, id⟩

theorem Releases.trans {k : Nat} {s t u : State} (h : Releases k s t) (j : Releases k t u) : Releases k s u := by
  refine ⟨?_, j.ended ∘ h.ended⟩
  have hu := j.only
  rw [h.only] at hu
  exact hu

/-- An image whose pool has taken pages back: what they held is gone (10 R384). -/
def takeBack (ps : List Nat) (i : Image) : Image :=
  { i with freePages := ps.foldl (fun l p => insertNum p l) i.freePages, kv := i.kv.filter fun k => !ps.contains k.1 }

section
variable (s : State)

/-- Pages that return to a pool touch the pool and what was freed (00 R776). -/
theorem returnPages_only (n : Nat) (ps : List Nat) : ∃ l, returnPages n ps s =
    { s with obj := { s.obj with images := mupd s.obj.images n (takeBack ps) }, boot := { s.boot with freed := l } } := by
  refine foldS_inv (fun u => ∃ l, u =
    { s with obj := { s.obj with images := mupd s.obj.images n (takeBack ps) }, boot := { s.boot with freed := l } }) _ _ _ ?_ ⟨_, rfl⟩
  rintro u p ⟨l, rfl⟩
  exact ⟨_, rfl⟩

theorem returnPages_releases (k n : Nat) (ps : List Nat) : Releases k s (returnPages n ps s) := by
  obtain ⟨l, hu⟩ := returnPages_only s n ps
  rw [hu]
  exact ⟨rfl, fun h => h.of_mupd (f := takeBack ps) (fun _ => rfl) rfl⟩

theorem dropBaton_releases (k b : Nat) : Releases k s (dropBaton b s) := by
  unfold dropBaton
  split
  · exact .refl k s
  · split
    · exact .refl k s
    · refine Releases.trans ?_ (returnPages_releases _ k _ _)
      exact ⟨rfl, id⟩

theorem releaseBaton_releases (k b : Nat) : Releases k s (releaseBaton b s) := by
  refine Releases.trans ?_ (dropBaton_releases _ k b)
  exact ⟨rfl, id⟩

theorem releaseBatons_releases (k : Nat) (p : Baton → Bool) : Releases k s (releaseBatons p s) :=
  foldS_inv (Releases k s) _ _ _ (fun t b h => h.trans (releaseBaton_releases t k b)) (.refl k s)

/-- A dropped baton is gone; the others stay. -/
theorem dropBaton_batons (b : Nat) : (dropBaton b s).gen.batons = s.gen.batons ∨ (dropBaton b s).gen.batons = merase s.gen.batons b := by
  unfold dropBaton
  split
  · exact .inl rfl
  · split
    · exact .inl rfl
    · exact .inr (congrArg Gen.batons (returnPages_gen _ _ _))

end

/-- A baton found after one is released is that one, no longer live, or another as it was before (10 R359). -/
theorem baton_of_releaseBaton {b n : Nat} {z : Baton} {s : State} (hz : mget (releaseBaton b s).gen.batons n = some z) :
    z.live = false ∨ n ≠ b ∧ mget s.gen.batons n = some z := by
  have hmarked : mget (mupd s.gen.batons b fun y => { y with live := false }) n = some z := by
    rcases dropBaton_batons (modGen (fun g => { g with batons := mupd g.batons b fun y => { y with live := false } }) s) b with h | h
    · exact (congrArg (mget · n) h).symm.trans hz
    · rw [releaseBaton, h, mget_merase] at hz
      split at hz
      · cases hz
      · exact hz
  rw [mget_mupd] at hmarked
  split at hmarked
  · obtain ⟨y, -, rfl⟩ := Option.map_eq_some_iff.mp hmarked
    exact .inl rfl
  next hn => exact .inr ⟨hn, hmarked⟩

/-- A baton under a handle that passes a test is not live. -/
def Released (p : Baton → Bool) (b : Nat) (s : State) : Prop :=
  ∀ z, mget s.gen.batons b = some z → p z = true → z.live = false

theorem Released.after_release {p : Baton → Bool} {b : Nat} {s : State} (h : Released p b s) (n : Nat) :
    Released p b (releaseBaton n s) := by
  intro z hz hp
  rcases baton_of_releaseBaton hz with hlive | ⟨-, hz⟩
  · exact hlive
  · exact h z hz hp

theorem releaseBaton_released (p : Baton → Bool) (b : Nat) (s : State) : Released p b (releaseBaton b s) := by
  intro z hz _
  rcases baton_of_releaseBaton hz with hlive | ⟨hb, -⟩
  · exact hlive
  · exact absurd rfl hb

/-- After a release of every live baton that passes a test, none that passes it is live. -/
theorem releaseBatons_released (p : Baton → Bool) (b : Nat) (s : State) : Released p b (releaseBatons p s) := by
  by_cases hb : b ∈ (s.gen.batons.filter fun x => x.2.live && p x.2).map Prod.fst
  · exact foldS_forall (fun t n => releaseBaton_released p n t) (fun t n m h => h.after_release n) _ s b hb
  · refine foldS_inv (Released p b) _ _ _ (fun t n h => h.after_release n) fun z hz hp => ?_
    refine Bool.eq_false_iff.mpr fun hlive => hb ?_
    exact List.mem_map_of_mem (f := Prod.fst) (List.mem_filter.mpr ⟨mem_of_mget hz, Bool.and_eq_true_iff.mpr ⟨hlive, hp⟩⟩)

/-! ### IMAGE_UNLOAD (05 R146; 10 R359) -/

theorem exec_imageUnload {h : HostCmd} {s t : State} {f : Fetched} (ht : Taken 0x23 h s f t) :
    exec (.imageUnload h) s = .next (finishReply h f (imageUnloadBody h t)) :=
  congrArg _ (runCmd_taken ht fun _ => imageUnloadBody h)

/-- An image marked as unloaded: it takes no new use (05 R146). -/
def markUnloaded (k : Nat) (s : State) : State :=
  modObj (fun x => { x with images := mupd x.images k fun y => { y with unloaded := true } }) s

theorem markUnloaded_ended {k : Nat} {i : Image} {s : State} (hi : mget s.obj.images k = some i) :
    UseEnded k (markUnloaded k s) := by
  intro y hy
  simp only [markUnloaded, modObj, mupd, hi] at hy
  rw [eq_of_mem_mset hy]

/-- An unload of an image that no loaded profile names marks it, releases its batons and drops what nothing uses (05 R146). -/
theorem imageUnloadBody_unloads {h : HostCmd} {k : Nat} {i : Image} {t : State} (hk : k = cmdParam h % 2 ^ 32)
    (hi : mget t.obj.images k = some i) (hloaded : i.unloaded = false)
    (hfree : ∀ p, p ∈ loadedProfiles t → p.encoder ≠ k ∧ p.reranker ≠ k ∧ p.generator ≠ k ∧ p.draft ≠ k) :
    imageUnloadBody h t = okWith (releaseUnused (releaseBatons (fun b => b.image == k) (markUnloaded k t))) := by
  have hnamed : ((loadedProfiles t).any fun p => p.encoder == k || p.reranker == k || p.generator == k || p.draft == k) = false := by
    refine List.any_eq_false.mpr fun p hp => ?_
    obtain ⟨hencoder, hreranker, hgenerator, hdraft⟩ := hfree p hp
    simp [hencoder, hreranker, hgenerator, hdraft]
  subst hk
  simp only [imageUnloadBody, hi, hloaded, Bool.false_eq_true, if_false, hnamed]
  rfl

/-- What nothing uses any more is dropped: no image comes to be listed by it. -/
theorem mem_releaseUnused_images {s : State} {e : Nat × Image} (h : e ∈ (releaseUnused s).obj.images) : e ∈ s.obj.images := by
  simp only [releaseUnused, whenS] at h
  split at h <;> exact (List.mem_filter.mp h).1

/-- An unloaded image takes no new use, its batons are released, and no request is touched. -/
theorem unloaded_effect {k : Nat} {i : Image} {t u : State} (hi : mget t.obj.images k = some i)
    (hu : u = releaseUnused (releaseBatons (fun b => b.image == k) (markUnloaded k t))) :
    (∀ y, mget u.obj.images k = some y → y.unloaded = true) ∧
      (∀ b z, mget u.gen.batons b = some z → z.image = k → z.live = false) ∧ u.gen.entries = t.gen.entries ∧
      u = { t with obj := u.obj, gen := u.gen, flash := u.flash, boot := { t.boot with freed := u.boot.freed } } := by
  obtain ⟨honly, hended⟩ := releaseBatons_releases (markUnloaded k t) k fun b => b.image == k
  have hreleased := fun b => releaseBatons_released (fun y => y.image == k) b (markUnloaded k t)
  have himages : ∀ y, (k, y) ∈ u.obj.images → y.unloaded = true :=
    fun y hy => hended (markUnloaded_ended hi) y (mem_releaseUnused_images (hu ▸ hy))
  generalize releaseBatons (fun b => b.image == k) (markUnloaded k t) = v at *
  obtain ⟨o, x, hdropped⟩ := releaseUnused_only v
  rw [hdropped, honly] at hu
  refine ⟨fun y hy => himages y (mem_of_mget hy), fun b z hz hk => ?_, ?_, ?_⟩
  · rw [hu] at hz
    exact hreleased b z hz (beq_iff_eq.mpr hk)
  · rw [hu]
    rfl
  · rw [hu]
    rfl

/-! ### Loads and unloads -/

/-- Settles O19: each load takes the branch that its bytes, the loaded images and the room decide, and an unload marks its image and
releases its batons. -/
theorem imageCommands : Obligations.image_commands := by
  unfold Obligations.image_commands
  refine ⟨?_, ?_, ?_, ?_, ?_, ?_⟩
  · intro h s t f ht hkind
    rw [exec_imageLoad ht, imageLoadBody_malformed hkind]
    rfl
  · intro h k s t f ht hkind hsame
    rw [exec_imageLoad ht, imageLoadBody_loaded hkind hsame]
    rfl
  · intro h o owner r s t v f ht ho howner hv hkind hfresh hr
    rw [exec_imageLoad ht, LoadJudged.body_invalid ⟨ho, howner, hv, hkind, hfresh⟩ hr]
    rfl
  · intro h o owner p i k s t v f ht ho howner hv hkind hfresh hr hp hi hfree hk
    rw [exec_imageLoad ht, LoadJudged.body_kept ⟨ho, howner, hv, hkind, hfresh⟩ hr hp hi hfree hk, hv]
    exact ⟨_, rfl, keepImage_effect _ _ _ _ rfl⟩
  · intro h o owner p i s t v f ht ho howner hv hkind hfresh hr hp hi hfree
    rw [exec_imageLoad ht, LoadJudged.body_unplaced ⟨ho, howner, hv, hkind, hfresh⟩ hr hp hi hfree, finishReply_deny]
  · intro h i s t f ht hi hloaded hfree
    rw [exec_imageUnload ht, imageUnloadBody_unloads rfl hi hloaded hfree]
    exact ⟨_, rfl, unloaded_effect hi rfl⟩

end Sys2Proof.Machine
end

section
/-! PROOFS. Collections and filters: what a change of a collection with its hub writes leaves as it was, and what each command brings
about (07 R224, R225, R256 to R261; 12 R470; 13 R486). -/

namespace Sys2Proof.Machine

/-- A body that succeeds completes its command with its result. -/
theorem finishReply_okWith (h : HostCmd) (f : Fetched) (t : State) (r : Nat) :
    finishReply h f (okWith t r) = cplCmd h f { tag := 0, status := Status.ok, result := r } t := rfl

/-! ### A collection's change and the writes it makes (13 R486) -/

theorem FlashWork.refl (s : State) : FlashWork s s := ⟨rfl, rfl, rfl⟩

theorem FlashWork.trans {s t u : State} (h : FlashWork s t) (k : FlashWork t u) : FlashWork s u := by
  obtain ⟨honly, hmem, hqps⟩ := h
  obtain ⟨konly, kmem, kqps⟩ := k
  refine ⟨?_, kmem.trans hmem, kqps.trans hqps⟩
  rw [honly] at konly
  exact konly

theorem acceptWrites_flashWork (l : List UnitWrite) (s : State) : FlashWork s (acceptWrites l s) :=
  ⟨by apply state_ext <;> simp, acceptWrites_hif_hostMem l s, acceptWrites_hif_qps l s⟩

section
variable {k : Nat} {c : Collection} {s t : State}

theorem CollChanged.acceptWrites (h : CollChanged k c s t) (l : List UnitWrite) : CollChanged k c s (acceptWrites l t) := by
  obtain ⟨hsame, hothers, hwork⟩ := h
  unfold CollChanged
  rw [acceptWrites_obj]
  exact ⟨hsame, hothers, hwork.trans (acceptWrites_flashWork l t)⟩

theorem storeColl_collChanged (k : Nat) (c : Collection) (s : State) :
    CollChanged k c s (modObj (fun o => { o with collections := mset o.collections k c }) s) :=
  ⟨mget_mset_same _ _ _, fun _ hj => mget_mset_other _ _ _ _ hj, FlashWork.refl _⟩

variable (hc : mget s.obj.collections k = some c) (f : Collection → Collection)
include hc

theorem modColl_eq_store : modColl k f s = modObj (fun o => { o with collections := mset o.collections k (f c) }) s := by
  simp [modColl, modObj, mupd, hc]

/-- A collection at hand takes its new form, and nothing else differs. -/
theorem modColl_effect {u : State} (hu : u = modColl k f s) :
    mget u.obj.collections k = some (f c) ∧ (∀ j, j ≠ k → mget u.obj.collections j = mget s.obj.collections j) ∧
      u = { s with obj := { s.obj with collections := u.obj.collections } } := by
  rw [modColl_eq_store hc] at hu
  subst hu
  exact ⟨mget_mset_same _ _ _, fun _ hj => mget_mset_other _ _ _ _ hj, rfl⟩

theorem modColl_collChanged : CollChanged k (f c) s (modColl k f s) := by
  rw [modColl_eq_store hc]
  exact storeColl_collChanged _ _ _

theorem writeColl_collChanged : CollChanged k (f c) s (writeColl k f s) := by
  simp only [writeColl, hc]
  exact (modColl_collChanged hc f).acceptWrites _

end

/-! ### COLLECTION_CREATE and COLLECTION_DELETE (07 R224, R225) -/

/-- What a creation writes: the rotation, the codebooks and the centroids (13 R486). -/
def creationWrites (c : Collection) : List UnitWrite :=
  rangeWrites c.regionMap 6 c.desc.idBase 0 0 (2 * (c.rotation.length + c.codebooks.length + c.centroids.length * c.desc.dim))

section
variable {h : HostCmd} {c : Collection} {s t : State} {f : Fetched}

theorem exec_collectionCreate_refused (ht : Taken 0x28 h s f t) (hro : eitherRo t = false)
    (hbad : parseCollection (cmdBody h (cmdLen0 h)) = none ∨ ∃ c, parseCollection (cmdBody h (cmdLen0 h)) = some c ∧
      collAdmitted t (rd (cmdBody h (cmdLen0 h)) 0 4) c = false) :
    exec (.collectionCreate h) s = .next (cplStatus h f Status.collectionInvalid 0 t) := by
  refine (congrArg Host.Outcome.next (runCmd_taken ht _)).trans ?_
  rcases hbad with hnone | ⟨c, hsome, hout⟩
  · simp only [hro, hnone, Bool.false_eq_true, if_false, finishReply_deny]
  · simp only [hro, hsome, hout, Bool.false_eq_true, if_false, finishReply_deny]

/-- A created collection is kept under its ID, and what it comes with is written (07 R224). -/
theorem exec_collectionCreate_creates (ht : Taken 0x28 h s f t) (hro : eitherRo t = false)
    (hc : parseCollection (cmdBody h (cmdLen0 h)) = some c) (hin : collAdmitted t (rd (cmdBody h (cmdLen0 h)) 0 4) c = true) :
    exec (.collectionCreate h) s = .next (cplStatus h f Status.ok 0 (fitLeases (acceptWrites (creationWrites c)
      (modObj (fun o => { o with collections := mset o.collections (rd (cmdBody h (cmdLen0 h)) 0 4) c }) t)))) := by
  refine (congrArg Host.Outcome.next (runCmd_taken ht _)).trans ?_
  simp only [hro, hc, hin, Bool.false_eq_true, if_false, if_true, finishReply_okWith]
  rfl

theorem exec_collectionDelete_deletes (ht : Taken 0x29 h s f t) (hro : eitherRo t = false)
    (hc : mget t.obj.collections (cmdAux h) = some c) (hsession : c.session = none)
    (hfree : ∀ p, p ∈ loadedProfiles t → modeSearches p.mode = false ∨ p.collection ≠ cmdAux h) :
    exec (.collectionDelete h) s = .next (cplStatus h f Status.ok 0 (removeColl (cmdAux h) c t)) := by
  have hnamed : ((loadedProfiles t).any fun p => modeSearches p.mode && p.collection == cmdAux h) = false := by
    refine List.any_eq_false.mpr fun p hp => ?_
    rcases hfree p hp with hmode | hother
    · simp [hmode]
    · simp [hother]
  refine (congrArg Host.Outcome.next (runCmd_taken ht _)).trans ?_
  simp only [hro, hc, hnamed, hsession, Option.isSome_none, Bool.false_eq_true, if_false, finishReply_okWith]
  rfl

end

/-- The key under which a deleted collection is kept is not its ID (assumption 20). -/
theorem lt_deadKey (id : Nat) (c : Collection) : id < deadKey id c := by
  unfold deadKey
  omega

/-- What nothing uses any more is dropped: no collection comes to be listed by it. -/
theorem mem_releaseUnused_collections {s : State} {e : Nat × Collection} (h : e ∈ (releaseUnused s).obj.collections) :
    e ∈ s.obj.collections := by
  simp only [releaseUnused, whenS] at h
  split at h <;> exact (List.mem_filter.mp h).1

/-- A deleted collection is no longer found under its ID (07 R225). -/
theorem removeColl_effect {id : Nat} {c : Collection} {s u : State} (hu : u = removeColl id c s) :
    mget u.obj.collections id = none ∧
      u.hif = s.hif ∧ u.sched = s.sched ∧ u.mem = s.mem ∧ u.boot = s.boot ∧ u.mgmt = s.mgmt := by
  obtain ⟨v, hv, hcolls, hhif, hsched, hmem, hboot, hmgmt⟩ : ∃ v, removeColl id c s = releaseUnused v ∧
      v.obj.collections = mset (merase s.obj.collections id) (deadKey id c) { c with deleted := true } ∧
      v.hif = s.hif ∧ v.sched = s.sched ∧ v.mem = s.mem ∧ v.boot = s.boot ∧ v.mgmt = s.mgmt :=
    ⟨_, rfl, rfl, rfl, rfl, rfl, rfl, rfl⟩
  rw [hv] at hu
  refine ⟨Option.eq_none_iff_forall_ne_some.mpr fun x hx => ?_, ?_⟩
  · have hlisted := mem_releaseUnused_collections (hu ▸ mem_of_mget hx)
    rw [hcolls] at hlisted
    rcases mem_mset hlisted with hdead | hkept
    · exact Nat.ne_of_lt (lt_deadKey id c) (Prod.mk.inj hdead).1
    · exact ne_of_mem_merase hkept rfl
  · obtain ⟨o, x, hdropped⟩ := releaseUnused_only v
    rw [hu, hdropped]
    exact ⟨hhif, hsched, hmem, hboot, hmgmt⟩

/-! ### Filters (07 R256, R260, R261) -/

/-- A dropped filter is no longer registered under its ID; only the filters differ. -/
theorem dropFilter_effect {id : Nat} {s u : State} (hu : u = dropFilter id s) :
    mget u.obj.filters id = none ∧ (∀ j, j ≠ id → mget u.obj.filters j = mget s.obj.filters j) ∧
      u = { s with obj := { s.obj with filters := u.obj.filters, oldFilters := u.obj.oldFilters } } := by
  subst hu
  unfold dropFilter
  split
  next hnone => exact ⟨hnone, fun _ _ => rfl, rfl⟩
  next => exact ⟨(mget_merase _ _ _).trans (if_pos rfl), fun j hj => (mget_merase _ _ _).trans (if_neg hj), rfl⟩

/-- Register a filter under its ID, in place of the one before (07 R261). -/
def registerFilter (g : Filter) (s : State) : State :=
  modObj (fun o => { o with filters := mset o.filters g.id g, nextFilter := o.nextFilter + 1 }) (dropFilter g.id s)

theorem registerFilter_effect {g : Filter} {s u : State} (hu : u = registerFilter g s) :
    mget u.obj.filters g.id = some g ∧ (∀ j, j ≠ g.id → mget u.obj.filters j = mget s.obj.filters j) ∧
      u.obj.nextFilter = s.obj.nextFilter + 1 ∧ u = { s with obj := { s.obj with
        filters := u.obj.filters, oldFilters := u.obj.oldFilters, nextFilter := u.obj.nextFilter } } := by
  obtain ⟨-, hothers, honly⟩ := dropFilter_effect (id := g.id) (s := s) rfl
  have hnext : (dropFilter g.id s).obj.nextFilter = s.obj.nextFilter := by rw [honly]
  subst hu
  refine ⟨mget_mset_same _ _ _, fun j hj => (mget_mset_other _ _ _ _ hj).trans (hothers j hj), congrArg (· + 1) hnext, ?_⟩
  rw [registerFilter, honly]
  rfl

section
variable {h : HostCmd} {g : Filter} {s t : State} {f : Fetched}

theorem filterRegisterBody_registers {c : Collection} (hmay : mayRegister t h.qp (cmdBody h (cmdLen0 h)) = true)
    (hc : mget t.obj.collections (rd (cmdBody h (cmdLen0 h)) 8 4) = some c)
    (hg : parseFilter (cmdBody h (cmdLen0 h)) c t.obj.nextFilter = some g)
    (hroom : filterUse (dropFilter g.id t) + g.size ≤ 64 * 2 ^ 30) :
    filterRegisterBody h t = okWith (fitLeases (registerFilter g t)) := by
  simp only [filterRegisterBody, hmay, Bool.not_true, Bool.false_eq_true, if_false, hc, Option.bind_some, hg,
    if_neg (Nat.not_lt.mpr hroom)]
  rfl

theorem exec_filterRegister (ht : Taken 0x0A h s f t) :
    exec (.filterRegister h) s = .next (finishReply h f (filterRegisterBody h t)) :=
  congrArg _ (runCmd_taken ht fun _ => filterRegisterBody h)

theorem exec_filterUnregister_drops (ht : Taken 0x0B h s f t) (hg : mget t.obj.filters (cmdAux h % 4096) = some g)
    (hholds : holdsFilter t h.qp g = true) :
    exec (.filterUnregister h) s = .next (cplStatus h f Status.ok 0 (dropFilter (cmdAux h % 4096) t)) := by
  refine (congrArg Host.Outcome.next (runCmd_taken ht _)).trans ?_
  simp only [hg, hholds, if_true, finishReply_okWith]
  rfl

end

/-- Settles O15: each command takes the branch that its object, the module's room and its holder decide, and only the collections or the
filters differ by it, but for hub writes and what nothing uses any more. -/
theorem collectionsAndFilters : Obligations.collections_and_filters := by
  unfold Obligations.collections_and_filters
  refine ⟨?_, ?_, ?_, ?_, ?_⟩
  · intro h s t f ht hro hbad
    exact exec_collectionCreate_refused ht hro hbad
  · intro h c s t f ht hro hc hin
    exact ⟨_, exec_collectionCreate_creates ht hro hc hin, (storeColl_collChanged _ _ _).acceptWrites _⟩
  · intro h c s t f ht hro _ hc hsession hfree
    exact ⟨_, exec_collectionDelete_deletes ht hro hc hsession hfree, removeColl_effect rfl⟩
  · intro h c g s t f ht hmay hc hg hroom
    rw [exec_filterRegister ht, filterRegisterBody_registers hmay hc hg hroom]
    exact ⟨_, rfl, registerFilter_effect rfl⟩
  · intro h g s t f ht hg hholds
    exact ⟨_, exec_filterUnregister_drops ht hg hholds, dropFilter_effect rfl⟩

end Sys2Proof.Machine
end

section
/-! PROOFS. Ingest sessions: what each command of a session brings about, and what a rolled back session leaves visible (07 R248 to
R253). -/

namespace Sys2Proof.Machine

/-! ### The commands of a session (07 R248 to R250) -/

theorem exec_ingestOpen {h : HostCmd} {s t : State} {f : Fetched} (ht : Taken 0x06 h s f t) :
    exec (.ingestOpen h) s = .next (finishReply h f (ingestOpenBody h t)) :=
  congrArg _ (runCmd_taken ht fun _ => ingestOpenBody h)

theorem exec_ingestOp {h : HostCmd} {s t : State} {f : Fetched} (ht : Taken 0x07 h s f t) :
    exec (.ingestOp h) s = .next (finishReply h f (ingestOpBody h f t)) :=
  congrArg _ (runCmd_taken ht (ingestOpBody h))

theorem exec_ingestCommit {h : HostCmd} {s t : State} {f : Fetched} (ht : Taken 0x08 h s f t) :
    exec (.ingestCommit h) s = .next (finishReply h f (ingestCommitBody h f t)) :=
  congrArg _ (runCmd_taken ht (ingestCommitBody h))

theorem exec_ingestAbort {h : HostCmd} {s t : State} {f : Fetched} (ht : Taken 0x09 h s f t) :
    exec (.ingestAbort h) s = .next (finishReply h f (ingestAbortBody h t)) :=
  congrArg _ (runCmd_taken ht fun _ => ingestAbortBody h)

/-- The session that a command may act on is that of its collection. -/
theorem session_of_sessionFor {s : State} {q : Nat} {c : Collection} {x : Session} (h : sessionFor s q c = .ok x) :
    c.session = some x := by
  unfold sessionFor at h
  split at h
  · cases h
  · split at h
    · cases h
    next y hy =>
      split at h
      · exact hy.trans (congrArg some (Except.ok.inj h))
      · cases h

theorem noteSession_of_session {c : Collection} {x : Session} (hx : c.session = some x) (g : Session → Session) :
    noteSession g c = { c with session := some (g x) } := by
  rw [noteSession, hx, Option.map_some]

/-- A session as an open starts it: it takes the next epoch (07 R248). -/
def openedSession (h : HostCmd) (c : Collection) (t : State) : Session :=
  { epoch := c.highest + 1, fn := (qpFn t h.qp).getD 0, account := qpAccount t h.qp, qp := h.qp }

section
variable {h : HostCmd} {f : Fetched} {c : Collection} {x : Session} {t : State}
  (hc : mget t.obj.collections (cmdAux h) = some c)
include hc

theorem ingestOpenBody_opens (hro : eitherRo t = false) (hmay : mayIngest t h.qp c = true) (hsession : c.session = none)
    (hfrozen : c.frozen = false) (hlast : c.highest + 1 < 0xFFFFFFFF) : ingestOpenBody h t = okWith (modColl (cmdAux h)
      (fun y => { y with highest := c.highest + 1, session := some (openedSession h c t) }) t) (c.highest + 1) := by
  simp only [ingestOpenBody, hro, Bool.false_eq_true, if_false, hc, hmay, Bool.not_true, hsession, Option.isSome_none, hfrozen,
    if_neg (Nat.not_le.mpr hlast)]
  rfl

variable (hx : sessionFor t h.qp c = .ok x)
include hx

section
variable (hro : eitherRo t = false)
include hro

/-- An operation fetched after its session was closed is refused (07 R249). -/
theorem ingestOpBody_late (hlate : f.late = true) : ingestOpBody h f t = deny Status.sessionClosed t := by
  simp only [ingestOpBody, hro, Bool.false_eq_true, if_false, hc, hx, hlate, if_true]

theorem ingestCommitBody_waits (hcommit : x.committing = none) : ingestCommitBody h f t =
    { state := modColl (cmdAux h) (noteSession fun y => { y with committing := some (h.qp, cmdTag h, f.sqHead) }) t } := by
  simp only [ingestCommitBody, hro, Bool.false_eq_true, if_false, hc, hx, hcommit, Option.isSome_none]

variable (hlate : f.late = false) (hform : ingestFault c.desc (cmdLen0 h) (cmdBody h (cmdLen0 h)) = none)
include hlate hform

theorem ingestOpBody_deletes (hop : rd (cmdBody h (cmdLen0 h)) 0 1 = 2) : ingestOpBody h f t =
    okWith (writeColl (cmdAux h) (fun y => deleteItem y x.epoch (rd (cmdBody h (cmdLen0 h)) 8 8)) t) := by
  simp only [ingestOpBody, hro, Bool.false_eq_true, if_false, hc, hx, hlate, hform, if_pos hop]

theorem ingestOpBody_inserts (hop : rd (cmdBody h (cmdLen0 h)) 0 1 ≠ 2)
    (htext : rd (cmdBody h (cmdLen0 h)) 4 4 ≤ c.desc.textMax) (hroom : c.nextId < c.desc.idBase + c.desc.idSpan) :
    ingestOpBody h f t = okWith (writeColl (cmdAux h)
      (fun y => noteSession (fun z => { z with inserted := insertNum c.nextId z.inserted })
        (insertItem y x.epoch (cmdBody h (cmdLen0 h)))) t) c.nextId := by
  simp only [ingestOpBody, hro, Bool.false_eq_true, if_false, hc, hx, hlate, hform, if_neg hop, if_neg (Nat.not_lt.mpr htext),
    if_neg (Nat.not_le.mpr hroom)]

end

theorem ingestAbortBody_aborts : ingestAbortBody h t = okWith (abortSession (cmdAux h) Status.cancelled true t) := by
  simp only [ingestAbortBody, hc, hx]

end

/-- Of a session's collection, a deletion changes the item, which leaves the session's view, and the session, which lists it (07
R250). -/
theorem deleteItem_visible {c d : Collection} {x : Session} {i : Item} {n : Nat} (hx : c.session = some x)
    (hi : mget c.items n = some i) (hvisible : i.visible c.epoch = true) (hd : d = deleteItem c x.epoch n) :
    mget d.items n = some { i with deleteEpoch := x.epoch } ∧ (∀ j, j ≠ n → mget d.items j = mget c.items j) ∧
      d = { c with items := d.items, session := some { x with deleted := insertNum n x.deleted } } := by
  simp only [deleteItem, hi, hvisible, Bool.true_or, if_true, noteSession, hx, Option.map_some] at hd
  subst hd
  exact ⟨mget_mset_same _ _ _, fun j hj => mget_mset_other _ _ _ _ hj, rfl⟩

/-! ### The end of a session (07 R251 to R253) -/

theorem exec_commitDurable_publishes {coll : Nat} {c : Collection} {x : Session} {w : Nat × Nat × Nat} {s : State}
    (hc : mget s.obj.collections coll = some c) (hx : c.session = some x) (hw : x.committing = some w)
    (hro : eitherRo s = false) (hrun : s.flash.stopped = false) :
    exec (.commitDurable coll) s = .next (complete w.1 { tag := w.2.1, status := Status.ok, sqHead := w.2.2 }
      (acceptWrites (logWrites c x.epoch) (modColl coll (publish x.epoch) s))) := by
  change execCommitDurable coll s = _
  simp only [execCommitDurable, hc, Option.bind_some, hx, Option.map_some, hw, hro, hrun, Bool.or_self, Bool.false_eq_true,
    if_false]

/-- A collection after its session has been rolled back and ended (07 R252). -/
def aborted (e : Nat) (c : Collection) : Collection := { rollback e c with session := none, lastCommitted := false }

theorem abortSession_collChanged {id : Nat} {c : Collection} {x : Session} {s : State} (status : Nat)
    (hc : mget s.obj.collections id = some c) (hx : c.session = some x) (hw : x.committing = none) :
    CollChanged id (aborted x.epoch c) s (abortSession id status true s) := by
  simp only [abortSession, hc, hx, hw, whenS, if_true]
  exact (writeColl_collChanged hc fun _ => aborted x.epoch c).acceptWrites _

/-! ### What a rollback leaves visible (07 R250, R252) -/

/-- An item after the rollback of an epoch. -/
def Item.rolledBack (e : Nat) (i : Item) : Item :=
  if i.insertEpoch = e then { i with deleteEpoch := e }
  else if i.deleteEpoch = e then { i with deleteEpoch := 0xFFFFFFFF } else i

theorem mget_rollback_items (e n : Nat) (c : Collection) :
    mget (rollback e c).items n = (mget c.items n).map (Item.rolledBack e) :=
  mget_mmap c.items (fun _ => Item.rolledBack e) n

section
variable {e : Nat} {i : Item}

/-- What the epoch inserted is visible at no epoch. -/
theorem rolledBack_visible_of_inserted (hins : i.insertEpoch = e) (q : Nat) : (i.rolledBack e).visible q = false := by
  rw [Item.rolledBack, if_pos hins]
  simp only [Item.visible, hins, Bool.and_eq_false_iff, decide_eq_false_iff_not]
  omega

/-- What the epoch deleted is visible again from its own epoch on. -/
theorem rolledBack_visible_of_deleted (hins : i.insertEpoch ≠ e) (hdel : i.deleteEpoch = e) {q : Nat} (hq : q < 0xFFFFFFFF) :
    (i.rolledBack e).visible q = decide (i.insertEpoch ≤ q) := by
  rw [Item.rolledBack, if_neg hins, if_pos hdel]
  simp only [Item.visible, hq, decide_true, Bool.and_true]

theorem rolledBack_of_untouched (hins : i.insertEpoch ≠ e) (hdel : i.deleteEpoch ≠ e) : i.rolledBack e = i := by
  rw [Item.rolledBack, if_neg hins, if_neg hdel]

end

/-- Settles O16: each command changes its collection and no other part but what the hubs write, and a rollback is judged item by item
by the epochs that inserted and deleted it. -/
theorem ingestAndRollback : Obligations.ingest_and_rollback := by
  unfold Obligations.ingest_and_rollback
  refine ⟨?_, ?_, ?_, ?_, ?_, ?_, ?_, ?_⟩
  · intro h c s t f ht hro hc hmay hsession hfrozen hlast
    rw [exec_ingestOpen ht, ingestOpenBody_opens hc hro hmay hsession hfrozen hlast]
    exact ⟨_, rfl, modColl_effect hc _ rfl⟩
  · intro h c x i s t f ht hro hc hx hlate hform hop hi hvisible
    rw [exec_ingestOp ht, ingestOpBody_deletes hc hx hro hlate hform hop]
    exact ⟨_, _, rfl, writeColl_collChanged hc _, deleteItem_visible (session_of_sessionFor hx) hi hvisible rfl⟩
  · intro h c x s t f ht hro hc hx hlate hform hop htext hroom
    rw [exec_ingestOp ht, ingestOpBody_inserts hc hx hro hlate hform hop htext hroom]
    exact ⟨_, rfl, writeColl_collChanged hc _⟩
  · intro h c x s t f ht hro hc hx hlate
    rw [exec_ingestOp ht, ingestOpBody_late hc hx hro hlate, finishReply_deny]
  · intro h c x s t f ht hro hc hx hcommit
    rw [exec_ingestCommit ht, ingestCommitBody_waits hc hx hro hcommit]
    refine ⟨_, rfl, ?_⟩
    rw [← noteSession_of_session (session_of_sessionFor hx) fun y => { y with committing := some (h.qp, cmdTag h, f.sqHead) }]
    exact modColl_effect hc _ rfl
  · intro coll c x w s hc hx hw hro hrun
    exact ⟨_, _, exec_commitDurable_publishes hc hx hw hro hrun, (modColl_collChanged hc _).acceptWrites _, rfl, rfl, rfl, rfl,
      mget_mset_same _ _ _⟩
  · intro h c x s t f ht hc hx hcommit
    rw [exec_ingestAbort ht, ingestAbortBody_aborts hc hx]
    exact ⟨_, rfl, abortSession_collChanged _ hc (session_of_sessionFor hx) hcommit⟩
  · intro e n c i hi
    refine ⟨i.rolledBack e, ?_, rolledBack_visible_of_inserted, fun hins hdel _ => rolledBack_visible_of_deleted hins hdel,
      rolledBack_of_untouched⟩
    rw [mget_rollback_items, hi, Option.map_some]

end Sys2Proof.Machine
end

section
/-! PROOFS. Walks: what an engine that serves its inbox leaves of the walks, and what a start, a hop and a relay's arrival bring
about (08 R272 to R289). -/

namespace Sys2Proof.Machine

/-! ### Members of a sorted list -/

theorem mem_insertBy {α : Type} {lt : α → α → Bool} {x y : α} {l : List α} (h : y ∈ insertBy lt x l) : y = x ∨ y ∈ l := by
  induction l with
  | nil => simpa [insertBy] using h
  | cons a l ih =>
    unfold insertBy at h
    split at h
    · simpa using h
    · rcases List.mem_cons.mp h with rfl | h
      · exact .inr List.mem_cons_self
      · exact (ih h).imp_right (List.mem_cons_of_mem _)

theorem mem_of_mem_sortBy {α : Type} {lt : α → α → Bool} {y : α} {l : List α} (h : y ∈ sortBy lt l) : y ∈ l := by
  induction l with
  | nil => simp [sortBy] at h
  | cons a l ih =>
    rcases mem_insertBy h with rfl | h
    · exact List.mem_cons_self
    · exact List.mem_cons_of_mem _ (ih h)

/-! ### Searches and what works for them -/

section
variable {e : Nat} {s t u : State}

theorem workOf_congr (hgen : u.gen = s.gen) (hshard : u.search.shardWork = s.search.shardWork) (e : Nat) :
    workOf u e = workOf s e := by
  simp only [workOf, entryOf, hgen, hshard]

/-- A changed search work reads as changed. -/
theorem workOf_modSw {w : SearchWork} (f : SearchWork → SearchWork) (h : workOf s e = some w) :
    workOf (modSw e f s) e = some (f w) := by
  unfold workOf at h ⊢
  unfold modSw
  split at h
  next he =>
    obtain ⟨x, hx, rfl⟩ := Option.map_eq_some_iff.mp h
    rw [if_pos he, if_pos he]
    exact congrArg (Option.map _) (mget_modEntry_same _ hx)
  next he => simp [he, mget_mupd, h]

/-- A change of a search work touches the request table or the shard queries alone. -/
theorem modSw_only (e : Nat) (f : SearchWork → SearchWork) (s : State) :
    ∃ g q, modSw e f s = { s with gen := g, search := { s.search with shardWork := q } } := by
  unfold modSw
  split <;> exact ⟨_, _, rfl⟩

variable (e s) (c : Counters)

@[simp] theorem chargeSearch_search : (chargeSearch e c s).search = s.search := by
  unfold chargeSearch
  split
  · simp
  · split <;> simp

@[simp] theorem chargeSearch_flash : (chargeSearch e c s).flash = s.flash := by
  unfold chargeSearch
  split
  · simp
  · split <;> simp

@[simp] theorem chargeSearch_hif : (chargeSearch e c s).hif = s.hif := by
  unfold chargeSearch
  split
  · simp
  · split <;> simp

end

/-! ### What an engine serves (08 R280, R287, R289) -/

/-- Walks have ended or entered contexts: nothing but the walks, their end reports, the bytes on the wire and what is counted
differs, and no end report is lost. -/
structure WalksServed (s u : State) : Prop where
  only : SearchOnly s u
  search : u.search = { s.search with
    walks := u.search.walks, endsOut := u.search.endsOut, wire := u.search.wire, unreach := u.search.unreach }
  hostMem : u.hif.hostMem = s.hif.hostMem
  reports : ∀ m ∈ s.search.endsOut, m ∈ u.search.endsOut

section
variable {g k : Nat} {s t u : State}

theorem SearchOnly.trans (h : SearchOnly s t) (i : SearchOnly t u) : SearchOnly s u := by
  unfold SearchOnly at h i
  rw [h] at i
  exact i

theorem WalksServed.refl (s : State) : WalksServed s s := ⟨rfl, rfl, rfl, fun _ => id⟩

theorem WalksServed.trans (h : WalksServed s t) (i : WalksServed t u) : WalksServed s u where
  only := h.only.trans i.only
  search := by
    have hu := i.search
    rw [h.search] at hu
    exact hu
  hostMem := i.hostMem.trans h.hostMem
  reports m hm := i.reports m (h.reports m hm)

theorem dropWalk_walksServed (k : Nat) (w : Walk) (src reason : Nat) (s : State) :
    WalksServed s (dropWalk k w src reason s) where
  only := by unfold SearchOnly; apply state_ext <;> simp [dropWalk]
  search := by simp [dropWalk]
  hostMem := by simp [dropWalk]
  reports m hm := by simp [dropWalk, hm]

theorem mget_dropWalk (k j : Nat) (w : Walk) (src reason : Nat) (s : State) :
    mget (dropWalk k w src reason s).search.walks j = if j = k then none else mget s.search.walks j := by
  simp [dropWalk, mget_merase]

theorem report_of_dropWalk (k : Nat) (w : Walk) (src reason : Nat) (s : State) :
    endReportOf w src reason ∈ (dropWalk k w src reason s).search.endsOut := by
  simp [dropWalk]

/-- A walk enters a context. -/
def enterContext (k : Nat) (w : Walk) (s : State) : State :=
  modSearch (fun r => { r with walks := mset r.walks k { w with place := some true } }) s

theorem enterContext_walksServed (k : Nat) (w : Walk) (s : State) : WalksServed s (enterContext k w s) :=
  ⟨rfl, rfl, rfl, fun _ => id⟩

theorem mget_enterContext (k j : Nat) (w : Walk) (s : State) : mget (enterContext k w s).search.walks j =
    if j = k then some { w with place := some true } else mget s.search.walks j := mget_mset _ _ _ _

/-- The oldest message of an inbox is a walk that waits in it. -/
theorem oldestInbox_waits (h : oldestInbox s g = some k) :
    ∃ w, (k, w) ∈ s.search.walks ∧ w.engine = g ∧ w.place = some false := by
  obtain ⟨⟨j, w⟩, hj, rfl⟩ := Option.map_eq_some_iff.mp h
  have hw := List.mem_filter.mp (mem_of_mem_sortBy (List.mem_of_head? hj))
  exact ⟨w, hw.1, by simpa using hw.2⟩

/-- A walk is the oldest that waits for an engine. -/
def NextIn (g k : Nat) (w : Walk) (s : State) : Prop := oldestInbox s g = some k ∧ mget s.search.walks k = some w

/-- What holds and is kept as the oldest walk of an inbox ends, killed, or enters a context, holds after the engine has served its
inbox. -/
theorem serveInbox_induct {P : State → Prop} (hkilled : ∀ t k w, P t → NextIn g k w t → t.search.killed.contains w.tag = true →
    P (dropWalk k w g 4 t)) (henters : ∀ t k w, P t → NextIn g k w t → P (enterContext k w t)) (hs : P s) :
    P (serveInbox g s) := by
  have htake : ∀ n t, P t → P (takeInbox g n t) := by
    intro n
    induction n with
    | zero => exact fun t ht => ht
    | succ n ih =>
      intro t ht
      unfold takeInbox
      split
      · exact ht
      · split
        next => exact ht
        next k hk =>
          split
          next => exact ht
          next w hw =>
            split
            next hdead => exact ih _ (hkilled t k w ht ⟨hk, hw⟩ hdead)
            next => exact ih _ (henters t k w ht ⟨hk, hw⟩)
  exact htake _ s hs

theorem serveInbox_walksServed (g : Nat) (s : State) : WalksServed s (serveInbox g s) :=
  serveInbox_induct (fun _ _ _ h _ _ => h.trans (dropWalk_walksServed _ _ _ _ _))
    (fun _ _ _ h _ => h.trans (enterContext_walksServed _ _ _)) (.refl s)

/-- A walk that is gone stays gone. -/
theorem serveInbox_gone (h : mget s.search.walks k = none) : mget (serveInbox g s).search.walks k = none := by
  refine serveInbox_induct (P := fun t => mget t.search.walks k = none) (fun t j w ht _ _ => ?_) (fun t j w ht hj => ?_) h
  · rw [mget_dropWalk, ht, ite_self]
  · have hne : k ≠ j := by
      rintro rfl
      exact absurd (ht.symm.trans hj.2) (by simp)
    rw [mget_enterContext, if_neg hne, ht]

/-- A walk travels in a message. -/
def Travels (k : Nat) (y : Walk) (s : State) : Prop :=
  mget s.search.walks k = some y ∧ ∀ v, (k, v) ∈ s.search.walks → v.place = none

/-- No engine takes a walk that travels in a message. -/
theorem Travels.serveInbox {y : Walk} (h : Travels k y s) (g : Nat) : Travels k y (serveInbox g s) := by
  have hne : ∀ {t j w}, Travels k y t → NextIn g j w t → k ≠ j := by
    rintro t j w ⟨-, honly⟩ ⟨hold, -⟩ rfl
    obtain ⟨v, hv, -, hplace⟩ := oldestInbox_waits hold
    exact absurd ((honly v hv).symm.trans hplace) (by simp)
  refine serveInbox_induct (fun t j w ht hj _ => ⟨?_, fun v hv => ?_⟩) (fun t j w ht hj => ⟨?_, fun v hv => ?_⟩) h
  · rw [mget_dropWalk, if_neg (hne ht hj), ht.1]
  · exact ht.2 v (mem_merase (by simpa [dropWalk] using hv))
  · rw [mget_enterContext, if_neg (hne ht hj), ht.1]
  · rcases mem_mset hv with heq | hv
    · exact absurd (Prod.mk.inj heq).1 (hne ht hj)
    · exact ht.2 v hv

/-- A walk has come to an engine, with its number in the order of arrivals, and its tag is not killed. -/
def HasArrived (k arrival : Nat) (s : State) : Prop :=
  ∃ x, mget s.search.walks k = some x ∧ x.place.isSome = true ∧ x.arrival = arrival ∧ s.search.killed.contains x.tag = false

/-- A walk that has come stays while its tag is not killed. -/
theorem HasArrived.serveInbox {a : Nat} (h : HasArrived k a s) (g : Nat) : HasArrived k a (serveInbox g s) := by
  refine serveInbox_induct (P := HasArrived k a) (fun t j w ht hj hdead => ?_) (fun t j w ht hj => ?_) h
  · obtain ⟨x, hx, hplace, harr, hlive⟩ := ht
    have hne : k ≠ j := by
      rintro rfl
      obtain rfl : x = w := Option.some.inj (hx.symm.trans hj.2)
      exact absurd (hdead.symm.trans hlive) (by simp)
    refine ⟨x, by rw [mget_dropWalk, if_neg hne, hx], hplace, harr, ?_⟩
    rw [(dropWalk_walksServed j w g 4 t).search]
    exact hlive
  · obtain ⟨x, hx, hplace, harr, hlive⟩ := ht
    by_cases hk : k = j
    · obtain rfl : w = x := Option.some.inj (hj.2.symm.trans (hk ▸ hx))
      exact ⟨{ w with place := some true }, by rw [mget_enterContext, if_pos hk], rfl, harr, hlive⟩
    · exact ⟨x, by rw [mget_enterContext, if_neg hk, hx], hplace, harr, hlive⟩

/-- A walk that ends is gone and its report is on its way to the merge unit (08 R277, R287). -/
theorem endWalk_effect (k : Nat) (w : Walk) (reason : Nat) (s : State) :
    mget (endWalk k w reason s).search.walks k = none ∧
      endReportOf w w.engine reason ∈ (endWalk k w reason s).search.endsOut ∧ WalksServed s (endWalk k w reason s) := by
  have hserved := serveInbox_walksServed w.engine (dropWalk k w w.engine reason s)
  exact ⟨serveInbox_gone (by rw [mget_dropWalk, if_pos rfl]), hserved.reports _ (report_of_dropWalk k w w.engine reason s),
    (dropWalk_walksServed k w w.engine reason s).trans hserved⟩

theorem WalksServed.hops (h : WalksServed s u) : u.search.hops = s.search.hops := by rw [h.search]

theorem WalksServed.relays (h : WalksServed s u) : u.search.relays = s.search.relays := by rw [h.search]

theorem WalksServed.seqSeen (h : WalksServed s u) : u.search.seqSeen = s.search.seqSeen := by rw [h.search]

end

/-! ### WALK_START (08 R281, R283) -/

/-- What the start of a walk leaves as it was. -/
def besideWalks (s : State) : Nat × Map SearchWork × Gen × List Host.Cell × Objects × Flash × Sched :=
  (s.search.credits, s.search.shardWork, s.gen, s.hif.hostMem, s.obj, s.flash, s.sched)

theorem startWalk_besideWalks (e : Nat) (c : Collection) (w : SearchWork) (num node : Nat) (s : State) :
    besideWalks (startWalk e c w num node s) = besideWalks s := by
  unfold startWalk
  dsimp only
  split
  · simp [besideWalks, dropWalk]
  · simp [besideWalks, nextSeq]

/-- A search work whose pass starts: it waits no more, and its walks are counted (08 R281). -/
def startedWork (n : Nat) (x : SearchWork) : SearchWork := { x with waiting := none, walks := x.walks + n }

/-- The pass of a search starts: its walks hold their credits (08 R281). -/
def passStarted (e : Nat) (w : SearchWork) (s : State) : State :=
  let n := w.entryNodes.length
  modSearch (fun r => { r with credits := r.credits + n, walkCount := r.walkCount + n })
    (modSw e (startedWork n) s)

theorem exec_walkStart_starts {e place : Nat} {w : SearchWork} {c : Collection} {s : State} (hw : workOf s e = some w)
    (hwait : w.waiting = some place) (hc : mget s.obj.collections w.par.coll = some c)
    (hfirst : minNat (waitingPlaces s) = some place)
    (hroom : s.search.credits + freedCount s .credit + w.entryNodes.length ≤ 16384) : exec (.walkStart e) s =
      .next (foldS (withPos w.entryNodes) (fun t z => startWalk e c w z.1 z.2 t)
        (evCount 5 1 w.entryNodes.length (passStarted e w s))) := by
  simp only [exec, execWalkStart, hw, hwait, hc]
  rw [if_pos ⟨hfirst, hroom⟩]
  rfl

theorem exec_walkStart_waits {e : Nat} {w : SearchWork} {s : State} (hw : workOf s e = some w)
    (hroom : 16384 < s.search.credits + freedCount s .credit + w.entryNodes.length) : exec (.walkStart e) s = .next s := by
  simp only [exec, execWalkStart, hw]
  split
  · rw [if_neg fun h => absurd h.2 (Nat.not_le.mpr hroom)]
  · rfl

theorem walkStart_effect {e : Nat} {w : SearchWork} {s u : State} (c : Collection) (hw : workOf s e = some w)
    (hu : u = foldS (withPos w.entryNodes) (fun t z => startWalk e c w z.1 z.2 t)
      (evCount 5 1 w.entryNodes.length (passStarted e w s))) :
    u.search.credits = s.search.credits + w.entryNodes.length ∧
      workOf u e = some (startedWork w.entryNodes.length w) ∧
      u.hif.hostMem = s.hif.hostMem ∧ u.obj = s.obj ∧ u.flash = s.flash ∧ u.sched = s.sched := by
  have hwork : workOf (passStarted e w s) e = some (startedWork w.entryNodes.length w) :=
    (workOf_congr rfl rfl e).trans (workOf_modSw _ hw)
  have hbeside : besideWalks u = besideWalks (passStarted e w s) := by
    rw [hu, foldS_keeps besideWalks _ _ _ fun t _ => startWalk_besideWalks e c w _ _ t]
    simp [besideWalks]
  simp only [besideWalks, Prod.mk.injEq] at hbeside
  obtain ⟨hcredits, hshard, hgen, hmem, hobj, hflash, hsched⟩ := hbeside
  obtain ⟨g, q, honly⟩ := modSw_only e (startedWork w.entryNodes.length) s
  rw [workOf_congr hgen hshard, hwork, hcredits, hmem, hobj, hflash, hsched]
  simp [passStarted, honly]

/-! ### WALK_HOP (08 R272, R284 to R287; 02 R46) -/

/-- A walk lies in a context of an engine whose hub runs, so its page can arrive (08 R280; 17 R654). -/
structure HopDue (tag n : Nat) (w : Walk) (s : State) : Prop where
  walk : mget s.search.walks (walkKey tag n) = some w
  place : w.place = some true
  hub : s.boot.hubRestart.contains (w.engine / 8) = false

/-- A walk of a live tag expands its node: `x` is the walk after it, `l` what it offers and `fin` how the hop ends. -/
structure Expands (tag n : Nat) (rdb : Bool) (w x : Walk) (l : List Cand) (c : Collection) (sw : SearchWork) (fin : HopEnd)
    (s : State) : Prop extends HopDue tag n w s where
  live : s.search.killed.contains tag = false
  coll : mget s.obj.collections w.coll = some c
  work : workOf s w.entry = some sw
  hop : hopOnce c.desc w (rdb && c.nodeReadable w.next && !(channelOf s w.engine).failed) (slotNbrs c sw.sketch w.next) = (x, l, fin)

/-- A hop is charged and counted, and what it offers is on its way to the merge unit (08 R276, R286, R303). -/
def hopDone (w x : Walk) (l : List Cand) (s : State) : State :=
  let offer : OfferMsg := { src := w.engine, widened := w.widened, tag := w.tag, walk := w.num, hop := x.hops, entries := l }
  evCount 9 1 1 (evCount 5 7 (x.bad - w.bad) (evCount 5 4 l.length (evCount 5 2 1 (modSearch (fun r => { r with
    hops := r.hops + 1, offers := r.offers + l.length, badHops := r.badHops + (x.bad - w.bad)
    offersOut := if l.isEmpty then r.offersOut else r.offersOut ++ [offer]
    wire := if l.isEmpty then r.wire else r.wire ++ [offerBytes offer] })
    (modFlash (fun f => { f with reads := f.reads + 1 }) (chargeRead w s))))))

section
variable (w x : Walk) (l : List Cand) (s : State)
@[simp] theorem hopDone_walks : (hopDone w x l s).search.walks = s.search.walks := by simp [hopDone, chargeRead]
@[simp] theorem hopDone_hops : (hopDone w x l s).search.hops = s.search.hops + 1 := by simp [hopDone, chargeRead]
@[simp] theorem hopDone_offers : (hopDone w x l s).search.offers = s.search.offers + l.length := by simp [hopDone, chargeRead]
@[simp] theorem hopDone_relays : (hopDone w x l s).search.relays = s.search.relays := by simp [hopDone, chargeRead]
@[simp] theorem hopDone_seqSent : (hopDone w x l s).search.seqSent = s.search.seqSent := by simp [hopDone, chargeRead]
@[simp] theorem hopDone_reads : (hopDone w x l s).flash.reads = s.flash.reads + 1 := by simp [hopDone, chargeRead]
@[simp] theorem hopDone_hostMem : (hopDone w x l s).hif.hostMem = s.hif.hostMem := by simp [hopDone, chargeRead]
end

section
variable {tag n nx why : Nat} {rdb : Bool} {w x : Walk} {l : List Cand} {c : Collection} {sw : SearchWork} {fin : HopEnd} {s : State}

theorem HopDue.exec_killed (h : HopDue tag n w s) (hk : s.search.killed.contains tag = true) :
    exec (.walkHop tag n rdb) s = .next (endWalk (walkKey tag n) w 4 s) := by
  have hhub : hubWaits s w.engine = false := h.hub
  simp only [exec, execWalkHop, h.walk, h.place, hhub, hk, ne_eq, not_true_eq_false, Bool.false_eq_true, or_self, if_false,
    if_true]

theorem Expands.exec_eq (h : Expands tag n rdb w x l c sw fin s) :
    exec (.walkHop tag n rdb) s = .next (walkHop (walkKey tag n) w c sw.sketch rdb s) := by
  have hhub : hubWaits s w.engine = false := h.hub
  simp only [exec, execWalkHop, h.walk, h.place, hhub, h.live, h.coll, h.work, ne_eq, not_true_eq_false, Bool.false_eq_true,
    or_self, if_false]

theorem Expands.exec_ends (h : Expands tag n rdb w x l c sw (.ended why) s) :
    exec (.walkHop tag n rdb) s = .next (endWalk (walkKey tag n) x why (hopDone w x l s)) := by
  rw [h.exec_eq]
  simp only [walkHop, h.hop]
  rfl

theorem Expands.exec_cut (h : Expands tag n rdb w x l c sw (.next nx) s) (hcut : relayBlocked s w.engine (c.engineOf nx) = true) :
    exec (.walkHop tag n rdb) s = .next (endWalk (walkKey tag n) x 3 (hopDone w x l s)) := by
  rw [h.exec_eq]
  simp only [walkHop, h.hop, hcut, if_true]
  rfl

/-- A way within a hub is cut only where the hub itself is unreachable (02 R43, R46). -/
theorem relayBlocked_self (g : Nat) (s : State) : relayBlocked s g g = hubUnreachable s (g / 8) := by
  have hway : relayWay s (g / 8) (g / 8) = .inside := by
    simp [relayWay]
  simp [relayBlocked, hway]

theorem Expands.exec_stays (h : Expands tag n rdb w x l c sw (.next nx) s) (hstay : c.engineOf nx = w.engine)
    (hreach : hubUnreachable s (w.engine / 8) = false) : exec (.walkHop tag n rdb) s =
      .next (modSearch (fun r => { r with walks := mset r.walks (walkKey tag n) x }) (hopDone w x l s)) := by
  have hopen : relayBlocked s w.engine w.engine = false := (relayBlocked_self _ s).trans hreach
  rw [h.exec_eq]
  simp only [walkHop, h.hop, hstay, hopen, if_true]
  rfl

/-- A walk after its hop as it travels to another engine (08 R283, R284). -/
def relayedWalk (c : Collection) (sketch : Nat) (w x : Walk) (g : Nat) (s : State) : Walk :=
  let y := { x with engine := g, src := w.engine, seq := mgetD s.search.seqSent (pairKey g w.engine) 0, place := none
                    relays := x.relays + 1 }
  { y with msg := relayBytes c sketch y, due := now s + relayNs (relayWay s (w.engine / 8) (g / 8)) (relayLen y) }

/-- A walk goes on its way to another engine: the pair's number is used and the relay counted (08 R284, R303). -/
def relaySent (k g : Nat) (w y : Walk) (s : State) : State :=
  evCount 5 3 1 (modSearch (fun r => { r with relays := r.relays + 1, walks := mset r.walks k y }) (nextSeq g w.engine s).2)

theorem Expands.exec_relays (h : Expands tag n rdb w x l c sw (.next nx) s) (hgo : c.engineOf nx ≠ w.engine)
    (hopen : relayBlocked s w.engine (c.engineOf nx) = false) : exec (.walkHop tag n rdb) s =
      .next (serveInbox w.engine (relaySent (walkKey tag n) (c.engineOf nx) w (relayedWalk c sw.sketch w x (c.engineOf nx) s)
        (hopDone w x l s))) := by
  have hseq : mgetD (hopDone w x l s).search.seqSent (pairKey (c.engineOf nx) w.engine) 0 =
      mgetD s.search.seqSent (pairKey (c.engineOf nx) w.engine) 0 := by rw [hopDone_seqSent]
  rw [h.exec_eq, relayedWalk, ← hseq]
  simp only [walkHop, h.hop, hopen, hgo, if_false, Bool.false_eq_true]
  rfl

theorem relaySent_travels {y : Walk} (k g : Nat) (w : Walk) (s : State) (hy : y.place = none) :
    Travels k y (relaySent k g w y s) := by
  have hwalks : (relaySent k g w y s).search.walks = mset s.search.walks k y := by simp [relaySent, nextSeq]
  unfold Travels
  rw [hwalks]
  exact ⟨mget_mset_same _ _ _, fun v hv => by rw [eq_of_mem_mset hv, hy]⟩

end

/-! ### RELAY_ARRIVE (08 R280, R284) -/

theorem mem_insertNum_of_mem {q k : Nat} {l : List Nat} (h : q ∈ l) : q ∈ insertNum k l := by
  induction l with
  | nil => simp at h
  | cons a l ih =>
    unfold insertNum
    split
    · exact List.mem_cons_of_mem _ h
    · split
      · exact h
      · rcases List.mem_cons.mp h with rfl | h
        · exact List.mem_cons_self
        · exact List.mem_cons_of_mem _ (ih h)

/-- A number is below the first not accepted, or is listed. -/
def Accepted (p : Nat × List Nat) (q : Nat) : Prop := q < p.1 ∨ q ∈ p.2

theorem seqTaken_iff (s : State) (key q : Nat) : seqTaken s key q = true ↔ Accepted (mgetD s.search.seqSeen key (0, [])) q := by
  simp [seqTaken, Accepted]

/-- Moving the first number on forgets none. -/
theorem Accepted.seqAdvance {p : Nat × List Nat} {q : Nat} (h : Accepted p q) (n : Nat) : Accepted (seqAdvance n p) q := by
  induction n generalizing p with
  | zero => exact h
  | succ n ih =>
    unfold Machine.seqAdvance
    split
    · apply ih
      by_cases hq : q = p.1
      · exact .inl (by simp [hq])
      · exact h.imp Nat.lt_succ_of_lt (List.mem_erase_of_ne hq).mpr
    · exact h

theorem accepted_seqTake_same (q : Nat) (p : Nat × List Nat) : Accepted (seqTake q p) q :=
  Accepted.seqAdvance (.inr (mem_insertNum q p.2)) _

theorem Accepted.seqTake {p : Nat × List Nat} {q : Nat} (h : Accepted p q) (k : Nat) : Accepted (seqTake k p) q :=
  Accepted.seqAdvance (p := (p.1, insertNum k p.2)) (h.imp_right mem_insertNum_of_mem) _

/-- A message's number is accepted, and its walk waits in the inbox with its number in the order of arrivals (08 R280, R284). -/
def relayTaken (m : RelayMsg) (w : Walk) (s : State) : State :=
  modSearch (fun r => { r with
    seqSeen := mmod r.seqSeen (pairKey m.dst m.src) (0, []) (seqTake m.seq)
    walks := mset r.walks (walkKey m.tag m.walk) { w with place := some false, arrival := r.nextArrival, msg := [] }
    nextArrival := r.nextArrival + 1 }) (advanceTo w.due s)

theorem exec_relayArrive_taken {m : RelayMsg} {w : Walk} {s : State} (hnew : seqTaken s (pairKey m.dst m.src) m.seq = false)
    (hw : walkInMsg s m = some w) (hhub : hubWaits s m.dst = false) :
    exec (.relayArrive m) s = .next (serveInbox m.dst (relayTaken m w s)) := by
  simp only [exec, execRelayArrive, hnew, hw, hhub, Bool.false_eq_true, or_self, if_false]
  rfl

theorem relayTaken_arrived {w : Walk} {s : State} (m : RelayMsg) (hlive : s.search.killed.contains w.tag = false) :
    HasArrived (walkKey m.tag m.walk) s.search.nextArrival (relayTaken m w s) :=
  ⟨{ w with place := some false, arrival := s.search.nextArrival, msg := [] }, by simp [relayTaken], rfl, rfl,
    by simpa [relayTaken] using hlive⟩

theorem relayTaken_seqSeen (m : RelayMsg) (w : Walk) (s : State) :
    mgetD (relayTaken m w s).search.seqSeen (pairKey m.dst m.src) (0, []) =
      seqTake m.seq (mgetD s.search.seqSeen (pairKey m.dst m.src) (0, [])) := by
  simp [relayTaken]

theorem relayArrive_effect {m : RelayMsg} {w : Walk} {s : State} (hlive : s.search.killed.contains w.tag = false) :
    ∃ u x, serveInbox m.dst (relayTaken m w s) = u ∧ seqTaken u (pairKey m.dst m.src) m.seq = true ∧
      (∀ q, seqTaken s (pairKey m.dst m.src) q = true → seqTaken u (pairKey m.dst m.src) q = true) ∧
      mget u.search.walks (walkKey m.tag m.walk) = some x ∧ x.place.isSome = true ∧ x.arrival = s.search.nextArrival := by
  obtain ⟨x, hx, hplace, harr, -⟩ := (relayTaken_arrived m hlive).serveInbox m.dst
  refine ⟨_, x, rfl, ?_, fun q hq => ?_, hx, hplace, harr⟩
  · rw [seqTaken_iff, (serveInbox_walksServed _ _).seqSeen, relayTaken_seqSeen]
    exact accepted_seqTake_same _ _
  · rw [seqTaken_iff] at hq ⊢
    rw [(serveInbox_walksServed _ _).seqSeen, relayTaken_seqSeen]
    exact hq.seqTake _

/-- Settles O25: a pass starts through the starts of its walks; a hop ends its walk, keeps it or sends it on, and the engine then
serves its inbox; a relay's number is accepted once and never forgotten. -/
theorem walks : Obligations.walks := by
  unfold Obligations.walks
  refine ⟨?_, ?_, ?_, ?_, ?_, ?_, ?_, ?_, ?_⟩
  · intro e place w c s hw hwait hc hfirst hroom
    exact ⟨_, exec_walkStart_starts hw hwait hc hfirst hroom, walkStart_effect c hw rfl⟩
  · intro e w s hw hroom
    exact exec_walkStart_waits hw hroom
  · intro tag n rdb w s hw hplace hhub hk
    obtain ⟨hgone, hreport, hserved⟩ := endWalk_effect (walkKey tag n) w 4 s
    exact ⟨_, HopDue.exec_killed ⟨hw, hplace, hhub⟩ hk, hgone, hreport, hserved.hops, hserved.only⟩
  · intro tag n nx rdb w x l c sw s hw hplace hhub hlive hc hsw hhop hstay hreach
    have h : Expands tag n rdb w x l c sw (.next nx) s := ⟨⟨hw, hplace, hhub⟩, hlive, hc, hsw, hhop⟩
    exact ⟨_, h.exec_stays hstay hreach, by simp, by simp, by simp, by simp,
      fun j hj => by simp [mget_mset_other _ _ _ _ hj], by simp⟩
  · intro tag n why rdb w x l c sw s hw hplace hhub hlive hc hsw hhop
    have h : Expands tag n rdb w x l c sw (.ended why) s := ⟨⟨hw, hplace, hhub⟩, hlive, hc, hsw, hhop⟩
    obtain ⟨hgone, hreport, hserved⟩ := endWalk_effect (walkKey tag n) x why (hopDone w x l s)
    exact ⟨_, h.exec_ends, hgone, hreport, hserved.hops.trans (hopDone_hops w x l s)⟩
  · intro tag n nx rdb w x l c sw s hw hplace hhub hlive hc hsw hhop hgo hopen
    have h : Expands tag n rdb w x l c sw (.next nx) s := ⟨⟨hw, hplace, hhub⟩, hlive, hc, hsw, hhop⟩
    have htravels := (relaySent_travels (walkKey tag n) (c.engineOf nx) w (hopDone w x l s)
      (y := relayedWalk c sw.sketch w x (c.engineOf nx) s) rfl).serveInbox w.engine
    have hserved := serveInbox_walksServed w.engine (relaySent (walkKey tag n) (c.engineOf nx) w
      (relayedWalk c sw.sketch w x (c.engineOf nx) s) (hopDone w x l s))
    refine ⟨_, _, h.exec_relays hgo hopen, htravels.1, rfl, rfl, rfl, rfl, rfl, rfl, ?_, ?_, ?_⟩
    · rw [hserved.relays]; simp [relaySent, nextSeq]
    · rw [hserved.hops]; simp [relaySent, nextSeq]
    · rw [hserved.hostMem]; simp [relaySent, nextSeq]
  · intro tag n nx rdb w x l c sw s hw hplace hhub hlive hc hsw hhop hcut
    have h : Expands tag n rdb w x l c sw (.next nx) s := ⟨⟨hw, hplace, hhub⟩, hlive, hc, hsw, hhop⟩
    obtain ⟨hgone, hreport, -⟩ := endWalk_effect (walkKey tag n) x 3 (hopDone w x l s)
    exact ⟨_, h.exec_cut hcut, hgone, hreport⟩
  · intro m w s hnew hw hhub hlive
    rw [exec_relayArrive_taken hnew hw hhub]
    obtain ⟨u, x, hu, h⟩ := relayArrive_effect (m := m) hlive
    exact ⟨u, x, congrArg _ hu, h⟩
  · intro m s hold
    simp [exec, execRelayArrive, hold]

end Sys2Proof.Machine
end

section
/-! PROOFS. The merge unit and the ends of searches: offers, end reports, the union of lists, the shard wait, rebuilt nodes and the
hold bit (08 R288 to R292, R302, R304; 01 R35). -/

namespace Sys2Proof.Machine

/-! ### OFFER_BATCH and END_REPORT (08 R288, R290, R291) -/

/-- A batch leaves the board links (08 R286). -/
def batchTaken (b : OfferMsg) (s : State) : State :=
  modSearch (fun r => { r with offersOut := r.offersOut.erase b, wire := r.wire.erase (offerBytes b) }) s

/-- What a batch offers of admitted items. -/
def admittedOf (b : OfferMsg) (w : SearchWork) (c : Collection) : List Cand :=
  b.entries.filter fun x => match mget c.items x.id with | some i => admits w x.id i | none => false

/-- A search work with a batch taken into the list of its walk (08 R291). -/
def offered (b : OfferMsg) (w : SearchWork) (c : Collection) (y : SearchWork) : SearchWork :=
  { y with lists := mset y.lists b.walk ((admittedOf b w c).foldl (listInsert (passPar w).queueLen) (mgetD y.lists b.walk []))
           received := mmod y.received b.walk 0 (· + b.entries.length) }

theorem exec_offerBatch {b : OfferMsg} {e : Nat} {w : SearchWork} {c : Collection} {s : State} (hb : b ∈ s.search.offersOut)
    (he : tagOwner s b.tag = some e) (hw : workOf s e = some w) (hc : mget s.obj.collections w.par.coll = some c) :
    exec (.offerBatch b) s = .next (evCount 5 5 (admittedOf b w c).length (modSw e (offered b w c) (batchTaken b s))) := by
  simp only [exec, execOfferBatch, List.contains_iff_mem.mpr hb, Bool.not_true, Bool.false_eq_true, if_false, he, hw, hc]
  rfl

/-- A report leaves the board links, and its walk's credit returns (08 R281, R287). -/
def reportTaken (m : EndMsg) (s : State) : State :=
  noteFreed .credit (modSearch (fun r => { r with
    endsOut := r.endsOut.erase m, wire := r.wire.erase (endBytes m), credits := r.credits - 1 }) s)

/-- A search work with an end report counted (08 R288). -/
def reported (m : EndMsg) (y : SearchWork) : SearchWork :=
  { y with ended := mset y.ended m.walk m.offered, hops := y.hops + m.hops, relays := y.relays + m.relays
           badHops := y.badHops + m.bad }

theorem exec_endReport {m : EndMsg} {e : Nat} {s : State} (hm : m ∈ s.search.endsOut) (he : tagOwner s m.tag = some e) :
    exec (.endReport m) s = .next (modSw e (reported m) (reportTaken m s)) := by
  simp only [exec, execEndReport, List.contains_iff_mem.mpr hm, Bool.not_true, Bool.false_eq_true, if_false, he]
  rfl

theorem freedCount_noteFreed (x : Freed) (s : State) : freedCount (noteFreed x s) x = freedCount s x + 1 := by
  simp [freedCount, noteFreed]

/-! ### A request's search work (08 R292; 01 R35) -/

/-- A change of a request's search work touches its entry alone. -/
theorem modSearchWork_effect {e : Nat} {x : RtEntry} {f : SearchWork → SearchWork} {s u : State}
    (hu : u = modSearchWork e f s) (hx : mget s.gen.entries e = some x) :
    mget u.gen.entries e = some { x with work := { x.work with search := f x.work.search } } ∧
      (∀ j, j ≠ e → mget u.gen.entries j = mget s.gen.entries j) ∧
      u = { s with gen := { s.gen with entries := u.gen.entries } } := by
  subst hu
  exact ⟨mget_modEntry_same _ hx, modEntry_others e _ s, rfl⟩

theorem exec_mergeUnite {e : Nat} {x : RtEntry} {s : State} (he : e < 4096) (hx : mget s.gen.entries e = some x)
    (hs : x.state = .pre) (h7 : x.work.stage = 7) (hfin : passFinished x.work.search = true)
    (hopen : x.work.search.merged = false) : exec (.mergeUnite e) s = .next (modSearchWork e settlePass s) := by
  have hx' : entryOf s e = some x := hx
  simp [exec, execMergeUnite, he, hx', hs, h7, hfin, hopen]

/-- The shards that have not answered are left out and counted (01 R35). -/
def shardsLeftOut (w : SearchWork) : SearchWork :=
  { w with missingShards := w.missingShards + w.shardsLeft.length, shardsLeft := [] }

theorem exec_shardWaitExpiry {e : Nat} {x : RtEntry} {s : State} (hx : mget s.gen.entries e = some x) (hs : x.state = .pre)
    (hleft : x.work.search.shardsLeft ≠ []) : exec (.shardWaitExpiry e) s =
      .next (modSearchWork e shardsLeftOut (oweShards x.work.search (advanceTo x.work.search.shardUntil s))) := by
  have hx' : entryOf s e = some x := hx
  have hne : x.work.search.shardsLeft.isEmpty = false := by simpa using hleft
  simp only [exec, execShardWaitExpiry, hx', hs, hne]
  rfl

theorem oweShards_only (w : SearchWork) (s : State) : ∃ l, oweShards w s = { s with search := { s.search with owed := l } } := by
  unfold oweShards
  split <;> exact ⟨_, rfl⟩

/-- Passing time leaves everything but module time and what the pages count and tell (19 R704). -/
theorem advanceTo_bootOnly (n : Nat) (s : State) : BootOnly s (advanceTo n s) := by
  unfold BootOnly
  apply state_ext <;> simp

/-! ### NODE_REBUILD (08 R302) -/

/-- What a rebuilt node and its collection are: the node is written anew from its sketch, and no other node and no item changes. -/
theorem rebuildNode_effect {c : Collection} {n : Nat} {i : Item} (hi : mget c.items n = some i) :
    n ∉ (rebuildNode c n).rebuild ∧ (∃ x, mget (rebuildNode c n).nodes n = some x ∧ x.sketch = nodeSketch c n) ∧
      (∀ j, j ≠ n → mget (rebuildNode c n).nodes j = mget c.nodes j) ∧ (rebuildNode c n).items = c.items := by
  unfold rebuildNode
  simp only [hi]
  split <;>
    exact ⟨by simp, ⟨_, mget_mset_same _ _ _, rfl⟩, fun _ hj => mget_mset_other _ _ _ _ hj, rfl⟩

theorem evCount_flashWork (p src n : Nat) (s : State) : FlashWork s (evCount p src n s) :=
  ⟨by apply state_ext <;> simp, evCount_hif_hostMem p src n s, evCount_hif_qps p src n s⟩

theorem CollChanged.evCount {k : Nat} {c : Collection} {s t : State} (h : CollChanged k c s t) (p src n : Nat) :
    CollChanged k c s (evCount p src n t) := by
  obtain ⟨hsame, hothers, hwork⟩ := h
  unfold CollChanged
  rw [evCount_obj]
  exact ⟨hsame, hothers, hwork.trans (evCount_flashWork p src n t)⟩

theorem exec_nodeRebuild {k n : Nat} {c : Collection} {s : State} (hc : mget s.obj.collections k = some c) (hn : n ∈ c.rebuild)
    (hhub : hubWaits s (c.engineOf n) = false) : exec (.nodeRebuild k n) s =
      .next (evCount 11 2 (c.badPages.length - (rebuildNode c n).badPages.length)
        (acceptWrites (collWrites c (rebuildNode c n))
          (modObj (fun o => { o with collections := mset o.collections k (rebuildNode c n) }) s))) := by
  simp [exec, execNodeRebuild, hc, hn, hhub]

/-! ### The hold bit (08 R304) -/

theorem exec_searchHoldSet {fn : Nat} (s : State) (hfn : fn ≤ 1) :
    exec (.searchHoldSet fn) s = .next (modSearch (fun r => { r with hold := true }) s) := by
  simp only [exec, execSearchHoldSet, if_pos hfn]

theorem exec_searchHoldClear {fn : Nat} (s : State) (hfn : fn ≤ 1) : exec (.searchHoldClear fn) s =
    .next (foldS (sortBy (fun a b => decide (a.1 < b.1)) (heldSearches s)) (fun t e => resumeSearch e.2 t)
      (modSearch (fun r => { r with hold := false }) s)) := by
  simp only [exec, execSearchHoldClear, if_pos hfn]

theorem exec_searchHoldClear_none {fn : Nat} {s : State} (hfn : fn ≤ 1) (hheld : heldSearches s = []) :
    exec (.searchHoldClear fn) s = .next (modSearch (fun r => { r with hold := false }) s) := by
  rw [exec_searchHoldClear s hfn, hheld]
  rfl

theorem exec_searchHoldClear_one {fn place e : Nat} {s : State} (hfn : fn ≤ 1) (hheld : heldSearches s = [(place, e)]) :
    exec (.searchHoldClear fn) s = .next (resumeSearch e (modSearch (fun r => { r with hold := false }) s)) := by
  rw [exec_searchHoldClear s hfn, hheld]
  rfl

theorem searchHold_ignored {fn : Nat} (s : State) (hfn : 1 < fn) :
    exec (.searchHoldSet fn) s = .next s ∧ exec (.searchHoldClear fn) s = .next s := by
  have h : ¬ fn ≤ 1 := Nat.not_le.mpr hfn
  simp only [exec, execSearchHoldSet, execSearchHoldClear, if_neg h, and_self]

/-- A request's search without a shard set goes on: it is held no more, and a new unit serves its stage 5 (08 R304, 14 R528). -/
theorem resumeSearch_request {e : Nat} {x : RtEntry} {p : Profile} {c : Collection} {s : State} (he : e < 4096)
    (hx : mget s.gen.entries e = some x) (hp : x.work.profile = some p) (hset : p.shardSet = 0)
    (hc : mget s.obj.collections x.work.search.par.coll = some c) :
    ∃ l y, y.kind = .stage e 5 ∧ resumeSearch e s = modSearchWork e (fun w => { w with heldHere := false })
      { s with sched := { s.sched with
          accounts := l, nextUnit := s.sched.nextUnit + 1, units := mset s.sched.units s.sched.nextUnit y } } := by
  have hx' : entryOf s e = some x := hx
  simp only [resumeSearch, if_pos he, startSearch, hx', hp, hc, sendShards, if_pos hset, stageUnit]
  obtain ⟨l, y, hy, heq⟩ := newUnit_only (modSearchWork e (fun w => { w with heldHere := false }) s) (.stage e 5)
    [(e, x.account, 1)] x.prio 0 (max 1 (((mget s.obj.images 0).map (·.span)).getD 1))
    (((mget s.obj.images 0).map (·.sram)).getD 0) (acctDies s x.account)
  exact ⟨l, y, hy, heq⟩

/-- Settles O26: each message of a walk changes the work its tag serves; the union, the shard wait and the hold bit change one entry;
a rebuilt node is its collection's change. -/
theorem mergingAndSearchEnds : Obligations.merging_and_search_ends := by
  unfold Obligations.merging_and_search_ends
  refine ⟨?_, ?_, ?_, ?_, ?_, ?_, ?_, ?_, ?_⟩
  · intro b e w c s hb he hw hc
    obtain ⟨g, q, honly⟩ := modSw_only e (offered b w c) (batchTaken b s)
    have hwork : workOf (modSw e (offered b w c) (batchTaken b s)) e = some (offered b w c w) :=
      workOf_modSw _ ((workOf_congr rfl rfl e).trans hw)
    refine ⟨_, exec_offerBatch hb he hw hc, ?_, ?_, ?_, ?_⟩
    · rw [evCount_search, honly]; rfl
    · exact (workOf_congr (evCount_gen ..) (by simp) e).trans hwork
    · rw [evCount_hif_hostMem, honly]; rfl
    · rw [honly]
      apply state_ext <;> simp [batchTaken]
  · intro m e w s hm he hw
    obtain ⟨g, q, honly⟩ := modSw_only e (reported m) (reportTaken m s)
    have hwork : workOf (modSw e (reported m) (reportTaken m s)) e = some (reported m w) :=
      workOf_modSw _ ((workOf_congr rfl rfl e).trans hw)
    refine ⟨_, exec_endReport hm he, ?_, ?_, hwork, ?_, ?_⟩
    · rw [honly]; rfl
    · rw [honly]; rfl
    · rw [honly]; exact freedCount_noteFreed .credit s
    · rw [honly]; rfl
  · intro e x s he hx hs h7 hfin hopen
    obtain ⟨hentry, hothers, honly⟩ := modSearchWork_effect (f := settlePass) rfl hx
    exact ⟨_, exec_mergeUnite he hx hs h7 hfin hopen, hentry, rfl, hothers, honly⟩
  · intro e x s hx hs hleft
    obtain ⟨q, howed⟩ := oweShards_only x.work.search (advanceTo x.work.search.shardUntil s)
    have htime := advanceTo_bootOnly x.work.search.shardUntil s
    have hgen : (oweShards x.work.search (advanceTo x.work.search.shardUntil s)).gen = s.gen := by simp
    obtain ⟨hentry, hothers, honly⟩ := modSearchWork_effect (f := shardsLeftOut)
      (s := oweShards x.work.search (advanceTo x.work.search.shardUntil s)) rfl (hgen ▸ hx)
    refine ⟨_, exec_shardWaitExpiry hx hs hleft, hentry, fun j hj => by rw [hothers j hj, hgen], ?_⟩
    rw [howed, htime]
    rfl
  · intro k n c i s hc hn hi hhub
    obtain ⟨hdone, hnode, hothers, hitems⟩ := rebuildNode_effect hi
    exact ⟨_, _, exec_nodeRebuild hc hn hhub, ((storeColl_collChanged k _ s).acceptWrites _).evCount _ _ _, hdone, hnode, hothers,
      hitems⟩
  · intro fn s hfn
    exact exec_searchHoldSet s hfn
  · intro fn s hfn
    exact searchHold_ignored s hfn
  · intro fn s hfn hheld
    exact exec_searchHoldClear_none hfn hheld
  · intro fn place e x p c s hfn hheld he hx hp hset hc
    obtain ⟨l, y, hy, hresume⟩ := resumeSearch_request (s := modSearch (fun r => { r with hold := false }) s) he hx hp hset hc
    exact ⟨_, y, (exec_searchHoldClear_one hfn hheld).trans (congrArg _ hresume), rfl, mget_modEntry_same _ hx,
      mget_mset_same _ _ _, hy, modEntry_others e _ _, rfl⟩

end Sys2Proof.Machine
end

section
/-! PROOFS. Hold bits, windows, sleeping clusters, routes and sets: each write by a function that may write by an equation of its own,
and what its window shows by where the fields of an entry and of an account record lie (10 R386, R389; 14 R548, R551, R552; 02 R50;
16 R606, R609, R624, R631). -/

namespace Sys2Proof.Machine

/-! ### Fields of byte strings laid end to end -/

theorem zeros_length (n : Nat) : (zeros n).length = n := List.length_replicate

/-- A field behind a part of a byte string is read in what follows the part. -/
theorem rd_append_skip {a : Bytes} {k : Nat} (ha : a.length = k) (b : Bytes) (n : Nat) : rd (a ++ b) k n = rd b 0 n := by
  subst ha
  simp [rd]

/-- A field that lies in front of what follows is read whole. -/
theorem rd_append_front (n v : Nat) (b : Bytes) : rd (leBytes n v ++ b) 0 n = v % 256 ^ n := by
  simp [rd, leBytes_length, leNat_leBytes]

/-- A string padded to a length begins with any part that fits in it. -/
theorem padTo_append {a : Bytes} {n : Nat} (b : Bytes) (h : a.length ≤ n) : ∃ c, padTo (a ++ b) n = a ++ c :=
  ⟨(b ++ zeros (n - (a ++ b).length)).take (n - a.length), by
    rw [padTo, List.append_assoc, List.take_append, List.take_of_length_le h]⟩

theorem padTo_length (b : Bytes) (n : Nat) : (padTo b n).length = n := by
  simp only [padTo, List.length_take, List.length_append, zeros_length]
  omega

/-! ### Hold bits (10 R386, 14 R548) -/

theorem not_isPf {fn : Nat} (h : 1 < fn) : ¬ isPf fn = true := fun hpf => Nat.not_le.mpr h ((isPf_iff fn).mp hpf)

theorem exec_genHold {fn : Nat} (v : BitVec 32) (s : State) (hfn : fn ≤ 1) :
    exec (.genHold fn v) s = .next { s with gen := { s.gen with hold := v.getLsbD 0 } } :=
  congrArg Host.Outcome.next (if_pos hfn)

theorem exec_schedHold {fn : Nat} (v : BitVec 32) (s : State) (hfn : fn ≤ 1) :
    exec (.schedHold fn v) s = .next { s with sched := { s.sched with hold := v.getLsbD 0 } } :=
  congrArg Host.Outcome.next (if_pos ((isPf_iff fn).mpr hfn))

/-- A virtual function writes neither hold bit and latches neither window (10 R386, R389; 14 R548, R551). -/
theorem holdsAndWindows_ignored {fn : Nat} (v : BitVec 32) (s : State) (hfn : 1 < fn) :
    exec (.genHold fn v) s = .next s ∧ exec (.schedHold fn v) s = .next s ∧ exec (.rtWinLatch fn v) s = .next s ∧
      exec (.acctWinLatch fn v) s = .next s :=
  ⟨congrArg Host.Outcome.next (if_neg (Nat.not_le.mpr hfn)), congrArg Host.Outcome.next (if_neg (not_isPf hfn)),
    congrArg Host.Outcome.next (if_neg (Nat.not_le.mpr hfn)), congrArg Host.Outcome.next (if_neg (not_isPf hfn))⟩

/-! ### The entry window (10 R346, R389) -/

/-- The bytes of an entry: its state's code, seven bytes, its tag, and 240 bytes (10 R346). -/
theorem entryBytes_layout (e : Nat) (x : RtEntry) : ∃ a b : Bytes, a.length = 7 ∧ b.length = 240 ∧
    entryBytes e x = leBytes 1 x.state.code ++ (a ++ (leBytes 8 x.tag ++ b)) := by
  obtain ⟨a, ha⟩ : ∃ a, a = leBytes 1 (x.prio % 4) ++ leBytes 2 (x.account % 4096) ++ leBytes 2 (x.fn % 1024) ++
      leBytes 2 (x.qp % 16384) := ⟨_, rfl⟩
  have hrest : ∃ b : Bytes, b.length = 240 ∧ entryBytes e x = leBytes 1 x.state.code ++ (a ++ (leBytes 8 x.tag ++ b)) := by
    unfold entryBytes
    subst ha
    simp only [List.append_assoc]
    exact ⟨_, by simp only [List.length_append, leBytes_length, zeros_length, Counters.bytes], rfl⟩
  obtain ⟨b, hb, heq⟩ := hrest
  exact ⟨a, b, by simp [ha, leBytes_length], hb, heq⟩

theorem entryBytes_length (e : Nat) (x : RtEntry) : (entryBytes e x).length = 256 := by
  obtain ⟨a, b, ha, hb, heq⟩ := entryBytes_layout e x
  simp [heq, leBytes_length, ha, hb]

theorem code_lt (t : RtState) : t.code < 256 := by cases t <;> decide

/-- An entry's bytes begin with its state's code (10 R346, R347). -/
theorem rd_entryBytes_state (e : Nat) (x : RtEntry) : rd (entryBytes e x) 0 1 = x.state.code := by
  obtain ⟨a, b, -, -, heq⟩ := entryBytes_layout e x
  rw [heq, rd_append_front]
  exact Nat.mod_eq_of_lt (code_lt _)

/-- Bytes 8 to 15 of an entry are its tag (10 R346). -/
theorem rd_entryBytes_tag (e : Nat) (x : RtEntry) : rd (entryBytes e x) 8 8 = x.tag % 2 ^ 64 := by
  obtain ⟨a, b, ha, -, heq⟩ := entryBytes_layout e x
  rw [heq, ← List.append_assoc, rd_append_skip (by simp [leBytes_length, ha])]
  exact rd_append_front 8 x.tag b

/-- The bytes that the entry window shows of an entry: zero where the entry is FREE (10 R389). -/
def windowBytes (s : State) (e : Nat) : Bytes :=
  match mget s.gen.entries e with
  | some x => entryBytes e x
  | none => zeros 256

theorem exec_rtWinLatch {fn : Nat} (v : BitVec 32) (s : State) (hfn : fn ≤ 1) :
    exec (.rtWinLatch fn v) s = .next { s with gen := { s.gen with
      winSel := BitVec.ofNat 32 (v.toNat % 4096), win := windowBytes s (v.toNat % 4096) } } :=
  congrArg Host.Outcome.next (if_pos hfn)

theorem windowBytes_free {s : State} {e : Nat} (h : mget s.gen.entries e = none) : windowBytes s e = zeros 256 := by
  simp only [windowBytes, h]

theorem windowBytes_taken {s : State} {e : Nat} {x : RtEntry} (h : mget s.gen.entries e = some x) :
    windowBytes s e = entryBytes e x := by
  simp only [windowBytes, h]

theorem windowBytes_length (s : State) (e : Nat) : (windowBytes s e).length = 256 := by
  cases h : mget s.gen.entries e with
  | none => rw [windowBytes_free h, zeros_length]
  | some x => rw [windowBytes_taken h, entryBytes_length]

/-! ### The account window (14 R516, R551, R552) -/

theorem exec_acctWinLatch {fn : Nat} (v : BitVec 32) (s : State) (hfn : fn ≤ 1) :
    exec (.acctWinLatch fn v) s = .next { s with sched := { s.sched with
      acctSel := v &&& 0xFFF, acctWin := acctWin s (v.toNat % 4096) } } :=
  congrArg Host.Outcome.next (if_pos ((isPf_iff fn).mpr hfn))

theorem acctWin_length (s : State) (a : Nat) : (acctWin s a).length = 256 := by
  unfold acctWin
  split
  · exact padTo_length _ _
  · split <;> simp [leBytes_length, zeros_length]

theorem acctWin_absent {s : State} {a : Nat} (ha : mget s.sched.accounts a = none) (hs : a ∉ s.sched.scrubbing) :
    acctWin s a = zeros 256 := by
  simp [acctWin, ha, hs]

theorem acctRecBytes_length (a : Nat) (r : AcctRec) : (acctRecBytes a r).length = 32 := by
  simp [acctRecBytes, leBytes_length, zeros_length]

/-- An account's window is its record, then 120 bytes of counters, then a word with its key generation (14 R552). -/
theorem acctWin_account {s : State} {a : Nat} {x : Account} (ha : mget s.sched.accounts a = some x) :
    ∃ l c : Bytes, l.length = 120 ∧ acctWin s a =
      acctRecBytes a x.record ++ (l ++ (leBytes 4 (1 + 4 * (mgetD s.sched.keygen a 0 % 16)) ++ c)) := by
  obtain ⟨l, hl, heq⟩ : ∃ l : Bytes, l.length = 120 ∧ acctWin s a =
      padTo ((acctRecBytes a x.record ++ (l ++ leBytes 4 (1 + 4 * (mgetD s.sched.keygen a 0 % 16)))) ++ []) 256 := by
    simp only [acctWin, ha, List.append_nil, List.append_assoc]
    exact ⟨_, by simp [leBytes_length], rfl⟩
  obtain ⟨c, hc⟩ := padTo_append (a := acctRecBytes a x.record ++ (l ++ leBytes 4 (1 + 4 * (mgetD s.sched.keygen a 0 % 16))))
    (n := 256) [] (by simp [acctRecBytes_length, leBytes_length, hl])
  exact ⟨l, c, hl, by rw [heq, hc]; simp only [List.append_assoc]⟩

/-- The window of an account shows its record and its key generation (14 R552). -/
theorem acctWin_fields {s : State} {a : Nat} {x : Account} (ha : mget s.sched.accounts a = some x) :
    (acctWin s a).take 32 = acctRecBytes a x.record ∧ rd (acctWin s a) 152 4 = 1 + 4 * (mgetD s.sched.keygen a 0 % 16) := by
  obtain ⟨l, c, hl, heq⟩ := acctWin_account ha
  have hrec := acctRecBytes_length a x.record
  refine ⟨?_, ?_⟩
  · rw [heq, List.take_left' hrec]
  · rw [heq, ← List.append_assoc, rd_append_skip (by simp [hrec, hl]), rd_append_front]
    omega

/-! ### A sleeping cluster (02 R50) -/

/-- A cluster with nothing resident, nothing queued and no spare operation goes to sleep. -/
theorem exec_clusterSleep {g : Nat} {s : State} (ha : (clusterOf s g).awake = true) (hi : (clusterOf s g).idle = true)
    (hs : (clusterOf s g).spareOp = none) : exec (.clusterSleep g) s =
      .next (evCount 0 2 1 (modCluster g (fun k => { k with awake := false }) s)) :=
  congrArg Host.Outcome.next (if_pos (by simp [ha, hi, hs]))

theorem clusterSleep_ignored {g : Nat} {s : State}
    (h : (clusterOf s g).idle = false ∨ (clusterOf s g).spareOp.isSome = true) : exec (.clusterSleep g) s = .next s := by
  refine congrArg Host.Outcome.next (if_neg ?_)
  rcases h with h | h
  · simp [h]
  · obtain ⟨x, hx⟩ := Option.isSome_iff_exists.mp h
    simp [hx]

theorem clusterOf_evCount (p src n : Nat) (s : State) : clusterOf (evCount p src n s) = clusterOf s :=
  clusterOf_congr (congrArg Boot.clusters (evCount_boot ..))

theorem evCount_bootOnly {s t : State} (p src n : Nat) (h : BootOnly s t) : BootOnly s (evCount p src n t) := by
  rw [BootOnly] at h
  rw [BootOnly, h]
  apply state_ext <;> simp

/-! ### Routes and sets (16 R606, R609, R624, R631) -/

theorem isMgmtPf_iff (fn : Nat) : isMgmtPf fn = true ↔ fn = 1 := beq_iff_eq

theorem exec_fabRtDataWrite (v : BitVec 32) (s : State) : exec (.fabRtDataWrite 1 v) s = .next (writeRoute v s) := rfl

/-- FAB_RT_SEL chooses the table that a write of FAB_RT_DATA lands in; the other table is as before (16 R606, R609). -/
theorem writeRoute_tables (v : BitVec 32) (s : State) :
    if s.fab.rtSel.getLsbD 14 then
      (writeRoute v s).fab.rtGroup = mset s.fab.rtGroup (s.fab.rtSel.toNat % 2 ^ 14) (v &&& 0x3FFF) ∧
        (writeRoute v s).fab.rtLocal = s.fab.rtLocal
    else (writeRoute v s).fab.rtLocal = mset s.fab.rtLocal (s.fab.rtSel.toNat % 2 ^ 14) (v &&& 0x3FFF) ∧
        (writeRoute v s).fab.rtGroup = s.fab.rtGroup := by
  split
  next h => exact ⟨by simp only [writeRoute, modFab, if_pos h], by simp only [writeRoute, modFab, if_pos h]⟩
  next h => exact ⟨by simp only [writeRoute, modFab, if_neg h], by simp only [writeRoute, modFab, if_neg h]⟩

theorem writeRoute_only (v : BitVec 32) (s : State) : writeRoute v s =
    { s with fab := { s.fab with rtGroup := (writeRoute v s).fab.rtGroup, rtLocal := (writeRoute v s).fab.rtLocal } } := by
  by_cases h : s.fab.rtSel.getLsbD 14 = true
  · simp only [writeRoute, modFab, if_pos h]
  · simp only [writeRoute, modFab, if_neg h]

theorem fabRtDataWrite_ignored {fn : Nat} (v : BitVec 32) (s : State) (hfn : fn ≠ 1) :
    exec (.fabRtDataWrite fn v) s = .next s :=
  congrArg Host.Outcome.next (if_neg fun h => hfn ((isMgmtPf_iff fn).mp h))

theorem exec_fabSetClear (s : State) : exec (.fabSetClear 1) s = .next (sizeSet 0 s) := rfl

/-- A set that is free to change is cleared: it has no members and no reductions counted, and every other set keeps its size
(16 R616, R631). -/
theorem sizeSet_zero_clears {s u : State} (hsel : selSet s ≠ 0) (hfree : setBusy s (selSet s) = false) (hu : u = sizeSet 0 s) :
    mget u.fab.setSizes (selSet s) = some 0 ∧ setMembersOf u (selSet s) = [] ∧
      (∀ j, j ≠ selSet s → mget u.fab.setSizes j = mget s.fab.setSizes j) ∧ mget u.fab.redCount (selSet s) = none ∧
      FabOnly s u := by
  obtain ⟨l, heq⟩ : ∃ l, sizeSet 0 s = modFab (fun f => { f with
      setSizes := mset f.setSizes (selSet s) 0, redCount := merase f.redCount (selSet s), setMembers := l }) s :=
    ⟨_, by simp only [sizeSet, hsel, hfree]; rfl⟩
  have hsize : mget u.fab.setSizes (selSet s) = some 0 := by
    rw [hu, heq]
    exact mget_mset_same _ _ _
  refine ⟨hsize, by simp [setMembersOf, mgetD, hsize], ?_, ?_, ?_⟩
  · intro j hj
    rw [hu, heq]
    exact mget_mset_other _ _ _ _ hj
  · rw [hu, heq]
    exact (mget_merase _ _ _).trans (if_pos rfl)
  · rw [hu, heq]
    rfl

/-- Another function clears no set, and neither set 0 nor a busy set is cleared (16 R624, R631). -/
theorem fabSetClear_ignored {fn : Nat} {s : State} (h : fn ≠ 1 ∨ selSet s = 0 ∨ setBusy s (selSet s) = true) :
    exec (.fabSetClear fn) s = .next s := by
  refine congrArg Host.Outcome.next ?_
  rcases h with h | h
  · exact if_neg fun hpf => h ((isMgmtPf_iff fn).mp hpf)
  · have hsize : sizeSet 0 s = s := if_pos (h.imp_right Or.inl)
    rw [hsize, ite_self]

/-- Settles O24: each register by its write by a function that may write it and by none, the windows by where the fields lie in
the bytes they latch. -/
theorem holdAndWindowRegisters : Obligations.hold_and_window_registers := by
  unfold Obligations.hold_and_window_registers
  refine ⟨?_, ?_, ?_, ?_, ?_, ?_, ?_, ?_, ?_, ?_, ?_⟩
  · exact fun fn v s hfn => exec_genHold v s hfn
  · exact fun fn v s hfn => exec_schedHold v s hfn
  · exact fun fn v s hfn => holdsAndWindows_ignored v s hfn
  · intro fn v s hfn
    refine ⟨_, exec_rtWinLatch v s hfn, windowBytes_length s _, fun hfree => windowBytes_free hfree, ?_, rfl⟩
    intro x hx
    simp only [windowBytes_taken hx]
    exact ⟨rd_entryBytes_state _ x, rd_entryBytes_tag _ x⟩
  · intro fn v s hfn
    exact ⟨_, exec_acctWinLatch v s hfn, rfl, acctWin_length s _, fun x hx => acctWin_fields hx,
      fun hnone hscrub => acctWin_absent hnone hscrub, rfl⟩
  · intro g s ha hi hs
    refine ⟨_, exec_clusterSleep ha hi hs, ?_, fun j hj => ?_, evCount_bootOnly 0 2 1 rfl⟩
    · exact (congrFun (clusterOf_evCount ..) g).trans (clusterOf_modCluster_same g _ s)
    · exact (congrFun (clusterOf_evCount ..) j).trans (clusterOf_modCluster_other hj _ s)
  · exact fun g s h => clusterSleep_ignored h
  · exact fun v s => ⟨_, exec_fabRtDataWrite v s, writeRoute_tables v s, writeRoute_only v s⟩
  · exact fun fn v s hfn => fabRtDataWrite_ignored v s hfn
  · intro s hsel hfree
    exact ⟨_, exec_fabSetClear s, sizeSet_zero_clears hsel hfree rfl⟩
  · exact fun fn s h => fabSetClear_ignored h

end Sys2Proof.Machine
end

section
/-! PROOFS. Reservations and steps formed: what a grant makes of its entry, and what the members, the record and the unit of a new
step are (10 R352, R361, R372, R386; 14 R528). -/

namespace Sys2Proof.Machine

/-! ### What is seen of the entries -/

/-- What is seen of each entry of the request table. -/
def entryViews {α : Type} (view : RtEntry → α) (s : State) (e : Nat) : Option α := (mget s.gen.entries e).map view

section
variable {α : Type} {view : RtEntry → α} {s u : State} {e : Nat}

theorem entryViews_congr (h : u.gen.entries = s.gen.entries) : entryViews view u = entryViews view s := by
  funext j
  rw [entryViews, entryViews, h]

/-- A change of one entry that its view does not show. -/
theorem entryViews_modEntry {f : RtEntry → RtEntry} (h : ∀ x, view (f x) = view x) :
    entryViews view (modEntry e f s) = entryViews view s := by
  funext j
  simp only [entryViews, mget_modEntry]
  split
  next hj => cases hx : mget s.gen.entries e <;> simp [hj, hx, h]
  next => rfl

theorem entryViews_modWork {f : Work → Work} (h : ∀ x, view { x with work := f x.work } = view x) :
    entryViews view (modWork e f s) = entryViews view s := entryViews_modEntry h

theorem entryViews_charge {c : Counters} (h : ∀ x c, view { x with ctr := c } = view x) :
    entryViews view (charge e c s) = entryViews view s :=
  (entryViews_congr (congrArg Gen.entries (charge_gen e c s))).trans (entryViews_modEntry fun x => h x _)

/-- An entry is still there, with the same view. -/
theorem exists_of_entryViews {x : RtEntry} (h : entryViews view u = entryViews view s) (hx : mget s.gen.entries e = some x) :
    ∃ y, mget u.gen.entries e = some y ∧ view y = view x := by
  have he : (mget u.gen.entries e).map view = some (view x) := (congrFun h e).trans (by rw [entryViews, hx, Option.map_some])
  exact Option.map_eq_some_iff.mp he

end

/-! ### RESERVATION_GRANT (10 R352) -/

/-- A charge touches the entries and the accounts alone (14 R543). -/
theorem charge_only (e : Nat) (c : Counters) (s : State) : ∃ l a, charge e c s =
    { s with gen := { s.gen with entries := l }, sched := { s.sched with accounts := a } } := by
  unfold charge
  split
  · exact ⟨_, _, rfl⟩
  · exact ⟨_, _, rfl⟩

theorem mget_charge_same {e : Nat} {x : RtEntry} {s : State} (c : Counters) (hx : mget s.gen.entries e = some x) :
    mget (charge e c s).gen.entries e = some { x with ctr := x.ctr.add c } := by
  rw [charge_gen]
  exact mget_modEntry_same _ hx

/-- An entry whose reservation is granted: it waits for a step, with pages reserved in its pools (10 R352). -/
def reserved (x y : RtEntry) : RtEntry :=
  { y with
    state := .wait, pagesRsvd := pagesNeeded x, draftRsvd := if x.draftLen = 0 then 0 else pagesNeeded x
    work := { y.work with since := 0 } }

section
variable {e : Nat} {x : RtEntry} {s : State}

theorem exec_reservationGrant (hx : mget s.gen.entries e = some x) (hs : x.state = .reserve) (hn : nextReserve s e x = true)
    (hg : canGrant s x = true) : exec (.reservationGrant e) s =
      .next (charge e { waitNs := now s - x.work.since } (modEntry e (reserved x) s)) := by
  have hx' : entryOf s e = some x := hx
  refine congrArg Host.Outcome.next ?_
  simp only [hx']
  exact if_pos ⟨hs, hn, hg⟩

/-- No pages are granted that the pools do not cover, and none before the request that is next (10 R352). -/
theorem reservationGrant_waits (hx : mget s.gen.entries e = some x) (h : canGrant s x = false ∨ nextReserve s e x = false) :
    exec (.reservationGrant e) s = .next s := by
  have hx' : entryOf s e = some x := hx
  refine congrArg Host.Outcome.next ?_
  simp only [hx']
  exact if_neg fun ⟨_, hn, hg⟩ => h.elim (fun h => Bool.false_ne_true (h.symm.trans hg)) fun h => Bool.false_ne_true (h.symm.trans hn)

end

/-! ### The members of a step (10 R361) -/

/-- Entries stay in the table, and those in a step stay in it. -/
def StaysInStep (s u : State) : Prop :=
  ∀ e x, mget s.gen.entries e = some x → ∃ y, mget u.gen.entries e = some y ∧ (x.state = .step → y.state = .step)

theorem StaysInStep.of_states {s u : State} (h : entryViews RtEntry.state u = entryViews RtEntry.state s) : StaysInStep s u := by
  intro e x hx
  obtain ⟨y, hy, hs⟩ := exists_of_entryViews h hx
  exact ⟨y, hy, hs.trans⟩

theorem StaysInStep.refl (s : State) : StaysInStep s s := .of_states rfl

theorem StaysInStep.trans {s t u : State} (h : StaysInStep s t) (k : StaysInStep t u) : StaysInStep s u := by
  intro e x hx
  obtain ⟨y, hy, hxy⟩ := h e x hx
  obtain ⟨z, hz, hyz⟩ := k e y hy
  exact ⟨z, hz, hyz ∘ hxy⟩

/-- An entry that joins a step. -/
theorem StaysInStep.joins (e : Nat) (s : State) : StaysInStep s (modEntry e (fun y => { y with state := .step }) s) := by
  intro j x hx
  rw [mget_modEntry]
  split
  next h =>
    subst h
    exact ⟨{ x with state := .step }, by rw [hx, Option.map_some], fun _ => rfl⟩
  next => exact ⟨x, hx, id⟩

/-- What takes a member charges its wait for stream space and reserves it, and leaves every entry's state (15 R566). -/
theorem memberCharged_states (e : Nat) (x : RtEntry) (s t : State) (h : entryViews RtEntry.state t = entryViews RtEntry.state s) :
    entryViews RtEntry.state (if x.work.since = 0 then t
      else charge e { waitNs := now s - x.work.since } (modWork e (fun w => { w with since := 0 }) t)) =
        entryViews RtEntry.state s := by
  split
  · exact h
  · exact (entryViews_charge fun _ _ => rfl).trans ((entryViews_modWork fun _ => rfl).trans h)

/-- Whoever is in a step stays in it while members are taken. -/
theorem takeMembers_staysInStep (es : List (Nat × RtEntry)) (slots room : Nat) (s : State) :
    StaysInStep s (takeMembers es slots room s).2 := by
  fun_induction takeMembers es slots room s with
  | case1 => exact .refl _
  | case2 => exact .refl _
  | case3 => exact .refl _
  | case4 _ _ _ _ _ _ _ _ _ _ _ _ ih => exact (StaysInStep.of_states (entryViews_modWork fun _ => rfl)).trans ih
  | case5 e x es slots room s _ pre d n _ _ s1 s2 r ih =>
    have hcharged : StaysInStep s s2 := .of_states (memberCharged_states e x s s1 rfl)
    exact (hcharged.trans (.joins e s2)).trans ih

/-- Each member taken is in the step. -/
theorem takeMembers_inStep (es : List (Nat × RtEntry)) (slots room : Nat) (s : State)
    (hes : ∀ p ∈ es, ∃ x, mget s.gen.entries p.1 = some x) : ∀ m ∈ (takeMembers es slots room s).1,
      ∃ x, mget (takeMembers es slots room s).2.gen.entries m.1 = some x ∧ x.state = .step := by
  fun_induction takeMembers es slots room s with
  | case1 => simp
  | case2 => simp
  | case3 => simp
  | case4 e x es slots room s _ pre d n _ _ ih =>
    refine ih fun p hp => ?_
    obtain ⟨y, hy⟩ := hes p (List.mem_cons_of_mem _ hp)
    obtain ⟨z, hz, -⟩ := exists_of_entryViews (view := RtEntry.state) (entryViews_modWork fun _ => rfl) hy
    exact ⟨z, hz⟩
  | case5 e x es slots room s _ pre d n _ _ s1 s2 r ih =>
    have hcharged : StaysInStep s s2 := .of_states (memberCharged_states e x s s1 rfl)
    intro m hm
    rcases List.mem_cons.mp hm with rfl | hm
    · obtain ⟨y, hy⟩ := hes (e, x) List.mem_cons_self
      obtain ⟨z, hz, -⟩ := hcharged e y hy
      obtain ⟨w, hw, hstep⟩ := takeMembers_staysInStep es (slots - 1) (room - n) _ e _ (mget_modEntry_same _ hz)
      exact ⟨w, hw, hstep rfl⟩
    · refine ih (fun p hp => ?_) m hm
      obtain ⟨y, hy⟩ := hes p (List.mem_cons_of_mem _ hp)
      obtain ⟨z, hz, -⟩ := (hcharged.trans (.joins e s2)) p.1 y hy
      exact ⟨z, hz⟩

theorem exists_mget_of_mem {α : Type} {m : Map α} {p : Nat × α} (h : p ∈ m) : ∃ v, mget m p.1 = some v := by
  induction m with
  | nil => simp at h
  | cons q m ih =>
    obtain ⟨j, v⟩ := q
    simp only [mget]
    split
    next => exact ⟨v, rfl⟩
    next hj =>
      rcases List.mem_cons.mp h with rfl | h
      · exact absurd rfl hj
      · exact ih h

/-! ### The pages of a step's positions (10 R351, R352) -/

theorem storeLines_only (l kind owner : Nat) (bs : List Bytes) (s : State) :
    ∃ m, storeLines l kind owner bs s = { s with mem := m } := by
  induction bs generalizing l s with
  | nil => exact ⟨_, rfl⟩
  | cons b bs ih => exact (ih _ _).imp fun _ h => h

theorem storePageList_only (e : Nat) (s : State) : ∃ m, storePageList e s = { s with mem := m } := by
  unfold storePageList
  split
  · exact storeLines_only _ _ _ _ s
  · exact ⟨_, rfl⟩

/-- Pages pass from a reservation to a list: entries, pools and page lists change, and no entry's state (10 R351, R352). -/
theorem listPages_effect (e pre d : Nat) (s : State) :
    (∃ l o m, listPages e pre d s = { s with gen := { s.gen with entries := l }, obj := o, mem := m }) ∧
      entryViews RtEntry.state (listPages e pre d s) = entryViews RtEntry.state s := by
  unfold listPages
  split
  · exact ⟨⟨_, _, _, rfl⟩, rfl⟩
  next x _ =>
    extract_lets last want r s1 wantD q
    obtain ⟨m, hstore⟩ := storePageList_only e s1
    refine ⟨?_, ?_⟩
    · simp only [q, hstore]
      exact ⟨_, _, _, rfl⟩
    · refine (entryViews_modEntry fun _ => by rfl).trans ?_
      have hdraw : entryViews RtEntry.state q.2 = entryViews RtEntry.state s1 := by
        simp only [q, hstore]
        rfl
      exact hdraw.trans (entryViews_modEntry fun _ => rfl)

/-- The members of a new step, as takeMembers gives them: entry, prefill positions, drafts. -/
abbrev Taking := List (Nat × Nat × Nat × Nat)

/-- The pages of all members' positions. -/
def listAll (ms : Taking) (s : State) : State := foldS ms (fun t m => listPages m.1 m.2.1 m.2.2.1 t) s

theorem listAll_effect (ms : Taking) (s : State) :
    (∃ l o m, listAll ms s = { s with gen := { s.gen with entries := l }, obj := o, mem := m }) ∧
      entryViews RtEntry.state (listAll ms s) = entryViews RtEntry.state s := by
  refine foldS_inv (fun t => (∃ l o m, t = { s with gen := { s.gen with entries := l }, obj := o, mem := m }) ∧
    entryViews RtEntry.state t = entryViews RtEntry.state s) _ _ _ ?_ ⟨⟨_, _, _, rfl⟩, rfl⟩
  rintro t m ⟨⟨l, o, n, rfl⟩, hviews⟩
  obtain ⟨⟨l', o', n', heq⟩, hkept⟩ := listPages_effect m.1 m.2.1 m.2.2.1
    { s with gen := { s.gen with entries := l }, obj := o, mem := n }
  exact ⟨⟨l', o', n', heq⟩, hkept.trans hviews⟩

/-! ### STEP_FORM (10 R361, R372, R386; 14 R528) -/

/-- A new unit has its kind and members and no slots yet; nothing but the scheduler's accounts and units differs (14 R528). -/
theorem newUnit_fresh (kind : UnitKind) (ms : List (Nat × Nat × Nat)) (prio image span sram dies : Nat) (s : State) :
    ∃ l y, y.kind = kind ∧ y.members = ms ∧ y.slots = [] ∧ (newUnit kind ms prio image span sram dies s).2 =
      { s with sched := { s.sched with
          accounts := l, nextUnit := s.sched.nextUnit + 1, units := mset s.sched.units s.sched.nextUnit y } } := by
  obtain ⟨l, y, hkind, heq⟩ := newUnit_only s kind ms prio image span sram dies
  have hmade : ∃ m n t, (newUnit kind ms prio image span sram dies s).2.sched.units = mset m n
      { kind := kind, members := ms, prio := prio, image := image, span := span, sram := sram, dieMask := dies, readyTime := t } ∧
      n = s.sched.nextUnit := ⟨_, _, _, rfl, rfl⟩
  obtain ⟨m, n, t, hmade, rfl⟩ := hmade
  rw [heq] at hmade
  have hget := congrArg (fun z => mget z s.sched.nextUnit) hmade
  simp only [mget_mset_same, Option.some.injEq] at hget
  subst hget
  exact ⟨l, _, rfl, rfl, rfl, heq⟩

/-- None is formed while the hold bit is set or a step of the image runs (10 R386). -/
theorem stepForm_held {image mask : Nat} {proofing : Bool} {s : State} (h : s.gen.hold = true ∨ stepInFlight s image = true) :
    exec (.stepForm image mask proofing) s = .next s := by
  refine congrArg Host.Outcome.next ?_
  unfold formStep
  split
  · rfl
  · exact if_pos (by simpa using h)

/-- The requests that may join a step: those of its image that wait, on its dies, at its service level (10 R361, 14 R526, 17 R642). -/
def stepGroup (image mask : Nat) (proofing : Bool) (v : State) : List (Nat × RtEntry) :=
  v.gen.entries.filter fun e => e.2.state == .wait && e.2.genImage == image && acctDies v e.2.account == mask &&
    e.2.work.proofing == proofing

/-- The members of a step's record. -/
def Taking.members (ms : Taking) : List StepMember := ms.map fun m => { entry := m.1, prefill := m.2.1, drafts := m.2.2.1 }

/-- The record of a new step (10 R361). -/
def newStep (image mask : Nat) (proofing : Bool) (ms : Taking) (unit : Nat) (t : State) : StepRec :=
  { image := image, dieMask := mask, proofing := proofing, unit := unit, formed := now t
    members := ms.members, jobs := stepJobs t image ms.members }

/-- A step is formed of the members taken: a unit of its jobs, its record under the next number, and its members' pages. -/
theorem formStep_forms {image mask : Nat} {proofing : Bool} {i : Image} {ms : Taking} {s v t : State}
    (hi : mget s.obj.images image = some i) (hh : s.gen.hold = false) (hf : stepInFlight s image = false)
    (hv : v = expire ((s.gen.entries.filter fun e => e.2.state == .wait && e.2.genImage == image).map Prod.fst) s)
    (ht : takeMembers (sortBy stepBefore (stepGroup image mask proofing v)) i.maxBatch i.maxStepTokens v = (ms, t))
    (hms : ms ≠ []) : ∃ kind mems prio job span sram, kind = UnitKind.step t.gen.nextStep ∧
      formStep image mask proofing s = listAll ms (modGen (fun g => { g with
        nextStep := t.gen.nextStep + 1
        steps := mset g.steps t.gen.nextStep (newStep image mask proofing ms t.sched.nextUnit t) })
        (newUnit kind mems prio job span sram mask t).2) := by
  obtain ⟨m, l, rfl⟩ := List.exists_cons_of_ne_nil hms
  rw [stepGroup] at ht
  simp only [formStep, hi, hh, hf, Bool.or_self, Bool.false_eq_true, if_false, ← hv, ht]
  exact ⟨_, _, _, _, _, _, rfl, rfl⟩

/-- What a step's forming leaves: its record, its unit, and its members in it. -/
theorem stepForm_effect {image mask : Nat} {proofing : Bool} {i : Image} {ms : Taking} {s v t u : State}
    (hi : mget s.obj.images image = some i) (hh : s.gen.hold = false) (hf : stepInFlight s image = false)
    (hv : v = expire ((s.gen.entries.filter fun e => e.2.state == .wait && e.2.genImage == image).map Prod.fst) s)
    (ht : takeMembers (sortBy stepBefore (stepGroup image mask proofing v)) i.maxBatch i.maxStepTokens v = (ms, t))
    (hms : ms ≠ []) (hu : u = formStep image mask proofing s) :
    mget u.gen.steps t.gen.nextStep = some (newStep image mask proofing ms t.sched.nextUnit t) ∧
      (∃ y, mget u.sched.units t.sched.nextUnit = some y ∧ y.kind = .step t.gen.nextStep ∧ y.slots = []) ∧
      (∀ m, m ∈ ms → ∃ x, mget u.gen.entries m.1 = some x ∧ x.state = .step) ∧ u.gen.nextStep = t.gen.nextStep + 1 := by
  obtain ⟨kind, mems, prio, job, span, sram, hkind, hform⟩ := formStep_forms hi hh hf hv ht hms
  obtain ⟨a, y, hy, -, hslots, hunit⟩ := newUnit_fresh kind mems prio job span sram mask t
  rw [hunit] at hform
  obtain ⟨⟨l, o, m, hlist⟩, hviews⟩ := listAll_effect ms (modGen (fun g => { g with
    nextStep := t.gen.nextStep + 1
    steps := mset g.steps t.gen.nextStep (newStep image mask proofing ms t.sched.nextUnit t) })
    { t with sched := { t.sched with
      accounts := a, nextUnit := t.sched.nextUnit + 1, units := mset t.sched.units t.sched.nextUnit y } })
  rw [← hform, ← hu] at hlist hviews
  have hgroup : ∀ p ∈ sortBy stepBefore (stepGroup image mask proofing v), ∃ x, mget v.gen.entries p.1 = some x :=
    fun p hp => exists_mget_of_mem (List.mem_filter.mp (mem_of_mem_sortBy hp)).1
  have hmembers := takeMembers_inStep _ i.maxBatch i.maxStepTokens v hgroup
  rw [ht] at hmembers
  refine ⟨?_, ⟨y, ?_, hy.trans hkind, hslots⟩, fun m hm => ?_, ?_⟩
  · rw [hlist]
    exact mget_mset_same _ _ _
  · rw [hlist]
    exact mget_mset_same _ _ _
  · obtain ⟨x, hx, hstep⟩ := hmembers m hm
    obtain ⟨z, hz, hstate⟩ := exists_of_entryViews hviews hx
    exact ⟨z, hz, hstate.trans hstep⟩
  · rw [hlist]
    rfl

/-- Settles O22: a grant by its charge and the entry it makes; a step by the members taken for it, each in STEP, and the one unit and
record that are made for them. -/
theorem reservationsAndSteps : Obligations.reservations_and_steps := by
  unfold Obligations.reservations_and_steps
  refine ⟨?_, ?_, ?_, ?_⟩
  · intro e x s hx hs hn hg
    obtain ⟨l, a, hcharge⟩ := charge_only e { waitNs := now s - x.work.since } (modEntry e (reserved x) s)
    have hothers := (modEntry_others e (reserved x) s).trans (charge_follows e { waitNs := now s - x.work.since } _).others
    exact ⟨_, _, exec_reservationGrant hx hs hn hg, mget_charge_same _ (mget_modEntry_same _ hx), rfl, rfl, rfl, rfl, rfl, rfl, rfl,
      hothers, by rw [hcharge]; rfl⟩
  · exact fun e x s hx h => reservationGrant_waits hx h
  · intro image mask proofing i ms s v t hi hh hf hv ht hms
    obtain ⟨hrec, ⟨y, hy, hkind, hslots⟩, hmembers, hnext⟩ := stepForm_effect hi hh hf hv ht hms rfl
    exact ⟨_, _, y, rfl, hrec, rfl, rfl, rfl, rfl, rfl, hy, hkind, hslots, hmembers, hnext⟩
  · exact fun image mask proofing s h => stepForm_held h

end Sys2Proof.Machine
end

section
/-! PROOFS. Commit points: what a commit books before and after its members' outcomes, what the outcome of one member makes of its
entry, how a request ends by it, and how a member with too large an extent ends (10 R363 to R384; 14 R539 to R543). -/

namespace Sys2Proof.Machine

/-! ### Charges, published rows and withdrawn lookups (10 R376; 14 R543, R545) -/

/-- An entry without its counters and the rows its step's jobs kept. -/
def RtEntry.unbooked (x : RtEntry) : RtEntry := { x with ctr := {}, work := { x.work with bufs := [] } }

/-- An entry with some counters and some kept rows. -/
def RtEntry.booked (c : Counters) (b : Map (List ERow)) (x : RtEntry) : RtEntry := { x with ctr := c, work := { x.work with bufs := b } }

theorem booked_of_unbooked {x y : RtEntry} (h : y.unbooked = x.unbooked) : y = x.booked y.ctr y.work.bufs :=
  calc y = y.unbooked.booked y.ctr y.work.bufs := rfl
    _ = x.unbooked.booked y.ctr y.work.bufs := by rw [h]
    _ = x.booked y.ctr y.work.bufs := rfl

/-- Nothing but entries, accounts and objects differs, and of an entry its counters and its kept rows alone. -/
structure BooksOnly (s u : State) : Prop where
  frame : ∃ l a o, u = { s with gen := { s.gen with entries := l }, sched := { s.sched with accounts := a }, obj := o }
  entries : entryViews RtEntry.unbooked u = entryViews RtEntry.unbooked s

theorem BooksOnly.refl (s : State) : BooksOnly s s := ⟨⟨_, _, _, rfl⟩, rfl⟩

theorem BooksOnly.trans {s t u : State} (h : BooksOnly s t) (k : BooksOnly t u) : BooksOnly s u := by
  obtain ⟨⟨l, a, o, ht⟩, hviews⟩ := h
  obtain ⟨⟨l', a', o', hu⟩, kviews⟩ := k
  exact ⟨⟨l', a', o', by rw [hu, ht]⟩, kviews.trans hviews⟩

theorem BooksOnly.foldS {α : Type} {l : List α} {f : State → α → State} (s : State) (h : ∀ t x, BooksOnly t (f t x)) :
    BooksOnly s (foldS l f s) := foldS_inv (BooksOnly s) l f s (fun t x ht => ht.trans (h t x)) (.refl s)

theorem BooksOnly.exists_booked {s u : State} {e : Nat} {x : RtEntry} (h : BooksOnly s u) (hx : mget s.gen.entries e = some x) :
    ∃ c b, mget u.gen.entries e = some (x.booked c b) := by
  obtain ⟨y, hy, hview⟩ := exists_of_entryViews h.entries hx
  exact ⟨_, _, by rw [hy, ← booked_of_unbooked hview]⟩

section
variable (s : State)

theorem charge_books (e : Nat) (c : Counters) : BooksOnly s (charge e c s) := by
  obtain ⟨l, a, h⟩ := charge_only e c s
  exact ⟨⟨l, a, s.obj, h⟩, entryViews_charge fun _ _ => rfl⟩

theorem chargeUnit_books (u : SUnit) (q : Nat) (mk : Nat → Counters) : BooksOnly s (chargeUnit u q mk s) :=
  .foldS s fun t _ => charge_books t _ _

theorem chargeReads_books (vs : List Verdict) (u : SUnit) (r : StepRec) : BooksOnly s (chargeReads vs u r s) := by
  refine .foldS s fun t x => ?_
  dsimp only
  split
  · exact charge_books t _ _
  · exact charge_books t _ _
  · exact chargeUnit_books t _ _ _

theorem settleReads_books (r : StepRec) : BooksOnly s (settleReads r s) := by
  unfold settleReads
  split
  · exact chargeReads_books s _ _ _
  · exact .refl s

theorem publishTensor_books (u : SUnit) (ps : List RowPos) (id : Nat) (t : TensorDesc) (v : Tensor) :
    BooksOnly s (publishTensor u ps id t v s) :=
  .foldS s fun _ _ => ⟨⟨_, _, _, rfl⟩, entryViews_modWork fun _ => by rfl⟩

theorem publishRows_books (u : SUnit) : BooksOnly s (publishRows u s) := by
  unfold publishRows
  split
  · refine .foldS s fun t v => ?_
    split
    · split
      · exact publishTensor_books t _ _ _ _ _
      · exact .refl t
    · exact .refl t
  · exact .refl s

theorem withdrawLooks_books (vs : List Verdict) (l : List Look) : BooksOnly s (withdrawLooks vs l s) :=
  .foldS s fun _ _ => ⟨⟨_, _, _, rfl⟩, rfl⟩

end

/-- What a commit books before its members' outcomes: kept rows, flash reads and withdrawn lookups (10 R376). -/
def stepBooked (r : StepRec) (s : State) : State :=
  withdrawLooks (r.members.flatMap (verdictOf s)) r.looks (match mget s.sched.units r.unit with
    | some u => chargeReads (r.members.flatMap (verdictOf s)) u r (publishRows u s)
    | none => s)

theorem stepBooked_books (r : StepRec) (s : State) : BooksOnly s (stepBooked r s) := by
  refine BooksOnly.trans ?_ (withdrawLooks_books _ _ _)
  split
  · exact (publishRows_books s _).trans (chargeReads_books _ _ _ _)
  · exact .refl s

/-! ### The course of a request (10 R346, R384) -/

/-- An entry without its counters, cancels, pages, baton, and what an end marks as answered. -/
def RtEntry.course (x : RtEntry) : RtEntry :=
  { x with
    ctr := {}, cancellers := [], pages := [], draftPages := [], pagesRsvd := 0, draftRsvd := 0, baton := 0, batonPages := 0
    work := { x.work with bufs := [], completed := false, pagesReturned := false, search := {} } }

/-- How far a request has come is the same in two entries. -/
structure SameCourse (x y : RtEntry) : Prop where
  state : y.state = x.state
  finish : y.finish = x.finish
  prefilled : y.prefilled = x.prefilled
  genLen : y.genLen = x.genLen
  stepSeq : y.stepSeq = x.stepSeq
  lastCommit : y.lastCommit = x.lastCommit
  cancelPending : y.cancelPending = x.cancelPending
  gen : y.work.gen = x.work.gen
  detail : y.work.detail = x.work.detail
  disabled : y.work.disabled = x.work.disabled

theorem SameCourse.of_course {x y : RtEntry} (h : y.course = x.course) : SameCourse x y := by
  have hpart {α : Type} (part : RtEntry → α) : part y.course = part x.course := congrArg part h
  exact ⟨hpart (·.state), hpart (·.finish), hpart (·.prefilled), hpart (·.genLen), hpart (·.stepSeq), hpart (·.lastCommit),
    hpart (·.cancelPending), hpart (·.work.gen), hpart (·.work.detail), hpart (·.work.disabled)⟩

theorem SameCourse.trans {x y z : RtEntry} (h : SameCourse x y) (k : SameCourse y z) : SameCourse x z :=
  ⟨k.state.trans h.state, k.finish.trans h.finish, k.prefilled.trans h.prefilled, k.genLen.trans h.genLen,
    k.stepSeq.trans h.stepSeq, k.lastCommit.trans h.lastCommit, k.cancelPending.trans h.cancelPending, k.gen.trans h.gen,
    k.detail.trans h.detail, k.disabled.trans h.disabled⟩

/-- Every entry's course. -/
abbrev courses (s : State) : Nat → Option RtEntry := entryViews RtEntry.course s

theorem exists_sameCourse {s u : State} {e : Nat} {x : RtEntry} (h : courses u = courses s) (hx : mget s.gen.entries e = some x) :
    ∃ y, mget u.gen.entries e = some y ∧ SameCourse x y := by
  obtain ⟨y, hy, hview⟩ := exists_of_entryViews h hx
  exact ⟨y, hy, .of_course hview⟩

theorem charge_courses (e : Nat) (c : Counters) (s : State) : courses (charge e c s) = courses s := entryViews_charge fun _ _ => rfl

/-! ### Pages and units given back (10 R384, 14 R528) -/

/-- Pages have returned: nothing but entries, batons, objects, memory lines and what has been freed differs, and no request's course. -/
structure ReturnsOnly (s u : State) : Prop where
  frame : ∃ l b o m f, u =
    { s with gen := { s.gen with entries := l, batons := b }, obj := o, mem := m, boot := { s.boot with freed := f } }
  courses : courses u = courses s

theorem ReturnsOnly.refl (s : State) : ReturnsOnly s s := ⟨⟨_, _, _, _, _, rfl⟩, rfl⟩

theorem ReturnsOnly.trans {s t u : State} (h : ReturnsOnly s t) (k : ReturnsOnly t u) : ReturnsOnly s u := by
  obtain ⟨⟨l, b, o, m, f, ht⟩, hviews⟩ := h
  obtain ⟨⟨l', b', o', m', f', hu⟩, kviews⟩ := k
  exact ⟨⟨l', b', o', m', f', by rw [hu, ht]⟩, kviews.trans hviews⟩

theorem ReturnsOnly.foldS {α : Type} {l : List α} {f : State → α → State} (s : State) (h : ∀ t x, ReturnsOnly t (f t x)) :
    ReturnsOnly s (foldS l f s) := foldS_inv (ReturnsOnly s) l f s (fun t x ht => ht.trans (h t x)) (.refl s)

/-- Batons may change with the pages they hold. -/
theorem ReturnsOnly.modBatons (f : Map Baton → Map Baton) (s : State) :
    ReturnsOnly s (modGen (fun g => { g with batons := f g.batons }) s) := ⟨⟨_, _, _, _, _, rfl⟩, rfl⟩

theorem ReturnsOnly.of_releases {k : Nat} {s u : State} (h : Releases k s u) : ReturnsOnly s u :=
  ⟨⟨_, _, _, _, _, h.only⟩, entryViews_congr (by rw [h.only])⟩

theorem returnPages_returns (h : Nat) (ps : List Nat) (s : State) : ReturnsOnly s (returnPages h ps s) :=
  .of_releases (returnPages_releases s 0 h ps)

theorem dropBaton_returns (k : Nat) (s : State) : ReturnsOnly s (dropBaton k s) := .of_releases (dropBaton_releases s 0 k)

theorem returnEntry_returns (e : Nat) (s : State) : ReturnsOnly s (returnEntry e s) := by
  unfold returnEntry
  split
  · exact .refl s
  next x _ =>
    split
    · exact .refl s
    · extract_lets list s1 s2 s3
      have hempty : ReturnsOnly s s1 := ⟨⟨_, _, _, _, _, rfl⟩, entryViews_modEntry (s := s) (e := e) (f := emptied) fun _ => by rfl⟩
      have hpages : ReturnsOnly s s3 := (hempty.trans (returnPages_returns _ _ _)).trans (returnPages_returns _ _ _)
      split
      · exact (hpages.trans (.modBatons (fun b => mupd b _ _) s3)).trans (dropBaton_returns _ _)
      · exact hpages

theorem freeSlots_only (n : Nat) (l : List (Nat × Nat)) (s : State) : ∃ b, freeSlots n l s = { s with boot := b } := by
  refine foldS_inv (fun t => ∃ b, t = { s with boot := b }) _ _ _ ?_ ⟨_, rfl⟩
  rintro t p ⟨b, rfl⟩
  exact ⟨_, rfl⟩

/-- A unit that ends is gone, and its slots are free: nothing but the units and the clusters differs (14 R528). -/
theorem endUnit_only (n : Nat) (s : State) : ∃ l b, mget l n = none ∧
    endUnit n s = { s with sched := { s.sched with units := l }, boot := b } := by
  unfold endUnit
  split
  next h => exact ⟨_, _, h, rfl⟩
  next u _ =>
    obtain ⟨b, hb⟩ := freeSlots_only n u.slots (modSched (fun d => { d with units := merase d.units n }) s)
    exact ⟨merase s.sched.units n, b, (mget_merase _ _ _).trans (if_pos rfl), hb⟩

/-! ### The end of a request, seen by its course (10 R347, R384) -/

/-- The steps in flight and the count of steps. -/
def stepsSeen (s : State) : Map StepRec × Nat := (s.gen.steps, s.gen.stepCount)

theorem stepsSeen_congr {s u : State} (h : u.gen = s.gen) : stepsSeen u = stepsSeen s := by rw [stepsSeen, stepsSeen, h]

theorem stepsSeen_modEntry (e : Nat) (f : RtEntry → RtEntry) (s : State) : stepsSeen (modEntry e f s) = stepsSeen s := rfl

theorem charge_steps (e : Nat) (c : Counters) (s : State) : stepsSeen (charge e c s) = stepsSeen s :=
  stepsSeen_congr (s := modEntry e _ s) (charge_gen e c s)

section
variable (e status detail stage result : Nat) (x : RtEntry) (s : State)

theorem chargeHeld_courses : courses (chargeHeld e x s) = courses s ∧ stepsSeen (chargeHeld e x s) = stepsSeen s := by
  unfold chargeHeld
  split
  · exact ⟨charge_courses _ _ _, charge_steps _ _ _⟩
  · exact ⟨rfl, rfl⟩

theorem openEnd_courses : courses (openEnd e status detail stage x s) = courses (markedEntry e status detail stage x s) ∧
    stepsSeen (openEnd e status detail stage x s) = stepsSeen s := by
  obtain ⟨hcourses, hsteps⟩ := chargeHeld_courses e x (markedEntry e status detail stage x s)
  refine ⟨?_, ?_⟩
  · exact (entryViews_congr (congrArg Gen.entries (evCount_gen ..))).trans ((charge_courses _ _ _).trans hcourses)
  · exact (stepsSeen_congr (evCount_gen ..)).trans ((charge_steps _ _ _).trans hsteps)

theorem endUnitsOf_courses : courses (endUnitsOf e s) = courses s ∧ stepsSeen (endUnitsOf e s) = stepsSeen s := by
  refine foldS_inv (fun t => courses t = courses s ∧ stepsSeen t = stepsSeen s) _ _ _ (fun t u ht => ?_) ⟨rfl, rfl⟩
  have hwait (q : Nat) : courses (chargeWait u.2 q t) = courses t ∧ stepsSeen (chargeWait u.2 q t) = stepsSeen t :=
    ⟨foldS_keeps courses _ _ _ fun _ _ => charge_courses _ _ _, foldS_keeps stepsSeen _ _ _ fun _ _ => charge_steps _ _ _⟩
  have hgen := endUnit_gen (n := u.1)
  refine ⟨(entryViews_congr (congrArg Gen.entries (hgen _))).trans ?_, (stepsSeen_congr (hgen _)).trans ?_⟩
  · split
    · exact (hwait _).1.trans ht.1
    · exact ht.1
  · split
    · exact (hwait _).2.trans ht.2
    · exact ht.2

theorem killEntry_courses : courses (killEntry e s) = courses s ∧ stepsSeen (killEntry e s) = stepsSeen s := by
  unfold killEntry
  split
  · exact ⟨(entryViews_modEntry fun _ => by rfl).trans (entryViews_congr (congrArg Gen.entries (killTag_gen ..))),
      (stepsSeen_modEntry ..).trans (stepsSeen_congr (killTag_gen ..))⟩
  · exact ⟨rfl, rfl⟩

/-- The last part of an end answers and gives back, and leaves the course the entry has come to. -/
theorem closeEnd_courses : courses (closeEnd e result x s) = courses s ∧ stepsSeen (closeEnd e result x s) = stepsSeen s := by
  obtain ⟨t, ht⟩ : ∃ t, t = finishCanceller e (sendUnpins e (completeEntry e result (killEntry e s))) := ⟨_, rfl⟩
  have hgen : t.gen = (modEntry e (fun x => { x with cancellers := [] })
      (modWork e (fun w => { w with completed := true }) (killEntry e s))).gen := by
    rw [ht, finishCanceller_gen]
    simp only [modEntry, modGen_gen, sendUnpins_gen, completeEntry_gen]
  obtain ⟨hcourses, hsteps⟩ := killEntry_courses e s
  have hanswered : courses t = courses s ∧ stepsSeen t = stepsSeen s :=
    ⟨(entryViews_congr (congrArg Gen.entries hgen)).trans
      ((entryViews_modEntry fun _ => by rfl).trans ((entryViews_modWork fun _ => by rfl).trans hcourses)),
      (stepsSeen_congr hgen).trans hsteps⟩
  have hclose : closeEnd e result x s = if stepInFlight t x.genImage && holdsPages x then t else returnEntry e t := by
    rw [ht]
    rfl
  rw [hclose]
  split
  · exact hanswered
  · obtain ⟨⟨l, b, o, m, f, hreturn⟩, hviews⟩ := returnEntry_returns e t
    exact ⟨hviews.trans hanswered.1, by rw [hreturn]; exact hanswered.2⟩

/-- The end of a request leaves the steps in flight. -/
theorem endEntry_steps : stepsSeen (endEntry e status detail stage result s) = stepsSeen s := by
  cases hx : mget s.gen.entries e with
  | none => simp [endEntry, entryOf, hx]
  | some x =>
    by_cases hs : x.state = .drain
    · simp [endEntry, entryOf, hx, hs]
    · rw [endEntry_eq status detail stage result hx hs, (closeEnd_courses ..).2, (endUnitsOf_courses ..).2, (openEnd_courses ..).2]

end

/-- A request that ends has come as far as it had, and is marked with how it ended (10 R347). -/
theorem endEntry_course {e : Nat} {x : RtEntry} {s : State} (status detail stage result : Nat)
    (hx : mget s.gen.entries e = some x) (hs : x.state ≠ .drain) (hd : x.work.disabled = false) :
    ∃ y at_ held, mget (endEntry e status detail stage result s).gen.entries e = some y ∧
      SameCourse (markEnded status held detail stage at_ x) y := by
  have hcourses : courses (endEntry e status detail stage result s) = courses (markedEntry e status detail stage x s) := by
    rw [endEntry_eq status detail stage result hx hs, (closeEnd_courses ..).1, (endUnitsOf_courses ..).1, (openEnd_courses ..).1]
  obtain ⟨y, hy, hsame⟩ := exists_sameCourse hcourses (mget_modEntry_same _ hx)
  have hfin : endFinish x status = status := by simp [endFinish, hd]
  rw [hfin] at hsame
  exact ⟨y, _, _, hy, hsame⟩

/-! ### The outcome of one member (10 R363 to R376) -/

/-- A member leaves its step: its prefill is charged, its stream space is given back, and it waits again. -/
def leftStep (m : StepMember) (x : RtEntry) (s : State) : State :=
  modEntry m.entry (fun y => { y with lastCommit := now s, state := .wait })
    (modQp x.qp (fun q => { q with stReserved := q.stReserved - stepReserve }) (charge m.entry { tokensIn := m.prefill } s))

/-- A member that no finish is forced on has the positions of its chunk prefilled (10 R363). -/
def prefilledStep (m : StepMember) (x : RtEntry) (r : StepRec) (s : State) : State :=
  let s2 := modEntry m.entry (fun y => { y with prefilled := y.prefilled + m.prefill, draftFilled := lastPlain x m + 1 }) (leftStep m x s)
  if m.prefill ≠ 0 then
    modWork m.entry (fun w => { w with
      degradedNext := w.degradedNext || r.late.any fun p => p.1 == m.entry && decide (p.2 ≤ lastPlain x m) }) s2
  else s2

/-- The entry of a member whose chunk has been prefilled. -/
def prefilledEntry (m : StepMember) (at_ : Nat) (c : Counters) (degraded : Bool) (last : Nat) (x : RtEntry) : RtEntry :=
  { x with
    ctr := c, lastCommit := at_, state := .wait, prefilled := x.prefilled + m.prefill, draftFilled := last + 1
    work := { x.work with degradedNext := degraded } }

section
variable {m : StepMember} {r : StepRec} {x : RtEntry} {s : State}

theorem commitMember_forced {f : Nat} (hx : mget s.gen.entries m.entry = some x) (hs : x.state = .step)
    (hf : forcedFinish s x = some f) : commitMember m r s = (some f, leftStep m x s) := by
  have hx' : entryOf s m.entry = some x := hx
  have hs' : ¬ x.state ≠ .step := not_not_intro hs
  simp only [commitMember, hx', if_neg hs', hf]
  rfl

theorem mget_leftStep (hx : mget s.gen.entries m.entry = some x) : ∃ c,
    mget (leftStep m x s).gen.entries m.entry = some { x with ctr := c, lastCommit := now s, state := .wait } := by
  refine ⟨_, mget_modEntry_same _ (x := { x with ctr := x.ctr.add { tokensIn := m.prefill } }) ?_⟩
  exact mget_charge_same _ hx

theorem mget_prefilledStep (r : StepRec) (hx : mget s.gen.entries m.entry = some x) : ∃ c d,
    mget (prefilledStep m x r s).gen.entries m.entry = some (prefilledEntry m (now s) c d (lastPlain x m) x) := by
  obtain ⟨c, hleft⟩ := mget_leftStep hx
  unfold prefilledStep
  dsimp only
  split
  · exact ⟨c, _, mget_modEntry_same _ (mget_modEntry_same _ hleft)⟩
  · exact ⟨c, x.work.degradedNext, mget_modEntry_same _ hleft⟩

/-- A member that yields no token goes on with its prefill (10 R363). -/
theorem commitMember_prefills (hx : mget s.gen.entries m.entry = some x) (hs : x.state = .step) (hf : forcedFinish s x = none)
    (hno : (yieldsToken x m && !m.tokens.isEmpty) = false) : commitMember m r s = (none, prefilledStep m x r s) := by
  have hx' : entryOf s m.entry = some x := hx
  have hs' : ¬ x.state ≠ .step := not_not_intro hs
  simp only [commitMember, hx', if_neg hs', hf, hno]
  rfl

/-- A member that yields tokens delivers them (10 R372, R374). -/
theorem commitMember_delivers {y : RtEntry} (hx : mget s.gen.entries m.entry = some x) (hs : x.state = .step)
    (hf : forcedFinish s x = none) (hyes : (yieldsToken x m && !m.tokens.isEmpty) = true)
    (hy : mget (prefilledStep m x r s).gen.entries m.entry = some y) :
    commitMember m r s = commitTokens m.entry y m (lastPlain x m) r (prefilledStep m x r s) := by
  have hx' : entryOf s m.entry = some x := hx
  have hs' : ¬ x.state ≠ .step := not_not_intro hs
  have hy' : entryOf (prefilledStep m x r s) m.entry = some y := hy
  simp only [prefilledStep, leftStep] at hy' ⊢
  simp only [commitMember, hx', if_neg hs', hf, hyes, if_true, hy']

/-- A member's prefill changes entries, accounts and the stream space of its queue pair. -/
theorem prefilledStep_only (m : StepMember) (x : RtEntry) (r : StepRec) (s : State) : ∃ l a, prefilledStep m x r s =
    { s with
      gen := { s.gen with entries := l }, sched := { s.sched with accounts := a }
      hif := { s.hif with qps := mmod s.hif.qps x.qp {} fun q => { q with stReserved := q.stReserved - stepReserve } } } := by
  obtain ⟨l, a, hcharge⟩ := charge_only m.entry { tokensIn := m.prefill } s
  unfold prefilledStep leftStep
  rw [hcharge]
  dsimp only
  split
  · exact ⟨_, _, rfl⟩
  · exact ⟨_, _, rfl⟩

theorem leftStep_steps (m : StepMember) (x : RtEntry) (s : State) : stepsSeen (leftStep m x s) = stepsSeen s :=
  charge_steps m.entry _ s

theorem prefilledStep_steps (m : StepMember) (x : RtEntry) (r : StepRec) (s : State) :
    stepsSeen (prefilledStep m x r s) = stepsSeen s := by
  obtain ⟨l, a, h⟩ := prefilledStep_only m x r s
  rw [h]
  rfl

end

/-! ### Delivered tokens (10 R372, R374) -/

/-- A baton is made of batons, their issues, and the baton fields of its request (10 R355 to R357). -/
theorem createBaton_effect (e : Nat) (s : State) : (∃ l b i, (createBaton e s).2 =
    { s with gen := { s.gen with entries := l, batons := b, batonIssues := i } }) ∧ courses (createBaton e s).2 = courses s := by
  unfold createBaton
  split
  · exact ⟨⟨_, _, _, rfl⟩, rfl⟩
  · split
    · exact ⟨⟨_, _, _, rfl⟩, rfl⟩
    · exact ⟨⟨_, _, _, rfl⟩, entryViews_modEntry fun _ => by rfl⟩

theorem streamWrite_gen (q : Nat) (b : Bytes) (s : State) : (streamWrite q b s).gen = s.gen := by
  unfold streamWrite
  dsimp only
  split <;> simp

/-- What the verified tokens of a member deliver (10 R372, R374). -/
def deliveryOf (tk : Tokenizer) (y : RtEntry) (m : StepMember) : Delivery :=
  deliverTokens tk y.stop y.maxNew y.genLen (m.tokens.take (accepted m.tokens (m.proposed.take m.drafts) + 1))
    ⟨y.work.out, y.work.rel, y.work.tail, y.work.invalidOut, none⟩

/-- A request to which tokens have been delivered. -/
structure Delivered (dv : Delivery) (y z : RtEntry) : Prop where
  state : z.state = y.state
  prefilled : z.prefilled = y.prefilled
  lastCommit : z.lastCommit = y.lastCommit
  cancelPending : z.cancelPending = y.cancelPending
  genLen : z.genLen = y.genLen + dv.ids.length
  gen : z.work.gen = y.work.gen ++ dv.ids
  stepSeq : z.stepSeq = y.stepSeq + 1

/-- Delivery adds the tokens to its request and to GEN_TOKENS, and leaves the steps. -/
theorem commitTokens_effect {e : Nat} {y : RtEntry} {m : StepMember} {last : Nat} {r : StepRec} {s : State} {tk : Tokenizer}
    (hy : mget s.gen.entries e = some y) (htk : y.work.tokenizer = some tk) : ∃ t z,
      commitTokens e y m last r s = ((deliveryOf tk y m).finish, t) ∧ mget t.gen.entries e = some z ∧
      Delivered (deliveryOf tk y m) y z ∧ t.gen.tokens = s.gen.tokens + (deliveryOf tk y m).ids.length ∧
      stepsSeen t = stepsSeen s := by
  obtain ⟨p, hp⟩ : ∃ p, p = commitTokens e y m last r s := ⟨_, rfl⟩
  rw [← hp]
  unfold commitTokens at hp
  split at hp
  next hnone => exact absurd (htk.symm.trans hnone) (Option.some_ne_none tk)
  next tk' hsome =>
  obtain rfl : tk = tk' := Option.some.inj (htk.symm.trans hsome)
  extract_lets drafts a d0 dv n rejected fs deg nd s1 s2 wantB cb rec_ s4 s5 s6 s7 at hp
  obtain ⟨t, ht⟩ : ∃ t, t = evCount 3 7 nd (evCount 3 6 fs (evCount 3 5 rejected (evCount 3 4 n s7))) := ⟨_, rfl⟩
  have hgen : t.gen = { cb.2.gen with
      tokens := cb.2.gen.tokens + n, draftRejected := cb.2.gen.draftRejected + rejected
      falseStarts := cb.2.gen.falseStarts + fs, degraded := cb.2.gen.degraded + nd } := by
    simp [ht, s7, s6, s5, s4, streamWrite_gen]
  have hbaton : (∃ l b i, cb.2 = { s2 with gen := { s2.gen with entries := l, batons := b, batonIssues := i } }) ∧
      courses cb.2 = courses s2 := by
    simp only [cb]
    split
    · exact createBaton_effect e s2
    · exact ⟨⟨_, _, _, rfl⟩, rfl⟩
  obtain ⟨⟨l, b, i, hcb⟩, hviews⟩ := hbaton
  have hcourses : courses t = courses s1 :=
    (entryViews_congr (by rw [hgen])).trans (hviews.trans (charge_courses e _ s1))
  obtain ⟨z, hz, hsame⟩ := exists_sameCourse hcourses (mget_modEntry_same _ hy)
  have hcharged : s2.gen.tokens = s.gen.tokens ∧ stepsSeen s2 = stepsSeen s :=
    ⟨(congrArg Gen.tokens (charge_gen ..)).trans rfl, charge_steps e _ s1⟩
  refine ⟨t, z, hp.trans (by rw [ht]; rfl), hz,
    ⟨hsame.state, hsame.prefilled, hsame.lastCommit, hsame.cancelPending, hsame.genLen, hsame.gen,
    hsame.stepSeq⟩, ?_, ?_⟩
  · rw [hgen, hcb]
    exact congrArg (· + n) hcharged.1
  · rw [stepsSeen, hgen, hcb]
    exact hcharged.2

theorem commitTokens_steps (e : Nat) (y : RtEntry) (m : StepMember) (last : Nat) (r : StepRec) (s : State)
    (hy : mget s.gen.entries e = some y) : stepsSeen (commitTokens e y m last r s).2 = stepsSeen s := by
  cases htk : y.work.tokenizer with
  | none => simp only [commitTokens, htk]
  | some tk =>
    obtain ⟨t, z, heq, -, -, -, hsteps⟩ := commitTokens_effect (m := m) (last := last) (r := r) hy htk
    rw [heq]
    exact hsteps

/-! ### The outcome of all members, and their ends (10 R363, R364, R379) -/

theorem commitMember_steps (m : StepMember) (r : StepRec) (s : State) : stepsSeen (commitMember m r s).2 = stepsSeen s := by
  cases hx : mget s.gen.entries m.entry with
  | none => simp [commitMember, entryOf, hx]
  | some x =>
    by_cases hs : x.state = .step
    · cases hf : forcedFinish s x with
      | some f => rw [commitMember_forced hx hs hf, leftStep_steps]
      | none =>
        cases hyields : yieldsToken x m && !m.tokens.isEmpty with
        | false => rw [commitMember_prefills hx hs hf hyields, prefilledStep_steps]
        | true =>
          obtain ⟨c, d, hy⟩ := mget_prefilledStep (m := m) r hx
          rw [commitMember_delivers hx hs hf hyields hy, commitTokens_steps _ _ _ _ _ _ hy, prefilledStep_steps]
    · simp [commitMember, entryOf, hx, hs, stepsSeen]

theorem commitAll_steps (r : StepRec) (ms : List StepMember) (s : State) : stepsSeen (commitAll r ms s).2 = stepsSeen s := by
  induction ms generalizing s with
  | nil => rfl
  | cons m ms ih =>
    have hrest := (ih (commitMember m r s).2).trans (commitMember_steps m r s)
    simp only [commitAll]
    split <;> exact hrest

/-- The records that were written are announced, the members that the commit finished end, and those cancelled in its cycle
end CANCELLED (10 R364, R379; 15 R565). -/
def membersEnded (r : StepRec) (fins : List (Nat × Nat)) (s t : State) : State :=
  foldS (r.members.filter fun m => !fins.any fun f => f.1 == m.entry) (fun t m => cancelAfter m.entry t)
    (foldS fins (fun t f => match entryOf t f.1 with
      | some x => endEntry f.1 f.2 0 (if f.2 = Status.stop ∨ f.2 = Status.eos ∨ f.2 = Status.length then 13 else 12) x.genLen
          (lateCancels f.1 t)
      | none => t)
      (foldS (wroteQps s t r.members) (fun t q => writeBack q t) t))

/-- The step and its unit are gone, and the pages of the image's ended requests return (10 R363, R384; 18 R685). -/
def stepClosed (k : Nat) (r : StepRec) (accts : List Nat) (t : State) : State :=
  let s3 := endUnit r.unit (modGen (fun g => { g with steps := merase g.steps k, stepCount := g.stepCount + 1 })
    (modMem (fun m => { m with pendingFills := m.pendingFills.filter fun p => !accts.contains p.1 }) t))
  foldS ((s3.gen.entries.filter fun e => e.2.state == .drain && e.2.genImage == r.image).map Prod.fst)
    (fun t e => returnEntry e t) (evCount 3 3 1 s3)

section
variable {k : Nat} {r : StepRec} {s : State}

/-- A commit books, decides its members' outcomes, ends those it finishes, and closes its step. -/
theorem exec_stepCommit (hr : mget s.gen.steps k = some r) (hd : stepDone s r = true) : ∃ accts, exec (.stepCommit k) s =
    .next (stepClosed k r accts (membersEnded r (commitAll r r.members (stepBooked r s)).1 s
      (commitAll r r.members (stepBooked r s)).2)) := by
  refine ⟨r.members.filterMap fun m => (entryOf s m.entry).map (·.account), congrArg Host.Outcome.next ?_⟩
  simp only [commitStep, hr, hd, Bool.not_true, Bool.false_eq_true, if_false]
  rfl

theorem stepCommit_waits (hr : mget s.gen.steps k = some r) (hd : stepDone s r = false) : exec (.stepCommit k) s = .next s := by
  refine congrArg Host.Outcome.next ?_
  simp only [commitStep, hr, hd, Bool.not_false, if_true]

end

theorem lateCancels_gen (e : Nat) (s : State) : (lateCancels e s).gen = (modEntry e (fun y => { y with
    cancellers := y.cancellers.filter fun c => decide (c.2.2.2 < s.boot.cycles)
    cancelPending := cancelledBefore s y }) s).gen := by
  unfold lateCancels
  split
  next h => rw [modEntry_of_none h]
  next => exact foldS_keeps (fun t => t.gen) _ _ _ fun t _ => complete_gen _ _ t

theorem lateCancels_steps (e : Nat) (s : State) : stepsSeen (lateCancels e s) = stepsSeen s :=
  stepsSeen_congr (s := modEntry e _ s) (lateCancels_gen e s)

theorem membersEnded_steps (r : StepRec) (fins : List (Nat × Nat)) (s t : State) :
    stepsSeen (membersEnded r fins s t) = stepsSeen t := by
  refine (foldS_keeps stepsSeen _ _ _ fun z m => ?_).trans ((foldS_keeps stepsSeen _ _ _ fun z f => ?_).trans
    (foldS_keeps stepsSeen _ _ _ fun z q => stepsSeen_congr (dmaWrite_gen ..)))
  · unfold cancelAfter
    split
    · split
      · exact endEntry_steps ..
      · rfl
    · rfl
  · split
    · exact (endEntry_steps ..).trans (lateCancels_steps ..)
    · rfl

/-- Closing a step erases it and its unit, counts it, and leaves every request's course, the tokens and host memory. -/
theorem stepClosed_effect (k : Nat) (r : StepRec) (accts : List Nat) (t : State) :
    (∃ l b, (stepClosed k r accts t).gen =
      { t.gen with entries := l, batons := b, steps := merase t.gen.steps k, stepCount := t.gen.stepCount + 1 }) ∧
    mget (stepClosed k r accts t).sched.units r.unit = none ∧ (stepClosed k r accts t).hif.hostMem = t.hif.hostMem ∧
    courses (stepClosed k r accts t) = courses t := by
  unfold stepClosed
  extract_lets s3
  obtain ⟨l, b, hgone, hunit⟩ := endUnit_only r.unit
    (modGen (fun g => { g with steps := merase g.steps k, stepCount := g.stepCount + 1 })
    (modMem (fun m => { m with pendingFills := m.pendingFills.filter fun p => !accts.contains p.1 }) t))
  have hs3 : s3 = _ := hunit
  obtain ⟨⟨l', b', o, m, f, hreturn⟩, hviews⟩ := ReturnsOnly.foldS
    (l := (s3.gen.entries.filter fun e => e.2.state == .drain && e.2.genImage == r.image).map Prod.fst)
    (evCount 3 3 1 s3) (fun t e => returnEntry_returns e t)
  refine ⟨?_, ?_, ?_, ?_⟩
  · rw [hreturn]
    simp only [evCount_gen, hs3]
    exact ⟨_, _, rfl⟩
  · rw [hreturn]
    simp only [evCount_sched, hs3]
    exact hgone
  · rw [hreturn]
    simp only [evCount_hif_hostMem, hs3]
    rfl
  · refine hviews.trans (entryViews_congr ?_)
    simp only [evCount_gen, hs3]
    rfl

/-! ### The commit of a step of one member -/

/-- A step of one member at its commit point, and the member's entry in it (10 R363). -/
structure CommitsOne (k : Nat) (r : StepRec) (m : StepMember) (x : RtEntry) (s : State) : Prop where
  step : mget s.gen.steps k = some r
  done : stepDone s r = true
  members : r.members = [m]
  entry : mget s.gen.entries m.entry = some x
  state : x.state = .step

section
variable {k : Nat} {r : StepRec} {m : StepMember} {x : RtEntry} {s : State}

/-- What is booked before a member's outcome changes nothing that decides it. -/
theorem CommitsOne.booked (h : CommitsOne k r m x s) : ∃ c b, mget (stepBooked r s).gen.entries m.entry = some (x.booked c b) ∧
    forcedFinish (stepBooked r s) (x.booked c b) = forcedFinish s x ∧ now (stepBooked r s) = now s ∧
    (stepBooked r s).hif = s.hif ∧ (stepBooked r s).gen.tokens = s.gen.tokens := by
  have hbooks := stepBooked_books r s
  obtain ⟨c, b, hx⟩ := hbooks.exists_booked h.entry
  obtain ⟨l, a, o, hframe⟩ := hbooks.frame
  exact ⟨c, b, hx, by rw [hframe]; rfl, by rw [hframe]; rfl, by rw [hframe], by rw [hframe]⟩

theorem commitAll_one (r : StepRec) (m : StepMember) (s : State) : commitAll r [m] s =
    (((commitMember m r s).1.map fun f => (m.entry, f)).toList, (commitMember m r s).2) := by
  simp only [commitAll]
  split
  next f hf => simp [hf]
  next hf => simp [hf]

/-- The commit of one member is its outcome, its end where it has a finish, and the close of the step. -/
theorem CommitsOne.exec_eq (h : CommitsOne k r m x s) {fin : Option Nat} {t : State}
    (hm : commitMember m r (stepBooked r s) = (fin, t)) : ∃ accts, exec (.stepCommit k) s =
      .next (stepClosed k r accts (membersEnded r (fin.map fun f => (m.entry, f)).toList s t)) := by
  obtain ⟨accts, hexec⟩ := exec_stepCommit h.step h.done
  rw [h.members, commitAll_one, hm] at hexec
  exact ⟨accts, hexec⟩

theorem cancelAfter_waits {e : Nat} {z : RtEntry} {t : State} (hz : mget t.gen.entries e = some z) (hc : z.cancelPending = false) :
    cancelAfter e t = t := by
  have hz' : entryOf t e = some z := hz
  simp [cancelAfter, hz', hc]

/-- A member with no finish that waits and has no cancel accepted does not end; what it wrote is announced. -/
theorem CommitsOne.notEnded (h : CommitsOne k r m x s) {t : State} {z : RtEntry} (hz : mget t.gen.entries m.entry = some z)
    (hc : z.cancelPending = false) :
    membersEnded r [] s t = foldS (wroteQps s t [m]) (fun t q => writeBack q t) t := by
  obtain ⟨w, hw⟩ : ∃ w, w = foldS (wroteQps s t [m]) (fun t q => writeBack q t) t := ⟨_, rfl⟩
  have hgen : w.gen = t.gen := by
    rw [hw]
    exact foldS_keeps (fun t => t.gen) _ _ _ fun z q => dmaWrite_gen ..
  have hcancel : cancelAfter m.entry w = w := cancelAfter_waits (by rw [hgen, hz]) hc
  simp only [membersEnded, h.members, ← hw]
  exact hcancel

theorem CommitsOne.notEnded_gen (h : CommitsOne k r m x s) {t : State} {z : RtEntry} (hz : mget t.gen.entries m.entry = some z)
    (hc : z.cancelPending = false) : (membersEnded r [] s t).gen = t.gen := by
  rw [h.notEnded hz hc]
  exact foldS_keeps (fun t => t.gen) _ _ _ fun z q => dmaWrite_gen ..

/-- No record is announced where none was written (15 R565). -/
theorem wroteQps_of_same {s t : State} (h : ∀ q, (qpOf s q).produced = (qpOf t q).produced) (ms : List StepMember) :
    wroteQps s t ms = [] := by
  rw [wroteQps]
  generalize ms.filterMap _ = qs
  induction qs with
  | nil => rfl
  | cons q qs ih =>
    rw [List.foldl_cons, if_neg (not_not_intro (h q))]
    exact ih

theorem prefilledStep_produced (m : StepMember) (x : RtEntry) (r : StepRec) (s : State) (q : Nat) :
    (qpOf (prefilledStep m x r s) q).produced = (qpOf s q).produced := by
  obtain ⟨l, a, h⟩ := prefilledStep_only m x r s
  rw [h]
  by_cases hq : q = x.qp
  · subst hq
    simp [qpOf]
  · simp [qpOf, mgetD_mmod_other _ _ _ _ _ _ hq]

/-- A member whose prompt is not through waits again, with its chunk counted; host memory is as before (10 R363). -/
theorem CommitsOne.prefills (h : CommitsOne k r m x s) (hf : forcedFinish s x = none) (hc : x.cancelPending = false)
    (hp : x.prefilled + m.prefill < x.promptLen) :
    ∃ u y, exec (.stepCommit k) s = .next u ∧ mget u.gen.entries m.entry = some y ∧ y.state = .wait ∧
      y.prefilled = x.prefilled + m.prefill ∧ y.lastCommit = now s ∧ y.genLen = x.genLen ∧ y.stepSeq = x.stepSeq ∧
      u.hif.hostMem = s.hif.hostMem := by
  obtain ⟨c, b, hx, hforced, hnow, hhif, -⟩ := h.booked
  have hyields : (yieldsToken (x.booked c b) m && !m.tokens.isEmpty) = false := by
    have hno : yieldsToken (x.booked c b) m = false := decide_eq_false (Nat.not_le.mpr hp)
    rw [hno, Bool.false_and]
  obtain ⟨accts, hexec⟩ := h.exec_eq (commitMember_prefills (r := r) hx h.state (hforced.trans hf) hyields)
  obtain ⟨c', d, hz⟩ := mget_prefilledStep (m := m) r hx
  have hquiet : wroteQps s (prefilledStep m (x.booked c b) r (stepBooked r s)) [m] = [] :=
    wroteQps_of_same (fun q => by rw [prefilledStep_produced, qpOf, qpOf, hhif]) _
  have hend : membersEnded r [] s (prefilledStep m (x.booked c b) r (stepBooked r s)) =
      prefilledStep m (x.booked c b) r (stepBooked r s) := by
    rw [h.notEnded hz hc, hquiet, foldS_nil]
  obtain ⟨-, -, hmem, hcourses⟩ := stepClosed_effect k r accts (prefilledStep m (x.booked c b) r (stepBooked r s))
  obtain ⟨y, hy, hsame⟩ := exists_sameCourse hcourses hz
  obtain ⟨l, a, honly⟩ := prefilledStep_only m (x.booked c b) r (stepBooked r s)
  refine ⟨_, y, hexec.trans (congrArg _ (congrArg _ hend)), hy, hsame.state, hsame.prefilled, hsame.lastCommit.trans hnow, hsame.genLen,
    hsame.stepSeq, hmem.trans ?_⟩
  rw [honly, hhif]

/-- A member that yields tokens and is not finished by them delivers them and waits again (10 R372, R374). -/
theorem CommitsOne.delivers (h : CommitsOne k r m x s) {tk : Tokenizer} (hf : forcedFinish s x = none)
    (hc : x.cancelPending = false) (hp : x.promptLen ≤ x.prefilled + m.prefill) (ht : m.tokens ≠ [])
    (htk : x.work.tokenizer = some tk) (hfin : (deliveryOf tk x m).finish = none) :
    ∃ u y, exec (.stepCommit k) s = .next u ∧ mget u.gen.entries m.entry = some y ∧ y.state = .wait ∧ y.lastCommit = now s ∧
      y.prefilled = x.prefilled + m.prefill ∧ y.genLen = x.genLen + (deliveryOf tk x m).ids.length ∧
      y.work.gen = x.work.gen ++ (deliveryOf tk x m).ids ∧ y.stepSeq = x.stepSeq + 1 ∧
      u.gen.tokens = s.gen.tokens + (deliveryOf tk x m).ids.length := by
  obtain ⟨c, b, hx, hforced, hnow, -, htokens⟩ := h.booked
  obtain ⟨c', d, hy⟩ := mget_prefilledStep (m := m) r hx
  obtain ⟨t, z, hcommit, hz, hdel, hcount, -⟩ := commitTokens_effect (m := m) (last := lastPlain (x.booked c b) m) (r := r) hy htk
  have hyields : (yieldsToken (x.booked c b) m && !m.tokens.isEmpty) = true := by
    have hyes : yieldsToken (x.booked c b) m = true := decide_eq_true hp
    rw [hyes, Bool.true_and, Bool.not_eq_true', List.isEmpty_eq_false_iff]
    exact ht
  have hm : commitMember m r (stepBooked r s) = (none, t) :=
    (commitMember_delivers hx h.state (hforced.trans hf) hyields hy).trans (hcommit.trans (congrArg (·, t) hfin))
  obtain ⟨accts, hexec⟩ := h.exec_eq hm
  have hgen := h.notEnded_gen hz (hdel.cancelPending.trans hc)
  obtain ⟨⟨l, b', hclosed⟩, -, -, hcourses⟩ := stepClosed_effect k r accts (membersEnded r [] s t)
  obtain ⟨y, hy, hsame⟩ := exists_sameCourse (hcourses.trans (entryViews_congr (congrArg Gen.entries hgen))) hz
  obtain ⟨l', a, honly⟩ := prefilledStep_only m (x.booked c b) r (stepBooked r s)
  have hprefilled : (prefilledStep m (x.booked c b) r (stepBooked r s)).gen.tokens = s.gen.tokens := by rw [honly, ← htokens]
  refine ⟨_, y, hexec, hy, hsame.state.trans hdel.state, hsame.lastCommit.trans (hdel.lastCommit.trans hnow),
    hsame.prefilled.trans hdel.prefilled, hsame.genLen.trans hdel.genLen, hsame.gen.trans hdel.gen,
    hsame.stepSeq.trans hdel.stepSeq, (congrArg Gen.tokens hclosed).trans ?_⟩
  exact (congrArg Gen.tokens hgen).trans (hcount.trans (congrArg (· + _) hprefilled))

/-- A member with a cancel accepted before ends CANCELLED, with no token more (10 R379, R380). -/
theorem CommitsOne.cancels (h : CommitsOne k r m x s) (hc : cancelledBefore s x = true) (hl : x.deadline = 0)
    (hd : x.work.disabled = false) : ∃ u y, exec (.stepCommit k) s = .next u ∧ mget u.gen.entries m.entry = some y ∧
      y.state = .drain ∧ y.finish = Status.cancelled ∧ y.genLen = x.genLen := by
  have hf : forcedFinish s x = some Status.cancelled := by simp [forcedFinish, hc, hl, hd]
  obtain ⟨c, b, hx, hforced, -, -, -⟩ := h.booked
  obtain ⟨c', hleft⟩ := mget_leftStep (m := m) hx
  obtain ⟨accts, hexec⟩ := h.exec_eq (commitMember_forced (r := r) hx h.state (hforced.trans hf))
  obtain ⟨t, ht⟩ : ∃ t, t = foldS (wroteQps s (leftStep m (x.booked c b) (stepBooked r s)) [m]) (fun t q => writeBack q t)
      (leftStep m (x.booked c b) (stepBooked r s)) := ⟨_, rfl⟩
  have hgen : t.gen = (leftStep m (x.booked c b) (stepBooked r s)).gen := by
    rw [ht]
    exact foldS_keeps (fun t => t.gen) _ _ _ fun z q => dmaWrite_gen ..
  have hentry : mget t.gen.entries m.entry = _ := (congrArg (fun g : Gen => mget g.entries m.entry) hgen).trans hleft
  have hlate := (congrArg (fun g : Gen => mget g.entries m.entry) (lateCancels_gen m.entry t)).trans (mget_modEntry_same _ hentry)
  obtain ⟨z, at_, held, hz, hended⟩ := endEntry_course Status.cancelled 0 12 x.genLen hlate RtState.noConfusion hd
  have hend : membersEnded r [(m.entry, Status.cancelled)] s (leftStep m (x.booked c b) (stepBooked r s)) =
      endEntry m.entry Status.cancelled 0 12 x.genLen (lateCancels m.entry t) := by
    have hentry' : entryOf t m.entry = _ := hentry
    simp only [membersEnded, h.members, ← ht]
    simp [foldS, hentry', Status.cancelled, Status.stop, Status.eos, Status.length, RtEntry.booked]
  obtain ⟨-, -, -, hcourses⟩ := stepClosed_effect k r accts (endEntry m.entry Status.cancelled 0 12 x.genLen (lateCancels m.entry t))
  obtain ⟨y, hy, hsame⟩ := exists_sameCourse hcourses hz
  exact ⟨_, y, hexec.trans (congrArg _ (congrArg _ hend)), hy, hsame.state.trans hended.state,
    hsame.finish.trans hended.finish, hsame.genLen.trans hended.genLen⟩

end

/-- Any step's commit erases it and its unit and counts it (10 R363). -/
theorem stepCommit_erases {k : Nat} {r : StepRec} {s : State} (hr : mget s.gen.steps k = some r) (hd : stepDone s r = true) :
    ∃ u, exec (.stepCommit k) s = .next u ∧ mget u.gen.steps k = none ∧
      (∀ j, j ≠ k → mget u.gen.steps j = mget s.gen.steps j) ∧
      u.gen.stepCount = s.gen.stepCount + 1 ∧ mget u.sched.units r.unit = none := by
  obtain ⟨accts, hexec⟩ := exec_stepCommit hr hd
  obtain ⟨t, ht⟩ : ∃ t, t = membersEnded r (commitAll r r.members (stepBooked r s)).1 s (commitAll r r.members (stepBooked r s)).2 :=
    ⟨_, rfl⟩
  have hsteps : stepsSeen t = stepsSeen s := by
    obtain ⟨l, a, o, hbooked⟩ := (stepBooked_books r s).frame
    rw [ht, membersEnded_steps, commitAll_steps, hbooked]
    rfl
  obtain ⟨hsame, hcount⟩ := Prod.ext_iff.mp hsteps
  obtain ⟨⟨l, b, hgen⟩, hunit, -, -⟩ := stepClosed_effect k r accts t
  rw [← ht] at hexec
  refine ⟨_, hexec, ?_, fun j hj => ?_, ?_, hunit⟩
  · rw [hgen]
    exact (mget_merase _ _ _).trans (if_pos rfl)
  · rw [hgen]
    exact (mget_merase _ _ _).trans ((if_neg hj).trans (congrArg (mget · j) hsame))
  · rw [hgen]
    exact congrArg (· + 1) hcount

/-! ### A member with too large an extent (10 R366) -/

theorem opReady_place {g slot : Nat} {x : OpCx} {s : State} (h : opReady s g slot = some x) :
    mget (clusterOf s g).slots slot = some x.c ∧ mget s.sched.units x.c.unit = some x.u := by
  unfold opReady at h
  split at h
  · exact absurd h (Option.some_ne_none x).symm
  next c hc =>
    split at h
    next u i hu hi =>
      split at h
      · split at h
        · exact absurd h (Option.some_ne_none x).symm
        · obtain rfl := Option.some.inj h
          exact ⟨hc, hu⟩
      · exact absurd h (Option.some_ne_none x).symm
    next => exact absurd h (Option.some_ne_none x).symm

/-- A context that leaves its slot for a fault of its members: the fault is counted and recorded (14 R539). -/
def contextLost (g slot cause : Nat) (c : Ctx) (tag : Nat) (s : State) : State :=
  modCluster g (Cluster.without slot) (recordEvent 2 (64 + g) (0x0100 + cause) (instCluster g)
    [c.account, tag, coreContext g 0 slot] (evCount 2 5 1 (modSched (fun d => { d with faults := d.faults + 1 }) s)))

theorem contextLost_gen (g slot cause : Nat) (c : Ctx) (tag : Nat) (s : State) : (contextLost g slot cause c tag s).gen = s.gen := by
  rw [contextLost, modCluster_gen, recordEvent_gen, evCount_gen, modSched_gen]

/-- A teardown caused by members of a step drops them from it (10 R366). -/
theorem tearDownFor_members {bad : List Nat} {g slot cause k : Nat} {c : Ctx} {u : SUnit} {r : StepRec} {s : State}
    (hc : mget (clusterOf s g).slots slot = some c) (hu : mget s.sched.units c.unit = some u) (hk : u.kind = .step k)
    (hr : mget s.gen.steps k = some r) (hbad : bad.isEmpty = false) : ∃ tag, tearDownFor bad g slot cause s =
      dropFaulted k r (r.members.filter fun y => bad.contains y.entry) (contextLost g slot cause c tag s) := by
  unfold tearDownFor
  split
  next hnone => exact absurd (hc.symm.trans hnone) (Option.some_ne_none c)
  next c' hsome =>
  obtain rfl : c = c' := Option.some.inj (hc.symm.trans hsome)
  split
  next hnone => exact absurd (hu.symm.trans hnone) (Option.some_ne_none u)
  next u' hsome =>
  obtain rfl : u = u' := Option.some.inj (hu.symm.trans hsome)
  -- The state is named before the cases on the work: no case then evaluates it.
  extract_lets charged tag counted recorded left
  have hcharged : charged = s := if_neg (by rw [hbad]; exact Bool.false_ne_true)
  have hleft : left = contextLost g slot cause c tag charged := rfl
  rw [hleft, hcharged, contextLost_gen]
  split
  next hrun => exact absurd (hk.symm.trans hrun) UnitKind.noConfusion
  next hstage => exact absurd (hk.symm.trans hstage) UnitKind.noConfusion
  next k' hstep =>
  obtain rfl : k = k' := UnitKind.step.inj (hk.symm.trans hstep)
  rw [hr]
  exact ⟨tag, if_neg (by rw [hbad]; exact Bool.false_ne_true)⟩

/-- The only member of a step, dropped for its own data, ends FAULT with detail 6, and the step is gone (10 R366). -/
theorem dropFaulted_only {k : Nat} {r : StepRec} {m : StepMember} {y : RtEntry} {s : State} (hm : r.members = [m])
    (hy : mget s.gen.entries m.entry = some y) (hs : y.state ≠ .drain) (hc : y.cancelPending = false)
    (hd : y.work.disabled = false) : ∃ z, mget (dropFaulted k r [m] s).gen.entries m.entry = some z ∧ z.state = .drain ∧
      z.finish = Status.fault ∧ z.work.detail = 6 ∧ mget (dropFaulted k r [m] s).gen.steps k = none := by
  have hnone : (r.members.filter fun x => !([m].contains x)) = [] := by simp [hm]
  obtain ⟨c, b, hy⟩ := (settleReads_books s r).exists_booked hy
  have hy' : entryOf (settleReads r s) m.entry = some (y.booked c b) := hy
  obtain ⟨t, ht⟩ : ∃ t, t = charge m.entry { faults := 1 }
      (modQp (y.booked c b).qp (fun q => { q with stReserved := q.stReserved - stepReserve }) (settleReads r s)) := ⟨_, rfl⟩
  have hcharged : mget t.gen.entries m.entry = some { y.booked c b with ctr := (y.booked c b).ctr.add { faults := 1 } } := by
    rw [ht]
    exact mget_charge_same _ hy
  obtain ⟨z, at_, held, hz, hended⟩ := endEntry_course Status.fault 6 12 0 hcharged hs hd
  have hfault : endFault m.entry 6 12 t = endEntry m.entry Status.fault 6 12 0 t := by
    have hentry : entryOf t m.entry = _ := hcharged
    simp only [endFault, hentry]
    exact if_neg (by rw [Bool.not_eq_true]; exact hc)
  obtain ⟨w, hw⟩ : ∃ w, w = endUnit r.unit (modGen (fun g => { g with steps := merase g.steps k })
    (endEntry m.entry Status.fault 6 12 0 t)) := ⟨_, rfl⟩
  have hdrop : dropFaulted k r [m] s = returnEntry m.entry w := by
    simp only [dropFaulted, hnone, List.isEmpty_nil, if_true, foldS_cons, foldS_nil, List.map_cons, List.map_nil, hy', ← ht,
      hfault, ← hw]
  obtain ⟨⟨l, b', o, n, f, hreturn⟩, hcourses⟩ := returnEntry_returns m.entry w
  have hgen : w.gen = { (endEntry m.entry Status.fault 6 12 0 t).gen with
      steps := merase (endEntry m.entry Status.fault 6 12 0 t).gen.steps k } := by rw [hw, endUnit_gen, modGen_gen]
  obtain ⟨v, hv, hsame⟩ := exists_sameCourse (hcourses.trans (entryViews_congr (u := w) (by rw [hgen]))) hz
  rw [hdrop]
  refine ⟨v, hv, hsame.state.trans hended.state, hsame.finish.trans hended.finish, hsame.detail.trans hended.detail, ?_⟩
  rw [hreturn]
  exact (congrArg (fun g : Gen => mget g.steps k) hgen).trans ((mget_merase _ _ _).trans (if_pos rfl))

/-- A member whose own dynamic extent is too large ends when the operation starts (05 R153, 10 R366). -/
theorem operationStart_overExtent {g slot k : Nat} {x : OpCx} {r : StepRec} {m : StepMember} {y : RtEntry} {ts : List TensorDesc}
    {s : State} (env : OpEnv) (hx : opReady s g slot = some x) (hk : x.u.kind = .step k) (hr : mget s.gen.steps k = some r)
    (hm : r.members = [m]) (hts : ts = (x.o.ins ++ x.o.outs).filterMap (tensorAt x.i.tensors))
    (hover : ts.any (overExtent s x.n x.u) = true) (hwho : overMembers s x.u ts = [m.entry])
    (hy : mget s.gen.entries m.entry = some y) (hs : y.state = .step) (hc : y.cancelPending = false)
    (hd : y.work.disabled = false) : ∃ u z, exec (.operationStart g slot env) s = .next u ∧
      mget u.gen.entries m.entry = some z ∧ z.state = .drain ∧ z.finish = Status.fault ∧ z.work.detail = 6 ∧
      mget u.gen.steps k = none := by
  obtain ⟨hslot, hunit⟩ := opReady_place hx
  have hbad : (r.members.filter fun z => [m.entry].contains z.entry) = [m] := by simp [hm]
  obtain ⟨tag, htear⟩ := tearDownFor_members (bad := [m.entry]) (cause := 6) hslot hunit hk hr rfl
  rw [hbad] at htear
  have hexec : exec (.operationStart g slot env) s = .next (dropFaulted k r [m] (contextLost g slot 6 x.c tag s)) := by
    rw [← htear, ← hwho]
    refine congrArg Host.Outcome.next ?_
    simp only [hx, ← hts, hover, Bool.or_true, if_true]
  have hlost : mget (contextLost g slot 6 x.c tag s).gen.entries m.entry = some y := by rw [contextLost_gen, hy]
  obtain ⟨z, hz, hstate, hfin, hdetail, hgone⟩ := dropFaulted_only (k := k) hm hlost (by rw [hs]; exact RtState.noConfusion) hc hd
  exact ⟨_, z, hexec, hz, hstate, hfin, hdetail, hgone⟩

/-- Settles O23: a commit books, decides its members' outcomes and closes its step; a step of one member is followed through its
outcome, and an extent too large through the teardown that drops its member. -/
theorem stepsCommitted : Obligations.steps_committed := by
  unfold Obligations.steps_committed
  refine ⟨?_, ?_, ?_, ?_, ?_, ?_⟩
  · exact fun k r s hr hd => stepCommit_erases hr hd
  · exact fun k r s hr hd => stepCommit_waits hr hd
  · exact fun k r m x s hr hd hm hx hs hf hc hp => CommitsOne.prefills ⟨hr, hd, hm, hx, hs⟩ hf hc hp
  · intro k r m x tk dv s hr hd hm hx hs hf hc hp ht htk hdv hfin
    subst hdv
    exact CommitsOne.delivers ⟨hr, hd, hm, hx, hs⟩ hf hc hp ht htk hfin
  · exact fun k r m x s hr hd hm hx hs hc hl hdis => CommitsOne.cancels ⟨hr, hd, hm, hx, hs⟩ hc hl hdis
  · exact fun g slot k env x r m y ts s hx hk hr hm hts hover hwho hy hs hc hd =>
      operationStart_overExtent env hx hk hr hm hts hover hwho hy hs hc hd

end Sys2Proof.Machine
end

section
/-! PROOFS. Requests, runs, input chunks and released batons: the entry that a REQUEST or a RUN takes and what its waiting and its pins
touch, the input that joins a request, and what is left of a released baton (10 R345, R348, R359; 15 R576 to R580; 06 R203). -/

namespace Sys2Proof.Machine

/-! ### An entry taken (10 R345) -/

theorem mget_charge_accounts {e a : Nat} {x : RtEntry} {s : State} (c : Counters) (hx : mget s.gen.entries e = some x)
    (ha : a ≠ x.account) : mget (charge e c s).sched.accounts a = mget s.sched.accounts a := by
  have hx' : entryOf s e = some x := hx
  simp only [charge, hx']
  exact mget_mupd_other ha _ _

/-- A new entry in the table, counted, with its command's wait charged (10 R345; 14 R543). -/
def entryTaken (e : Nat) (x : RtEntry) (wait : Nat) (s : State) : State :=
  charge e { waitNs := wait } (evCount 3 1 1 (modGen (fun g => { g with entries := mset g.entries e x }) s))

section
variable (e wait : Nat) (x : RtEntry) (s : State)

theorem mget_entryTaken : mget (entryTaken e x wait s).gen.entries e = some { x with ctr := x.ctr.add { waitNs := wait } } := by
  refine mget_charge_same _ ?_
  rw [evCount_gen]
  exact mget_mset_same _ _ _

theorem entryTaken_others : OthersKept e s (entryTaken e x wait s) := by
  refine OthersKept.trans ?_ (charge_follows e { waitNs := wait } _).others
  intro j hj
  rw [evCount_gen]
  exact mget_mset_other _ _ _ _ hj

theorem entryTaken_accounts {a : Nat} (ha : a ≠ x.account) :
    mget (entryTaken e x wait s).sched.accounts a = mget s.sched.accounts a := by
  have hx : mget (evCount 3 1 1 (modGen (fun g => { g with entries := mset g.entries e x }) s)).gen.entries e = some x := by
    rw [evCount_gen]
    exact mget_mset_same _ _ _
  rw [entryTaken, mget_charge_accounts _ hx ha, evCount_sched]
  rfl

theorem entryTaken_only : ∃ l a h r, h.hostMem = s.hif.hostMem ∧ entryTaken e x wait s =
    { s with gen := { s.gen with entries := l }, sched := { s.sched with accounts := a }, hif := h, regs := r } := by
  obtain ⟨t, ht⟩ : ∃ t, t = modGen (fun g => { g with entries := mset g.entries e x }) s := ⟨_, rfl⟩
  obtain ⟨l, a, hcharge⟩ := charge_only e { waitNs := wait } (evCount 3 1 1 t)
  refine ⟨l, a, (evCount 3 1 1 t).hif, (evCount 3 1 1 t).regs, by rw [evCount_hif_hostMem, ht]; rfl, ?_⟩
  rw [entryTaken, ← ht, hcharge]
  apply state_ext <;> simp [ht]

end

/-- An entry whose remote pins have been asked for waits for their answers; nothing else but the fabric and what it counts differs
(11 R400, 16 R614). -/
theorem sendPins_effect {e : Nat} {x : RtEntry} {s : State} (acct : Nat) (bs : List TableBind) (hx : mget s.gen.entries e = some x) :
    (∃ n, mget (sendPins e acct bs s).gen.entries e = some { x with work := { x.work with pinsLeft := n } }) ∧
      OthersKept e s (sendPins e acct bs s) ∧ (sendPins e acct bs s).hif.hostMem = s.hif.hostMem ∧
      ∃ l f h r, sendPins e acct bs s = { s with gen := { s.gen with entries := l }, fab := f, hif := h, regs := r } := by
  obtain ⟨t, ht⟩ : ∃ t, t = modWork e (fun w => { w with pinsLeft := w.pinsLeft + (bs.filter fun b => !b.isLocal).length }) s :=
    ⟨_, rfl⟩
  have hsent : SendsOnly t (sendPins e acct bs s) := by
    rw [ht]
    exact foldS_inv (SendsOnly _) _ _ _ (fun v _ h => h.trans (sendReq_sendsOnly v _ _)) (.refl _)
  obtain ⟨honly, hmem⟩ := hsent
  rw [FabOnly] at honly
  have hgen : (sendPins e acct bs s).gen = t.gen := by rw [honly]
  have hentry : ∃ n, mget t.gen.entries e = some { x with work := { x.work with pinsLeft := n } } := by
    rw [ht]
    exact ⟨_, mget_modEntry_same _ hx⟩
  have hothers : OthersKept e s t := by
    rw [ht]
    exact modEntry_others _ _ _
  refine ⟨by rw [hgen]; exact hentry, fun j hj => by rw [hgen, hothers j hj], hmem.trans (by rw [ht]; rfl),
    t.gen.entries, _, _, _, honly.trans (by rw [ht]; rfl)⟩

/-! ### REQUEST (10 R345; 01 R22, R26; 15 R576) -/

/-- The entry of an admitted REQUEST (01 R26). -/
structure AdmittedAs (h : HostCmd) (fn acct : Nat) (p : Profile) (pins : List (Nat × Nat × Option Nat)) (s : State) (x : RtEntry) :
    Prop where
  state : x.state = .pre
  qp : x.qp = h.qp
  tag : x.tag = cmdTag h
  account : x.account = acct
  fn : x.fn = fn
  mode : x.mode = p.mode
  profile : x.profile = p.id
  deadline : x.deadline = cmdFld h 96 8
  admitTime : x.admitTime = now s
  prio : x.prio = (clampPrio s acct (cmdFld h 65 1 % 4)).1
  finish : x.finish = 0
  cancelPending : x.cancelPending = false
  stage : x.work.stage = 1
  pins : x.work.pins = pins
  named : x.work.profile = some p

/-- A REQUEST is admitted by taking its entry, after a seed is drawn where it gives none, and asking for its remote pins. -/
theorem admitRequest_eq {h : HostCmd} {f : Fetched} {e fn acct : Nat} {p : Profile} {fs : List Filter}
    {pins : List (Nat × Nat × Option Nat)} {s : State} (he : freeEntry s = some e) : ∃ x n,
      AdmittedAs h fn acct p pins s x ∧ admitRequest h f fn acct p fs pins s =
        sendPins e acct (imageBinds s (profileImages p)) (entryTaken e x (now s - f.seen) { s with free := n }) := by
  unfold admitRequest
  rw [he]
  extract_lets e' pr gen drawn d s1 x s2 s3
  have hs1 : ∃ n, s1 = { s with free := n } := by
    simp only [s1]
    split
    · exact ⟨_, rfl⟩
    · exact ⟨_, rfl⟩
  obtain ⟨n, hs1⟩ := hs1
  refine ⟨x, n, ⟨rfl, rfl, rfl, rfl, rfl, rfl, rfl, rfl, rfl, rfl, rfl, rfl, rfl, rfl, rfl⟩, ?_⟩
  rw [← hs1]
  rfl

section
variable {h : HostCmd} {s t : State} {f : Fetched}

theorem exec_request {u : State} (hop : cmdOp h = 1) (ht : takeCmd h s = some (f, t)) (hu : requestBody h f t = u) :
    exec (.request h) s = .next u := by
  refine congrArg Host.Outcome.next ?_
  simp only [hop, ht, ne_eq, not_true_eq_false, if_false]
  exact hu

/-- A REQUEST that asks for no report and is refused completes at stage 1. -/
theorem refuseRequest_unreported (st d : Nat) (hrep : cmdReport h = 0) :
    refuseRequest h f st d t = cplCmd h f { tag := 0, status := st, stage := 1, detail := d } t := by
  simp [refuseRequest, hrep, b2n]

theorem requestBody_malformed {d : Nat} (hd : requestSlotFault t h (requestProfile t h) = some d) :
    requestBody h f t = refuseRequest h f Status.descMalformed d t := by
  simp only [requestBody, hd]

/-- A REQUEST comes on a queue pair of a function, at a level that serves requests (15 R575, 17 R638). -/
theorem request_served (hadm : isAdmin h.qp = false) (hlvl : t.boot.level = 1 ∨ t.boot.level = 2) :
    ¬ (isAdmin h.qp || !(t.boot.level == 1 || t.boot.level == 2)) = true := by
  rcases hlvl with hl | hl <;> simp [hadm, hl]

theorem requestBody_profileless (hp : requestProfile t h = none) (hslot : requestSlotFault t h none = none)
    (hadm : isAdmin h.qp = false) (hlvl : t.boot.level = 1 ∨ t.boot.level = 2) :
    requestBody h f t = refuseRequest h f Status.profileInvalid 0 t := by
  simp only [requestBody, hp, hslot, if_neg (request_served hadm hlvl)]

theorem requestBody_admits {p : Profile} {fn acct : Nat} {fs : List Filter} {pins : List (Nat × Nat × Option Nat)}
    (hp : requestProfile t h = some p) (hslot : requestSlotFault t h (some p) = none) (hadm : isAdmin h.qp = false)
    (hlvl : t.boot.level = 1 ∨ t.boot.level = 2) (hb : (qpOf t h.qp).bound = some (fn, acct))
    (hrec : requestRecordFault t h p = none) (hchecks : admitChecks t h acct p = .ok (fs, pins)) :
    requestBody h f t = admitRequest h f fn acct p fs pins t := by
  simp only [requestBody, hp, hslot, if_neg (request_served hadm hlvl), hb, hrec, hchecks]

/-- An admitted REQUEST has its entry, and no other entry and no other account is touched. -/
theorem admitRequest_effect {e fn acct : Nat} {p : Profile} {fs : List Filter} {pins : List (Nat × Nat × Option Nat)} {u : State}
    (he : freeEntry t = some e) (hu : u = admitRequest h f fn acct p fs pins t) :
    ∃ x, mget u.gen.entries e = some x ∧ AdmittedAs h fn acct p pins t x ∧ OthersKept e t u ∧
      (∀ a, a ≠ acct → mget u.sched.accounts a = mget t.sched.accounts a) ∧ u.hif.hostMem = t.hif.hostMem ∧
      u = { t with gen := u.gen, sched := u.sched, fab := u.fab, hif := u.hif, regs := u.regs, free := u.free } := by
  obtain ⟨x, n, hx, hadmit⟩ := admitRequest_eq (h := h) (f := f) (fn := fn) (acct := acct) (p := p) (fs := fs) (pins := pins) he
  rw [hadmit] at hu
  obtain ⟨⟨k, hentry⟩, hothers, hmem, l, fab, hif, r, hsent⟩ := sendPins_effect acct (imageBinds t (profileImages p))
    (mget_entryTaken e (now t - f.seen) x { t with free := n })
  obtain ⟨l', a, hif', r', htakenMem, htaken⟩ := entryTaken_only e (now t - f.seen) x { t with free := n }
  rw [← hu] at hentry hothers hmem hsent
  refine ⟨_, hentry, ?_, (entryTaken_others e _ x { t with free := n }).trans hothers, fun b hb => ?_, ?_, ?_⟩
  · exact ⟨hx.state, hx.qp, hx.tag, hx.account, hx.fn, hx.mode, hx.profile, hx.deadline, hx.admitTime, hx.prio, hx.finish,
      hx.cancelPending, hx.stage, hx.pins, hx.named⟩
  · rw [hsent]
    exact entryTaken_accounts e _ x { t with free := n } (by rw [hx.account]; exact hb)
  · rw [hmem, htaken]
    exact htakenMem
  · rw [hsent, htaken]

end

/-! ### RUN (10 R348; 14 R528; 15 R580) -/

/-- The entry of a RUN (10 R348). -/
structure RunAs (h : HostCmd) (fn acct : Nat) (pins : List (Nat × Nat × Option Nat)) (x : RtEntry) : Prop where
  state : x.state = .pre
  mode : x.mode = 4
  image : x.genImage = cmdParam h % 2 ^ 32
  qp : x.qp = h.qp
  tag : x.tag = cmdTag h
  account : x.account = acct
  fn : x.fn = fn
  pins : x.work.pins = pins

section
variable {h : HostCmd} {s t : State} {f : Fetched}

theorem exec_run (ht : Taken 4 h s f t) : exec (.run h) s = .next (finishReply h f (runBody h f t)) :=
  congrArg _ (runCmd_taken ht (runBody h))

/-- A RUN that passes its checks takes its entry, is given a unit, and asks for its remote pins. -/
theorem runBody_runs {i : Image} {fn acct e : Nat} {pins : List (Nat × Nat × Option Nat)}
    (hlive : liveEntry t h.qp (cmdTag h) = none) (hlen : cmdLen0 h % 16 = 0) (hrep : cmdReport h % 64 = 0)
    (hi : mget t.obj.images (cmdParam h % 2 ^ 32) = some i) (hb : (qpOf t h.qp).bound = some (fn, acct)) (hload : i.unloaded = false)
    (hmay : i.shared = true ∨ i.owner = acct) (hbind : bindingFault i (cmdBody h (cmdLen0 h)) (cmdLen0 h / 16) = none)
    (hpins : checkBinds t acct i.tables = .ok pins) (he : freeEntry t = some e) : ∃ x prio image span sram dies,
      RunAs h fn acct pins x ∧ finishReply h f (runBody h f t) = sendPins e acct i.tables
        (newUnit (.run e) [(e, acct, 1)] prio image span sram dies (entryTaken e x (now t - f.seen) t)).2 := by
  have hmay' : ¬ (!i.shared && i.owner != acct) = true := by
    rcases hmay with hm | hm <;> simp [hm]
  unfold runBody
  simp only [hlive, hlen, hrep, hi, hb, hload, if_neg hmay', hbind, hpins, he]
  exact ⟨_, _, _, _, _, _, ⟨rfl, rfl, rfl, rfl, rfl, rfl, rfl, rfl⟩, rfl⟩

/-- A RUN has its entry and a unit that has no slots yet, and no other entry is touched. -/
theorem run_effect {bs : List TableBind} {fn acct e prio image span sram dies wait : Nat} {pins : List (Nat × Nat × Option Nat)}
    {x : RtEntry} {u : State} (hx : RunAs h fn acct pins x)
    (hu : u = sendPins e acct bs (newUnit (.run e) [(e, acct, 1)] prio image span sram dies (entryTaken e x wait t)).2) :
    ∃ z y, mget u.gen.entries e = some z ∧ RunAs h fn acct pins z ∧ mget u.sched.units t.sched.nextUnit = some y ∧
      y.kind = .run e ∧ y.slots = [] ∧ y.members = [(e, acct, 1)] ∧ OthersKept e t u ∧ u.hif.hostMem = t.hif.hostMem ∧
      u = { t with gen := u.gen, sched := u.sched, fab := u.fab, hif := u.hif, regs := u.regs } := by
  obtain ⟨l, a, hif, r, htakenMem, htaken⟩ := entryTaken_only e wait x t
  obtain ⟨a', y, hkind, hmembers, hslots, hunit⟩ := newUnit_fresh (.run e) [(e, acct, 1)] prio image span sram dies
    (entryTaken e x wait t)
  obtain ⟨⟨n, hentry⟩, hothers, hmem, l', fab, hif', r', hsent⟩ := sendPins_effect acct bs
    (s := (newUnit (.run e) [(e, acct, 1)] prio image span sram dies (entryTaken e x wait t)).2)
    (by rw [hunit]; exact mget_entryTaken e wait x t)
  rw [← hu] at hentry hothers hmem hsent
  rw [hunit] at hothers hmem hsent
  refine ⟨_, y, hentry, ⟨hx.state, hx.mode, hx.image, hx.qp, hx.tag, hx.account, hx.fn, hx.pins⟩, ?_, hkind, hslots, hmembers,
    (entryTaken_others e wait x t).trans hothers, hmem.trans ?_, ?_⟩
  · rw [hsent, htaken]
    exact mget_mset_same _ _ _
  · rw [htaken]
    exact htakenMem
  · rw [hsent, htaken]

/-! ### INPUT_CHUNK (15 R578; 06 R203) -/

theorem exec_inputChunk (ht : Taken 2 h s f t) : exec (.inputChunk h) s = .next (finishReply h f (inputBody h f t)) :=
  congrArg _ (runCmd_taken ht (inputBody h))

/-- A request with an input chunk joined to its input (15 R578). -/
def inputJoined (h : HostCmd) (x : RtEntry) : RtEntry :=
  { x with work := { x.work with input := x.work.input ++ cmdBody h (cmdLen0 h), inputDone := (cmdFlags h).testBit 0 } }

theorem inputBody_joins {e : Nat} (hlen : cmdLen0 h ≤ 16777216) (ho : openRequest t h.qp (cmdParam h) = some e) :
    inputBody h f t = okWith (takeText e (modEntry e (inputJoined h) t)) := by
  simp only [inputBody, if_neg (Nat.not_lt.mpr hlen), ho]
  rfl

theorem inputBody_unknown (hlen : cmdLen0 h ≤ 16777216) (ho : openRequest t h.qp (cmdParam h) = none) :
    inputBody h f t = deny Status.requestUnknown t := by
  simp only [inputBody, if_neg (Nat.not_lt.mpr hlen), ho]

end

section
variable {e : Nat} {x : RtEntry} {s : State}

/-- Outside stage 2, and without a tokenizer, input waits (06 R201). -/
theorem takeText_waits (hx : mget s.gen.entries e = some x) (h : x.work.stage ≠ 2 ∨ x.work.tokenizer = none) : takeText e s = s := by
  have hx' : entryOf s e = some x := hx
  unfold takeText
  rw [hx']
  dsimp only
  split
  · rfl
  next tk htk => exact if_pos (h.resolve_right fun hnone => Option.some_ne_none tk (htk.symm.trans hnone))

/-- Text taken is counted, and nothing but entries, accounts, objects and event counters differs (06 R219). -/
theorem takeText_counts {tk : Tokenizer} {r : List Nat × Nat × TextIn} (hx : mget s.gen.entries e = some x) (hs : x.work.stage = 2)
    (ht : x.work.tokenizer = some tk) (hr : r = feed tk x.work.textOpts x.work.inputDone x.work.lane x.work.input) :
    (takeText e s).obj.txtTokensOut = s.obj.txtTokensOut + r.1.length ∧ ∃ l a o h m, takeText e s =
      { s with gen := { s.gen with entries := l }, sched := { s.sched with accounts := a }, obj := o, hif := h, regs := m } := by
  have hx' : entryOf s e = some x := hx
  obtain ⟨g, heq⟩ : ∃ g, takeText e s =
      countText x.work.input.length r.1.length r.2.1 (charge e { tokensIn := r.1.length } (modWork e g s)) := by
    simp only [takeText, hx', ht, hs, ← hr]
    exact ⟨_, rfl⟩
  obtain ⟨l, a, hcharge⟩ := charge_only e { tokensIn := r.1.length } (modWork e g s)
  obtain ⟨o, h, m, hcount⟩ := countText_only (charge e { tokensIn := r.1.length } (modWork e g s)) x.work.input.length r.1.length r.2.1
  refine ⟨?_, l, a, o, h, m, ?_⟩
  · rw [heq, hcharge]
    simp [countText, modWork]
  · rw [heq, hcount, hcharge]
    rfl

end

/-! ### BATON_RELEASE (10 R359) -/

section
variable {h : HostCmd} {s t : State} {f : Fetched} {k : Nat} {b : Baton}

theorem exec_batonRelease (ht : Taken 5 h s f t) : exec (.batonRelease h) s = .next (finishReply h f (batonReleaseBody h f t)) :=
  congrArg _ (runCmd_taken ht (batonReleaseBody h))

theorem batonReleaseBody_releases {a : Nat} (hk : batonSlot t (cmdParam h) = some k) (ha : qpAccount t h.qp = some a)
    (hb : mget t.gen.batons k = some b) (hlive : b.live = true) (hacct : b.account = a) :
    batonReleaseBody h f t = okWith (releaseBaton k t) := by
  have hown : ¬ b.account ≠ a := not_not_intro hacct
  simp only [batonReleaseBody, hk, ha, hb, hlive, Bool.not_true, Bool.false_eq_true, if_false, if_neg hown]

/-- A drop touches the baton's slot, the images and what was freed. -/
theorem dropBaton_only (k : Nat) (s : State) : ∃ m i l, (m = s.gen.batons ∨ m = merase s.gen.batons k) ∧ dropBaton k s =
    { s with gen := { s.gen with batons := m }, obj := { s.obj with images := i }, boot := { s.boot with freed := l } } := by
  unfold dropBaton
  split
  · exact ⟨_, _, _, .inl rfl, rfl⟩
  next b _ =>
    split
    · exact ⟨_, _, _, .inl rfl, rfl⟩
    · extract_lets s1
      obtain ⟨l, hreturn⟩ := returnPages_only s1 b.image (b.pages.filter fun p => !pageHeld s1 b.image 4096 p)
      exact ⟨_, _, _, .inr rfl, hreturn⟩

/-- A released baton is not live, whether or not it is still referenced; the others are as they were (10 R359, R360). -/
theorem releaseBaton_effect {u : State} (hb : mget s.gen.batons k = some b) (hu : u = releaseBaton k s) :
    (∀ y, mget u.gen.batons k = some y → y = { b with live := false }) ∧
      (∀ j, j ≠ k → mget u.gen.batons j = mget s.gen.batons j) ∧
      u = { s with gen := { s.gen with batons := u.gen.batons }, obj := { s.obj with images := u.obj.images }
                   boot := { s.boot with freed := u.boot.freed } } := by
  obtain ⟨t, ht⟩ : ∃ t, t = modGen (fun g => { g with batons := mupd g.batons k fun b => { b with live := false } }) s := ⟨_, rfl⟩
  have hmark : mget t.gen.batons k = some { b with live := false } ∧ ∀ j, j ≠ k → mget t.gen.batons j = mget s.gen.batons j := by
    rw [ht]
    exact ⟨(mget_mupd _ _ _ _).trans (by rw [if_pos rfl, hb, Option.map_some]), fun j hj => mget_mupd_other hj _ _⟩
  obtain ⟨hsame, hothers⟩ := hmark
  obtain ⟨m, i, l, hm, hdrop⟩ := dropBaton_only k t
  have hdrop' : u = _ := hu.trans ((congrArg (dropBaton k) ht.symm).trans hdrop)
  have hbatons : u.gen.batons = m := by rw [hdrop']
  refine ⟨fun y hy => ?_, fun j hj => ?_, ?_⟩
  · rw [hbatons] at hy
    rcases hm with rfl | rfl
    · exact Option.some.inj (hy.symm.trans hsame)
    · rw [mget_merase, if_pos rfl] at hy
      exact absurd hy.symm (Option.some_ne_none y)
  · rw [hbatons, ← hothers j hj]
    rcases hm with rfl | rfl
    · rfl
    · rw [mget_merase, if_neg hj]
  · rw [hdrop', ht]
    rfl

end

/-- Settles O20: a REQUEST and a RUN by the entry they take and what its pins and its unit touch, a refused one by its completion, an
input chunk by the text it becomes, and a baton by what is left under its handle. -/
theorem requestsRunsAndBatons : Obligations.requests_runs_and_batons := by
  unfold Obligations.requests_runs_and_batons
  refine ⟨?_, ?_, ?_, ?_, ?_, ?_, ?_, ?_⟩
  · intro h p fn acct e fs pins s t f hop ht hp hslot hadm hlvl hb hrec hchecks he
    obtain ⟨x, hx, has, hothers, haccounts, hmem, honly⟩ := admitRequest_effect (h := h) (f := f) (fn := fn) (acct := acct) (p := p)
      (fs := fs) (pins := pins) he rfl
    exact ⟨_, x, exec_request hop ht (requestBody_admits hp hslot hadm hlvl hb hrec hchecks), hx, has.state, has.qp, has.tag,
      has.account, has.fn, has.mode, has.profile, has.deadline, has.admitTime, has.prio, has.finish, has.cancelPending, has.stage,
      has.pins, has.named, hothers, haccounts, hmem, honly⟩
  · intro h d s t f hop ht hd hrep
    exact exec_request hop ht ((requestBody_malformed hd).trans (refuseRequest_unreported _ _ hrep))
  · intro h s t f hop ht hp hslot hadm hlvl hrep
    exact exec_request hop ht ((requestBody_profileless hp hslot hadm hlvl).trans (refuseRequest_unreported _ _ hrep))
  · intro h i fn acct e pins s t f ht hlive hlen hrep hi hb hload hmay hbind hpins he
    obtain ⟨x, prio, image, span, sram, dies, hx, hbody⟩ := runBody_runs (f := f) hlive hlen hrep hi hb hload hmay hbind hpins he
    obtain ⟨z, y, hz, has, hy, hkind, hslots, hmembers, hothers, hmem, honly⟩ := run_effect (t := t) (e := e) (bs := i.tables) hx rfl
    have hexec := exec_run ht
    rw [hbody] at hexec
    exact ⟨_, z, y, hexec, hz, has.state, has.mode, has.image, has.qp, has.tag, has.account, has.fn, has.pins, hy, hkind, hslots,
      hmembers, hothers, hmem, honly⟩
  · intro h e x s t f ht hlen ho hx hwait
    have hjoined : mget (modEntry e (inputJoined h) t).gen.entries e = some (inputJoined h x) := mget_modEntry_same _ hx
    have hexec := exec_inputChunk ht
    rw [inputBody_joins hlen ho, takeText_waits hjoined hwait] at hexec
    exact ⟨_, hexec, hjoined, modEntry_others e _ t, rfl⟩
  · intro h e x tk r s t f ht hlen ho hx hs htk hr
    have hjoined : mget (modEntry e (inputJoined h) t).gen.entries e = some (inputJoined h x) := mget_modEntry_same _ hx
    obtain ⟨hy, hothers, -⟩ := takeText_taken hjoined hs htk hr
    obtain ⟨hcount, l, a, o, i, m, honly⟩ := takeText_counts hjoined hs htk hr
    have hexec := exec_inputChunk ht
    rw [inputBody_joins hlen ho] at hexec
    exact ⟨_, _, hexec, hy, rfl, rfl, rfl, rfl, rfl, rfl, hcount, (modEntry_others e _ t).trans hothers, by rw [honly]; rfl⟩
  · intro h s t f ht hlen ho
    rw [exec_inputChunk ht, inputBody_unknown hlen ho, finishReply_deny]
  · intro h k a b s t f ht hk ha hb hlive hacct
    have hexec := exec_batonRelease ht
    rw [batonReleaseBody_releases hk ha hb hlive hacct] at hexec
    exact ⟨_, hexec, releaseBaton_effect hb rfl⟩

end Sys2Proof.Machine
end

section
/-! PROOFS. Tables and versions: what a change of one table leaves of the others, what keeps its hold while rows are demoted, and what
each table and version command brings about (11 R394, R397, R402 to R405, R427; 13 R486). -/

namespace Sys2Proof.Machine

/-! ### A change of one table (11 R390, R401) -/

theorem mget_modTable (k j : Nat) (f : Table → Table) (s : State) : mget (modTable k f s).obj.tables j =
    if j = k then (mget s.obj.tables k).map f else mget s.obj.tables j := mget_mupd _ _ _ _

section
variable {k : Nat} {t : Table} {s : State} (hk : mget s.obj.tables k = some t) (f : Table → Table)
include hk

theorem modTable_eq_store : modTable k f s = modObj (fun o => { o with tables := mset o.tables k (f t) }) s := by
  simp [modTable, modObj, mupd, hk]

theorem mget_modTable_same : mget (modTable k f s).obj.tables k = some (f t) := by
  rw [mget_modTable, if_pos rfl, hk, Option.map_some]

end

section
variable {k : Nat} {x : Table} {s t : State}

theorem TableChanged.acceptWrites (h : TableChanged k x s t) (l : List UnitWrite) : TableChanged k x s (acceptWrites l t) := by
  obtain ⟨hsame, hothers, hwork⟩ := h
  unfold TableChanged
  rw [acceptWrites_obj]
  exact ⟨hsame, hothers, hwork.trans (acceptWrites_flashWork l t)⟩

theorem storeTable_tableChanged (k : Nat) (x : Table) (s : State) :
    TableChanged k x s (modObj (fun o => { o with tables := mset o.tables k x }) s) :=
  ⟨mget_mset_same _ _ _, fun _ hj => mget_mset_other _ _ _ _ hj, FlashWork.refl _⟩

theorem modTable_tableChanged (hk : mget s.obj.tables k = some x) (f : Table → Table) : TableChanged k (f x) s (modTable k f s) := by
  rw [modTable_eq_store hk]
  exact storeTable_tableChanged _ _ _

end

/-! ### What touches the objects and the pacers' records alone -/

/-- Nothing but the objects and what they count differs. -/
def ObjAndCounts (s t : State) : Prop := ObjOnly s t ∧ t.hif.hostMem = s.hif.hostMem ∧ t.hif.qps = s.hif.qps

theorem ObjAndCounts.refl (s : State) : ObjAndCounts s s := ⟨rfl, rfl, rfl⟩

theorem ObjAndCounts.modTable {s t : State} (h : ObjAndCounts s t) (k : Nat) (f : Table → Table) : ObjAndCounts s (modTable k f t) := by
  obtain ⟨honly, hmem, hqps⟩ := h
  refine ⟨?_, hmem, hqps⟩
  unfold ObjOnly at *
  rw [honly]
  rfl

theorem ObjAndCounts.evCount {s t : State} (h : ObjAndCounts s t) (p src n : Nat) : ObjAndCounts s (evCount p src n t) := by
  obtain ⟨honly, hmem, hqps⟩ := h
  refine ⟨?_, (evCount_hif_hostMem ..).trans hmem, (evCount_hif_qps ..).trans hqps⟩
  unfold ObjOnly at *
  rw [honly]
  apply state_ext <;> simp

theorem ObjAndCounts.objAndRecords {s t : State} (h : ObjAndCounts s t) : ObjAndRecords s t := by
  obtain ⟨honly, hkept⟩ := h
  refine ⟨?_, hkept⟩
  unfold ObjOnly at honly
  rw [honly]

theorem ObjAndRecords.trans {s t u : State} (h : ObjAndRecords s t) (k : ObjAndRecords t u) : ObjAndRecords s u := by
  obtain ⟨honly, hmem, hqps⟩ := h
  obtain ⟨konly, kmem, kqps⟩ := k
  refine ⟨?_, kmem.trans hmem, kqps.trans hqps⟩
  rw [honly] at konly
  exact konly

theorem holdOutput_objAndRecords (p : Nat) (src : Nat × Nat × Nat) (l : List Nat) (s : State) : ObjAndRecords s (holdOutput p src l s) :=
  ⟨by apply state_ext <;> simp, holdOutput_hif_hostMem .., holdOutput_hif_qps ..⟩

theorem endRowConflicts_objAndRecords (k : Nat) (v : Option Nat) (s : State) : ObjAndRecords s (endRowConflicts k v s) :=
  foldS_inv (ObjAndRecords s) _ _ s (fun t _ ht => ht.trans (holdOutput_objAndRecords _ _ _ t)) (ObjAndCounts.refl s).objAndRecords

@[simp] theorem endRowConflicts_obj (k : Nat) (v : Option Nat) (s : State) : (endRowConflicts k v s).obj = s.obj :=
  foldS_keeps (fun t => t.obj) _ _ s fun t _ => holdOutput_obj _ _ _ t

/-! ### Changes of hot rows (11 R423, R425) -/

/-- What every change of a version's hot rows, of its table's count of demotions and of the events counted keeps. -/
structure KeptByHotRows (k v : Nat) (P : State → Prop) : Prop where
  hot : ∀ (f : Map HotRow → Map HotRow) s, P s → P (modVersion k v (fun x => { x with hot := f x.hot }) s)
  count : ∀ s, P s → P (modTable k (fun t => { t with demotions := t.demotions + 1 }) s)
  event : ∀ p src n s, P s → P (evCount p src n s)

section
variable {k v : Nat} {P : State → Prop} (hP : KeptByHotRows k v P)
include hP

theorem KeptByHotRows.modHot (row : Nat) (f : HotRow → HotRow) {s : State} (h : P s) : P (modHot k v row f s) :=
  hP.hot (fun m => mupd m row f) s h

theorem KeptByHotRows.startDemotion (row : Nat) {s : State} (h : P s) : P (startDemotion k v row s) :=
  hP.event _ _ _ _ (hP.count _ (hP.modHot row _ h))

theorem KeptByHotRows.demoteRow (row : Nat) {s : State} (h : P s) : P (demoteRow k v row s) := by
  unfold Machine.demoteRow
  split
  · split
    · exact hP.startDemotion row h
    · exact hP.modHot row _ h
  · exact h

theorem KeptByHotRows.applyPin (first count n : Nat) {s : State} (h : P s) : P (applyPin k v first count n s) := by
  refine foldS_inv P _ _ s (fun t row ht => ?_) h
  split
  · split
    · exact ht
    · split
      · exact hP.startDemotion row (hP.modHot row _ ht)
      · exact hP.modHot row _ ht
  · exact ht

end

theorem objAndCounts_keptByHotRows (k v : Nat) (s : State) : KeptByHotRows k v (ObjAndCounts s) :=
  ⟨fun _ _ h => h.modTable _ _, fun _ h => h.modTable _ _, fun _ _ _ _ h => h.evCount _ _ _⟩

/-- The pins of a table and its ID are no matter of its rows (11 R427). -/
def TablePins (k : Nat) (l : List RowPin) (id : Nat) (s : State) : Prop :=
  ∃ y, mget s.obj.tables k = some y ∧ y.pins = l ∧ y.id = id

theorem TablePins.modTable {k id : Nat} {l : List RowPin} {s : State} (h : TablePins k l id s) {f : Table → Table}
    (hpins : ∀ t, (f t).pins = t.pins) (hid : ∀ t, (f t).id = t.id) : TablePins k l id (modTable k f s) := by
  obtain ⟨y, hy, hl, hi⟩ := h
  exact ⟨f y, mget_modTable_same hy f, (hpins y).trans hl, (hid y).trans hi⟩

theorem tablePins_keptByHotRows (k v : Nat) (l : List RowPin) (id : Nat) : KeptByHotRows k v (TablePins k l id) :=
  ⟨fun _ _ h => h.modTable (fun _ => rfl) fun _ => rfl, fun _ h => h.modTable (fun _ => rfl) fun _ => rfl,
    fun _ _ _ _ h => by rwa [TablePins, evCount_obj]⟩

/-- Every version listed under a number in a slot is retired (11 R405). -/
def VersionRetired (k v : Nat) (s : State) : Prop :=
  ∀ t x, (k, t) ∈ s.obj.tables → (v, x) ∈ t.versions → x.cond = .retired

theorem VersionRetired.modTable {k v : Nat} {s : State} (h : VersionRetired k v s) {f : Table → Table}
    (hf : ∀ t x, (v, x) ∈ (f t).versions → ∃ y, (v, y) ∈ t.versions ∧ x.cond = y.cond) : VersionRetired k v (modTable k f s) := by
  intro t x ht hx
  rcases mem_mupd ht with ht | ⟨t', ht', he⟩
  · exact h t x ht hx
  · obtain ⟨-, rfl⟩ := Prod.mk.inj he
    obtain ⟨y, hy, hcond⟩ := hf t' x hx
    exact hcond.trans (h t' y ht' hy)

theorem versionRetired_keptByHotRows (k v : Nat) : KeptByHotRows k v (VersionRetired k v) := by
  refine ⟨fun f s h => h.modTable fun t x hx => ?_, fun s h => h.modTable fun t x hx => ⟨x, hx, rfl⟩,
    fun _ _ _ _ h => by rwa [VersionRetired, evCount_obj]⟩
  rcases mem_mupd hx with hx | ⟨y, hy, he⟩
  · exact ⟨x, hx, rfl⟩
  · obtain ⟨-, rfl⟩ := Prod.mk.inj he
    exact ⟨y, hy, rfl⟩

/-- A table that nothing uses any more is dropped, and of one that stays the retired versions: none comes to be listed by it. -/
theorem mem_releaseUnused_tables {s : State} {e : Nat × Table} (h : e ∈ (releaseUnused s).obj.tables) :
    ∃ t l, (e.1, t) ∈ s.obj.tables ∧ e.2 = { t with versions := l } ∧ ∀ x ∈ l, x ∈ t.versions := by
  have hlisted : ∃ keep : Nat → Nat × Version → Bool,
      e ∈ mmap s.obj.tables fun k t => { t with versions := t.versions.filter (keep k) } := by
    simp only [releaseUnused, whenS] at h
    split at h <;> exact ⟨_, (List.mem_filter.mp h).1⟩
  obtain ⟨keep, he⟩ := hlisted
  obtain ⟨⟨k, t⟩, ht, rfl⟩ := List.mem_map.mp he
  exact ⟨t, _, ht, rfl, fun x hx => (List.mem_filter.mp hx).1⟩

/-! ### TABLE_CREATE and TABLE_DELETE (11 R394, R397) -/

/-- A table read from its creation object is at version 1 (11 R394). -/
theorem currentVersion_of_parseTable {o : Bytes} {x : Table} (h : parseTable o = some x) : currentVersion x = some 1 := by
  simp only [parseTable] at h
  split at h
  · cases h
  · obtain ⟨rows, -, rfl⟩ := Option.map_eq_some_iff.mp h
    rfl

section
variable {h : HostCmd} {s t : State} {f : Fetched}

theorem exec_tableCreate (ht : Taken 0x2A h s f t) : exec (.tableCreate h) s = .next (finishReply h f (tableCreateBody h t)) :=
  congrArg _ (runCmd_taken ht fun _ => tableCreateBody h)

theorem exec_tableDelete (ht : Taken 0x2B h s f t) : exec (.tableDelete h) s = .next (finishReply h f (tableDeleteBody h t)) :=
  congrArg _ (runCmd_taken ht fun _ => tableDeleteBody h)

/-- The rows that a new table lists. -/
def firstRows (x : Table) : List Nat := ((mget x.versions 1).map fun v => v.rows.map Prod.fst).getD []

theorem tableCreateBody_creates {x : Table} {k : Nat} (hro : t.flash.storeRo = false) (hx : parseTable (cmdBody h (cmdLen0 h)) = some x)
    (hk : freeTableSlot t = some k) (hid : tableSlot t x.id = none) (hshadow : shadowOk t x = true)
    (howner : x.shared = true ∨ acctExists t x.owner = true)
    (hreserved : (t.obj.tables.map fun y => y.2.reserved).sum + x.reserved ≤ 120 * 10 ^ 12)
    (hroom : storedBytes t + x.reservedRows * slotBytesOf x.fmt x.rowElems ≤ usableBytes t 1) : tableCreateBody h t =
      okWith (acceptWrites (rowWrites k 1 x (firstRows x)) (modObj (fun o => { o with tables := mset o.tables k x }) t)) := by
  have howned : (!x.shared && !acctExists t x.owner) = false := by
    rcases howner with hshared | hexists
    · simp [hshared]
    · simp [hexists]
  simp only [tableCreateBody, hro, Bool.false_eq_true, if_false, hx, hk, hid, Option.isSome_none, hshadow, Bool.not_true, howned,
    Bool.or_self, if_neg (not_or.mpr ⟨Nat.not_lt.mpr hreserved, Nat.not_lt.mpr hroom⟩)]
  rfl

/-- A table deleted, before what nothing uses any more is dropped. -/
def markDeleted (k : Nat) (s : State) : State := endRowConflicts k none (modTable k (fun x => { x with deleted := true }) s)

theorem tableDeleteBody_deletes {k : Nat} (hk : tableSlot t (cmdAux h) = some k) :
    tableDeleteBody h t = okWith (releaseUnused (markDeleted k t)) := by
  simp only [tableDeleteBody, hk]
  rfl

end

theorem tableSlot_eq_none {s : State} {id : Nat} (h : ∀ e ∈ s.obj.tables, e.2.id = id → e.2.deleted = true) :
    tableSlot s id = none := by
  refine Option.map_eq_none_iff.mpr (List.find?_eq_none.mpr fun e he => ?_)
  by_cases hid : e.2.id = id
  · simp [h e he hid]
  · simp [hid]

/-- The loaded tables with an ID. -/
def loadedWith (s : State) (id : Nat) : List (Nat × Table) := s.obj.tables.filter fun x => x.2.id == id && !x.2.deleted

/-- Where one loaded table alone has an ID, each is the one in the slot found. -/
theorem fst_of_mem_loadedWith {s : State} {id k : Nat} {e : Nat × Table} (hk : tableSlot s id = some k)
    (hone : (loadedWith s id).length = 1) (he : e ∈ loadedWith s id) : e.1 = k := by
  obtain ⟨e', hfound, rfl⟩ := Option.map_eq_some_iff.mp hk
  have hloaded : (e'.2.id == id && !e'.2.deleted) = true :=
    List.find?_some (p := fun x : Nat × Table => x.2.id == id && !x.2.deleted) hfound
  have he' : e' ∈ loadedWith s id := List.mem_filter.mpr ⟨List.mem_of_find?_eq_some hfound, hloaded⟩
  obtain ⟨a, ha⟩ := List.length_eq_one_iff.mp hone
  rw [ha] at he he'
  rw [List.mem_singleton.mp he, List.mem_singleton.mp he']

theorem markDeleted_objAndRecords (k : Nat) (s : State) : ObjAndRecords s (markDeleted k s) :=
  ((ObjAndCounts.refl s).modTable k _).objAndRecords.trans (endRowConflicts_objAndRecords k none _)

theorem markDeleted_deletes {s : State} {id k : Nat} (hk : tableSlot s id = some k) (hone : (loadedWith s id).length = 1) :
    ∀ e ∈ (markDeleted k s).obj.tables, e.2.id = id → e.2.deleted = true := by
  intro e he hid
  obtain ⟨x, hx⟩ : ∃ x, mget s.obj.tables k = some x := by
    obtain ⟨e', hfound, rfl⟩ := Option.map_eq_some_iff.mp hk
    exact exists_mget_of_mem (List.mem_of_find?_eq_some hfound)
  rw [markDeleted, endRowConflicts_obj, modTable_eq_store hx] at he
  rcases mem_mput he with rfl | hother
  · rfl
  · cases hdeleted : e.2.deleted with
    | true => rfl
    | false =>
      have hloaded : e ∈ loadedWith s id := List.mem_filter.mpr ⟨mem_merase hother, by simp [hid, hdeleted]⟩
      exact absurd (fst_of_mem_loadedWith hk hone hloaded) (ne_of_mem_merase hother)

/-- A deleted table is no longer found under its ID (11 R397). -/
theorem deleted_effect {s u : State} {id k : Nat} (hk : tableSlot s id = some k) (hone : (loadedWith s id).length = 1)
    (hu : u = releaseUnused (markDeleted k s)) : tableSlot u id = none ∧
      u.hif.hostMem = s.hif.hostMem ∧ u.hif.qps = s.hif.qps ∧ u.sched = s.sched ∧ u.gen = s.gen ∧ u.mem = s.mem := by
  subst hu
  refine ⟨tableSlot_eq_none fun e he hid => ?_, ?_⟩
  · obtain ⟨x, l, hx, hkept, -⟩ := mem_releaseUnused_tables he
    rw [hkept] at hid ⊢
    exact markDeleted_deletes hk hone _ hx hid
  · obtain ⟨o, x, hdropped⟩ := releaseUnused_only (markDeleted k s)
    obtain ⟨honly, hmem, hqps⟩ := markDeleted_objAndRecords k s
    rw [hdropped]
    exact ⟨hmem, hqps, (congrArg State.sched honly :), (congrArg State.gen honly :), (congrArg State.mem honly :)⟩

/-! ### Version commands (11 R402 to R405, R427) -/

theorem mget_of_verTable {h : HostCmd} {t : State} {k : Nat} {x : Table} (hver : verTable h t = some (k, x)) :
    mget t.obj.tables k = some x := by
  obtain ⟨j, -, hj⟩ := Option.bind_eq_some_iff.mp hver
  obtain ⟨y, hy, he⟩ := Option.map_eq_some_iff.mp hj
  obtain ⟨rfl, rfl⟩ := Prod.mk.inj he
  exact hy

section
variable {h : HostCmd} {s t : State} {f : Fetched} (ht : Taken 0x2C h s f t)
include ht

theorem exec_versionNew (hop : cmdParam h % 4 = 0) : exec (.versionNew h) s = .next (finishReply h f (versionNewBody h t)) :=
  congrArg _ ((if_pos hop).trans (runCmd_taken ht fun _ => versionNewBody h))

theorem exec_versionSwitch (hop : cmdParam h % 4 = 1) : exec (.versionSwitch h) s = .next (finishReply h f (versionSwitchBody h t)) :=
  congrArg _ ((if_pos hop).trans (runCmd_taken ht fun _ => versionSwitchBody h))

theorem exec_versionRetire (hop : cmdParam h % 4 = 2) : exec (.versionRetire h) s = .next (finishReply h f (versionRetireBody h t)) :=
  congrArg _ ((if_pos hop).trans (runCmd_taken ht fun _ => versionRetireBody h))

theorem exec_rowPin (hop : cmdParam h % 4 = 3) : exec (.rowPin h) s = .next (finishReply h f (rowPinBody h t)) :=
  congrArg _ ((if_pos hop).trans (runCmd_taken ht fun _ => rowPinBody h))

end

/-- The number of a table's next version (11 R401). -/
def nextVersion (x : Table) : Nat := (x.highest + 1) % 2 ^ 32

/-- A table with one version more (11 R402, R403). -/
def withVersion (x : Table) (v : Version) (y : Table) : Table :=
  { y with highest := nextVersion x, versions := mset y.versions (nextVersion x) v }

/-- A version made of a base and a list of rows (11 R403). -/
def versionMade (base : Nat) (b : Version) (l : Map Bytes) : Version :=
  { cond := .live, rows := l.foldl (fun m e => mset m e.1 e.2) b.rows, shares := if base = 0 then [] else base :: b.shares
    dirty := b.dirty.filter fun d => !mhas l d.1, homes := b.homes.filter fun d => !mhas l d.1 }

/-- A table with one pin more (11 R427). -/
def withPin (p : RowPin) (x : Table) : Table := { x with pins := x.pins ++ [p] }

/-- A table whose version of a number has become the CURRENT one (11 R404). -/
def switchTo (n : Nat) (x : Table) : Table :=
  { x with versions := mmap x.versions fun j z =>
      if j = n then { z with cond := .current } else if z.cond = .current then { z with cond := .live } else z }

section
variable {h : HostCmd} {t : State} {k : Nat} {x : Table} (hver : verTable h t = some (k, x))
include hver

theorem versionNewBody_makes {b : Version} {l : Map Bytes} (hro : t.flash.storeRo = false)
    (hb : if verOp h 0 = 0 then b = { cond := .live } else mget x.versions (verOp h 0) = some b ∧ b.cond ≠ .retired)
    (hl : if h.stop = [] then l = [] else
      rowList (slotBytesOf x.fmt x.rowElems) x.nRows (if x.sparse then some x.capacity else none) h.stop = some l)
    (hcap : x.sparse = false ∨ (versionMade (verOp h 0) b l).rows.length ≤ x.capacity) (hcount : x.versions.length < 8)
    (hroom : storedBytes (modTable k (withVersion x (versionMade (verOp h 0) b l)) t) ≤ usableBytes t 1) :
    versionNewBody h t = okWith (acceptWrites (rowWrites k (nextVersion x) x (l.map Prod.fst))
      (modTable k (withVersion x (versionMade (verOp h 0) b l)) t)) (nextVersion x) := by
  have hfits : ¬ (x.sparse = true ∧ x.capacity < (versionMade (verOp h 0) b l).rows.length) := by
    rintro ⟨hsparse, hover⟩
    rcases hcap with hdense | hle
    · exact Bool.false_ne_true (hdense.symm.trans hsparse)
    · exact Nat.not_lt.mpr hle hover
  have hfree : ¬ (8 ≤ x.versions.length ∨ usableBytes t 1 < storedBytes (modTable k (withVersion x (versionMade (verOp h 0) b l)) t)) :=
    not_or.mpr ⟨Nat.not_le.mpr hcount, Nat.not_lt.mpr hroom⟩
  unfold versionNewBody
  simp only [hver, hro, Bool.false_eq_true, if_false]
  split
  next hnone =>
    split at hb
    next h0 => simp [h0] at hnone
    next h0 => simp [h0, hb] at hnone
  next b' hbase =>
    obtain rfl : b = b' := by
      split at hb
      next h0 => simpa [h0, hb] using hbase
      next h0 => simpa [h0, hb] using hbase
    split
    next hnone =>
      split at hl
      next h0 => simp [h0] at hnone
      next h0 => simp [h0, hl] at hnone
    next l' hlist =>
      obtain rfl : l = l' := by
        split at hl
        next h0 => simpa [h0, hl] using hlist
        next h0 => simpa [h0, hl] using hlist
      exact (if_neg hfits).trans (if_neg hfree)

theorem versionSwitchBody_switches {v : Version} (hv : mget x.versions (verOp h 0) = some v) (hcond : v.cond ≠ .retired) :
    versionSwitchBody h t = okWith (modTable k (switchTo (verOp h 0)) t) := by
  simp only [versionSwitchBody, hver, hv, if_neg hcond]
  rfl

theorem versionRetireBody_retires {v : Version} (hv : mget x.versions (verOp h 0) = some v) (hcond : v.cond ≠ .current) :
    versionRetireBody h t = okWith (retireVersion k (verOp h 0) t) := by
  simp only [versionRetireBody, hver, hv, if_neg hcond]

theorem rowPinBody_pins {v : Version} (hv : mget x.versions (verOp h 0) = some v) (hcond : v.cond ≠ .retired)
    (hcount : x.pins.length < 64) (hrange : verOp h 1 + verOp h 2 ≤ x.nRows) (hreplicas : verOp h 3 ≤ 8) :
    rowPinBody h t = okWith (applyPin k (verOp h 0) (verOp h 1) (verOp h 2) (verOp h 3)
      (modTable k (withPin ⟨verOp h 0, verOp h 1, verOp h 2, verOp h 3⟩) t)) := by
  simp only [rowPinBody, hver, if_neg (not_or.mpr ⟨Nat.not_lt.mpr hrange, Nat.not_lt.mpr hreplicas⟩), hv, if_neg hcond,
    if_neg (Nat.not_le.mpr hcount)]
  rfl

theorem rowPinBody_invalid (hbad : x.nRows < verOp h 1 + verOp h 2 ∨ 8 < verOp h 3) :
    rowPinBody h t = deny Status.tableInvalid t := by
  simp only [rowPinBody, hver, if_pos hbad]

end

/-- A table with a version more lists it under the next number, beside those before (11 R402). -/
theorem withVersion_effect {x y : Table} {v : Version} (hy : y = withVersion x v x) : mget y.versions (nextVersion x) = some v ∧
    (∀ j, j ≠ nextVersion x → mget y.versions j = mget x.versions j) ∧ y = { x with highest := nextVersion x, versions := y.versions } := by
  subst hy
  exact ⟨mget_mset_same _ _ _, fun _ hj => mget_mset_other _ _ _ _ hj, rfl⟩

/-- A switch leaves no other version CURRENT. -/
theorem fst_of_current_mem_switchTo {n : Nat} {x : Table} {e : Nat × Version} (he : e ∈ (switchTo n x).versions)
    (hcurrent : e.2.cond = .current) : e.1 = n := by
  obtain ⟨⟨j, z⟩, -, rfl⟩ := List.mem_map.mp he
  dsimp only at hcurrent ⊢
  split at hcurrent
  next hj => exact hj
  next =>
    split at hcurrent
    next => cases hcurrent
    next hz => exact absurd hcurrent hz

/-- After a switch the version named is the CURRENT one, and one that was is LIVE (11 R404). -/
theorem switchTo_effect {n : Nat} {x : Table} {v : Version} (hv : mget x.versions n = some v) :
    mget (switchTo n x).versions n = some { v with cond := .current } ∧ currentVersion (switchTo n x) = some n ∧
      ∀ j z, j ≠ n → mget x.versions j = some z → z.cond = .current →
        mget (switchTo n x).versions j = some { z with cond := .live } := by
  have hsame : mget (switchTo n x).versions n = some { v with cond := .current } := by
    simp only [switchTo, mget_mmap, hv, Option.map_some, if_true]
  refine ⟨hsame, ?_, fun j z hj hz hcond => ?_⟩
  · have hlisted : ((switchTo n x).versions.find? fun e => e.2.cond == .current).isSome :=
      List.find?_isSome.mpr ⟨_, mem_of_mget hsame, beq_self_eq_true VerCond.current⟩
    obtain ⟨e, he⟩ := Option.isSome_iff_exists.mp hlisted
    refine Option.map_eq_some_iff.mpr ⟨e, he, ?_⟩
    have hcurrent : (e.2.cond == VerCond.current) = true := List.find?_some (p := fun e : Nat × Version => e.2.cond == .current) he
    exact fst_of_current_mem_switchTo (List.mem_of_find?_eq_some he) (eq_of_beq hcurrent)
  · simp only [switchTo, mget_mmap, hz, Option.map_some, if_neg hj, hcond, if_true]

/-! ### A retired version (11 R405, R425) -/

/-- A version marked retired, before its rows are demoted. -/
def markRetired (k v : Nat) (s : State) : State :=
  endRowConflicts k (some v) (modVersion k v (fun x => { x with cond := .retired }) s)

/-- A version retired whose rows are demoted, before what nothing uses any more is dropped. -/
def demoteRetired (k v : Nat) (s : State) : State :=
  foldS (hotRows (markRetired k v s) k v) (fun t r => demoteRow k v r t) (markRetired k v s)

theorem retireVersion_eq (k v : Nat) (s : State) : retireVersion k v s = releaseUnused (demoteRetired k v s) := rfl

theorem demoteRetired_objAndRecords (k v : Nat) (s : State) : ObjAndRecords s (demoteRetired k v s) := by
  have hmarked : ObjAndRecords s (markRetired k v s) :=
    ((ObjAndCounts.refl s).modTable k _).objAndRecords.trans (endRowConflicts_objAndRecords k (some v) _)
  have hdemoted : ObjAndCounts (markRetired k v s) (demoteRetired k v s) :=
    foldS_inv (ObjAndCounts (markRetired k v s)) _ _ _
      (fun _ row ht => (objAndCounts_keptByHotRows k v _).demoteRow row ht) (ObjAndCounts.refl _)
  exact hmarked.trans hdemoted.objAndRecords

theorem demoteRetired_retires {k v : Nat} {x : Table} {y : Version} {s : State} (hk : mget s.obj.tables k = some x)
    (hv : mget x.versions v = some y) : VersionRetired k v (demoteRetired k v s) := by
  refine foldS_inv (VersionRetired k v) _ _ _ (fun _ row ht => (versionRetired_keptByHotRows k v).demoteRow row ht) ?_
  intro t z ht hz
  rw [markRetired, endRowConflicts_obj, modVersion, modTable_eq_store hk] at ht
  obtain rfl := eq_of_mem_mset ht
  simp only [mupd, hv] at hz
  rw [eq_of_mem_mset hz]

/-- A retired version stays listed as retired, or is freed (11 R405). -/
theorem retireVersion_effect {k v : Nat} {x : Table} {y : Version} {s : State} (hk : mget s.obj.tables k = some x)
    (hv : mget x.versions v = some y) : (∀ w, versionOf (retireVersion k v s) k v = some w → w.cond = .retired) ∧
      (retireVersion k v s).hif.hostMem = s.hif.hostMem := by
  rw [retireVersion_eq]
  refine ⟨fun w hw => ?_, ?_⟩
  · obtain ⟨t, ht, hw⟩ := Option.bind_eq_some_iff.mp hw
    obtain ⟨t', l, ht', rfl, hkept⟩ := mem_releaseUnused_tables (mem_of_mget ht)
    exact demoteRetired_retires hk hv t' w ht' (hkept _ (mem_of_mget hw))
  · obtain ⟨o, z, hdropped⟩ := releaseUnused_only (demoteRetired k v s)
    obtain ⟨-, hmem, -⟩ := demoteRetired_objAndRecords k v s
    rw [hdropped]
    exact hmem

/-- A pin joins the pins of its table, and the rows it covers are brought to its count (11 R427). -/
theorem pinned_effect {k v first count n : Nat} {x : Table} {p : RowPin} {s u : State} (hk : mget s.obj.tables k = some x)
    (hu : u = applyPin k v first count n (modTable k (withPin p) s)) : ∃ y, mget u.obj.tables k = some y ∧
      y.pins = x.pins ++ [p] ∧ y.id = x.id ∧ u.hif.hostMem = s.hif.hostMem ∧ ObjOnly s u := by
  have hpinned : TablePins k (x.pins ++ [p]) x.id (modTable k (withPin p) s) := ⟨_, mget_modTable_same hk _, rfl, rfl⟩
  obtain ⟨y, hy, hpins, hid⟩ := (tablePins_keptByHotRows k v _ _).applyPin first count n hpinned
  obtain ⟨honly, hmem, -⟩ := (objAndCounts_keptByHotRows k v s).applyPin first count n ((ObjAndCounts.refl s).modTable k (withPin p))
  subst hu
  exact ⟨y, hy, hpins, hid, hmem, honly⟩

/-- Settles O17: a creation stores its table and writes its rows, a deletion leaves no loaded table with the ID, and each version
command changes the one table it names. -/
theorem tablesAndVersions : Obligations.tables_and_versions := by
  unfold Obligations.tables_and_versions
  refine ⟨?_, ?_, ?_, ?_, ?_, ?_, ?_⟩
  · intro h x k s t f ht hro hx hk hid hshadow howner hreserved hroom
    rw [exec_tableCreate ht, tableCreateBody_creates hro hx hk hid hshadow howner hreserved hroom]
    exact ⟨_, rfl, (storeTable_tableChanged _ _ _).acceptWrites _, currentVersion_of_parseTable hx⟩
  · intro h k s t f ht hk hone
    rw [exec_tableDelete ht, tableDeleteBody_deletes hk]
    exact ⟨_, rfl, deleted_effect hk hone rfl⟩
  · intro h k x b v l s t f ht hop hver hro hb hl hv hcap hcount hroom
    subst hv
    rw [exec_versionNew ht hop, versionNewBody_makes hver hro hb hl hcap hcount hroom]
    exact ⟨_, _, rfl, (modTable_tableChanged (mget_of_verTable hver) _).acceptWrites _, withVersion_effect rfl⟩
  · intro h k x v s t f ht hop hver hv hcond
    obtain ⟨hsame, hcurrent, hothers⟩ := switchTo_effect hv
    rw [exec_versionSwitch ht hop, versionSwitchBody_switches hver hv hcond]
    exact ⟨_, _, rfl, mget_modTable_same (mget_of_verTable hver) _, hsame, hcurrent, hothers, rfl⟩
  · intro h k x v s t f ht hop hver hv hcond
    rw [exec_versionRetire ht hop, versionRetireBody_retires hver hv hcond]
    exact ⟨rfl, retireVersion_effect (mget_of_verTable hver) hv⟩
  · intro h k x v s t f ht hop hver hv hcond hcount hrange hreplicas
    obtain ⟨y, heffect⟩ := pinned_effect (mget_of_verTable hver) rfl
    rw [exec_rowPin ht hop, rowPinBody_pins hver hv hcond hcount hrange hreplicas]
    exact ⟨_, y, rfl, heffect⟩
  · intro h k x s t f ht hop hver hbad
    rw [exec_rowPin ht hop, rowPinBody_invalid hver hbad, finishReply_deny]

end Sys2Proof.Machine
end

section
/-! PROOFS. Hot rows and deltas: a row's way to REPLICATED and back, where a combined delta lands or what it counts when dropped, and
write-backs (11 R413 to R415, R422 to R425; 12 R436, R470; 13 R486). -/

namespace Sys2Proof.Machine

/-! ### A version of a table, and its hot rows (11 R401, R423) -/

section
variable (k v : Nat) (s : State)

@[simp] theorem versionOf_evCount (p src n : Nat) : versionOf (evCount p src n s) k v = versionOf s k v := by simp [versionOf]

@[simp] theorem versionOf_holdOutput (p : Nat) (src : Nat × Nat × Nat) (l : List Nat) :
    versionOf (holdOutput p src l s) k v = versionOf s k v := by simp [versionOf]

theorem versionOf_modTable {f : Table → Table} (hf : ∀ t, (f t).versions = t.versions) :
    versionOf (modTable k f s) k v = versionOf s k v := by
  rw [versionOf, mget_modTable, if_pos rfl, Option.bind_map]
  exact congrArg _ (funext fun t => congrArg (mget · v) (hf t))

theorem versionOf_modVersion (f : Version → Version) : versionOf (modVersion k v f s) k v = (versionOf s k v).map f := by
  rw [versionOf, modVersion, mget_modTable, if_pos rfl, Option.bind_map, versionOf, Option.map_bind]
  exact congrArg _ (funext fun t => (mget_mupd _ _ _ _).trans (if_pos rfl))

end

/-- The version of a table at hand. -/
theorem versionOf_eq {k v : Nat} {t : Table} {x : Version} {s : State} (hk : mget s.obj.tables k = some t)
    (hv : mget t.versions v = some x) : versionOf s k v = some x := by rw [versionOf, hk, Option.bind_some, hv]

theorem hotOf_eq {k v : Nat} {x : Version} {s : State} (hx : versionOf s k v = some x) (row : Nat) :
    hotOf s k v row = mget x.hot row := by rw [hotOf, hx, Option.bind_some]

/-- The table and version that a row command names are there. -/
theorem mget_of_rowOf {id v k : Nat} {t : Table} {x : Version} {s : State} (h : rowOf s id v = some (k, t, x)) :
    mget s.obj.tables k = some t ∧ mget t.versions v = some x := by
  have hhere : ∀ j, ((mget s.obj.tables j).bind fun t => (mget t.versions v).map fun x => (j, t, x)) = some (k, t, x) →
      mget s.obj.tables k = some t ∧ mget t.versions v = some x := by
    intro j hj
    obtain ⟨t', ht, hj⟩ := Option.bind_eq_some_iff.mp hj
    obtain ⟨x', hx, hfound⟩ := Option.map_eq_some_iff.mp hj
    obtain ⟨hjk, htx⟩ := Prod.mk.inj hfound
    obtain ⟨rfl, rfl⟩ := Prod.mk.inj htx
    exact ⟨hjk ▸ ht, hx⟩
  unfold rowOf at h
  dsimp only at h
  split at h
  next r hr =>
    obtain ⟨j, -, hj⟩ := Option.bind_eq_some_iff.mp (hr.trans h)
    exact hhere j hj
  next =>
    obtain ⟨e, -, he⟩ := List.exists_of_findSome?_eq_some h
    exact hhere e.1 he

theorem versionOf_of_rowOf {id v k : Nat} {t : Table} {x : Version} {s : State} (h : rowOf s id v = some (k, t, x)) :
    versionOf s k v = some x := by
  obtain ⟨hk, hv⟩ := mget_of_rowOf h
  exact versionOf_eq hk hv

/-- A row's state out of HOME becomes another, and no other row's does. -/
def HotRowBecomes (k v row : Nat) (r : Option HotRow) (s u : State) : Prop :=
  hotOf u k v row = r ∧ ∀ q, q ≠ row → hotOf u k v q = hotOf s k v q

section
variable {k v row : Nat} {x y : Version} {s u : State} (hx : versionOf s k v = some x)
include hx

theorem hotRowBecomes_of_versionOf {r : Option HotRow} (hy : versionOf u k v = some y) (hsame : mget y.hot row = r)
    (hothers : ∀ q, q ≠ row → mget y.hot q = mget x.hot q) : HotRowBecomes k v row r s u :=
  ⟨(hotOf_eq hy row).trans hsame, fun q hq => by rw [hotOf_eq hy, hotOf_eq hx, hothers q hq]⟩

theorem hotRowBecomes_of_modHot {r : HotRow} (hr : mget x.hot row = some r) {f : HotRow → HotRow}
    (hu : versionOf u k v = versionOf (modHot k v row f s) k v) : HotRowBecomes k v row (some (f r)) s u := by
  rw [modHot, versionOf_modVersion, hx, Option.map_some] at hu
  exact hotRowBecomes_of_versionOf hx hu ((mget_mupd _ _ _ _).trans (by rw [if_pos rfl, hr, Option.map_some]))
    fun q hq => mget_mupd_other hq _ _

end

/-! ### ROW_PROMOTE (11 R424, R429) -/

/-- With repl_hold and repl_drain clear any row may be promoted (11 R429). -/
theorem mayPromote_of_clear {s : State} (h : s.obj.tblCtl.toNat % 4 = 0) (pin : Option Nat) : mayPromote s pin = true := by
  have hhold : s.obj.tblCtl.getLsbD 0 = false := by
    rw [BitVec.getLsbD, Nat.testBit_eq_decide_div_mod_eq, decide_eq_false_iff_not]
    omega
  have hdrain : s.obj.tblCtl.getLsbD 1 = false := by
    rw [BitVec.getLsbD, Nat.testBit_eq_decide_div_mod_eq, decide_eq_false_iff_not]
    omega
  rw [mayPromote, hhold, hdrain]
  rfl

/-- A promotion as the pacer starts it: into the replicas granted, with a record of what held it back (11 R424; 19 R714). -/
def promoted (k : Nat) (t : Table) (v row n : Nat) (s : State) : State :=
  holdOutput 2 (k, v, row) [(grantedReplicas s k t v row n).2] (startPromotion k v row (grantedReplicas s k t v row n).1 s)

theorem exec_rowPromote_promotes {id v row n k : Nat} {t : Table} {x : Version} {s : State} (h : rowOf s id v = some (k, t, x))
    (hrow : row < t.nRows) (hcond : x.cond ≠ .retired) (hctl : s.obj.tblCtl.toNat % 4 = 0) (hhome : mget x.hot row = none) :
    exec (.rowPromote id v row n) s = .next (fitLeases (promoted k t v row n s)) := by
  have hmay : ¬ (t.nRows ≤ row ∨ x.cond = .retired ∨ (!mayPromote s (pinnedCount t v row)) = true) := by
    rw [mayPromote_of_clear hctl]
    simp [hcond, hrow]
  change execRowPromote id v row n s = _
  simp only [execRowPromote, h, if_neg hmay, hhome]
  rfl

theorem promoted_effect {v row n k : Nat} {t : Table} {x : Version} {s : State} (hx : versionOf s k v = some x)
    (hgranted : (grantedReplicas s k t v row n).1 ≠ []) :
    HotRowBecomes k v row (some { state := .copyingUp, replicas := (grantedReplicas s k t v row n).1 }) s (promoted k t v row n s) ∧
      ObjAndRecords s (promoted k t v row n s) := by
  have hstart : (grantedReplicas s k t v row n).1.isEmpty = false := by simp [hgranted]
  constructor
  · refine hotRowBecomes_of_versionOf hx (y := { x with
      hot := mset x.hot row { state := .copyingUp, replicas := (grantedReplicas s k t v row n).1 } }) ?_
      (mget_mset_same _ _ _) fun q hq => mget_mset_other _ _ _ _ hq
    rw [promoted, versionOf_holdOutput, startPromotion, hstart, if_neg Bool.false_ne_true]
    dsimp only
    rw [versionOf_evCount, versionOf_modTable, versionOf_modVersion, hx, Option.map_some]
    exact fun _ => rfl
  · refine ObjAndRecords.trans ?_ (holdOutput_objAndRecords _ _ _ _)
    rw [startPromotion, hstart, if_neg Bool.false_ne_true]
    exact ((((ObjAndCounts.refl s).modTable k _).modTable k _).evCount _ _ _).objAndRecords

/-! ### The way to REPLICATED and back to HOME (11 R423 to R425) -/

section
variable {id v row k : Nat} {t : Table} {x : Version} {r : HotRow} {s : State}

theorem exec_promotionSnapshotsDone_holds (h : rowOf s id v = some (k, t, x)) (hr : mget x.hot row = some r)
    (hstate : r.state = .copyingUp) :
    exec (.promotionSnapshotsDone id v row) s = .next (modHot k v row (fun y => { y with holding := true }) s) := by
  change execPromotionSnapshotsDone id v row s = _
  simp only [execPromotionSnapshotsDone, h, hr, if_pos hstate]

/-- A row that no wish waits for stays as it is, unless its version is retired (11 R425). -/
theorem takeWanted_none (hx : versionOf s k v = some x) (hr : mget x.hot row = some r) (hwish : r.wanted = none)
    (hcond : x.cond ≠ .retired) : takeWanted k v row s = s := by
  obtain ⟨y, hy, hv⟩ := Option.bind_eq_some_iff.mp hx
  simp only [takeWanted, hy, hv, Option.bind_some, hr, Option.map_some, hwish, hcond, decide_false, Bool.false_eq_true, if_false]

/-- A row whose promotion is done. -/
def HotRow.replicatedNow (r : HotRow) : HotRow := { r with state := .replicated, holding := false, log := [], heldAdds := [] }

theorem exec_promotionLogApplied_replicates (h : rowOf s id v = some (k, t, x)) (hr : mget x.hot row = some r)
    (hstate : r.state = .copyingUp) (hholding : r.holding = true) (hheld : r.heldAdds = []) (hwish : r.wanted = none)
    (hcond : x.cond ≠ .retired) :
    exec (.promotionLogApplied id v row) s = .next (modHot k v row HotRow.replicatedNow s) := by
  have hx : versionOf (modHot k v row HotRow.replicatedNow s) k v =
      some { x with hot := mupd x.hot row HotRow.replicatedNow } := by
    rw [modHot, versionOf_modVersion, versionOf_of_rowOf h, Option.map_some]
  have hdone : mget (mupd x.hot row HotRow.replicatedNow) row = some r.replicatedNow := by
    rw [mget_mupd, if_pos rfl, hr, Option.map_some]
  change execPromotionLogApplied id v row s = _
  simp only [execPromotionLogApplied, h, hr, if_pos (And.intro hstate hholding), hheld, releaseHeld, foldS_nil]
  exact congrArg _ (takeWanted_none hx hdone hwish hcond)

/-- A replicated row that is to be demoted starts on its way (11 R423). -/
theorem demoteRow_replicated (hx : versionOf s k v = some x) (hr : mget x.hot row = some r) (hstate : r.state = .replicated) :
    demoteRow k v row s = startDemotion k v row s := by
  obtain ⟨y, hy, hv⟩ := Option.bind_eq_some_iff.mp hx
  simp only [demoteRow, hy, hv, Option.bind_some, hr, if_pos hstate]

theorem exec_rowDemote_starts (h : rowOf s id v = some (k, t, x)) (hpin : pinnedCount t v row = none)
    (hr : mget x.hot row = some r) (hstate : r.state = .replicated) :
    exec (.rowDemote id v row) s = .next (startDemotion k v row (holdOutput 2 (k, v, row) [] s)) := by
  have hx : versionOf (holdOutput 2 (k, v, row) [] s) k v = some x := (versionOf_holdOutput ..).trans (versionOf_of_rowOf h)
  change execRowDemote id v row s = _
  simp only [execRowDemote, h, hpin, demoteRow_replicated hx hr hstate]

theorem startDemotion_becomes (hx : versionOf s k v = some x) (hr : mget x.hot row = some r) :
    HotRowBecomes k v row (some { r with state := .copyingDown }) s (startDemotion k v row s) := by
  refine hotRowBecomes_of_modHot hx hr (f := fun y => { y with state := .copyingDown }) ?_
  rw [startDemotion, versionOf_evCount, versionOf_modTable]
  exact fun _ => rfl

/-- A version with one row in HOME again (11 R423). -/
def homeAgain (row : Nat) (y : Version) : Version := { y with hot := merase y.hot row }

theorem exec_demotionReadsDone_ends (h : rowOf s id v = some (k, t, x)) (hr : mget x.hot row = some r)
    (hstate : r.state = .copyingDown) (hwish : r.wanted = none) :
    exec (.demotionReadsDone id v row) s = .next (modVersion k v (homeAgain row) s) := by
  change execDemotionReadsDone id v row s = _
  simp only [execDemotionReadsDone, h, hr, if_pos hstate, hwish]
  rfl

theorem homeAgain_becomes (hx : versionOf s k v = some x) : HotRowBecomes k v row none s (modVersion k v (homeAgain row) s) := by
  refine hotRowBecomes_of_versionOf hx (y := homeAgain row x) ?_ ((mget_merase _ _ _).trans (if_pos rfl))
    fun q hq => (mget_merase _ _ _).trans (if_neg hq)
  rw [versionOf_modVersion, hx, Option.map_some]

end

/-! ### ROW_DELTA_ARRIVE (11 R413 to R415, R422; 12 R436) -/

@[simp] theorem noteDrop_obj (e : Nat) (r : AddEnd) (s : State) : (noteDrop e r s).obj = s.obj := by
  cases r <;> rfl

/-- What the conversion of a delta's elements leaves in its table's counters (03 R85, R86; 11 R428). -/
def countConverted (t : Table) (ds : List RowDelta) (x : Table) : Table :=
  let c := ds.map (convDelta t.fmt t.frac)
  { x with nanDeltas := x.nanDeltas + (c.filter fun y => y.2.2).length, flags := if c.any fun y => y.2.1 then x.flags ||| 1 else x.flags }

/-- A combined delta as it waits at its row's home, converted. -/
def convertedAdd (t : Table) (src : Nat) (ds : List RowDelta) : HeldAdd :=
  { deltas := ds.map fun d => (convDelta t.fmt t.frac d).1, entry := some src }

/-- A table with one more delta counted as dropped for a retired version (11 R415). -/
def countRetired (x : Table) : Table := { x with dropRetired := x.dropRetired + 1, flags := x.flags ||| 4 }

/-- A table with one more add counted, and its saturation (11 R428, R432). -/
def countAdd (sat : Bool) (x : Table) : Table := { x with adds := x.adds + 1, flags := if sat then x.flags ||| 1 else x.flags }

section
variable {id v row src k : Nat} {ds : List RowDelta} {t : Table} {x : Version} {s : State} (hk : mget s.obj.tables k = some t)
include hk

theorem deltaArrive_eq : deltaArrive k v row src ds s =
    applyAdd k v row (convertedAdd t src ds) (modTable k (countConverted t ds) s) := by
  simp only [deltaArrive, hk, List.map_map]
  rfl

theorem applyAdd_retired {h : HeldAdd} (hv : mget t.versions v = some x) (hcond : x.cond = .retired) :
    applyAdd k v row h s = (.retired, evCount 7 4 1 (modTable k countRetired s)) := by
  simp only [applyAdd, hk, hv, if_pos hcond]
  rfl

/-- An add to a row in HOME lands there where the table has room for it (11 R413, R414). -/
theorem applyAdd_lands {h : HeldAdd} (hv : mget t.versions v = some x) (hcond : x.cond ≠ .retired) (hhome : mget x.hot row = none)
    (hroom : (mget x.rows row).isSome = true ∨ t.sparse = false ∨ x.rows.length < t.capacity) {a : Bytes × Bool}
    (ha : a = addRow t.fmt ((mget x.rows row).getD (zeros (slotBytesOf t.fmt t.rowElems))) h.deltas) :
    applyAdd k v row h s =
      (.applied, evCount 7 3 1 (modTable k (countAdd a.2) (modVersion k v (landAdd (now s) row a.1) s))) := by
  have hfits : ((mget x.rows row).isNone && t.sparse && decide (t.capacity ≤ x.rows.length)) = false := by
    rcases hroom with hlisted | hdense | hfree
    · simp [Option.isNone_eq_false_iff.mpr hlisted]
    · simp [hdense]
    · simp [Nat.not_le.mpr hfree]
  subst ha
  simp only [applyAdd, hk, hv, if_neg hcond, hfits, Bool.false_eq_true, if_false, hhome]
  rfl

variable (hid : (s.obj.tables.find? fun y => y.2.id == id) = some (k, t)) (haddable : t.addable = true)
include hid haddable

theorem exec_rowDeltaArrive_applies (hrow : row < t.nRows) : exec (.rowDeltaArrive id v row ds src) s =
    .next (noteDrop src (deltaArrive k v row src (ds.take t.rowElems) s).1 (deltaArrive k v row src (ds.take t.rowElems) s).2) := by
  change execRowDeltaArrive id v row ds src s = _
  simp only [execRowDeltaArrive, hid, Option.map_some, hk, haddable, Bool.not_true, Bool.false_eq_true, if_false,
    if_neg (Nat.not_le.mpr hrow)]

/-- The table and its version after a delta has landed. -/
def landed (k v row : Nat) (t : Table) (ds : List RowDelta) (a : Bytes × Bool) (s : State) : State :=
  evCount 7 3 1 (modTable k (countAdd a.2) (modVersion k v (landAdd (now s) row a.1) (modTable k (countConverted t ds) s)))

theorem exec_rowDeltaArrive_lands (hrow : row < t.nRows) (hv : mget t.versions v = some x) (hcond : x.cond ≠ .retired)
    (hhome : mget x.hot row = none) (hroom : (mget x.rows row).isSome = true ∨ t.sparse = false ∨ x.rows.length < t.capacity)
    {a : Bytes × Bool} (ha : a = addRow t.fmt ((mget x.rows row).getD (zeros (slotBytesOf t.fmt t.rowElems)))
      ((ds.take t.rowElems).map fun d => (convDelta t.fmt t.frac d).1)) :
    exec (.rowDeltaArrive id v row ds src) s = .next (landed k v row t (ds.take t.rowElems) a s) := by
  rw [exec_rowDeltaArrive_applies hk hid haddable hrow, deltaArrive_eq hk,
    applyAdd_lands (mget_modTable_same hk _) hv hcond hhome hroom ha]
  rfl

theorem exec_rowDeltaArrive_retired (hrow : row < t.nRows) (hv : mget t.versions v = some x) (hcond : x.cond = .retired) :
    exec (.rowDeltaArrive id v row ds src) s = .next (noteDrop src .retired
      (evCount 7 4 1 (modTable k countRetired (modTable k (countConverted t (ds.take t.rowElems)) s)))) := by
  rw [exec_rowDeltaArrive_applies hk hid haddable hrow, deltaArrive_eq hk, applyAdd_retired (mget_modTable_same hk _) hv hcond]

theorem exec_rowDeltaArrive_beyond (hrow : t.nRows ≤ row) : exec (.rowDeltaArrive id v row ds src) s =
    .next (evCount 7 4 1 (modTable k (fun y => { y with dropIndex := y.dropIndex + 1 }) s)) := by
  change execRowDeltaArrive id v row ds src s = _
  simp only [execRowDeltaArrive, hid, Option.map_some, hk, haddable, Bool.not_true, Bool.false_eq_true, if_false, if_pos hrow]

end

/-- What an add's landing makes of its version: the row, its sequence number and its dirty mark (11 R422; 12 R436). -/
theorem landAdd_effect (t0 row : Nat) (b : Bytes) (x : Version) : mget (landAdd t0 row b x).rows row = some b ∧
    (∀ q, q ≠ row → mget (landAdd t0 row b x).rows q = mget x.rows q) ∧
    mgetD (landAdd t0 row b x).seqs row 0 = mgetD x.seqs row 0 + 1 ∧ mhas (landAdd t0 row b x).dirty row = true ∧
    (landAdd t0 row b x).cond = x.cond ∧ (landAdd t0 row b x).hot = x.hot := by
  refine ⟨mget_mset_same _ _ _, fun q hq => mget_mset_other _ _ _ _ hq, mgetD_mmod_same _ _ _ _, ?_, rfl, rfl⟩
  simp only [landAdd]
  split
  next hdirty => exact hdirty
  next => simp [mhas]

theorem versionOf_landed {k v row : Nat} {t : Table} {x : Version} {ds : List RowDelta} {a : Bytes × Bool} {s : State}
    (hx : versionOf s k v = some x) : versionOf (landed k v row t ds a s) k v = some (landAdd (now s) row a.1 x) := by
  have hadds : ∀ y, (countAdd a.2 y).versions = y.versions := fun _ => rfl
  have hconverted : ∀ y, (countConverted t ds y).versions = y.versions := fun _ => rfl
  rw [landed, versionOf_evCount, versionOf_modTable _ _ _ hadds, versionOf_modVersion, versionOf_modTable _ _ _ hconverted, hx,
    Option.map_some]

theorem landed_objAndCounts (k v row : Nat) (t : Table) (ds : List RowDelta) (a : Bytes × Bool) (s : State) :
    ObjAndCounts s (landed k v row t ds a s) :=
  ((((ObjAndCounts.refl s).modTable k _).modTable k _).modTable k _).evCount _ _ _

/-- A delta dropped for a retired version is counted and marked in the flags, and no version differs (11 R415, R432). -/
theorem countRetired_effect (x : Table) : (countRetired x).dropRetired = x.dropRetired + 1 ∧
    (countRetired x).flags.getLsbD 2 = true ∧ (countRetired x).versions = x.versions :=
  ⟨rfl, by simp [countRetired], rfl⟩

/-! ### DIRTY_WRITEBACK (12 R436) -/

/-- A version with one row written back. -/
def cleaned (row : Nat) (y : Version) : Version := { y with dirty := merase y.dirty row, homes := merase y.homes row }

theorem exec_dirtyWriteback_cleans {id v row k : Nat} {t : Table} {x : Version} {s : State} (h : rowOf s id v = some (k, t, x))
    (hro : s.flash.storeRo = false) (hdirty : mhas x.dirty row = true) : exec (.dirtyWriteback id v row) s =
      .next (acceptWrites (rowWrites k v t [row]) (modVersion k v (cleaned row) s)) := by
  obtain ⟨hk, -⟩ := mget_of_rowOf h
  change execDirtyWriteback id v row s = _
  simp only [execDirtyWriteback, h, hro, hdirty, Bool.not_true, Bool.or_self, Bool.false_eq_true, if_false, writeRowBack, hk]
  rfl

/-- Settles O18: each command of a row's way changes the state of that row alone, a delta lands in its version or is counted, and a
write-back erases the mark. -/
theorem hotRowsAndDeltas : Obligations.hot_rows_and_deltas := by
  unfold Obligations.hot_rows_and_deltas
  refine ⟨?_, ?_, ?_, ?_, ?_, ?_, ?_, ?_, ?_⟩
  · intro id v row n k t x s h hrow hcond hctl hhome hgranted
    obtain ⟨⟨hrow', hothers⟩, honly⟩ := promoted_effect (versionOf_of_rowOf h) hgranted
    exact ⟨_, exec_rowPromote_promotes h hrow hcond hctl hhome, hrow', hothers, honly⟩
  · intro id v row k t x r s h hr hstate
    obtain ⟨hrow, hothers⟩ := hotRowBecomes_of_modHot (versionOf_of_rowOf h) hr rfl
    exact ⟨_, exec_promotionSnapshotsDone_holds h hr hstate, hrow, hothers, rfl⟩
  · intro id v row k t x r s h hr hstate hholding hheld hwish hcond
    obtain ⟨hrow, -⟩ := hotRowBecomes_of_modHot (versionOf_of_rowOf h) hr rfl
    exact ⟨_, exec_promotionLogApplied_replicates h hr hstate hholding hheld hwish hcond, hrow, rfl⟩
  · intro id v row k t x r s h hpin hr hstate
    have hx : versionOf (holdOutput 2 (k, v, row) [] s) k v = some x := (versionOf_holdOutput ..).trans (versionOf_of_rowOf h)
    obtain ⟨hrow, hothers⟩ := startDemotion_becomes hx hr
    refine ⟨_, exec_rowDemote_starts h hpin hr hstate, hrow, fun q hq => (hothers q hq).trans ?_, ?_⟩
    · rw [hotOf_eq hx, hotOf_eq (versionOf_of_rowOf h)]
    · exact (holdOutput_objAndRecords _ _ _ s).trans
        ((objAndCounts_keptByHotRows k v _).startDemotion row (.refl _)).objAndRecords
  · intro id v row k t x r s h hr hstate hwish
    obtain ⟨hrow, hothers⟩ := homeAgain_becomes (row := row) (versionOf_of_rowOf h)
    exact ⟨_, exec_demotionReadsDone_ends h hr hstate hwish, hrow, hothers, rfl⟩
  · intro id v row k src ds t x s hid hk haddable hrow hv hcond hhome hroom
    obtain ⟨hsame, hothers, hseq, hdirty, hkeepsCond, hkeepsHot⟩ := landAdd_effect (now s) row _ x
    obtain ⟨honly, hmem, -⟩ := landed_objAndCounts k v row t (ds.take t.rowElems) _ s
    exact ⟨_, _, exec_rowDeltaArrive_lands hk hid haddable hrow hv hcond hhome hroom rfl, versionOf_landed (versionOf_eq hk hv),
      hsame, hothers, hseq, hdirty, hkeepsCond, hkeepsHot, hmem, honly⟩
  · intro id v row k src ds t x s hid hk haddable hrow hv hcond
    refine ⟨_, countRetired (countConverted t (ds.take t.rowElems) t), exec_rowDeltaArrive_retired hk hid haddable hrow hv hcond, ?_,
      countRetired_effect (countConverted t (ds.take t.rowElems) t)⟩
    rw [noteDrop_obj, evCount_obj]
    exact mget_modTable_same (mget_modTable_same hk _) _
  · intro id v row k src ds t s hid hk haddable hrow
    refine ⟨_, exec_rowDeltaArrive_beyond hk hid haddable hrow, ?_⟩
    rw [evCount_obj]
    exact mget_modTable_same hk _
  · intro id v row k t x s h hro hdirty
    obtain ⟨hk, hv⟩ := mget_of_rowOf h
    refine ⟨_, cleaned row x, _, exec_dirtyWriteback_cleans h hro hdirty, (modTable_tableChanged hk _).acceptWrites _, ?_, ?_, ?_, rfl⟩
    · exact (mget_mupd _ _ _ _).trans (by rw [if_pos rfl, hv, Option.map_some])
    · simp [mhas, cleaned, mget_merase]
    · exact fun q hq => (mget_merase _ _ _).trans (if_neg hq)

end Sys2Proof.Machine
end

section
/-! PROOFS. Fetches of the relay schedule: which context of a unit a fetch belongs to, and what issuing it, its arrival and its deadline
make of that context and of the memory unit's counts (12 R458 to R462). -/

namespace Sys2Proof.Machine

/-! ### The context of a unit in one slot -/

/-- A change that leaves a state at each element of a list leaves it over the list. -/
theorem foldS_id {α : Type} {l : List α} {f : State → α → State} {s : State} (h : ∀ x ∈ l, f s x = s) : foldS l f s = s := by
  induction l with
  | nil => rfl
  | cons x l ih =>
    rw [foldS_cons, h x List.mem_cons_self]
    exact ih fun y hy => h y (List.mem_cons_of_mem _ hy)

/-- A unit that fetches is in its slots, the entry is its image's, and in one slot lies its one context. -/
theorem fetchOf_parts {s : State} {n seq : Nat} {x : SUnit} {i : Image} {c : Ctx} {r : RelayEntry} {p : Nat × Nat}
    (h : fetchOf s n seq = some (x, i, c, r)) (hp : x.slots = [p]) :
    mget s.sched.units n = some x ∧ mget (clusterOf s p.1).slots p.2 = some c ∧ r.seq = seq := by
  cases hx : mget s.sched.units n with
  | none => simp [fetchOf, hx] at h
  | some y =>
    simp only [fetchOf, hx] at h
    split at h
    next j d l _ hctx =>
      obtain ⟨q, hfind, heq⟩ := Option.map_eq_some_iff.mp h
      obtain ⟨rfl, rfl, rfl, rfl⟩ : y = x ∧ j = i ∧ d = c ∧ q = r := by simpa using heq
      refine ⟨rfl, ?_, by simpa using List.find?_some hfind⟩
      cases hslot : mget (clusterOf s p.1).slots p.2 with
      | none => simp [unitCtxs, hp, hslot] at hctx
      | some e =>
        simp only [unitCtxs, hp, List.isEmpty_cons, Bool.false_eq_true, if_false, List.filterMap_cons, List.filterMap_nil, hslot,
          List.cons.injEq] at hctx
        rw [hctx.1]
    next => cases h

/-- A change of every context of a unit in one slot is a change of that slot. -/
theorem modUnitCtxs_one_slot {n : Nat} {x : SUnit} {p : Nat × Nat} {s : State} (hx : mget s.sched.units n = some x)
    (hp : x.slots = [p]) (f : Ctx → Ctx) :
    modUnitCtxs n f s = modCluster p.1 (fun k => { k with slots := mupd k.slots p.2 f }) s := by
  have hshare (t : State) (ht : mget t.sched.units n = some x) (k : Nat) : modShare n k f t =
      if k = 0 then modCluster p.1 (fun k => { k with slots := mupd k.slots p.2 f }) t else t := by
    cases k <;> simp [modShare, ht, hp]
  have hcount : shareCount s n = max 1 x.span := by simp only [shareCount, hx, hp, List.length_singleton]
  obtain ⟨m, hm⟩ : ∃ m, shareCount s n = m + 1 := ⟨max 1 x.span - 1, by omega⟩
  rw [modUnitCtxs, hm, List.range_succ_eq_map, foldS_cons, hshare s hx, if_pos rfl]
  refine foldS_id fun k hk => ?_
  obtain ⟨j, -, rfl⟩ := List.mem_map.mp hk
  refine (hshare _ ?_ _).trans (if_neg (Nat.succ_ne_zero j))
  exact hx

/-- The context in a slot is a given one, and every other cluster is as it was. -/
structure CtxBecomes (p : Nat × Nat) (c : Ctx) (s u : State) : Prop where
  ctx : mget (clusterOf u p.1).slots p.2 = some c
  others : ∀ g, g ≠ p.1 → clusterOf u g = clusterOf s g

theorem CtxBecomes.congr {p : Nat × Nat} {c : Ctx} {s t u : State} (h : CtxBecomes p c s t)
    (hboot : u.boot.clusters = t.boot.clusters) : CtxBecomes p c s u := by
  have hcluster := clusterOf_congr hboot
  exact ⟨by rw [hcluster, h.ctx], fun g hg => by rw [hcluster, h.others g hg]⟩

theorem modUnitCtxs_ctxBecomes {n : Nat} {x : SUnit} {p : Nat × Nat} {c : Ctx} {s : State} (hx : mget s.sched.units n = some x)
    (hp : x.slots = [p]) (hc : mget (clusterOf s p.1).slots p.2 = some c) (f : Ctx → Ctx) :
    CtxBecomes p (f c) s (modUnitCtxs n f s) := by
  rw [modUnitCtxs_one_slot hx hp]
  refine ⟨?_, fun g hg => clusterOf_modCluster_other hg _ s⟩
  rw [clusterOf_modCluster_same, mget_mupd, if_pos rfl, hc, Option.map_some]

/-! ### FETCH_ISSUE (12 R458, R459) -/

/-- A context with one fetch more. -/
def Ctx.addFetch (f : Fetch) (c : Ctx) : Ctx := { c with fetches := c.fetches ++ [f] }

/-- A fetch has been issued: it joins its context's, and the issue is counted. -/
def fetchIssued (n : Nat) (f : Fetch) (s : State) : State :=
  evCount 8 4 1 (modMem (fun m => { m with fetches := m.fetches + 1 }) (modUnitCtxs n (Ctx.addFetch f) s))

/-- Without borrowing, issuing an entry asks no lender: the fetch carries its deadline, and has arrived when its data are readable
(12 R458, R460). -/
theorem issueFetch_local (n : Nat) (x : SUnit) (i : Image) (c : Ctx) (r : RelayEntry) {s : State}
    (hborrow : s.mem.ctl.getLsbD 2 = false) : ∃ f, issueFetch n x i c r s = fetchIssued n f s ∧ f.seq = r.seq ∧ f.issued = now s ∧
      f.deadline = now s + 1000 * r.deadlineUs ∧ (f.state = .arrived ∨ f.state = .outstanding) := by
  simp only [issueFetch, hborrow, Bool.not_false, or_true, true_or, if_true]
  exact ⟨_, rfl, rfl, rfl, rfl, (Decidable.em _).imp (fun h => if_pos h) fun h => if_neg h⟩

theorem exec_fetchIssue {n seq : Nat} {x : SUnit} {i : Image} {c : Ctx} {r : RelayEntry} {s : State}
    (h : fetchOf s n seq = some (x, i, c, r)) (hmay : mayIssue i c r = true) :
    exec (.fetchIssue n seq) s = .next (issueFetch n x i c r s) := by
  change execFetchIssue n seq s = _
  simp only [execFetchIssue, h, hmay, if_true]

/-! ### FETCH_ARRIVE (12 R460, R461) -/

/-- The fetches of a context when the data of an entry's outstanding one are readable. -/
def Ctx.fetchArrives (seq : Nat) (c : Ctx) : Ctx :=
  { c with fetches := c.fetches.map fun g =>
      if g.seq = seq ∧ g.state = .outstanding then { g with rowsLeft := [], state := .arrived } else g }

/-- The last rows that a fetch waits for complete it; nothing is placed in lent memory when the data come from elsewhere or borrowing is
off (12 R460, R468). -/
theorem arriveFetch_last (n : Nat) (x : SUnit) (i : Image) (c : Ctx) {r : RelayEntry} {f : Fetch} {rows : List Nat} {s : State}
    (hlast : (f.rowsLeft.filter fun y => !rows.contains y) = []) (hkept : r.fromTier ≠ 2 ∨ s.mem.ctl.getLsbD 2 = false) :
    ∃ k marks, arriveFetch n x i c r f rows s = modMem (fun m => { m with pendingFills := m.pendingFills ++ marks })
      (countFill k (modUnitCtxs n (Ctx.fetchArrives r.seq) s)) := by
  have hno : ¬(r.fromTier = 2 ∧ s.mem.ctl.getLsbD 2 = true) := by
    rintro ⟨htier, hborrow⟩
    rcases hkept with h | h
    · exact h htier
    · rw [h] at hborrow
      cases hborrow
  simp only [arriveFetch, hlast, if_neg hno, List.isEmpty_nil, if_true]
  exact ⟨_, _, rfl⟩

theorem exec_fetchArrive {n seq : Nat} {x : SUnit} {i : Image} {c : Ctx} {r : RelayEntry} {f : Fetch} {s : State}
    (h : fetchOf s n seq = some (x, i, c, r)) (hout : fetchOut c seq = some f) (htime : now s ≤ f.deadline) (rows : List Nat) :
    exec (.fetchArrive n seq rows) s = .next (arriveFetch n x i c r f rows s) := by
  change execFetchArrive n seq rows s = _
  simp only [execFetchArrive, h, hout, if_neg (Nat.not_lt.mpr htime)]

/-! ### FETCH_DEADLINE (12 R460, R462) -/

/-- The fetches of a context when an entry's has missed. -/
def Ctx.fetchMisses (seq : Nat) (c : Ctx) : Ctx :=
  { c with fetches := c.fetches.map fun g => if g.seq = seq then { g with state := .missed } else g, missed := c.missed ++ [seq] }

/-- A miss marks the unit's contexts and is counted; what it charges and counts besides is no part of the clusters or of module time. -/
theorem missFetch_effect (n : Nat) (x : SUnit) (i : Image) (c : Ctx) (r : RelayEntry) (s : State) :
    (missFetch n x i c r s).boot = (modUnitCtxs n (Ctx.fetchMisses r.seq) s).boot ∧
      (missFetch n x i c r s).mem.misses = (modUnitCtxs n (Ctx.fetchMisses r.seq) s).mem.misses + 1 := by
  unfold missFetch
  dsimp only
  split
  next =>
    simp only [evCount_boot, modMem_boot, evCount_mem, modMem_mem]
    exact ⟨rfl, rfl⟩
  next =>
    rw [foldS_keeps (fun t => t.boot) _ _ _ fun t _ => charge_boot _ _ t, foldS_keeps (fun t => t.mem) _ _ _ fun t _ => charge_mem _ _ t]
    simp only [evCount_boot, modMem_boot, evCount_mem, modMem_mem]
    exact ⟨rfl, rfl⟩

theorem exec_fetchDeadline {n seq : Nat} {x : SUnit} {i : Image} {c : Ctx} {r : RelayEntry} {f : Fetch} {s : State}
    (h : fetchOf s n seq = some (x, i, c, r)) (hout : fetchOut c seq = some f) :
    exec (.fetchDeadline n seq) s = .next (missFetch n x i c r (advanceTo f.deadline s)) := by
  change execFetchDeadline n seq s = _
  simp only [execFetchDeadline, h, hout]

theorem clusterOf_advanceTo (t : Nat) (s : State) : clusterOf (advanceTo t s) = clusterOf s :=
  clusterOf_congr (by rw [advanceTo_boot])

/-- Settles O33: a fetch's events change the one context of the unit, in its slot; issue and arrival touch the memory unit and what is
counted besides, and a miss comes at the deadline. -/
theorem fetches : Obligations.fetches := by
  unfold Obligations.fetches
  refine ⟨?_, ?_, ?_⟩
  · intro n seq p x i c r s h hp hmay hborrow
    obtain ⟨hx, hc, -⟩ := fetchOf_parts h hp
    obtain ⟨f, hissue, hseq, hissued, hdeadline, hstate⟩ := issueFetch_local n x i c r hborrow
    have hctx : CtxBecomes p (c.addFetch f) s (fetchIssued n f s) :=
      (modUnitCtxs_ctxBecomes hx hp hc (Ctx.addFetch f)).congr (by simp [fetchIssued])
    refine ⟨_, f, (exec_fetchIssue h hmay).trans (congrArg _ hissue), hctx.ctx, hseq, hissued, hdeadline, hstate, ?_, hctx.others, ?_⟩
    · simp [fetchIssued, modUnitCtxs_one_slot hx hp]
    · apply state_ext <;> simp [fetchIssued, modUnitCtxs_one_slot hx hp]
  · intro n seq p x i c r f rows s h hp hout htime hlast hkept
    obtain ⟨hx, hc, -⟩ := fetchOf_parts h hp
    obtain ⟨k, marks, harrive⟩ := arriveFetch_last n x i c hlast hkept
    have hctx : CtxBecomes p (c.fetchArrives r.seq) s (arriveFetch n x i c r f rows s) :=
      (modUnitCtxs_ctxBecomes hx hp hc (Ctx.fetchArrives r.seq)).congr (by simp [harrive, countFill])
    refine ⟨_, exec_fetchArrive h hout htime rows, hctx.ctx, hctx.others, ?_, ?_⟩
    · simp [harrive, countFill, modUnitCtxs_one_slot hx hp]
    · apply state_ext <;> simp [harrive, countFill, modUnitCtxs_one_slot hx hp]
  · intro n seq p x i c r f s h hp hout
    obtain ⟨hx, hc, -⟩ := fetchOf_parts h hp
    obtain ⟨hboot, hmisses⟩ := missFetch_effect n x i c r (advanceTo f.deadline s)
    have hx' : mget (advanceTo f.deadline s).sched.units n = some x := by rw [advanceTo_sched, hx]
    have hmiss := modUnitCtxs_ctxBecomes hx' hp (by rw [clusterOf_advanceTo, hc]) (Ctx.fetchMisses r.seq)
    have hctx := hmiss.congr (congrArg Boot.clusters hboot)
    refine ⟨_, exec_fetchDeadline h hout, hctx.ctx, ?_, ?_, fun g hg => ?_⟩
    · rw [hmisses, modUnitCtxs_one_slot hx' hp, modCluster_mem, advanceTo_mem]
    · rw [hboot, modUnitCtxs_one_slot hx' hp, modCluster_boot, advanceTo_cycles]
    · rw [hctx.others g hg, clusterOf_advanceTo]

end Sys2Proof.Machine
end

section
/-! PROOFS. Scrub passes and the end of leases: what reading a line with a correctable error makes of the line and of its stack, and
what reclaiming leases leaves of them (12 R442, R450, R451, R470, R471, R474). -/

namespace Sys2Proof.Machine

/-! ### A line with a correctable error (12 R442, R443) -/

theorem decodeLine_nil : decodeLine [] = .clean := by decide

/-- Reading a line with no corrupted bit leaves it as it is. -/
theorem readLine_clean {l : Nat} {s : State} (h : ∀ x, mget s.mem.lines l = some x → x.errBits = []) : readLine l s = s := by
  unfold readLine
  split
  next => rfl
  next x hx => simp only [h x hx, decodeLine_nil]

/-- A corrected line is written back and counted on its stack, before its row's errors are looked at (12 R442, R451). -/
def lineCorrected (n l : Nat) (y : Line) (s : State) : State :=
  evCount 8 1 1 (modStack n (fun k => { k with ce := k.ce + 1 }) (modMem (fun q => { q with lines := mset q.lines l y }) s))

theorem readLine_corrected {l m : Nat} {left : Map Nat} {x : Line} {s : State} (hx : mget s.mem.lines l = some x)
    (hdec : decodeLine x.errBits = .corrected left m) : readLine l s = noteRowError (lineStack s l) (Config.dramRow l)
      (lineCorrected (lineStack s l) l (metaApply m (miscorrect s l left { x with errBits := [] })) s) := by
  simp only [readLine, hx, hdec, lineCorrected]

/-! ### The errors of a row (12 R451) -/

theorem stackOf_congr {s u : State} (h : u.mem.stackTab = s.mem.stackTab) (n : Nat) : stackOf u n = stackOf s n := by
  rw [stackOf, stackOf, h]

theorem stackOf_modStack_same (n : Nat) (f : Stack → Stack) (s : State) : stackOf (modStack n f s) n = f (stackOf s n) :=
  mgetD_mmod_same _ _ _ _

/-- The errors of a row noted within a day. -/
def dayErrs (s : State) (n row : Nat) : List Nat :=
  (mgetD (stackOf s n).rowErrs row []).filter fun t => decide (now s < t + dayNs)

section
variable {n l : Nat} (y : Line) (s : State)

theorem stackOf_lineCorrected : stackOf (lineCorrected n l y s) n = { stackOf s n with ce := (stackOf s n).ce + 1 } := by
  rw [lineCorrected, stackOf_congr (congrArg Mem.stackTab (evCount_mem ..)), stackOf_modStack_same]
  rfl

theorem dayErrs_lineCorrected (row : Nat) : dayErrs (lineCorrected n l y s) n row = dayErrs s n row := by
  have hnow : now (lineCorrected n l y s) = now s := by simp [now, lineCorrected]
  rw [dayErrs, dayErrs, stackOf_lineCorrected, hnow]

theorem lineCorrected_spareThresh : (lineCorrected n l y s).mem.spareThresh = s.mem.spareThresh := by simp [lineCorrected]

end

/-- An error below the threshold is added to its row's. -/
theorem noteRowError_below {n row : Nat} {s : State} (h : (dayErrs s n row).length + 1 < s.mem.spareThresh) :
    noteRowError n row s =
      modStack n (fun k => { k with rowErrs := mset k.rowErrs row (dayErrs s n row ++ [now s]) }) s := by
  have hlen : (dayErrs s n row ++ [now s]).length < s.mem.spareThresh := by simpa using h
  exact if_pos hlen

/-- A stack one of whose spare rows has taken the place of a row. -/
def Stack.spareRow (row : Nat) (k : Stack) : Stack :=
  { k with rowErrs := merase k.rowErrs row, rowsSpared := k.rowsSpared + 1, spares := k.spares - 1
           spareOf := mset k.spareOf row k.rowsSpared }

/-- Degrading a stack sets its flag and may write a record. -/
theorem degradeStack_effect (n : Nat) (s : State) : (∃ d, stackOf (degradeStack n s) n = { stackOf s n with degraded := d }) ∧
    s.mgmt.lastSeq ≤ (degradeStack n s).mgmt.lastSeq := by
  unfold degradeStack
  split
  · exact ⟨⟨(stackOf s n).degraded, rfl⟩, Nat.le_refl _⟩
  · refine ⟨⟨true, ?_⟩, Nat.le_of_lt (recordEvent_lastSeq_lt 1 8 0x0203 (5 + 256 * n) [] (modStack n _ s))⟩
    rw [stackOf_congr (congrArg Mem.stackTab (recordEvent_mem ..)), stackOf_modStack_same]

theorem whenS_degradeStack_effect (c : Bool) (n : Nat) (s : State) :
    (∃ d, stackOf (whenS c (degradeStack n) s) n = { stackOf s n with degraded := d }) ∧
      s.mgmt.lastSeq ≤ (whenS c (degradeStack n) s).mgmt.lastSeq := by
  unfold whenS
  split
  · exact degradeStack_effect n s
  · exact ⟨⟨(stackOf s n).degraded, rfl⟩, Nat.le_refl _⟩

/-- A spare row takes the place of a row: the stack's lines are enciphered anew, and a record tells of it (12 R449, R451). -/
def rowSpared (n row : Nat) (s : State) : State :=
  recordEvent 0 8 0x0202 (5 + 256 * n) [row] (moveLines s (modStack n (Stack.spareRow row) s))

theorem rowSpared_effect (n row : Nat) (s : State) : stackOf (rowSpared n row s) n = (stackOf s n).spareRow row ∧
    s.mgmt.lastSeq < (rowSpared n row s).mgmt.lastSeq := by
  rw [rowSpared]
  refine ⟨?_, recordEvent_lastSeq_lt 0 8 0x0202 (5 + 256 * n) [row] (moveLines s (modStack n (Stack.spareRow row) s))⟩
  rw [stackOf_congr (congrArg Mem.stackTab (recordEvent_mem ..))]
  exact stackOf_modStack_same n (Stack.spareRow row) s

/-- The error that reaches the threshold spares its row while a spare row is left, and the last spare row degrades the stack. -/
theorem noteRowError_spares {n row : Nat} {s : State} (hthresh : s.mem.spareThresh ≤ (dayErrs s n row).length + 1)
    (hspares : (stackOf s n).spares ≠ 0) :
    noteRowError n row s = whenS ((stackOf s n).spares == 1) (degradeStack n) (rowSpared n row s) := by
  have hlen : ¬(dayErrs s n row ++ [now s]).length < s.mem.spareThresh := by simpa using hthresh
  exact (if_neg hlen).trans (if_neg hspares)

theorem noteRowError_spares_effect {n row : Nat} {s : State} (hthresh : s.mem.spareThresh ≤ (dayErrs s n row).length + 1)
    (hspares : (stackOf s n).spares ≠ 0) :
    (∃ d, stackOf (noteRowError n row s) n = { (stackOf s n).spareRow row with degraded := d }) ∧
      s.mgmt.lastSeq < (noteRowError n row s).mgmt.lastSeq := by
  obtain ⟨hstack, hseq⟩ := rowSpared_effect n row s
  obtain ⟨hdegraded, hle⟩ := whenS_degradeStack_effect ((stackOf s n).spares == 1) n (rowSpared n row s)
  rw [noteRowError_spares hthresh hspares, ← hstack]
  exact ⟨hdegraded, Nat.lt_of_lt_of_le hseq hle⟩

/-! ### SCRUB_PASS (12 R450) -/

theorem exec_scrubPass_clean {s : State} (h : ∀ l x, mget s.mem.lines l = some x → x.errBits = []) (n : Nat) :
    exec (.scrubPass n) s = .next s := by
  refine congrArg Host.Outcome.next ?_
  split
  · exact foldS_id fun l _ => readLine_clean (h l)
  · rfl

/-- A pass over a stack with one line reads that line. -/
theorem exec_scrubPass_one {n l : Nat} {x : Line} {s : State} (hon : s.mem.ctl.getLsbD 0 = true) (hn : n < 20)
    (hok : (stackOf s n).ok = true) (hstack : lineStack s l = n) (hlines : s.mem.lines = [(l, x)]) :
    exec (.scrubPass n) s = .next (readLine l s) := by
  have hread : (s.mem.lines.filter fun e => lineStack s e.1 == n).map Prod.fst = [l] := by simp [hlines, hstack]
  refine congrArg Host.Outcome.next ((if_pos ?_).trans ?_)
  · simp [hon, hn, hok]
  · rw [hread]
    rfl

/-- A pass over a stack whose one line has a correctable error writes the line back and looks at its row's errors. -/
theorem exec_scrubPass_corrects {n l m : Nat} {left : Map Nat} {x : Line} {s : State} (hon : s.mem.ctl.getLsbD 0 = true) (hn : n < 20)
    (hok : (stackOf s n).ok = true) (hstack : lineStack s l = n) (hlines : s.mem.lines = [(l, x)])
    (hdec : decodeLine x.errBits = .corrected left m) : exec (.scrubPass n) s = .next (noteRowError n (Config.dramRow l)
      (lineCorrected n l (metaApply m (miscorrect s l left { x with errBits := [] })) s)) := by
  have hx : mget s.mem.lines l = some x := by simp [hlines, mget]
  rw [exec_scrubPass_one hon hn hok hstack hlines, readLine_corrected hx hdec, hstack]

/-! ### LEND_RECLAIM_START (12 R470; 16 R617) -/

/-- Sending a packet leaves the pairs: what it changes of the fabric is ports and what was sent, delivered or dropped. -/
theorem routeAt_pairs (lvl : Nat) (p : Packet) (s : State) : (routeAt lvl p s).fab.pairs = s.fab.pairs := by
  have hput (port l : Nat) : (putOn port l p s).fab.pairs = s.fab.pairs := by simp [putOn, pumpPort]
  have hdrop : (dropNoRoute s).fab.pairs = s.fab.pairs := by simp [dropNoRoute]
  unfold routeAt
  dsimp only
  split
  · rfl
  · split
    · exact hdrop
    · exact hput _ _
    · split
      · split
        · exact hput _ _
        · exact hdrop
      · exact hdrop

theorem sendAll_pairs (p : Packet) (s : State) : (sendAll p s).fab.pairs = s.fab.pairs :=
  foldS_keeps (fun t => t.fab.pairs) _ _ s fun t _ => routeAt_pairs _ _ t

/-- A request sent is one more unacknowledged one of its pair (16 R611). -/
theorem sendReq_unacked (p : Packet) (who : Option Nat) (s : State) :
    (pairOf (sendReq p who s) p.dst).unacked.length = (pairOf s p.dst).unacked.length + 1 := by
  simp only [pairOf, sendReq, sendReqFor, sendAll_pairs]
  simp [modPair]

/-- What the borrower is told of a lease that ends (16 R617). -/
def reclaimPacket (k : Nat) (l : Lease) : Packet := { ptype := 0x22, dst := l.peer, arg0 := BitVec.ofNat 32 k }

/-- The memory unit with a lease marked as reclaimed. -/
def Mem.markReclaimed (k : Nat) (l : Lease) (m : Mem) : Mem := { m with lent := mset m.lent k { l with reclaimed := true } }

theorem reclaimLease_lends {k : Nat} {l : Lease} {s : State} (hl : mget s.mem.lent k = some l) (hr : l.reclaimed = false) :
    reclaimLease k s = sendReq (reclaimPacket k l) none (modMem (Mem.markReclaimed k l) s) := by
  simp only [reclaimLease, hl, hr, Bool.false_eq_true, if_false]
  rfl

theorem sendReq_mem (p : Packet) (who : Option Nat) (s : State) : (sendReq p who s).mem = s.mem := by
  rw [(sendReq_sendsOnly s p who).only]

/-! ### LEASE_PATH_LOST (12 R471) -/

theorem exec_leasePathLost {k : Nat} {s : State} (h : mhas s.mem.borrowed k = true) : exec (.leasePathLost k) s =
    .next (modMem (fun m => { m with borrowed := merase m.borrowed k, reclaims := m.reclaims + 1 }) s) :=
  congrArg Host.Outcome.next (if_pos h)

/-! ### MEM_LEND_DISABLE (12 R470, R474) -/

/-- Reclaiming a lease marks it, whether or not it was marked before, and leaves the other leases. -/
theorem reclaimLease_lent (k j : Nat) (s : State) : mget (reclaimLease k s).mem.lent j =
    if j = k then (mget s.mem.lent k).map fun l => { l with reclaimed := true } else mget s.mem.lent j := by
  cases hl : mget s.mem.lent k with
  | none =>
    have hsame : reclaimLease k s = s := by simp only [reclaimLease, hl]
    rw [hsame]
    split
    next h => rw [h, hl, Option.map_none]
    next => rfl
  | some l =>
    cases hr : l.reclaimed with
    | true =>
      have hsame : reclaimLease k s = s := by simp only [reclaimLease, hl, hr, if_true]
      rw [hsame]
      split
      next h => rw [h, hl, Option.map_some, ← hr]
      next => rfl
    | false =>
      rw [reclaimLease_lends hl hr, sendReq_mem]
      exact mget_mset _ _ _ _

/-- Reclaiming a lease leaves what the memory unit holds besides. -/
theorem reclaimLease_ctl_lines (k : Nat) (s : State) :
    ((reclaimLease k s).mem.ctl, (reclaimLease k s).mem.lines) = (s.mem.ctl, s.mem.lines) := by
  unfold reclaimLease
  split
  · split
    · rfl
    · rw [sendReq_mem]
      rfl
  · rfl

/-- The memory unit with lend_en clear. -/
def Mem.lendOff (m : Mem) : Mem := { m with ctl := m.ctl &&& ~~~2 }

/-- Clearing lend_en leaves borrow_en (12 R474). -/
theorem lendOff_ctl (m : Mem) : m.lendOff.ctl.getLsbD 1 = false ∧ m.lendOff.ctl.getLsbD 2 = m.ctl.getLsbD 2 := by
  simp [Mem.lendOff]

/-- Reclaim every lease of a list. -/
def reclaimAll (ks : List Nat) (s : State) : State := foldS ks (fun t k => reclaimLease k t) s

theorem reclaimAll_lent (ks : List Nat) (j : Nat) (s : State) : mget (reclaimAll ks s).mem.lent j =
    if j ∈ ks then (mget s.mem.lent j).map fun l => { l with reclaimed := true } else mget s.mem.lent j := by
  induction ks generalizing s with
  | nil => rfl
  | cons k ks ih =>
    refine (ih (reclaimLease k s)).trans ?_
    rw [reclaimLease_lent]
    by_cases hk : j = k
    · subst hk
      simp [Function.comp_def]
    · simp [hk]

theorem reclaimAll_ctl_lines (ks : List Nat) (s : State) :
    ((reclaimAll ks s).mem.ctl, (reclaimAll ks s).mem.lines) = (s.mem.ctl, s.mem.lines) :=
  foldS_keeps (fun t => (t.mem.ctl, t.mem.lines)) _ _ s fun t k => reclaimLease_ctl_lines k t

theorem exec_memLendDisable {fn : Nat} {s : State} (hfn : fn ≤ 1) : exec (.memLendDisable fn) s =
    .next (reclaimAll (s.mem.lent.map Prod.fst) (modMem Mem.lendOff s)) :=
  congrArg Host.Outcome.next (if_pos ((isPf_iff fn).mpr hfn))

/-- After every lease has been reclaimed, each one held is marked. -/
theorem reclaimAll_marks {s : State} {j : Nat} {l : Lease} (h : mget (reclaimAll (s.mem.lent.map Prod.fst) s).mem.lent j = some l) :
    l.reclaimed = true := by
  rw [reclaimAll_lent] at h
  split at h
  next =>
    obtain ⟨l', -, rfl⟩ := Option.map_eq_some_iff.mp h
    rfl
  next hno => exact absurd (List.mem_map_of_mem (f := Prod.fst) (mem_of_mget h)) hno

/-- Settles O34: a pass by the one line it reads and what its row's errors come to, a reclaimed lease by the request that tells its
borrower, and a lost path and a disabled lending by what is left of the leases. -/
theorem scrubAndLeases : Obligations.scrub_and_leases := by
  unfold Obligations.scrub_and_leases
  refine ⟨?_, ?_, ?_, ?_, ?_, ?_⟩
  · exact fun n s h => exec_scrubPass_clean h n
  · intro n l m left x s hon hn hok hstack hlines hdec hbelow
    have hexec := exec_scrubPass_corrects hon hn hok hstack hlines hdec
    rw [noteRowError_below (by rwa [dayErrs_lineCorrected, lineCorrected_spareThresh])] at hexec
    refine ⟨_, hexec, ?_, ?_, ?_, ?_, ?_⟩
    · simp [lineCorrected]
    · rw [stackOf_modStack_same, stackOf_lineCorrected]
    · rw [stackOf_modStack_same, stackOf_lineCorrected]
    · simp [lineCorrected]
    · simp [lineCorrected]
  · intro n l m left x s hon hn hok hstack hlines hdec hthresh hspares
    have hexec := exec_scrubPass_corrects hon hn hok hstack hlines hdec
    obtain ⟨y, hy⟩ : ∃ y, y = metaApply m (miscorrect s l left { x with errBits := [] }) := ⟨_, rfl⟩
    rw [← hy] at hexec
    have hseq : (lineCorrected n l y s).mgmt.lastSeq = s.mgmt.lastSeq := by simp [lineCorrected]
    obtain ⟨⟨d, hstack'⟩, hlast⟩ := noteRowError_spares_effect (n := n) (row := Config.dramRow l) (s := lineCorrected n l y s)
      (by rwa [dayErrs_lineCorrected, lineCorrected_spareThresh]) (by rwa [stackOf_lineCorrected])
    rw [stackOf_lineCorrected] at hstack'
    refine ⟨_, hexec, ?_, ?_, ?_, hseq ▸ hlast⟩
    · rw [hstack', Stack.spareRow]
    · rw [hstack', Stack.spareRow]
    · rw [hstack', Stack.spareRow]
      exact mget_mset_same _ _ _
  · intro k l s hl hr
    have hu := (sendReq_sendsOnly (modMem (Mem.markReclaimed k l) s) (reclaimPacket k l) none).only
    refine ⟨_, congrArg Host.Outcome.next (reclaimLease_lends hl hr), ?_, fun j hj => ?_, sendReq_unacked _ _ _, ?_⟩
    · rw [sendReq_mem]
      exact mget_mset_same _ _ _
    · rw [sendReq_mem]
      exact mget_mset_other _ _ _ _ hj
    · rw [sendReq_mem]
      exact hu
  · intro k s h
    exact ⟨_, exec_leasePathLost h, (mget_merase _ _ _).trans (if_pos rfl), fun j hj => (mget_merase _ _ _).trans (if_neg hj), rfl⟩
  · intro fn s hfn
    obtain ⟨hctl, hlines⟩ := Prod.mk.inj (reclaimAll_ctl_lines (s.mem.lent.map Prod.fst) (modMem Mem.lendOff s))
    refine ⟨_, exec_memLendDisable hfn, ?_, ?_, fun k l h => reclaimAll_marks h, hlines⟩
    · rw [hctl]
      exact (lendOff_ctl s.mem).1
    · rw [hctl]
      exact (lendOff_ctl s.mem).2

end Sys2Proof.Machine
end

section
/-! PROOFS. The memory unit's limit registers: a write lands in the block's own register or is ignored, and a read of a block's register
is not one of the page's common part (12 R476, R477; 20 R731 to R737). -/

namespace Sys2Proof.Machine

/-! ### Writes of a block's own 32-bit registers (20 R731 to R735) -/

/-- A function's 4-byte write at or above offset 0x1000 of a mapped page is the block's own, unless it is half of a 64-bit register. -/
theorem exec_registerWrite_block {fn p o : Nat} {s : State} (v : BitVec 64) (hlevel : s.boot.level ≠ 3) (hpage : pageMapped fn p = true)
    (hfab : p ≠ 10) (ho : 0x1000 ≤ o) (halign : o % 4 = 0) (hlow : wide s fn p o = false) (hhigh : wide s fn p (o - 4) = false) :
    exec (.registerWrite fn p o 4 v) s = .next (writeBlock true fn p o (v.toNat % 2 ^ 32) s) := by
  have hgood : goodAccess o 4 = true := by simp [goodAccess, halign]
  have hrec : inRecovery s = false := by simpa [inRecovery] using hlevel
  refine congrArg Host.Outcome.next ?_
  simp [regAccess, hgood, writeWord, hlow, hhigh, write32, hrec, hpage, hfab, Nat.not_lt.mpr ho]

/-! ### Reads of a block's own registers (20 R736, R737) -/

/-- Spans that end at or before an offset give nothing of the word there. -/
theorem wordAt_append_of_below {l : List RegSpan} {o : Nat} (h : ∀ r ∈ l, r.off + r.len ≤ o) (k : List RegSpan) :
    wordAt (l ++ k) o = wordAt k o := by
  have hnone : l.find? (fun r => decide (r.off ≤ o) && decide (o < r.off + r.len)) = none :=
    List.find?_eq_none.mpr fun r hr => by simp [Nat.not_lt.mpr (h r hr)]
  simp only [wordAt, List.find?_append, hnone, Option.none_or]

/-- The registers of a page's eight counters lie in the common part (20 R737). -/
theorem evcSpans_below {pg : Page} (h : pg.evcs.length = 8) : ∀ r ∈ evcSpans pg, r.off + r.len ≤ 0x1000 := by
  intro r hr
  obtain ⟨e, he, hr⟩ := List.mem_flatMap.mp hr
  have hi : e.1 < 8 := h ▸ List.mem_range.mp (List.of_mem_zip he).1
  simp only [r32, r64, List.mem_cons, List.not_mem_nil, or_false] at hr
  rcases hr with rfl | rfl | rfl <;> dsimp only <;> omega

theorem commonSpans_below {s : State} {p : Nat} (h : (pageOf s p).evcs.length = 8) :
    ∀ r ∈ commonSpans s p, r.off + r.len ≤ 0x1000 := by
  intro r hr
  rcases List.mem_append.mp hr with hr | hr
  · simp only [idSpans, r32, rBytes, List.cons_append, List.nil_append, List.mem_cons, List.not_mem_nil, or_false] at hr
    rcases hr with rfl | rfl | rfl | rfl | rfl | rfl | rfl | rfl | rfl <;> dsimp only <;> omega
  · exact evcSpans_below h r hr

/-- A physical function's read at or above offset 0x1000 is of the block's own registers. -/
theorem read4_block {fn p o : Nat} {s : State} (hlevel : s.boot.level ≠ 3) (hfn : fn ≤ 1) (hpage : pageMapped fn p = true)
    (hevcs : (pageOf s p).evcs.length = 8) (ho : 0x1000 ≤ o) : read4 s fn p o = wordAt (blockSpans s fn p) o := by
  have hspans : pageSpans s fn p = commonSpans s p ++ blockSpans s fn p := by
    simp [pageSpans, hlevel, hpage, Nat.not_le.mpr (Nat.lt_succ_of_le hfn)]
  rw [read4, hspans, wordAt_append_of_below fun r hr => Nat.le_trans (commonSpans_below hevcs r hr) ho]

/-! ### The memory page (12 R476, R477) -/

/-- The limit registers, each with its offset, its width and the bounds of its range (12 R476, R477). -/
def limitRegs : List (Nat × Nat × Nat × Nat) :=
  [(0x1008, 8, 1, 168), (0x100C, 20, 0, 983040), (0x1010, 3, 1, 4), (0x1014, 5, 0, 19), (0x101C, 8, 1, 255)]

theorem mem_limitRegs {o w lo hi : Nat} : (o, w, lo, hi) ∈ limitRegs ↔
    (o = 0x1008 ∧ w = 8 ∧ lo = 1 ∧ hi = 168) ∨ (o = 0x100C ∧ w = 20 ∧ lo = 0 ∧ hi = 983040) ∨
      (o = 0x1010 ∧ w = 3 ∧ lo = 1 ∧ hi = 4) ∨ (o = 0x1014 ∧ w = 5 ∧ lo = 0 ∧ hi = 19) ∨
      (o = 0x101C ∧ w = 8 ∧ lo = 1 ∧ hi = 255) := by
  simp only [limitRegs, List.mem_cons, Prod.mk.injEq, List.not_mem_nil, or_false]

theorem limitRegs_width {o w lo hi : Nat} (ho : (o, w, lo, hi) ∈ limitRegs) : w ≤ 32 := by
  rw [mem_limitRegs] at ho
  omega

/-- The memory unit with a limit register at an offset set. -/
def Mem.setLimit (o x : Nat) (m : Mem) : Mem :=
  { m with
    scrubPeriod := if o = 0x1008 then x else m.scrubPeriod, lendMax := if o = 0x100C then x else m.lendMax
    lendHops := if o = 0x1010 then x else m.lendHops, stackSel := if o = 0x1014 then x else m.stackSel
    spareThresh := if o = 0x101C then x else m.spareThresh }

/-- The memory page is mapped for a physical function, and no offset of a limit register or the word before one begins a 64-bit register
that takes writes. -/
theorem limitRegs_word {fn o w lo hi : Nat} (hfn : fn ≤ 1) (ho : (o, w, lo, hi) ∈ limitRegs) (s : State) (hlevel : s.boot.level ≠ 3) :
    0x1000 ≤ o ∧ o % 4 = 0 ∧ pageMapped fn 8 = true ∧ wide s fn 8 o = false ∧ wide s fn 8 (o - 4) = false := by
  have hrec : inRecovery s = false := by simpa [inRecovery] using hlevel
  have hfn' : fn = 0 ∨ fn = 1 := by omega
  have hoff : 0x1008 ≤ o ∧ o % 4 = 0 := by
    rw [mem_limitRegs] at ho
    omega
  have hwide (k : Nat) (hk : 0xA0 ≤ k) : wide s fn 8 k = false := by
    have hcommon : within 0x60 0x9F k = false := by simp only [within, decide_eq_false (show ¬k ≤ 0x9F by omega), Bool.and_false]
    simp [wide, hrec, hcommon]
  refine ⟨by omega, hoff.2, ?_, hwide o (by omega), hwide (o - 4) (by omega)⟩
  rcases hfn' with rfl | rfl <;> rfl

/-- A write of a limit register takes the value of its field when that lies in its range (12 R476, R477). -/
theorem writeMem_limit {o w lo hi : Nat} (ho : (o, w, lo, hi) ∈ limitRegs) (fn v : Nat) (s : State) :
    writeMem fn o v s = if lo ≤ v % 2 ^ w ∧ v % 2 ^ w ≤ hi then modMem (Mem.setLimit o (v % 2 ^ w)) s else s := by
  rcases mem_limitRegs.mp ho with ⟨rfl, rfl, rfl, rfl⟩ | ⟨rfl, rfl, rfl, rfl⟩ | ⟨rfl, rfl, rfl, rfl⟩ |
      ⟨rfl, rfl, rfl, rfl⟩ | ⟨rfl, rfl, rfl, rfl⟩ <;>
    · simp only [writeMem, within, Bool.and_eq_true, decide_eq_true_eq, Nat.zero_le, true_and, Nat.lt_succ_iff]
      rfl

/-- A limit register reads what was set. -/
theorem wordAt_memSpans_setLimit {o w lo hi x : Nat} (ho : (o, w, lo, hi) ∈ limitRegs) (hx : x < 4294967296) (s : State) :
    wordAt (memSpans (modMem (Mem.setLimit o x) s)) o = x := by
  rcases mem_limitRegs.mp ho with ⟨rfl, rfl, rfl, rfl⟩ | ⟨rfl, rfl, rfl, rfl⟩ | ⟨rfl, rfl, rfl, rfl⟩ |
      ⟨rfl, rfl, rfl, rfl⟩ | ⟨rfl, rfl, rfl, rfl⟩ <;>
    simp [wordAt, memSpans, r32, r64, Mem.setLimit, hx]

theorem exec_registerWrite_limit {fn o w lo hi : Nat} (hfn : fn ≤ 1) (ho : (o, w, lo, hi) ∈ limitRegs) (v : BitVec 64) {s : State}
    (hlevel : s.boot.level ≠ 3) : exec (.registerWrite fn 8 o 4 v) s = .next
      (if lo ≤ v.toNat % 2 ^ w ∧ v.toNat % 2 ^ w ≤ hi then modMem (Mem.setLimit o (v.toNat % 2 ^ w)) s else s) := by
  obtain ⟨hge, halign, hpage, hlow, hhigh⟩ := limitRegs_word hfn ho s hlevel
  rw [exec_registerWrite_block v hlevel hpage (by decide) hge halign hlow hhigh]
  refine congrArg Host.Outcome.next ((writeMem_limit ho fn _ s).trans ?_)
  rw [Nat.mod_mod_of_dvd _ (Nat.pow_dvd_pow 2 (limitRegs_width ho))]

/-- Settles O59: a write of a limit register sets the one field of the memory unit that its offset names, or nothing, and the page's
spans give that field back. -/
theorem memoryLimitRegisters : Obligations.memory_limit_registers := by
  unfold Obligations.memory_limit_registers
  intro fn o lo hi w v s hfn hlevel ho
  have hexec := exec_registerWrite_limit hfn ho v hlevel
  refine ⟨fun hin => ?_, fun hout => ?_⟩
  · refine ⟨_, hexec.trans (congrArg Host.Outcome.next (if_pos hin)), fun hsound => ?_, rfl⟩
    obtain ⟨hge, -, hpage, -⟩ := limitRegs_word hfn ho s hlevel
    have hx : v.toNat % 2 ^ w < 4294967296 :=
      Nat.lt_of_lt_of_le (Nat.mod_lt _ (Nat.two_pow_pos w)) (Nat.pow_le_pow_right (by decide) (limitRegs_width ho))
    have hread := wordAt_memSpans_setLimit ho hx s
    exact (read4_block (s := modMem (Mem.setLimit o (v.toNat % 2 ^ w)) s) hlevel hfn hpage (hsound.1 8) hge).trans hread
  · exact hexec.trans (congrArg Host.Outcome.next (if_neg fun hin => by omega))

end Sys2Proof.Machine
end

section
/-! PROOFS. Flash blocks: what a read after a replaced block gives, what moving, erasing and retiring a block and draining a share's
buffers leave as they were, and what each flash command brings about (13 R485 to R500). -/

namespace Sys2Proof.Machine

/-! ### Blocks of a channel (13 R479) -/

/-- Where a block lies: its partition, die and number. -/
def Block.place (b : Block) : Nat × Nat × Nat := (b.part, b.die, b.num)

theorem decide_place (b : Block) (part die num : Nat) :
    decide (b.place = (part, die, num)) = (b.part == part && b.die == die && b.num == num) := by
  rw [Bool.eq_iff_iff, decide_eq_true_iff]
  simp only [Block.place, Prod.mk.injEq, Bool.and_eq_true, beq_iff_eq, and_assoc]

theorem blockAt_eq (c : Channel) (part die num : Nat) : blockAt c part die num =
    (c.blocks.find? fun b => decide (b.place = (part, die, num))).getD { part := part, die := die, num := num } := by
  simp only [blockAt, decide_place]

/-- What is found at a place is listed there, or is a fresh block of that place. -/
theorem blockAt_place (c : Channel) (part die num : Nat) : (blockAt c part die num).place = (part, die, num) := by
  rw [blockAt_eq]
  cases h : c.blocks.find? fun b => decide (b.place = (part, die, num)) with
  | none => rfl
  | some b => simpa using List.find?_some h

theorem blockAt_congr {c d : Channel} (h : d.blocks = c.blocks) (part die num : Nat) :
    blockAt d part die num = blockAt c part die num := by
  simp only [blockAt, h]

/-- What a read after a replaced block gives. -/
theorem blockAt_putBlock (b : Block) (c : Channel) (part die num : Nat) :
    blockAt (putBlock b c) part die num = if b.place = (part, die, num) then b else blockAt c part die num := by
  have hblocks : (putBlock b c).blocks = b :: c.blocks.filter fun x => decide (x.place ≠ b.place) := by
    have hplace : b.place = (b.part, b.die, b.num) := rfl
    simp only [putBlock, ne_eq, decide_not, hplace, decide_place]
  rw [blockAt_eq, hblocks]
  split
  next h => rw [List.find?_cons_of_pos (by simpa using h), Option.getD_some]
  next h =>
    have hboth (x : Block) : x.place ≠ b.place ∧ x.place = (part, die, num) ↔ x.place = (part, die, num) :=
      and_iff_right_of_imp fun hx heq => h (heq.symm.trans hx)
    rw [List.find?_cons_of_neg (by simpa using h), List.find?_filter, blockAt_eq]
    simp only [decide_eq_true_eq, hboth]

theorem blockAt_putBlock_same {b : Block} {part die num : Nat} (h : b.place = (part, die, num)) (c : Channel) :
    blockAt (putBlock b c) part die num = b := by rw [blockAt_putBlock, if_pos h]

theorem blockAt_putBlock_other {b : Block} {part die num : Nat} (h : b.place ≠ (part, die, num)) (c : Channel) :
    blockAt (putBlock b c) part die num = blockAt c part die num := by rw [blockAt_putBlock, if_neg h]

theorem gcCandidate_part {s : State} {ch part : Nat} {b : Block} (h : gcCandidate s ch part = some b) : b.part = part := by
  have hchosen := (List.mem_filter.mp (mem_of_mem_sortBy (List.mem_of_mem_head? h))).1
  simpa using (List.mem_filter.mp hchosen).2

/-! ### What programming units touches (13 R485 to R487, R504) -/

/-- Of the flash, only blocks, buffers and what is counted of reads and programs differ. -/
structure FillsBlocks (s t : State) : Prop where
  flash : t.flash = { s.flash with
    channels := t.flash.channels, buffered := t.flash.buffered, reads := t.flash.reads, programs := t.flash.programs }
  channel : ∀ n, channelOf t n = { channelOf s n with blocks := (channelOf t n).blocks }

theorem FillsBlocks.refl (s : State) : FillsBlocks s s := ⟨rfl, fun _ => rfl⟩

theorem FillsBlocks.trans {s t u : State} (h : FillsBlocks s t) (k : FillsBlocks t u) : FillsBlocks s u := by
  refine ⟨?_, fun n => ?_⟩
  · have hu := k.flash
    rw [h.flash] at hu
    exact hu
  · have hu := k.channel n
    rw [h.channel n] at hu
    exact hu

section
variable (s : State)

theorem evCount_fillsBlocks (p src n : Nat) : FillsBlocks s (evCount p src n s) := by
  have h : (evCount p src n s).flash = s.flash := evCount_flash ..
  refine ⟨by rw [h], fun n => ?_⟩
  simp only [channelOf, h]

theorem modChannel_putBlock_fillsBlocks (ch : Nat) (b : Block) : FillsBlocks s (modChannel ch (putBlock b) s) := by
  refine ⟨rfl, fun n => ?_⟩
  rw [channelOf_modChannel]
  split <;> rfl

theorem countPrograms_fillsBlocks (n : Nat) : FillsBlocks s (countPrograms n s) :=
  .trans (t := modFlash (fun f => { f with programs := f.programs + n }) s) ⟨rfl, fun _ => rfl⟩ (evCount_fillsBlocks _ _ _ _)

theorem countReads_fillsBlocks (n : Nat) : FillsBlocks s (countReads n s) :=
  .trans (t := modFlash (fun f => { f with reads := f.reads + n }) s) ⟨rfl, fun _ => rfl⟩ (evCount_fillsBlocks _ _ _ _)

theorem unmapUnit_fillsBlocks (key : Nat) : FillsBlocks s (unmapUnit key s) := by
  refine ⟨rfl, fun n => ?_⟩
  simp only [channelOf, unmapUnit, modFlash_flash, mgetD, mget_mmap]
  cases mget s.flash.channels n <;> rfl

theorem programUnit_fillsBlocks (r : Bool) (part ch key : Nat) : FillsBlocks s (programUnit r part ch key s) := by
  have hbuffer (l : List (Nat × Nat × Nat)) : FillsBlocks s (modFlash (fun f => { f with buffered := f.buffered ++ l }) s) :=
    ⟨rfl, fun _ => rfl⟩
  unfold programUnit
  split
  · exact hbuffer _
  · split
    · exact (modChannel_putBlock_fillsBlocks s ch _).trans (countPrograms_fillsBlocks _ 1)
    · split
      · refine .trans (t := { modChannel ch (putBlock _) s with free := s.free + 1 }) ?_ (countPrograms_fillsBlocks _ 1)
        exact ⟨(modChannel_putBlock_fillsBlocks s ch _).flash, (modChannel_putBlock_fillsBlocks s ch _).channel⟩
      · exact hbuffer _

theorem drainBuffers_fillsBlocks (r : Bool) (ch part : Nat) : FillsBlocks s (drainBuffers r ch part s) :=
  foldS_inv (FillsBlocks s) _ _ _ (fun t b h => h.trans (programUnit_fillsBlocks t r part ch b.2.2)) ⟨rfl, fun _ => rfl⟩

theorem acceptWrites_fillsBlocks (l : List UnitWrite) : FillsBlocks s (acceptWrites l s) := by
  refine foldS_inv (FillsBlocks s) _ _ _ (fun t w h => h.trans ?_) (.refl s)
  have hread : FillsBlocks t (if w.whole || !unitMapped t w.key then t else countReads 1 t) := by
    split
    · exact .refl t
    · exact countReads_fillsBlocks t 1
  exact (hread.trans (unmapUnit_fillsBlocks _ _)).trans (programUnit_fillsBlocks _ _ _ _ _)

/-- Draining a share whose buffers hold nothing changes nothing. -/
theorem drainBuffers_nothing {r : Bool} {ch part : Nat}
    (h : (s.flash.buffered.filter fun y => y.1 == part && y.2.1 == ch) = []) : drainBuffers r ch part s = s := by
  have hall : (s.flash.buffered.filter fun y => !(y.1 == part && y.2.1 == ch)) = s.flash.buffered :=
    List.filter_eq_self.mpr fun y hy => by
      rw [Bool.eq_false_iff.mpr (List.filter_eq_nil_iff.mp h y hy)]
      rfl
  simp only [drainBuffers, h, foldS_nil, modFlash, hall]

end

/-! ### The read-only transition (13 R498 to R500) -/

/-- No partition is writable again, and no channel's ok flag differs. -/
structure StandingKept (s t : State) : Prop where
  readOnly : ∀ p, partRo s p = true → partRo t p = true
  ok : ∀ n, (channelOf t n).ok = (channelOf s n).ok

theorem StandingKept.trans {s t u : State} (h : StandingKept s t) (k : StandingKept t u) : StandingKept s u :=
  ⟨fun p hp => k.readOnly p (h.readOnly p hp), fun n => (k.ok n).trans (h.ok n)⟩

theorem StandingKept.of_flash {s t : State} (h : t.flash = s.flash) : StandingKept s t :=
  ⟨fun p hp => by rwa [partRo, h], fun n => by rw [channelOf, h, channelOf]⟩

theorem FillsBlocks.standing {s t : State} (h : FillsBlocks s t) : StandingKept s t :=
  ⟨fun p hp => by rwa [partRo, h.flash], fun n => by rw [h.channel n]⟩

section
variable (s : State)

theorem abortSession_standing (id status : Nat) (written : Bool) : StandingKept s (abortSession id status written s) := by
  have hwrite (f : Collection → Collection) : StandingKept s (writeColl id f s) := by
    unfold writeColl
    split
    · exact .trans (t := modColl id f s) (.of_flash rfl) (acceptWrites_fillsBlocks _ _).standing
    · exact .of_flash rfl
  have hlog (l : List UnitWrite) (t : State) : StandingKept t (whenS written (acceptWrites l) t) := by
    unfold whenS
    split
    · exact (acceptWrites_fillsBlocks _ _).standing
    · exact .of_flash rfl
  unfold abortSession
  split
  · exact .of_flash rfl
  · split
    · exact .of_flash rfl
    · dsimp only
      split
      · exact ((hwrite _).trans (hlog _ _)).trans (.of_flash (complete_flash ..))
      · exact (hwrite _).trans (hlog _ _)

@[simp] theorem flashIrq_flash : (flashIrq s).flash = s.flash := by simp [flashIrq]

@[simp] theorem postNoticeOn_flash (f : Nat) (n : Notice) : (postNoticeOn f n s).flash = s.flash := by
  unfold postNoticeOn
  dsimp only
  split
  · exact complete_flash ..
  · rfl

@[simp] theorem postNotice_flash (n : Notice) : (postNotice n s).flash = s.flash := by simp [postNotice]

theorem closeSessions_standing (l : List Nat) (status inst : Nat) (pl : List Nat) (n : Notice) : StandingKept s
    (postNotice n (flashIrq (recordEvent 2 9 0x0302 inst pl (foldS l (fun t id => abortSession id status false t) s)))) :=
  .trans (foldS_inv (StandingKept s) l _ s (fun t id h => h.trans (abortSession_standing t id status false)) (.of_flash rfl))
    (.of_flash (by simp))

/-- A partition marked as read-only, with collection and levelling stopped on it. -/
def Flash.closed (part ch cause : Nat) (f : Flash) : Flash :=
  let f1 := if part = 0 then { f with sprintRo := true, sprintCause := cause, sprintRoCh := ch }
    else { f with storeRo := true, storeCause := cause, storeRoCh := ch }
  { f1 with channels := mmap f1.channels fun _ c =>
      if part = 0 then { c with gcSprint := false, wlActive := false } else { c with gcStore := false, wlActive := false } }

theorem partRo_closed (part ch cause p : Nat) :
    partRo (modFlash (Flash.closed part ch cause) s) p = (partRo s p || decide (p = 0 ↔ part = 0)) := by
  by_cases hpart : part = 0 <;> by_cases hp : p = 0 <;> simp [partRo, Flash.closed, hpart, hp]

theorem modFlash_closed_standing (part ch cause : Nat) : StandingKept s (modFlash (Flash.closed part ch cause) s) := by
  refine ⟨fun p hp => by rw [partRo_closed, hp, Bool.true_or], fun n => ?_⟩
  simp only [channelOf, modFlash_flash, Flash.closed, mgetD, mget_mmap, apply_ite Flash.channels, ite_self]
  cases mget s.flash.channels n with
  | none => rfl
  | some c =>
    simp only [Option.map_some, Option.getD_some]
    split <;> rfl

/-- The partition is read-only after its transition, and no other is writable again. -/
theorem goReadOnly_standing (part ch cause : Nat) :
    StandingKept s (goReadOnly part ch cause s) ∧ partRo (goReadOnly part ch cause s) part = true := by
  have hdrain : StandingKept s (foldS (List.range 64) (fun t n => if (channelOf t n).ok then drainBuffers true n part t else t) s) := by
    refine foldS_inv (StandingKept s) _ _ s (fun t n h => h.trans ?_) (.of_flash rfl)
    split
    · exact (drainBuffers_fillsBlocks t true n part).standing
    · exact .of_flash rfl
  unfold goReadOnly
  dsimp only
  generalize foldS (List.range 64) _ s = t at hdrain ⊢
  have hcause : StandingKept s (modFlash (fun f => { f with roCauses := f.roCauses ++ [(part, ch, cause)] }) t) :=
    hdrain.trans ⟨fun _ h => h, fun _ => rfl⟩
  generalize modFlash _ t = v at hcause ⊢
  split
  next h => exact ⟨hcause, h⟩
  next =>
    have hsessions (w : State) := closeSessions_standing w (w.obj.collections.map Prod.fst) Status.mediaReadOnly
    refine ⟨(hcause.trans (modFlash_closed_standing v part ch cause)).trans (hsessions _ _ _ _),
      (hsessions _ _ _ _).readOnly part ((partRo_closed v part ch cause part).trans ?_)⟩
    simp

end

/-! ### Moving and erasing a block (13 R487, R492, R494) -/

/-- A block that has taken the units of another (13 R487). -/
def Block.filledFrom (b : Block) (closedAt : Nat) (d : Block) : Block :=
  { d with state := .closed, units := b.units, used := b.units.length, closedAt := closedAt, refresh := none, softReads := 0 }

/-- A block back in the free pool (13 R492). -/
def Block.erased (b : Block) : Block :=
  { b with state := .free, erases := b.erases + 1, units := [], used := 0, refresh := none, softReads := 0 }

/-- A block's channel after its units have moved to a place. -/
def Channel.moved (b : Block) (dst : Nat × Nat) (closedAt : Nat) (c : Channel) : Channel :=
  putBlock { b with units := [] } (putBlock (b.filledFrom closedAt (blockAt c b.part dst.1 dst.2)) c)

section
variable (ch : Nat) (b : Block) (dst : Nat × Nat) (s : State)

theorem relocate_of_empty (h : b.units = []) : relocate ch b dst s = s := by simp [relocate, h]

theorem relocate_of_units (h : b.units ≠ []) : relocate ch b dst s = countReads b.units.length (countPrograms b.units.length
    { modChannel ch (Channel.moved b dst (flashNow s)) s with free := s.free + 1 }) := by
  rw [relocate, if_neg (by simpa using h)]
  rfl

theorem relocate_flashWork : FlashWork s (relocate ch b dst s) := by
  by_cases h : b.units = []
  · rw [relocate_of_empty ch b dst s h]
    exact .refl s
  · rw [relocate_of_units ch b dst s h]
    exact ⟨by apply state_ext <;> simp, by simp, by simp⟩

/-- A move changes blocks of its channel, and counts its reads and programs. -/
theorem relocate_flash : (relocate ch b dst s).flash = { s.flash with
    channels := (relocate ch b dst s).flash.channels, reads := (relocate ch b dst s).flash.reads
    programs := (relocate ch b dst s).flash.programs } := by
  by_cases h : b.units = []
  · rw [relocate_of_empty ch b dst s h]
  · rw [relocate_of_units ch b dst s h]
    simp [countReads, countPrograms]

theorem channelOf_relocate (n : Nat) : channelOf (relocate ch b dst s) n =
    if n = ch ∧ b.units ≠ [] then Channel.moved b dst (flashNow s) (channelOf s n) else channelOf s n := by
  by_cases h : b.units = []
  · rw [relocate_of_empty ch b dst s h, if_neg fun hn => hn.2 h]
  · rw [relocate_of_units ch b dst s h]
    have hcount : channelOf (countReads b.units.length (countPrograms b.units.length
        { modChannel ch (Channel.moved b dst (flashNow s)) s with free := s.free + 1 })) n =
        channelOf (modChannel ch (Channel.moved b dst (flashNow s)) s) n := by
      simp [channelOf, countReads, countPrograms]
    rw [hcount, channelOf_modChannel]
    simp only [h, ne_eq, not_false_eq_true, and_true]

theorem eraseBlock_eq : eraseBlock ch b s =
    evCount 9 3 1 (modFlash (fun f => { f with erases := f.erases + 1 }) (modChannel ch (putBlock b.erased) s)) := rfl

/-- A block whose units have moved and that has been erased. -/
def collected : State := eraseBlock ch b (relocate ch b dst s)

theorem collected_flashWork : FlashWork s (collected ch b dst s) := by
  refine (relocate_flashWork ch b dst s).trans ?_
  rw [collected, eraseBlock_eq]
  exact .trans ⟨rfl, rfl, rfl⟩ (evCount_flashWork _ _ _ _)

theorem collected_flash : (collected ch b dst s).flash = { s.flash with
    channels := (collected ch b dst s).flash.channels, reads := (collected ch b dst s).flash.reads
    programs := (collected ch b dst s).flash.programs, erases := s.flash.erases + 1 } := by
  rw [collected, eraseBlock_eq, evCount_flash, modFlash_flash, modChannel_flash, relocate_flash]

theorem channelOf_collected (n : Nat) : channelOf (collected ch b dst s) n =
    if n = ch then putBlock b.erased (channelOf (relocate ch b dst s) n) else channelOf s n := by
  have hcount : channelOf (collected ch b dst s) n = channelOf (modChannel ch (putBlock b.erased) (relocate ch b dst s)) n := by
    simp [channelOf, collected, eraseBlock_eq]
  rw [hcount, channelOf_modChannel]
  split
  next => rfl
  next h => rw [channelOf_relocate, if_neg fun hn => h hn.1]

end

/-- A block's units have moved to a place, the block is erased, and all else that differs is what the hubs count. -/
structure Moved (ch : Nat) (b : Block) (dst : Nat × Nat) (s u : State) : Prop where
  work : FlashWork s u
  others : ∀ c, c ≠ ch → channelOf u c = channelOf s c
  erased : blockAt (channelOf u ch) b.part b.die b.num = b.erased
  units : b.units ≠ [] → dst ≠ (b.die, b.num) → (blockAt (channelOf u ch) b.part dst.1 dst.2).units = b.units
  erases : u.flash.erases = s.flash.erases + 1

section
variable {ch : Nat} {b : Block} {dst : Nat × Nat} {s t u : State}

theorem collected_moved (ch : Nat) (b : Block) (dst : Nat × Nat) (s : State) : Moved ch b dst s (collected ch b dst s) := by
  refine ⟨collected_flashWork .., fun c hc => ?_, ?_, fun hunits hdst => ?_, by rw [collected_flash]⟩
  · rw [channelOf_collected, if_neg hc]
  · rw [channelOf_collected, if_pos rfl]
    exact blockAt_putBlock_same rfl _
  · have hplace : (b.part, b.die, b.num) ≠ (b.part, dst.1, dst.2) := fun h => hdst (Prod.mk.inj h).2.symm
    have hdest : (b.filledFrom (flashNow s) (blockAt (channelOf s ch) b.part dst.1 dst.2)).place = (b.part, dst.1, dst.2) :=
      blockAt_place (channelOf s ch) b.part dst.1 dst.2
    rw [channelOf_collected, if_pos rfl, channelOf_relocate, if_pos ⟨rfl, hunits⟩, Channel.moved,
      blockAt_putBlock_other (b := b.erased) hplace, blockAt_putBlock_other (b := { b with units := [] }) hplace,
      blockAt_putBlock_same hdest]
    rfl

/-- What leaves the blocks of every channel leaves a move. -/
theorem Moved.after (h : Moved ch b dst s t) (hwork : FlashWork t u) (hothers : ∀ c, c ≠ ch → channelOf u c = channelOf t c)
    (hblocks : (channelOf u ch).blocks = (channelOf t ch).blocks) (herases : u.flash.erases = t.flash.erases) :
    Moved ch b dst s u := by
  refine ⟨h.work.trans hwork, fun c hc => (hothers c hc).trans (h.others c hc), ?_, fun hunits hdst => ?_, herases.trans h.erases⟩
  · rw [blockAt_congr hblocks, h.erased]
  · rw [blockAt_congr hblocks, h.units hunits hdst]

theorem Moved.counted (h : Moved ch b dst s t) {f : Flash → Flash} (hchannels : (f t.flash).channels = t.flash.channels)
    (herases : (f t.flash).erases = t.flash.erases) (src n : Nat) : Moved ch b dst s (evCount 9 src n (modFlash f t)) := by
  have hchannel (c : Nat) : channelOf (evCount 9 src n (modFlash f t)) c = channelOf t c := by
    simp only [channelOf, evCount_flash, modFlash_flash, hchannels]
  exact h.after (.trans ⟨rfl, rfl, rfl⟩ (evCount_flashWork ..)) (fun c _ => hchannel c) (by rw [hchannel])
    (by rw [evCount_flash, modFlash_flash, herases])

theorem Moved.modChannel (h : Moved ch b dst s t) {f : Channel → Channel} (hf : ∀ c, (f c).blocks = c.blocks) :
    Moved ch b dst s (modChannel ch f t) := by
  refine h.after ⟨rfl, rfl, rfl⟩ (fun c hc => ?_) ?_ rfl
  · rw [channelOf_modChannel, if_neg hc]
  · rw [channelOf_modChannel, if_pos rfl, hf]

end

/-! ### GC_START and GC_BLOCK (13 R493, R494, R499) -/

section
variable {ch part : Nat} {b : Block} {s : State}

theorem exec_gcStart_idle (h : gcDue s ch part = false) : exec (.gcStart ch part) s = .next s :=
  congrArg Host.Outcome.next (if_neg fun ⟨_, _, _, _, hdue⟩ => Bool.false_ne_true (h.symm.trans hdue))

theorem exec_gcStart_starts (hch : ch < 64) (hpart : part < 2) (hok : (channelOf s ch).ok = true) (hro : partRo s part = false)
    (hdue : gcDue s ch part = true) : exec (.gcStart ch part) s = .next (setGc ch part true s) :=
  congrArg Host.Outcome.next (if_pos ⟨hch, hpart, hok, by rw [hro]; rfl, hdue⟩)

theorem gcOn_setGc (on : Bool) : gcOn (channelOf (setGc ch part on s) ch) part = on := by
  rw [setGc, channelOf_modChannel, if_pos rfl]
  unfold gcOn
  split <;> rfl

theorem setGc_others (on : Bool) {c : Nat} (hc : c ≠ ch) : channelOf (setGc ch part on s) c = channelOf s c := by
  rw [setGc, channelOf_modChannel, if_neg hc]

theorem setGc_blocks (on : Bool) : (channelOf (setGc ch part on s) ch).blocks = (channelOf s ch).blocks := by
  rw [setGc, channelOf_modChannel, if_pos rfl]
  split <;> rfl

/-- A block's units moved and the block erased, with the moves counted as those of garbage collection. -/
def gcMoved (ch : Nat) (b : Block) (dst : Nat × Nat) (s : State) : State :=
  evCount 9 6 b.units.length (modFlash (fun f => { f with gcMoves := f.gcMoves + b.units.length }) (collected ch b dst s))

theorem gcMoved_moved (ch : Nat) (b : Block) (dst : Nat × Nat) (s : State) : Moved ch b dst s (gcMoved ch b dst s) :=
  (collected_moved ch b dst s).counted rfl rfl 6 b.units.length

theorem gcMoved_flash (ch : Nat) (b : Block) (dst : Nat × Nat) (s : State) :
    (gcMoved ch b dst s).flash.gcMoves = s.flash.gcMoves + b.units.length ∧
      (gcMoved ch b dst s).flash.buffered = s.flash.buffered := by
  rw [gcMoved, evCount_flash, modFlash_flash, collected_flash]
  exact ⟨rfl, rfl⟩

/-- The state after a GC_BLOCK that moves a block into a place: collection goes on until the stop level is reached. -/
def afterGcBlock (ch part : Nat) (b : Block) (dst : Nat × Nat) (s : State) : State :=
  whenS (gcReached (gcMoved ch b dst s) ch part) (setGc ch part false) (gcMoved ch b dst s)

theorem afterGcBlock_moved (ch part : Nat) (b : Block) (dst : Nat × Nat) (s : State) :
    Moved ch b dst s (afterGcBlock ch part b dst s) := by
  unfold afterGcBlock whenS
  split
  · exact (gcMoved_moved ch b dst s).modChannel fun c => by split <;> rfl
  · exact gcMoved_moved ch b dst s

theorem afterGcBlock_gcMoves (ch part : Nat) (b : Block) (dst : Nat × Nat) (s : State) :
    (afterGcBlock ch part b dst s).flash.gcMoves = s.flash.gcMoves + b.units.length := by
  rw [← (gcMoved_flash ch b dst s).1]
  unfold afterGcBlock whenS
  split <;> rfl

/-- A block may move: it is empty, or the share has a free block outside its reserve (13 R499). -/
theorem room_of_empty_or_free (h : b.units = [] ∨ hasFree s ch part = true) :
    (!b.units.isEmpty && !hasFree s ch part) = false := by
  rcases h with h | h <;> simp [h]

theorem exec_gcBlock_moves (hch : ch < 64) (hpart : part < 2) (hhub : hubWaits s ch = false)
    (hon : gcOn (channelOf s ch) part = true) (hb : gcCandidate s ch part = some b) (hroom : b.units = [] ∨ hasFree s ch part = true)
    (hbuf : (s.flash.buffered.filter fun y => y.1 == part && y.2.1 == ch) = []) :
    exec (.gcBlock ch part) s = .next (afterGcBlock ch part b (pickFree s ch part) s) := by
  have hdrain : drainBuffers false ch part (gcMoved ch b (pickFree s ch part) s) = gcMoved ch b (pickFree s ch part) s :=
    drainBuffers_nothing _ (by rw [(gcMoved_flash ..).2, hbuf])
  refine (congrArg Host.Outcome.next (if_pos ⟨hch, hpart, by rw [hhub]; rfl, hon⟩)).trans ?_
  simp only [hb, room_of_empty_or_free hroom, Bool.false_eq_true, if_false]
  exact congrArg (fun t => Host.Outcome.next (whenS (gcReached t ch part) (setGc ch part false) t)) hdrain

theorem exec_gcBlock_stops (hch : ch < 64) (hpart : part < 2) (hhub : hubWaits s ch = false)
    (hon : gcOn (channelOf s ch) part = true) (hb : gcCandidate s ch part = none) :
    exec (.gcBlock ch part) s = .next (setGc ch part false s) := by
  refine (congrArg Host.Outcome.next (if_pos ⟨hch, hpart, by rw [hhub]; rfl, hon⟩)).trans ?_
  rw [hb]

/-- No block of the reserve is taken (13 R499). -/
theorem exec_gcBlock_reserve (hb : gcCandidate s ch part = some b) (hunits : b.units ≠ []) (hfree : hasFree s ch part = false) :
    exec (.gcBlock ch part) s = .next s := by
  refine congrArg Host.Outcome.next (ite_eq_right_iff.mpr fun _ => ?_)
  rw [hb]
  exact if_pos (by simp [hunits, hfree])

end

/-! ### WEAR_LEVEL_MOVE (13 R491, R492) -/

section
variable {ch part : Nat} {b : Block} {s : State}

/-- A block's units moved and the block erased, with the moves counted as those of wear levelling. -/
def wlMoved (ch : Nat) (b : Block) (dst : Nat × Nat) (s : State) : State :=
  evCount 9 7 b.units.length (modFlash (fun f => { f with wlMoves := f.wlMoves + b.units.length }) (collected ch b dst s))

theorem wlMoved_moved (ch : Nat) (b : Block) (dst : Nat × Nat) (s : State) : Moved ch b dst s (wlMoved ch b dst s) :=
  (collected_moved ch b dst s).counted rfl rfl 7 b.units.length

theorem wlMoved_flash (ch : Nat) (b : Block) (dst : Nat × Nat) (s : State) :
    (wlMoved ch b dst s).flash.wlMoves = s.flash.wlMoves + b.units.length ∧
      (wlMoved ch b dst s).flash.buffered = s.flash.buffered := by
  rw [wlMoved, evCount_flash, modFlash_flash, collected_flash]
  exact ⟨rfl, rfl⟩

/-- The state after a WEAR_LEVEL_MOVE that moves a block into a place: levelling goes on while the spread exceeds its limit. -/
def afterWearMove (ch part : Nat) (b : Block) (dst : Nat × Nat) (s : State) : State :=
  modChannel ch (fun c => { c with wlActive := decide (spreadLimit (wlMoved ch b dst s) part < wearSpreadOf (wlMoved ch b dst s) ch part) })
    (wlMoved ch b dst s)

theorem afterWearMove_moved (ch part : Nat) (b : Block) (dst : Nat × Nat) (s : State) :
    Moved ch b dst s (afterWearMove ch part b dst s) := (wlMoved_moved ch b dst s).modChannel fun _ => rfl

theorem exec_wearLevelMove_idle (h : wearSpreadOf s ch part ≤ spreadLimit s part) : exec (.wearLevelMove ch part) s = .next s :=
  congrArg Host.Outcome.next (if_neg fun ⟨_, _, _, _, _, hspread⟩ => Nat.not_lt.mpr h hspread)

theorem exec_wearLevelMove_moves (hch : ch < 64) (hpart : part < 2) (hhub : hubWaits s ch = false)
    (hen : s.flash.ctl.getLsbD 1 = true) (hro : partRo s part = false) (hspread : spreadLimit s part < wearSpreadOf s ch part)
    (hb : coldest s ch part = some b) (hroom : b.units = [] ∨ hasFree s ch part = true)
    (hbuf : (s.flash.buffered.filter fun y => y.1 == part && y.2.1 == ch) = []) :
    exec (.wearLevelMove ch part) s = .next (afterWearMove ch part b (mostWorn s ch part) s) := by
  have hdrain : drainBuffers false ch part (wlMoved ch b (mostWorn s ch part) s) = wlMoved ch b (mostWorn s ch part) s :=
    drainBuffers_nothing _ (by rw [(wlMoved_flash ..).2, hbuf])
  refine (congrArg Host.Outcome.next (if_pos ⟨hch, hpart, by rw [hhub]; rfl, hen, by rw [hro]; rfl, hspread⟩)).trans ?_
  simp only [hb, room_of_empty_or_free hroom, Bool.false_eq_true, if_false]
  exact congrArg (fun t => Host.Outcome.next (modChannel ch (fun c =>
    { c with wlActive := decide (spreadLimit t part < wearSpreadOf t ch part) }) t)) hdrain

end

/-! ### SPARE_LOW_REACHED (13 R496) -/

section
variable {ch part : Nat} {s : State}

/-- A share whose spares are noted as low. -/
def noteSpareLow (ch part : Nat) (s : State) : State :=
  modChannel ch (fun x => if part = 0 then { x with sprintLow := true } else { x with storeLow := true }) s

/-- Spares noted as low, with the record and a notice of it. -/
def spareLowNoticed (n : Notice) (ch part : Nat) (s : State) : State :=
  postNotice n (flashIrq (recordEvent 1 9 0x0301 (instChannel ch) [part, ch] (noteSpareLow ch part s)))

theorem spareLowNoted_congr {u : State} (h : u.flash = s.flash) : spareLowNoted u ch part = spareLowNoted s ch part := by
  simp only [spareLowNoted, channelOf, h]

theorem spareLowNoted_noteSpareLow : spareLowNoted (noteSpareLow ch part s) ch part = true := by
  rw [spareLowNoted, noteSpareLow, channelOf_modChannel, if_pos rfl]
  split <;> rfl

theorem exec_spareLowReached_noted (h : spareLowNoted s ch part = true) : exec (.spareLowReached ch part) s = .next s :=
  congrArg Host.Outcome.next (if_neg fun ⟨_, _, hlow, _⟩ => by
    rw [spareLowNoted] at h
    rw [h] at hlow
    exact Bool.false_ne_true hlow)

theorem exec_spareLowReached_notes (hch : ch < 64) (hpart : part < 2) (hnoted : spareLowNoted s ch part = false)
    (hlow : sparesLeft s ch part * 10 < initialSpares s part) : exec (.spareLowReached ch part) s =
      .next (spareLowNoticed { status := Status.spareLow, part := part, channel := ch } ch part s) :=
  congrArg Host.Outcome.next (if_pos ⟨hch, hpart, by rw [spareLowNoted] at hnoted; rw [hnoted]; rfl, hlow⟩)

/-- A notice that no function waits for is queued. -/
theorem mem_notices0_postNotice (n : Notice) (h0 : s.hif.waits0 = []) (h1 : s.hif.waits1 = []) :
    n ∈ (postNotice n s).hif.notices0 := by
  simp [postNotice, postNoticeOn, h0, h1]

@[simp] theorem flashIrq_hif_waits0 (s : State) : (flashIrq s).hif.waits0 = s.hif.waits0 := by simp [flashIrq]

@[simp] theorem flashIrq_hif_waits1 (s : State) : (flashIrq s).hif.waits1 = s.hif.waits1 := by simp [flashIrq]

@[simp] theorem flashIrq_mgmt (s : State) : (flashIrq s).mgmt = s.mgmt := by simp [flashIrq]

@[simp] theorem postNoticeOn_mgmt (f : Nat) (n : Notice) (s : State) : (postNoticeOn f n s).mgmt = s.mgmt := by
  unfold postNoticeOn
  dsimp only
  split
  · exact complete_mgmt ..
  · rfl

@[simp] theorem postNotice_mgmt (n : Notice) (s : State) : (postNotice n s).mgmt = s.mgmt := by simp [postNotice]

/-- Low spares are noted, recorded and noticed (13 R496). -/
theorem spareLow_noticed (n : Notice) (h0 : s.hif.waits0 = []) (h1 : s.hif.waits1 = []) :
    spareLowNoted (spareLowNoticed n ch part s) ch part = true ∧ n ∈ (spareLowNoticed n ch part s).hif.notices0 ∧
      s.mgmt.lastSeq < (spareLowNoticed n ch part s).mgmt.lastSeq := by
  unfold spareLowNoticed
  refine ⟨?_, mem_notices0_postNotice n ?_ ?_, ?_⟩
  · exact (spareLowNoted_congr (by simp)).trans (spareLowNoted_noteSpareLow (s := s))
  · rw [flashIrq_hif_waits0, recordEvent_hif_waits0]
    exact h0
  · rw [flashIrq_hif_waits1, recordEvent_hif_waits1]
    exact h1
  · rw [postNotice_mgmt, flashIrq_mgmt]
    exact recordEvent_lastSeq_lt 1 9 0x0301 _ _ (noteSpareLow ch part s)

end

/-! ### Retirement (13 R490, R495 to R498) -/

/-- A block that is retired (13 R495). -/
def Block.worn (b : Block) : Block := { b with state := .retired, units := [], refresh := none }

/-- A channel that has given a spare of a partition (13 R482). -/
def Channel.spared (part : Nat) (c : Channel) : Channel :=
  if part = 0 then { c with sprintTaken := c.sprintTaken + 1 } else { c with storeTaken := c.storeTaken + 1 }

theorem spared_blocks (part : Nat) (c : Channel) : (c.spared part).blocks = c.blocks := by
  unfold Channel.spared
  split <;> rfl

theorem sparesTaken_spared (part : Nat) (c : Channel) : sparesTaken (c.spared part) part = sparesTaken c part + 1 := by
  unfold sparesTaken Channel.spared
  split <;> rfl

section
variable {ch part die num : Nat} {s : State}

theorem retireBlock_of_spare (hstate : (blockAt (channelOf s ch) part die num).state ≠ .retired) (hspare : sparesLeft s ch part ≠ 0) :
    retireBlock ch part die num s = recordEvent 1 9 0x0303 (instChannel ch) [part, die, num]
      (modFlash (fun f => { f with retired := f.retired + 1 })
        (modChannel ch (fun c => (putBlock (blockAt (channelOf s ch) part die num).worn c).spared part)
          (relocate ch (blockAt (channelOf s ch) part die num) (pickFree s ch part) s))) := by
  simp only [retireBlock, if_neg hstate, if_neg hspare]
  rfl

theorem retireBlock_of_no_spare (hstate : (blockAt (channelOf s ch) part die num).state ≠ .retired) (hspare : sparesLeft s ch part = 0) :
    retireBlock ch part die num s = goReadOnly part ch 1 s := by
  simp only [retireBlock, if_neg hstate, if_pos hspare]

theorem retireBlock_of_retired (hstate : (blockAt (channelOf s ch) part die num).state = .retired) :
    retireBlock ch part die num s = s := by
  simp only [retireBlock, if_pos hstate]

theorem sparesTaken_relocate (b : Block) (dst : Nat × Nat) :
    sparesTaken (channelOf (relocate ch b dst s) ch) part = sparesTaken (channelOf s ch) part := by
  rw [channelOf_relocate]
  split <;> rfl

/-- A spare takes the place of a block that retires (13 R495, R497). -/
theorem retireBlock_effect {u : State} (hu : u = retireBlock ch part die num s)
    (hstate : (blockAt (channelOf s ch) part die num).state ≠ .retired) (hspare : sparesLeft s ch part ≠ 0) :
    blockAt (channelOf u ch) part die num = (blockAt (channelOf s ch) part die num).worn ∧
      sparesTaken (channelOf u ch) part = sparesTaken (channelOf s ch) part + 1 ∧ u.obj = s.obj ∧
      u.flash = { s.flash with channels := u.flash.channels, reads := u.flash.reads, programs := u.flash.programs
                               retired := s.flash.retired + 1 } := by
  rw [retireBlock_of_spare hstate hspare] at hu
  have hplace := blockAt_place (channelOf s ch) part die num
  generalize blockAt (channelOf s ch) part die num = b at hu hplace ⊢
  have hchannel : channelOf u ch = (putBlock b.worn (channelOf (relocate ch b (pickFree s ch part) s) ch)).spared part := by
    rw [hu]
    simp only [channelOf, recordEvent_flash, modFlash_flash, modChannel_flash, mgetD_mmod_same]
  refine ⟨?_, ?_, ?_, ?_⟩
  · rw [hchannel, blockAt_congr (spared_blocks part _)]
    exact blockAt_putBlock_same (b := b.worn) hplace _
  · rw [hchannel, sparesTaken_spared, ← sparesTaken_relocate b (pickFree s ch part)]
    rfl
  · rw [hu, recordEvent_obj, modFlash_obj, modChannel_obj, (relocate_flashWork ..).1]
  · rw [hu, recordEvent_flash, modFlash_flash, modChannel_flash, relocate_flash]

/-- Where a spare is left the block is retired in the end, and neither an object nor the count of unreadable units differs. -/
theorem retireBlock_retires {u : State} (hu : u = retireBlock ch part die num s) (hspare : sparesLeft s ch part ≠ 0) :
    (blockAt (channelOf u ch) part die num).state = .retired ∧ u.obj = s.obj ∧ u.flash.fail = s.flash.fail := by
  by_cases hstate : (blockAt (channelOf s ch) part die num).state = .retired
  · rw [retireBlock_of_retired hstate] at hu
    subst hu
    exact ⟨hstate, rfl, rfl⟩
  · obtain ⟨hblock, -, hobj, hflash⟩ := retireBlock_effect hu hstate hspare
    exact ⟨by rw [hblock]; rfl, hobj, by rw [hflash]⟩

end

/-! ### PROGRAM_FAIL and CHANNEL_FAIL (13 R497, R498) -/

section
variable {ch part die num : Nat} {s : State}

/-- A failed program is counted. -/
def programCounted (s : State) : State := evCount 9 2 1 (modFlash (fun f => { f with programs := f.programs + 1 }) s)

theorem programCounted_flash (s : State) : (programCounted s).flash = { s.flash with programs := s.flash.programs + 1 } :=
  evCount_flash ..

theorem channelOf_programCounted (n : Nat) : channelOf (programCounted s) n = channelOf s n := by
  simp only [channelOf, programCounted_flash]

theorem sparesLeft_programCounted : sparesLeft (programCounted s) ch part = sparesLeft s ch part := by
  simp only [sparesLeft, initialSpares, channelBlocks, sprintPerDie, channelOf, programCounted_flash]

theorem exec_programFail (hch : ch < 64) (hpart : part < 2) :
    exec (.programFail ch part die num) s = .next (retireBlock ch part die num (programCounted s)) :=
  congrArg Host.Outcome.next (if_pos ⟨hch, hpart⟩)

/-- What CHANNEL_FAIL first does: the passages on the channel cannot be read, and the channel is marked as failed. -/
def channelLost (ch : Nat) (s : State) : State :=
  markChannelFailed ch (modObj (fun o => { o with collections := mmap o.collections fun _ c => blindTexts ch c }) s)

theorem exec_channelFail (hch : ch < 64) (hfailed : (channelOf s ch).failed = false) (hretired : (channelOf s ch).retired = false) :
    exec (.channelFail ch) s = .next (goReadOnly 1 ch 2 (goReadOnly 0 ch 2 (channelLost ch s))) := by
  refine congrArg Host.Outcome.next ((if_pos hch).trans (if_neg ?_))
  rw [Bool.or_eq_true_iff]
  exact not_or.mpr ⟨Bool.eq_false_iff.mp hfailed, Bool.eq_false_iff.mp hretired⟩

theorem channelOf_channelLost : channelOf (channelLost ch s) ch = { channelOf s ch with failed := true, ok := false } := by
  rw [channelLost, markChannelFailed, channelOf_modChannel, if_pos rfl]
  rfl

/-- A channel that fails makes both partitions read-only, and touches neither the accounts nor the requests (13 R498). -/
theorem channelFail_closes (ch : Nat) (s : State) : let u := goReadOnly 1 ch 2 (goReadOnly 0 ch 2 (channelLost ch s))
    (channelOf u ch).failed = true ∧ (channelOf u ch).ok = false ∧ u.flash.sprintRo = true ∧ u.flash.storeRo = true ∧
      u.sched.accounts = s.sched.accounts ∧ u.gen = s.gen := by
  obtain ⟨hkept, hsprint⟩ := goReadOnly_standing (channelLost ch s) 0 ch 2
  have hmarks := goReadOnly_beyondFlash (channelLost ch s) 0 ch 2
  generalize goReadOnly 0 ch 2 (channelLost ch s) = t at hkept hsprint hmarks ⊢
  obtain ⟨hkept', hstore⟩ := goReadOnly_standing t 1 ch 2
  have hbeyond := (goReadOnly_beyondFlash t 1 ch 2).trans hmarks
  generalize goReadOnly 1 ch 2 t = u at hkept' hstore hbeyond ⊢
  have hfailed : (channelOf u ch).failed = (channelOf (channelLost ch s) ch).failed :=
    congrArg Prod.fst (congrFun (channelMarks_of_beyondFlash hbeyond) ch)
  have hok := (hkept.trans hkept').ok ch
  rw [channelOf_channelLost] at hfailed hok
  obtain ⟨hcore, -⟩ := frame_of_beyondFlash hbeyond
  exact ⟨hfailed, hok, hkept'.readOnly 0 hsprint, hstore, congrArg Sched.accounts hcore.sched, hcore.gen⟩

end

/-! ### FLASH_READ_DECODE (13 R488 to R490) -/

theorem chargeUnit_only (u : SUnit) (q : Nat) (mk : Nat → Counters) (s : State) :
    ∃ g d, chargeUnit u q mk s = { s with gen := g, sched := d } := by
  refine foldS_inv (fun t => ∃ g d, t = { s with gen := g, sched := d }) _ _ s (fun t x ht => ?_) ⟨_, _, rfl⟩
  obtain ⟨g, d, ht⟩ := ht
  obtain ⟨l, a, hc⟩ := charge_only x.1 (mk x.2.2) t
  exact ⟨_, _, by rw [hc, ht]⟩

/-- The account's read is booked on the request table and the accounts alone (14 R543). -/
theorem chargeFlashRead_only (r : FlashRead) (s : State) : ∃ g d, chargeFlashRead r s = { s with gen := g, sched := d } := by
  unfold chargeFlashRead
  split
  · exact ⟨_, _, rfl⟩
  · split
    · split
      · split
        · split
          · exact ⟨_, _, rfl⟩
          · exact chargeUnit_only ..
        · exact chargeUnit_only ..
      · split
        · obtain ⟨l, a, h⟩ := charge_only _ { flashReads := 1 } s
          exact ⟨_, _, h⟩
        · exact ⟨_, _, rfl⟩
    · exact ⟨_, _, rfl⟩
  · exact ⟨_, _, rfl⟩

theorem countRead_flash (level : Option Nat) (s : State) : (countRead level s).flash = { s.flash with
    reads := s.flash.reads + 1, retry := s.flash.retry + b2n (level != some 0), fail := s.flash.fail + b2n level.isNone } := by
  simp [countRead]

/-- A read is counted by its level, and charged. -/
def readCounted (r : FlashRead) (s : State) : State := chargeFlashRead r (countRead r.level s)

theorem readCounted_flash (r : FlashRead) (s : State) : (readCounted r s).flash = { s.flash with
    reads := s.flash.reads + 1, retry := s.flash.retry + b2n (r.level != some 0), fail := s.flash.fail + b2n r.level.isNone } := by
  obtain ⟨g, d, h⟩ := chargeFlashRead_only r (countRead r.level s)
  rw [readCounted, h, ← countRead_flash]

theorem readCounted_frame (r : FlashRead) (s : State) : (readCounted r s).obj = s.obj ∧ (readCounted r s).mem = s.mem ∧
    (readCounted r s).hif.hostMem = s.hif.hostMem := by
  obtain ⟨g, d, h⟩ := chargeFlashRead_only r (countRead r.level s)
  rw [readCounted, h]
  simp [countRead]

theorem channelOf_readCounted (r : FlashRead) (s : State) (n : Nat) : channelOf (readCounted r s) n = channelOf s n := by
  simp only [channelOf, readCounted_flash]

/-- A read of a channel that serves, whose hub does not restart. -/
structure ReadServed (r : FlashRead) (s : State) : Prop where
  channel : r.channel < 64
  part : r.part < 2
  failed : (channelOf s r.channel).failed = false
  retired : (channelOf s r.channel).retired = false
  hub : hubWaits s r.channel = false

section
variable {r : FlashRead} {s : State}

theorem ReadServed.guard (h : ReadServed r s) : r.channel < 64 ∧ r.part < 2 ∧ !hubWaits s r.channel ∧
    !(channelOf s r.channel).failed ∧ !(channelOf s r.channel).retired :=
  ⟨h.channel, h.part, by rw [h.hub]; rfl, by rw [h.failed]; rfl, by rw [h.retired]; rfl⟩

theorem exec_flashReadDecode_easy (h : ReadServed r s) {l : Nat} (hl : r.level = some l) (hlow : l < 5) :
    exec (.flashReadDecode r) s = .next (readCounted r s) := by
  refine (congrArg Host.Outcome.next (if_pos h.guard)).trans ?_
  simp only [hl, if_pos hlow]
  rw [← hl]
  rfl

theorem exec_flashReadDecode_marks (h : ReadServed r s) {l : Nat} (hl : r.level = some l) (hlow : 5 ≤ l) (hhigh : l < 8) :
    exec (.flashReadDecode r) s =
      .next (markRefresh r.channel (blockAt (channelOf s r.channel) r.part r.die r.block) (readCounted r s)) := by
  refine (congrArg Host.Outcome.next (if_pos h.guard)).trans ?_
  simp only [hl, if_neg (Nat.not_lt.mpr hlow), if_pos hhigh]
  rw [← hl, ← channelOf_readCounted r s]
  rfl

theorem exec_flashReadDecode_fails (h : ReadServed r s) (hl : r.level = none) : exec (.flashReadDecode r) s =
    .next (unreadable r.holds (retireBlock r.channel r.part r.die r.block (dropUnread r (readCounted r s)))) := by
  refine (congrArg Host.Outcome.next (if_pos h.guard)).trans ?_
  simp only [hl]
  rw [← hl]
  rfl

theorem markRefresh_of_unmarked {ch : Nat} {b : Block} (h : b.refresh = none) : markRefresh ch b s =
    modFlash (fun f => { f with nextRefresh := f.nextRefresh + 1 })
      (modChannel ch (putBlock { b with refresh := some s.flash.nextRefresh }) s) := by
  simp [markRefresh, h]

/-- A mark takes the next number, and touches no other channel (13 R490). -/
theorem markRefresh_effect {ch part die num : Nat} {u : State} (hu : u = markRefresh ch (blockAt (channelOf s ch) part die num) s)
    (h : (blockAt (channelOf s ch) part die num).refresh = none) :
    (blockAt (channelOf u ch) part die num).refresh = some s.flash.nextRefresh ∧
      u.flash.nextRefresh = s.flash.nextRefresh + 1 ∧ u.flash.reads = s.flash.reads ∧ ∀ c, c ≠ ch → channelOf u c = channelOf s c := by
  rw [markRefresh_of_unmarked h] at hu
  have hplace := blockAt_place (channelOf s ch) part die num
  generalize blockAt (channelOf s ch) part die num = b at hu hplace
  have hchannel (n : Nat) : channelOf u n =
      channelOf (modChannel ch (putBlock { b with refresh := some s.flash.nextRefresh }) s) n := by
    rw [hu]
    rfl
  refine ⟨?_, by rw [hu]; rfl, by rw [hu]; rfl, fun c hc => ?_⟩
  · rw [hchannel, channelOf_modChannel, if_pos rfl,
      blockAt_putBlock_same (b := { b with refresh := some s.flash.nextRefresh }) hplace]
  · rw [hchannel, channelOf_modChannel, if_neg hc]

theorem dropUnread_fillsBlocks (r : FlashRead) (s : State) : FillsBlocks s (dropUnread r s) := by
  unfold dropUnread whenS
  dsimp only
  split
  · exact modChannel_putBlock_fillsBlocks ..
  · exact .refl s

theorem dropUnread_obj (r : FlashRead) (s : State) : (dropUnread r s).obj = s.obj := by
  unfold dropUnread whenS
  dsimp only
  split <;> rfl

theorem FillsBlocks.sparesLeft {s t : State} (h : FillsBlocks s t) (ch part : Nat) : sparesLeft t ch part = sparesLeft s ch part := by
  have hshare : t.flash.sprintShare = s.flash.sprintShare := by rw [h.flash]
  simp only [Machine.sparesLeft, sparesTaken, initialSpares, channelBlocks, sprintPerDie, hshare]
  rw [h.channel ch]

theorem sparesLeft_readCounted (r : FlashRead) (s : State) (ch part : Nat) :
    sparesLeft (readCounted r s) ch part = sparesLeft s ch part := by
  simp only [sparesLeft, initialSpares, channelBlocks, sprintPerDie, channelOf, readCounted_flash]

end

/-- Settles O35: a read is counted before its block is looked at, and what marking, retiring and the bad page change lies apart. -/
theorem flashReads : Obligations.flash_reads := by
  unfold Obligations.flash_reads
  refine ⟨?_, ?_, ?_⟩
  · intro r l s hch hpart hfailed hretired hhub hl hlow
    refine ⟨_, exec_flashReadDecode_easy ⟨hch, hpart, hfailed, hretired, hhub⟩ hl hlow, ?_, readCounted_frame r s⟩
    rw [readCounted_flash, hl]
    rfl
  · intro r l s hch hpart hfailed hretired hhub hl hlow hhigh hmark
    have hexec := exec_flashReadDecode_marks ⟨hch, hpart, hfailed, hretired, hhub⟩ hl hlow hhigh
    rw [← channelOf_readCounted r s] at hexec hmark
    obtain ⟨hblock, hnext, hreads, hothers⟩ := markRefresh_effect rfl hmark
    refine ⟨_, hexec, ?_, ?_, ?_, fun c hc => ?_⟩
    · rw [hblock, readCounted_flash]
    · rw [hnext, readCounted_flash]
    · rw [hreads, readCounted_flash]
    · rw [hothers c hc, channelOf_readCounted]
  · intro r k page c s hch hpart hfailed hretired hhub hl hholds hc hspare
    have hexec := exec_flashReadDecode_fails ⟨hch, hpart, hfailed, hretired, hhub⟩ hl
    have hdrop := dropUnread_fillsBlocks r (readCounted r s)
    have hleft : sparesLeft (dropUnread r (readCounted r s)) r.channel r.part ≠ 0 := by
      rwa [hdrop.sparesLeft, sparesLeft_readCounted]
    obtain ⟨hstate, hobj, hfail⟩ := retireBlock_retires (die := r.die) (num := r.block) rfl hleft
    rw [hholds] at hexec
    generalize retireBlock _ _ _ _ _ = t at hexec hstate hobj hfail
    have hcoll : mget t.obj.collections k = some c := by rwa [hobj, dropUnread_obj, (readCounted_frame r s).1]
    obtain ⟨hbad, -, -⟩ := modColl_effect hcoll (fun c => { c with badPages := insertNum page c.badPages }) rfl
    refine ⟨_, _, hexec, hbad, mem_insertNum page _, rfl, ?_, hstate⟩
    change t.flash.fail = _
    rw [hfail, hdrop.flash, readCounted_flash, hl]
    rfl

/-- Settles O36: collection and levelling share the move of a block, and the read-only transition opens no partition again. -/
theorem flashUpkeepAndWear : Obligations.flash_upkeep_and_wear := by
  unfold Obligations.flash_upkeep_and_wear
  refine ⟨?_, ?_, ?_, ?_, ?_, ?_, ?_, ?_, ?_, ?_, ?_, ?_⟩
  · exact fun _ _ _ => exec_gcStart_idle
  · intro ch part s hch hpart hok hro hdue
    exact ⟨_, exec_gcStart_starts hch hpart hok hro hdue, gcOn_setGc true, fun _ => setGc_others true, setGc_blocks true, rfl⟩
  · intro ch part b s hch hpart hon hb hhub hroom hbuf
    have hmoved := afterGcBlock_moved ch part b (pickFree s ch part) s
    refine ⟨_, _, exec_gcBlock_moves hch hpart hhub hon hb hroom hbuf, hmoved.erased, rfl, rfl, rfl, fun hunits hplace => ?_,
      afterGcBlock_gcMoves .., hmoved.erases, hmoved.others, hmoved.work.1⟩
    have hunits := hmoved.units hunits hplace
    rwa [gcCandidate_part hb] at hunits
  · intro ch part s hch hpart hon hb hhub
    exact ⟨_, exec_gcBlock_stops hch hpart hhub hon hb, gcOn_setGc false, rfl⟩
  · exact fun _ _ _ _ _ hb hunits hfree => exec_gcBlock_reserve hb hunits hfree
  · intro ch part b s hch hpart hen hro hspread hb hhub hroom hbuf
    have hmoved := afterWearMove_moved ch part b (mostWorn s ch part) s
    exact ⟨_, _, exec_wearLevelMove_moves hch hpart hhub hen hro hspread hb hroom hbuf, hmoved.erased, rfl, rfl, rfl,
      (wlMoved_flash ..).1, hmoved.others⟩
  · exact fun _ _ _ => exec_wearLevelMove_idle
  · intro ch part s hch hpart hnoted hlow h0 h1
    obtain ⟨hset, hqueued, hseq⟩ := spareLow_noticed { status := Status.spareLow, part := part, channel := ch } h0 h1
    exact ⟨_, _, exec_spareLowReached_notes hch hpart hnoted hlow, hset, hqueued, rfl, rfl, rfl, hseq⟩
  · exact fun _ _ _ => exec_spareLowReached_noted
  · intro ch part die num s hch hpart hstate hspare
    rw [← channelOf_programCounted] at hstate
    rw [← sparesLeft_programCounted] at hspare
    obtain ⟨hblock, htaken, hobj, hflash⟩ := retireBlock_effect rfl hstate hspare
    refine ⟨_, exec_programFail hch hpart, by rw [hblock]; rfl, by rw [hblock]; rfl, ?_, ?_, ?_, ?_⟩
    · rw [htaken, channelOf_programCounted]
    · rw [hflash, programCounted_flash]
    · exact hobj.trans (evCount_obj ..)
    · unfold partRo
      rw [hflash, programCounted_flash]
  · intro ch part die num s hch hpart hstate hspare
    rw [← channelOf_programCounted] at hstate
    rw [← sparesLeft_programCounted] at hspare
    refine ⟨_, exec_programFail hch hpart, ?_⟩
    rw [retireBlock_of_no_spare hstate hspare]
    exact (goReadOnly_standing _ part ch 1).2
  · intro ch s hch hfailed hretired
    exact ⟨_, exec_channelFail hch hfailed hretired, channelFail_closes ch s⟩

end Sys2Proof.Machine
end

section
/-! PROOFS. Units at work: what own time, a preemption point, a slice's end and a watchdog make of a unit, its contexts and the request it
serves (05 R161, R179, R184 to R186; 10 R348; 14 R530, R535, R539, R540). -/

namespace Sys2Proof.Machine

/-! ### Own time (05 R184; 14 R532, R537) -/

/-- A unit that has run for a time of its own: its slice has ended once its own time is past the slice's end. -/
def SUnit.ran (ns : Nat) (x : SUnit) : SUnit :=
  { x with
    ownNs := x.ownNs + ns
    sliceEnded := if x.sliceEnded.isNone && decide (x.sliceEnd < x.ownNs + ns) then some x.sliceEnd else x.sliceEnded }

/-- A context whose watchdog has counted a time of its unit's own. -/
def Ctx.ran (ns : Nat) (c : Ctx) : Ctx := { c with watchdog := c.watchdog + ns }

theorem chargeVtime_only (u : SUnit) (ns : Nat) (s : State) :
    ∃ a, chargeVtime u ns s = { s with sched := { s.sched with accounts := a } } := by
  refine foldS_inv (fun t => ∃ a, t = { s with sched := { s.sched with accounts := a } }) _ _ _ ?_ ⟨_, rfl⟩
  rintro t m ⟨a, rfl⟩
  exact ⟨_, rfl⟩

theorem modCtxs_only (u : SUnit) (f : Ctx → Ctx) (s : State) :
    ∃ m, modCtxs u f s = { s with boot := { s.boot with clusters := m } } := by
  refine foldS_inv (fun t => ∃ m, t = { s with boot := { s.boot with clusters := m } }) _ _ _ ?_ ⟨_, rfl⟩
  rintro t p ⟨m, rfl⟩
  exact ⟨_, rfl⟩

/-- The contexts of a unit in one slot are the context of that slot. -/
theorem modCtxs_ctxBecomes {u : SUnit} {p : Nat × Nat} {c : Ctx} {s : State} (hp : u.slots = [p])
    (hc : mget (clusterOf s p.1).slots p.2 = some c) (f : Ctx → Ctx) : CtxBecomes p (f c) s (modCtxs u f s) := by
  have hone : modCtxs u f s = modCluster p.1 (fun k => { k with slots := mupd k.slots p.2 f }) s := by
    rw [modCtxs, hp, foldS_cons, foldS_nil]
  rw [hone]
  refine ⟨?_, fun g hg => clusterOf_modCluster_other hg _ s⟩
  rw [clusterOf_modCluster_same, mget_mupd, if_pos rfl, hc, Option.map_some]

/-- A change of a unit's contexts leaves each slot its owner. -/
theorem modCtxs_owner {u : SUnit} {f : Ctx → Ctx} (hf : ∀ c, (f c).unit = c.unit) {g slot : Nat} {c : Ctx} {s : State}
    (hc : mget (clusterOf s g).slots slot = some c) :
    ∃ d, mget (clusterOf (modCtxs u f s) g).slots slot = some d ∧ d.unit = c.unit := by
  refine foldS_inv (fun t => ∃ d, mget (clusterOf t g).slots slot = some d ∧ d.unit = c.unit) _ _ _ ?_ ⟨c, hc, rfl⟩
  rintro t p ⟨d, hd, hunit⟩
  by_cases hg : g = p.1
  · subst hg
    rw [clusterOf_modCluster_same, mget_mupd]
    split
    next hslot => exact ⟨f d, by rw [← hslot, hd, Option.map_some], (hf d).trans hunit⟩
    next => exact ⟨d, hd, hunit⟩
  · exact ⟨d, by rw [clusterOf_modCluster_other hg, hd], hunit⟩

theorem modCtxs_drain (u : SUnit) (f : Ctx → Ctx) (g : Nat) (s : State) : (clusterOf (modCtxs u f s) g).drain = (clusterOf s g).drain := by
  refine foldS_keeps (fun t => (clusterOf t g).drain) _ _ _ fun t p => ?_
  by_cases hg : g = p.1
  · subst hg
    rw [clusterOf_modCluster_same]
  · rw [clusterOf_modCluster_other hg]

theorem CtxBecomes.trans {p : Nat × Nat} {c d : Ctx} {s t u : State} (h : CtxBecomes p c s t) (k : CtxBecomes p d t u) :
    CtxBecomes p d s u := ⟨k.ctx, fun g hg => (k.others g hg).trans (h.others g hg)⟩

/-- One unit has become another, and nothing but it, the accounts and the clusters differs. -/
structure UnitBecomes (n : Nat) (y : SUnit) (s u : State) : Prop where
  unit : mget u.sched.units n = some y
  others : ∀ j, j ≠ n → mget u.sched.units j = mget s.sched.units j
  only : u = { s with sched := { s.sched with units := u.sched.units, accounts := u.sched.accounts }
                      boot := { s.boot with clusters := u.boot.clusters } }

theorem UnitBecomes.trans {n : Nat} {y z : SUnit} {s t u : State} (h : UnitBecomes n y s t) (k : UnitBecomes n z t u) :
    UnitBecomes n z s u := by
  refine ⟨k.unit, fun j hj => (k.others j hj).trans (h.others j hj), ?_⟩
  have hu := k.only
  rw [h.only] at hu
  exact hu

section
variable {n : Nat} {x : SUnit} {s : State} (hx : mget s.sched.units n = some x)
include hx

theorem modUnit_unitBecomes (f : SUnit → SUnit) : UnitBecomes n (f x) s (modUnit n f s) :=
  ⟨(mget_mupd _ _ _ _).trans (by rw [if_pos rfl, hx, Option.map_some]), fun _ hj => mget_mupd_other hj _ _, rfl⟩

theorem modCtxs_unitBecomes (u : SUnit) (f : Ctx → Ctx) : UnitBecomes n x s (modCtxs u f s) := by
  obtain ⟨m, hctxs⟩ := modCtxs_only u f s
  rw [hctxs]
  exact ⟨hx, fun _ _ => rfl, rfl⟩

theorem chargeVtime_unitBecomes (u : SUnit) (ns : Nat) : UnitBecomes n x s (chargeVtime u ns s) := by
  obtain ⟨a, hvtime⟩ := chargeVtime_only u ns s
  rw [hvtime]
  exact ⟨hx, fun _ _ => rfl, rfl⟩

theorem runFor_eq (ns : Nat) : runFor n ns s = chargeVtime x ns (modCtxs x (Ctx.ran ns) (modUnit n (SUnit.ran ns) s)) := by
  unfold runFor
  rw [hx]
  rfl

/-- Own time of a unit goes to its accounts, its contexts' watchdogs and itself. -/
theorem runFor_unitBecomes (ns : Nat) : UnitBecomes n (x.ran ns) s (runFor n ns s) := by
  have hunit := modUnit_unitBecomes hx (SUnit.ran ns)
  have hctxs := modCtxs_unitBecomes hunit.unit x (Ctx.ran ns)
  rw [runFor_eq hx]
  exact (hunit.trans hctxs).trans (chargeVtime_unitBecomes hctxs.unit x ns)

/-- The clusters after a time of a unit's own are those with its contexts' watchdogs moved on. -/
theorem runFor_boot (ns : Nat) : (runFor n ns s).boot = (modCtxs x (Ctx.ran ns) (modUnit n (SUnit.ran ns) s)).boot := by
  obtain ⟨a, hvtime⟩ := chargeVtime_only x ns (modCtxs x (Ctx.ran ns) (modUnit n (SUnit.ran ns) s))
  rw [runFor_eq hx, hvtime]

/-! ### SLICE_END (14 R535, R537) -/

theorem exec_sliceEnd_ends (hs : x.slots ≠ []) (he : x.sliceEnded = none)
    (hw : unitWatchdog s x + (x.sliceEnd - x.ownNs) ≤ watchdogNs) : exec (.sliceEnd n) s =
      .next (modUnit n (fun y => { y with sliceEnded := some x.sliceEnd }) (runFor n (x.sliceEnd - x.ownNs) s)) := by
  refine congrArg Host.Outcome.next ?_
  simp only [hx]
  exact if_neg (by simp [hs, he, Nat.not_lt.mpr hw])

/-- A slice that would end beyond its watchdog's limit does not end first (05 R185; log entry 2). -/
theorem exec_sliceEnd_waits (hw : watchdogNs < unitWatchdog s x + (x.sliceEnd - x.ownNs)) : exec (.sliceEnd n) s = .next s := by
  refine congrArg Host.Outcome.next ?_
  simp only [hx]
  exact if_pos (by simp [hw])

/-- A slice that ends is noted as ended at its instant, to which the unit has run. -/
theorem sliceEnd_unitBecomes (hle : x.ownNs ≤ x.sliceEnd) :
    UnitBecomes n { x with sliceEnded := some x.sliceEnd, ownNs := x.sliceEnd } s
      (modUnit n (fun y => { y with sliceEnded := some x.sliceEnd }) (runFor n (x.sliceEnd - x.ownNs) s)) := by
  have hran := runFor_unitBecomes hx (x.sliceEnd - x.ownNs)
  have hend := hran.trans (modUnit_unitBecomes hran.unit fun y => { y with sliceEnded := some x.sliceEnd })
  simpa only [SUnit.ran, Nat.add_sub_cancel' hle] using hend

end

/-! ### PREEMPT_POINT_REACHED (14 R530; 05 R161, R179) -/

/-- Leaving a point restarts the watchdog: what it had counted does not matter (05 R184). -/
theorem passPoint_ran (i : Option Image) (ns : Nat) (c : Ctx) : passPoint i (c.ran ns) = passPoint i c := by
  unfold passPoint Ctx.ran
  split <;> rfl

theorem passPoint_unit (i : Option Image) (c : Ctx) : (passPoint i c).unit = c.unit := by
  unfold passPoint
  split <;> rfl

/-- A unit noted as standing at a point (14 R538). -/
def SUnit.notePoint (at_ : Nat) (x : SUnit) : SUnit := { x with pointAt := some at_ }

/-- The state as a unit stands at a preemption point after a time of its own, its contexts past their points. -/
def pointReached (n ran : Nat) (x : SUnit) (s : State) : State :=
  modUnit n (SUnit.notePoint (now s)) (modCtxs x (passPoint (mget s.obj.images x.image)) (runFor n ran s))

section
variable {n ran : Nat} {x : SUnit} {s : State} (hx : mget s.sched.units n = some x)
include hx

theorem pointReached_unitBecomes : UnitBecomes n ((x.ran ran).notePoint (now s)) s (pointReached n ran x s) := by
  have hran := runFor_unitBecomes hx ran
  have hctxs := hran.trans (modCtxs_unitBecomes hran.unit x (passPoint (mget s.obj.images x.image)))
  exact hctxs.trans (modUnit_unitBecomes hctxs.unit _)

/-- The context of a unit in one slot has passed its point. -/
theorem pointReached_ctxBecomes {p : Nat × Nat} {c : Ctx} (hp : x.slots = [p]) (hc : mget (clusterOf s p.1).slots p.2 = some c) :
    CtxBecomes p (passPoint (mget s.obj.images x.image) c) s (pointReached n ran x s) := by
  obtain ⟨hctx, hothers⟩ : CtxBecomes p (c.ran ran) (modUnit n (SUnit.ran ran) s) (runFor n ran s) :=
    (modCtxs_ctxBecomes (s := modUnit n (SUnit.ran ran) s) hp hc (Ctx.ran ran)).congr (congrArg Boot.clusters (runFor_boot hx ran))
  have hran : CtxBecomes p (c.ran ran) s (runFor n ran s) := ⟨hctx, hothers⟩
  have hpass := hran.trans (modCtxs_ctxBecomes hp hran.ctx (passPoint (mget s.obj.images x.image)))
  rw [passPoint_ran] at hpass
  exact hpass.congr rfl

theorem pointReached_drain (g : Nat) : (clusterOf (pointReached n ran x s) g).drain = (clusterOf s g).drain := by
  have hran : clusterOf (runFor n ran s) = clusterOf (modCtxs x (Ctx.ran ran) (modUnit n (SUnit.ran ran) s)) :=
    clusterOf_congr (congrArg Boot.clusters (runFor_boot hx ran))
  refine (modCtxs_drain x _ g _).trans ?_
  rw [hran]
  exact modCtxs_drain x _ g _

/-- What a unit's contexts, all of them at points, decide when none of its watchdogs has expired on the way. -/
theorem exec_preemptPointReached (hs : x.slots ≠ []) (hat : (unitCtxs s x).all (atPoint (mget s.obj.images x.image)) = true)
    (htrip : tripOf s x ran = none) : exec (.preemptPointReached n ran) s = .next
      (match x.kind with
        | .run e => runAtPoint e n ((x.ran ran).notePoint (now s)) ((unitCtxs s x).all (ctxDone (mget s.obj.images x.image)))
            (pointReached n ran x s)
        | .stage _ _ => leaveSlot n ((x.ran ran).notePoint (now s)) (pointReached n ran x s)
        | .step k => stepAtPoint k n ((x.ran ran).notePoint (now s))
            ((unitCtxs s x).all (ctxDone (mget s.obj.images x.image)) && (unitCtxs s x).all fun c => !c.waiting)
            (pointReached n ran x s)) := by
  refine congrArg Host.Outcome.next ?_
  have hunit : mget (modUnit n (fun x => { x with pointAt := some (now s) })
      (modCtxs x (passPoint (mget s.obj.images x.image)) (runFor n ran s))).sched.units n = some ((x.ran ran).notePoint (now s)) :=
    (pointReached_unitBecomes hx).unit
  have hstays : (x.slots.isEmpty || !(unitCtxs s x).all (atPoint (mget s.obj.images x.image))) = false := by
    simp [hs, hat]
  simp only [hx, hstays, htrip, hunit, Bool.false_eq_true, if_false]
  rfl

end

/-! ### A unit at its point (14 R530, 04 R120) -/

theorem leaveSlot_stays {n : Nat} {u : SUnit} {s : State} (hm : u.marked = none)
    (hd : ∀ p, p ∈ u.slots → (clusterOf s p.1).drain = false) : leaveSlot n u s = s := by
  have hnone : (u.slots.any fun p => (clusterOf s p.1).drain) = false :=
    List.any_eq_false.mpr fun p hp => by rw [hd p hp]; exact Bool.false_ne_true
  simp only [leaveSlot, hm, hnone, Bool.false_eq_true, if_false]

/-- A marked unit leaves; the unit it was marked for is gone, so none takes the slot. -/
theorem leaveSlot_leaves {n w : Nat} {b : Bool} {u : SUnit} {s : State} (hm : u.marked = some (w, b))
    (hw : mget (saveUnit n true s).sched.units w = none) : leaveSlot n u s = passCycles 1 (saveUnit n true s) := by
  have hnone : tryPlace (u.slots.map Prod.fst) w (passCycles 1 (saveUnit n true s)) = none := by
    simp only [tryPlace, passCycles_sched, hw]
  simp only [leaveSlot, hm, hnone, Option.getD_none]

/-! ### Saving a unit (05 R179, 14 R530) -/

/-- The units, the count of preemptions, the clusters and the host's memory. -/
def placesSeen (s : State) : Map SUnit × Nat × Map Cluster × List Host.Cell :=
  (s.sched.units, s.sched.preempts, s.boot.clusters, s.hif.hostMem)

section
variable (s : State)

@[simp] theorem evCount_placesSeen (p src n : Nat) : placesSeen (evCount p src n s) = placesSeen s := by simp [placesSeen]

@[simp] theorem charge_placesSeen (e : Nat) (c : Counters) : placesSeen (charge e c s) = placesSeen s := by
  obtain ⟨l, a, hcharge⟩ := charge_only e c s
  rw [hcharge]
  rfl

@[simp] theorem raiseVtime_placesSeen (prio a : Nat) : placesSeen (raiseVtime prio a s) = placesSeen s := by
  obtain ⟨l, hraise⟩ := raiseVtime_only s prio a
  rw [hraise]
  rfl

/-- Debt goes to the accounts of a unit and to what is counted of it (14 R537). -/
@[simp] theorem addDebt_placesSeen (u : SUnit) (d : Nat) : placesSeen (addDebt u d s) = placesSeen s :=
  (evCount_placesSeen _ _ _ _).trans (foldS_keeps placesSeen _ _ s fun _ _ => rfl)

theorem passCycles_placesSeen (n : Nat) : placesSeen (passCycles n s) = placesSeen s := by simp [placesSeen, passCycles_boot]

end

/-- A unit that has left its slots with its contexts saved, ready from an instant on. -/
def SUnit.left (saved : Map Ctx) (on_ : Option Nat) (at_ : Nat) (x : SUnit) : SUnit :=
  { x with slots := [], saved := saved, savedOn := on_, marked := none, readyTime := at_ }

/-- A slot whose context belongs to the unit that leaves it is empty (00 R776). -/
theorem freeSlots_empties {n : Nat} {p : Nat × Nat} {c : Ctx} {s : State} (hc : mget (clusterOf s p.1).slots p.2 = some c)
    (hown : c.unit = n) : mget (clusterOf (freeSlots n [p] s) p.1).slots p.2 = none := by
  simp only [freeSlots, foldS_cons, foldS_nil, noteFreed, modBoot, clusterOf, modCluster_boot, mgetD_mmod_same]
  simp only [clusterOf] at hc
  simp only [hc, hown, if_true, mget_merase]

/-- A unit in one slot that is saved keeps its one context; its slot is free, and the preemption is counted. -/
theorem saveUnit_effect {n : Nat} {p : Nat × Nat} {x : SUnit} {c : Ctx} {s : State} (hx : mget s.sched.units n = some x)
    (hp : x.slots = [p]) (hc : mget (clusterOf s p.1).slots p.2 = some c) :
    ∃ t, placesSeen t = placesSeen s ∧ placesSeen (saveUnit n true s) =
      (mupd s.sched.units n (SUnit.left [(0, c)] (some p.1) (now s)), s.sched.preempts + 1,
        (freeSlots n [p] t).boot.clusters, s.hif.hostMem) := by
  unfold saveUnit
  split
  next hnone => exact absurd (hx.symm.trans hnone) (Option.some_ne_none x)
  next y hsome =>
  obtain rfl : x = y := Option.some.inj (hx.symm.trans hsome)
  extract_lets ctxs saved debt s1 s2 s3 s4 s5
  obtain ⟨t, ht⟩ : ∃ t, t = whenS (debt != 0) (addDebt x debt) s := ⟨_, rfl⟩
  have hdebt : placesSeen t = placesSeen s := by
    rw [ht, whenS]
    split
    · exact addDebt_placesSeen s x debt
    · rfl
  have hsaved : saved = [(0, c)] := by simp [saved, ctxs, hp, hc, withPos]
  have h1 : placesSeen s1 = (s.sched.units, s.sched.preempts, (freeSlots n [p] t).boot.clusters, s.hif.hostMem) := by
    obtain ⟨b, hfree⟩ := freeSlots_only n [p] t
    obtain ⟨hunits, hpreempts, -, hmem⟩ : t.sched.units = s.sched.units ∧ t.sched.preempts = s.sched.preempts ∧
      t.boot.clusters = s.boot.clusters ∧ t.hif.hostMem = s.hif.hostMem := by simpa [placesSeen] using hdebt
    have hs1 : s1 = freeSlots n [p] t := by rw [ht, ← hp]
    rw [hs1, hfree, placesSeen, hunits, hpreempts, hmem]
  have h2 : placesSeen s2 = placesSeen s1 := foldS_keeps placesSeen _ _ _ fun v a => raiseVtime_placesSeen v _ a
  have h3 : placesSeen s3 = (mupd (placesSeen s2).1 n (SUnit.left saved ((x.slots.head?).map Prod.fst) (now s)), (placesSeen s2).2) := rfl
  have h5 : placesSeen s5 = placesSeen s3 :=
    (foldS_keeps placesSeen _ _ _ fun v q => evCount_placesSeen v _ _ _).trans
      ((evCount_placesSeen _ _ _ _).trans (foldS_keeps placesSeen _ _ _ fun v e => charge_placesSeen v e _))
  have h6 : placesSeen (modSched (fun d => { d with preempts := d.preempts + b2n true }) s5) =
      ((placesSeen s5).1, (placesSeen s5).2.1 + 1, (placesSeen s5).2.2) := rfl
  refine ⟨t, hdebt, ?_⟩
  rw [h6, h5, h3, h2, h1, hsaved, hp]
  rfl

section
variable {n ran e st : Nat} {p : Nat × Nat} {x : SUnit} {c : Ctx} {s : State}

/-- A stage's unit whose one context stands at a point within its watchdog's time decides there whether it leaves. -/
theorem exec_preemptPointReached_stage (hx : mget s.sched.units n = some x) (hp : x.slots = [p]) (hk : x.kind = .stage e st)
    (hc : mget (clusterOf s p.1).slots p.2 = some c) (hat : atPoint (mget s.obj.images x.image) c = true)
    (hw : c.watchdog + ran ≤ watchdogNs) : exec (.preemptPointReached n ran) s =
      .next (leaveSlot n ((x.ran ran).notePoint (now s)) (pointReached n ran x s)) := by
  have hctxs : unitCtxs s x = [c] := by simp [unitCtxs, hp, hc]
  have htrip : tripOf s x ran = none := by simp [tripOf, hp, hc, hw]
  rw [exec_preemptPointReached hx (by simp [hp]) (by simpa [hctxs] using hat) htrip, hk]

/-- A marked unit leaves with its context saved past the point; the one it was marked for is gone, and none takes the slot. -/
theorem preemptPointReached_leaves {w : Nat} {b : Bool} {u : State} (hx : mget s.sched.units n = some x) (hp : x.slots = [p])
    (hc : mget (clusterOf s p.1).slots p.2 = some c) (hown : c.unit = n) (hm : x.marked = some (w, b))
    (hgone : mget s.sched.units w = none)
    (hu : u = leaveSlot n ((x.ran ran).notePoint (now s)) (pointReached n ran x s)) :
    ∃ y, mget u.sched.units n = some y ∧ y.slots = [] ∧ y.marked = none ∧
      y.saved = [(0, passPoint (mget s.obj.images x.image) c)] ∧ mget (clusterOf u p.1).slots p.2 = none ∧
      u.sched.preempts = s.sched.preempts + 1 ∧ u.hif.hostMem = s.hif.hostMem := by
  have hunit := pointReached_unitBecomes (ran := ran) hx
  have hctx := (pointReached_ctxBecomes (ran := ran) hx hp hc).ctx
  obtain ⟨v, hv⟩ : ∃ v, v = pointReached n ran x s := ⟨_, rfl⟩
  rw [← hv] at hunit hctx hu
  have hpre : v.sched.preempts = s.sched.preempts ∧ v.hif.hostMem = s.hif.hostMem := by rw [hunit.only]; exact ⟨rfl, rfl⟩
  obtain ⟨t, ht, hsave⟩ := saveUnit_effect hunit.unit hp hctx
  have hwn : w ≠ n := by
    rintro rfl
    exact Option.some_ne_none x (hx.symm.trans hgone)
  have hsaved : mget (saveUnit n true v).sched.units w = none := by
    rw [show (saveUnit n true v).sched.units = _ from congrArg Prod.fst hsave, mget_mupd_other hwn, hunit.others w hwn, hgone]
  have hleave : leaveSlot n ((x.ran ran).notePoint (now s)) v = passCycles 1 (saveUnit n true v) := leaveSlot_leaves hm hsaved
  rw [hleave] at hu
  have hplaces := (congrArg placesSeen hu).trans ((passCycles_placesSeen _ _).trans hsave)
  obtain ⟨hunits, hpreempts, hclusters, hmem⟩ : u.sched.units = _ ∧ u.sched.preempts = _ ∧ u.boot.clusters = _ ∧ u.hif.hostMem = _ := by
    simpa only [placesSeen, Prod.mk.injEq] using hplaces
  have hslot : mget (clusterOf t p.1).slots p.2 = some (passPoint (mget s.obj.images x.image) c) := by
    have hsame : t.boot.clusters = v.boot.clusters := congrArg (fun q => q.2.2.1) ht
    rw [clusterOf_congr hsame, hctx]
  refine ⟨((x.ran ran).notePoint (now s)).left [(0, passPoint (mget s.obj.images x.image) c)] (some p.1) (now v), ?_, rfl, rfl, rfl,
    ?_, hpreempts.trans (by rw [hpre.1]), hmem.trans hpre.2⟩
  · rw [hunits, mget_mupd, if_pos rfl, hunit.unit, Option.map_some]
  · rw [clusterOf_congr hclusters]
    exact freeSlots_empties hslot ((passPoint_unit _ c).trans hown)

end

/-! ### A run past its last operation (10 R348) -/

/-- An entry for which no cancel waits. -/
def RtEntry.uncancelled (y : RtEntry) : RtEntry := { y with cancellers := [], cancelPending := false }

theorem lateCancels_of_none {e : Nat} {y : RtEntry} {s : State} (hy : mget s.gen.entries e = some y) (hc : y.cancellers = []) :
    mget (lateCancels e s).gen.entries e = some y.uncancelled := by
  have hy' : entryOf s e = some y := hy
  simp only [lateCancels, hy', hc, List.filter_nil, foldS_nil]
  rw [mget_modEntry_same _ hy]
  simp [RtEntry.uncancelled, cancelledBefore, hc]

theorem copyOutputs_gen (x : RtEntry) (c : Option Ctx) (s : State) : (copyOutputs x c s).gen = s.gen := by
  refine foldS_keeps (fun t => t.gen) _ _ s fun t o => ?_
  split
  · split
    · exact dmaWrite_gen ..
    · rfl
  · rfl

/-- A run with nothing dropped, no fault and no cancel that is past its last operation ends OK. -/
theorem runAtPoint_completes {e n : Nat} {u : SUnit} {y : RtEntry} {s : State} (hy : mget s.gen.entries e = some y)
    (hs : y.state ≠ .drain) (hc : y.cancellers = []) (hd : y.work.disabled = false) (hf : y.work.pendingFault = none)
    (hr : y.work.dropsRetired = 0) (hfull : y.work.dropsFull = 0) :
    ∃ z, mget (runAtPoint e n u true s).gen.entries e = some z ∧ Ended Status.ok 0 z := by
  have hy' : entryOf s e = some y := hy
  have hbefore : cancelledBefore s y = false := by simp [cancelledBefore, hc]
  have heq : runAtPoint e n u true s =
      endEntry e Status.ok 0 0 0 (copyOutputs y ((unitCtxs s u).head?) (lateCancels e s)) := by
    simp only [runAtPoint, hy', hbefore, hd, hf, hr, hfull, Nat.lt_irrefl, Bool.or_self, Bool.false_eq_true, if_false, if_true]
  have hlate : mget (copyOutputs y ((unitCtxs s u).head?) (lateCancels e s)).gen.entries e = some y.uncancelled := by
    rw [copyOutputs_gen, lateCancels_of_none hy hc]
  rw [heq]
  exact endEntry_ends Status.ok 0 0 0 hlate hs hd

/-! ### What an end leaves of the recorder -/

section
variable (s : State)

theorem chargeHeld_mgmt (e : Nat) (x : RtEntry) : (chargeHeld e x s).mgmt = s.mgmt := by
  unfold chargeHeld
  split
  · exact charge_mgmt ..
  · rfl

theorem endUnitsOf_mgmt (e : Nat) : (endUnitsOf e s).mgmt = s.mgmt := by
  refine foldS_keeps (fun t => t.mgmt) _ _ s fun t u => ?_
  have hend (v : State) : (endUnit u.1 v).mgmt = v.mgmt := by
    obtain ⟨l, b, -, h⟩ := endUnit_only u.1 v
    rw [h]
  rw [hend]
  split
  · exact foldS_keeps (fun t => t.mgmt) _ _ t fun v m => charge_mgmt ..
  · rfl

theorem killEntry_mgmt (e : Nat) : (killEntry e s).mgmt = s.mgmt := by
  unfold killEntry
  split <;> rfl

theorem completeEntry_mgmt (e result : Nat) : (completeEntry e result s).mgmt = s.mgmt := by
  unfold completeEntry
  split
  · rfl
  · dsimp only
    split
    · rfl
    · split <;> simp [modWork]

theorem sendUnpins_mgmt (e : Nat) : (sendUnpins e s).mgmt = s.mgmt := by
  unfold sendUnpins
  split
  · rfl
  · refine foldS_keeps (fun t => t.mgmt) _ _ s fun t p => ?_
    split
    · rw [modFab_mgmt, (sendReq_sendsOnly t _ _).only]
    · rfl

theorem returnEntry_mgmt (e : Nat) : (returnEntry e s).mgmt = s.mgmt := by
  obtain ⟨l, b, o, m, f, h⟩ := (returnEntry_returns e s).frame
  rw [h]

/-- The end of a request writes no record. -/
theorem endEntry_mgmt (e status detail stage result : Nat) : (endEntry e status detail stage result s).mgmt = s.mgmt := by
  unfold endEntry
  split
  · rfl
  · split
    · rfl
    · extract_lets fin held s1 s2 gen12 s3 s4 s5 s6
      have h4 : s4.mgmt = s.mgmt := by
        simp only [s4, s3, s2, endUnitsOf_mgmt, evCount_mgmt, modGen_mgmt, charge_mgmt, chargeHeld_mgmt, s1, modEntry_mgmt]
      have h6 : s6.mgmt = s.mgmt := by
        refine (foldS_keeps (fun t => t.mgmt) _ _ _ fun t q => complete_mgmt ..).trans ?_
        rw [modEntry_mgmt, sendUnpins_mgmt, completeEntry_mgmt, killEntry_mgmt, h4]
      split
      · exact h6
      · rw [returnEntry_mgmt, h6]

end

/-! ### WATCHDOG_EXPIRY (05 R184 to R186, 14 R539, R540) -/

section
variable {g slot : Nat} {c : Ctx} {x : SUnit} {s : State}

theorem exec_watchdogExpiry_stands (hc : mget (clusterOf s g).slots slot = some c) (hx : mget s.sched.units c.unit = some x)
    (hs : standing (mget s.obj.images x.image) slot (clusterOf s g) c = true) : exec (.watchdogExpiry g slot) s = .next s := by
  refine congrArg Host.Outcome.next ?_
  simp only [hc, hx, Option.bind_some, hs, if_true]

theorem exec_watchdogExpiry_trips (hc : mget (clusterOf s g).slots slot = some c) (hx : mget s.sched.units c.unit = some x)
    (hs : standing (mget s.obj.images x.image) slot (clusterOf s g) c = false) :
    exec (.watchdogExpiry g slot) s = .next (tearDown g slot 3 (runFor c.unit (watchdogNs - c.watchdog) s)) := by
  refine congrArg Host.Outcome.next ?_
  simp only [hc, hx, Option.bind_some, hs, Bool.false_eq_true, if_false]
  rfl

/-- A teardown of a stage's context faults the request that the stage serves. -/
theorem tearDown_stage {e st : Nat} (cause : Nat) (hc : mget (clusterOf s g).slots slot = some c)
    (hx : mget s.sched.units c.unit = some x) (hk : x.kind = .stage e st) :
    tearDown g slot cause s = endFault e cause st (tornDown g slot cause c x s) := by
  simp only [tearDown, tearDownFor, hc, hx, hk, List.isEmpty_nil, if_true]
  rfl

/-- A fault is charged to entries' counters alone: no request has come further (14 R543). -/
theorem tornDown_courses (cause : Nat) : courses (tornDown g slot cause c x s) = courses s := by
  have hcharged : courses (chargedFault x s) = courses s := foldS_keeps courses _ _ _ fun t e => charge_courses e _ t
  refine (entryViews_congr ?_).trans hcharged
  rw [tornDown, modCluster_gen, recordEvent_gen, evCount_gen, modSched_gen]

/-- A teardown writes a record, above every earlier one (19 R716). -/
theorem tornDown_lastSeq (cause : Nat) : s.mgmt.lastSeq < (tornDown g slot cause c x s).mgmt.lastSeq := by
  have hcharged : (chargedFault x s).mgmt = s.mgmt := foldS_keeps (fun t => t.mgmt) _ _ _ fun t e => charge_mgmt ..
  rw [tornDown, modCluster_mgmt]
  refine lt_of_eq_of_lt ?_ (recordEvent_lastSeq_lt ..)
  rw [evCount_mgmt, modSched_mgmt, hcharged]

/-- The request that a torn-down stage served ends FAULT with the cause as its detail, and the fault is recorded. -/
theorem tearDown_stage_faults {e st : Nat} {y : RtEntry} (cause : Nat) (hc : mget (clusterOf s g).slots slot = some c)
    (hx : mget s.sched.units c.unit = some x) (hk : x.kind = .stage e st) (hy : mget s.gen.entries e = some y)
    (hs : y.state ≠ .drain) (hcancel : y.cancelPending = false) (hd : y.work.disabled = false) :
    s.mgmt.lastSeq < (tearDown g slot cause s).mgmt.lastSeq ∧ ∃ z, mget (tearDown g slot cause s).gen.entries e = some z ∧
      Ended Status.fault st z ∧ z.work.detail = cause := by
  obtain ⟨t, ht⟩ : ∃ t, t = tornDown g slot cause c x s := ⟨_, rfl⟩
  have hcourses : courses t = courses s := by rw [ht, tornDown_courses]
  have hseq : s.mgmt.lastSeq < t.mgmt.lastSeq := by rw [ht]; exact tornDown_lastSeq cause
  obtain ⟨v, hv, hsame⟩ := exists_sameCourse hcourses hy
  have hv' : entryOf t e = some v := hv
  have hstate : v.state ≠ .drain := by rw [hsame.state]; exact hs
  have hdis : v.work.disabled = false := hsame.disabled.trans hd
  have heq : tearDown g slot cause s = endEntry e Status.fault cause st 0 t := by
    rw [tearDown_stage cause hc hx hk, ← ht]
    simp only [endFault, hv', hsame.cancelPending, hcancel, Bool.false_eq_true, if_false]
  obtain ⟨z, hz, hended⟩ := endEntry_ends Status.fault cause st 0 hv hstate hdis
  obtain ⟨z', at_, held, hz', hcourse⟩ := endEntry_course Status.fault cause st 0 hv hstate hdis
  obtain rfl : z = z' := Option.some.inj (hz.symm.trans hz')
  rw [heq, endEntry_mgmt]
  exact ⟨hseq, z, hz, hended, hcourse.detail⟩

end

/-- Settles O28: own time moves a unit, its accounts and its contexts' watchdogs; a point then decides whether the unit leaves or its run
ends, and a watchdog that expires elsewhere tears its context down. -/
theorem slicesAndTheWatchdog : Obligations.slices_and_the_watchdog := by
  unfold Obligations.slices_and_the_watchdog
  refine ⟨?_, ?_, ?_, ?_, ?_, ?_, ?_⟩
  · intro n x s hx hs he hle hw
    obtain ⟨hunit, hothers, honly⟩ := sliceEnd_unitBecomes hx hle
    exact ⟨_, exec_sliceEnd_ends hx hs he hw, hunit, hothers, honly⟩
  · exact fun n x s hx hw => exec_sliceEnd_waits hx hw
  · intro n ran e st p x c s hx hp hk hc hat hm hd hw
    obtain ⟨hunit, -, honly⟩ := pointReached_unitBecomes (ran := ran) hx
    obtain ⟨hctx, hothers⟩ := pointReached_ctxBecomes (ran := ran) hx hp hc
    have hstays : leaveSlot n ((x.ran ran).notePoint (now s)) (pointReached n ran x s) = pointReached n ran x s := by
      refine leaveSlot_stays hm fun q hq => ?_
      obtain rfl : q = p := by simpa [SUnit.notePoint, SUnit.ran, hp] using hq
      rw [pointReached_drain hx, hd]
    refine ⟨_, _, (exec_preemptPointReached_stage hx hp hk hc hat hw).trans (congrArg _ hstays), hunit, hp, rfl, hctx, hothers, ?_⟩
    rw [honly]
  · intro n ran e st w b p x c s hx hp hk hc hown hat hm hgone hw
    obtain ⟨y, hy⟩ := preemptPointReached_leaves (ran := ran) hx hp hc hown hm hgone rfl
    exact ⟨_, y, exec_preemptPointReached_stage hx hp hk hc hat hw, hy⟩
  · intro n ran e x y s hx hs hk hdone hat hy hstate hc hd hf hr hfull htrip
    have hy' : mget (pointReached n ran x s).gen.entries e = some y := by rw [(pointReached_unitBecomes hx).only, hy]
    obtain ⟨z, hz, hended⟩ := runAtPoint_completes (n := n) (u := (x.ran ran).notePoint (now s)) hy' hstate hc hd hf hr hfull
    refine ⟨_, z, ?_, hz, hended.state, hended.finish, hended.completed⟩
    rw [exec_preemptPointReached hx hs hat htrip, hk, hdone]
  · intro g slot e st c x y s hc hx hk hy hs hcancel hd hstands
    obtain ⟨hunit, -, honly⟩ := runFor_unitBecomes hx (watchdogNs - c.watchdog)
    obtain ⟨d, hslot, hown⟩ := modCtxs_owner (u := x) (f := Ctx.ran (watchdogNs - c.watchdog)) (fun _ => rfl)
      (s := modUnit c.unit (SUnit.ran (watchdogNs - c.watchdog)) s) hc
    obtain ⟨v, hv⟩ : ∃ v, v = runFor c.unit (watchdogNs - c.watchdog) s := ⟨_, rfl⟩
    rw [← clusterOf_congr (congrArg Boot.clusters (runFor_boot hx _)), ← hv] at hslot
    rw [← hv, ← hown] at hunit
    have hsame : v.mgmt = s.mgmt ∧ v.sched.faults = s.sched.faults ∧ v.gen = s.gen := by rw [hv, honly]; exact ⟨rfl, rfl, rfl⟩
    obtain ⟨hmgmt, hfaults, hgen⟩ := hsame
    obtain ⟨hempty, -, -, hcounted⟩ := tearDown_effect 3 hslot hunit
    obtain ⟨hrecorded, z, hz, hended, hdetail⟩ := tearDown_stage_faults 3 hslot hunit hk (by rw [hgen, hy]) hs hcancel hd
    refine ⟨_, z, exec_watchdogExpiry_trips hc hx hstands, ?_⟩
    rw [← hv, ← hfaults, ← hmgmt]
    exact ⟨hempty, hcounted, hrecorded, hz, hended.state, hended.finish, hdetail, hended.endStage⟩
  · exact fun g slot c x s hc hx hstands => exec_watchdogExpiry_stands hc hx hstands

end Sys2Proof.Machine
end

section
/-! PROOFS. Heats: what a heat leaves where nothing waits for a deadline, and what placing a unit makes of it and of the clusters it is
placed on (14 R527, R531, R535; 02 R51). -/

namespace Sys2Proof.Machine

/-! ### Requests without a deadline -/

section
variable {s : State} (hno : ∀ e, e ∈ s.gen.entries → e.2.deadline = 0)
include hno

theorem entryOf_no_deadline {e : Nat} {x : RtEntry} (hx : entryOf s e = some x) : x.deadline = 0 := hno _ (mem_of_mget hx)

theorem expire_of_no_deadline (es : List Nat) : expire es s = s := by
  refine foldS_id fun e _ => ?_
  split
  next x hx => exact if_neg fun h => h.1 (entryOf_no_deadline hno hx)
  next => rfl

theorem expireInput_of_no_deadline : expireInput s = s := by
  refine foldS_id fun e _ => ?_
  split
  next x hx => exact if_neg fun ⟨_, _, _, _, h, _⟩ => h (entryOf_no_deadline hno hx)
  next => rfl

end

/-! ### What a heat does for its units (14 R527, R536, R538) -/

/-- The instant of the next heat. -/
def nextHeat (s : State) : Nat := 100000 * (now s / 100000 + 1)

/-- A heat that is counted. -/
def heatCounted (s : State) : State := evCount 2 1 1 (modSched (fun d => { d with heats := d.heats + 1 }) s)

/-- The units that a heat finds without slots, in their order. -/
def heatReady (s : State) : List Nat := (sortBy (heatBefore s) (s.sched.units.filter fun u => u.2.slots.isEmpty)).map Prod.fst

/-- What a heat does for its units: the ready ones have their turns, marked ones at their points leave, and slices are renewed. -/
def heatTurns (s : State) : State := renewSlices (leaveMarked (foldS (heatReady s) heatOne s))

theorem exec_heat_eq (s : State) : exec .heat s = .next (heatCounted (heatTurns (expireInput
    (expire ((advanceTo (nextHeat s) s).gen.entries.map Prod.fst) (advanceTo (nextHeat s) s))))) := rfl

theorem exec_heat {s : State} (hno : ∀ e, e ∈ s.gen.entries → e.2.deadline = 0) :
    exec .heat s = .next (heatCounted (heatTurns (advanceTo (nextHeat s) s))) := by
  have hno' : ∀ e, e ∈ (advanceTo (nextHeat s) s).gen.entries → e.2.deadline = 0 := by rw [advanceTo_gen]; exact hno
  rw [exec_heat_eq, expire_of_no_deadline hno', expireInput_of_no_deadline hno']

/-- None leaves where no resident unit is marked. -/
theorem leaveMarked_of_none {s : State} (h : ∀ x, x ∈ s.sched.units → x.2.marked = none ∨ x.2.slots = []) : leaveMarked s = s := by
  refine foldS_id fun n _ => ?_
  split
  next u hu =>
    have hstays : (u.marked.isSome && !u.slots.isEmpty) = false := by
      rcases h _ (mem_of_mget hu) with hm | hs
      · rw [show u.marked = none from hm, Option.isSome_none, Bool.false_and]
      · rw [show u.slots = [] from hs, List.isEmpty_nil, Bool.not_true, Bool.and_false]
    exact if_neg (by rw [hstays, Bool.false_and]; exact Bool.false_ne_true)
  next => rfl

/-- No slice is renewed where none has ended. -/
theorem renewSlices_of_none {s : State} (h : ∀ x, x ∈ s.sched.units → x.2.sliceEnded = none) : renewSlices s = s := by
  refine foldS_id fun n _ => ?_
  split
  next u hu => rw [h _ (mem_of_mget hu)]
  next => rfl

theorem heatOne_held {s : State} (hh : s.sched.hold = true) (n : Nat) : heatOne s n = s := by
  unfold heatOne
  split
  · rfl
  · exact if_pos (by rw [hh, Bool.or_true])

/-- A heat at which no unit is placed, marked, left or renewed is counted, and time has reached it. -/
theorem heat_idle {s u : State} (hu : u = heatCounted (advanceTo (nextHeat s) s)) :
    u.sched = { s.sched with heats := s.sched.heats + 1 } ∧ u.boot.cycles = max s.boot.cycles (cycleOfNs (nextHeat s)) ∧
      u = { s with sched := u.sched, boot := u.boot, hif := u.hif, regs := u.regs } := by
  subst hu
  refine ⟨by simp [heatCounted], by simp [heatCounted, advanceTo_boot], ?_⟩
  apply state_ext <;> simp [heatCounted]

/-! ### Slices (14 R534, R535) -/

/-- What an account's slices depend on: its slice length and its debt. -/
def sliceTerms (s : State) : (Nat → Nat) × (Nat → Nat) × Nat := (acctSlice s, acctDebt s, s.sched.defaultSlice)

theorem sliceOf_congr {s t : State} {u v : SUnit} (h : sliceTerms t = sliceTerms s) (hm : v.members = u.members) :
    sliceOf t v = sliceOf s u := by
  obtain ⟨hslice, hdebt, hdefault⟩ : acctSlice t = acctSlice s ∧ acctDebt t = acctDebt s ∧ t.sched.defaultSlice = s.sched.defaultSlice := by
    simpa [sliceTerms] using h
  have hset : v.acctSet = u.acctSet := by simp only [SUnit.acctSet, SUnit.accounts, hm]
  simp only [sliceOf, hslice, hdebt, hdefault, hset]

/-- A change of an account that leaves its record and its debt leaves what slices depend on. -/
theorem modAccount_sliceTerms {k : Nat} {f : Account → Account} (hr : ∀ x, (f x).record = x.record)
    (hd : ∀ x, (f x).debtNs = x.debtNs) (s : State) : sliceTerms (modAccount k f s) = sliceTerms s := by
  simp only [sliceTerms, Prod.mk.injEq]
  refine ⟨funext fun a => ?_, funext fun a => ?_, rfl⟩
  · rcases eq_or_ne a k with rfl | ha
    · cases h : mget s.sched.accounts a <;> simp [acctSlice, mget_mupd, h, hr]
    · simp only [acctSlice, modAccount_sched, mget_mupd_other ha]
  · rcases eq_or_ne a k with rfl | ha
    · cases h : mget s.sched.accounts a <;> simp [acctDebt, mget_mupd, h, hd]
    · simp only [acctDebt, modAccount_sched, mget_mupd_other ha]

theorem sliceTerms_congr {s t : State} (ha : t.sched.accounts = s.sched.accounts) (hd : t.sched.defaultSlice = s.sched.defaultSlice) :
    sliceTerms t = sliceTerms s := by
  simp only [sliceTerms, Prod.mk.injEq]
  exact ⟨funext fun a => by simp only [acctSlice, ha, hd], funext fun a => by simp only [acctDebt, ha], hd⟩

/-- Charges leave what slices depend on (14 R543). -/
theorem charge_sliceTerms (e : Nat) (c : Counters) (s : State) : sliceTerms (charge e c s) = sliceTerms s := by
  unfold charge
  split
  · rfl
  · exact modAccount_sliceTerms (f := fun x => { x with ctr := x.ctr.add c }) (fun _ => rfl) (fun _ => rfl) _

/-- A slice granted from an own time on: its end, and whether the unit has already run past it (14 R535). -/
def SUnit.granted (start len : Nat) (x : SUnit) : SUnit :=
  { x with sliceEnd := start + len, sliceEnded := if start + len < x.ownNs then some (start + len) else none }

theorem grantSlice_only {n : Nat} {u : SUnit} {s : State} (start : Nat) (hu : mget s.sched.units n = some u) :
    ∃ a, grantSlice n start s = { s with sched := { s.sched with
      units := mupd s.sched.units n (SUnit.granted start (sliceOf s u).1), accounts := a } } := by
  unfold grantSlice
  rw [hu]
  refine foldS_inv (fun t => ∃ a, t = { s with sched := { s.sched with
    units := mupd s.sched.units n (SUnit.granted start (sliceOf s u).1), accounts := a } }) _ _ _ ?_ ⟨_, rfl⟩
  rintro t a ⟨l, rfl⟩
  exact ⟨_, rfl⟩

/-! ### Placement (14 R527, R531; 02 R51) -/

theorem wakeCluster_sched (g : Nat) (s : State) : (wakeCluster g s).sched = s.sched := by
  unfold wakeCluster
  split <;> simp

theorem wakeCluster_awake (g : Nat) (s : State) : (clusterOf (wakeCluster g s) g).awake = true := by
  unfold wakeCluster
  split
  next h => exact h
  next => rw [clusterOf_evCount, clusterOf_evCount, clusterOf_modCluster_same]

theorem wakeCluster_keeps_awake {g j : Nat} {s : State} (h : (clusterOf s j).awake = true) :
    (clusterOf (wakeCluster g s) j).awake = true := by
  unfold wakeCluster
  split
  · exact h
  · rw [clusterOf_evCount, clusterOf_evCount]
    by_cases hj : j = g
    · rw [hj, clusterOf_modCluster_same]
    · rw [clusterOf_modCluster_other hj, h]

theorem touchWeights_awake (unit share : Nat) (rs : List (Nat × Nat)) (k : Cluster) :
    (touchWeights unit share rs k).awake = k.awake := by
  unfold touchWeights
  split
  · split <;> rfl
  · rfl

/-- A context has taken a slot of a cluster, which is awake from then on; the rest of its unit's share may be stale (05 R179). -/
def slotFilled (n share live : Nat) (p : Nat × Nat) (c : Ctx) (s : State) : State :=
  modCluster p.1 (fun k => touchWeights n share [(0, live)] { k with slots := mset k.slots p.2 c }) (wakeCluster p.1 s)

section
variable (n share live : Nat) (p : Nat × Nat) (c : Ctx) (s : State)

theorem slotFilled_awake : (clusterOf (slotFilled n share live p c s) p.1).awake = true := by
  rw [slotFilled, clusterOf_modCluster_same, touchWeights_awake]
  exact wakeCluster_awake _ _

theorem slotFilled_keeps_awake {j : Nat} (h : (clusterOf s j).awake = true) :
    (clusterOf (slotFilled n share live p c s) j).awake = true := by
  by_cases hj : j = p.1
  · rw [hj, slotFilled_awake]
  · rw [slotFilled, clusterOf_modCluster_other hj, wakeCluster_keeps_awake h]

end

/-- Filling slots fills the first, which leaves the scheduler, and goes on; a restored context draws a free value and is counted. -/
theorem fillSlots_cons (n : Nat) (u : SUnit) (i : Nat) (p : Nat × Nat) (ps : List (Nat × Nat)) (s : State) :
    ∃ live c t, fillSlots n u i (p :: ps) s = fillSlots n u (i + 1) ps t ∧ t.sched = s.sched ∧
      t.boot = (slotFilled n i live p c s).boot := by
  obtain ⟨live, c, heq⟩ : ∃ live c, fillSlots n u i (p :: ps) s = fillSlots n u (i + 1) ps
    (if (mget u.saved i).isSome then evCount (64 + p.1) 7 1 { slotFilled n i live p c s with free := (slotFilled n i live p c s).free + 1 }
      else slotFilled n i live p c s) := ⟨_, _, rfl⟩
  have hsched : (slotFilled n i live p c s).sched = s.sched := (modCluster_sched ..).trans (wakeCluster_sched _ _)
  refine ⟨live, c, _, heq, ?_, ?_⟩
  · split
    · rw [evCount_sched, hsched]
    · exact hsched
  · split
    · rw [evCount_boot]
    · rfl

/-- Filling slots leaves the scheduler, keeps awake what was awake, and wakes every cluster it fills a slot of. -/
theorem fillSlots_effect (n : Nat) (u : SUnit) (i : Nat) (l : List (Nat × Nat)) (s : State) :
    (fillSlots n u i l s).sched = s.sched ∧ (∀ j, (clusterOf s j).awake = true → (clusterOf (fillSlots n u i l s) j).awake = true) ∧
      ∀ p, p ∈ l → (clusterOf (fillSlots n u i l s) p.1).awake = true := by
  induction l generalizing i s with
  | nil => exact ⟨rfl, fun _ h => h, by simp⟩
  | cons p ps ih =>
    obtain ⟨live, c, t, heq, hsched, hboot⟩ := fillSlots_cons n u i p ps s
    have hcluster := clusterOf_congr (congrArg Boot.clusters hboot)
    have hawake : (clusterOf t p.1).awake = true := by rw [hcluster, slotFilled_awake]
    have hkeeps {j : Nat} (hj : (clusterOf s j).awake = true) : (clusterOf t j).awake = true := by
      rw [hcluster, slotFilled_keeps_awake _ _ _ _ _ _ hj]
    obtain ⟨ihsched, ihkeeps, ihwakes⟩ := ih (i + 1) t
    rw [heq]
    refine ⟨ihsched.trans hsched, fun j hj => ihkeeps j (hkeeps hj), fun q hq => ?_⟩
    rcases List.mem_cons.mp hq with rfl | hq
    · exact ihkeeps _ hawake
    · exact ihwakes q hq

/-- A unit placed on slots. -/
def SUnit.placed (slots : List (Nat × Nat)) (x : SUnit) : SUnit :=
  { x with slots := slots, saved := [], savedOn := none, marked := none, sliceEnded := none, pointAt := none }

/-- A placed unit is in its slots with a slice from its own time on; each cluster it is placed on is awake. -/
theorem placeUnit_effect {n : Nat} {x : SUnit} {s : State} (l : List (Nat × Nat)) (hx : mget s.sched.units n = some x) :
    (∃ a, (placeUnit n l s).sched = { s.sched with
      units := mupd (mupd s.sched.units n (SUnit.placed l)) n (SUnit.granted x.ownNs (sliceOf s x).1), accounts := a }) ∧
    ∀ p, p ∈ l → (clusterOf (placeUnit n l s) p.1).awake = true := by
  unfold placeUnit
  split
  next hnone => exact absurd (hx.symm.trans hnone) (Option.some_ne_none x)
  next y hsome =>
  obtain rfl : x = y := Option.some.inj (hx.symm.trans hsome)
  extract_lets s1 s2 s3
  obtain ⟨t, ht⟩ : ∃ t, t = chargeWait x (now s - x.readyTime) s := ⟨_, rfl⟩
  obtain ⟨a, hcharged⟩ : ∃ a, t.sched = { s.sched with accounts := a } := by
    rw [ht]
    refine foldS_inv (fun t => ∃ a, t.sched = { s.sched with accounts := a }) _ _ _ ?_ ⟨_, rfl⟩
    rintro t m ⟨a, h⟩
    obtain ⟨l, b, hc⟩ := charge_only m.1 { waitNs := now s - x.readyTime } t
    exact ⟨b, by rw [hc, h]⟩
  have hterms : sliceTerms t = sliceTerms s := by
    rw [ht]
    exact foldS_keeps sliceTerms _ _ _ fun t m => charge_sliceTerms _ _ t
  have hs1 : s1 = fillSlots n x 0 l t := by rw [ht]
  obtain ⟨hfilled, -, hawake⟩ := fillSlots_effect n x 0 l t
  rw [← hs1] at hfilled hawake
  have h3 : s3.sched = s2.sched ∧ s3.boot = s2.boot := by
    simp only [s3]
    split <;> simp
  have h2 : s2.sched = { s.sched with units := mupd s.sched.units n (SUnit.placed l), accounts := a } := by
    have hmod : s2.sched = { s1.sched with units := mupd s1.sched.units n (SUnit.placed l) } := rfl
    rw [hmod, hfilled, hcharged]
  have hunit : mget s3.sched.units n = some (x.placed l) := by
    rw [h3.1, h2, mget_mupd, if_pos rfl, hx, Option.map_some]
  have hslice : sliceOf s3 (x.placed l) = sliceOf s x := by
    refine sliceOf_congr ((sliceTerms_congr (s := t) ?_ ?_).trans hterms) rfl
    · rw [h3.1, h2, hcharged]
    · rw [h3.1, h2, hcharged]
  obtain ⟨b, hgrant⟩ := grantSlice_only x.ownNs hunit
  rw [hgrant, hslice]
  refine ⟨⟨b, ?_⟩, fun p hp => ?_⟩
  · dsimp only
    rw [h3.1, h2]
  · have hclusters : clusterOf s3 = clusterOf s1 := clusterOf_congr (congrArg Boot.clusters h3.2)
    exact (congrArg Cluster.awake (congrFun hclusters p.1)).trans (hawake p hp)

theorem mupd_singleton {α : Type} (n : Nat) (x : α) (f : α → α) : mupd [(n, x)] n f = [(n, f x)] := by
  simp [mupd, mget, mset, merase, mput]

/-- A unit that finds its slots at its turn is placed on them. -/
theorem heatOne_places {n : Nat} {x : SUnit} {l : List (Nat × Nat)} {s : State} (hx : mget s.sched.units n = some x)
    (hs : x.slots = []) (hh : s.sched.hold = false) (hl : bestSlots s n x = some l) : heatOne s n = placeUnit n l s := by
  have htry : tryPlace [] n s = some (placeUnit n l s) := by
    have hl' : slotsFrom [] s n x = some l := hl
    simp only [tryPlace, hx, hs, hh, hl', List.isEmpty_nil, Bool.not_true, Bool.or_self, Bool.false_eq_true, if_false, Option.map_some]
  simp only [heatOne, hx, hs, hh, htry, List.isEmpty_nil, Bool.not_true, Bool.or_self, Bool.false_eq_true, if_false]

/-- The only unit, ready as it is, has its turn; placed with a fresh slice, it neither leaves nor is its slice renewed. -/
theorem heatTurns_places {n : Nat} {x : SUnit} {l : List (Nat × Nat)} {s : State} (hx : s.sched.units = [(n, x)]) (hs : x.slots = [])
    (hh : s.sched.hold = false) (hl : bestSlots s n x = some l) :
    heatTurns s = placeUnit n l s ∧
      (placeUnit n l s).sched.units = [(n, (x.placed l).granted x.ownNs (sliceOf s x).1)] := by
  have hget : mget s.sched.units n = some x := by simp [hx, mget]
  have hready : heatReady s = [n] := by simp [heatReady, hx, hs, sortBy, insertBy]
  obtain ⟨⟨a, hsched⟩, -⟩ := placeUnit_effect l hget
  have hunits : (placeUnit n l s).sched.units = [(n, (x.placed l).granted x.ownNs (sliceOf s x).1)] := by
    rw [hsched, hx, mupd_singleton, mupd_singleton]
  refine ⟨?_, hunits⟩
  rw [heatTurns, hready, foldS_cons, foldS_nil, heatOne_places hget hs hh hl, leaveMarked_of_none, renewSlices_of_none]
  · intro y hy
    rw [hunits, List.mem_singleton] at hy
    rw [hy]
    exact if_neg (Nat.not_lt.mpr (Nat.le_add_right _ _))
  · intro y hy
    rw [hunits, List.mem_singleton] at hy
    rw [hy]
    exact .inl rfl

theorem heatTurns_held {s : State} (hh : s.sched.hold = true) (hs : ∀ x, x ∈ s.sched.units → x.2.slots = [])
    (he : ∀ x, x ∈ s.sched.units → x.2.sliceEnded = none) : heatTurns s = s := by
  rw [heatTurns, foldS_id fun n _ => heatOne_held hh n, leaveMarked_of_none fun x hx => .inr (hs x hx), renewSlices_of_none he]

theorem heatTurns_no_units {s : State} (h : s.sched.units = []) : heatTurns s = s := by
  have hready : heatReady s = [] := by simp [heatReady, h, sortBy]
  rw [heatTurns, hready, foldS_nil, leaveMarked_of_none (by simp [h]), renewSlices_of_none (by simp [h])]

/-- Settles O27: with no deadline about, a heat is its units' turns between the passing of time and its count; the turn of a unit alone
in the queue places it. -/
theorem heatsPlaceUnits : Obligations.heats_place_units := by
  unfold Obligations.heats_place_units
  refine ⟨?_, ?_, ?_⟩
  · intro s hno hunits
    refine ⟨_, (exec_heat hno).trans (congrArg (fun t => Host.Outcome.next (heatCounted t)) (heatTurns_no_units ?_)), heat_idle rfl⟩
    rw [advanceTo_sched, hunits]
  · intro n x l s hno hunits hs hh hl
    obtain ⟨t, ht⟩ : ∃ t, t = advanceTo (nextHeat s) s := ⟨_, rfl⟩
    have hsched : t.sched = s.sched := by rw [ht, advanceTo_sched]
    have hl' : bestSlots t n x = some l := by rw [ht]; exact hl
    have hx : t.sched.units = [(n, x)] := by rw [hsched, hunits]
    obtain ⟨hturns, hplaced⟩ := heatTurns_places hx hs (by rw [hsched, hh]) hl'
    obtain ⟨⟨a, hframe⟩, hawake⟩ := placeUnit_effect (n := n) (x := x) (s := t) l (by simp [hx, mget])
    have hslice : sliceOf t x = sliceOf s x :=
      sliceOf_congr (sliceTerms_congr (congrArg Sched.accounts hsched) (congrArg Sched.defaultSlice hsched)) rfl
    refine ⟨heatCounted (placeUnit n l t), (x.placed l).granted x.ownNs (sliceOf s x).1, ?_, ?_, rfl, rfl, rfl, rfl, ?_, ?_⟩
    · rw [exec_heat hno, ← ht, hturns]
    · simp [heatCounted, hplaced, hslice, mget]
    · intro p hp
      rw [heatCounted, clusterOf_evCount]
      exact hawake p hp
    · simp [heatCounted, hframe, hsched]
  · intro s hno hh hs he
    refine ⟨_, (exec_heat hno).trans (congrArg (fun t => Host.Outcome.next (heatCounted t)) (heatTurns_held ?_ ?_ ?_)), (heat_idle rfl).1⟩
    · rw [advanceTo_sched, hh]
    · rw [advanceTo_sched]; exact hs
    · rw [advanceTo_sched]; exact he

end Sys2Proof.Machine
end

section
/-! PROOFS. Functions being disabled: what the standing of each function and the fetched commands of each queue pair are after a disable
is accepted and after it completes (14 R541; 15 R553, R560). -/

namespace Sys2Proof.Machine

/-! ### What is seen of functions and queue pairs -/

/-- Whether a function is enabled, since when it is being disabled, and whether it is in D3hot. -/
def Fn.standing (x : Fn) : Bool × Option Nat × Bool := (x.enabled, x.disabling, x.d3hot)

/-- The standing of each function, and the commands fetched and not yet run of each queue pair. -/
def disableView (s : State) : (Nat → Bool × Option Nat × Bool) × (Nat → List Fetched) :=
  (fun n => (fnOf s n).standing, fun q => (qpOf s q).fetched)

theorem disableView_congr {s u : State} (hf : u.hif.fns = s.hif.fns) (hq : u.hif.qps = s.hif.qps) :
    disableView u = disableView s := by simp only [disableView, fnOf, qpOf, hf, hq]

theorem fnOf_modFn (k n : Nat) (f : Fn → Fn) (s : State) : fnOf (modFn k f s) n = if n = k then f (fnOf s k) else fnOf s n := by
  simp only [fnOf, modFn_hif, mmod, mgetD_mset]

theorem qpOf_modQp (k n : Nat) (f : Qp → Qp) (s : State) : qpOf (modQp k f s) n = if n = k then f (qpOf s k) else qpOf s n := by
  simp only [qpOf, modQp_hif, mmod, mgetD_mset]

theorem modFn_disableView {k : Nat} {f : Fn → Fn} (hf : ∀ x, (f x).standing = x.standing) (s : State) :
    disableView (modFn k f s) = disableView s := by
  refine Prod.ext (funext fun n => ?_) rfl
  show (fnOf (modFn k f s) n).standing = (fnOf s n).standing
  rw [fnOf_modFn]
  split
  next h => rw [hf, h]
  next => rfl

theorem modQp_disableView {k : Nat} {f : Qp → Qp} (hf : ∀ x, (f x).fetched = x.fetched) (s : State) :
    disableView (modQp k f s) = disableView s := by
  refine Prod.ext rfl (funext fun n => ?_)
  show (qpOf (modQp k f s) n).fetched = (qpOf s n).fetched
  rw [qpOf_modQp]
  split
  next h => rw [hf, h]
  next => rfl

/-! ### Messages, events and completions leave it -/

section
variable (s : State)

theorem sendMsix_disableView (f v : Nat) : disableView (sendMsix f v s) = disableView s := by
  unfold sendMsix
  dsimp only
  split
  · split
    · rfl
    · exact modFn_disableView (fun _ => by rfl) s
  · rfl

theorem irqEval_disableView (again : Bool) (p : Nat) : disableView (irqEval again p s) = disableView s := by
  unfold irqEval
  split
  · rfl
  · dsimp only
    split
    · exact sendMsix_disableView _ _ _
    · rfl

theorem evCount_disableView (p src n : Nat) : disableView (evCount p src n s) = disableView s := by
  unfold evCount
  split
  · rfl
  · split
    · rfl
    · exact irqEval_disableView _ _ _

theorem qpEvent_disableView (q : Nat) : disableView (qpEvent q s) = disableView s := by
  unfold qpEvent
  dsimp only
  split
  · exact (evCount_disableView _ _ _ _).trans ((sendMsix_disableView _ _ _).trans (modQp_disableView (fun _ => by rfl) s))
  · exact modQp_disableView (fun _ => by rfl) s

theorem complete_disableView (q : Nat) (c : Cpl) : disableView (complete q c s) = disableView s := by
  unfold complete
  dsimp only
  split
  · rw [evCount_disableView, qpEvent_disableView, modQp_disableView fun _ => by rfl]
    exact evCount_disableView _ _ _ _
  · exact modQp_disableView (fun _ => by rfl) s

/-! ### Hub writes and aborted sessions leave it -/

theorem programUnit_disableView (r : Bool) (part ch key : Nat) : disableView (programUnit r part ch key s) = disableView s := by
  unfold programUnit
  split
  · rfl
  · split
    · exact evCount_disableView _ _ _ _
    · dsimp only
      split
      · exact evCount_disableView _ _ _ _
      · rfl

theorem acceptWrites_disableView (l : List UnitWrite) : disableView (acceptWrites l s) = disableView s := by
  refine foldS_keeps disableView _ _ s fun t w => ?_
  refine (programUnit_disableView _ _ _ _ _).trans ?_
  show disableView (unmapUnit w.key (if w.whole || !unitMapped t w.key then t else countReads 1 t)) = disableView t
  split
  · rfl
  · exact evCount_disableView _ _ _ _

theorem abortSession_disableView (id status : Nat) (written : Bool) :
    disableView (abortSession id status written s) = disableView s := by
  have hwrite (f : Collection → Collection) : disableView (writeColl id f s) = disableView s := by
    unfold writeColl
    split
    · exact acceptWrites_disableView _ _
    · rfl
  have hlog (l : List UnitWrite) (t : State) : disableView (whenS written (acceptWrites l) t) = disableView t := by
    unfold whenS
    split
    · exact acceptWrites_disableView _ _
    · rfl
  unfold abortSession
  split
  · rfl
  · split
    · rfl
    · dsimp only
      split
      · rw [complete_disableView, hlog, hwrite]
      · rw [hlog, hwrite]

end

/-! ### A disable is accepted (14 R541 steps 1 to 5) -/

/-- A function being disabled since an instant. -/
def Fn.disabledSince (at_ : Nat) (x : Fn) : Fn := { x with disabling := some at_ }

/-- The fetched commands of a function's queue pairs are dropped. -/
def dropCommands (qs : List Nat) (s : State) : State :=
  foldS qs (fun t q => modQp q (fun x => { x with fetched := [], reserved := x.reserved - x.fetched.length }) t) s

theorem fnOf_dropCommands (qs : List Nat) (s : State) : fnOf (dropCommands qs s) = fnOf s :=
  foldS_keeps fnOf _ _ s fun _ _ => rfl

theorem fetched_dropCommands (qs : List Nat) (s : State) : ∀ q ∈ qs, (qpOf (dropCommands qs s) q).fetched = [] := by
  refine foldS_forall (P := fun q t => (qpOf t q).fetched = []) (fun t q => ?_) (fun t q j hj => ?_) qs s
  · rw [qpOf_modQp, if_pos rfl]
  · rw [qpOf_modQp]
    split
    · rfl
    · exact hj

section
variable {f : Nat} {s : State}

/-- Of a function with no entry, the end of its sessions and batons touches neither a function's standing nor what is fetched, and
leaves the entries. -/
theorem acceptDisable_effect (hd : (fnOf s f).disabling = none) (he : ∀ e, e ∈ s.gen.entries → e.2.fn ≠ f) :
    disableView (acceptDisable f s) = disableView (dropCommands (qpsOf s f) (modFn f (Fn.disabledSince (now s)) s)) ∧
      (acceptDisable f s).gen.entries = s.gen.entries := by
  have hnone : (s.gen.entries.filter fun e => e.2.fn == f) = [] := List.filter_eq_nil_iff.mpr fun e h => by simpa using he e h
  unfold acceptDisable
  rw [if_neg (by rw [hd]; exact Bool.false_ne_true)]
  extract_lets qs s1 s2 s3 s4 s5
  have h2 : s2 = dropCommands (qpsOf s f) (modFn f (Fn.disabledSince (now s)) s) := rfl
  have hentries : s3.gen.entries = s.gen.entries := congrArg Gen.entries (foldS_keeps (fun t => t.gen) _ _ s1 fun _ _ => rfl)
  have h4 : s4 = s3 := by
    simp only [s4, hnone, List.map_nil, foldS_nil]
  have h5 : disableView s5 = disableView s2 ∧ s5.gen.entries = s.gen.entries := by
    refine ⟨(foldS_keeps disableView _ _ s4 fun t c => abortSession_disableView t c _ _).trans ?_,
      (congrArg Gen.entries (foldS_keeps (fun t => t.gen) _ _ s4 fun t c => ?_)).trans ?_⟩
    · rw [h4]
      rfl
    · exact congrArg (fun v => v.2.1) (abortSession_beyondFlash t c _ _)
    · rw [h4, hentries]
  obtain ⟨o, x, hunused⟩ := releaseUnused_only (releaseBatons (fun b => b.fn == f) s5)
  have hbatons := (releaseBatons_releases s5 0 fun b => b.fn == f).only
  rw [hunused, hbatons, ← h2]
  exact h5

/-- A disable that is accepted is noted with its time, and every other function stands as before. -/
theorem acceptDisable_standing (hd : (fnOf s f).disabling = none) (he : ∀ e, e ∈ s.gen.entries → e.2.fn ≠ f) (n : Nat) :
    (fnOf (acceptDisable f s) n).standing =
      if n = f then ((fnOf s f).disabledSince (now s)).standing else (fnOf s n).standing := by
  refine (congrFun (congrArg Prod.fst (acceptDisable_effect hd he).1) n).trans ?_
  show (fnOf (dropCommands _ (modFn f _ s)) n).standing = _
  rw [fnOf_dropCommands, fnOf_modFn]
  split <;> rfl

/-- The commands its queue pairs had fetched are dropped. -/
theorem acceptDisable_fetched (hd : (fnOf s f).disabling = none) (he : ∀ e, e ∈ s.gen.entries → e.2.fn ≠ f) {q : Nat}
    (hq : q ∈ qpsOf s f) : (qpOf (acceptDisable f s) q).fetched = [] :=
  (congrFun (congrArg Prod.snd (acceptDisable_effect hd he).1) q).trans (fetched_dropCommands _ _ q hq)

theorem acceptDisable_of_disabling (hd : (fnOf s f).disabling.isSome = true) : acceptDisable f s = s := if_pos hd

end

/-! ### One disable and the disables of every virtual function -/

section
variable {f : Nat} {s : State}

/-- A function that is not being disabled and has no entry begins a disable now, and is as enabled as before. -/
theorem acceptDisable_begins (hd : (fnOf s f).disabling = none) (he : ∀ e, e ∈ s.gen.entries → e.2.fn ≠ f) :
    (fnOf (acceptDisable f s) f).disabling = some (now s) ∧ (fnOf (acceptDisable f s) f).enabled = (fnOf s f).enabled ∧
      (fnOf (acceptDisable f s) f).d3hot = (fnOf s f).d3hot := by
  have h := acceptDisable_standing hd he f
  rw [if_pos rfl] at h
  obtain ⟨henabled, hdisabling, hhot⟩ := by simpa [Fn.standing, Fn.disabledSince] using h
  exact ⟨hdisabling, henabled, hhot⟩

/-- What a disable of one function does where no entry is left: every function is as enabled as before, a disable in progress goes on,
and the function is being disabled. -/
structure Disables (f : Nat) (s u : State) : Prop where
  entries : u.gen.entries = []
  enabled : ∀ n, (fnOf u n).enabled = (fnOf s n).enabled
  goesOn : ∀ n, (fnOf s n).disabling.isSome = true → (fnOf u n).disabling = (fnOf s n).disabling
  disabling : (fnOf u f).disabling.isSome = true

theorem acceptDisable_disables (he : s.gen.entries = []) : Disables f s (acceptDisable f s) := by
  cases hd : (fnOf s f).disabling with
  | some at_ =>
    have hsome : (fnOf s f).disabling.isSome = true := by rw [hd]; rfl
    rw [acceptDisable_of_disabling hsome]
    exact ⟨he, fun _ => rfl, fun _ _ => rfl, hsome⟩
  | none =>
    have hentries : ∀ e, e ∈ s.gen.entries → e.2.fn ≠ f := by simp [he]
    have hstanding := acceptDisable_standing hd hentries
    refine ⟨(acceptDisable_effect hd hentries).2.trans he, fun n => ?_, fun n hn => ?_, ?_⟩
    · refine (congrArg Prod.fst (hstanding n)).trans ?_
      split
      next h => rw [h]; rfl
      next => rfl
    · have hne : n ≠ f := by
        rintro rfl
        simp [hd] at hn
      exact congrArg (fun v => v.2.1) ((hstanding n).trans (if_neg hne))
    · rw [(acceptDisable_begins hd hentries).1]
      rfl

/-- A function that is not enabled from now on, while everything else of it stays. -/
def disableFn (fn : Nat) (s : State) : State := modFn fn (fun x => { x with enabled := false }) s

theorem fnOf_disableFn (n : Nat) : fnOf (disableFn f s) n = if n = f then { fnOf s f with enabled := false } else fnOf s n :=
  fnOf_modFn _ _ _ _

end

/-- What one change makes under an invariant and every later one keeps holds of each element after a fold. -/
theorem foldS_forall_of {α : Type} {I : State → Prop} {P : α → State → Prop} {f : State → α → State}
    (inv : ∀ t x, I t → I (f t x)) (makes : ∀ t x, I t → P x (f t x)) (keeps : ∀ t x y, I t → P y t → P y (f t x)) (l : List α)
    (s : State) (hs : I s) : ∀ x ∈ l, P x (foldS l f s) := by
  induction l generalizing s with
  | nil => simp
  | cons y l ih =>
    intro x hx
    rcases List.mem_cons.mp hx with rfl | hx
    · exact (foldS_inv (fun t => I t ∧ P x t) l f _ (fun t z ht => ⟨inv t z ht.1, keeps t z x ht.1 ht.2⟩)
        ⟨inv s x hs, makes s x hs⟩).2
    · exact ih _ (inv s y hs) x hx

section
variable {s : State} (he : s.gen.entries = [])
include he

/-- With no entry left, every virtual function is being disabled; cleared for good, it is not enabled either. -/
theorem disableVfs_disables (stay : Bool) {v : Nat} (hv : 2 ≤ v) (hv' : v ≤ 513) :
    (fnOf (disableVfs stay s) v).disabling.isSome = true ∧ (stay = true → (fnOf (disableVfs stay s) v).enabled = false) := by
  have hstep (t : State) (i : Nat) (ht : t.gen.entries = []) :
      Disables (i + 2) (whenS stay (disableFn (i + 2)) t) (acceptDisable (i + 2) (whenS stay (disableFn (i + 2)) t)) :=
    acceptDisable_disables (by cases stay <;> exact ht)
  have hall := foldS_forall_of (I := fun t => t.gen.entries = [])
    (P := fun i t => (fnOf t (i + 2)).disabling.isSome = true ∧ (stay = true → (fnOf t (i + 2)).enabled = false))
    (f := fun t i => acceptDisable (i + 2) (whenS stay (disableFn (i + 2)) t))
    (fun t i ht => (hstep t i ht).entries)
    (fun t i ht => ⟨(hstep t i ht).disabling, fun hstay => by
      rw [(hstep t i ht).enabled, hstay]
      simp [whenS, fnOf_disableFn]⟩)
    (fun t i j ht hj => by
      obtain ⟨hdisabling, henabled⟩ := hj
      have hkept : (fnOf (whenS stay (disableFn (i + 2)) t) (j + 2)).disabling = (fnOf t (j + 2)).disabling := by
        cases stay
        · rfl
        · show (fnOf (disableFn (i + 2) t) (j + 2)).disabling = _
          rw [fnOf_disableFn]
          split
          next h => rw [h]
          next => rfl
      refine ⟨?_, fun hstay => ?_⟩
      · rw [(hstep t i ht).goesOn _ (by rw [hkept]; exact hdisabling), hkept]
        exact hdisabling
      · rw [(hstep t i ht).enabled, hstay]
        show (fnOf (disableFn (i + 2) t) (j + 2)).enabled = false
        rw [fnOf_disableFn]
        split
        · rfl
        · exact henabled hstay)
    (List.range 512) s he
  have hmem := hall (v - 2) (List.mem_range.mpr (by omega))
  rwa [show v - 2 + 2 = v by omega] at hmem

/-- The virtual functions of a reset are as enabled as before, and a disable in progress goes on. -/
theorem disableVfs_reset (n : Nat) : (fnOf (disableVfs false s) n).enabled = (fnOf s n).enabled ∧
    ((fnOf s n).disabling.isSome = true → (fnOf (disableVfs false s) n).disabling = (fnOf s n).disabling) := by
  refine (foldS_inv (fun t => t.gen.entries = [] ∧ (fnOf t n).enabled = (fnOf s n).enabled ∧
      ((fnOf s n).disabling.isSome = true → (fnOf t n).disabling = (fnOf s n).disabling)) (List.range 512)
    (fun t i => acceptDisable (i + 2) (whenS false (disableFn (i + 2)) t)) s (fun t i ht => ?_) ⟨he, rfl, fun _ => rfl⟩).2
  obtain ⟨hentries, henabled, hdisabling⟩ := ht
  have hstep : Disables (i + 2) t (acceptDisable (i + 2) t) := acceptDisable_disables hentries
  exact ⟨hstep.entries, (hstep.enabled n).trans henabled, fun hn =>
    (hstep.goesOn n (by rw [hdisabling hn]; exact hn)).trans (hdisabling hn)⟩

end

/-! ### The disable completes (14 R541 step 6) -/

/-- The queue pairs of a disabled function read enable 0 and idle 1. -/
def idleQps (qs : List Nat) (s : State) : State := foldS qs (fun t q => modQp q (fun x => { x with enable := false, reserved := 0 }) t) s

theorem idleQps_idle (qs : List Nat) (s : State) : ∀ q ∈ qs, (qpOf (idleQps qs s) q).enable = false ∧ (qpOf (idleQps qs s) q).reserved = 0 := by
  refine foldS_forall (P := fun q t => (qpOf t q).enable = false ∧ (qpOf t q).reserved = 0) (fun t q => ?_) (fun t q j hj => ?_) qs s
  · rw [qpOf_modQp, if_pos rfl]
    exact ⟨rfl, rfl⟩
  · rw [qpOf_modQp]
    split
    · exact ⟨rfl, rfl⟩
    · exact hj

theorem idleQps_bound (qs : List Nat) (s : State) (q : Nat) : (qpOf (idleQps qs s) q).bound = (qpOf s q).bound := by
  refine foldS_keeps (fun t => (qpOf t q).bound) _ _ s fun t k => ?_
  show (qpOf (modQp k _ t) q).bound = _
  rw [qpOf_modQp]
  split
  next h => rw [h]
  next => rfl

theorem idleQps_only (qs : List Nat) (s : State) : idleQps qs s = { s with hif := (idleQps qs s).hif } :=
  foldS_inv (fun t => t = { s with hif := t.hif }) qs _ s (fun t q ht => by rw [ht]; rfl) rfl

/-- The register halves held for a function are given up. -/
def dropHalves (fn : Nat) (s : State) : State :=
  modRegs (fun r => { r with latched := r.latched.filter fun l => l.1 != fn, held := r.held.filter fun l => l.1 != fn }) s

/-- No command of a disabled physical function waits any longer. -/
def dropWaits (fn : Nat) (s : State) : State :=
  modHif (fun h => if fn = 0 then { h with waits0 := [] } else if fn = 1 then { h with waits1 := [] } else h) s

theorem dropWaits_qps (fn : Nat) (s : State) : (dropWaits fn s).hif.qps = s.hif.qps := by
  simp only [dropWaits, modHif]
  split
  · rfl
  · split <;> rfl

theorem exec_functionDisableComplete {fn : Nat} {s : State} (hd : (fnOf s fn).disabling.isSome = true)
    (he : ∀ e, e ∈ s.gen.entries → e.2.fn ≠ fn) :
    exec (.functionDisableComplete fn) s = .next (modFn fn (fun x => { x with disabling := none })
      (dropWaits fn (dropHalves fn (idleQps (qpsOf s fn) s)))) := by
  have hany : (s.gen.entries.any fun e => e.2.fn == fn) = false := by simpa using he
  exact congrArg Host.Outcome.next (if_pos (by rw [hd, hany]; rfl))

/-- Settles O13: a disable that is accepted is noted with its time before anything else of it, the end of the function's sessions and
batons leaves that note, and disables of other functions keep it until the last step takes it off. -/
theorem functionDisables : Obligations.function_disables := by
  unfold Obligations.function_disables
  refine ⟨?_, ?_, ?_, ?_, ?_, ?_, ?_⟩
  · intro h s t f ht hd he
    exact ⟨_, (congrArg Host.Outcome.next (runCmd_taken ht _)).trans rfl, (acceptDisable_begins hd he).1,
      fun q hq => acceptDisable_fetched hd he hq⟩
  · intro fn s hpos hle hd he
    have hne : (fn == 0) = false := by simp; omega
    obtain ⟨hbegun, henabled, -⟩ := acceptDisable_begins hd he
    exact ⟨_, congrArg Host.Outcome.next ((if_pos hle).trans (if_neg (by rw [hne]; exact Bool.false_ne_true))), hbegun, henabled⟩
  · intro s hd he _ _
    have hfirst : Disables 0 s (acceptDisable 0 s) := acceptDisable_disables he
    have hbegun := (acceptDisable_begins hd (by simp [he])).1
    have hreset := disableVfs_reset hfirst.entries
    refine ⟨_, rfl, ((hreset 0).2 hfirst.disabling).trans hbegun, fun v hv hv' => ⟨?_, (hreset v).1.trans (hfirst.enabled v)⟩⟩
    exact (disableVfs_disables hfirst.entries false hv hv').1
  · intro fn s hle hd he
    have hfn : fnOf (disableFn fn s) fn = { fnOf s fn with enabled := false } := (fnOf_disableFn fn).trans (if_pos rfl)
    obtain ⟨hbegun, henabled, -⟩ := acceptDisable_begins (s := disableFn fn s) (by rw [hfn]; exact hd) he
    exact ⟨_, congrArg Host.Outcome.next (if_pos hle), hbegun, henabled.trans (by rw [hfn])⟩
  · intro fn s hle hd he
    have hfn : fnOf (modFn fn (fun x => { x with enabled := false, d3hot := true }) s) fn =
        { fnOf s fn with enabled := false, d3hot := true } := (fnOf_modFn ..).trans (if_pos rfl)
    obtain ⟨hbegun, henabled, hhot⟩ := acceptDisable_begins (s := modFn fn _ s) (by rw [hfn]; exact hd) he
    exact ⟨_, congrArg Host.Outcome.next (if_pos hle), hbegun, henabled.trans (by rw [hfn]), hhot.trans (by rw [hfn])⟩
  · intro fn s hv hv' he _ _
    obtain ⟨hdisabling, henabled⟩ := disableVfs_disables he true hv hv'
    exact ⟨_, rfl, henabled rfl, hdisabling⟩
  · intro fn s hd he
    refine ⟨_, exec_functionDisableComplete hd he, ?_, fun q hq => ?_, ?_, ?_, ?_⟩
    · rw [fnOf_modFn, if_pos rfl]
    · obtain ⟨henable, hreserved⟩ := idleQps_idle _ s q hq
      have hqp : qpOf (modFn fn (fun x => { x with disabling := none }) (dropWaits fn (dropHalves fn (idleQps (qpsOf s fn) s)))) q =
          qpOf (idleQps (qpsOf s fn) s) q := congrArg (fun m => mgetD m q ({} : Qp)) (dropWaits_qps fn _)
      rw [hqp]
      exact ⟨henable, hreserved, idleQps_bound _ s q⟩
    · intro l hl
      simpa using (List.mem_filter.mp hl).2
    · intro l hl
      simpa using (List.mem_filter.mp hl).2
    · rw [idleQps_only]
      rfl

end Sys2Proof.Machine
end

section
/-! PROOFS. What every command keeps: the waiting commands, and the invariants `Good` and `Sound`.  One lemma for each operation of
the model says that a state reached from `s` by it keeps what the state before it kept, so that the lemma of an operation is the chain
of the lemmas of its parts. -/

-- One declaration after the other: the stacks of the threads that elaborate so long a text at once pass the check's limit.
set_option Elab.async false

namespace Sys2Proof.Machine

/-- A state `t` reached from `s` has the same waiting commands and keeps both invariants. -/
structure Keeps (s t : State) : Prop where
  pending : t.pending = s.pending
  good : Good s → Good t
  sound : Sound s → Sound t

/-- What `Keeps` looks at: every part of the state that the queue and the invariants speak of. -/
def watched (t : State) : List Instr × List Host.Cell × Nat × BitVec 64 × BitVec 64 × List Rec × Nat × Map Page :=
  (t.pending, t.hif.hostMem, t.boot.level, t.boot.linkFailed, t.boot.linkDegraded, t.mgmt.records, t.mgmt.lastSeq, t.regs.pages)

/-- A meaning answers a next state that keeps what `s` kept. -/
def Answers (s : State) (a : Answer) : Prop := ∃ u, a = .next u ∧ Keeps s u

theorem Page.count_evcs_length (src n : Nat) (x : Page) : (x.count src n).evcs.length = x.evcs.length := by
  simp [Page.count]

theorem appendErr_evcs (e : ErrEntry) (x : Page) : (appendErr e x).evcs = x.evcs := by
  unfold appendErr
  split <;> rfl

variable {s t : State}

namespace Keeps

protected theorem refl (s : State) : Keeps s s := ⟨rfl, id, id⟩

protected theorem trans {u : State} (h : Keeps s t) (k : Keeps t u) : Keeps s u :=
  ⟨k.pending.trans h.pending, k.good ∘ h.good, k.sound ∘ h.sound⟩

/-- A change of parts that are not looked at keeps everything. -/
protected theorem same {u : State} (h : Keeps s t) (e : watched u = watched t) : Keeps s u := by
  simp only [watched, Prod.mk.injEq] at e
  obtain ⟨hpending, hmem, hlevel, hfailed, hdegraded, hrecords, hseq, hpages⟩ := e
  refine ⟨hpending.trans h.pending, fun g => ?_, fun g => ?_⟩
  · simpa only [Good, hmem, hlevel, hrecords, hseq] using h.good g
  · simpa only [Sound, pageOf, hfailed, hdegraded, hpages] using h.sound g

/-- A free value is drawn. -/
protected theorem drew {n : Nat} (h : Keeps s t) : Keeps s { t with free := n } := h.same rfl

protected theorem next (h : Keeps s t) : Answers s (.next t) := ⟨t, rfl, h⟩

/-! ### Parts of the state -/

protected theorem modRegs {f : Regs → Regs} (h : Keeps s t) (e : ∀ x, (f x).pages = x.pages := by intro; rfl) : Keeps s (modRegs f t) :=
  h.same (by simp only [watched, modRegs, e])

protected theorem modHif {f : Hif → Hif} (h : Keeps s t) (e : ∀ x, (f x).hostMem = x.hostMem := by intro; rfl) : Keeps s (modHif f t) :=
  h.same (by simp only [watched, modHif, e])

protected theorem modSched {f : Sched → Sched} (h : Keeps s t) : Keeps s (modSched f t) := h.same rfl
protected theorem modObj {f : Objects → Objects} (h : Keeps s t) : Keeps s (modObj f t) := h.same rfl
protected theorem modGen {f : Gen → Gen} (h : Keeps s t) : Keeps s (modGen f t) := h.same rfl
protected theorem modSearch {f : Search → Search} (h : Keeps s t) : Keeps s (modSearch f t) := h.same rfl
protected theorem modMem {f : Mem → Mem} (h : Keeps s t) : Keeps s (modMem f t) := h.same rfl
protected theorem modFlash {f : Flash → Flash} (h : Keeps s t) : Keeps s (modFlash f t) := h.same rfl
protected theorem modFab {f : Fabric → Fabric} (h : Keeps s t) : Keeps s (modFab f t) := h.same rfl
protected theorem modSec {f : Sec → Sec} (h : Keeps s t) : Keeps s (modSec f t) := h.same rfl

protected theorem modBoot {f : Boot → Boot} (h : Keeps s t)
    (e : ∀ x, ((f x).level, (f x).linkFailed, (f x).linkDegraded) = (x.level, x.linkFailed, x.linkDegraded) := by intro; rfl) :
    Keeps s (modBoot f t) := by
  simp only [Prod.mk.injEq, forall_and] at e
  exact h.same (by simp only [watched, modBoot, e])

protected theorem modMgmt {f : Mgmt → Mgmt} (h : Keeps s t)
    (e : ∀ x, ((f x).records, (f x).lastSeq) = (x.records, x.lastSeq) := by intro; rfl) : Keeps s (modMgmt f t) := by
  simp only [Prod.mk.injEq, forall_and] at e
  exact h.same (by simp only [watched, modMgmt, e])

/-- A service level of the four may be set. -/
protected theorem setLevelTo {f : Boot → Boot} (h : Keeps s t) (hl : (f t.boot).level ≤ 3)
    (e : ∀ x, ((f x).linkFailed, (f x).linkDegraded) = (x.linkFailed, x.linkDegraded) := by intro; rfl) :
    Keeps s (modBoot f t) := by
  simp only [Prod.mk.injEq, forall_and] at e
  refine ⟨h.pending, fun g => ⟨(h.good g).1, hl, (h.good g).2.2⟩, fun g => ?_⟩
  simpa only [Sound, pageOf, modBoot_boot, modBoot_regs, e] using h.sound g

/-- Records may change while none is numbered above the last number. -/
protected theorem setRecords {f : Mgmt → Mgmt} (h : Keeps s t)
    (e : (∀ r ∈ t.mgmt.records, r.seq ≤ t.mgmt.lastSeq) → ∀ r ∈ (f t.mgmt).records, r.seq ≤ (f t.mgmt).lastSeq) :
    Keeps s (modMgmt f t) :=
  ⟨h.pending, fun g => ⟨(h.good g).1, (h.good g).2.1, e (h.good g).2.2⟩, fun g => h.sound g⟩

/-- A page may change while it keeps its count of event counters. -/
protected theorem modPage {p : Nat} {g : Page → Page} (h : Keeps s t) (e : ∀ x, (g x).evcs.length = x.evcs.length := by intro; rfl) :
    Keeps s (modPage p g t) := by
  refine ⟨h.pending, h.good, fun k => ?_⟩
  obtain ⟨hcount, hlinks⟩ := h.sound k
  refine ⟨fun q => ?_, hlinks⟩
  by_cases hq : q = p
  · subst hq
    rw [pageOf, modPage, modRegs_regs, mgetD_mmod_same, e]
    exact hcount q
  · rw [pageOf, modPage, modRegs_regs, mgetD_mmod_other _ _ _ _ _ _ hq]
    exact hcount q

/-! ### Conditions and lists -/

protected theorem whenS {c : Bool} {f : State → State} (h : Keeps s t) (e : ∀ {u}, Keeps s u → Keeps s (f u)) :
    Keeps s (whenS c f t) := by
  unfold whenS
  split
  · exact e h
  · exact h

protected theorem foldS {α : Type} {l : List α} {f : State → α → State} (h : Keeps s t)
    (e : ∀ {u} x, Keeps s u → Keeps s (f u x)) : Keeps s (foldS l f t) :=
  foldS_inv (Keeps s) l f t (fun _ x k => e x k) h

/-! ### Events and messages (20 R739 to R745; 15 R573) -/

protected theorem modFn {n : Nat} {g : Fn → Fn} (h : Keeps s t) : Keeps s (modFn n g t) := h.same rfl
protected theorem modQp {q : Nat} {g : Qp → Qp} (h : Keeps s t) : Keeps s (modQp q g t) := h.same rfl

protected theorem sendMsix {f v : Nat} (h : Keeps s t) : Keeps s (sendMsix f v t) := by
  unfold sendMsix
  dsimp only
  split
  · split
    · exact h
    · exact h.modFn
  · exact h.modHif

protected theorem irqEval {again : Bool} {p : Nat} (h : Keeps s t) : Keeps s (irqEval again p t) := by
  unfold irqEval
  split
  · exact h
  · dsimp only
    have hpage := fun (c d : Bool) (src n : Nat) => h.modPage (p := p)
      (g := fun x => { (if c then x.count src n else x) with irq := d }) fun x => by
        cases c
        · rfl
        · exact x.count_evcs_length src n
    split
    · exact (hpage _ _ _ _).sendMsix
    · exact hpage _ _ _ _

protected theorem evCount {p src n : Nat} (h : Keeps s t) : Keeps s (evCount p src n t) := by
  unfold evCount
  split
  · exact h
  · split
    · exact h
    · exact (h.modPage (Page.count_evcs_length src n)).irqEval

protected theorem sendMsg {f v : Nat} (h : Keeps s t) : Keeps s (sendMsg f v t) := h.sendMsix.evCount

/-! ### Time (19 R704) -/

protected theorem passCycles {n : Nat} (h : Keeps s t) : Keeps s (passCycles n t) := h.modBoot.foldS fun _ h => h.evCount

protected theorem advanceTo {n : Nat} (h : Keeps s t) : Keeps s (advanceTo n t) := by
  unfold advanceTo
  dsimp only
  split
  · exact h.passCycles
  · exact h

protected theorem idleCycle (h : Keeps s t) : Keeps s (idleCycle t) := h.passCycles

protected theorem noteFreed {x : Freed} (h : Keeps s t) : Keeps s (noteFreed x t) := h.modBoot

/-! ### Event records (19 R715 to R722) -/

protected theorem wrapArea (h : Keeps s t) : Keeps s (wrapArea t) := by
  unfold wrapArea
  dsimp only
  split
  · exact h
  · refine h.setRecords (f := fun m => { m with records := _, lastSeq := m.lastSeq + 1, lostRecs := _, snaps := _ }) fun g r hr => ?_
    rcases List.mem_append.mp hr with hold | hnew
    · exact (g r (List.mem_of_mem_drop hold)).trans (Nat.le_succ _)
    · cases List.mem_singleton.mp hnew
      exact Nat.le_refl _

protected theorem flushSnaps (h : Keeps s t) : Keeps s (flushSnaps t) := h.modMgmt.wrapArea

protected theorem recordWith {asked sup : Option Nat} {kind sev source code inst : Nat} {pl : List Nat} (h : Keeps s t) :
    Keeps s (recordWith asked kind sev source code inst sup pl t) := by
  refine Keeps.whenS (Keeps.evCount (Keeps.wrapArea (Keeps.whenS (h.setRecords fun g r hr => ?_) fun h =>
    (h.modPage fun x => by rw [appendErr_evcs]).irqEval))) fun h => h.flushSnaps
  rcases List.mem_append.mp hr with hold | hnew
  · exact (g r hold).trans (Nat.le_succ _)
  · cases List.mem_singleton.mp hnew
    exact Nat.le_refl _

protected theorem recordFull {sup : Option Nat} {kind sev source code inst : Nat} {pl : List Nat} (h : Keeps s t) :
    Keeps s (recordFull kind sev source code inst sup pl t) := h.recordWith

protected theorem recordEvent {sev source code inst : Nat} {pl : List Nat} (h : Keeps s t) :
    Keeps s (recordEvent sev source code inst pl t) := h.recordFull

/-! ### DMA and completions (15 R554 to R585) -/

protected theorem dmaWrite {a : Nat} {b : Bytes} (h : Keeps s t) : Keeps s (dmaWrite a b t) := by
  have hmem : Keeps s (modHif (fun x => { x with hostMem := memWrite x.hostMem a b }) t) :=
    ⟨h.pending, fun g => ⟨memWrite_wf (h.good g).1 a b, (h.good g).2⟩, fun g => h.sound g⟩
  exact hmem.evCount

protected theorem modCluster {g : Nat} {f : Cluster → Cluster} (h : Keeps s t) : Keeps s (modCluster g f t) :=
  h.modBoot

protected theorem modStack {n : Nat} {f : Stack → Stack} (h : Keeps s t) : Keeps s (modStack n f t) :=
  h.modMem

protected theorem modChannel {n : Nat} {f : Channel → Channel} (h : Keeps s t) : Keeps s (modChannel n f t) :=
  h.modFlash

protected theorem modPort {n : Nat} {f : Port → Port} (h : Keeps s t) : Keeps s (modPort n f t) :=
  h.modFab

protected theorem modEntry {e : Nat} {f : RtEntry → RtEntry} (h : Keeps s t) : Keeps s (modEntry e f t) :=
  h.modGen

protected theorem modWork {e : Nat} {f : Work → Work} (h : Keeps s t) : Keeps s (modWork e f t) :=
  h.modEntry

protected theorem modSearchWork {e : Nat} {f : SearchWork → SearchWork} (h : Keeps s t) : Keeps s (modSearchWork e f t) :=
  h.modWork

protected theorem modAccount {a : Nat} {f : Account → Account} (h : Keeps s t) : Keeps s (modAccount a f t) :=
  h.modSched

protected theorem drawFree (h : Keeps s t) : Keeps s (drawFree t).2 := by
  unfold drawFree
  dsimp only
  exact h.drew

protected theorem qpEvent {q : Nat} (h : Keeps s t) : Keeps s (qpEvent q t) := by
  unfold qpEvent
  dsimp only
  split
  · exact h.modQp.sendMsg
  · exact h.modQp

protected theorem complete {q : Nat} {c : Cpl} (h : Keeps s t) : Keeps s (complete q c t) := by
  unfold complete
  split
  · dsimp only
    exact h.dmaWrite.modQp.qpEvent.evCount
  · dsimp only
    exact h.modQp

protected theorem postNoticeOn {f : Nat} {n : Notice} (h : Keeps s t) : Keeps s (postNoticeOn f n t) := by
  unfold postNoticeOn
  split
  · dsimp only
    split
    · exact h.modHif.complete
    · exact h.modHif
  · dsimp only
    split
    · exact h.modHif.complete
    · exact h.modHif

protected theorem postNotice {n : Notice} (h : Keeps s t) : Keeps s (postNotice n t) := h.postNoticeOn.postNoticeOn
protected theorem chargeAcct {a : Nat} {c : Counters} (h : Keeps s t) : Keeps s (chargeAcct a c t) := h.modAccount

protected theorem charge {e : Nat} {c : Counters} (h : Keeps s t) : Keeps s (charge e c t) := by
  unfold charge
  split
  · exact h
  · exact h.modEntry.chargeAcct

protected theorem acctLog {b : Bytes} (h : Keeps s t) : Keeps s (acctLog b t) := h.modSched

/-! ### Numeric flags (03) -/

protected theorem gatherFlags {e : Nat} {f : BitVec 4} (h : Keeps s t) : Keeps s (gatherFlags e f t) := h.modWork

/-! ### Line codes and stacks (12) -/

protected theorem moveLines {s0 : State} (h : Keeps s t) : Keeps s (moveLines s0 t) := h.modMem

protected theorem degradeStack {n : Nat} (h : Keeps s t) : Keeps s (degradeStack n t) := by
  unfold degradeStack
  split
  · exact h
  · exact h.modStack.recordEvent

protected theorem noteRowError {n row : Nat} (h : Keeps s t) : Keeps s (noteRowError n row t) := by
  unfold noteRowError
  dsimp only
  split
  · exact h.modStack
  · split
    · exact h.modStack.degradeStack
    · exact h.modStack.moveLines.recordEvent.whenS fun h => h.degradeStack

protected theorem readLine {l : Nat} (h : Keeps s t) : Keeps s (readLine l t) := by
  unfold readLine
  split
  · exact h
  · split
    · dsimp only
      exact h
    · dsimp only
      exact h.modMem.modStack.evCount.noteRowError
    · dsimp only
      exact h.modMem.modStack.evCount.recordEvent

protected theorem storeLines {l kind owner : Nat} {b : List Bytes} (h : Keeps s t) : Keeps s (storeLines l kind owner b t) := by
  induction b generalizing l t with
  | nil => exact h
  | cons x b ih => exact ih h.modMem

protected theorem readLines {ls : List Nat} (h : Keeps s t) : Keeps s (readLines ls t) := h.foldS fun _ h => h.readLine

/-! ### The host interface (15) -/

protected theorem closeSession {cmd : HostCmd} (h : Keeps s t) : Keeps s (closeSession cmd t) := by
  unfold closeSession
  split
  · exact h.modObj
  · exact h

protected theorem noteFetch {cmd : HostCmd} (h : Keeps s t) : Keeps s (noteFetch cmd t) := by
  unfold noteFetch
  split
  · split
    · exact h.modHif
    · exact h
  · exact h

protected theorem fetchOne {cmd : HostCmd} (h : Keeps s t) : Keeps s (fetchOne cmd t).2 := by
  unfold fetchOne
  dsimp only
  exact h.modQp.noteFetch.closeSession.evCount.evCount

protected theorem rememberTag {q tag : Nat} (h : Keeps s t) : Keeps s (rememberTag q tag t) := h.modQp

protected theorem cplCmd {cmd : HostCmd} {f : Fetched} {c : Cpl} (h : Keeps s t) : Keeps s (cplCmd cmd f c t) :=
  h.complete.whenS fun h => h.rememberTag

protected theorem cplStatus {cmd : HostCmd} {f : Fetched} {st detail : Nat} (h : Keeps s t) : Keeps s (cplStatus cmd f st detail t) :=
  h.cplCmd

protected theorem deny {st detail : Nat} (h : Keeps s t) : Keeps s (deny st t detail).state := by
  unfold deny
  dsimp only
  exact h

protected theorem denyRo (h : Keeps s t) : Keeps s (denyRo t).state := h.modFlash.evCount.deny

protected theorem okWith {result : Nat} (h : Keeps s t) : Keeps s (okWith t result).state := by
  unfold okWith
  dsimp only
  exact h

protected theorem finishReply {c : HostCmd} {f : Fetched} {r : Reply} (h : Keeps s r.state) : Keeps s (finishReply c f r) := by
  unfold finishReply
  split
  · exact h.cplCmd
  · exact h

protected theorem takeCmd {c : HostCmd} {f : Fetched} {u : State} (h : Keeps s t) (e : takeCmd c t = some (f, u)) : Keeps s u := by
  unfold takeCmd at e
  split at e
  · cases e
  · split at e
    · split at e
      · cases e
      · cases e; exact h.modQp
    · split at e
      · cases e; exact h.fetchOne
      · cases e

/-- A ring command keeps what its body keeps. -/
protected theorem runCmd {op : Nat} {c : HostCmd} {body : Fetched → State → Reply} (h : Keeps s t)
    (e : ∀ {u} f, Keeps s u → Keeps s (body f u).state) : Keeps s (runCmd op c body t) := by
  unfold runCmd
  split
  · exact h
  · split
    · exact h
    · rename_i htake
      split
      · exact (h.takeCmd htake).cplStatus
      · split
        · exact (e _ (h.takeCmd htake)).finishReply
        · exact (h.takeCmd htake).cplStatus

protected theorem execCommandFetch {cmd : HostCmd} (h : Keeps s t) : Answers s (execCommandFetch cmd t) := by
  unfold execCommandFetch
  split
  · split
    · dsimp only
      exact h.fetchOne.cplStatus.next
    · dsimp only
      exact h.fetchOne.modQp.next
  · exact h.next

protected theorem qpError {q cause : Nat} (h : Keeps s t) : Keeps s (qpError q cause t) := h.modQp
protected theorem dropDoorbell {fn : Nat} (h : Keeps s t) : Keeps s (dropDoorbell fn t) := h.modFn.evCount

protected theorem doorbell {fn q : Nat} {act : Nat → State → State} (h : Keeps s t) (e : ∀ {u} k, Keeps s u → Keeps s (act k u)) :
    Keeps s (doorbell fn q act t) := by
  unfold doorbell
  split
  · split
    · split
      · exact e _ h
      · exact h.dropDoorbell
    · exact h.dropDoorbell
  · exact h

protected theorem sqTail {value k : Nat} (h : Keeps s t) : Keeps s (sqTail value k t) := by
  unfold sqTail
  dsimp only
  split
  · exact h.qpError
  · split
    · exact h
    · exact h.modQp

protected theorem cqHead {value k : Nat} (h : Keeps s t) : Keeps s (cqHead value k t) := by
  unfold cqHead
  dsimp only
  split
  · exact h.qpError
  · exact h.modQp.foldS fun _ h => h.noteFreed

protected theorem streamHead {value k : Nat} (h : Keeps s t) : Keeps s (streamHead value k t) := by
  unfold streamHead
  dsimp only
  split
  · exact h.qpError
  · exact h.modQp

protected theorem enableQp {k : Nat} (h : Keeps s t) : Keeps s (enableQp k t) := by
  unfold enableQp
  dsimp only
  split
  · exact h
  · split <;> exact h.modQp

protected theorem execQpEnable {fn q : Nat} (h : Keeps s t) : Answers s (execQpEnable fn q t) := by
  unfold execQpEnable
  split
  · split
    · exact h.enableQp.next
    · exact h.next
  · exact h.next

protected theorem execQpDisable {fn q : Nat} (h : Keeps s t) : Answers s (execQpDisable fn q t) := by
  unfold execQpDisable
  split
  · exact h.modQp.next
  · exact h.next

protected theorem execQpFind {fn q : Nat} (h : Keeps s t) : Answers s (execQpFind fn q t) := h.modFn.next

protected theorem sendQpMsg {q : Nat} (h : Keeps s t) : Keeps s (sendQpMsg q t) := by
  unfold sendQpMsg
  dsimp only
  exact h.modQp.sendMsg

protected theorem execIrqModerationTimer {q : Nat} (h : Keeps s t) : Answers s (execIrqModerationTimer q t) := by
  unfold execIrqModerationTimer
  dsimp only
  split
  · exact h.advanceTo.sendQpMsg.next
  · exact h.next

protected theorem sendPending {f : Nat} (h : Keeps s t) : Keeps s (sendPending f t) := by
  unfold sendPending
  dsimp only
  split
  · exact h
  · exact h.modFn.foldS fun _ h => h.sendMsg

protected theorem bar4Deny (h : Keeps s t) : Keeps s (bar4Deny t) := h.modHif

protected theorem bar4Read {parts : List (Nat × Nat × Nat)} (h : Keeps s t) : Keeps s (bar4Read parts t) := by
  unfold bar4Read
  dsimp only
  refine Keeps.modRegs ?_
  generalize ([] : Bytes) = b
  have hread : Keeps s (b, readLines (parts.map (·.1)) t).2 := h.readLines
  revert hread
  generalize (b, readLines (parts.map (·.1)) t) = acc
  intro hread
  induction parts generalizing acc with
  | nil => exact hread
  | cons p parts ih =>
    rw [List.foldl_cons]
    refine ih _ ?_
    split
    · exact hread
    · exact hread.bar4Deny

protected theorem bar4Write {parts : List (Nat × Nat × Nat)} {b : Bytes} (h : Keeps s t) : Keeps s (bar4Write parts b t) := by
  induction parts generalizing b t with
  | nil => exact h
  | cons p parts ih =>
    have hline : Keeps s (if p.2.2 = 64 then t else readLine p.1 t) := by
      split
      · exact h
      · exact h.readLine
    unfold bar4Write
    generalize (if p.2.2 = 64 then t else readLine p.1 t) = u at hline ⊢
    refine ih ?_
    split
    · exact hline.modMem
    · exact hline.bar4Deny

protected theorem execBar4Access {addr len : Nat} {write : Option Bytes} (h : Keeps s t) :
    Answers s (execBar4Access addr len write t) := by
  unfold execBar4Access
  split
  · dsimp only
    exact h.bar4Read.next
  · dsimp only
    exact h.bar4Write.next

protected theorem execDmaReadError {target : DmaTarget} {err : DmaError} (h : Keeps s t) : Answers s (execDmaReadError target err t) := by
  unfold execDmaReadError
  split
  · exact h.qpError.next
  · split
    · exact h.modWork.next
    · split
      · exact h.modQp.complete.next
      · exact h.next

protected theorem asyncBody {cmd : HostCmd} {f : Fetched} (h : Keeps s t) : Keeps s (asyncBody cmd f t).state := by
  unfold asyncBody
  dsimp only
  split
  · dsimp only
    exact h.modHif (by intro; split <;> rfl)
  · split
    · split
      · exact h.deny
      · dsimp only
        exact h.modHif
    · split
      · exact h.deny
      · dsimp only
        exact h.modHif

/-! ### Line keys -/

protected theorem modEntries {a : Nat} {f : List KeyEntry → List KeyEntry} (h : Keeps s t) : Keeps s (modEntries a f t) :=
  h.modSec

protected theorem replaceEntry {a set : Nat} (h : Keeps s t) : Keeps s (replaceEntry a set t) := by
  unfold replaceEntry
  dsimp only
  exact h.modEntries.modEntries.modEntries

protected theorem freshKeys {a : Nat} (h : Keeps s t) : Keeps s (freshKeys a t) := by
  unfold freshKeys
  dsimp only
  exact h.modSec.replaceEntry

protected theorem openKeys (h : Keeps s t) : Keeps s (openKeys t) := by
  unfold openKeys
  exact h.foldS fun _ h => by
    split
    · exact h.modSec.modEntries
    · exact h.modSec

/-! ### The transport of the fabric (16) -/

protected theorem pumpPort {port : Nat} (h : Keeps s t) : Keeps s (pumpPort port t) := by
  unfold pumpPort
  dsimp only
  exact h.modPort.evCount

protected theorem putOn {port lvl : Nat} {p : Packet} (h : Keeps s t) : Keeps s (putOn port lvl p t) := h.modFab.modPort.pumpPort
protected theorem dropNoRoute (h : Keeps s t) : Keeps s (dropNoRoute t) := h.modFab.evCount

protected theorem routeAt {lvl : Nat} {p : Packet} (h : Keeps s t) : Keeps s (routeAt lvl p t) := by
  unfold routeAt
  dsimp only
  split
  · exact h.modFab
  · split
    · exact h.dropNoRoute
    · exact h.putOn
    · split
      · split
        · exact h.putOn
        · exact h.dropNoRoute
      · exact h.dropNoRoute

protected theorem sendPacket {p : Packet} (h : Keeps s t) : Keeps s (sendPacket p t) := h.routeAt
protected theorem forward {p : Packet} (h : Keeps s t) : Keeps s (forward p t) := h.routeAt
protected theorem sendAll {p : Packet} (h : Keeps s t) : Keeps s (sendAll p t) := h.foldS fun _ h => h.sendPacket

protected theorem gatherTrain {p : Packet} (h : Keeps s t) : Keeps s (gatherTrain p t).2 := by
  unfold gatherTrain
  split
  · dsimp only
    exact h
  · dsimp only
    split
    · dsimp only
      exact h.modFab
    · dsimp only
      exact h.modFab

protected theorem modPair {peer : Nat} {f : Pair → Pair} (h : Keeps s t) : Keeps s (modPair peer f t) :=
  h.modFab

protected theorem sendReqFor {p : Packet} {who : Option Nat} {ctx : Option (Nat × Nat × Nat)} (h : Keeps s t) :
    Keeps s (sendReqFor p who ctx t) := by
  unfold sendReqFor
  dsimp only
  exact h.modPair.sendAll

protected theorem sendReq {p : Packet} {who : Option Nat} (h : Keeps s t) : Keeps s (sendReq p who t) := h.sendReqFor

protected theorem reclaimLease {n : Nat} (h : Keeps s t) : Keeps s (reclaimLease n t) := by
  unfold reclaimLease
  split
  · split
    · exact h
    · exact h.modMem.sendReq
  · exact h

protected theorem sendAns {p a : Packet} (h : Keeps s t) : Keeps s (sendAns p a t) := by
  unfold sendAns
  split
  · dsimp only
    exact h.modPair.sendAll
  · dsimp only
    exact h.sendAll

protected theorem sendStatus {p : Packet} {status : Nat} (h : Keeps s t) : Keeps s (sendStatus p status t) := h.sendAns
protected theorem sendAck {peer seq : Nat} (h : Keeps s t) : Keeps s (sendAck peer seq t) := h.sendPacket

protected theorem runEarly {run : Packet → State → State} {peer n : Nat} (h : Keeps s t) (e : ∀ {u} p, Keeps s u → Keeps s (run p u)) :
    Keeps s (runEarly run peer n t) := by
  induction n generalizing t with
  | zero => exact h
  | succ n ih =>
    unfold runEarly
    dsimp only
    split
    · exact h
    · exact ih (e _ h.modPair).sendAck

protected theorem receiveReq {run : Packet → State → State} {p : Packet} (h : Keeps s t) (e : ∀ {u} p, Keeps s u → Keeps s (run p u)) :
    Keeps s (receiveReq run p t) := by
  unfold receiveReq
  dsimp only
  split
  · exact h.sendAll
  · split
    · exact (e _ h.modPair).sendAck.runEarly e
    · split
      · split
        · exact e _ h
        · split
          · exact h.sendAll
          · exact h
      · split
        · exact h
        · split
          · exact h.modPair
          · exact h

/-- A packet that arrives keeps what its effect keeps. -/
protected theorem arrive {pt : Nat} {act : Packet → State → State} {p : Packet} (h : Keeps s t)
    (e : ∀ {u} p, Keeps s u → Keeps s (act p u)) : Keeps s (arrive pt act p t) := by
  unfold arrive
  dsimp only
  split
  · split
    · exact h.forward
    · exact h
  · split
    · exact h
    · have hgather := h.modFab (f := fun f => { f with delivered := f.delivered.erase { p with ptype := pt } })
        |>.gatherTrain (p := { p with ptype := pt })
      split
      · rename_i heq
        exact e _ (by rw [heq] at hgather; exact hgather)
      · rename_i heq
        rw [heq] at hgather
        exact hgather

/-! ### Flash writes (13) -/

protected theorem unmapUnit {key : Nat} (h : Keeps s t) : Keeps s (unmapUnit key t) := h.modFlash
protected theorem countPrograms {n : Nat} (h : Keeps s t) : Keeps s (countPrograms n t) := h.modFlash.evCount
protected theorem countReads {n : Nat} (h : Keeps s t) : Keeps s (countReads n t) := h.modFlash.evCount

protected theorem programUnit {useReserve : Bool} {part ch key : Nat} (h : Keeps s t) :
    Keeps s (programUnit useReserve part ch key t) := by
  unfold programUnit
  split
  · exact h.modFlash
  · split
    · exact h.modChannel.countPrograms
    · split
      · dsimp only
        exact h.modChannel.drew.countPrograms
      · exact h.modFlash

protected theorem acceptWrite {w : UnitWrite} (h : Keeps s t) : Keeps s (acceptWrite w t) := by
  unfold acceptWrite
  split
  · dsimp only
    exact h.unmapUnit.programUnit
  · dsimp only
    exact h.countReads.unmapUnit.programUnit

protected theorem acceptWrites {l : List UnitWrite} (h : Keeps s t) : Keeps s (acceptWrites l t) :=
  h.foldS fun _ h => h.acceptWrite

protected theorem drainBuffers {useReserve : Bool} {ch part : Nat} (h : Keeps s t) : Keeps s (drainBuffers useReserve ch part t) := by
  unfold drainBuffers
  dsimp only
  exact h.modFlash.foldS fun _ h => h.programUnit

protected theorem dropDeadUnits (h : Keeps s t) : Keeps s (dropDeadUnits t) := h.modFlash

/-! ### Units, entries and the request table (10, 14) -/

protected theorem raiseVtime {prio a : Nat} (h : Keeps s t) : Keeps s (raiseVtime prio a t) := by
  unfold raiseVtime
  dsimp only
  split
  · exact h
  · split
    · exact h
    · exact h.modAccount

protected theorem newUnit {kind : UnitKind} {members : List (Nat × Nat × Nat)} {prio image span sram dies : Nat} (h : Keeps s t) :
    Keeps s (newUnit kind members prio image span sram dies t).2 := by
  unfold newUnit
  dsimp only
  exact (h.foldS fun _ h => h.raiseVtime).modSched

protected theorem freeSlots {u : Nat} {l : List (Nat × Nat)} (h : Keeps s t) : Keeps s (freeSlots u l t) :=
  h.foldS fun _ h => h.modCluster.noteFreed

protected theorem chargeUnit {u : SUnit} {q : Nat} {mk : Nat → Counters} (h : Keeps s t) : Keeps s (chargeUnit u q mk t) :=
  h.foldS fun _ h => h.charge

protected theorem chargeSearch {e : Nat} {c : Counters} (h : Keeps s t) : Keeps s (chargeSearch e c t) := by
  unfold chargeSearch
  split
  · exact h.charge
  · split
    · exact h.chargeAcct
    · exact h

protected theorem chargeStage {e stage : Nat} {ext : List Nat} (h : Keeps s t) : Keeps s (chargeStage e stage ext t) := h.chargeSearch

protected theorem selectionRows {rows entries nan : Nat} (h : Keeps s t) : Keeps s (selectionRows rows entries nan t) :=
  h.modSearch.evCount.evCount.evCount

protected theorem endUnit {n : Nat} (h : Keeps s t) : Keeps s (endUnit n t) := by
  unfold endUnit
  split
  · exact h
  · exact h.modSched.freeSlots

protected theorem chargeWait {u : SUnit} {q : Nat} (h : Keeps s t) : Keeps s (chargeWait u q t) :=
  h.foldS fun _ h => h.charge

protected theorem endUnitsOf {e : Nat} (h : Keeps s t) : Keeps s (endUnitsOf e t) := by
  unfold endUnitsOf
  exact h.foldS fun _ h => by
    split
    · exact h.chargeWait.endUnit
    · exact h.endUnit

protected theorem modTable {slot : Nat} {f : Table → Table} (h : Keeps s t) : Keeps s (modTable slot f t) :=
  h.modObj

protected theorem modVersion {slot v : Nat} {f : Version → Version} (h : Keeps s t) : Keeps s (modVersion slot v f t) :=
  h.modTable

protected theorem sendPins {e acct : Nat} {bs : List TableBind} (h : Keeps s t) : Keeps s (sendPins e acct bs t) := by
  unfold sendPins
  dsimp only
  exact h.modWork.foldS fun _ h => h.sendReq

protected theorem sendUnpins {e : Nat} (h : Keeps s t) : Keeps s (sendUnpins e t) := by
  unfold sendUnpins
  split
  · exact h
  · exact h.foldS fun _ h => by
      split
      · exact h.sendReq.modFab
      · exact h

protected theorem returnPages {cmd : Nat} {ps : List Nat} (h : Keeps s t) : Keeps s (returnPages cmd ps t) :=
  h.modObj.foldS fun _ h => h.noteFreed

protected theorem drawPages {cmd n : Nat} (h : Keeps s t) : Keeps s (drawPages cmd n t).2 := by
  unfold drawPages
  dsimp only
  exact h.modObj

protected theorem dropBaton {slot : Nat} (h : Keeps s t) : Keeps s (dropBaton slot t) := by
  unfold dropBaton
  split
  · exact h
  · split
    · exact h
    · dsimp only
      exact h.modGen.noteFreed.returnPages

protected theorem releaseBaton {slot : Nat} (h : Keeps s t) : Keeps s (releaseBaton slot t) := h.modGen.dropBaton

protected theorem releaseBatons {p : Baton → Bool} (h : Keeps s t) : Keeps s (releaseBatons p t) :=
  h.foldS fun _ h => h.releaseBaton

protected theorem returnEntry {e : Nat} (h : Keeps s t) : Keeps s (returnEntry e t) := by
  unfold returnEntry
  split
  · exact h
  · split
    · exact h
    · split
      · dsimp only
        exact h.modEntry.modMem.returnPages.returnPages.modGen.dropBaton
      · dsimp only
        exact h.modEntry.modMem.returnPages.returnPages

protected theorem countText {bytes tokens bad : Nat} (h : Keeps s t) : Keeps s (countText bytes tokens bad t) :=
  h.evCount.evCount.evCount.modObj

protected theorem completeEntry {e result : Nat} (h : Keeps s t) : Keeps s (completeEntry e result t) := by
  unfold completeEntry
  split
  · exact h
  · split
    · dsimp only
      exact h.modWork.modQp.acctLog
    · dsimp only
      split
      · exact h.modWork.dmaWrite.complete.rememberTag
      · exact h.modWork.complete.rememberTag

protected theorem killTag {tag : Nat} (h : Keeps s t) : Keeps s (killTag tag t) := h.modSearch

protected theorem killEntry {e : Nat} (h : Keeps s t) : Keeps s (killEntry e t) := by
  unfold killEntry
  split
  · exact h.killTag.modSearchWork
  · exact h

protected theorem finishCanceller {e : Nat} (h : Keeps s t) : Keeps s (finishCanceller e t) := by
  unfold finishCanceller
  dsimp only
  exact h.modEntry.foldS fun _ h => h.complete

protected theorem lateCancels {e : Nat} (h : Keeps s t) : Keeps s (lateCancels e t) := by
  unfold lateCancels
  split
  · exact h
  · dsimp only
    exact h.modEntry.foldS fun _ h => h.complete

protected theorem chargeHeld {e : Nat} {x : RtEntry} (h : Keeps s t) : Keeps s (chargeHeld e x t) := by
  unfold chargeHeld
  split
  · exact h.charge
  · exact h

protected theorem endEntry {e status detail stage result : Nat} (h : Keeps s t) : Keeps s (endEntry e status detail stage result t) := by
  unfold endEntry
  split
  · exact h
  · split
    · exact h
    · split
      · split
        · split
          · dsimp only
            split
            · split
              · exact h.modEntry.chargeHeld.charge.modGen.evCount.endUnitsOf.killEntry.completeEntry.sendUnpins.finishCanceller
              · exact h.modEntry.chargeHeld.charge.modGen.evCount.endUnitsOf.killEntry.completeEntry.sendUnpins.finishCanceller.returnEntry
            · split
              · exact h.modEntry.chargeHeld.charge.modGen.evCount.endUnitsOf.killEntry.completeEntry.sendUnpins.finishCanceller
              · exact h.modEntry.chargeHeld.charge.modGen.evCount.endUnitsOf.killEntry.completeEntry.sendUnpins.finishCanceller.returnEntry
          · dsimp only
            split
            · exact h.modEntry.chargeHeld.charge.modGen.evCount.endUnitsOf.killEntry.completeEntry.sendUnpins.finishCanceller
            · exact h.modEntry.chargeHeld.charge.modGen.evCount.endUnitsOf.killEntry.completeEntry.sendUnpins.finishCanceller.returnEntry
        · split
          · dsimp only
            split
            · split
              · exact h.modEntry.chargeHeld.charge.modGen.evCount.endUnitsOf.killEntry.completeEntry.sendUnpins.finishCanceller
              · exact h.modEntry.chargeHeld.charge.modGen.evCount.endUnitsOf.killEntry.completeEntry.sendUnpins.finishCanceller.returnEntry
            · split
              · exact h.modEntry.chargeHeld.charge.modGen.evCount.endUnitsOf.killEntry.completeEntry.sendUnpins.finishCanceller
              · exact h.modEntry.chargeHeld.charge.modGen.evCount.endUnitsOf.killEntry.completeEntry.sendUnpins.finishCanceller.returnEntry
          · dsimp only
            split
            · exact h.modEntry.chargeHeld.charge.modGen.evCount.endUnitsOf.killEntry.completeEntry.sendUnpins.finishCanceller
            · exact h.modEntry.chargeHeld.charge.modGen.evCount.endUnitsOf.killEntry.completeEntry.sendUnpins.finishCanceller.returnEntry
      · split
        · dsimp only
          split
          · split
            · exact h.modEntry.chargeHeld.charge.modGen.evCount.endUnitsOf.killEntry.completeEntry.sendUnpins.finishCanceller
            · exact h.modEntry.chargeHeld.charge.modGen.evCount.endUnitsOf.killEntry.completeEntry.sendUnpins.finishCanceller.returnEntry
          · split
            · exact h.modEntry.chargeHeld.charge.modGen.evCount.endUnitsOf.killEntry.completeEntry.sendUnpins.finishCanceller
            · exact h.modEntry.chargeHeld.charge.modGen.evCount.endUnitsOf.killEntry.completeEntry.sendUnpins.finishCanceller.returnEntry
        · dsimp only
          split
          · exact h.modEntry.chargeHeld.charge.modGen.evCount.endUnitsOf.killEntry.completeEntry.sendUnpins.finishCanceller
          · exact h.modEntry.chargeHeld.charge.modGen.evCount.endUnitsOf.killEntry.completeEntry.sendUnpins.finishCanceller.returnEntry

protected theorem endFault {e detail stage : Nat} (h : Keeps s t) : Keeps s (endFault e detail stage t) := by
  unfold endFault
  split
  · exact h
  · split <;> exact h.endEntry

protected theorem releaseUnused (h : Keeps s t) : Keeps s (releaseUnused t) := by
  unfold releaseUnused
  dsimp only
  exact h.modObj.whenS fun h => h.dropDeadUnits

/-! ### Requests and their stages (01, 10) -/

protected theorem refuseRequest {cmd : HostCmd} {f : Fetched} {st detail : Nat} (h : Keeps s t) :
    Keeps s (refuseRequest cmd f st detail t) := by
  unfold refuseRequest
  dsimp only
  split
  · exact h.dmaWrite.cplCmd
  · exact h.cplCmd

protected theorem admitRequest {cmd : HostCmd} {f : Fetched} {fn acct : Nat} {p : Profile} {fs : List Filter} {pins : List (Nat × Nat × Option Nat)} (h : Keeps s t) :
    Keeps s (admitRequest cmd f fn acct p fs pins t) := by
  unfold admitRequest
  dsimp only
  split
  · split
    · split
      · split
        · exact h.drawFree.modGen.evCount.charge.sendPins
        · exact h.modGen.evCount.charge.sendPins
      · split
        · exact h.drawFree.modGen.evCount.charge.sendPins
        · exact h.modGen.evCount.charge.sendPins
    · split
      · split
        · exact h.drawFree.modGen.evCount.charge.sendPins
        · exact h.modGen.evCount.charge.sendPins
      · split
        · exact h.drawFree.modGen.evCount.charge.sendPins
        · exact h.modGen.evCount.charge.sendPins
  · split
    · split
      · split
        · exact h.drawFree.modGen.evCount.charge.sendPins
        · exact h.modGen.evCount.charge.sendPins
      · split
        · exact h.drawFree.modGen.evCount.charge.sendPins
        · exact h.modGen.evCount.charge.sendPins
    · split
      · split
        · exact h.drawFree.modGen.evCount.charge.sendPins
        · exact h.modGen.evCount.charge.sendPins
      · split
        · exact h.drawFree.modGen.evCount.charge.sendPins
        · exact h.modGen.evCount.charge.sendPins

protected theorem requestBody {cmd : HostCmd} {f : Fetched} (h : Keeps s t) : Keeps s (requestBody cmd f t) := by
  unfold requestBody
  split
  · dsimp only
    split <;> exact h.refuseRequest
  · dsimp only
    split
    · exact h.refuseRequest
    · split
      · exact h.refuseRequest
      · exact h.refuseRequest
      · split
        · exact h.refuseRequest
        · split
          · exact h.refuseRequest
          · exact h.admitRequest

protected theorem execRequest {c : HostCmd} (h : Keeps s t) : Answers s (execRequest c t) := by
  refine Keeps.next ?_
  split
  · exact h
  · split
    · exact h
    · rename_i htake
      exact (h.takeCmd htake).requestBody

protected theorem takeText {e : Nat} (h : Keeps s t) : Keeps s (takeText e t) := by
  unfold takeText
  split
  · exact h
  · split
    · exact h
    · split
      · exact h
      · dsimp only
        exact h.modWork.charge.countText

protected theorem inputBody {cmd : HostCmd} {_f : Fetched} (h : Keeps s t) : Keeps s (inputBody cmd _f t).state := by
  unfold inputBody
  split
  · exact h.deny
  · split
    · exact h.deny
    · exact h.modWork.takeText.okWith

protected theorem noteCancel {e : Nat} {cmd : HostCmd} {f : Fetched} (h : Keeps s t) : Keeps s (noteCancel e cmd f t) :=
  h.modEntry

protected theorem cancelBody {cmd : HostCmd} {f : Fetched} (h : Keeps s t) : Keeps s (cancelBody cmd f t).state := by
  unfold cancelBody
  dsimp only
  split
  · exact h.deny
  · split
    · exact h.deny
    · split
      · exact h.deny
      · split
        · exact h.deny
        · dsimp only
          exact h.noteCancel
        · dsimp only
          exact h.noteCancel.endEntry
        · dsimp only
          exact h.noteCancel.endEntry
        · split
          · dsimp only
            exact h.noteCancel.endEntry
          · split
            · dsimp only
              exact h.noteCancel.killEntry
            · dsimp only
              exact h.noteCancel

protected theorem runBody {cmd : HostCmd} {f : Fetched} (h : Keeps s t) : Keeps s (runBody cmd f t).state := by
  unfold runBody
  split
  · exact h.deny
  · dsimp only
    split
    · split
      · exact h.deny
      · split
        · exact h.deny
        · split
          · exact h.deny
          · split
            · exact h.deny
            · dsimp only
              exact h.modGen.evCount.charge.newUnit.sendPins
    · exact h.deny
    · exact h.deny

protected theorem batonReleaseBody {cmd : HostCmd} {_f : Fetched} (h : Keeps s t) : Keeps s (batonReleaseBody cmd _f t).state := by
  unfold batonReleaseBody
  split
  · split
    · split
      · exact h.deny
      · split
        · exact h.deny
        · exact h.releaseBaton.okWith
    · exact h.deny
  · exact h.deny

protected theorem takeTag {e : Nat} (h : Keeps s t) : Keeps s (takeTag e t) := by
  unfold takeTag
  split
  · exact h.modSearchWork.modSearch
  · exact h

protected theorem sendShards {e : Nat} {x : RtEntry} {c : Collection} {p : Profile} (h : Keeps s t) : Keeps s (sendShards e x c p t) := by
  unfold sendShards
  split
  · exact h
  · dsimp only
    exact (h.takeTag.foldS fun _ h => h.sendAll).modSearchWork

protected theorem verifySearch {e : Nat} {c : Collection} {w : SearchWork} (h : Keeps s t) : Keeps s (verifySearch e c w t).2 := by
  unfold verifySearch
  dsimp only
  exact h.drew.selectionRows.chargeStage

protected theorem handSelect {e : Nat} {x : RtEntry} {c : Collection} {p : Profile} (h : Keeps s t) : Keeps s (handSelect e x c p t) := by
  unfold handSelect
  dsimp only
  refine Keeps.evCount (Keeps.modWork ?_)
  by_cases hv : x.work.search.par.verify = true
  · simp only [if_pos hv]
    exact h.drew.selectionRows.modSearch.verifySearch
  · simp only [if_neg hv]
    exact h.drew.selectionRows.modSearch

protected theorem countPack {r : List (List Nat) × Nat × Nat} {tokens : Nat} (h : Keeps s t) : Keeps s (countPack r tokens t) :=
  h.modSearch.evCount.evCount.evCount

protected theorem handPack {e : Nat} {x : RtEntry} {c : Collection} {t' : Template} (h : Keeps s t) : Keeps s (handPack e x c t' t) := by
  unfold handPack
  dsimp only
  exact h.modWork.countPack

protected theorem dropTag {t' : Nat} (h : Keeps s t) : Keeps s (dropTag t' t) := h.modSearch

protected theorem stageUnit {e stage : Nat} {x : RtEntry} {p : Profile} (h : Keeps s t) : Keeps s (stageUnit e stage x p t) := by
  unfold stageUnit
  split
  · split
    · dsimp only
      exact h.newUnit
    · dsimp only
      exact h
  · split
    · split
      · dsimp only
        exact h.newUnit
      · dsimp only
        exact h
    · split
      · dsimp only
        exact h.newUnit
      · dsimp only
        exact h

protected theorem enterGen {e : Nat} (h : Keeps s t) : Keeps s (enterGen e t) := by
  unfold enterGen
  split
  · exact h
  · split
    · dsimp only
      split
      · exact h.endEntry
      · split
        · split
          · split
            · exact h.modEntry.modGen.charge
            · exact h.modEntry
          · split
            · exact h.modEntry.modGen.charge
            · exact h.modEntry
        · split
          · split
            · split
              · exact h.modEntry.modGen.charge.endEntry
              · exact h.modEntry.modGen.charge
            · split
              · exact h.modEntry.endEntry
              · exact h.modEntry
          · split
            · split
              · exact h.modEntry.modGen.charge.endEntry
              · exact h.modEntry.modGen.charge
            · split
              · exact h.modEntry.endEntry
              · exact h.modEntry
    · dsimp only
      split
      · exact h.endEntry
      · split
        · split
          · split
            · exact h.modEntry.modGen.charge
            · exact h.modEntry
          · split
            · exact h.modEntry.modGen.charge
            · exact h.modEntry
        · split
          · split
            · split
              · exact h.modEntry.modGen.charge.endEntry
              · exact h.modEntry.modGen.charge
            · split
              · exact h.modEntry.endEntry
              · exact h.modEntry
          · split
            · split
              · exact h.modEntry.modGen.charge.endEntry
              · exact h.modEntry.modGen.charge
            · split
              · exact h.modEntry.endEntry
              · exact h.modEntry

protected theorem deliver {e : Nat} (h : Keeps s t) : Keeps s (deliver e t) := by
  unfold deliver
  split
  · exact h
  · exact h.dmaWrite.endEntry

protected theorem startSearch {e : Nat} (h : Keeps s t) : Keeps s (startSearch e t) := by
  unfold startSearch
  split
  · exact h
  · split
    · exact h.modSearchWork.sendShards.stageUnit
    · exact h

protected theorem holdSearch {e : Nat} (h : Keeps s t) : Keeps s (holdSearch e t) := h.modSearchWork.modSearch

protected theorem startStage {e stage : Nat} {p : Profile} (h : Keeps s t) : Keeps s (startStage e stage p t) := by
  unfold startStage
  split
  · exact h
  · split
    · dsimp only
      exact h.deliver
    · dsimp only
      exact h.modWork.enterGen
    · dsimp only
      exact h.modWork.takeText
    · split
      · dsimp only
        exact h.modWork.holdSearch
      · dsimp only
        exact h.modWork.startSearch
    · split
      · dsimp only
        exact h.modWork.modSearchWork
      · dsimp only
        exact h.modWork.modSearchWork.takeTag.modSearch
    · split
      · dsimp only
        exact h.modWork.modSearchWork
      · dsimp only
        exact h.modWork
    · dsimp only
      exact h.modWork.stageUnit

protected theorem afterMerge {e : Nat} {x : RtEntry} {p : Profile} (h : Keeps s t) : Keeps s (afterMerge e x p t) := by
  unfold afterMerge
  dsimp only
  split
  · exact h.modSearchWork.modSearch.evCount.startStage
  · split
    · exact h.modSearch.evCount.modSearch.modSearchWork.startStage
    · exact h.modSearch.modSearchWork.startStage

protected theorem oweShards {w : SearchWork} (h : Keeps s t) : Keeps s (oweShards w t) := by
  unfold oweShards
  split
  · exact h.modSearch
  · exact h

protected theorem settleTag {e : Nat} (h : Keeps s t) : Keeps s (settleTag e t) := by
  unfold settleTag
  split
  · exact h
  · split
    · split
      · exact h.dropTag.oweShards.modSearchWork
      · exact h
    · exact h

/-- What the result of a stage hands over was kept. -/
def Handed (s : State) : HandOver → Prop
  | .notYet => True
  | .failed _ _ u => Keeps s u
  | .done u => Keeps s u

protected theorem handTokens {x : RtEntry} (h : Keeps s t) : Handed s (handTokens x t) := by
  unfold handTokens
  split
  · exact h
  · have hand : ∀ b : Bool, Handed s (if b then .failed Status.inputTooLong 0 t else .done t) := fun b => by cases b <;> exact h
    exact hand _
  · exact True.intro

protected theorem handOver {e : Nat} {x : RtEntry} {c : Option Collection} {p : Profile} (h :
    Keeps s t) : Handed s (handOver e x c p t) := by
  unfold handOver
  split
  · split
    · exact h
    · exact True.intro
  · exact h.handTokens
  · split
    · dsimp only
      split
      · exact h.drew.modSearchWork
      · exact h.drew.gatherFlags
    · exact True.intro
  · exact h.modSearchWork.gatherFlags.chargeStage
  · dsimp only
    split
    · exact True.intro
    · split
      · exact h.modSearchWork
      · split
        · exact h.modSearchWork.chargeStage
        · exact h.modSearchWork.chargeStage.selectionRows
  · split
    · exact h
    · exact True.intro
  · split
    · exact h
    · exact True.intro
  · split
    · exact h.modSearchWork.chargeStage
    · exact True.intro
  · split
    · exact h
    · split
      · exact h.drew.modWork
      · exact True.intro
  · exact h.handSelect
  · split
    · exact h.handPack
    · exact True.intro
  · exact True.intro

protected theorem stageBoundary {e : Nat} (h : Keeps s t) : Keeps s (stageBoundary e t) := by
  unfold stageBoundary
  split
  · exact h
  · rename_i x _
    split
    · exact h
    · rename_i p _
      split
      · exact h
      · dsimp only
        have hand := h.handOver (e := e) (x := x) (p := p)
          (c := if modeSearches x.mode then mget t.obj.collections x.work.search.par.coll else none)
        split
        · exact h
        · rename_i heq
          rw [heq] at hand
          refine Keeps.settleTag ?_
          split <;> exact Keeps.endEntry hand
        · rename_i heq
          rw [heq] at hand
          have hended := Keeps.endUnitsOf (e := e) hand
          refine Keeps.settleTag ?_
          split
          · exact hended.endEntry
          · split
            · exact hended.endEntry
            · split
              · exact hended.endEntry
              · split
                · split
                  · exact hended.afterMerge
                  · exact hended
                · exact hended.startStage

protected theorem execEntryFree {e : Nat} (h : Keeps s t) : Answers s (execEntryFree e t) := by
  unfold execEntryFree
  split
  · split
    · exact h.settleTag.modGen.noteFreed.releaseUnused.next
    · exact h.next
  · exact h.next

/-! ### Generation (10) -/

protected theorem execReservationGrant {e : Nat} (h : Keeps s t) : Answers s (execReservationGrant e t) := by
  unfold execReservationGrant
  split
  · split
    · exact h.modEntry.charge.next
    · exact h.next
  · exact h.next

protected theorem expire {es : List Nat} (h : Keeps s t) : Keeps s (expire es t) := by
  unfold expire
  exact h.foldS fun _ h => by
    split
    · split
      · exact h.endEntry
      · exact h
    · exact h

protected theorem takeMembers {l : List (Nat × RtEntry)} {slots room : Nat} (h : Keeps s t) : Keeps s (takeMembers l slots room t).2 := by
  induction l generalizing slots room t with
  | nil => exact h
  | cons x l ih =>
    unfold takeMembers
    split
    · exact h
    · split
      · exact h
      · split
        · exact ih h.modWork
        · refine ih (Keeps.modEntry ?_)
          split
          · exact h.modQp
          · exact h.modQp.modWork.charge

protected theorem storePageList {e : Nat} (h : Keeps s t) : Keeps s (storePageList e t) := by
  unfold storePageList
  split
  · dsimp only
    exact h.storeLines
  · exact h

protected theorem listPages {e pre d : Nat} (h : Keeps s t) : Keeps s (listPages e pre d t) := by
  unfold listPages
  split
  · exact h
  · dsimp only
    exact h.drawPages.modEntry.storePageList.drawPages.modEntry

protected theorem formStep {image dieMask : Nat} {proofing : Bool} (h : Keeps s t) : Keeps s (formStep image dieMask proofing t) := by
  unfold formStep
  split
  · exact h
  · split
    · exact h
    · dsimp only
      split
      · rename_i heq
        exact (congrArg (fun r => Keeps s r.2) heq).mp h.expire.takeMembers
      · rename_i heq
        have htaken : Keeps s _ := (congrArg (fun r => Keeps s r.2) heq).mp h.expire.takeMembers
        exact htaken.newUnit.modGen.foldS fun _ h => h.listPages

protected theorem streamWrite {q : Nat} {b : Bytes} (h : Keeps s t) : Keeps s (streamWrite q b t) := by
  unfold streamWrite
  dsimp only
  split
  · exact h.dmaWrite.modQp.evCount
  · exact h.dmaWrite.modQp.evCount.dmaWrite.modQp.evCount

protected theorem createBaton {e : Nat} (h : Keeps s t) : Keeps s (createBaton e t).2 := by
  unfold createBaton
  split
  · exact h
  · split
    · exact h
    · exact h.modGen.modEntry

protected theorem withdrawLooks {vs : List Verdict} {l : List Look} (h : Keeps s t) : Keeps s (withdrawLooks vs l t) := by
  unfold withdrawLooks
  dsimp only
  exact h.foldS fun _ h => h.modVersion

protected theorem chargeReads {vs : List Verdict} {u : SUnit} {r : StepRec} (h : Keeps s t) : Keeps s (chargeReads vs u r t) := by
  unfold chargeReads
  exact h.foldS fun _ h => by
    dsimp only
    split
    · exact h.charge
    · exact h.charge
    · exact h.chargeUnit

protected theorem commitTokens {e : Nat} {x : RtEntry} {m : StepMember} {last : Nat} {r : StepRec} (h : Keeps s t) :
    Keeps s (commitTokens e x m last r t).2 := by
  unfold commitTokens
  split
  · dsimp only
    exact h
  · dsimp only
    split
    · exact h.modEntry.charge.createBaton.streamWrite.modGen.modObj.evCount.evCount.evCount.evCount.evCount.evCount
    · dsimp only
      exact h.modEntry.charge.streamWrite.modGen.modObj.evCount.evCount.evCount.evCount.evCount.evCount

protected theorem commitMember {m : StepMember} {r : StepRec} (h : Keeps s t) : Keeps s (commitMember m r t).2 := by
  unfold commitMember
  split
  · dsimp only
    exact h
  · split
    · dsimp only
      exact h.modQp
    · split
      · dsimp only
        exact h.charge.modQp.modEntry
      · split
        · split
          · dsimp only
            split
            · exact h.charge.modQp.modEntry.modEntry.modWork.commitTokens
            · dsimp only
              exact h.charge.modQp.modEntry.modEntry.modWork
          · dsimp only
            exact h.charge.modQp.modEntry.modEntry.modWork
        · split
          · dsimp only
            split
            · exact h.charge.modQp.modEntry.modEntry.commitTokens
            · dsimp only
              exact h.charge.modQp.modEntry.modEntry
          · dsimp only
            exact h.charge.modQp.modEntry.modEntry

protected theorem commitAll {r : StepRec} {l : List StepMember} (h : Keeps s t) : Keeps s (commitAll r l t).2 := by
  induction l generalizing t with
  | nil => exact h
  | cons m l ih =>
    unfold commitAll
    dsimp only
    split <;> exact ih h.commitMember

protected theorem writeBack {q : Nat} (h : Keeps s t) : Keeps s (writeBack q t) := h.dmaWrite

protected theorem resetStep {k : Nat} {r : StepRec} {left : List StepMember} (h : Keeps s t) : Keeps s (resetStep k r left t) := by
  unfold resetStep
  dsimp only
  exact h.modGen.modSched

protected theorem restartStep {n : Nat} {avoid : List Nat} (h : Keeps s t) : Keeps s (restartStep n avoid t) := by
  unfold restartStep
  split
  · exact h
  · dsimp only
    exact (h.freeSlots.foldS fun _ h => h.raiseVtime).modSched

protected theorem settleReads {r : StepRec} (h : Keeps s t) : Keeps s (settleReads r t) := by
  unfold settleReads
  split
  · exact h.chargeReads
  · exact h

protected theorem dropFaulted {step : Nat} {r0 : StepRec} {bad : List StepMember} (h : Keeps s t) :
    Keeps s (dropFaulted step r0 bad t) := by
  unfold dropFaulted
  dsimp only
  split
  · exact (h.settleReads.foldS fun _ h => by
      split
      · exact h.modQp.charge.endFault
      · exact h).modGen.endUnit.foldS fun _ h => h.returnEntry
  · exact (h.settleReads.foldS fun _ h => by
      split
      · exact h.modQp.charge.endFault
      · exact h).resetStep.modSched.restartStep

protected theorem cancelAfter {e : Nat} (h : Keeps s t) : Keeps s (cancelAfter e t) := by
  unfold cancelAfter
  split
  · split
    · exact h.endEntry
    · exact h
  · exact h

protected theorem execGenHold {fn : Nat} {value : BitVec 32} (h : Keeps s t) : Answers s (execGenHold fn value t) := by
  unfold execGenHold
  split
  · exact h.modGen.next
  · exact h.next

protected theorem execRtWinLatch {fn : Nat} {value : BitVec 32} (h : Keeps s t) : Answers s (execRtWinLatch fn value t) := by
  unfold execRtWinLatch
  split
  · dsimp only
    exact h.modGen.next
  · exact h.next

/-! ### Positions (10) -/

protected theorem publishTensor {u : SUnit} {ps : List RowPos} {id : Nat} {t' : TensorDesc} {v : Tensor} (h : Keeps s t) :
    Keeps s (publishTensor u ps id t' v t) := by
  unfold publishTensor
  dsimp only
  exact h.foldS fun _ h => h.modWork

protected theorem publishRows {u : SUnit} (h : Keeps s t) : Keeps s (publishRows u t) := by
  unfold publishRows
  split
  · exact h.foldS fun _ h => by
      split
      · split
        · exact h.publishTensor
        · exact h
      · exact h
  · exact h

protected theorem putKv {image block : Nat} {r : RowPos} {row : ERow} (h : Keeps s t) : Keeps s (putKv image block r row t) := by
  unfold putKv
  split
  · exact h.modObj
  · exact h

protected theorem putPaged {u : SUnit} {i : Image} {id : Nat} {t' : TensorDesc} {dims : List Nat} {data scales : Bytes} (h : Keeps s t) :
    Keeps s (putPaged u i id t' dims data scales t) := by
  unfold putPaged
  dsimp only
  exact h.foldS fun _ h => h.foldS fun _ h => by
    split
    · exact h.putKv
    · exact h

protected theorem commitStep {step : Nat} (h : Keeps s t) : Keeps s (commitStep step t) := by
  unfold commitStep
  split
  · exact h
  · split
    · exact h
    · split
      · dsimp only
        exact (((h.publishRows.chargeReads.withdrawLooks.commitAll.foldS fun _ h => h.writeBack).foldS fun _ h => by
          split
          · exact h.lateCancels.endEntry
          · exact h).foldS fun _ h => h.cancelAfter).modMem.modGen.endUnit.evCount.foldS fun _ h => h.returnEntry
      · dsimp only
        exact (((h.withdrawLooks.commitAll.foldS fun _ h => h.writeBack).foldS fun _ h => by
          split
          · exact h.lateCancels.endEntry
          · exact h).foldS fun _ h => h.cancelAfter).modMem.modGen.endUnit.evCount.foldS fun _ h => h.returnEntry

/-! ### The scheduler (14) -/

protected theorem payDebt {u : SUnit} {d : Nat} (h : Keeps s t) : Keeps s (payDebt u d t) :=
  h.foldS fun _ h => h.modAccount

protected theorem modUnit {n : Nat} {f : SUnit → SUnit} (h : Keeps s t) : Keeps s (modUnit n f t) :=
  h.modSched

protected theorem grantSlice {n start : Nat} (h : Keeps s t) : Keeps s (grantSlice n start t) := by
  unfold grantSlice
  split
  · exact h
  · dsimp only
    exact h.modUnit.payDebt

protected theorem wakeCluster {g : Nat} (h : Keeps s t) : Keeps s (wakeCluster g t) := by
  unfold wakeCluster
  split
  · exact h
  · exact h.modCluster.evCount.evCount

protected theorem fillSlots {n i : Nat} {x : SUnit} {l : List (Nat × Nat)} (h : Keeps s t) : Keeps s (fillSlots n x i l t) := by
  induction l generalizing i t with
  | nil => exact h
  | cons p l ih =>
    unfold fillSlots
    dsimp only
    refine ih ?_
    split
    · exact Keeps.evCount (h.wakeCluster.modCluster.same rfl)
    · exact h.wakeCluster.modCluster

protected theorem placeUnit {n : Nat} {slots : List (Nat × Nat)} (h : Keeps s t) : Keeps s (placeUnit n slots t) := by
  unfold placeUnit
  split
  · exact h
  · split
    · dsimp only
      exact h.chargeWait.fillSlots.modUnit.evCount.grantSlice
    · dsimp only
      exact h.chargeWait.fillSlots.modUnit.evCount.evCount.grantSlice

protected theorem withoutUnit {n : Nat} {u : SUnit} (h : Keeps s t) : Keeps s (withoutUnit n u t) := h.freeSlots.modBoot

protected theorem chargeVtime {u : SUnit} {ns : Nat} (h : Keeps s t) : Keeps s (chargeVtime u ns t) :=
  h.foldS fun _ h => h.modAccount

protected theorem modCtxs {u : SUnit} {f : Ctx → Ctx} (h : Keeps s t) : Keeps s (modCtxs u f t) :=
  h.foldS fun _ h => h.modCluster

protected theorem runFor {n ns : Nat} (h : Keeps s t) : Keeps s (runFor n ns t) := by
  unfold runFor
  split
  · exact h
  · exact h.modUnit.modCtxs.chargeVtime

protected theorem execSliceEnd {n : Nat} (h : Keeps s t) : Answers s (execSliceEnd n t) := by
  unfold execSliceEnd
  split
  · split
    · exact h.next
    · exact h.runFor.modUnit.next
  · exact h.next

protected theorem addDebt {u : SUnit} {d : Nat} (h : Keeps s t) : Keeps s (addDebt u d t) := by
  unfold addDebt
  dsimp only
  exact (h.foldS fun _ h => h.modAccount).modSched.evCount

protected theorem saveUnit {n : Nat} {counted : Bool} (h : Keeps s t) : Keeps s (saveUnit n counted t) := by
  unfold saveUnit
  split
  · exact h
  · dsimp only
    exact ((((h.whenS fun h => h.addDebt).freeSlots.foldS fun _ h => h.raiseVtime).modUnit.foldS fun _ h => h.charge).evCount.foldS fun _ h => h.evCount).modSched

protected theorem tryPlace {pref : List Nat} {n : Nat} {u : State} (h : Keeps s t) (e : tryPlace pref n t = some u) : Keeps s u := by
  unfold tryPlace at e
  split at e
  · cases e
  · split at e
    · cases e
    · obtain ⟨l, -, rfl⟩ := Option.map_eq_some_iff.mp e
      exact h.placeUnit

protected theorem leaveSlot {n : Nat} {x : SUnit} (h : Keeps s t) : Keeps s (leaveSlot n x t) := by
  unfold leaveSlot
  dsimp only
  split
  · have hleft := fun b => (h.saveUnit (n := n) (counted := b)).passCycles (n := 1)
    rename_i w b _
    cases hplace : tryPlace (x.slots.map Prod.fst) w (passCycles 1 (saveUnit n true t)) with
    | none => exact hleft true
    | some u => exact (hleft true).tryPlace hplace
  · split
    · exact h.saveUnit
    · exact h

protected theorem copyOutputs {x : RtEntry} {c : Option Ctx} (h : Keeps s t) : Keeps s (copyOutputs x c t) := by
  unfold copyOutputs
  exact h.foldS fun _ h => by
    split
    · split
      · exact h.dmaWrite
      · exact h
    · exact h

protected theorem runAtPoint {e n : Nat} {u : SUnit} {done : Bool} (h : Keeps s t) : Keeps s (runAtPoint e n u done t) := by
  unfold runAtPoint
  split
  · exact h
  · split
    · exact h.endEntry
    · split
      · exact h.lateCancels.endEntry
      · split
        · exact h.lateCancels.endEntry
        · split
          · exact h.lateCancels.endEntry
          · split
            · exact h.lateCancels.copyOutputs.endEntry
            · split
              · exact h.endEntry
              · exact h.leaveSlot

protected theorem endDisabled {step : Nat} (h : Keeps s t) : Keeps s (endDisabled step t) := by
  unfold endDisabled
  split
  · exact h
  · exact h.foldS fun _ h => by
      split
      · split
        · exact h.endEntry
        · exact h
      · exact h

protected theorem endStepFault {k n detail : Nat} {r : StepRec} (h : Keeps s t) : Keeps s (endStepFault k n detail r t) := by
  unfold endStepFault
  dsimp only
  exact h.settleReads.endUnit.modGen.foldS fun _ h => by
    split
    · exact h.modQp.endFault
    · exact h

protected theorem rerunStep {k n : Nat} {u : SUnit} {cause : Nat} (h : Keeps s t) : Keeps s (rerunStep k n u cause t) := by
  unfold rerunStep
  split
  · exact h
  · split
    · exact h.modGen.resetStep.restartStep
    · exact h.endStepFault

protected theorem failUnit {n detail : Nat} (h : Keeps s t) : Keeps s (failUnit n detail t) := by
  unfold failUnit
  split
  · exact h
  · split
    · exact h.endFault
    · exact h.endFault
    · split
      · exact h.endStepFault
      · exact h

protected theorem modShare {n share : Nat} {f : Ctx → Ctx} (h : Keeps s t) : Keeps s (modShare n share f t) := by
  unfold modShare
  split
  · exact h
  · split
    · exact h.modUnit
    · split
      · exact h.modCluster
      · exact h

protected theorem tearDownFor {bad : List Nat} {g slot cause : Nat} (h : Keeps s t) : Keeps s (tearDownFor bad g slot cause t) := by
  unfold tearDownFor
  split
  · exact h
  · split
    · exact h.modCluster
    · split
      · split
        · dsimp only
          exact (h.foldS fun _ h => h.charge).modSched.evCount.recordEvent.modCluster.endFault
        · dsimp only
          exact (h.foldS fun _ h => h.charge).modSched.evCount.recordEvent.modCluster.endFault
        · dsimp only
          split
          · exact (h.foldS fun _ h => h.charge).modSched.evCount.recordEvent.modCluster
          · exact (h.foldS fun _ h => h.charge).modSched.evCount.recordEvent.modCluster.rerunStep
      · split
        · dsimp only
          exact h.modSched.evCount.recordEvent.modCluster.endFault
        · dsimp only
          exact h.modSched.evCount.recordEvent.modCluster.endFault
        · dsimp only
          split
          · exact h.modSched.evCount.recordEvent.modCluster
          · exact h.modSched.evCount.recordEvent.modCluster.dropFaulted

protected theorem tearDown {g slot cause : Nat} (h : Keeps s t) : Keeps s (tearDown g slot cause t) := h.tearDownFor

protected theorem watchdogTrip {g slot : Nat} {c : Ctx} (h : Keeps s t) : Keeps s (watchdogTrip g slot c t) :=
  h.runFor.tearDown

protected theorem nextJob {k n : Nat} {u : SUnit} (h : Keeps s t) : Keeps s (nextJob k n u t) := by
  unfold nextJob
  split
  · exact h
  · dsimp only
    exact h.publishRows.modGen.modUnit.foldS fun _ h => h.modCluster

protected theorem stepAtPoint {k n : Nat} {u : SUnit} {done : Bool} (h : Keeps s t) : Keeps s (stepAtPoint k n u done t) := by
  unfold stepAtPoint
  dsimp only
  split
  · split
    · exact h.endDisabled.nextJob.leaveSlot
    · exact h.endDisabled.leaveSlot
  · split
    · exact h.endDisabled.nextJob.leaveSlot
    · exact h.endDisabled.leaveSlot

protected theorem execPreemptPointReached {n ran : Nat} (h : Keeps s t) : Answers s (execPreemptPointReached n ran t) := by
  unfold execPreemptPointReached
  split
  · split
    · dsimp only
      split
      · exact h.next
      · exact h.watchdogTrip.next
    · dsimp only
      split
      · exact h.next
      · split
        · exact h.runFor.modCtxs.modUnit.next
        · split
          · exact h.runFor.modCtxs.modUnit.runAtPoint.next
          · exact h.runFor.modCtxs.modUnit.leaveSlot.next
          · exact h.runFor.modCtxs.modUnit.stepAtPoint.next
  · exact h.next

protected theorem execWatchdogExpiry {cluster slot : Nat} (h : Keeps s t) : Answers s (execWatchdogExpiry cluster slot t) := by
  unfold execWatchdogExpiry
  split
  · split
    · exact h.next
    · exact h.watchdogTrip.next
  · exact h.next

protected theorem heatOne {n : Nat} (h : Keeps s t) : Keeps s (heatOne t n) := by
  unfold heatOne
  split
  · exact h
  · split
    · exact h
    · split
      · rename_i hplace
        exact h.tryPlace hplace
      · split
        · exact h.modUnit
        · exact h

protected theorem expireInput (h : Keeps s t) : Keeps s (expireInput t) := by
  unfold expireInput
  exact h.foldS fun _ h => by
    split
    · split
      · exact h.endEntry
      · exact h
    · exact h

protected theorem renewSlices (h : Keeps s t) : Keeps s (renewSlices t) := by
  unfold renewSlices
  exact h.foldS fun _ h => by
    split
    · split
      · split
        · exact h.grantSlice
        · exact h
      · exact h
    · exact h

protected theorem leaveMarked (h : Keeps s t) : Keeps s (leaveMarked t) := by
  unfold leaveMarked
  exact h.foldS fun _ h => by
    split
    · split
      · exact h.leaveSlot
      · exact h
    · exact h

protected theorem execHeat (h : Keeps s t) : Answers s (execHeat t) := by
  unfold execHeat
  dsimp only
  exact (h.advanceTo.expire.expireInput.foldS fun _ h => h.heatOne).leaveMarked.renewSlices.modSched.evCount.next

protected theorem execSchedHold {fn : Nat} {value : BitVec 32} (h : Keeps s t) : Answers s (execSchedHold fn value t) := by
  unfold execSchedHold
  split
  · exact h.modSched.next
  · exact h.next

protected theorem execAcctWinLatch {fn : Nat} {value : BitVec 32} (h : Keeps s t) : Answers s (execAcctWinLatch fn value t) := by
  unfold execAcctWinLatch
  split
  · exact h.modSched.next
  · exact h.next

/-! ### Pacers (19) -/

protected theorem pacerRecord {code p r : Nat} {payload : List Nat} (h : Keeps s t) : Keeps s (pacerRecord code p r payload t) := by
  unfold pacerRecord
  dsimp only
  exact h.modMgmt.recordFull

protected theorem beginRecord {code p r : Nat} (h : Keeps s t) : Keeps s (beginRecord code p r t).2 := by
  unfold beginRecord
  dsimp only
  split
  · dsimp only
    exact h.modMgmt
  · dsimp only
    exact h.pacerRecord.modMgmt

protected theorem beginClamp {p r : Nat} {src : Nat × Nat × Nat} (h : Keeps s t) : Keeps s (beginClamp p r src t) := by
  unfold beginClamp
  dsimp only
  exact h.beginRecord.modMgmt.evCount

protected theorem endClamp {c : Clamp} (h : Keeps s t) : Keeps s (endClamp c t) := by
  unfold endClamp
  split
  · dsimp only
    exact h.modMgmt.pacerRecord
  · dsimp only
    exact h.modMgmt

protected theorem leaveClamp {src : Nat × Nat × Nat} {c : Clamp} (h : Keeps s t) : Keeps s (leaveClamp src c t) := by
  unfold leaveClamp
  dsimp only
  split
  · exact h.endClamp
  · exact h.modMgmt

protected theorem joinClamp {p r : Nat} {src : Nat × Nat × Nat} (h : Keeps s t) : Keeps s (joinClamp p r src t) := by
  unfold joinClamp
  split
  · split
    · exact h
    · exact h.modMgmt
  · exact h.beginClamp

protected theorem holdOutput {p : Nat} {src : Nat × Nat × Nat} {rs : List Nat} (h : Keeps s t) : Keeps s (holdOutput p src rs t) := by
  unfold holdOutput
  dsimp only
  exact (h.foldS fun _ h => h.leaveClamp).foldS fun _ h => h.joinClamp

protected theorem endRowConflicts {k : Nat} {v : Option Nat} (h : Keeps s t) : Keeps s (endRowConflicts k v t) :=
  h.foldS fun _ h => h.holdOutput

protected theorem execClockPacerStep {power : Nat} (h : Keeps s t) : Answers s (execClockPacerStep power t) := by
  unfold execClockPacerStep
  split
  · dsimp only
    exact (h.advanceTo.drawFree.foldS fun _ h => h.modCluster).holdOutput.next
  · dsimp only
    exact h.next

protected theorem execAdmissionPacer {prio want : Nat} (h : Keeps s t) : Answers s (execAdmissionPacer prio want t) := by
  unfold execAdmissionPacer
  split
  · dsimp only
    exact h.modMgmt.holdOutput.next
  · exact h.next

protected theorem execSafetyOverrideEnter {q : SafetyQuantity} {value : Nat} (h : Keeps s t) :
    Answers s (execSafetyOverrideEnter q value t) := by
  unfold execSafetyOverrideEnter
  split
  · dsimp only
    exact h.beginRecord.modMgmt.next
  · exact h.next

protected theorem execSafetyOverrideStep (h : Keeps s t) : Answers s (execSafetyOverrideStep t) := by
  unfold execSafetyOverrideStep
  split
  · exact h.next
  · dsimp only
    exact (h.advanceTo.foldS fun _ h => h.modCluster).next

protected theorem execSafetyOverrideLeave {q : SafetyQuantity} {value : Nat} (h : Keeps s t) :
    Answers s (execSafetyOverrideLeave q value t) := by
  unfold execSafetyOverrideLeave
  split
  · split
    · split
      · dsimp only
        exact h.modMgmt.pacerRecord.next
      · dsimp only
        exact h.modMgmt.next
    · exact h.next
  · exact h.next

/-! ### Tables (11) -/

protected theorem tableCreateBody {cmd : HostCmd} (h : Keeps s t) : Keeps s (tableCreateBody cmd t).state := by
  unfold tableCreateBody
  split
  · exact h.denyRo
  · split
    · exact h.deny
    · split
      · exact h.deny
      · split
        · exact h.deny
        · split
          · exact h.deny
          · exact h.modObj.acceptWrites.okWith

protected theorem tableDeleteBody {cmd : HostCmd} (h : Keeps s t) : Keeps s (tableDeleteBody cmd t).state := by
  unfold tableDeleteBody
  split
  · exact h.deny
  · exact h.modTable.endRowConflicts.releaseUnused.okWith

protected theorem reclaimFor {need : Nat} {l : List Nat} (h : Keeps s t) : Keeps s (reclaimFor need l t) := by
  induction l generalizing t with
  | nil => exact h
  | cons k l ih =>
    unfold reclaimFor
    split
    · exact h
    · exact ih h.reclaimLease

protected theorem fitLeases (h : Keeps s t) : Keeps s (fitLeases t) := h.reclaimFor

protected theorem modHot {slot v row : Nat} {f : HotRow → HotRow} (h : Keeps s t) : Keeps s (modHot slot v row f t) :=
  h.modVersion

protected theorem startPromotion {slot v row : Nat} {l : List Nat} (h : Keeps s t) : Keeps s (startPromotion slot v row l t) := by
  unfold startPromotion
  split
  · exact h
  · dsimp only
    exact h.modVersion.modTable.evCount

protected theorem startDemotion {slot v row : Nat} (h : Keeps s t) : Keeps s (startDemotion slot v row t) := by
  unfold startDemotion
  dsimp only
  exact h.modHot.modTable.evCount

protected theorem demoteRow {slot v row : Nat} (h : Keeps s t) : Keeps s (demoteRow slot v row t) := by
  unfold demoteRow
  split
  · split
    · exact h.startDemotion
    · exact h.modHot
  · exact h

protected theorem drainTable {slot : Nat} {t' : Table} (h : Keeps s t) : Keeps s (drainTable slot t' t) :=
  h.foldS fun _ h => h.foldS fun _ h => h.demoteRow

protected theorem drainReplicas (h : Keeps s t) : Keeps s (drainReplicas t) := h.foldS fun _ h => h.drainTable

protected theorem execRowPromote {table version row count : Nat} (h : Keeps s t) :
    Answers s (execRowPromote table version row count t) := by
  unfold execRowPromote
  split
  · exact h.next
  · split
    · exact h.next
    · split
      · split
        · exact h.next
        · exact h.modHot.next
      · dsimp only
        exact h.startPromotion.holdOutput.fitLeases.next

protected theorem execPromotionSnapshotsDone {table version row : Nat} (h : Keeps s t) :
    Answers s (execPromotionSnapshotsDone table version row t) := by
  unfold execPromotionSnapshotsDone
  split
  · split
    · split
      · exact h.modHot.next
      · exact h.next
    · exact h.next
  · exact h.next

protected theorem landedAdd {slot v row : Nat} {ds : List Int} {x : Table} {y : Version} {old : Option Bytes} {log : Bool} (h :
    Keeps s t) :
    Keeps s (applyAdd.land slot v row ds x y old log t).2 := by
  unfold applyAdd.land
  refine Keeps.evCount (Keeps.modTable ?_)
  split
  · exact h.modVersion.modHot
  · exact h.modVersion

protected theorem applyAdd {slot v row : Nat} {a : HeldAdd} (h : Keeps s t) : Keeps s (applyAdd slot v row a t).2 := by
  unfold applyAdd
  dsimp only
  split
  · exact h
  · split
    · exact h.modTable.evCount
    · split
      · exact h.modTable.evCount
      · split
        · exact h.modTable.evCount
        · split
          · split
            · exact h.modHot
            · exact h.landedAdd
          · exact h.landedAdd

protected theorem noteDrop {e : Nat} {r : AddEnd} (h : Keeps s t) : Keeps s (noteDrop e r t) := by
  unfold noteDrop
  split
  · exact h.modWork
  · exact h.modWork
  · exact h

protected theorem addDone {unit share : Nat} (h : Keeps s t) : Keeps s (addDone unit share t) := h.modShare

protected theorem completeHeld {cmd : HeldAdd} {r : AddEnd} (h : Keeps s t) : Keeps s (completeHeld cmd r t) := by
  unfold completeHeld
  split
  · split
    · split
      · dsimp only
        exact h.noteDrop.addDone.sendAns
      · dsimp only
        exact h.noteDrop.addDone
    · split
      · dsimp only
        exact h.noteDrop.sendAns
      · dsimp only
        exact h.noteDrop
  · split
    · split
      · dsimp only
        exact h.addDone.sendAns
      · dsimp only
        exact h.addDone
    · split
      · dsimp only
        exact h.sendAns
      · dsimp only
        exact h

protected theorem releaseHeld {slot v row : Nat} {l : List HeldAdd} (h : Keeps s t) : Keeps s (releaseHeld slot v row l t) := by
  unfold releaseHeld
  exact h.foldS fun _ h => by
    dsimp only
    exact h.applyAdd.completeHeld

protected theorem takeWanted {slot v row : Nat} (h : Keeps s t) : Keeps s (takeWanted slot v row t) := by
  unfold takeWanted
  split
  · split
    · split
      · dsimp only
        exact h.startDemotion
      · dsimp only
        exact h.modHot
    · dsimp only
      split
      · exact h.startDemotion
      · exact h
  · exact h

protected theorem execPromotionLogApplied {table version row : Nat} (h : Keeps s t) :
    Answers s (execPromotionLogApplied table version row t) := by
  unfold execPromotionLogApplied
  split
  · split
    · split
      · dsimp only
        exact h.modHot.releaseHeld.takeWanted.next
      · exact h.next
    · exact h.next
  · exact h.next

protected theorem execRowDemote {table version row : Nat} (h : Keeps s t) : Answers s (execRowDemote table version row t) := by
  unfold execRowDemote
  split
  · split
    · split
      · dsimp only
        exact h.holdOutput.demoteRow.next
      · dsimp only
        exact h.holdOutput.next
    · dsimp only
      exact h.holdOutput.demoteRow.next
  · exact h.next

protected theorem execDemotionReadsDone {table version row : Nat} (h : Keeps s t) :
    Answers s (execDemotionReadsDone table version row t) := by
  unfold execDemotionReadsDone
  split
  · split
    · split
      · split
        · split
          · dsimp only
            exact h.modVersion.next
          · dsimp only
            exact h.modVersion.startPromotion.holdOutput.fitLeases.next
        · dsimp only
          exact h.modVersion.next
      · exact h.next
    · exact h.next
  · exact h.next

protected theorem deltaArrive {slot v row src : Nat} {ds : List RowDelta} (h : Keeps s t) :
    Keeps s (deltaArrive slot v row src ds t).2 := by
  unfold deltaArrive
  split
  · dsimp only
    exact h
  · exact h.modTable.applyAdd

protected theorem execRowDeltaArrive {table version row : Nat} {deltas : List RowDelta} {src : Nat} (h : Keeps s t) :
    Answers s (execRowDeltaArrive table version row deltas src t) := by
  unfold execRowDeltaArrive
  split
  · exact h.next
  · split
    · exact h.next
    · split
      · exact h.next
      · split
        · exact h.modTable.evCount.next
        · dsimp only
          exact h.deltaArrive.noteDrop.next

protected theorem versionNewBody {cmd : HostCmd} (h : Keeps s t) : Keeps s (versionNewBody cmd t).state := by
  unfold versionNewBody
  split
  · exact h.deny
  · split
    · exact h.denyRo
    · split
      · dsimp only
        split <;> exact h.deny
      · dsimp only
        split
        · exact h.deny
        · split
          · exact h.deny
          · split
            · split
              · exact h.deny
              · exact h.modTable.acceptWrites.okWith
            · split
              · exact h.deny
              · exact h.modTable.acceptWrites.okWith

protected theorem execVersionNew {cmd : HostCmd} (h : Keeps s t) : Answers s (execVersionNew cmd t) := by
  unfold execVersionNew
  split
  · exact (h.runCmd fun _ h => h.versionNewBody).next
  · exact h.next

protected theorem versionSwitchBody {cmd : HostCmd} (h : Keeps s t) : Keeps s (versionSwitchBody cmd t).state := by
  unfold versionSwitchBody
  split
  · exact h.deny
  · dsimp only
    split
    · exact h.deny
    · split
      · exact h.deny
      · exact h.modTable.okWith

protected theorem execVersionSwitch {cmd : HostCmd} (h : Keeps s t) : Answers s (execVersionSwitch cmd t) := by
  unfold execVersionSwitch
  split
  · exact (h.runCmd fun _ h => h.versionSwitchBody).next
  · exact h.next

protected theorem retireVersion {k v : Nat} (h : Keeps s t) : Keeps s (retireVersion k v t) := by
  unfold retireVersion
  dsimp only
  exact (h.modVersion.endRowConflicts.foldS fun _ h => h.demoteRow).releaseUnused

protected theorem versionRetireBody {cmd : HostCmd} (h : Keeps s t) : Keeps s (versionRetireBody cmd t).state := by
  unfold versionRetireBody
  split
  · exact h.deny
  · split
    · exact h.deny
    · split
      · exact h.deny
      · exact h.retireVersion.okWith

protected theorem execVersionRetire {cmd : HostCmd} (h : Keeps s t) : Answers s (execVersionRetire cmd t) := by
  unfold execVersionRetire
  split
  · exact (h.runCmd fun _ h => h.versionRetireBody).next
  · exact h.next

protected theorem applyPin {k v first count n : Nat} (h : Keeps s t) : Keeps s (applyPin k v first count n t) := by
  unfold applyPin
  exact h.foldS fun _ h => by
    split
    · split
      · exact h
      · split
        · dsimp only
          exact h.modHot.startDemotion
        · dsimp only
          exact h.modHot
    · exact h

protected theorem rowPinBody {cmd : HostCmd} (h : Keeps s t) : Keeps s (rowPinBody cmd t).state := by
  unfold rowPinBody
  split
  · exact h.deny
  · split
    · dsimp only
      split
      · exact h.deny
      · split
        · exact h.deny
        · split <;> exact h.deny
    · dsimp only
      split
      · exact h.deny
      · split
        · exact h.deny
        · split
          · exact h.deny
          · exact h.modTable.applyPin.okWith

protected theorem execRowPin {cmd : HostCmd} (h : Keeps s t) : Answers s (execRowPin cmd t) := by
  unfold execRowPin
  split
  · exact (h.runCmd fun _ h => h.rowPinBody).next
  · exact h.next

protected theorem writeRowBack {slot version row : Nat} (h : Keeps s t) : Keeps s (writeRowBack slot version row t) := by
  unfold writeRowBack
  split
  · dsimp only
    exact h.modVersion.acceptWrites
  · dsimp only
    exact h.modVersion

protected theorem evictRow {d : DirtyRow} (h : Keeps s t) : Keeps s (evictRow d t) := h.writeRowBack

protected theorem evictFor {need : Nat} {l : List DirtyRow} (h : Keeps s t) : Keeps s (evictFor need l t) := by
  induction l generalizing t with
  | nil => exact h
  | cons d l ih =>
    unfold evictFor
    split
    · exact h
    · exact ih h.evictRow

protected theorem lookupRow {slot v row : Nat} (h : Keeps s t) : Keeps s (lookupRow slot v row t).2 := by
  unfold lookupRow
  split
  · dsimp only
    exact h
  · split
    · dsimp only
      exact h.evCount
    · dsimp only
      exact h.evCount.modTable.evCount
    · dsimp only
      exact h.evCount.modTable.evCount

protected theorem execDirtyWriteback {table version row : Nat} (h : Keeps s t) : Answers s (execDirtyWriteback table version row t) := by
  unfold execDirtyWriteback
  split
  · split
    · exact h.next
    · exact h.writeRowBack.next
  · exact h.next

/-! ### Profiles, tokenizers and templates (01, 06, 09) -/

protected theorem placeProfile {id : Nat} {p : Option Profile} (h : Keeps s t) : Keeps s (placeProfile id p t) :=
  h.modObj.releaseUnused

protected theorem applyProfile {id : Nat} {record : Bytes} (h : Keeps s t) : Keeps s (applyProfile id record t).2 := by
  unfold applyProfile
  split
  · split
    · dsimp only
      exact h.placeProfile
    · dsimp only
      exact h
  · split
    · dsimp only
      exact h.placeProfile
    · dsimp only
      exact h

protected theorem profileChange {cmd : HostCmd} {f : Fetched} {id : Nat} {record : Bytes} (h : Keeps s t) :
    Keeps s (profileChange cmd f id record t).state := by
  unfold profileChange
  dsimp only
  split
  · dsimp only
    exact h.modObj
  · dsimp only
    exact h.applyProfile

protected theorem execProfileLoad {cmd : HostCmd} (h : Keeps s t) : Answers s (execProfileLoad cmd t) := by
  unfold execProfileLoad
  exact (h.runCmd fun _ h => by
    dsimp only
    split
    · exact h.profileChange
    · exact h.deny).next

protected theorem execProfileUnload {cmd : HostCmd} (h : Keeps s t) : Answers s (execProfileUnload cmd t) := by
  unfold execProfileUnload
  exact (h.runCmd fun _ h => by
    split
    · exact h.profileChange
    · exact h.deny).next

protected theorem execProfileLoadRelease {profile : Nat} (h : Keeps s t) : Answers s (execProfileLoadRelease profile t) := by
  unfold execProfileLoadRelease
  dsimp only
  split
  · exact h.next
  · split
    · exact h.releaseUnused.modObj.applyProfile.complete.next
    · exact h.next

protected theorem execTokenizerLoad {cmd : HostCmd} (h : Keeps s t) : Answers s (execTokenizerLoad cmd t) := by
  unfold execTokenizerLoad
  exact (h.runCmd fun _ h => by
    split
    · split
      · exact h.deny
      · exact h.modObj.okWith
    · exact h.deny).next

protected theorem execTokenizerUnload {cmd : HostCmd} (h : Keeps s t) : Answers s (execTokenizerUnload cmd t) := by
  unfold execTokenizerUnload
  exact (h.runCmd fun _ h => by
    split
    · exact h.deny
    · split
      · exact h.deny
      · exact h.modObj.okWith).next

protected theorem execTemplateLoad {cmd : HostCmd} (h : Keeps s t) : Answers s (execTemplateLoad cmd t) := by
  unfold execTemplateLoad
  exact (h.runCmd fun _ h => by
    split
    · exact h.deny
    · split
      · exact h.deny
      · exact h.modObj.okWith).next

protected theorem execTemplateUnload {cmd : HostCmd} (h : Keeps s t) : Answers s (execTemplateUnload cmd t) := by
  unfold execTemplateUnload
  exact (h.runCmd fun _ h => by
    split
    · exact h.deny
    · split
      · exact h.deny
      · exact h.modObj.okWith).next

/-! ### Collections and ingest (07) -/

protected theorem execCollectionCreate {cmd : HostCmd} (h : Keeps s t) : Answers s (execCollectionCreate cmd t) := by
  unfold execCollectionCreate
  exact (h.runCmd fun _ h => by
    split
    · exact h.denyRo
    · dsimp only
      split
      · exact h.deny
      · split
        · exact h.modObj.acceptWrites.fitLeases.okWith
        · exact h.deny).next

protected theorem modColl {id : Nat} {f : Collection → Collection} (h : Keeps s t) : Keeps s (modColl id f t) :=
  h.modObj

protected theorem writeColl {id : Nat} {f : Collection → Collection} (h : Keeps s t) : Keeps s (writeColl id f t) := by
  unfold writeColl
  split
  · exact h.modColl.acceptWrites
  · exact h

protected theorem removeColl {id : Nat} {c : Collection} (h : Keeps s t) : Keeps s (removeColl id c t) := by
  unfold removeColl
  dsimp only
  exact h.modObj.modGen.modSearch.releaseUnused

protected theorem execCollectionDelete {cmd : HostCmd} (h : Keeps s t) : Answers s (execCollectionDelete cmd t) := by
  unfold execCollectionDelete
  exact (h.runCmd fun _ h => by
    split
    · exact h.denyRo
    · split
      · exact h.deny
      · split
        · exact h.deny
        · split
          · exact h.deny
          · exact h.removeColl.okWith).next

protected theorem abortSession {id status : Nat} {written : Bool} (h : Keeps s t) : Keeps s (abortSession id status written t) := by
  unfold abortSession
  split
  · exact h
  · split
    · exact h
    · split
      · split
        · dsimp only
          exact (h.writeColl.whenS fun h => h.acceptWrites).complete
        · dsimp only
          exact h.writeColl.whenS fun h => h.acceptWrites
      · split
        · dsimp only
          exact (h.writeColl.whenS fun h => h.acceptWrites).complete
        · dsimp only
          exact h.writeColl.whenS fun h => h.acceptWrites

protected theorem thawCollections (h : Keeps s t) : Keeps s (thawCollections t) := by
  unfold thawCollections
  split
  · exact h
  · exact h.foldS fun _ h => h.writeColl.acceptWrites

protected theorem ingestOpenBody {cmd : HostCmd} (h : Keeps s t) : Keeps s (ingestOpenBody cmd t).state := by
  unfold ingestOpenBody
  split
  · exact h.denyRo
  · dsimp only
    split
    · exact h.deny
    · split
      · exact h.deny
      · split
        · exact h.deny
        · split
          · exact h.denyRo
          · split
            · exact h.deny
            · exact h.modColl.okWith

protected theorem ingestOpBody {cmd : HostCmd} {f : Fetched} (h : Keeps s t) : Keeps s (ingestOpBody cmd f t).state := by
  unfold ingestOpBody
  split
  · exact h.denyRo
  · split
    · dsimp only
      split
      · exact h.deny
      · split <;> exact h.deny
    · dsimp only
      split
      · exact h.deny
      · split
        · exact h.deny
        · split
          · exact h.deny
          · split
            · exact h.writeColl.okWith
            · split
              · exact h.deny
              · split
                · exact h.deny
                · exact h.writeColl.okWith

protected theorem ingestCommitBody {cmd : HostCmd} {f : Fetched} (h : Keeps s t) : Keeps s (ingestCommitBody cmd f t).state := by
  unfold ingestCommitBody
  split
  · exact h.denyRo
  · dsimp only
    split
    · exact h.deny
    · split
      · exact h.deny
      · split
        · exact h.deny
        · dsimp only
          exact h.modColl

protected theorem execCommitDurable {coll : Nat} (h : Keeps s t) : Answers s (execCommitDurable coll t) := by
  unfold execCommitDurable
  split
  · exact h.next
  · split
    · exact h.next
    · split
      · exact h.next
      · exact h.modColl.acceptWrites.complete.next

protected theorem ingestAbortBody {cmd : HostCmd} (h : Keeps s t) : Keeps s (ingestAbortBody cmd t).state := by
  unfold ingestAbortBody
  dsimp only
  split
  · exact h.deny
  · split
    · split <;> exact h.deny
    · exact h.abortSession.okWith

protected theorem dropFilter {id : Nat} (h : Keeps s t) : Keeps s (dropFilter id t) := by
  unfold dropFilter
  split
  · exact h
  · exact h.modObj

protected theorem filterRegisterBody {cmd : HostCmd} (h : Keeps s t) : Keeps s (filterRegisterBody cmd t).state := by
  unfold filterRegisterBody
  dsimp only
  split
  · exact h.deny
  · split
    · exact h.deny
    · split
      · exact h.deny
      · exact h.dropFilter.modObj.fitLeases.okWith

protected theorem execFilterUnregister {cmd : HostCmd} (h : Keeps s t) : Answers s (execFilterUnregister cmd t) := by
  unfold execFilterUnregister
  exact (h.runCmd fun _ h => by
    dsimp only
    split
    · exact h.deny
    · split
      · exact h.dropFilter.okWith
      · exact h.deny).next

/-! ### Accounts and functions (14, 15) -/

protected theorem replaceKeys {a : Nat} (h : Keeps s t) : Keeps s (replaceKeys a t) := h.modSched.freshKeys

protected theorem execAccountCreate {cmd : HostCmd} (h : Keeps s t) : Answers s (execAccountCreate cmd t) := by
  unfold execAccountCreate
  exact (h.runCmd fun _ h => by
    split
    · exact h.deny
    · split
      · exact h.deny
      · split
        · exact h.deny
        · split
          · exact h.deny
          · exact h.modSched.freshKeys.okWith).next

protected theorem execAccountUpdate {cmd : HostCmd} (h : Keeps s t) : Answers s (execAccountUpdate cmd t) := by
  unfold execAccountUpdate
  exact (h.runCmd fun _ h => by
    split
    · exact h.deny
    · split
      · exact h.modAccount.okWith
      · exact h.deny).next

protected theorem execAccountDelete {cmd : HostCmd} (h : Keeps s t) : Answers s (execAccountDelete cmd t) := by
  unfold execAccountDelete
  exact (h.runCmd fun _ h => by
    dsimp only
    split
    · exact h.deny
    · split
      · exact h.deny
      · exact h.replaceKeys.acctLog.modSched.okWith).next

protected theorem execAccountScrubEnd {account : Nat} (h : Keeps s t) : Answers s (execAccountScrubEnd account t) := by
  unfold execAccountScrubEnd
  split
  · exact h.modSched.modMem.next
  · exact h.next

protected theorem execQpBind {cmd : HostCmd} (h : Keeps s t) : Answers s (execQpBind cmd t) := by
  unfold execQpBind
  exact (h.runCmd fun _ h => by
    dsimp only
    split
    · exact h.deny
    · exact h.modQp.okWith).next

protected theorem execQpUnbind {cmd : HostCmd} (h : Keeps s t) : Answers s (execQpUnbind cmd t) := by
  unfold execQpUnbind
  exact (h.runCmd fun _ h => by
    dsimp only
    split
    · exact h.deny
    · split
      · exact h.deny
      · exact h.modQp.okWith).next

protected theorem execAcctLogRead {cmd : HostCmd} (h : Keeps s t) : Answers s (execAcctLogRead cmd t) := by
  unfold execAcctLogRead
  exact (h.runCmd fun _ h => by
    split
    · exact h.deny
    · exact h.modSched.dmaWrite.okWith).next

protected theorem disableEntry {e : Nat} (h : Keeps s t) : Keeps s (disableEntry e t) := by
  unfold disableEntry
  split
  · exact h
  · split
    · dsimp only
      exact h
    · dsimp only
      exact h.modWork.endEntry
    · dsimp only
      exact h.modWork.endEntry
    · dsimp only
      exact h.modWork
    · split
      · split
        · dsimp only
          exact h.modWork.endEntry
        · dsimp only
          exact h.modWork
      · split
        · dsimp only
          exact h.modWork.endEntry
        · split
          · dsimp only
            exact h.modWork.killEntry
          · dsimp only
            exact h.modWork

protected theorem acceptDisable {f : Nat} (h : Keeps s t) : Keeps s (acceptDisable f t) := by
  unfold acceptDisable
  split
  · exact h
  · dsimp only
    exact (((h.modFn.foldS fun _ h => h.modQp).modObj.foldS fun _ h => h.disableEntry).foldS fun _ h => h.abortSession).releaseBatons.releaseUnused

protected theorem disableVfs {stay : Bool} (h : Keeps s t) : Keeps s (disableVfs stay t) :=
  h.foldS fun _ h => (h.whenS fun h => h.modFn).acceptDisable

protected theorem execFunctionLevelReset {fn : Nat} (h : Keeps s t) : Answers s (execFunctionLevelReset fn t) := by
  unfold execFunctionLevelReset
  split
  · exact (h.acceptDisable.whenS fun h => h.disableVfs).next
  · exact h.next

protected theorem execBusMasterClear {fn : Nat} (h : Keeps s t) : Answers s (execBusMasterClear fn t) := by
  unfold execBusMasterClear
  split
  · exact h.modFn.acceptDisable.next
  · exact h.next

protected theorem execD3hotEntry {fn : Nat} (h : Keeps s t) : Answers s (execD3hotEntry fn t) := by
  unfold execD3hotEntry
  split
  · exact h.modFn.acceptDisable.next
  · exact h.next

protected theorem execFunctionDisableComplete {fn : Nat} (h : Keeps s t) : Answers s (execFunctionDisableComplete fn t) := by
  unfold execFunctionDisableComplete
  split
  · refine Keeps.next (Keeps.modFn (Keeps.modHif (h.foldS fun _ h => h.modQp).modRegs fun x => ?_))
    split
    · rfl
    · split <;> rfl
  · exact h.next

/-! ### Passes (04) -/

protected theorem gatherUnit {u : SUnit} {f : BitVec 4} (h : Keeps s t) : Keeps s (gatherUnit u f t) :=
  h.foldS fun _ h => h.gatherFlags

protected theorem residueError {g slot col : Nat} (h : Keeps s t) : Keeps s (residueError g slot col t) := by
  unfold residueError
  dsimp only
  exact h.modCluster.evCount.tearDown.irqEval

protected theorem rangeError {g slot : Nat} (h : Keeps s t) : Keeps s (rangeError g slot t) := h.modCluster.tearDown.irqEval

protected theorem countPasses {g : Nat} {u : SUnit} {n slots stalls : Nat} {reload : Bool} (h : Keeps s t) :
    Keeps s (countPasses g u n slots stalls reload t) := by
  unfold countPasses
  dsimp only
  exact h.modCluster.evCount.evCount.evCount.chargeUnit

protected theorem issueNow {g slot : Nat} {c : Ctx} {u : SUnit} {b : Bytes} {p : Pass} {acc : List AccEntry} {first : Bytes} {env : PassEnv} (h : Keeps s t) :
    Keeps s (issueNow g slot c u b p acc first env t) := by
  unfold issueNow
  split
  · split
    · dsimp only
      split
      · exact h.countPasses.modCluster.residueError
      · exact h.countPasses.modCluster.modCluster.drew.gatherUnit
    · dsimp only
      split
      · exact h.countPasses.modCluster.residueError
      · exact h.countPasses.modCluster.modCluster
  · split
    · dsimp only
      split
      · exact h.countPasses.modCluster.residueError
      · exact h.countPasses.modCluster.modCluster.drew.gatherUnit
    · dsimp only
      split
      · exact h.countPasses.modCluster.residueError
      · exact h.countPasses.modCluster.modCluster

protected theorem issuePass {g slot : Nat} {b : Bytes} {env : PassEnv} (h : Keeps s t) : Keeps s (issuePass g slot b env t) := by
  unfold issuePass
  dsimp only
  split
  · exact h
  · split
    · exact h
    · split
      · exact h
      · split
        · exact h
        · split
          · exact h.issueNow
          · exact h.rangeError

protected theorem afterGroup {g slot : Nat} (h : Keeps s t) : Keeps s (afterGroup g slot t) := by
  unfold afterGroup
  split
  · exact h
  · split
    · exact h.modCluster
    · exact h

protected theorem execPassIssue {cluster slot : Nat} {desc : Bytes} {env : PassEnv} (h : Keeps s t) :
    Answers s (execPassIssue cluster slot desc env t) := by
  unfold execPassIssue
  dsimp only
  split
  · exact h.issuePass.afterGroup.next
  · exact h.issuePass.next

protected theorem execArrDrain {fn cluster : Nat} {drain : Bool} (h : Keeps s t) : Answers s (execArrDrain fn cluster drain t) := by
  unfold execArrDrain
  split
  · exact h.modCluster.next
  · exact h.next

protected theorem retireCluster {g : Nat} (h : Keeps s t) : Keeps s (retireCluster g t) := by
  unfold retireCluster
  split
  · exact h
  · exact h.modCluster.recordEvent

protected theorem execArrRetire {fn cluster : Nat} (h : Keeps s t) : Answers s (execArrRetire fn cluster t) := by
  unfold execArrRetire
  split
  · exact h.retireCluster.next
  · exact h.next

protected theorem execArrSpareRow {fn cluster index : Nat} (h : Keeps s t) : Answers s (execArrSpareRow fn cluster index t) := by
  unfold execArrSpareRow
  split
  · exact h.modCluster.next
  · exact h.next

protected theorem execArrSpareColumn {fn cluster index : Nat} (h : Keeps s t) : Answers s (execArrSpareColumn fn cluster index t) := by
  unfold execArrSpareColumn
  split
  · exact h.modCluster.next
  · exact h.next

protected theorem execArrSelfTest {fn cluster : Nat} (h : Keeps s t) : Answers s (execArrSelfTest fn cluster t) := by
  unfold execArrSelfTest
  split
  · exact h.modCluster.next
  · exact h.next

protected theorem execArrSpareDone {cluster : Nat} {fault : Option (Nat × Nat)} (h : Keeps s t) :
    Answers s (execArrSpareDone cluster fault t) := by
  unfold execArrSpareDone
  split
  · exact h.modCluster.irqEval.next
  · exact h.next

protected theorem execClusterSleep {cluster : Nat} (h : Keeps s t) : Answers s (execClusterSleep cluster t) := by
  unfold execClusterSleep
  dsimp only
  split
  · exact h.modCluster.evCount.next
  · exact h.next

/-! ### Walks and searches (08) -/

protected theorem modSw {e : Nat} {f : SearchWork → SearchWork} (h : Keeps s t) : Keeps s (modSw e f t) := by
  unfold modSw
  split
  · exact h.modSearchWork
  · exact h.modSearch

protected theorem dropWalk {k : Nat} {w : Walk} {src reason : Nat} (h : Keeps s t) : Keeps s (dropWalk k w src reason t) := by
  unfold dropWalk
  dsimp only
  exact h.modSearch.evCount.evCount

protected theorem takeInbox {g n : Nat} (h : Keeps s t) : Keeps s (takeInbox g n t) := by
  induction n generalizing t with
  | zero => exact h
  | succ n ih =>
    unfold takeInbox
    split
    · exact h
    · split
      · exact h
      · split
        · exact h
        · split
          · exact ih h.dropWalk
          · exact ih h.modSearch

protected theorem serveInbox {g : Nat} (h : Keeps s t) : Keeps s (serveInbox g t) := h.takeInbox

protected theorem endWalk {k : Nat} {w : Walk} {reason : Nat} (h : Keeps s t) : Keeps s (endWalk k w reason t) :=
  h.dropWalk.serveInbox

protected theorem nextSeq {dst src : Nat} (h : Keeps s t) : Keeps s (nextSeq dst src t).2 := by
  unfold nextSeq
  dsimp only
  exact h.modSearch

protected theorem startWalk {e : Nat} {c : Collection} {w : SearchWork} {num node : Nat} (h : Keeps s t) :
    Keeps s (startWalk e c w num node t) := by
  unfold startWalk
  dsimp only
  split
  · exact h.dropWalk
  · exact h.nextSeq.modSearch

protected theorem execWalkStart {e : Nat} (h : Keeps s t) : Answers s (execWalkStart e t) := by
  unfold execWalkStart
  split
  · exact h.next
  · split
    · dsimp only
      split
      · exact (h.modSw.modSearch.evCount.foldS fun _ h => h.startWalk).next
      · exact h.next
    · exact h.next

protected theorem execRelayArrive {m : RelayMsg} (h : Keeps s t) : Answers s (execRelayArrive m t) := by
  unfold execRelayArrive
  split
  · exact h.next
  · split
    · exact h.next
    · dsimp only
      exact h.advanceTo.modSearch.serveInbox.next

protected theorem chargeRead {w : Walk} (h : Keeps s t) : Keeps s (chargeRead w t) := h.chargeSearch

protected theorem walkHop {k : Nat} {w : Walk} {c : Collection} {qs : Nat} {readable : Bool} (h : Keeps s t) :
    Keeps s (walkHop k w c qs readable t) := by
  unfold walkHop
  dsimp only
  split
  · exact h.chargeRead.modFlash.modSearch.evCount.evCount.evCount.evCount.endWalk
  · split
    · exact h.chargeRead.modFlash.modSearch.evCount.evCount.evCount.evCount.endWalk
    · split
      · exact h.chargeRead.modFlash.modSearch.evCount.evCount.evCount.evCount.modSearch
      · exact h.chargeRead.modFlash.modSearch.evCount.evCount.evCount.evCount.nextSeq.modSearch.evCount.serveInbox

protected theorem execWalkHop {tag walk : Nat} {readable : Bool} (h : Keeps s t) : Answers s (execWalkHop tag walk readable t) := by
  unfold execWalkHop
  split
  · exact h.next
  · split
    · exact h.next
    · split
      · exact h.endWalk.next
      · split
        · exact h.walkHop.next
        · exact h.next

protected theorem execOfferBatch {b : OfferMsg} (h : Keeps s t) : Answers s (execOfferBatch b t) := by
  unfold execOfferBatch
  split
  · exact h.next
  · split
    · dsimp only
      exact h.modSearch.next
    · split
      · dsimp only
        exact h.modSearch.next
      · split
        · dsimp only
          exact h.modSearch.next
        · dsimp only
          exact h.modSearch.modSw.evCount.next

protected theorem execEndReport {m : EndMsg} (h : Keeps s t) : Answers s (execEndReport m t) := by
  unfold execEndReport
  split
  · exact h.next
  · split
    · dsimp only
      exact h.modSearch.noteFreed.next
    · dsimp only
      exact h.modSearch.noteFreed.modSw.next

protected theorem finishShard {n : Nat} {c : Collection} {w : SearchWork} (h : Keeps s t) : Keeps s (finishShard n c w t) := by
  unfold finishShard
  split
  · split
    · dsimp only
      exact h.dropTag.modSearch.sendAll.releaseUnused
    · dsimp only
      exact h.modSearch.sendAll.releaseUnused
  · split
    · dsimp only
      exact h.dropTag.modSearch.sendAll.releaseUnused
    · dsimp only
      exact h.modSearch.sendAll.releaseUnused

protected theorem countWidened {w : Bool} (h : Keeps s t) : Keeps s (countWidened w t) := by
  unfold countWidened
  split
  · exact h.modSearch.evCount
  · exact h

protected theorem startShard {n : Nat} {w : SearchWork} (h : Keeps s t) : Keeps s (startShard n w t) := by
  unfold startShard
  split
  · exact h.modSearch
  · split
    · dsimp only
      exact h.chargeStage.countWidened.finishShard
    · dsimp only
      exact h.modSearch.chargeStage.selectionRows

protected theorem shardMerged {n : Nat} {c : Collection} {w : SearchWork} (h : Keeps s t) : Keeps s (shardMerged n c w t) := by
  unfold shardMerged
  split
  · dsimp only
    exact h.modSearch.countWidened
  · exact h.chargeStage.finishShard

protected theorem execMergeUnite {e : Nat} (h : Keeps s t) : Answers s (execMergeUnite e t) := by
  unfold execMergeUnite
  split
  · split
    · split
      · exact h.modSearchWork.next
      · exact h.next
    · exact h.next
  · split
    · split
      · split
        · exact h.shardMerged.next
        · exact h.next
      · exact h.next
    · exact h.next

protected theorem execShardWaitExpiry {e : Nat} (h : Keeps s t) : Answers s (execShardWaitExpiry e t) := by
  unfold execShardWaitExpiry
  split
  · split
    · exact h.advanceTo.oweShards.modSearchWork.next
    · exact h.next
  · exact h.next

protected theorem execNodeRebuild {coll n : Nat} (h : Keeps s t) : Answers s (execNodeRebuild coll n t) := by
  unfold execNodeRebuild
  split
  · split
    · dsimp only
      exact h.modObj.acceptWrites.evCount.next
    · exact h.next
  · exact h.next

protected theorem execSearchHoldSet {fn : Nat} (h : Keeps s t) : Answers s (execSearchHoldSet fn t) := by
  unfold execSearchHoldSet
  split
  · exact h.modSearch.next
  · exact h.next

protected theorem resumeSearch {e : Nat} (h : Keeps s t) : Keeps s (resumeSearch e t) := by
  unfold resumeSearch
  split
  · exact h.startSearch
  · split
    · exact h.startShard
    · exact h

protected theorem execSearchHoldClear {fn : Nat} (h : Keeps s t) : Answers s (execSearchHoldClear fn t) := by
  unfold execSearchHoldClear
  split
  · exact (h.modSearch.foldS fun _ h => h.resumeSearch).next
  · exact h.next

/-! ### Packets of the fabric (16) -/

protected theorem takeDown {port code : Nat} (h : Keeps s t) : Keeps s (takeDown port code t) := h.modFab.modPort.recordEvent
protected theorem sendCtl {port : Nat} {c : CtlFlit} (h : Keeps s t) : Keeps s (sendCtl port c t) := h.modPort.evCount

protected theorem discardFlit {port kind : Nat} (h : Keeps s t) : Keeps s (discardFlit port kind t) := by
  unfold discardFlit
  split
  · exact h.modPort.evCount.sendCtl
  · exact h

protected theorem tagFailure {port kind : Nat} (h : Keeps s t) : Keeps s (tagFailure port kind t) := by
  unfold tagFailure
  dsimp only
  split
  · exact h.modPort.evCount.takeDown
  · exact h.modPort.evCount.discardFlit

protected theorem takeAcks {port hd : Nat} (h : Keeps s t) : Keeps s (takeAcks port hd t) := by
  unfold takeAcks
  dsimp only
  exact h.modPort

protected theorem resendFrom {port seq : Nat} (h : Keeps s t) : Keeps s (resendFrom port seq t) := by
  unfold resendFrom
  dsimp only
  exact h.modPort.evCount

protected theorem linkControl {port : Nat} (h : Keeps s t) : Keeps s (linkControl port t) := by
  unfold linkControl
  split
  · exact h.modPort
  · exact h.sendCtl

protected theorem packetArrived {lvl : Nat} {p : Packet} (h : Keeps s t) : Keeps s (packetArrived lvl p t) := by
  unfold packetArrived
  split
  · exact h.modFab
  · split
    · exact h.routeAt
    · exact h

protected theorem dataFlit {port hd : Nat} {payload : Bytes} (h : Keeps s t) : Keeps s (dataFlit port hd payload t) := by
  unfold dataFlit
  split
  · split
    · dsimp only
      split <;> exact h.modPort.sendCtl
    · split
      · dsimp only
        split
        · exact h.modPort.sendCtl
        · exact h.modPort.sendCtl.modFab.packetArrived
      · dsimp only
        split
        · exact h.modPort.sendCtl
        · exact h.modPort.sendCtl.modFab
  · split
    · dsimp only
      split
      · exact h.modPort.sendCtl
      · split
        · exact h.modPort.sendCtl
        · exact h.modPort.sendCtl.modFab.packetArrived
    · dsimp only
      split
      · exact h.modPort.sendCtl
      · split
        · exact h.modPort.sendCtl
        · exact h.modPort.sendCtl.modFab

protected theorem goodFlit {port hd gen : Nat} {payload : Bytes} (h : Keeps s t) : Keeps s (goodFlit port hd gen payload t) := by
  unfold goodFlit
  dsimp only
  split
  · exact h.modPort.discardFlit
  · split
    · exact h.modPort.takeAcks.dataFlit.pumpPort
    · exact h.modPort.takeAcks.resendFrom.pumpPort
    · exact h.modPort.takeAcks.linkControl.pumpPort
    · exact h.modPort.takeAcks.pumpPort

protected theorem takeFlit {port : Nat} {flit : Bytes} (h : Keeps s t) : Keeps s (takeFlit port flit t) := by
  unfold takeFlit
  dsimp only
  split
  · exact h
  · split
    · exact h.evCount.discardFlit
    · split
      · split
        · exact h.evCount.goodFlit
        · exact h.evCount.tagFailure
      · exact h.evCount.goodFlit

protected theorem countWords {port corr uncorr : Nat} (h : Keeps s t) : Keeps s (countWords port corr uncorr t) := h.modPort.evCount

protected theorem takeWord {port : Nat} {lanes : List (List Nat)} (h : Keeps s t) : Keeps s (takeWord port t lanes) := by
  unfold takeWord
  dsimp only
  split
  · exact h
  · exact h.modPort.countWords.foldS fun _ h => h.takeFlit

protected theorem execFlitReceive {port : Nat} {line : LineIn} (h : Keeps s t) : Answers s (execFlitReceive port line t) := by
  refine Keeps.next ?_
  split
  · split
    · exact h.countWords.takeFlit
    · exact h
  · exact Keeps.foldS h fun _ h => h.takeWord

protected theorem execRetryRequest {port seq : Nat} (h : Keeps s t) : Answers s (execRetryRequest port seq t) := by
  unfold execRetryRequest
  dsimp only
  split
  · exact h.resendFrom.next
  · exact h.next

protected theorem execLinkKeyUpdate {port : Nat} (h : Keeps s t) : Answers s (execLinkKeyUpdate port t) := by
  unfold execLinkKeyUpdate
  dsimp only
  split
  · exact h.modPort.sendCtl.next
  · exact h.next

protected theorem execPortTrained {port peerFec : Nat} {short : Bool} (h : Keeps s t) :
    Answers s (execPortTrained port peerFec short t) := by
  unfold execPortTrained
  split
  · dsimp only
    split <;> exact h.next
  · dsimp only
    split
    · exact h.next
    · split
      · exact h.modPort.next
      · exact h.modPort.pumpPort.next

protected theorem execLinkSession {port peer : Nat} {ok : Bool} (h : Keeps s t) : Answers s (execLinkSession port peer ok t) := by
  unfold execLinkSession
  split
  · exact h.modPort.pumpPort.next
  · exact h.next

protected theorem execPortDown {port : Nat} (h : Keeps s t) : Answers s (execPortDown port t) := by
  unfold execPortDown
  split
  · exact h.next
  · exact h.takeDown.next

protected theorem execRetxTimer {peer : Nat} (h : Keeps s t) : Answers s (execRetxTimer peer t) := by
  unfold execRetxTimer
  split
  · exact h.next
  · dsimp only
    exact (h.advanceTo.modPair.modFab.evCount.foldS fun _ h => h.sendAll).next

protected theorem dropReduction {k : Nat} (h : Keeps s t) : Keeps s (dropReduction k t) := by
  unfold dropReduction
  split
  · split
    · exact h.modFab.failUnit
    · exact h.modFab
  · exact h.modFab

protected theorem abortReduction {k : Nat} (h : Keeps s t) : Keeps s (abortReduction k t) := by
  unfold abortReduction
  dsimp only
  exact (h.foldS fun _ h => h.sendPacket).dropReduction

protected theorem failWaiters {l : List PairReq} (h : Keeps s t) : Keeps s (failWaiters l t) := by
  unfold failWaiters
  exact h.foldS fun _ h => by
    split
    · split
      · dsimp only
        exact h.failUnit.endFault
      · dsimp only
        exact h.failUnit
    · split
      · dsimp only
        exact h.endFault
      · dsimp only
        exact h

protected theorem dropLeases {peer : Nat} (h : Keeps s t) : Keeps s (dropLeases peer t) := by
  unfold dropLeases
  dsimp only
  exact h.modMem

protected theorem dropPins {peer : Nat} (h : Keeps s t) : Keeps s (dropPins peer t) := h.modObj.releaseUnused
protected theorem missShard {peer : Nat} (h : Keeps s t) : Keeps s (missShard peer t) := h.modSearch.foldS fun _ h => h.modSearchWork

protected theorem losePeer {peer : Nat} (h : Keeps s t) : Keeps s (losePeer peer t) := by
  unfold losePeer
  dsimp only
  exact (h.modFab.failWaiters.dropLeases.dropPins.missShard.foldS fun _ h => h.abortReduction).recordEvent

protected theorem execPeerLossTimer {peer : Nat} (h : Keeps s t) : Answers s (execPeerLossTimer peer t) := by
  unfold execPeerLossTimer
  split
  · exact h.advanceTo.losePeer.next
  · exact h.next

protected theorem enterUnassigned (h : Keeps s t) : Keeps s (enterUnassigned t) := h.modFab

protected theorem execAssign {p : Packet} (h : Keeps s t) : Answers s (execAssign p t) := by
  unfold execAssign
  split
  · dsimp only
    exact h.modFab.modFab.recordEvent.sendPacket.next
  · dsimp only
    exact h.modFab.modFab.next

/-- A management packet keeps what its effect keeps. -/
protected theorem fromAnchor {pt : Nat} {act : Packet → State → State} {p : Packet} (h : Keeps s t)
    (e : ∀ {u} p, Keeps s u → Keeps s (act p u)) : Keeps s (fromAnchor pt act p t) := by
  unfold fromAnchor
  dsimp only
  split
  · split
    · exact h.forward
    · exact h
  · split
    · exact h
    · exact e _ h.modFab

protected theorem execAssignVia {p : Packet} (h : Keeps s t) : Answers s (execAssignVia p t) := by
  unfold execAssignVia
  exact (h.fromAnchor fun _ h => by
    split
    · exact h
    · dsimp only
      split
      · exact h.putOn
      · exact h.sendPacket).next

protected theorem atAnchor {pt : Nat} {p : Packet} (h : Keeps s t) : Keeps s (atAnchor pt p t) := by
  unfold atAnchor
  split
  · dsimp only
    split
    · exact h.forward
    · split
      · exact h.modFab
      · exact h
  · dsimp only
    split
    · exact h
    · split
      · exact h.modFab
      · exact h

protected theorem mgmtStatus {q : Packet} {st : Nat} (h : Keeps s t) : Keeps s (mgmtStatus q st t) := h.sendAll

protected theorem execAdmitPacket {p : Packet} (h : Keeps s t) : Answers s (execAdmitPacket p t) := by
  unfold execAdmitPacket
  exact (h.fromAnchor fun _ h => by
    split
    · exact h.modFab.recordEvent.mgmtStatus
    · exact h.mgmtStatus).next

protected theorem execUnassign {p : Packet} (h : Keeps s t) : Answers s (execUnassign p t) := by
  unfold execUnassign
  exact (h.fromAnchor fun _ h => by
    split
    · exact h.mgmtStatus.enterUnassigned
    · exact h.mgmtStatus).next

protected theorem releaseLease {k : Nat} (h : Keeps s t) : Keeps s (releaseLease k t) := by
  unfold releaseLease
  split
  · exact h.modMem.sendReq
  · exact h

protected theorem enterLeaving (h : Keeps s t) : Keeps s (enterLeaving t) := by
  unfold enterLeaving
  dsimp only
  exact (((h.modFab.foldS fun _ h => h.reclaimLease).foldS fun _ h => h.releaseLease).foldS fun _ h => h.sendReq).modFab.foldS fun _ h => h.abortReduction

protected theorem execLeavePacket {p : Packet} (h : Keeps s t) : Answers s (execLeavePacket p t) := by
  unfold execLeavePacket
  exact (h.fromAnchor fun _ h => by
    split
    · exact h.mgmtStatus.enterLeaving
    · exact h.mgmtStatus).next

protected theorem execFabLeave {fn : Nat} (h : Keeps s t) : Answers s (execFabLeave fn t) := by
  unfold execFabLeave
  split
  · exact h.enterLeaving.next
  · exact h.next

protected theorem execLeaveDrained (h : Keeps s t) : Answers s (execLeaveDrained t) := by
  unfold execLeaveDrained
  split
  · exact h.next
  · split
    · dsimp only
      exact h.recordEvent.enterUnassigned.next
    · dsimp only
      exact (h.advanceTo.foldS fun _ h => h.losePeer).recordEvent.enterUnassigned.next

protected theorem execAnchorMove {p : Packet} (h : Keeps s t) : Answers s (execAnchorMove p t) := by
  unfold execAnchorMove
  exact (h.fromAnchor fun _ h => by
    dsimp only
    exact h.mgmtStatus.modFab).next

protected theorem execFabAssign {fn : Nat} {value : BitVec 32} (h : Keeps s t) : Answers s (execFabAssign fn value t) := by
  unfold execFabAssign
  split
  · dsimp only
    exact h.modFab.recordEvent.recordEvent.next
  · exact h.next

protected theorem pinTable {p : Packet} (h : Keeps s t) : Keeps s (pinTable p t) := by
  unfold pinTable
  split
  · dsimp only
    exact h.sendAns
  · dsimp only
    split
    · exact h.sendAns
    · exact h.modVersion.sendAns

protected theorem unpinTable {p : Packet} (h : Keeps s t) : Keeps s (unpinTable p t) := by
  unfold unpinTable
  split
  · dsimp only
    exact h.modVersion.releaseUnused.sendStatus
  · dsimp only
    exact h.releaseUnused.sendStatus

protected theorem readRowFor {p : Packet} (h : Keeps s t) : Keeps s (readRowFor p t) := by
  unfold readRowFor
  dsimp only
  split
  · exact h.sendAns
  · exact h.lookupRow.sendAns

protected theorem addRowFor {p : Packet} (h : Keeps s t) : Keeps s (addRowFor p t) := by
  unfold addRowFor
  dsimp only
  split
  · exact h.sendAns
  · split
    · exact h.modTable.evCount.sendAns
    · split
      · split
        · exact h.applyAdd
        · exact h.applyAdd.sendAns
      · split
        · exact h.applyAdd
        · exact h.applyAdd.sendAns

protected theorem lendPages {p : Packet} (h : Keeps s t) : Keeps s (lendPages p t) := by
  unfold lendPages
  split
  · dsimp only
    split
    · exact h.modMem.sendAns
    · exact h.sendStatus
  · dsimp only
    exact h.sendStatus

protected theorem leaseReclaimed {p : Packet} (h : Keeps s t) : Keeps s (leaseReclaimed p t) := by
  unfold leaseReclaimed
  dsimp only
  exact h.modMem.sendStatus

protected theorem leaseReleased {p : Packet} (h : Keeps s t) : Keeps s (leaseReleased p t) := by
  unfold leaseReleased
  dsimp only
  split
  · split
    · exact h.modMem.sendStatus
    · exact h.sendStatus
  · exact h.sendStatus

protected theorem runReq {p : Packet} (h : Keeps s t) : Keeps s (runReq p t) := by
  unfold runReq
  split
  · exact h.pinTable
  · exact h.unpinTable
  · exact h.readRowFor
  · exact h.addRowFor
  · exact h.lendPages
  · exact h.leaseReclaimed
  · exact h.leaseReleased
  · exact h

protected theorem arriveReq {pt : Nat} {p : Packet} (h : Keeps s t) : Keeps s (arriveReq pt p t) :=
  h.arrive fun _ h => h.receiveReq fun _ h => h.runReq

protected theorem placeLent {p : Packet} (h : Keeps s t) : Keeps s (placeLent p t) := by
  unfold placeLent
  split
  · dsimp only
    split
    · exact h.modMem.sendAll
    · exact h.sendAll
  · dsimp only
    exact h.sendAll

protected theorem readLent {p : Packet} (h : Keeps s t) : Keeps s (readLent p t) := by
  unfold readLent
  split
  · dsimp only
    exact h.sendAll
  · dsimp only
    split
    · exact h.sendAll
    · exact h.drew.sendAll

protected theorem clearAsked {p : Packet} (h : Keeps s t) : Keeps s (clearAsked p t) := h.modPair

protected theorem pinAnswered {r : PairReq} {p : Packet} (h : Keeps s t) : Keeps s (pinAnswered r p t) := by
  unfold pinAnswered
  split
  · dsimp only
    exact h
  · split
    · dsimp only
      split
      · exact h.sendReq
      · exact h
    · split
      · dsimp only
        split
        · exact h.modWork.endEntry
        · split
          · split
            · split
              · exact h.modWork.modFab.modWork
              · exact h.modWork
            · split
              · exact h.modWork.modFab.modWork.endEntry
              · exact h.modWork.endEntry
          · split
            · split
              · exact h.modWork.modFab.modWork
              · exact h.modWork
            · split
              · exact h.modWork.modFab.modWork.endEntry
              · exact h.modWork.endEntry
      · dsimp only
        split
        · exact h.modWork.endEntry
        · split
          · split
            · split
              · exact h.modWork.modFab.modWork
              · exact h.modWork
            · split
              · exact h.modWork.modFab.modWork.endEntry
              · exact h.modWork.endEntry
          · split
            · split
              · exact h.modWork.modFab.modWork
              · exact h.modWork
            · split
              · exact h.modWork.modFab.modWork.endEntry
              · exact h.modWork.endEntry

protected theorem rowAnswered {r : PairReq} {p : Packet} (h : Keeps s t) : Keeps s (rowAnswered r p t) := by
  unfold rowAnswered
  split
  · exact h
  · split
    · exact h.modShare
    · exact h.failUnit

protected theorem addAnswered {r : PairReq} {p : Packet} (h : Keeps s t) : Keeps s (addAnswered r p t) := by
  unfold addAnswered
  split
  · split
    · dsimp only
      exact h.modWork
    · dsimp only
      exact h.modWork.addDone
  · split
    · dsimp only
      exact h
    · dsimp only
      exact h.addDone

protected theorem lentAnswered {r : PairReq} {p : Packet} (h : Keeps s t) : Keeps s (lentAnswered r p t) := by
  unfold lentAnswered
  split
  · dsimp only
    exact h.modMem.evCount
  · dsimp only
    exact h.modMem

protected theorem answered {p : Packet} (h : Keeps s t) : Keeps s (answered p t) := by
  unfold answered
  split
  · exact h.losePeer
  · split
    · exact h
    · split
      · dsimp only
        exact h.modPair.pinAnswered
      · dsimp only
        exact h.modPair.rowAnswered
      · dsimp only
        exact h.modPair.addAnswered
      · dsimp only
        exact h.modPair.modMem
      · dsimp only
        exact h.modPair.lentAnswered
      · dsimp only
        exact h.modPair

protected theorem execFabAnswer {p : Packet} (h : Keeps s t) : Answers s (execFabAnswer p t) := by
  unfold execFabAnswer
  split
  · exact h.next
  · split
    · exact h.atAnchor.next
    · exact (h.arrive fun _ h => h.answered).next

protected theorem modRed {k : Nat} {f : Reduction → Reduction} (h : Keeps s t) : Keeps s (modRed k f t) :=
  h.modFab

protected theorem noteUnit {unit share : Nat} {f : BitVec 4} (h : Keeps s t) : Keeps s (noteUnit unit share f t) := by
  unfold noteUnit
  split
  · dsimp only
    exact h.modShare.gatherUnit
  · dsimp only
    exact h.modShare

protected theorem finishReduction {k : Nat} (h : Keeps s t) : Keeps s (finishReduction k t) := by
  unfold finishReduction
  split
  · exact h
  · split
    · split
      · dsimp only
        split
        · exact h
        · exact h.noteUnit.modFab.foldS fun _ h => h.modShare
      · dsimp only
        split
        · exact h
        · exact h.noteUnit.modFab.foldS fun _ h => h.modShare
    · split
      · dsimp only
        split
        · exact h
        · exact h.noteUnit.modFab.foldS fun _ h => h.modShare
      · dsimp only
        split
        · exact h
        · exact h.noteUnit.modFab.foldS fun _ h => h.modShare

protected theorem rootParts {k : Nat} (h : Keeps s t) : Keeps s (rootParts k t) := by
  unfold rootParts
  split
  · exact h
  · split
    · exact h
    · dsimp only
      exact (h.foldS fun _ h => h.sendAll).modRed.noteUnit.finishReduction

protected theorem sendParts {k : Nat} (h : Keeps s t) : Keeps s (sendParts k t) := by
  unfold sendParts
  split
  · split
    · exact h
    · split
      · exact h.abortReduction
      · split
        · dsimp only
          exact h.drew.modRed.rootParts
        · dsimp only
          exact h.drew.sendAll.noteUnit
  · exact h

protected theorem rootExps {k : Nat} (h : Keeps s t) : Keeps s (rootExps k t) := by
  unfold rootExps
  split
  · exact h
  · split
    · exact h
    · dsimp only
      exact (h.foldS fun _ h => h.sendAll).modRed.sendParts

protected theorem startReduction {set : Nat} {r : Reduction} {refs : List ℤ} (h : Keeps s t) : Keeps s (startReduction set r refs t) := by
  unfold startReduction
  split
  · split
    · dsimp only
      split
      · exact h.modFab.modFab.abortReduction
      · split
        · exact h.modFab.modFab.dropReduction
        · split
          · exact h.modFab.modFab.abortReduction
          · exact h.modFab.modFab.sendParts
    · dsimp only
      split
      · exact h.modFab.modFab.abortReduction
      · split
        · exact h.modFab.modFab.dropReduction
        · split
          · exact h.modFab.modFab.abortReduction
          · split
            · exact h.modFab.modFab.modRed.rootExps
            · exact h.modFab.modFab.sendAll.sendParts
  · split
    · dsimp only
      split
      · exact h.modFab.modFab.abortReduction
      · split
        · exact h.modFab.modFab.dropReduction
        · split
          · exact h.modFab.modFab.abortReduction
          · exact h.modFab.modFab.sendParts
    · dsimp only
      split
      · exact h.modFab.modFab.abortReduction
      · split
        · exact h.modFab.modFab.dropReduction
        · split
          · exact h.modFab.modFab.abortReduction
          · split
            · exact h.modFab.modFab.modRed.rootExps
            · exact h.modFab.modFab.sendAll.sendParts

protected theorem checkRed {k : Nat} {go : State → State} (h : Keeps s t) (e : ∀ {u}, Keeps s u → Keeps s (go u)) :
    Keeps s (checkRed k go t) := by
  unfold checkRed
  split
  · split
    · exact h.abortReduction
    · exact e h
  · exact h

protected theorem redExp {p : Packet} (h : Keeps s t) : Keeps s (redExp p t) := by
  unfold redExp
  split
  · exact h.modRed.checkRed fun h => h.rootExps
  · exact h.abortReduction

protected theorem redAgree {p : Packet} (h : Keeps s t) : Keeps s (redAgree p t) := by
  unfold redAgree
  split <;> exact h.modRed.checkRed fun h => h.sendParts

protected theorem redPart {p : Packet} (h : Keeps s t) : Keeps s (redPart p t) := by
  unfold redPart
  split
  · exact h.modRed.checkRed fun h => h.rootParts
  · exact h.abortReduction

protected theorem redResult {p : Packet} (h : Keeps s t) : Keeps s (redResult p t) := by
  unfold redResult
  split <;> exact h.modRed.finishReduction

protected theorem shardQuery {p : Packet} (h : Keeps s t) : Keeps s (shardQuery p t) := by
  unfold shardQuery
  split
  · dsimp only
    split
    · split
      · exact h
      · exact h.modSearch
    · exact h
  · dsimp only
    split
    · split
      · exact h
      · exact h.modSearch.startShard
    · exact h

protected theorem shardList {p : Packet} (h : Keeps s t) : Keeps s (shardList p t) := by
  unfold shardList
  split
  · split
    · split
      · split
        · dsimp only
          split
          · exact h.modSearch
          · exact h
        · dsimp only
          split
          · exact h.modSearch
          · exact h.modSearchWork
      · dsimp only
        split
        · exact h.modSearch
        · exact h
    · dsimp only
      split
      · exact h.modSearch
      · exact h
  · dsimp only
    split
    · exact h.modSearch
    · exact h

protected theorem writeRoute {value : BitVec 32} (h : Keeps s t) : Keeps s (writeRoute value t) := by
  unfold writeRoute
  dsimp only
  exact h.modFab

protected theorem execFabRtDataWrite {fn : Nat} {value : BitVec 32} (h : Keeps s t) : Answers s (execFabRtDataWrite fn value t) := by
  unfold execFabRtDataWrite
  split
  · exact h.writeRoute.next
  · exact h.next

protected theorem sizeSet {n : Nat} (h : Keeps s t) : Keeps s (sizeSet n t) := by
  unfold sizeSet
  dsimp only
  split
  · exact h
  · exact h.modFab

protected theorem execFabSetClear {fn : Nat} (h : Keeps s t) : Answers s (execFabSetClear fn t) := by
  unfold execFabSetClear
  split
  · exact h.sizeSet.next
  · exact h.next

/-! ### Images (05) -/

protected theorem raiseFloor {kind : Nat} {sig : Bytes} (h : Keeps s t) : Keeps s (raiseFloor kind sig t) := by
  unfold raiseFloor
  split
  · exact h.modSec
  · exact h

protected theorem makeRoom {need : Nat} (h : Keeps s t) : Keeps s (makeRoom need t) := by
  unfold makeRoom
  dsimp only
  exact h.evictFor.reclaimFor

protected theorem imageLoadBody {cmd : HostCmd} (h : Keeps s t) : Keeps s (imageLoadBody cmd t).state := by
  unfold imageLoadBody
  split
  · dsimp only
    split
    · exact h.deny
    · split
      · exact h.okWith
      · split
        · split
          · exact h.evCount.deny
          · exact h.evCount.makeRoom.modObj.raiseFloor.okWith
        · exact h.evCount.deny
        · exact h.evCount.deny
  · dsimp only
    split
    · exact h.deny
    · split
      · exact h.okWith
      · split
        · split
          · exact h.evCount.deny
          · exact h.evCount.makeRoom.modObj.raiseFloor.okWith
        · exact h.evCount.deny
        · exact h.evCount.deny

protected theorem imageUnloadBody {cmd : HostCmd} (h : Keeps s t) : Keeps s (imageUnloadBody cmd t).state := by
  unfold imageUnloadBody
  dsimp only
  split
  · exact h.deny
  · split
    · exact h.deny
    · split
      · exact h.deny
      · exact h.modObj.releaseBatons.releaseUnused.okWith

/-! ### Operations (05) -/

protected theorem putTensor {x : OpCx} {id : Nat} {t' : TensorDesc} {dims : List Nat} {data scales : Bytes} (h : Keeps s t) :
    Keeps s (putTensor x id t' dims data scales t) := by
  unfold putTensor
  split
  · dsimp only
    exact h.modCluster
  · split
    · dsimp only
      exact h.modCluster.putPaged
    · dsimp only
      exact h.modCluster

protected theorem putOuts {x : OpCx} {l : List Stored} (h : Keeps s t) : Keeps s (putOuts x l t) :=
  h.foldS fun _ h => h.putTensor

protected theorem modMembers {k : Nat} {f : StepMember → StepMember} (h : Keeps s t) : Keeps s (modMembers k f t) :=
  h.modGen

protected theorem leaveTokens {x : OpCx} {k : Nat} {l : List Nat} (h : Keeps s t) : Keeps s (leaveTokens x k l t) := by
  unfold leaveTokens
  dsimp only
  exact h.modMembers

protected theorem leaveDrafts {x : OpCx} {k round : Nat} {recs : List Bytes} (h : Keeps s t) :
    Keeps s (leaveDrafts x k round recs t) := by
  unfold leaveDrafts
  dsimp only
  exact h.modMembers

protected theorem leaveFor {x : OpCx} {l : List Stored} (h : Keeps s t) : Keeps s (leaveFor x l t) := by
  unfold leaveFor
  split
  · split
    · dsimp only
      exact h.modUnit
    · exact h
  · split
    · split
      · exact h
      · split
        · exact h.leaveTokens
        · split
          · exact h.leaveDrafts
          · exact h
    · exact h
  · exact h

protected theorem noteLate {x : OpCx} {late : List (Nat × Nat)} (h : Keeps s t) : Keeps s (noteLate x late t) := by
  unfold noteLate
  split
  · exact h.modGen
  · exact h

protected theorem pass1 {x : OpCx} {waits : Bool} (h : Keeps s t) : Keeps s (pass1 x waits t) := h.modCluster

protected theorem noteFlags {x : OpCx} {f : BitVec 4} (h : Keeps s t) : Keeps s (noteFlags x f t) :=
  h.modCluster.gatherUnit

protected theorem finishOp {fi : Nat} {x : OpCx} {outs : List OutVal} {f : BitVec 4} (h : Keeps s t) :
    Keeps s (finishOp fi x outs f t) := by
  unfold finishOp
  dsimp only
  exact h.putOuts.drew.leaveFor.noteFlags.pass1

protected theorem gatherRow {x : OpCx} {bind : Nat} {b : TableBind} {p : Nat × Nat × Option Nat} {row : Nat} (h : Keeps s t) :
    Keeps s (gatherRow x bind b p row t).2 := by
  unfold gatherRow
  split
  · split
    · dsimp only
      exact h.evCount
    · split
      · dsimp only
        exact h.lookupRow.modVersion
      · dsimp only
        exact h.lookupRow
  · dsimp only
    exact h

protected theorem gatherRows {x : OpCx} {bind : Nat} {b : TableBind} {l : List ((Nat × Nat × Option Nat) × Nat)} (h : Keeps s t) :
    Keeps s (gatherRows x bind b l t).2 := by
  induction l generalizing t with
  | nil => exact h
  | cons p l ih => exact ih h.gatherRow

protected theorem askRow {x : OpCx} {bind : Nat} {b : TableBind} {j : RowJob} (h : Keeps s t) : Keeps s (askRow x bind b j t) :=
  h.sendReqFor

protected theorem noteLooks {s0 : State} {x : OpCx} {fi : Nat} {jobs : List RowJob} (h : Keeps s t) :
    Keeps s (noteLooks s0 x fi jobs t) := by
  unfold noteLooks
  split
  · split
    · split
      · dsimp only
        exact h.modGen
      · dsimp only
        exact h
    · dsimp only
      exact h
  · split
    · split
      · dsimp only
        exact h.modGen
      · dsimp only
        exact h
    · dsimp only
      exact h

protected theorem gatherOp {fi : Nat} {x : OpCx} {ins : List Operand} (h : Keeps s t) : Keeps s (gatherOp fi x ins t) := by
  unfold gatherOp
  split
  · dsimp only
    split
    · split
      · exact h.modCluster.foldS fun _ h => h.askRow
      · exact h.gatherRows.noteLooks.noteLate.modCluster.finishOp
    · exact h.finishOp
  · dsimp only
    split
    · split
      · exact h.modCluster.foldS fun _ h => h.askRow
      · exact h.gatherRows.noteLooks.noteLate.modCluster.finishOp
    · exact h.finishOp

protected theorem awaitAdds {x : OpCx} {n : Nat} (h : Keeps s t) : Keeps s (awaitAdds x n t) := h.modCluster

protected theorem scatterTo {x : OpCx} {b : TableBind} {p : Nat × Nat × Option Nat} {e : Nat} {y : RtEntry} {rows : List (Nat × List Fv)} (h : Keeps s t) :
    Keeps s (scatterTo x b p e y rows t) := by
  unfold scatterTo
  split
  · split
    · exact h
    · dsimp only
      exact h.modTable.evCount.foldS fun _ h => by
        split
        · exact h.applyAdd.awaitAdds
        · exact h.applyAdd.noteDrop
  · dsimp only
    split
    · exact h.awaitAdds.modFab.foldS fun _ h => h.sendReqFor
    · exact h.awaitAdds.foldS fun _ h => h.sendReqFor

protected theorem scatterOp {x : OpCx} {ins : List Operand} (h : Keeps s t) : Keeps s (scatterOp x ins t) := by
  unfold scatterOp
  split
  · dsimp only
    split <;> exact h.pass1
  · dsimp only
    split
    · exact (h.foldS fun _ h => by
        split
        · exact h
        · exact h.scatterTo).pass1
    · exact h.pass1

protected theorem allreduceOp {fi : Nat} {x : OpCx} {ins : List Operand} (h : Keeps s t) : Keeps s (allreduceOp fi x ins t) := by
  unfold allreduceOp
  split
  · split
    · exact h.finishOp
    · split
      · split
        · split
          · dsimp only
            split
            · exact h.putTensor.pass1
            · exact h.pass1
          · dsimp only
            exact h.modCluster.startReduction
        · split
          · dsimp only
            exact h.pass1
          · dsimp only
            exact h.modCluster.startReduction
      · split
        · dsimp only
          exact h.pass1
        · dsimp only
          exact h.modCluster.startReduction
  · exact h.finishOp

protected theorem countRequestOp {x : OpCx} {ins : List Operand} {outs : List OutVal} (h : Keeps s t) :
    Keeps s (countRequestOp x ins outs t) := by
  unfold countRequestOp
  split
  · split
    · dsimp only
      exact h.countText
    · dsimp only
      exact h.evCount.modObj
    · split
      · dsimp only
        exact h.countPack
      · dsimp only
        exact h
    · dsimp only
      exact h
  · split
    · dsimp only
      exact h.countText
    · dsimp only
      exact h.evCount.modObj
    · split
      · dsimp only
        exact h.countPack
      · dsimp only
        exact h
    · dsimp only
      exact h

protected theorem matmulOp {x : OpCx} {stalls : Nat} (h : Keeps s t) : Keeps s (matmulOp x stalls t) := by
  unfold matmulOp
  split
  · exact h
  · dsimp only
    split
    · exact (h.foldS fun _ h => h.issuePass).afterGroup
    · exact h.foldS fun _ h => h.issuePass

protected theorem refuseAccess {x : OpCx} {member : Option Nat} (h : Keeps s t) : Keeps s (refuseAccess x member t) := by
  unfold refuseAccess
  dsimp only
  exact h.modMem.evCount.recordEvent.tearDown

protected theorem countFill {n : Nat} (h : Keeps s t) : Keeps s (countFill n t) := h.modMem.evCount

protected theorem attnOp {fi : Nat} {x : OpCx} {ins : List Operand} (h : Keeps s t) : Keeps s (attnOp fi x ins t) := by
  unfold attnOp
  split
  · dsimp only
    exact h.countPasses.finishOp
  · exact h.finishOp

protected theorem countSelect {o : Op} {outs : List OutVal} {ins : List Operand} (h : Keeps s t) :
    Keeps s (countSelect o outs ins t) := by
  unfold countSelect
  split
  · split
    · dsimp only
      exact h.selectionRows.modSearch
    · dsimp only
      exact h.selectionRows
  · exact h

protected theorem runOp {x : OpCx} {stalls : Nat} (h : Keeps s t) : Keeps s (runOp x stalls t) := by
  unfold runOp
  split
  · split
    · dsimp only
      split
      · exact h.tearDown
      · exact h.noteLate.matmulOp
    · dsimp only
      split
      · exact h.tearDown
      · exact h.noteLate.attnOp
    · dsimp only
      split
      · exact h.tearDown
      · exact h.noteLate.drew.allreduceOp
    · dsimp only
      split
      · exact h.tearDown
      · exact h.noteLate.gatherOp
    · dsimp only
      split
      · exact h.tearDown
      · exact h.noteLate.gatherOp
    · dsimp only
      split
      · exact h.tearDown
      · exact h.noteLate.scatterOp
    · split
      · split
        · dsimp only
          split
          · exact h.tearDown
          · exact h.noteLate.countRequestOp.finishOp
        · dsimp only
          split
          · exact h.tearDown
          · exact h.noteLate.finishOp
      · split
        · dsimp only
          split
          · exact h.tearDown
          · split
            · exact h.noteLate.tearDown
            · exact (h.noteLate.whenS fun h => h.countFill).countSelect.finishOp
        · dsimp only
          split
          · exact h.tearDown
          · split
            · exact h.noteLate.tearDown
            · exact (h.noteLate.whenS fun h => h.countFill).finishOp
  · split
    · dsimp only
      split
      · exact h.tearDown
      · exact h.matmulOp
    · dsimp only
      split
      · exact h.tearDown
      · exact h.attnOp
    · dsimp only
      split
      · exact h.tearDown
      · exact h.drew.allreduceOp
    · dsimp only
      split
      · exact h.tearDown
      · exact h.gatherOp
    · dsimp only
      split
      · exact h.tearDown
      · exact h.gatherOp
    · dsimp only
      split
      · exact h.tearDown
      · exact h.scatterOp
    · split
      · split
        · dsimp only
          split
          · exact h.tearDown
          · exact h.countRequestOp.finishOp
        · dsimp only
          split
          · exact h.tearDown
          · exact h.finishOp
      · split
        · dsimp only
          split
          · exact h.tearDown
          · split
            · exact h.tearDown
            · exact (h.whenS fun h => h.countFill).countSelect.finishOp
        · dsimp only
          split
          · exact h.tearDown
          · split
            · exact h.tearDown
            · exact (h.whenS fun h => h.countFill).finishOp

protected theorem countCores {g : Nat} {env : OpEnv} (h : Keeps s t) : Keeps s (countCores g env t) := h.evCount.evCount

protected theorem execOperationStart {cluster slot : Nat} {env : OpEnv} (h : Keeps s t) :
    Answers s (execOperationStart cluster slot env t) := by
  unfold execOperationStart
  split
  · exact h.next
  · split
    · dsimp only
      split
      · exact h.tearDownFor.next
      · exact h.refuseAccess.next
    · split
      · dsimp only
        split
        · exact h.tearDownFor.next
        · exact h.tearDown.next
      · dsimp only
        split
        · exact h.tearDownFor.next
        · exact (h.countCores.chargeUnit.foldS fun _ h => h.charge).runOp.next

/-! ### Memory (12) -/

protected theorem readLentFrame {key : Nat} {f : LentFrame} (h : Keeps s t) : Keeps s (readLentFrame key f t) := by
  unfold readLentFrame
  split
  · exact h
  · dsimp only
    exact h.modMem.modPair.sendAll

protected theorem readLentFrames {xs : List (Bool × Nat × Nat × Nat)} (h : Keeps s t) : Keeps s (readLentFrames xs t) := by
  unfold readLentFrames
  exact h.foldS fun _ h => by
    split
    · exact h.readLentFrame
    · exact h

protected theorem placeFrame {i : Image} {x : Bool × Nat × Nat × Nat} (h : Keeps s t) : Keeps s (placeFrame i t x) := by
  unfold placeFrame
  split
  · exact h
  · dsimp only
    split
    · exact h
    · exact h.modMem.sendAll

protected theorem askLeases (h : Keeps s t) : Keeps s (askLeases t) := by
  unfold askLeases
  dsimp only
  exact h.drew.foldS fun _ h => h.sendReq

protected theorem modUnitCtxs {n : Nat} {f : Ctx → Ctx} (h : Keeps s t) : Keeps s (modUnitCtxs n f t) :=
  h.foldS fun _ h => h.modShare

protected theorem issueFetch {n : Nat} {u : SUnit} {i : Image} {c : Ctx} {r : RelayEntry} (h : Keeps s t) :
    Keeps s (issueFetch n u i c r t) := by
  unfold issueFetch
  split
  · split
    · split
      · dsimp only
        split
        · split
          · exact h.modUnitCtxs.modMem.evCount
          · exact h.modUnitCtxs.modMem.evCount.readLentFrames.whenS fun h => h.askLeases
        · split
          · exact h.modUnitCtxs.modMem.evCount
          · exact h.modUnitCtxs.modMem.evCount.readLentFrames.whenS fun h => h.askLeases
      · dsimp only
        split
        · split
          · exact h.modUnitCtxs.modMem.evCount
          · exact h.modUnitCtxs.modMem.evCount.readLentFrames.whenS fun h => h.askLeases
        · split
          · exact h.modUnitCtxs.modMem.evCount
          · exact h.modUnitCtxs.modMem.evCount.readLentFrames.whenS fun h => h.askLeases
    · dsimp only
      split
      · split
        · exact h.modUnitCtxs.modMem.evCount
        · exact h.modUnitCtxs.modMem.evCount.readLentFrames.whenS fun h => h.askLeases
      · split
        · exact h.modUnitCtxs.modMem.evCount
        · exact h.modUnitCtxs.modMem.evCount.readLentFrames.whenS fun h => h.askLeases
  · dsimp only
    split
    · split
      · exact h.modUnitCtxs.modMem.evCount
      · exact h.modUnitCtxs.modMem.evCount.readLentFrames.whenS fun h => h.askLeases
    · split
      · exact h.modUnitCtxs.modMem.evCount
      · exact h.modUnitCtxs.modMem.evCount.readLentFrames.whenS fun h => h.askLeases

protected theorem execFetchIssue {unit seq : Nat} (h : Keeps s t) : Answers s (execFetchIssue unit seq t) := by
  unfold execFetchIssue
  split
  · split
    · exact h.issueFetch.next
    · exact h.next
  · exact h.next

protected theorem missFetch {n : Nat} {u : SUnit} {i : Image} {c : Ctx} {r : RelayEntry} (h : Keeps s t) :
    Keeps s (missFetch n u i c r t) := by
  unfold missFetch
  split
  · split
    · dsimp only
      exact h.modUnitCtxs.modMem.evCount
    · dsimp only
      exact h.modUnitCtxs.modMem.evCount.foldS fun _ h => h.charge
  · split
    · split
      · dsimp only
        exact h.modUnitCtxs.modMem.evCount
      · dsimp only
        exact h.modUnitCtxs.modMem.evCount.foldS fun _ h => h.charge
    · split
      · dsimp only
        exact h.modUnitCtxs.modMem.evCount
      · dsimp only
        exact h.modUnitCtxs.modMem.evCount.foldS fun _ h => h.charge
  · split
    · dsimp only
      exact h.modUnitCtxs.modMem.evCount
    · dsimp only
      exact h.modUnitCtxs.modMem.evCount.foldS fun _ h => h.charge

protected theorem execFetchDeadline {unit seq : Nat} (h : Keeps s t) : Answers s (execFetchDeadline unit seq t) := by
  unfold execFetchDeadline
  split
  · split
    · exact h.advanceTo.missFetch.next
    · exact h.next
  · exact h.next

protected theorem arriveFetch {n : Nat} {u : SUnit} {i : Image} {c : Ctx} {r : RelayEntry} {f : Fetch} {rows : List Nat} (h : Keeps s t) :
    Keeps s (arriveFetch n u i c r f rows t) := by
  unfold arriveFetch
  split
  · dsimp only
    exact h.modUnitCtxs.countFill.modMem.foldS fun _ h => h.placeFrame
  · dsimp only
    exact h.modUnitCtxs.countFill.modMem

protected theorem execFetchArrive {unit seq : Nat} {rows : List Nat} (h : Keeps s t) : Answers s (execFetchArrive unit seq rows t) := by
  unfold execFetchArrive
  split
  · split
    · split
      · exact h.missFetch.next
      · exact h.arriveFetch.next
    · exact h.next
  · exact h.next

protected theorem execScrubPass {stack : Nat} (h : Keeps s t) : Answers s (execScrubPass stack t) := by
  unfold execScrubPass
  split
  · exact h.readLines.next
  · exact h.next

protected theorem execLeasePathLost {lease : Nat} (h : Keeps s t) : Answers s (execLeasePathLost lease t) := by
  unfold execLeasePathLost
  split
  · exact h.modMem.next
  · exact h.next

protected theorem execMemLendDisable {fn : Nat} (h : Keeps s t) : Answers s (execMemLendDisable fn t) := by
  unfold execMemLendDisable
  split
  · exact (h.modMem.foldS fun _ h => h.reclaimLease).next
  · exact h.next

/-! ### Flash upkeep (13) -/

protected theorem relocate {ch : Nat} {b : Block} {dst : Nat × Nat} (h : Keeps s t) : Keeps s (relocate ch b dst t) := by
  unfold relocate
  split
  · exact h
  · dsimp only
    exact h.modChannel.drew.countPrograms.countReads

protected theorem eraseBlock {ch : Nat} {b : Block} (h : Keeps s t) : Keeps s (eraseBlock ch b t) :=
  h.modChannel.modFlash.evCount

protected theorem flashIrq (h : Keeps s t) : Keeps s (flashIrq t) := h.modPage.irqEval

protected theorem goReadOnly {part ch cause : Nat} (h : Keeps s t) : Keeps s (goReadOnly part ch cause t) := by
  unfold goReadOnly
  split
  · dsimp only
    split
    · exact (h.foldS fun _ h => by
        split
        · exact h.drainBuffers
        · exact h).modFlash
    · exact ((h.foldS fun _ h => by
        split
        · exact h.drainBuffers
        · exact h).modFlash.modFlash.foldS fun _ h => h.abortSession).recordEvent.flashIrq.postNotice
  · dsimp only
    split
    · exact (h.foldS fun _ h => by
        split
        · exact h.drainBuffers
        · exact h).modFlash
    · exact ((h.foldS fun _ h => by
        split
        · exact h.drainBuffers
        · exact h).modFlash.modFlash.foldS fun _ h => h.abortSession).recordEvent.flashIrq.postNotice

protected theorem retireBlock {ch part die num : Nat} (h : Keeps s t) : Keeps s (retireBlock ch part die num t) := by
  unfold retireBlock
  split
  · dsimp only
    split
    · exact h
    · exact h.goReadOnly
  · split
    · dsimp only
      split
      · exact h
      · exact h.relocate.modChannel.modFlash.recordEvent
    · dsimp only
      split
      · exact h
      · exact h.relocate.modChannel.modFlash.recordEvent

protected theorem markRefresh {ch : Nat} {b : Block} (h : Keeps s t) : Keeps s (markRefresh ch b t) := by
  unfold markRefresh
  split
  · exact h
  · exact h.modChannel.modFlash

protected theorem unreadable {cmd : FlashHolds} (h : Keeps s t) : Keeps s (unreadable cmd t) := by
  unfold unreadable
  split
  · exact h.modColl
  · exact h.modColl
  · exact h
  · exact h.tearDown

protected theorem chargeFlashRead {r : FlashRead} (h : Keeps s t) : Keeps s (chargeFlashRead r t) := by
  unfold chargeFlashRead
  split
  · exact h
  · split
    · split
      · split
        · split
          · exact h.modGen
          · exact h.chargeUnit
        · exact h.chargeUnit
      · split
        · exact h.charge
        · exact h
    · exact h
  · exact h.chargeAcct

protected theorem dropUnread {r : FlashRead} (h : Keeps s t) : Keeps s (dropUnread r t) := by
  unfold dropUnread
  dsimp only
  exact h.whenS fun h => h.modChannel

protected theorem countRead {level : Option Nat} (h : Keeps s t) : Keeps s (countRead level t) := by
  unfold countRead
  dsimp only
  exact h.modFlash.evCount.evCount.evCount

protected theorem execFlashReadDecode {r : FlashRead} (h : Keeps s t) : Answers s (execFlashReadDecode r t) := by
  unfold execFlashReadDecode
  split
  · split
    · dsimp only
      exact h.countRead.chargeFlashRead.dropUnread.retireBlock.unreadable.next
    · split
      · dsimp only
        exact h.countRead.chargeFlashRead.next
      · split
        · dsimp only
          exact h.countRead.chargeFlashRead.markRefresh.next
        · dsimp only
          split
          · exact h.countRead.chargeFlashRead.markRefresh.modChannel.retireBlock.next
          · exact h.countRead.chargeFlashRead.markRefresh.modChannel.next
  · exact h.next

protected theorem setGc {ch part : Nat} {on : Bool} (h : Keeps s t) : Keeps s (setGc ch part on t) := h.modChannel

protected theorem execGcStart {channel part : Nat} (h : Keeps s t) : Answers s (execGcStart channel part t) := by
  unfold execGcStart
  split
  · exact h.setGc.next
  · exact h.next

protected theorem execGcBlock {channel part : Nat} (h : Keeps s t) : Answers s (execGcBlock channel part t) := by
  unfold execGcBlock
  split
  · split
    · exact h.setGc.next
    · split
      · dsimp only
        exact h.next
      · dsimp only
        exact (h.relocate.eraseBlock.modFlash.evCount.drainBuffers.whenS fun h => h.setGc).next
  · exact h.next

protected theorem execWearLevelMove {channel part : Nat} (h : Keeps s t) : Answers s (execWearLevelMove channel part t) := by
  unfold execWearLevelMove
  split
  · split
    · exact h.next
    · split
      · dsimp only
        exact h.next
      · dsimp only
        exact h.relocate.eraseBlock.modFlash.evCount.drainBuffers.modChannel.next
  · exact h.next

protected theorem execSpareLowReached {channel part : Nat} (h : Keeps s t) : Answers s (execSpareLowReached channel part t) := by
  unfold execSpareLowReached
  split
  · dsimp only
    split
    · exact h.modChannel.recordEvent.flashIrq.postNotice.next
    · exact h.next
  · dsimp only
    split
    · exact h.modChannel.recordEvent.flashIrq.postNotice.next
    · exact h.next

protected theorem execProgramFail {channel part die block : Nat} (h : Keeps s t) :
    Answers s (execProgramFail channel part die block t) := by
  unfold execProgramFail
  split
  · exact h.modFlash.evCount.retireBlock.next
  · exact h.next

protected theorem failChannel {ch : Nat} (h : Keeps s t) : Keeps s (failChannel ch t) := by
  unfold failChannel
  dsimp only
  split
  · exact h
  · exact h.modObj.modChannel.goReadOnly.goReadOnly

protected theorem execChannelFail {channel : Nat} (h : Keeps s t) : Answers s (execChannelFail channel t) := by
  unfold execChannelFail
  split
  · exact h.failChannel.next
  · exact h.next

/-- The pages that a filter on the page number keeps are as before, the others at their reset values. -/
theorem pageOf_filtered (m : Map Page) (q : Nat → Bool) (p : Nat) :
    mgetD (m.filter fun e => q e.1) p ({} : Page) = if q p then mgetD m p {} else {} := by
  induction m with
  | nil => simp [mgetD, mget]
  | cons e m ih =>
    by_cases hp : p = e.1
    · subst hp
      cases hq : q e.1 <;> simp_all [mgetD, mget]
    · cases hq : q e.1 <;> simp_all [mgetD, mget]

/-! ### Bring-up, losses and resets (17, 21) -/

/-- A reset keeps host memory and the records, and brings the pages and the link registers back to their reset values. -/
protected theorem resetModule {cause : Option Nat} {aux : Bool} (h : Keeps s t) : Keeps s (resetModule cause aux t) := by
  refine ⟨h.pending, fun g => ⟨(h.good g).1, Nat.zero_le 3, ?_⟩, fun g => ⟨fun p => ?_, ?_⟩⟩
  · have hrecords := (h.good g).2.2
    cases aux <;> exact hrecords
  · cases aux
    · rfl
    · refine (congrArg (fun x => x.evcs.length) (pageOf_filtered t.regs.pages (· == 13) p)).trans ?_
      split
      · exact (h.sound g).1 p
      · rfl
  · exact (by decide : (0 : BitVec 64) &&& 0 = 0 ∧ (0 : BitVec 64).toNat < 2 ^ 54 ∧ (0 : BitVec 64).toNat < 2 ^ 54)

protected theorem floorAtLeast {kind v : Nat} (h : Keeps s t) : Keeps s (floorAtLeast kind v t) := h.modSec

protected theorem adoptConfig (h : Keeps s t) : Keeps s (adoptConfig t) := by
  unfold adoptConfig
  split
  · exact h.modSec.floorAtLeast
  · exact h.modSec.recordEvent

protected theorem enableStage (h : Keeps s t) : Keeps s (enableStage t) := by
  unfold enableStage
  dsimp only
  split
  · split
    · exact h.modBoot
    · split
      · exact h.modBoot
      · exact h
  · exact h

protected theorem execAuxPowerApplied {identityOk : Bool} (h : Keeps s t) : Answers s (execAuxPowerApplied identityOk t) := by
  unfold execAuxPowerApplied
  split
  · exact h.next
  · split
    · exact h.modBoot.next
    · dsimp only
      exact (h.modBoot.resetModule.modSec.whenS fun h => h.recordEvent).adoptConfig.next

protected theorem execStarterVerify {verify : Nat} (h : Keeps s t) : Answers s (execStarterVerify verify t) := by
  unfold execStarterVerify
  split
  · refine Keeps.next (Keeps.enableStage ?_)
    by_cases hv : verify = 0
    · exact h.modBoot (by intro; rw [if_pos hv])
    · exact h.setLevelTo (by rw [if_neg hv]) (by intro; rw [if_neg hv])
  · exact h.next

protected theorem execMainInputPresent (h : Keeps s t) : Answers s (execMainInputPresent t) := by
  unfold execMainInputPresent
  dsimp only
  exact h.advanceTo.modBoot.enableStage.next

protected theorem dropMappings (h : Keeps s t) : Keeps s (dropMappings t) := h.same rfl

protected theorem bringUpKeys (h : Keeps s t) : Keeps s (bringUpKeys t) := by
  unfold bringUpKeys
  split
  · exact h
  · dsimp only
    split
    · exact h.openKeys
    · exact h.openKeys.dropMappings.freshKeys

protected theorem makeBoardKeys (h : Keeps s t) : Keeps s (makeBoardKeys t) := h.modSec

protected theorem execBringupPhase4 (h : Keeps s t) : Answers s (execBringupPhase4 t) := by
  unfold execBringupPhase4
  split
  · exact h.makeBoardKeys.bringUpKeys.modBoot.modHif.next
  · exact h.next

protected theorem selfTest {g : Nat} {rows cols : List Nat} (h : Keeps s t) : Keeps s (selfTest g rows cols t) := by
  unfold selfTest
  dsimp only
  split
  · exact h.modCluster
  · exact h.retireCluster

protected theorem retireStack {n : Nat} (h : Keeps s t) : Keeps s (retireStack n t) := h.modStack.recordEvent

protected theorem takeShare (h : Keeps s t) : Keeps s (takeShare t) := by
  unfold takeShare
  split
  · exact h
  · split
    · exact h
    · split
      · exact h.modFlash
      · exact h.recordEvent

protected theorem replayDumps {dump : Bool} (h : Keeps s t) : Keeps s (replayDumps dump t) := by
  unfold replayDumps
  split
  · dsimp only
    exact (((h.modFlash.drawFree.whenS fun h => h.recordEvent).foldS fun _ h => h.abortSession).foldS fun _ h => h.recordEvent).modBoot
  · dsimp only
    exact (((h.modFlash.whenS fun h => h.recordEvent).foldS fun _ h => h.abortSession).foldS fun _ h => h.recordEvent).modBoot

protected theorem openChannels (h : Keeps s t) : Keeps s (openChannels t) := by
  unfold openChannels
  exact h.foldS fun _ h => by
    split
    · exact h
    · exact h.modChannel

protected theorem execBringupPhase5 {r : Phase5} (h : Keeps s t) : Answers s (execBringupPhase5 r t) := by
  unfold execBringupPhase5
  split
  · dsimp only
    exact ((h.foldS fun _ h => h.selfTest).foldS fun _ h => h.retireStack).replayDumps.takeShare.openChannels.modBoot.next
  · exact h.next

protected theorem execStackTrained {stack : Nat} (h : Keeps s t) : Answers s (execStackTrained stack t) := by
  unfold execStackTrained
  dsimp only
  split
  · exact h.modStack.moveLines.next
  · exact h.next

protected theorem setLevel {n : Nat} (h : Keeps s t) (hn : n ≤ 3) : Keeps s (setLevel n t) := (h.setLevelTo hn).recordEvent

protected theorem execCatalogueReload {revoked : List Nat} (h : Keeps s t) : Answers s (execCatalogueReload revoked t) := by
  unfold execCatalogueReload
  split
  · dsimp only
    exact (h.modBoot.foldS fun _ h => h.modObj.recordEvent).next
  · exact h.next

protected theorem execProofingBegin (h : Keeps s t) : Answers s (execProofingBegin t) := by
  unfold execProofingBegin
  split
  · exact (h.modBoot.setLevel (by decide)).next
  · exact h.next

protected theorem execCollectionVerified {coll : Nat} {lostPages : List Nat} (h : Keeps s t) :
    Answers s (execCollectionVerified coll lostPages t) := by
  unfold execCollectionVerified
  split
  · split
    · exact h.modColl.next
    · exact h.next
  · exact h.next

protected theorem execFullBegin (h : Keeps s t) : Answers s (execFullBegin t) := by
  unfold execFullBegin
  split
  · exact (h.modBoot.modObj.setLevel (by decide)).next
  · exact h.next

protected theorem shedLoad (h : Keeps s t) : Keeps s (shedLoad t) :=
  ⟨h.pending, fun g => ⟨(h.good g).1, Nat.zero_le 3, (h.good g).2.2⟩, fun g => h.sound g⟩

protected theorem startHandover (h : Keeps s t) : Keeps s (startHandover t) := h.shedLoad.modBoot.modFlash.flushSnaps

protected theorem loseMain {cause : LossCause} (h : Keeps s t) : Keeps s (loseMain cause t) := by
  unfold loseMain
  split
  · dsimp only
    exact h.modBoot
  · split
    · dsimp only
      exact h.modBoot.recordEvent.startHandover
    · dsimp only
      exact h.modBoot

protected theorem execMainInputLost {cause : LossCause} (h : Keeps s t) : Answers s (execMainInputLost cause t) := by
  unfold execMainInputLost
  split
  · exact h.loseMain.next
  · exact h.next

protected theorem execAuxInputLost (h : Keeps s t) : Answers s (execAuxInputLost t) := by
  unfold execAuxInputLost
  split
  · exact h.next
  · split
    · dsimp only
      exact h.modBoot.loseMain.next
    · dsimp only
      exact h.modBoot.recordEvent.modBoot.resetModule.next

protected theorem finishHandover (h : Keeps s t) : Keeps s (finishHandover t) := by
  unfold finishHandover
  split
  · dsimp only
    split
    · exact h.modBoot.modFlash.resetModule.adoptConfig.enableStage
    · exact h.modBoot.modFlash.resetModule
  · dsimp only
    split
    · exact h.modBoot.modFlash.resetModule.adoptConfig.enableStage
    · exact h.modBoot.modFlash.resetModule

protected theorem execHandoverEnd (h : Keeps s t) : Answers s (execHandoverEnd t) := by
  unfold execHandoverEnd
  split
  · exact h.finishHandover.next
  · exact h.next

/-- Limits added to a record leave every record's number. -/
theorem addLimits_seq (l : List HardLimit) (rs : List Rec) : (addLimits l rs).map Rec.seq = rs.map Rec.seq := by
  induction rs with
  | nil => rfl
  | cons r rs ih =>
    unfold addLimits
    split
    · rfl
    · simp [ih]

protected theorem execHardLimitTrip {limits : List HardLimit} (h : Keeps s t) : Answers s (execHardLimitTrip limits t) := by
  unfold execHardLimitTrip
  split
  · exact h.next
  · split
    · have hlimits := fun (b : Boot → Boot) (l : List HardLimit) (k : Keeps s (modBoot b t)) =>
        k.setRecords (f := fun m => { m with records := (addLimits l m.records.reverse).reverse }) fun g r hr => by
          have hseq : r.seq ∈ (addLimits l t.mgmt.records.reverse).map Rec.seq :=
            List.mem_map_of_mem (List.mem_reverse.mp hr)
          rw [addLimits_seq, List.map_reverse, List.mem_reverse, List.mem_map] at hseq
          obtain ⟨x, hx, hxr⟩ := hseq
          exact hxr ▸ g x hx
      dsimp only
      split
      · exact (hlimits _ _ h.modBoot).modBoot.finishHandover.next
      · exact (hlimits _ _ h.modBoot).next
    · exact h.modBoot.recordEvent.startHandover.next

protected theorem resetNow {cause : Nat} (h : Keeps s t) : Keeps s (resetNow cause t) := h.modFlash.flushSnaps.resetModule

protected theorem execGlbReset {fn : Nat} {value : BitVec 32} (h : Keeps s t) : Answers s (execGlbReset fn value t) := by
  unfold execGlbReset
  split
  · exact h.resetNow.adoptConfig.enableStage.next
  · exact h.next

protected theorem execResetNLow (h : Keeps s t) : Answers s (execResetNLow t) := by
  unfold execResetNLow
  split
  · exact h.resetNow.modBoot.next
  · exact h.next

protected theorem execResetNRise (h : Keeps s t) : Answers s (execResetNRise t) := by
  unfold execResetNRise
  split
  · exact h.modBoot.adoptConfig.enableStage.next
  · exact h.next

/-- The link registers may change while no link is set in both and bits 63:54 stay zero. -/
protected theorem setLinks {f : Boot → Boot} (h : Keeps s t) (hl : (f t.boot).level = t.boot.level)
    (e : (t.boot.linkFailed &&& t.boot.linkDegraded = 0 ∧ t.boot.linkFailed.toNat < 2 ^ 54 ∧ t.boot.linkDegraded.toNat < 2 ^ 54) →
      (f t.boot).linkFailed &&& (f t.boot).linkDegraded = 0 ∧ (f t.boot).linkFailed.toNat < 2 ^ 54 ∧
        (f t.boot).linkDegraded.toNat < 2 ^ 54) :
    Keeps s (modBoot f t) := by
  refine ⟨h.pending, fun g => ⟨(h.good g).1, ?_, (h.good g).2.2⟩, fun g => ⟨(h.sound g).1, e (h.sound g).2⟩⟩
  exact hl ▸ (h.good g).2.1

/-- One internal link's bit lies below bit 54. -/
theorem linkBit_lt {link : Nat} (hlink : link < 54) : (BitVec.twoPow 64 link).toNat < 2 ^ 54 := by
  rw [BitVec.toNat_twoPow]
  exact (Nat.mod_le _ _).trans_lt (Nat.pow_lt_pow_right (by decide) hlink)

protected theorem execInternalLinkFail {link : Nat} (h : Keeps s t) : Answers s (execInternalLinkFail link t) := by
  unfold execInternalLinkFail
  split
  · rename_i hlink
    have hbits := h.setLinks (f := fun b => { b with
        linkFailed := b.linkFailed ||| BitVec.twoPow 64 link, linkDegraded := b.linkDegraded &&& ~~~BitVec.twoPow 64 link }) rfl (by
      rintro ⟨hboth, hfailed, hdegraded⟩
      refine ⟨?_, ?_, ?_⟩
      · ext i
        have hi := congrArg (fun v => v.getLsbD i) hboth
        simp only [BitVec.getLsbD_and] at hi
        grind
      · rw [BitVec.toNat_or]
        exact Nat.or_lt_two_pow hfailed (linkBit_lt hlink.1)
      · rw [BitVec.toNat_and]
        exact Nat.and_le_left.trans_lt hdegraded)
    exact ((hbits.foldS fun _ h => h.failChannel).foldS fun _ h => h.takeDown).next
  · exact h.next

protected theorem execLinkDegraded {link : Nat} (h : Keeps s t) : Answers s (execLinkDegraded link t) := by
  unfold execLinkDegraded
  split
  · rename_i hlink
    obtain ⟨hlt, hwhole, -⟩ := hlink
    refine (Keeps.setLinks h rfl ?_).recordEvent.next
    rintro ⟨hboth, hfailed, hdegraded⟩
    refine ⟨?_, hfailed, ?_⟩
    · have hbit : t.boot.linkFailed &&& BitVec.twoPow 64 link = 0 := by
        rw [BitVec.and_twoPow, if_neg (by simpa [linkFailed] using hwhole)]
        rfl
      exact BitVec.and_or_distrib_left.trans (by rw [hboth, hbit]; rfl)
    · rw [BitVec.toNat_or]
      exact Nat.or_lt_two_pow hdegraded (linkBit_lt hlt)
  · exact h.next

protected theorem forgetSaved {g : Nat} (h : Keeps s t) : Keeps s (forgetSaved g t) := h.modSched

protected theorem execClusterPowerOff {fn cluster : Nat} (h : Keeps s t) : Answers s (execClusterPowerOff fn cluster t) := by
  unfold execClusterPowerOff
  dsimp only
  split
  · exact h.modCluster.forgetSaved.next
  · exact h.next

protected theorem execClusterPowerOn {fn cluster : Nat} (h : Keeps s t) : Answers s (execClusterPowerOn fn cluster t) := by
  unfold execClusterPowerOn
  split
  · exact h.modCluster.next
  · exact h.next

protected theorem execClusterPowerOnDone {cluster : Nat} {rows cols : List Nat} (h : Keeps s t) :
    Answers s (execClusterPowerOnDone cluster rows cols t) := by
  unfold execClusterPowerOnDone
  dsimp only
  split
  · exact h.selfTest.modCluster.next
  · exact h.next

protected theorem execRcvReqTimer (h : Keeps s t) : Answers s (execRcvReqTimer t) := by
  unfold execRcvReqTimer
  split
  · dsimp only
    exact h.advanceTo.putOn.putOn.next
  · exact h.next

protected theorem execRcvReq {port : Nat} (h : Keeps s t) : Answers s (execRcvReq port t) := by
  unfold execRcvReq
  split
  · dsimp only
    exact (h.foldS fun _ h => h.putOn).next
  · exact h.next

protected theorem rcvWhole {source : Nat} {b : Bytes} (h : Keeps s t) : Keeps s (rcvWhole source b t) := h.modBoot

protected theorem execRcvData {port offset total : Nat} {data : Bytes} (h : Keeps s t) :
    Answers s (execRcvData port offset total data t) := by
  unfold execRcvData
  split
  · dsimp only
    split
    · exact h.rcvWhole.next
    · exact h.modBoot.next
  · exact h.next

protected theorem execRcvGo {image : Bytes} (h : Keeps s t) : Answers s (execRcvGo image t) := by
  unfold execRcvGo
  split
  · dsimp only
    split
    · exact h.rcvWhole.next
    · exact h.modBoot.next
  · dsimp only
    exact h.next

protected theorem writeFirmware {image : Bytes} (h : Keeps s t) : Keeps s (writeFirmware image t) := h.modBoot.raiseFloor

protected theorem execRcvImageComplete (h : Keeps s t) : Answers s (execRcvImageComplete t) := by
  unfold execRcvImageComplete
  split
  · split
    · exact h.next
    · dsimp only
      split
      · exact h.evCount.modBoot.next
      · split
        · exact h.evCount.modBoot.next
        · exact (h.evCount.writeFirmware.setLevelTo (Nat.zero_le 3)).enableStage.next
  · exact h.next

/-! ### Live servicing (17) -/

protected theorem lsRefuse {op result : Nat} (h : Keeps s t) : Keeps s (lsRefuse op result t) := h.modBoot

protected theorem lsBegin {op target total : Nat} {prior : PortState} (h : Keeps s t) : Keeps s (lsBegin op target total prior t) :=
  h.modBoot

protected theorem lsCmd {fn op : Nat} {go : State → State} (h : Keeps s t) (e : ∀ {u}, Keeps s u → Keeps s (go u)) :
    Keeps s (lsCmd fn op go t) := by
  unfold lsCmd
  split
  · exact h
  · split
    · exact h.lsRefuse
    · exact e h

protected theorem execLsRetireStack {fn target : Nat} (h : Keeps s t) : Answers s (execLsRetireStack fn target t) := by
  unfold execLsRetireStack
  exact (h.lsCmd fun h => by
    split
    · exact h.lsRefuse
    · split
      · exact h.lsRefuse
      · dsimp only
        exact h.drawFree.modStack.lsBegin).next

protected theorem execLsRetireChannel {fn target : Nat} (h : Keeps s t) : Answers s (execLsRetireChannel fn target t) := by
  unfold execLsRetireChannel
  exact (h.lsCmd fun h => by
    split
    · exact h.lsRefuse
    · split
      · exact h.lsRefuse
      · exact h.lsBegin).next

protected theorem execLsRecalibratePort {fn target : Nat} (h : Keeps s t) : Answers s (execLsRecalibratePort fn target t) := by
  unfold execLsRecalibratePort
  exact (h.lsCmd fun h => by
    split
    · exact h.lsRefuse
    · dsimp only
      split
      · exact h.lsBegin
      · exact h.takeDown.lsBegin).next

protected theorem execLsMicrocode {fn target : Nat} (h : Keeps s t) : Answers s (execLsMicrocode fn target t) := by
  unfold execLsMicrocode
  exact (h.lsCmd fun h => by
    split
    · dsimp only
      split
      · exact h.lsRefuse
      · split <;> exact h.lsRefuse
    · dsimp only
      split
      · exact h.lsRefuse
      · split
        · exact h.lsRefuse
        · exact h.lsBegin).next

protected theorem execLsHubFirmware {fn target : Nat} (h : Keeps s t) : Answers s (execLsHubFirmware fn target t) := by
  unfold execLsHubFirmware
  exact (h.lsCmd fun h => by
    split
    · exact h.lsRefuse
    · split
      · exact h.lsRefuse
      · exact h.lsBegin.modBoot).next

protected theorem endRetireStack {n : Nat} (h : Keeps s t) : Keeps s (endRetireStack n t) := by
  unfold endRetireStack
  dsimp only
  exact h.modMem.modObj.retireStack.moveLines

protected theorem moveUnits {ch part : Nat} (h : Keeps s t) : Keeps s (moveUnits ch part t) := by
  unfold moveUnits
  split
  · exact h
  · exact h.foldS fun _ h => by
      dsimp only
      exact h.drew.countPrograms.countReads.modChannel

protected theorem endRetireChannel {ch : Nat} (h : Keeps s t) : Keeps s (endRetireChannel ch t) := by
  unfold endRetireChannel
  dsimp only
  split
  · exact h.modObj.modChannel.modFlash.thawCollections.recordEvent
  · exact h.moveUnits.moveUnits.modObj.modChannel.modFlash.thawCollections.recordEvent

protected theorem endRecalibrate {port : Nat} {prior : PortState} (h : Keeps s t) : Keeps s (endRecalibrate port prior t) := by
  unfold endRecalibrate
  split
  · exact h
  · exact h.modPort.pumpPort

protected theorem lsEffect {o : LsOp} (h : Keeps s t) : Keeps s (lsEffect o t) := by
  unfold lsEffect
  split
  · exact h.endRetireStack
  · exact h.endRetireChannel
  · exact h.endRecalibrate
  · exact h.modCluster.floorAtLeast
  · exact h.modBoot.floorAtLeast.foldS fun _ h => h.drainBuffers.drainBuffers

protected theorem execLsOperationEnd (h : Keeps s t) : Answers s (execLsOperationEnd t) := by
  unfold execLsOperationEnd
  split
  · exact h.next
  · dsimp only
    exact h.evCount.lsEffect.modBoot.recordEvent.next

/-! ### Security (18) -/

protected theorem drawNonce (h : Keeps s t) : Keeps s (drawNonce t).2 := by
  unfold drawNonce
  dsimp only
  exact h.modSec

protected theorem measureReply {m : SpdmMsg} (h : Keeps s t) : Keeps s (measureReply m t).2 := by
  unfold measureReply
  dsimp only
  split
  · dsimp only
    exact h
  · split
    · dsimp only
      exact h
    · dsimp only
      exact h.drawNonce

protected theorem challengeReply {m : SpdmMsg} (h : Keeps s t) : Keeps s (challengeReply m t).2 := by
  unfold challengeReply
  split
  · dsimp only
    exact h
  · split
    · dsimp only
      exact h
    · dsimp only
      exact h.drawNonce

protected theorem keyExchangeReply {m : SpdmMsg} (h : Keeps s t) : Keeps s (keyExchangeReply m t).2 := by
  unfold keyExchangeReply
  split
  · dsimp only
    exact h
  · split
    · dsimp only
      exact h
    · dsimp only
      exact h.drawNonce.modSec

protected theorem respond {mailbox : Nat} {r : SpdmReply} (h : Keeps s r.2) : Keeps s (respond mailbox r) := h.modSec.evCount

protected theorem inSession {m : SpdmMsg} {act : SpdmSession → SpdmReply} (h : Keeps s t) (e : ∀ x, Keeps s (act x).2) :
    Keeps s (inSession m t act).2 := by
  unfold inSession
  split
  · exact e _
  · exact h

protected theorem finishReply_ {m : SpdmMsg} (h : Keeps s t) : Keeps s (finishReply_ m t).2 := by
  unfold finishReply_
  split
  · dsimp only
    exact h
  · split
    · dsimp only
      exact h.modSec
    · dsimp only
      exact h.modSec

protected theorem keyUpdateReply {m : SpdmMsg} (h : Keeps s t) : Keeps s (keyUpdateReply m t).2 := by
  unfold keyUpdateReply
  exact h.inSession fun _ => by
    dsimp only
    split
    · dsimp only
      exact h
    · split
      · dsimp only
        exact h
      · dsimp only
        exact h.modSec

protected theorem heartbeatReply {m : SpdmMsg} (h : Keeps s t) : Keeps s (heartbeatReply m t).2 := by
  unfold heartbeatReply
  exact h.inSession fun _ => by
    dsimp only
    exact h

protected theorem endSessionReply {m : SpdmMsg} (h : Keeps s t) : Keeps s (endSessionReply m t).2 := by
  unfold endSessionReply
  exact h.inSession fun _ => by
    dsimp only
    exact h.modSec

protected theorem execGetMeasurements {m : SpdmMsg} (h : Keeps s t) : Answers s (execGetMeasurements m t) := by
  unfold execGetMeasurements
  split
  · exact h.measureReply.respond.next
  · exact h.next

protected theorem execSpdmChallenge {m : SpdmMsg} (h : Keeps s t) : Answers s (execSpdmChallenge m t) := by
  unfold execSpdmChallenge
  split
  · exact h.challengeReply.respond.next
  · exact h.next

protected theorem execKeyExchange {m : SpdmMsg} (h : Keeps s t) : Answers s (execKeyExchange m t) := by
  unfold execKeyExchange
  split
  · exact h.keyExchangeReply.respond.next
  · exact h.next

protected theorem execSpdmFinish {m : SpdmMsg} (h : Keeps s t) : Answers s (execSpdmFinish m t) := by
  unfold execSpdmFinish
  split
  · exact h.finishReply_.respond.next
  · exact h.next

protected theorem execKeyUpdate {m : SpdmMsg} (h : Keeps s t) : Answers s (execKeyUpdate m t) := by
  unfold execKeyUpdate
  split
  · exact h.keyUpdateReply.respond.next
  · exact h.next

protected theorem execSpdmHeartbeat {m : SpdmMsg} (h : Keeps s t) : Answers s (execSpdmHeartbeat m t) := by
  unfold execSpdmHeartbeat
  split
  · exact h.heartbeatReply.respond.next
  · exact h.next

protected theorem execEndSession {m : SpdmMsg} (h : Keeps s t) : Answers s (execEndSession m t) := by
  unfold execEndSession
  split
  · exact h.endSessionReply.respond.next
  · exact h.next

protected theorem spdmByCode {m : SpdmMsg} (h : Keeps s t) : Keeps s (spdmByCode m t).2 := by
  unfold spdmByCode
  split
  · exact h.measureReply
  · exact h.challengeReply
  · exact h.keyExchangeReply
  · exact h.finishReply_
  · exact h.keyUpdateReply
  · exact h.heartbeatReply
  · exact h.endSessionReply
  · dsimp only
    exact h

protected theorem relayHere {q : Packet} (h : Keeps s t) : Keeps s (relayHere q t) := by
  unfold relayHere
  split
  · exact h.modFab
  · dsimp only
    exact h.spdmByCode.respond.sendAll

protected theorem execSpdmRelay {p : Packet} (h : Keeps s t) : Answers s (execSpdmRelay p t) := by
  unfold execSpdmRelay
  split
  · dsimp only
    exact h.next
  · split
    · dsimp only
      split
      · exact h.forward.next
      · split
        · exact h.sendAll.next
        · split
          · exact h.next
          · exact h.modFab.relayHere.next
    · dsimp only
      split
      · exact h.next
      · split
        · exact h.sendAll.next
        · split
          · exact h.next
          · exact h.modFab.relayHere.next

protected theorem execRecorderClear {session seq : Nat} (h : Keeps s t) : Answers s (execRecorderClear session seq t) := by
  unfold execRecorderClear
  split
  · exact h.next
  · split
    · exact (Keeps.respond h).next
    · refine Keeps.next (Keeps.respond ?_)
      dsimp only
      exact (h.setRecords fun g r hr => g r (List.mem_filter.mp hr).1).recordFull

protected theorem dbgResult {n : Nat} (h : Keeps s t) : Keeps s (dbgResult n t) := h.modSec

protected theorem execSecDbgChallenge {fn : Nat} (h : Keeps s t) : Answers s (execSecDbgChallenge fn t) := by
  unfold execSecDbgChallenge
  split
  · exact h.next
  · split
    · exact h.dbgResult.next
    · dsimp only
      exact h.drawNonce.modSec.dbgResult.next

protected theorem zeroiseKeys (h : Keeps s t) : Keeps s (zeroiseKeys t) := h.modSched.modSec

protected theorem unlockDebug (h : Keeps s t) : Keeps s (unlockDebug t) := by
  unfold unlockDebug
  dsimp only
  exact ((h.foldS fun _ h => h.acceptDisable).zeroiseKeys.modSec.whenS fun h => h.setLevel (Nat.zero_le 3)).recordEvent.dbgResult

protected theorem execSecDbgRespond {fn : Nat} {obj : Bytes} (h : Keeps s t) : Answers s (execSecDbgRespond fn obj t) := by
  unfold execSecDbgRespond
  split
  · exact h.next
  · split
    · exact h.dbgResult.next
    · split
      · exact h.dbgResult.next
      · split
        · dsimp only
          exact h.modSec.dbgResult.next
        · dsimp only
          split
          · exact h.modSec.evCount.dbgResult.next
          · split
            · exact h.modSec.evCount.dbgResult.next
            · exact h.modSec.evCount.unlockDebug.next

protected theorem execChallengeExpiry (h : Keeps s t) : Answers s (execChallengeExpiry t) := by
  unfold execChallengeExpiry
  split
  · exact h.advanceTo.modSec.next
  · exact h.next

/-! ### Management (19) -/

protected theorem execLockstepMismatch (h : Keeps s t) : Answers s (execLockstepMismatch t) := by
  unfold execLockstepMismatch
  split
  · exact h.modBoot.modMgmt.next
  · exact h.next

protected theorem execManagementRestartEnd (h : Keeps s t) : Answers s (execManagementRestartEnd t) := by
  unfold execManagementRestartEnd
  split
  · split
    · dsimp only
      exact h.modBoot.modMgmt.recordEvent.next
    · dsimp only
      exact h.modBoot.modMgmt.next
  · exact h.next

protected theorem pldmSay {binding code : Nat} {b : Bytes} (h : Keeps s t) : Keeps s (pldmSay binding code b t) := h.modMgmt

protected theorem pldm {binding : Nat} {act : State → State} (h : Keeps s t) (e : ∀ {u}, Keeps s u → Keeps s (act u)) :
    Keeps s (pldm binding act t) := by
  unfold pldm
  split
  · exact e h
  · exact h

protected theorem execSetEndpointId {binding eid : Nat} (h : Keeps s t) : Answers s (execSetEndpointId binding eid t) := by
  unfold execSetEndpointId
  refine (h.pldm fun h => ?_).next
  split
  · exact h.pldmSay
  · exact (h.modMgmt (by intro; split <;> rfl)).pldmSay

protected theorem execEntdaa {addr : Nat} (h : Keeps s t) : Answers s (execEntdaa addr t) := by
  unfold execEntdaa
  split
  · exact h.modMgmt.pldmSay.next
  · exact h.next

protected theorem execGetPldmCommands {binding ptype : Nat} (h : Keeps s t) : Answers s (execGetPldmCommands binding ptype t) := by
  unfold execGetPldmCommands
  exact (h.pldm fun h => by
    split <;> exact h.pldmSay).next

protected theorem execGetPldmVersion {binding ptype : Nat} (h : Keeps s t) : Answers s (execGetPldmVersion binding ptype t) := by
  unfold execGetPldmVersion
  exact (h.pldm fun h => by
    split <;> exact h.pldmSay).next

protected theorem execSensorRead {binding sensor value : Nat} (h : Keeps s t) : Answers s (execSensorRead binding sensor value t) := by
  unfold execSensorRead
  exact (h.pldm fun h => by
    split
    · exact h.modMgmt.pldmSay
    · exact h.pldmSay).next

protected theorem execPdrRead {binding handle : Nat} (h : Keeps s t) : Answers s (execPdrRead binding handle t) := by
  unfold execPdrRead
  exact (h.pldm fun h => by
    dsimp only
    split <;> exact h.pldmSay).next

protected theorem execSetEventReceiver {binding eid : Nat} (h : Keeps s t) : Answers s (execSetEventReceiver binding eid t) := by
  unfold execSetEventReceiver
  exact (h.pldm fun h => by
    split
    · exact h.pldmSay
    · exact h.modMgmt.pldmSay).next

/-- No pacer register is a record. -/
theorem pacerSet_records {m n : Mgmt} {off v : Nat} (e : pacerSet m off v = some n) : n.records = m.records ∧ n.lastSeq = m.lastSeq := by
  have hwhen : ∀ {c : Bool} {x : Mgmt}, (if c then some x else none) = some n → x = n := fun {c x} k => by
    cases c
    · cases k
    · exact Option.some.inj k
  unfold pacerSet at e
  dsimp only at e
  split at e
  case h_1 | h_3 => cases e; exact ⟨rfl, rfl⟩
  case h_10 => cases e
  all_goals cases hwhen e; exact ⟨rfl, rfl⟩

protected theorem pacerWrite {off v : Nat} (h : Keeps s t) : Keeps s (pacerWrite off v t) := by
  unfold pacerWrite
  split
  · exact h
  · rename_i m hset
    obtain ⟨hrecords, hseq⟩ := pacerSet_records hset
    have hm : Keeps s { t with mgmt := m } := h.same (by simp only [watched, hrecords, hseq])
    split
    · exact hm.recordEvent
    · exact hm

/-- Selecting the die or priority of a pacer register changes no record. -/
theorem selectInst_records (off inst : Nat) (m : Mgmt) :
    ((selectInst off inst m).records, (selectInst off inst m).lastSeq) = (m.records, m.lastSeq) := by
  unfold selectInst
  split <;> rfl

protected theorem execEffecterWrite {binding effecter : Nat} {value : BitVec 32} (h : Keeps s t) :
    Answers s (execEffecterWrite binding effecter value t) := by
  refine Keeps.next (h.pldm fun h => ?_)
  split
  · exact h.pldmSay
  · split
    · exact h.pldmSay
    · dsimp only
      split
      · exact h.pldmSay
      · exact Keeps.pldmSay (Keeps.modMgmt (Keeps.pacerWrite (h.modMgmt (f := selectInst _ _) (selectInst_records _ _))))

protected theorem execRequestUpdate {binding : Nat} (h : Keeps s t) : Answers s (execRequestUpdate binding t) := by
  unfold execRequestUpdate
  exact (h.pldm fun h => by
    split
    · exact h.pldmSay
    · exact h.modMgmt.pldmSay).next

protected theorem storeConfig {r : ConfigRec} (h : Keeps s t) : Keeps s (storeConfig r t) := h.modSec

protected theorem verifyComplete {ok : Bool} (h : Keeps s t) : Keeps s (verifyComplete ok t) := by
  unfold verifyComplete
  split
  · exact h.pldmSay
  · exact h

protected theorem holdComponent {c : Nat} {obj : Bytes} (h : Keeps s t) : Keeps s (holdComponent c obj t) := h.modMgmt

protected theorem execComponentTransfer {component : Nat} {obj : Bytes} (h : Keeps s t) :
    Answers s (execComponentTransfer component obj t) := by
  unfold execComponentTransfer
  split
  · exact h.next
  · split
    · exact h.verifyComplete.next
    · split
      · dsimp only
        split
        · exact h.evCount.storeConfig.holdComponent.verifyComplete.next
        · exact h.evCount.recordEvent.verifyComplete.next
      · dsimp only
        split
        · exact h.evCount.holdComponent.verifyComplete.next
        · exact h.evCount.verifyComplete.next

protected theorem activate {c : Nat × Bytes} (h : Keeps s t) : Keeps s (activate c t) := by
  unfold activate
  split
  · dsimp only
    exact h.writeFirmware.modBoot.modMgmt
  · dsimp only
    exact h.modBoot
  · dsimp only
    exact h.modBoot
  · dsimp only
    exact h

protected theorem execActivateFirmware {binding : Nat} (h : Keeps s t) : Answers s (execActivateFirmware binding t) := by
  unfold execActivateFirmware
  exact (h.pldm fun h => by
    split
    · exact h.pldmSay
    · dsimp only
      exact (h.modMgmt.pldmSay.foldS fun _ h => h.activate).whenS fun h => h.recordEvent).next

protected theorem execSetCalendar {binding value : Nat} (h : Keeps s t) : Answers s (execSetCalendar binding value t) := by
  unfold execSetCalendar
  exact (h.pldm fun h => by
    dsimp only
    split
    · exact h.pldmSay
    · exact h.modMgmt.pldmSay.recordEvent).next

protected theorem snapAll (h : Keeps s t) : Keeps s (snapAll t) := by
  refine ⟨h.pending, h.good, fun g => ⟨fun p => ?_, (h.sound g).2⟩⟩
  have hcount := (h.sound g).1 p
  simp only [pageOf, snapAll, modRegs_regs, mgetD, mget_mmap] at hcount ⊢
  cases hp : mget t.regs.pages p with
  | none => rfl
  | some x =>
    rw [hp] at hcount
    simpa using hcount

protected theorem dropSet {seq : Nat} (h : Keeps s t) : Keeps s (dropSet seq t) := by
  refine h.setRecords fun g r hr => ?_
  obtain ⟨x, hx, rfl⟩ := List.mem_map.mp hr
  split
  · exact g x hx
  · exact g x hx

protected theorem takeSet {w : Nat × Nat × Nat × Nat} (h : Keeps s t) : Keeps s (takeSet w t) := by
  unfold takeSet
  split
  · dsimp only
    split
    · exact h.snapAll.dropSet
    · split
      · exact h.snapAll.modMgmt.evCount.flushSnaps
      · exact h.snapAll.modMgmt.evCount
  · dsimp only
    split
    · exact h.snapAll.dropSet
    · split
      · exact h.snapAll.modMgmt.evCount.flushSnaps
      · exact h.snapAll.modMgmt.evCount

protected theorem execSnapshotSet {seq : Nat} (h : Keeps s t) : Answers s (execSnapshotSet seq t) := by
  unfold execSnapshotSet
  split
  · split
    · exact h.modMgmt.takeSet.next
    · exact h.next
  · exact h.next

protected theorem manualRecord (h : Keeps s t) : Keeps s (manualRecord t) := h.recordWith

protected theorem execEvrManual {fn : Nat} (h : Keeps s t) : Answers s (execEvrManual fn t) := by
  unfold execEvrManual
  split
  · exact h.manualRecord.next
  · exact h.next

protected theorem latchRecord {v : Nat} (h : Keeps s t) : Keeps s (latchRecord v t) := by
  unfold latchRecord
  split <;> exact h.modMgmt

protected theorem execEvrAdvance {fn : Nat} (h : Keeps s t) : Answers s (execEvrAdvance fn t) := by
  unfold execEvrAdvance
  split
  · exact h.latchRecord.next
  · exact h.next

protected theorem execEvrCursorWrite {fn value : Nat} (h : Keeps s t) : Answers s (execEvrCursorWrite fn value t) := by
  unfold execEvrCursorWrite
  split
  · exact h.latchRecord.next
  · exact h.next

protected theorem latchChunk {v : Nat} (h : Keeps s t) : Keeps s (latchChunk v t) := by
  unfold latchChunk
  dsimp only
  split <;> exact h.modMgmt

protected theorem execEvrSnapSelWrite {fn value : Nat} (h : Keeps s t) : Answers s (execEvrSnapSelWrite fn value t) := by
  unfold execEvrSnapSelWrite
  split
  · exact h.latchChunk.next
  · exact h.next

protected theorem setFreeze {freeze : Bool} (h : Keeps s t) : Keeps s (setFreeze freeze t) := h.modRegs

protected theorem execEvcFreeze {fn : Nat} {freeze : Bool} (h : Keeps s t) : Answers s (execEvcFreeze fn freeze t) := by
  unfold execEvcFreeze
  split
  · exact h.setFreeze.next
  · exact h.next

protected theorem execEvcSnap {fn : Nat} (h : Keeps s t) : Answers s (execEvcSnap fn t) := by
  unfold execEvcSnap
  split
  · exact h.snapAll.next
  · exact h.next

protected theorem modEvc {page i : Nat} {f : Evc → Evc} (h : Keeps s t) : Keeps s (modEvc page i f t) :=
  h.modPage fun x => by
    dsimp only
    split
    · exact List.length_set
    · rfl

protected theorem presetEvc {page i v : Nat} (h : Keeps s t) : Keeps s (presetEvc page i v t) := by
  unfold presetEvc
  split
  · exact h.modEvc
  · exact h

protected theorem execEvcCountWrite {fn page counter value : Nat} (h : Keeps s t) :
    Answers s (execEvcCountWrite fn page counter value t) := by
  unfold execEvcCountWrite
  split
  · exact h.presetEvc.next
  · exact h.next

protected theorem execEvcOverflow {page counter : Nat} (h : Keeps s t) : Answers s (execEvcOverflow page counter t) := by
  unfold execEvcOverflow
  split
  · split
    · exact h.modEvc.modPage.irqEval.next
    · exact h.next
  · exact h.next

protected theorem popErr {page : Nat} (h : Keeps s t) : Keeps s (popErr page t) := h.modPage.irqEval

protected theorem execPgErrPop {fn page : Nat} (h : Keeps s t) : Answers s (execPgErrPop fn page t) := by
  unfold execPgErrPop
  split
  · exact h.popErr.next
  · exact h.next

protected theorem irqWrite {page offset : Nat} {value : BitVec 32} (h : Keeps s t) : Keeps s (irqWrite page offset value t) := by
  unfold irqWrite
  split
  · split
    · exact h.modPage.irqEval
    · exact h
  · exact h.modPage.irqEval
  · exact h.modPage.irqEval
  · exact h

protected theorem execPgIrqReevaluate {fn page offset : Nat} {value : BitVec 32} (h : Keeps s t) :
    Answers s (execPgIrqReevaluate fn page offset value t) := by
  unfold execPgIrqReevaluate
  split
  · exact h.irqWrite.next
  · exact h.next

/-! ### Register writes (20) -/

protected theorem after {a : Answer} (_ : Keeps s t) (e : Answers s a) : Keeps s (after a t) := by
  obtain ⟨u, rfl, hu⟩ := e
  exact hu

protected theorem selEvc {p i v : Nat} (h : Keeps s t) : Keeps s (selEvc p i v t) := by
  unfold selEvc
  split
  · exact h.modEvc
  · exact h

protected theorem writeCommon {p o v : Nat} (h : Keeps s t) : Keeps s (writeCommon p o v t) := by
  unfold writeCommon
  split
  · split
    · exact h.modPage
    · exact h
  · split
    · exact h.popErr
    · exact h
  · split
    · exact h.selEvc
    · exact h.irqWrite

protected theorem clusterPower {fn i v : Nat} (h : Keeps s t) : Keeps s (clusterPower fn i v t) := by
  unfold clusterPower
  exact h.foldS fun _ h => by
    split
    · exact h.after h.execClusterPowerOn
    · exact h.after h.execClusterPowerOff

protected theorem writeGlobal {fn o v : Nat} (h : Keeps s t) : Keeps s (writeGlobal fn o v t) := by
  unfold writeGlobal
  split
  · exact h.after h.execGlbReset
  · split
    · exact h.clusterPower
    · exact h

protected theorem configQp {fn : Nat} {f : Qp → Qp} (h : Keeps s t) : Keeps s (configQp fn f t) := by
  unfold configQp
  split
  · exact h.modQp
  · exact h

protected theorem writeQpIrq {fn v : Nat} (h : Keeps s t) : Keeps s (writeQpIrq fn v t) := by
  unfold writeQpIrq
  split
  · split
    · exact h.modQp
    · exact h
  · exact h

protected theorem writeQpCtl {fn v : Nat} (h : Keeps s t) : Keeps s (writeQpCtl fn v t) := by
  unfold writeQpCtl
  split
  · exact h.after h.execQpEnable
  · exact h.after h.execQpDisable

protected theorem writeHif {fn o v : Nat} (h : Keeps s t) : Keeps s (writeHif fn o v t) := by
  unfold writeHif
  split
  · exact h.after h.execQpFind
  · exact h.modFn
  · exact h.configQp
  · exact h.writeQpIrq
  · exact h.writeQpCtl
  · split
    · exact h.modHif
    · exact h
  · exact h

protected theorem writeSched {fn o v : Nat} (h : Keeps s t) : Keeps s (writeSched fn o v t) := by
  unfold writeSched
  split
  · exact h.after h.execSchedHold
  · split
    · exact h.modSched
    · exact h
  · exact h.after h.execAcctWinLatch
  · exact h

protected theorem writeGen {fn o v : Nat} (h : Keeps s t) : Keeps s (writeGen fn o v t) := by
  unfold writeGen
  split
  · exact h.after h.execGenHold
  · exact h.after h.execRtWinLatch
  · exact h

protected theorem writeText {o v : Nat} (h : Keeps s t) : Keeps s (writeText o v t) := by
  unfold writeText
  split
  · exact h.modObj
  · exact h

protected theorem writeSearch {fn o v : Nat} (h : Keeps s t) : Keeps s (writeSearch fn o v t) := by
  unfold writeSearch
  split
  · split
    · dsimp only
      exact h.modSearch.after h.modSearch.execSearchHoldSet
    · dsimp only
      exact h.modSearch.after h.modSearch.execSearchHoldClear
  · exact h.modSearch
  · exact h

protected theorem writeTables {o v : Nat} (h : Keeps s t) : Keeps s (writeTables o v t) := by
  unfold writeTables
  split
  · exact h.modObj.whenS fun h => h.drainReplicas
  · exact h.modObj
  · dsimp only
    split
    · split
      · exact h
      · exact h.modTable
    · exact h
  · exact h

protected theorem writeMemCtl {fn v : Nat} (h : Keeps s t) : Keeps s (writeMemCtl fn v t) := by
  unfold writeMemCtl
  dsimp only
  split
  · split
    · exact (h.after h.execMemLendDisable).modMem
    · exact h.modMem
  · split
    · exact (h.after h.execMemLendDisable).modMem
    · exact h.modMem

protected theorem writeMem {fn o v : Nat} (h : Keeps s t) : Keeps s (writeMem fn o v t) := by
  unfold writeMem
  split
  · exact h.writeMemCtl
  · split
    · exact h.modMem
    · exact h
  · split
    · exact h.modMem
    · exact h
  · split
    · exact h.modMem
    · exact h
  · split
    · exact h.modMem
    · exact h
  · split
    · exact h.modMem
    · exact h
  · exact h

protected theorem writeFlash {o v : Nat} (h : Keeps s t) : Keeps s (writeFlash o v t) := by
  unfold writeFlash
  split
  · exact h.modFlash
  · exact h.modFlash
  · split
    · exact h.modFlash
    · exact h
  · split
    · exact h.modFlash
    · exact h
  · exact h.modFlash
  · exact h

protected theorem writeMember {i v : Nat} (h : Keeps s t) : Keeps s (writeMember i v t) := by
  unfold writeMember
  dsimp only
  split
  · exact h
  · exact h.modFab

protected theorem writeFabCtl {fn v : Nat} (h : Keeps s t) : Keeps s (writeFabCtl fn v t) := by
  unfold writeFabCtl
  split
  · dsimp only
    exact h.modFab.after h.modFab.execFabLeave
  · dsimp only
    exact h.modFab

protected theorem writeFab {own : Bool} {fn o v : Nat} (h : Keeps s t) : Keeps s (writeFab own fn o v t) := by
  unfold writeFab
  split
  · exact h.writeFabCtl
  · split
    · exact h.after h.execFabAssign
    · exact h
  · split
    · exact h.modFab
    · exact h
  · exact h.modFab
  · split
    · exact h
    · exact h.modPort
  · split
    · exact h.modFab
    · exact h
  · exact h.modFab
  · exact h.writeRoute
  · exact h.modFab
  · split <;> exact h.sizeSet
  · split
    · exact h.writeMember
    · exact h

protected theorem writeLs {fn o v : Nat} (h : Keeps s t) : Keeps s (writeLs fn o v t) := by
  unfold writeLs
  split
  · exact h
  · split
    · dsimp only
      exact h.after h.execLsRetireStack
    · dsimp only
      exact h.after h.execLsRetireChannel
    · dsimp only
      exact h.after h.execLsRecalibratePort
    · dsimp only
      exact h.after h.execLsMicrocode
    · dsimp only
      exact h.after h.execLsHubFirmware
    · dsimp only
      exact h.lsCmd fun h => h.lsRefuse

protected theorem writeSec {fn o v : Nat} (h : Keeps s t) : Keeps s (writeSec fn o v t) := by
  unfold writeSec
  split
  · split
    · split
      · dsimp only
        exact (h.after h.execSecDbgChallenge).after (h.after h.execSecDbgChallenge).execSecDbgRespond
      · dsimp only
        exact h.after h.execSecDbgChallenge
    · split
      · dsimp only
        exact h.after h.execSecDbgRespond
      · dsimp only
        exact h
  · exact h.modSec
  · exact h

protected theorem writeEvrCtl {v : Nat} (h : Keeps s t) : Keeps s (writeEvrCtl v t) := by
  unfold writeEvrCtl
  split
  · split
    · dsimp only
      exact h.modMgmt.manualRecord.latchRecord
    · dsimp only
      exact h.modMgmt.manualRecord
  · split
    · dsimp only
      exact h.modMgmt.latchRecord
    · dsimp only
      exact h.modMgmt

protected theorem writeMgmt {o v : Nat} (h : Keeps s t) : Keeps s (writeMgmt o v t) := by
  unfold writeMgmt
  split
  · exact h.writeEvrCtl
  · exact h.modMgmt
  · split
    · exact h.modMgmt
    · exact h
  · exact h.modMgmt
  · split
    · exact h.modMgmt
    · exact h
  · split
    · dsimp only
      exact h.setFreeze.snapAll
    · dsimp only
      exact h.setFreeze
  · exact h.pacerWrite

protected theorem writeCluster {fn g o v : Nat} (h : Keeps s t) : Keeps s (writeCluster fn g o v t) := by
  unfold writeCluster
  split
  · split
    · dsimp only
      exact (h.after h.execArrDrain).after (h.after h.execArrDrain).execArrRetire
    · dsimp only
      exact h.after h.execArrDrain
  · split
    · exact h
    · split
      · exact h.after h.execArrSpareRow
      · exact h.after h.execArrSpareColumn
      · exact h.after h.execArrSelfTest
      · exact h.modCluster
  · exact h.modCluster.irqEval
  · exact h

protected theorem writeRecovery {o v : Nat} (h : Keeps s t) : Keeps s (writeRecovery o v t) := by
  unfold writeRecovery
  split
  · exact h.modBoot
  · split
    · exact h.after h.execRcvGo
    · exact h
  · exact h

protected theorem writeBlock {own : Bool} {fn p o v : Nat} (h : Keeps s t) : Keeps s (writeBlock own fn p o v t) := by
  unfold writeBlock
  split
  · exact h.writeGlobal
  · exact h.writeHif
  · exact h.writeSched
  · exact h.writeGen
  · exact h.writeText
  · exact h.writeSearch
  · exact h
  · exact h.writeTables
  · exact h.writeMem
  · exact h.writeFlash
  · exact h.writeFab
  · exact h.writeLs
  · exact h.writeSec
  · exact h.writeMgmt
  · exact h.writeCluster

protected theorem write32 {own : Bool} {fn p o v : Nat} (h : Keeps s t) : Keeps s (write32 own fn p o v t) := by
  unfold write32
  split
  · split
    · exact h.writeRecovery
    · exact h
  · split
    · exact h
    · split
      · split
        · exact h.writeCommon
        · exact h
      · split
        · exact h
        · exact h.writeBlock

protected theorem write64 {fn p o v : Nat} (h : Keeps s t) : Keeps s (write64 fn p o v t) := by
  unfold write64
  split
  · dsimp only
    exact h.modBoot
  · split
    · dsimp only
      exact h.presetEvc
    · split
      · dsimp only
        exact h.configQp
      · dsimp only
        exact h.configQp
      · dsimp only
        exact h.configQp
      · dsimp only
        exact h.configQp
      · dsimp only
        exact h.modSec
      · dsimp only
        exact h.latchRecord
      · dsimp only
        exact h.latchChunk
      · dsimp only
        exact h

protected theorem holdLow {who p o : Nat} {v : BitVec 32} (h : Keeps s t) : Keeps s (holdLow who p o v t) := h.modRegs
protected theorem dropHeld {who p o : Nat} (h : Keeps s t) : Keeps s (dropHeld who p o t) := h.modRegs
protected theorem dropLatched {who p o : Nat} (h : Keeps s t) : Keeps s (dropLatched who p o t) := h.modRegs

protected theorem writeHigh {who fn p lo : Nat} {v : BitVec 32} (h : Keeps s t) : Keeps s (writeHigh who fn p lo v t) := by
  unfold writeHigh
  dsimp only
  exact h.dropHeld.write64

protected theorem writeWord {own : Bool} {who fn p o : Nat} {v : BitVec 32} (h : Keeps s t) : Keeps s (writeWord own who fn p o v t) := by
  unfold writeWord
  split
  · exact h.holdLow
  · split
    · exact h.writeHigh
    · exact h.write32

protected theorem writePair {own : Bool} {who fn p o : Nat} {v : BitVec 64} (h : Keeps s t) : Keeps s (writePair own who fn p o v t) := by
  unfold writePair
  split
  · split
    · dsimp only
      exact h.dropHeld.dropLatched.write64
    · dsimp only
      exact h.dropHeld.dropLatched
  · exact h.writeWord.writeWord

protected theorem countBad (h : Keeps s t) : Keeps s (countBad t) := h.modRegs.evCount

protected theorem regAccess {own : Bool} {who fn p o size : Nat} {v : BitVec 64} (h : Keeps s t) :
    Keeps s (regAccess own who fn p o size v t) := by
  unfold regAccess
  split
  · exact h.countBad
  · split
    · exact h.writePair
    · exact h.writeWord

protected theorem execHalfWrite {fn page offset : Nat} {value : BitVec 32} (h : Keeps s t) :
    Answers s (execHalfWrite fn page offset value t) := by
  unfold execHalfWrite
  split
  · exact h.holdLow.next
  · split
    · exact h.writeHigh.next
    · exact h.next

protected theorem answerRead {b : Bytes} (h : Keeps s t) : Keeps s (answerRead b t) := h.modRegs

protected theorem execHalfReadLatch {fn page offset : Nat} (h : Keeps s t) : Answers s (execHalfReadLatch fn page offset t) := by
  unfold execHalfReadLatch
  split
  · dsimp only
    split
    · exact h.modRegs.answerRead.next
    · split
      · exact h.answerRead.next
      · exact h.next
  · dsimp only
    split
    · exact h.modRegs.answerRead.next
    · split
      · exact h.answerRead.next
      · exact h.next

protected theorem plainRead {fn page offset size : Nat} (h : Keeps s t) : Keeps s (plainRead fn page offset size t) := by
  unfold plainRead
  split
  · dsimp only
    split
    · exact h.dropLatched.answerRead
    · exact h.answerRead
  · dsimp only
    split
    · exact h
    · exact h.answerRead

protected theorem execBadAccess {fn page offset size : Nat} {isWrite : Bool} (h : Keeps s t) :
    Answers s (execBadAccess fn page offset size isWrite t) := by
  unfold execBadAccess
  split
  · exact h.next
  · split
    · split
      · exact h.next
      · exact h.plainRead.next
    · split
      · dsimp only
        exact h.countBad.next
      · dsimp only
        exact h.countBad.answerRead.next

protected theorem execRegRead {p : Packet} (h : Keeps s t) : Answers s (execRegRead p t) := by
  unfold execRegRead
  exact (h.fromAnchor fun _ h => by
    split
    · exact h.sendAll
    · split
      · exact h.countBad.sendAll
      · exact h.sendAll).next

protected theorem execRegWrite {p : Packet} (h : Keeps s t) : Answers s (execRegWrite p t) := by
  unfold execRegWrite
  exact (h.fromAnchor fun _ h => by
    split
    · exact h.mgmtStatus
    · exact h.regAccess.mgmtStatus).next

end Keeps

/-- Every command answers a next state that keeps what was kept. -/
theorem exec_answers (i : Instr) (s : State) : Answers s (exec i s) := by
  have h := Keeps.refl s
  cases i with
  | request _ => exact h.execRequest
  | inputChunk _ => exact (h.runCmd fun _ h => h.inputBody).next
  | cancel _ => exact (h.runCmd fun _ h => h.cancelBody).next
  | run _ => exact (h.runCmd fun _ h => h.runBody).next
  | batonRelease _ => exact (h.runCmd fun _ h => h.batonReleaseBody).next
  | ingestOpen _ => exact (h.runCmd fun _ h => h.ingestOpenBody).next
  | ingestOp _ => exact (h.runCmd fun _ h => h.ingestOpBody).next
  | ingestCommit _ => exact (h.runCmd fun _ h => h.ingestCommitBody).next
  | commitDurable _ => exact h.execCommitDurable
  | ingestAbort _ => exact (h.runCmd fun _ h => h.ingestAbortBody).next
  | filterRegister _ => exact (h.runCmd fun _ h => h.filterRegisterBody).next
  | filterUnregister _ => exact h.execFilterUnregister
  | profileLoad _ => exact h.execProfileLoad
  | profileLoadRelease _ => exact h.execProfileLoadRelease
  | profileUnload _ => exact h.execProfileUnload
  | imageLoad _ => exact (h.runCmd fun _ h => h.imageLoadBody).next
  | imageUnload _ => exact (h.runCmd fun _ h => h.imageUnloadBody).next
  | tokenizerLoad _ => exact h.execTokenizerLoad
  | tokenizerUnload _ => exact h.execTokenizerUnload
  | templateLoad _ => exact h.execTemplateLoad
  | templateUnload _ => exact h.execTemplateUnload
  | collectionCreate _ => exact h.execCollectionCreate
  | collectionDelete _ => exact h.execCollectionDelete
  | tableCreate _ => exact (h.runCmd fun _ h => h.tableCreateBody).next
  | tableDelete _ => exact (h.runCmd fun _ h => h.tableDeleteBody).next
  | versionNew _ => exact h.execVersionNew
  | versionSwitch _ => exact h.execVersionSwitch
  | versionRetire _ => exact h.execVersionRetire
  | rowPin _ => exact h.execRowPin
  | accountCreate _ => exact h.execAccountCreate
  | accountUpdate _ => exact h.execAccountUpdate
  | accountDelete _ => exact h.execAccountDelete
  | accountScrubEnd _ => exact h.execAccountScrubEnd
  | qpBind _ => exact h.execQpBind
  | qpUnbind _ => exact h.execQpUnbind
  | fnDisable _ => exact (h.runCmd fun _ h => h.acceptDisable.okWith).next
  | acctLogRead _ => exact h.execAcctLogRead
  | asyncWait _ => exact (h.runCmd fun _ h => h.asyncBody).next
  | commandFetch _ => exact h.execCommandFetch
  | sqTailDoorbell _ _ _ => exact (h.doorbell fun _ h => h.sqTail).next
  | cqHeadDoorbell _ _ _ => exact (h.doorbell fun _ h => h.cqHead).next
  | streamHeadDoorbell _ _ _ => exact (h.doorbell fun _ h => h.streamHead).next
  | qpEnable _ _ => exact h.execQpEnable
  | qpDisable _ _ => exact h.execQpDisable
  | qpFind _ _ => exact h.modFn.next
  | irqModerationTimer _ => exact h.execIrqModerationTimer
  | bar4Access _ _ _ => exact h.execBar4Access
  | dmaReadError _ _ => exact h.execDmaReadError
  | stageBoundary _ => exact h.stageBoundary.next
  | walkStart _ => exact h.execWalkStart
  | walkHop _ _ _ => exact h.execWalkHop
  | relayArrive _ => exact h.execRelayArrive
  | offerBatch _ => exact h.execOfferBatch
  | endReport _ => exact h.execEndReport
  | mergeUnite _ => exact h.execMergeUnite
  | shardWaitExpiry _ => exact h.execShardWaitExpiry
  | nodeRebuild _ _ => exact h.execNodeRebuild
  | searchHoldSet _ => exact h.execSearchHoldSet
  | searchHoldClear _ => exact h.execSearchHoldClear
  | reservationGrant _ => exact h.execReservationGrant
  | stepForm _ _ _ => exact h.formStep.next
  | stepCommit _ => exact h.commitStep.next
  | entryFree _ => exact h.execEntryFree
  | genHold _ _ => exact h.execGenHold
  | rtWinLatch _ _ => exact h.execRtWinLatch
  | heat => exact h.execHeat
  | sliceEnd _ => exact h.execSliceEnd
  | preemptPointReached _ _ => exact h.execPreemptPointReached
  | watchdogExpiry _ _ => exact h.execWatchdogExpiry
  | schedHold _ _ => exact h.execSchedHold
  | acctWinLatch _ _ => exact h.execAcctWinLatch
  | clusterSleep _ => exact h.execClusterSleep
  | operationStart _ _ _ => exact h.execOperationStart
  | passIssue _ _ _ _ => exact h.execPassIssue
  | arrDrain _ _ _ => exact h.execArrDrain
  | arrRetire _ _ => exact h.execArrRetire
  | arrSpareRow _ _ _ => exact h.execArrSpareRow
  | arrSpareColumn _ _ _ => exact h.execArrSpareColumn
  | arrSelfTest _ _ => exact h.execArrSelfTest
  | arrSpareDone _ _ => exact h.execArrSpareDone
  | rowDeltaArrive _ _ _ _ _ => exact h.execRowDeltaArrive
  | fetchIssue _ _ => exact h.execFetchIssue
  | fetchArrive _ _ _ => exact h.execFetchArrive
  | fetchDeadline _ _ => exact h.execFetchDeadline
  | rowPromote _ _ _ _ => exact h.execRowPromote
  | promotionSnapshotsDone _ _ _ => exact h.execPromotionSnapshotsDone
  | promotionLogApplied _ _ _ => exact h.execPromotionLogApplied
  | rowDemote _ _ _ => exact h.execRowDemote
  | demotionReadsDone _ _ _ => exact h.execDemotionReadsDone
  | dirtyWriteback _ _ _ => exact h.execDirtyWriteback
  | scrubPass _ => exact h.execScrubPass
  | lendReclaimStart _ => exact h.reclaimLease.next
  | leasePathLost _ => exact h.execLeasePathLost
  | memLendDisable _ => exact h.execMemLendDisable
  | flashReadDecode _ => exact h.execFlashReadDecode
  | gcStart _ _ => exact h.execGcStart
  | gcBlock _ _ => exact h.execGcBlock
  | wearLevelMove _ _ => exact h.execWearLevelMove
  | spareLowReached _ _ => exact h.execSpareLowReached
  | programFail _ _ _ _ => exact h.execProgramFail
  | channelFail _ => exact h.execChannelFail
  | flitReceive _ _ => exact h.execFlitReceive
  | retryRequest _ _ => exact h.execRetryRequest
  | linkKeyUpdate _ => exact h.execLinkKeyUpdate
  | portTrained _ _ _ => exact h.execPortTrained
  | linkSession _ _ _ => exact h.execLinkSession
  | retxTimer _ => exact h.execRetxTimer
  | peerLossTimer _ => exact h.execPeerLossTimer
  | tablePin _ => exact h.arriveReq.next
  | tableUnpin _ => exact h.arriveReq.next
  | rowRead _ => exact h.arriveReq.next
  | rowAdd _ => exact h.arriveReq.next
  | redExp _ => exact (h.arrive fun _ h => h.redExp).next
  | redAgree _ => exact (h.arrive fun _ h => h.redAgree).next
  | redPart _ => exact (h.arrive fun _ h => h.redPart).next
  | redResult _ => exact (h.arrive fun _ h => h.redResult).next
  | redAbort _ => exact (h.arrive fun _ h => h.dropReduction).next
  | shardQuery _ => exact (h.arrive fun _ h => h.shardQuery).next
  | shardList _ => exact (h.arrive fun _ h => h.shardList).next
  | leaseReq _ => exact h.arriveReq.next
  | leaseGrant _ => exact (h.arrive fun _ h => h.modMem.clearAsked).next
  | leaseReclaim _ => exact h.arriveReq.next
  | leaseRelease _ => exact h.arriveReq.next
  | lentWrite _ => exact (h.arrive fun _ h => h.placeLent).next
  | lentRead _ => exact (h.arrive fun _ h => h.readLent).next
  | pairAck _ => exact (h.arrive fun _ h => h.modPair).next
  | assign _ => exact h.execAssign
  | assignVia _ => exact h.execAssignVia
  | assigned _ => exact h.atAnchor.next
  | admitPacket _ => exact h.execAdmitPacket
  | unassign _ => exact h.execUnassign
  | leavePacket _ => exact h.execLeavePacket
  | anchorMove _ => exact h.execAnchorMove
  | regRead _ => exact h.execRegRead
  | regWrite _ => exact h.execRegWrite
  | spdmRelay _ => exact h.execSpdmRelay
  | noNeighbour _ => exact h.atAnchor.next
  | fabAnswer _ => exact h.execFabAnswer
  | fabLeave _ => exact h.execFabLeave
  | leaveDrained => exact h.execLeaveDrained
  | fabAssign _ _ => exact h.execFabAssign
  | fabRtDataWrite _ _ => exact h.execFabRtDataWrite
  | fabSetClear _ => exact h.execFabSetClear
  | rcvReqTimer => exact h.execRcvReqTimer
  | rcvReq _ => exact h.execRcvReq
  | rcvData _ _ _ _ => exact h.execRcvData
  | rcvGo _ => exact h.execRcvGo
  | rcvImageComplete => exact h.execRcvImageComplete
  | lsRetireStack _ _ => exact h.execLsRetireStack
  | lsRetireChannel _ _ => exact h.execLsRetireChannel
  | lsRecalibratePort _ _ => exact h.execLsRecalibratePort
  | lsMicrocode _ _ => exact h.execLsMicrocode
  | lsHubFirmware _ _ => exact h.execLsHubFirmware
  | lsOperationEnd => exact h.execLsOperationEnd
  | secDbgChallenge _ => exact h.execSecDbgChallenge
  | secDbgRespond _ _ => exact h.execSecDbgRespond
  | challengeExpiry => exact h.execChallengeExpiry
  | getMeasurements _ => exact h.execGetMeasurements
  | spdmChallenge _ => exact h.execSpdmChallenge
  | keyExchange _ => exact h.execKeyExchange
  | spdmFinish _ => exact h.execSpdmFinish
  | keyUpdate _ => exact h.execKeyUpdate
  | spdmHeartbeat _ => exact h.execSpdmHeartbeat
  | endSession _ => exact h.execEndSession
  | recorderClear _ _ => exact h.execRecorderClear
  | lockstepMismatch => exact h.execLockstepMismatch
  | setEndpointId _ _ => exact h.execSetEndpointId
  | entdaa _ => exact h.execEntdaa
  | rstdaa => exact h.modMgmt.next
  | getTid _ => exact (h.pldm fun h => h.pldmSay).next
  | getPldmTypes _ => exact (h.pldm fun h => h.pldmSay).next
  | getPldmCommands _ _ => exact h.execGetPldmCommands
  | getPldmVersion _ _ => exact h.execGetPldmVersion
  | sensorRead _ _ _ => exact h.execSensorRead
  | pdrRead _ _ => exact h.execPdrRead
  | effecterWrite _ _ _ => exact h.execEffecterWrite
  | setEventReceiver _ _ => exact h.execSetEventReceiver
  | fruRead _ => exact (h.pldm fun h => h.pldmSay).next
  | requestUpdate _ => exact h.execRequestUpdate
  | componentTransfer _ _ => exact h.execComponentTransfer
  | activateFirmware _ => exact h.execActivateFirmware
  | setCalendar _ _ => exact h.execSetCalendar
  | getCalendar _ => exact (h.pldm fun h => h.pldmSay).next
  | clockPacerStep _ => exact h.execClockPacerStep
  | admissionPacer _ _ => exact h.execAdmissionPacer
  | safetyOverrideEnter _ _ => exact h.execSafetyOverrideEnter
  | safetyOverrideStep => exact h.execSafetyOverrideStep
  | safetyOverrideLeave _ _ => exact h.execSafetyOverrideLeave
  | snapshotSet _ => exact h.execSnapshotSet
  | snapshotFlush => exact h.flushSnaps.next
  | evrManual _ => exact h.execEvrManual
  | evrAdvance _ => exact h.execEvrAdvance
  | evrCursorWrite _ _ => exact h.execEvrCursorWrite
  | evrSnapSelWrite _ _ => exact h.execEvrSnapSelWrite
  | evcFreeze _ _ => exact h.execEvcFreeze
  | evcSnap _ => exact h.execEvcSnap
  | evcCountWrite _ _ _ _ => exact h.execEvcCountWrite
  | evcOverflow _ _ => exact h.execEvcOverflow
  | pgErrPop _ _ => exact h.execPgErrPop
  | pgIrqReevaluate _ _ _ _ => exact h.execPgIrqReevaluate
  | glbReset _ _ => exact h.execGlbReset
  | clusterPowerOff _ _ => exact h.execClusterPowerOff
  | clusterPowerOn _ _ => exact h.execClusterPowerOn
  | clusterPowerOnDone _ _ _ => exact h.execClusterPowerOnDone
  | halfReadLatch _ _ _ => exact h.execHalfReadLatch
  | halfWrite _ _ _ _ => exact h.execHalfWrite
  | badAccess _ _ _ _ _ => exact h.execBadAccess
  | registerWrite _ _ _ _ _ => exact h.regAccess.next
  | auxPowerApplied _ => exact h.execAuxPowerApplied
  | starterVerify _ => exact h.execStarterVerify
  | mainInputPresent => exact h.execMainInputPresent
  | bringupPhase4 => exact h.execBringupPhase4
  | bringupPhase5 _ => exact h.execBringupPhase5
  | catalogueReload _ => exact h.execCatalogueReload
  | proofingBegin => exact h.execProofingBegin
  | collectionVerified _ _ => exact h.execCollectionVerified
  | fullBegin => exact h.execFullBegin
  | mainInputLost _ => exact h.execMainInputLost
  | auxInputLost => exact h.execAuxInputLost
  | handoverEnd => exact h.execHandoverEnd
  | resetNLow => exact h.execResetNLow
  | hardLimitTrip _ => exact h.execHardLimitTrip
  | functionLevelReset _ => exact h.execFunctionLevelReset
  | busMasterClear _ => exact h.execBusMasterClear
  | vfEnableClear => exact h.disableVfs.next
  | d3hotEntry _ => exact h.execD3hotEntry
  | functionDisableComplete _ => exact h.execFunctionDisableComplete
  | internalLinkFail _ => exact h.execInternalLinkFail
  | linkDegraded _ => exact h.execLinkDegraded
  | portDown _ => exact h.execPortDown
  | resetNRise => exact h.execResetNRise
  | stackTrained _ => exact h.execStackTrained
  | managementRestartEnd => exact h.execManagementRestartEnd
  | msixUnmask _ _ => exact h.modFn.sendPending.next
  | peerReportedGone _ => exact h.losePeer.next

/-- On an empty queue a cycle passes; else the front command runs on the state with the queue's rest, of which both invariants say the same. -/
theorem step_next {s t : State} (h : step s = .next t) : (Good s → Good t) ∧ (Sound s → Sound t) := by
  unfold step at h
  split at h
  · cases h
    have hidle := (Keeps.refl s).idleCycle
    exact ⟨hidle.good, hidle.sound⟩
  · obtain ⟨u, hu, hkeeps⟩ := exec_answers ‹Instr› { s with pending := ‹List Instr› }
    rw [hu] at h
    cases h
    exact ⟨fun g => hkeeps.good g, fun g => hkeeps.sound g⟩

/-- Settles O3: every command answers a next state, and none touches the commands that wait. -/
theorem commandsAnswerAndKeepTheQueue : Obligations.commands_answer_and_keep_the_queue := fun c s =>
  let ⟨t, ht, hkeeps⟩ := exec_answers c s
  ⟨t, ht, hkeeps.pending⟩

/-- Settles O4: each operation of the model keeps `Good`, so a step does. -/
theorem everyStepKeepsGood : Obligations.every_step_keeps_good := fun _ _ g h => (step_next h).1 g

/-- Settles O5: each operation of the model keeps `Sound`, so a step does. -/
theorem everyStepKeepsSound : Obligations.every_step_keeps_sound := fun _ _ g h => (step_next h).2 g

/-- Module time grows with the cycles that have passed (19 R704). -/
theorem nsOfCycles_le_succ (c : Nat) : nsOfCycles c ≤ nsOfCycles (c + 1) := by
  unfold nsOfCycles
  omega

/-- Settles O2: of the cycle that passes, `passCycles` says what it leaves of the bring-up state, and every other part but the host
interface and the pages is as before. -/
theorem emptyQueueLetsOneCyclePass : Obligations.empty_queue_lets_one_cycle_pass := by
  intro s hs
  have hboot : (passCycles 1 s).boot = { s.boot with cycles := s.boot.cycles + 1, freed := [] } := by
    rw [passCycles_boot, if_neg (by decide)]
  refine ⟨passCycles 1 s, by rw [step, hs]; rfl, by simp [hs], hboot, ?_, ?_⟩
  · simp only [now, hboot]
    exact nsOfCycles_le_succ _
  · apply state_ext <;> simp

/-- Settles O6: a machine right after reset lists no cell of host memory, no record and no page. -/
theorem resetIsGood : Obligations.reset_is_good := by
  refine ⟨⟨rfl, Nat.zero_le 3, fun r hr => ?_⟩, fun _ => rfl, ?_⟩
  · cases hr
  · exact (by decide : (0 : BitVec 64) &&& 0 = 0 ∧ (0 : BitVec 64).toNat < 2 ^ 54 ∧ (0 : BitVec 64).toNat < 2 ^ 54)

/-- Settles O1: it is the arm of `step` for a queue that is not empty. -/
theorem stepRunsTheFrontCommand : Obligations.step_runs_the_front_command := fun _ _ _ => rfl

end Sys2Proof.Machine
end

section
/-! PROOFS. The host interface: what a completion writes, what taking a command touches, the doorbells, and the control of queue
pairs (15_host_interface). -/

-- One declaration after the other: the stacks of the threads that elaborate so long a text at once pass the check's limit.
set_option Elab.async false

namespace Sys2Proof.Machine

/-! ### Queue pairs read after an operation -/

section
variable (s : State)

@[simp] theorem qpOf_modQp_same (q : Nat) (f : Qp → Qp) : qpOf (modQp q f s) q = f (qpOf s q) := by simp [qpOf_modQp]

theorem qpOf_modQp_other {q j : Nat} (f : Qp → Qp) (hj : j ≠ q) : qpOf (modQp q f s) j = qpOf s j := by simp [qpOf_modQp, hj]

@[simp] theorem qpOf_evCount (p src n q : Nat) : qpOf (evCount p src n s) q = qpOf s q := by simp [qpOf]

@[simp] theorem qpOf_sendMsg (f v q : Nat) : qpOf (sendMsg f v s) q = qpOf s q := by simp [qpOf]

@[simp] theorem qpOf_dmaWrite (a : Nat) (b : Bytes) (q : Nat) : qpOf (dmaWrite a b s) q = qpOf s q := by simp [qpOf]

/-- Only what a change makes of the queue pair as it stands matters. -/
theorem modQp_congr {q : Nat} {f g : Qp → Qp} (h : f (qpOf s q) = g (qpOf s q)) : modQp q f s = modQp q g s := by
  simp only [modQp, modHif, mmod]
  exact congrArg (fun v => { s with hif := { s.hif with qps := mset s.hif.qps q v } }) h

/-- An event of a queue pair changes that pair's pending events and when the first of them came, alone (15 R573). -/
theorem qpOf_qpEvent_same (q : Nat) :
    ∃ n at', qpOf (qpEvent q s) q = { qpOf s q with events := n, firstEvent := at' } := by
  unfold qpEvent
  dsimp only
  split
  · exact ⟨_, _, by rw [qpOf_sendMsg, qpOf_modQp_same]⟩
  · exact ⟨_, _, by rw [qpOf_modQp_same]⟩

theorem qpOf_qpEvent_other {q j : Nat} (hj : j ≠ q) : qpOf (qpEvent q s) j = qpOf s j := by
  unfold qpEvent
  dsimp only
  split
  · rw [qpOf_sendMsg, qpOf_modQp_other _ _ hj]
  · rw [qpOf_modQp_other _ _ hj]

end

/-! ### Completions (15 R563, R564, R581, R584) -/

@[simp] theorem Cpl.bytes_length (c : Cpl) (q : Nat) (phase : Bool) : (c.bytes q phase).length = 32 := by
  simp [Cpl.bytes, leBytes_length]

/-- A queue pair whose next completion entry has been written. -/
def Qp.entryWritten (x : Qp) : Qp :=
  { x with
    cqTail := if cqSize x ≤ x.cqTail + 1 then 0 else x.cqTail + 1
    phase := if cqSize x ≤ x.cqTail + 1 then !x.phase else x.phase
    cqUsed := x.cqUsed + 1
    reserved := x.reserved - 1 }

section
variable {q : Nat} {s : State}

theorem complete_live (c : Cpl) (hl : fnLive s ((qpFn s q).getD 0) = true) :
    complete q c s = evCount 1 2 1 (qpEvent q (modQp q Qp.entryWritten
      (dmaWrite (cplAddr (qpOf s q)) (c.bytes q (qpOf s q).phase) s))) := by
  unfold complete
  rw [if_pos hl]
  refine congrArg (fun t => evCount 1 2 1 (qpEvent q t)) (modQp_congr _ ?_)
  simp [Qp.entryWritten]

theorem complete_notLive (c : Cpl) (hl : fnLive s ((qpFn s q).getD 0) = false) :
    complete q c s = modQp q (fun x => { x with reserved := x.reserved - 1 }) s := by
  unfold complete
  exact if_neg (Bool.not_eq_true _ ▸ hl)

theorem complete_qp (c : Cpl) (hl : fnLive s ((qpFn s q).getD 0) = true) :
    ∃ n at', qpOf (complete q c s) q = { (qpOf s q).entryWritten with events := n, firstEvent := at' } := by
  rw [complete_live c hl, qpOf_evCount]
  obtain ⟨n, at', h⟩ := qpOf_qpEvent_same
    (modQp q Qp.entryWritten (dmaWrite (cplAddr (qpOf s q)) (c.bytes q (qpOf s q).phase) s)) q
  exact ⟨n, at', by rw [h, qpOf_modQp_same, qpOf_dmaWrite]⟩

theorem complete_qp_other {j : Nat} (c : Cpl) (hj : j ≠ q) : qpOf (complete q c s) j = qpOf s j := by
  by_cases hl : fnLive s ((qpFn s q).getD 0) = true
  · rw [complete_live c hl, qpOf_evCount, qpOf_qpEvent_other _ hj, qpOf_modQp_other _ _ hj, qpOf_dmaWrite]
  · rw [complete_notLive c (Bool.not_eq_true _ ▸ hl), qpOf_modQp_other _ _ hj]

end

theorem complete_hostOnly (q : Nat) (c : Cpl) (s : State) : HostOnly s (complete q c s) := by
  apply state_ext <;> simp

/-- A live function's completion leaves its 32 bytes at the completion tail, and host memory elsewhere as it was. -/
theorem complete_writes {q : Nat} (c : Cpl) {s : State} (hl : fnLive s ((qpFn s q).getD 0) = true) :
    memRead (complete q c s).hif.hostMem (cplAddr (qpOf s q)) 32 = c.bytes q (qpOf s q).phase ∧
      HostBytesKept s (complete q c s) (cplAddr (qpOf s q)) 32 := by
  have hm : (complete q c s).hif.hostMem = memWrite s.hif.hostMem (cplAddr (qpOf s q)) (c.bytes q (qpOf s q).phase) := by
    rw [complete_hostMem, if_pos hl]
  have hlen := c.bytes_length q (qpOf s q).phase
  refine ⟨?_, fun j hj => ?_⟩
  · rw [hm, ← hlen, memRead_memWrite]
  · rw [hm, memGet_memWrite_outside _ _ _ _ (by rwa [hlen])]

/-! ### Taking a command (15 R563; 07 R249) -/

/-- What taking a command of a queue pair leaves as it was: everything but that queue pair, counters of the host interface, and the
collections, which change only for an INGEST_COMMIT or an INGEST_ABORT. -/
structure OnlyTakes (h : HostCmd) (s t : State) : Prop where
  frame : t = { s with hif := t.hif, regs := t.regs, obj := { s.obj with collections := t.obj.collections } }
  hostMem : t.hif.hostMem = s.hif.hostMem
  others : ∀ j, j ≠ h.qp → qpOf t j = qpOf s j
  hostOnly : cmdOp h ≠ 8 → cmdOp h ≠ 9 → HostOnly s t

section
variable {h : HostCmd} {s t u : State}

theorem OnlyTakes.of_hostOnly (hh : HostOnly s t) (hm : t.hif.hostMem = s.hif.hostMem) (ho : ∀ j, j ≠ h.qp → qpOf t j = qpOf s j) :
    OnlyTakes h s t where
  frame := by
    refine hh.trans ?_
    rw [hh]
  hostMem := hm
  others := ho
  hostOnly := fun _ _ => hh

theorem OnlyTakes.trans (hst : OnlyTakes h s t) (htu : OnlyTakes h t u) : OnlyTakes h s u where
  frame := by
    have h1 := hst.frame
    have h2 := htu.frame
    rw [h1] at h2
    exact h2
  hostMem := htu.hostMem.trans hst.hostMem
  others j hj := (htu.others j hj).trans (hst.others j hj)
  hostOnly h8 h9 := by
    have h1 := hst.hostOnly h8 h9
    have h2 := htu.hostOnly h8 h9
    unfold HostOnly at h1 h2
    rw [h1] at h2
    exact h2

theorem modQp_onlyTakes (h : HostCmd) (f : Qp → Qp) (s : State) : OnlyTakes h s (modQp h.qp f s) :=
  .of_hostOnly rfl rfl fun _ hj => qpOf_modQp_other s f hj

theorem evCount_onlyTakes (h : HostCmd) (p src n : Nat) (s : State) : OnlyTakes h s (evCount p src n s) :=
  .of_hostOnly (by apply state_ext <;> simp) (by simp) fun _ _ => by simp

theorem noteFetch_onlyTakes (h : HostCmd) (s : State) : OnlyTakes h s (noteFetch h s) := by
  refine .of_hostOnly ?_ ?_ fun j _ => ?_
  all_goals
    unfold noteFetch
    split
    · split <;> rfl
    · rfl

theorem closeSession_onlyTakes (h : HostCmd) (s : State) : OnlyTakes h s (closeSession h s) := by
  unfold closeSession
  split
  next hc =>
    exact { frame := rfl, hostMem := rfl, others := fun _ _ => rfl
            hostOnly := fun h8 h9 => absurd hc.1 (by simp [h8, h9]) }
  next => exact .of_hostOnly rfl rfl fun _ _ => rfl

theorem fetchOne_onlyTakes (h : HostCmd) (s : State) : OnlyTakes h s (fetchOne h s).2 :=
  (((modQp_onlyTakes h _ s).trans (noteFetch_onlyTakes h _)).trans (closeSession_onlyTakes h _)).trans
    ((evCount_onlyTakes h 1 1 1 _).trans (evCount_onlyTakes h 1 6 _ _))

theorem takeCmd_onlyTakes {f : Fetched} (ht : takeCmd h s = some (f, t)) : OnlyTakes h s t := by
  unfold takeCmd at ht
  split at ht
  · cases ht
  · split at ht
    · split at ht
      · cases ht
      · obtain ⟨rfl, rfl⟩ := Prod.mk.inj (Option.some.inj ht)
        exact modQp_onlyTakes h _ s
    · split at ht
      · obtain rfl : (fetchOne h s).2 = t := congrArg Prod.snd (Option.some.inj ht)
        exact fetchOne_onlyTakes h s
      · cases ht

end

/-- Settles O7: a completion's bytes, indices and frame, and what taking a command leaves as it was. -/
theorem completingAndTakingTouchOnlyTheirPart : Obligations.completing_and_taking_touch_only_their_part := by
  refine ⟨fun q c s hl => ?_, fun q c s hl => complete_notLive c hl, fun op h s t f ht => ?_⟩
  · obtain ⟨hread, hkept⟩ := complete_writes c hl
    obtain ⟨n, at', hq⟩ := complete_qp c hl
    refine ⟨hread, hkept, ?_, ?_, ?_, ?_, fun j hj => complete_qp_other c hj, complete_hostOnly q c s⟩ <;> rw [hq] <;> rfl
  · obtain ⟨hop, htake, -⟩ := ht
    obtain ⟨hframe, hmem, hothers, honly⟩ := takeCmd_onlyTakes htake
    exact ⟨hop ▸ honly, hframe, hmem, hothers⟩

/-! ### Doorbells (15 R561, R562; 00 R776) -/

section
variable {fn q k v : Nat} {s : State}

theorem doorbell_own (hl : fnLive s fn = true) (ho : ownQp s fn q = some k) (he : (qpOf s k).enable = true)
    (act : Nat → State → State) : doorbell fn q act s = act k s := by simp [doorbell, hl, ho, he]

/-- A queue pair put in error that was in none keeps the cause it is given. -/
theorem qpError_sets {cause : Nat} (he : (qpOf s k).err = false) :
    qpOf (qpError k cause s) k = { qpOf s k with err := true, cause := cause } := by simp [qpError, he]

theorem sqTail_moves (hlt : v % 65536 < sqSize (qpOf s k)) (hne : v % 65536 ≠ (qpOf s k).sqTail) :
    sqTail v k s = modQp k (fun x => { x with sqTail := v % 65536, observed := x.observed ++ [(v % 65536, now s)] }) s := by
  simp [sqTail, Nat.not_le.mpr hlt, hne]

theorem sqTail_bad (hle : sqSize (qpOf s k) ≤ v % 65536) : sqTail v k s = qpError k 1 s := by simp [sqTail, hle]

/-- Freeing one resource so many times notes it so many times, and changes nothing else. -/
theorem foldS_noteFreed (x : Freed) (l : List Nat) (t : State) :
    foldS l (fun u _ => noteFreed x u) t = modBoot (fun b => { b with freed := List.replicate l.length x ++ b.freed }) t := by
  induction l generalizing t with
  | nil => rfl
  | cons n l ih =>
    rw [foldS_cons, ih]
    simp [noteFreed, modBoot, List.replicate_succ', List.append_assoc]

theorem cqHead_moves (hlt : v % 65536 < cqSize (qpOf s k))
    (hused : ringDist (cqSize (qpOf s k)) (qpOf s k).cqHead (v % 65536) ≤ (qpOf s k).cqUsed) :
    cqHead v k s =
      modBoot (fun b => { b with
          freed := List.replicate (ringDist (cqSize (qpOf s k)) (qpOf s k).cqHead (v % 65536)) (Freed.cpl k) ++ b.freed })
        (modQp k (fun x => { x with
          cqHead := v % 65536
          cqUsed := (qpOf s k).cqUsed - ringDist (cqSize (qpOf s k)) (qpOf s k).cqHead (v % 65536) }) s) := by
  unfold cqHead
  rw [if_neg (by omega), foldS_noteFreed, List.length_range]

theorem cqHead_bad (h : cqSize (qpOf s k) ≤ v % 65536 ∨
    (qpOf s k).cqUsed < ringDist (cqSize (qpOf s k)) (qpOf s k).cqHead (v % 65536)) : cqHead v k s = qpError k 2 s := by
  unfold cqHead
  exact if_pos h

/-- How far a stream head doorbell moves the count of consumed bytes, modulo 2^32. -/
def streamDelta (x : Qp) (v : Nat) : Nat := (v % 2 ^ 32 + 2 ^ 32 - x.consumed % 2 ^ 32) % 2 ^ 32

theorem consumed_add_streamDelta (x : Qp) (v : Nat) : (x.consumed + streamDelta x v) % 2 ^ 32 = v % 2 ^ 32 := by
  unfold streamDelta
  omega

theorem streamHead_moves (h : (qpOf s k).consumed + streamDelta (qpOf s k) v ≤ (qpOf s k).produced) :
    streamHead v k s = modQp k (fun x => { x with consumed := (qpOf s k).consumed + streamDelta (qpOf s k) v }) s := by
  unfold streamHead
  exact if_neg (Nat.not_lt.mpr h)

theorem streamHead_bad (h : (qpOf s k).produced < (qpOf s k).consumed + streamDelta (qpOf s k) v) :
    streamHead v k s = qpError k 3 s := by
  unfold streamHead
  exact if_pos h

end

/-- Settles O8: each good doorbell moves its index, and each bad one gives its cause. -/
theorem doorbells : Obligations.doorbells := by
  refine ⟨?_, ?_, ?_, ?_, ?_, ?_, ?_⟩
  · intro fn q k v s hl ho he hlt hne
    refine ⟨_, congrArg Host.Outcome.next ((doorbell_own hl ho he _).trans (sqTail_moves hlt hne)), ?_, ?_,
      fun j hj => qpOf_modQp_other s _ hj, rfl⟩ <;> rw [qpOf_modQp_same]
  · intro fn q k v s hl ho he hlt hused
    refine ⟨_, congrArg Host.Outcome.next ((doorbell_own hl ho he _).trans (cqHead_moves hlt hused)), ?_⟩
    set d := ringDist (cqSize (qpOf s k)) (qpOf s k).cqHead (v % 65536)
    have hq (j : Nat) (g : Boot → Boot) (u : State) : qpOf (modBoot g u) j = qpOf u j := rfl
    refine ⟨by simp [hq], ?_, by simp [hq], fun j hj => (hq j _ _).trans (qpOf_modQp_other s _ hj), ?_, rfl⟩
    · simp only [hq, qpOf_modQp_same]
      omega
    · simp [freedCount, Nat.add_comm]
  · intro fn q k v s hl ho he hle
    refine ⟨_, congrArg Host.Outcome.next ((doorbell_own hl ho he _).trans (streamHead_moves hle)), ?_, ?_, ?_,
      fun j hj => qpOf_modQp_other s _ hj, rfl⟩ <;> simp only [qpOf_modQp_same]
    · exact consumed_add_streamDelta _ _
    · exact Nat.le_add_right _ _
    · exact hle
  · intro fn q k v s hl ho he herr hle
    exact ⟨_, congrArg Host.Outcome.next ((doorbell_own hl ho he _).trans (sqTail_bad hle)), qpError_sets herr⟩
  · intro fn q k v s hl ho he herr hbad
    exact ⟨_, congrArg Host.Outcome.next ((doorbell_own hl ho he _).trans (cqHead_bad hbad)), qpError_sets herr⟩
  · intro fn q k v s hl ho he herr hbad
    exact ⟨_, congrArg Host.Outcome.next ((doorbell_own hl ho he _).trans (streamHead_bad hbad)), qpError_sets herr⟩
  · intro q e s herr
    exact ⟨_, rfl, qpError_sets herr⟩

/-! ### Queue-pair control (15 R559, R560, R568) -/

section
variable {fn q k : Nat} {s : State}

theorem exec_qpEnable (ho : ownQp s fn q = some k) (hl : fnLive s fn = true) :
    exec (.qpEnable fn q) s = .next (enableQp k s) := by
  show Host.Outcome.next _ = _
  simp [ho, hl]

/-- A queue pair as it is once enabled: no error, every index at 0 and the phase 1 (15 R559). -/
def Qp.restarted (x : Qp) : Qp :=
  { x with
    enable := true, err := false, cause := 0, sqTail := 0, sqHead := 0, cqHead := 0, cqTail := 0, cqUsed := 0
    phase := true, produced := 0, consumed := 0, observed := [] }

theorem enableQp_restarts (he : (qpOf s k).enable = false) (hz : sizesOk (isAdmin k) (qpOf s k) = true) :
    enableQp k s = modQp k Qp.restarted s := by
  unfold enableQp
  rw [if_neg (by simp [he]), if_pos hz]
  rfl

theorem enableQp_refuses (he : (qpOf s k).enable = false) (hz : sizesOk (isAdmin k) (qpOf s k) = false) :
    enableQp k s = modQp k (fun x => { x with err := true, cause := 5 }) s := by
  unfold enableQp
  rw [if_neg (by simp [he]), if_neg (by simp [hz])]

end

/-- Settles O9: what QP_ENABLE, QP_DISABLE and QP_FIND do. -/
theorem queuePairControl : Obligations.queue_pair_control := by
  refine ⟨?_, ?_, ?_, ?_⟩
  · intro fn q k s ho hl he hz
    refine ⟨_, (exec_qpEnable ho hl).trans (congrArg _ (enableQp_restarts he hz)), ?_⟩
    rw [qpOf_modQp_same]
    exact ⟨rfl, rfl, rfl, rfl, rfl, rfl, rfl, rfl, rfl, fun j hj => qpOf_modQp_other s _ hj, rfl⟩
  · intro fn q k s ho hl he hz
    exact ⟨_, (exec_qpEnable ho hl).trans (congrArg _ (enableQp_refuses he hz)), qpOf_modQp_same s _ _⟩
  · intro fn q k s ho
    refine ⟨modQp k (fun x => { x with enable := false }) s, ?_, qpOf_modQp_same s _ _,
      fun j hj => qpOf_modQp_other s _ hj, rfl⟩
    show Host.Outcome.next _ = _
    rw [ho]
  · intro fn q s
    exact ⟨_, rfl, by simp [fnOf_modFn], rfl⟩

/-! ### COMMAND_FETCH and ASYNC_WAIT (15 R563, R585) -/

section
variable {h : HostCmd} {s t : State} {f : Fetched}

theorem exec_commandFetch {r : CmdRow} (hf : canFetch s h = true) (hr : cmdRow (cmdOp h) = some r) :
    exec (.commandFetch h) s =
      .next (modQp h.qp (fun x => { x with fetched := x.fetched ++ [(fetchOne h s).1] }) (fetchOne h s).2) := by
  show Host.Outcome.next _ = _
  simp only [if_pos hf, hr]

theorem qpOf_noteFetch (h : HostCmd) (s : State) (q : Nat) : qpOf (noteFetch h s) q = qpOf s q := by
  unfold noteFetch
  split
  · split <;> rfl
  · rfl

theorem qpOf_closeSession (h : HostCmd) (s : State) (q : Nat) : qpOf (closeSession h s) q = qpOf s q := by
  unfold closeSession
  split <;> rfl

/-- Fetching a command moves its queue pair's head past the slots and reserves an entry. -/
theorem fetchOne_qp (h : HostCmd) (s : State) : ∃ o, qpOf (fetchOne h s).2 h.qp =
    { qpOf s h.qp with
      sqHead := ((qpOf s h.qp).sqHead + cmdCount h) % sqSize (qpOf s h.qp)
      reserved := (qpOf s h.qp).reserved + 1
      observed := o } := by
  simp only [fetchOne, qpOf_evCount, qpOf_closeSession, qpOf_noteFetch, qpOf_modQp_same]
  exact ⟨_, rfl⟩

theorem exec_asyncWait (ht : Taken 0x34 h s f t) : exec (.asyncWait h) s = .next (finishReply h f (asyncBody h f t)) :=
  congrArg _ (runCmd_taken ht (asyncBody h))

end

/-- Settles O11: COMMAND_FETCH by what `fetchOne` does to its queue pair, ASYNC_WAIT by the branches of its body. -/
theorem fetchesAndWaits : Obligations.fetches_and_waits := by
  refine ⟨?_, ?_, ?_, ?_, ?_⟩
  · intro h r s hf hr
    obtain ⟨o, hq⟩ := fetchOne_qp h s
    obtain ⟨-, hmem, hothers, honly⟩ := (fetchOne_onlyTakes h s).trans
      (modQp_onlyTakes h (fun x => { x with fetched := x.fetched ++ [(fetchOne h s).1] }) _)
    refine ⟨_, exec_commandFetch hf hr, ?_, ?_, ⟨(fetchOne h s).1, ?_, rfl, ?_⟩, hothers, hmem, honly⟩ <;>
      rw [qpOf_modQp_same, hq]
    rfl
  · intro h s t f ht hq hn hw
    rw [exec_asyncWait ht]
    simp [asyncBody, finishReply, hq, hn, Nat.not_le.mpr hw, modHif]
  · intro h s t f ht hq hn hw
    rw [exec_asyncWait ht]
    simp [asyncBody, finishReply, hq, hn, Nat.not_le.mpr hw, modHif]
  · intro h n ns s t f ht hq hn
    rw [exec_asyncWait ht]
    simp [asyncBody, finishReply, hq, hn, modHif]
  · intro h s t f ht hq hn hw
    rw [exec_asyncWait ht]
    simp [asyncBody, finishReply, hq, hn, hw, deny, cplStatus]

end Sys2Proof.Machine
end

section
/-! PROOFS. Accounts, their keys and scrubs, the bindings of queue pairs and the accounting log (14 R515 to R523, R542; 18 R678, R679). -/

-- One declaration after the other: the stacks of the threads that elaborate so long a text at once pass the check's limit.
set_option Elab.async false

namespace Sys2Proof.Machine

/-! ### A fresh key set (18 R678, R679) -/

theorem foldl_max_ge (l : List Nat) (m : Nat) : m ≤ l.foldl max m ∧ ∀ n ∈ l, n ≤ l.foldl max m := by
  induction l generalizing m with
  | nil => simp
  | cons x l ih =>
    obtain ⟨hm, hl⟩ := ih (max m x)
    rw [List.foldl_cons]
    refine ⟨(le_max_left m x).trans hm, fun n hn => ?_⟩
    rcases List.mem_cons.mp hn with rfl | hn
    · exact (le_max_right m n).trans hm
    · exact hl n hn

theorem count_le_topCount {l : List KeyEntry} {e : KeyEntry} (he : e ∈ l) : e.count ≤ topCount l :=
  (foldl_max_ge _ 0).2 _ (List.mem_map_of_mem he)

/-- The valid entry that a replacement leaves: the wrapped set, with a write count above those before. -/
def freshEntry (set : Nat) (l : List KeyEntry) : KeyEntry :=
  { set := set, count := topCount l + 1, bytes := Config.keyWrap kekBytes (Config.dataKeys set), valid := true }

/-- Of the old entries and the new one, the new alone has the new count and stays. -/
theorem replaced_entries (set : Nat) (l : List KeyEntry) :
    ((l ++ [{ freshEntry set l with valid := false }]).map fun (e : KeyEntry) =>
      if e.count = topCount l + 1 then { e with valid := true } else e).filter (fun (e : KeyEntry) => e.count == topCount l + 1) =
    [freshEntry set l] := by
  have hold : (l.map fun (e : KeyEntry) => if e.count = topCount l + 1 then { e with valid := true } else e).filter
      (fun (e : KeyEntry) => e.count == topCount l + 1) = [] := by
    rw [List.filter_eq_nil_iff]
    intro x hx
    obtain ⟨e, he, rfl⟩ := List.mem_map.mp hx
    have hlt := count_le_topCount he
    have hne : e.count ≠ topCount l + 1 := by omega
    simp [hne]
  rw [List.map_append, List.filter_append, hold]
  simp [freshEntry]

/-- A replacement leaves an owner the one new entry, and every other owner what it had. -/
theorem replaceEntry_sec (a set : Nat) (s : State) : ∃ m, replaceEntry a set s = modSec (fun c => { c with keyFlash := m }) s ∧
    mget m a = some [freshEntry set (mgetD s.sec.keyFlash a [])] ∧ ∀ b, b ≠ a → mget m b = mget s.sec.keyFlash b := by
  refine ⟨_, rfl, ?_, fun b hb => ?_⟩
  · simp only [modEntries, modSec_sec, mmod, mgetD_mset_same, mget_mset_same, Option.some.injEq]
    exact replaced_entries set _
  · simp only [modEntries, modSec_sec, mmod]
    rw [mget_mset_other _ _ _ _ hb, mget_mset_other _ _ _ _ hb, mget_mset_other _ _ _ _ hb]

theorem freshKeys_frame (a : Nat) (s : State) : freshKeys a s = { s with sec := (freshKeys a s).sec } := by
  obtain ⟨m, hm, -, -⟩ := replaceEntry_sec a (s.sec.keyDraws + 1)
    (modSec (fun c => { c with keyDraws := s.sec.keyDraws + 1, keySets := mset c.keySets a (s.sec.keyDraws + 1) }) s)
  rw [freshKeys, hm]
  rfl

theorem freshKeys_newKeys (a : Nat) (s : State) : NewKeys a s (freshKeys a s) := by
  obtain ⟨m, hm, hnew, hold⟩ := replaceEntry_sec a (s.sec.keyDraws + 1)
    (modSec (fun c => { c with keyDraws := s.sec.keyDraws + 1, keySets := mset c.keySets a (s.sec.keyDraws + 1) }) s)
  rw [freshKeys, hm]
  exact ⟨mget_mset_same _ _ _, rfl, hnew, fun b hb => ⟨mget_mset_other _ _ _ _ hb, hold b hb⟩, rfl⟩

/-! ### Accounts (14 R517, R518, R521) -/

section
variable {h : HostCmd} {s t : State} {f : Fetched}

/-- A body that succeeds with no result completes its command with status OK. -/
theorem finishReply_ok (h : HostCmd) (f : Fetched) (t : State) : finishReply h f (okWith t) = cplStatus h f Status.ok 0 t := rfl

theorem accountCreate_creates {a : Nat} {r : AcctRec} (ht : Taken 0x2D h s f t) (hp : parseAccount (cmdBody h 32) = some (a, r))
    (hu : t.sec.unlocked = false) (ha : acctExists t a = false) (hs : t.sched.scrubbing.contains a = false) :
    exec (.accountCreate h) s = .next (cplStatus h f Status.ok 0
      (freshKeys a (modSched (fun d => { d with accounts := mset d.accounts a { record := r } }) t))) := by
  refine congrArg Host.Outcome.next ((runCmd_taken ht _).trans ?_)
  simp only [hp, hu, ha, hs, Bool.false_eq_true, if_false, finishReply_ok]

theorem acctExists_of_mget {a : Nat} {x : Account} (hx : mget t.sched.accounts a = some x) : acctExists t a = true := by
  simp [acctExists, mhas, hx]

theorem accountUpdate_updates {a : Nat} {r : AcctRec} {x : Account} (ht : Taken 0x2E h s f t)
    (hp : parseAccount (cmdBody h 32) = some (a, r)) (hx : mget t.sched.accounts a = some x) :
    exec (.accountUpdate h) s = .next (cplStatus h f Status.ok 0 (modAccount a (fun y => { y with record := r }) t)) := by
  refine congrArg Host.Outcome.next ((runCmd_taken ht _).trans ?_)
  simp only [hp, acctExists_of_mget hx, if_true, finishReply_ok]

/-- An account that holds nothing more is deleted: its closing record is in the log, its keys are replaced and its scrub begins. -/
def accountDeleted (a : Nat) (x : Account) (t : State) : State :=
  modSched (fun d => { d with accounts := merase d.accounts a, scrubbing := insertNum a d.scrubbing })
    (acctLog (deletedRecord a (now t) x.ctr) (replaceKeys a t))

theorem accountDelete_deletes {x : Account} (ht : Taken 0x2F h s f t) (hx : mget t.sched.accounts (cmdAux h % 4096) = some x)
    (hh : acctHolds t (cmdAux h % 4096) = false) :
    exec (.accountDelete h) s = .next (cplStatus h f Status.ok 0 (accountDeleted (cmdAux h % 4096) x t)) := by
  refine congrArg Host.Outcome.next ((runCmd_taken ht _).trans ?_)
  simp only [hx, hh, Bool.false_eq_true, if_false, finishReply_ok]
  rfl

theorem acctLog_frame (b : Bytes) (u : State) : ∃ l n, acctLog b u = modSched (fun d => { d with log := l, logLost := n }) u ∧
    l.getLast? = some b := by
  unfold acctLog
  by_cases hl : u.sched.log.length < 32768
  · exact ⟨u.sched.log ++ [b], u.sched.logLost, by simp [modSched, hl], by simp⟩
  · exact ⟨u.sched.log.drop 1 ++ [b], u.sched.logLost + 1, by simp [modSched, hl], by simp⟩

/-- What a deletion leaves: the account is gone and its number waits for its scrub; its key generation rises, its closing record is the
newest, its keys are new. -/
theorem accountDeleted_effect (a : Nat) (x : Account) (t : State) :
    mget (accountDeleted a x t).sched.accounts a = none ∧
      (∀ j, j ≠ a → mget (accountDeleted a x t).sched.accounts j = mget t.sched.accounts j) ∧
      a ∈ (accountDeleted a x t).sched.scrubbing ∧
      mgetD (accountDeleted a x t).sched.keygen a 0 = (mgetD t.sched.keygen a 0 + 1) % 16 ∧
      (accountDeleted a x t).sched.log.getLast? = some (deletedRecord a (now t) x.ctr) ∧
      NewKeys a t (accountDeleted a x t) ∧
      accountDeleted a x t = { t with sched := (accountDeleted a x t).sched, sec := (accountDeleted a x t).sec } := by
  set u := modSched (fun d => { d with keygen := mmod d.keygen a 0 fun g => (g + 1) % 16 }) t
  have hk : replaceKeys a t = { u with sec := (freshKeys a u).sec } := freshKeys_frame a u
  obtain ⟨l, n, hlog, hlast⟩ := acctLog_frame (deletedRecord a (now t) x.ctr) { u with sec := (freshKeys a u).sec }
  have hd : accountDeleted a x t = modSched (fun d => { d with accounts := merase d.accounts a, scrubbing := insertNum a d.scrubbing })
      (modSched (fun d => { d with log := l, logLost := n }) { u with sec := (freshKeys a u).sec }) := by
    rw [accountDeleted, hk, hlog]
  rw [hd]
  refine ⟨?_, fun j hj => ?_, mem_insertNum _ _, ?_, hlast, freshKeys_newKeys a u, rfl⟩
  · exact (mget_merase _ _ _).trans (if_pos rfl)
  · exact (mget_merase _ _ _).trans (if_neg hj)
  · exact mgetD_mmod_same t.sched.keygen a 0 fun g => (g + 1) % 16

theorem accountScrubEnd_eq {a : Nat} (hs : s.sched.scrubbing.contains a = true) :
    exec (.accountScrubEnd a) s =
      .next (modMem (fun m => { m with lines := m.lines.filter fun l => !(l.2.kind == 0 && l.2.owner == a) })
        (modSched (fun d => { d with scrubbing := d.scrubbing.erase a }) s)) := congrArg Host.Outcome.next (if_pos hs)

/-! ### Queue pairs and the accounting log (14 R523, R542) -/

theorem qpBind_binds (ht : Taken 0x30 h s f t) (hb : (qpOf t (cmdAux h % 16384)).bound = none)
    (ha : acctExists t (bitsOf (cmdParam h) 27 16) = true) (hf : cmdParam h % 1024 ≤ 513) (hl : fnLive t (cmdParam h % 1024) = true) :
    exec (.qpBind h) s = .next (cplStatus h f Status.ok 0
      (modQp (cmdAux h % 16384) (fun x => { x with bound := some (cmdParam h % 1024, bitsOf (cmdParam h) 27 16) }) t)) := by
  refine congrArg Host.Outcome.next ((runCmd_taken ht _).trans ?_)
  dsimp only
  rw [if_neg (by simp [hb, ha, hl, hf]), finishReply_ok]

theorem qpUnbind_unbinds (ht : Taken 0x31 h s f t) (hb : (qpOf t (cmdAux h % 16384)).bound.isSome = true)
    (he : ∀ e, e ∈ t.gen.entries → e.2.qp ≠ cmdAux h % 16384) :
    exec (.qpUnbind h) s = .next (cplStatus h f Status.ok 0 (modQp (cmdAux h % 16384) (fun x => { x with bound := none }) t)) := by
  refine congrArg Host.Outcome.next ((runCmd_taken ht _).trans ?_)
  dsimp only
  rw [if_neg (by simp [Option.isSome_iff_ne_none.mp hb]), if_neg, finishReply_ok]
  rintro hany
  obtain ⟨e, hmem, heq⟩ := List.any_eq_true.mp hany
  exact he e hmem (beq_iff_eq.mp heq)

/-- The number of records that one read of the accounting log moves. -/
def logMoved (h : HostCmd) (t : State) : Nat := min (cmdLen0 h / 128) t.sched.log.length

theorem acctLogRead_moves (ht : Taken 0x33 h s f t) (hlen : cmdLen0 h % 128 = 0) :
    exec (.acctLogRead h) s = .next (cplCmd h f { tag := 0, status := Status.ok, result := logMoved h t }
      (dmaWrite (cmdAddr0 h) (t.sched.log.take (logMoved h t)).flatten
        (modSched (fun d => { d with log := d.log.drop (logMoved h t) }) t))) := by
  refine congrArg Host.Outcome.next ((runCmd_taken ht _).trans ?_)
  dsimp only
  rw [if_neg (by simp [hlen])]
  rfl

end

/-- Settles O12: each command's completing state, and what it changes, by the lemma about the command. -/
theorem accountsAndBindings : Obligations.accounts_and_bindings := by
  refine ⟨?_, ?_, ?_, ?_, ?_, ?_, ?_⟩
  · intro h a r s t f ht hp hu ha hs
    refine ⟨_, accountCreate_creates ht hp hu ha hs, ?_⟩
    have hframe := freshKeys_frame a (modSched (fun d => { d with accounts := mset d.accounts a { record := r } }) t)
    have hsched := congrArg State.sched hframe
    refine ⟨?_, fun j hj => ?_, freshKeys_newKeys a (modSched _ t), ?_⟩
    · rw [hsched]
      exact mget_mset_same _ _ _
    · rw [hsched]
      exact mget_mset_other _ _ _ _ hj
    · rw [hsched]
      exact hframe
  · intro h a r x s t f ht hp hx
    refine ⟨_, accountUpdate_updates ht hp hx, ?_, fun j hj => ?_, rfl⟩
    · simp [mget_mupd, hx]
    · simp [mget_mupd, hj]
  · intro h x s t f ht hx hh
    exact ⟨_, accountDelete_deletes ht hx hh, accountDeleted_effect _ x t⟩
  · intro a s hs
    refine ⟨_, accountScrubEnd_eq hs, fun l hl => ?_, fun l hl hne => ?_, rfl, rfl⟩
    · simpa [imp_iff_not_or] using (List.mem_filter.mp hl).2
    · exact List.mem_filter.mpr ⟨hl, by simpa [imp_iff_not_or] using hne⟩
  · intro h s t f ht hb ha hf hl
    exact ⟨_, qpBind_binds ht hb ha hf hl, qpOf_modQp_same t _ _, fun j hj => qpOf_modQp_other t _ hj, rfl⟩
  · intro h s t f ht hb he
    exact ⟨_, qpUnbind_unbinds ht hb he, qpOf_modQp_same t _ _, fun j hj => qpOf_modQp_other t _ hj, rfl⟩
  · intro h s t f ht hlen
    refine ⟨_, acctLogRead_moves ht hlen, by simp [logMoved], by simp [logMoved], fun j hj => ?_, ?_⟩
    · rw [dmaWrite_hostMem]
      exact memGet_memWrite_outside _ _ _ _ hj
    · unfold SchedOnly
      apply state_ext <;> simp

end Sys2Proof.Machine
end

section
/-! PROOFS. Event records: what writing one leaves of the management state (19 R715 to R722), and what the pacers' conflicts leave
of it (19 R712). -/

-- One declaration after the other: the stacks of the threads that elaborate so long a text at once pass the check's limit.
set_option Elab.async false

namespace Sys2Proof.Machine

/-! ### Frames, a part at a time -/

section
variable {s t : State}

theorem HostOnly.of_parts (pending : t.pending = s.pending := by simp) (sched : t.sched = s.sched := by simp)
    (obj : t.obj = s.obj := by simp) (gen : t.gen = s.gen := by simp) (search : t.search = s.search := by simp)
    (mem : t.mem = s.mem := by simp) (flash : t.flash = s.flash := by simp) (fab : t.fab = s.fab := by simp)
    (boot : t.boot = s.boot := by simp) (sec : t.sec = s.sec := by simp) (mgmt : t.mgmt = s.mgmt := by simp)
    (free : t.free = s.free := by simp) :
    HostOnly s t := state_ext pending rfl rfl sched obj gen search mem flash fab boot sec mgmt free

theorem MgmtOnly.of_parts (pending : t.pending = s.pending := by simp) (sched : t.sched = s.sched := by simp)
    (obj : t.obj = s.obj := by simp) (gen : t.gen = s.gen := by simp) (search : t.search = s.search := by simp)
    (mem : t.mem = s.mem := by simp) (flash : t.flash = s.flash := by simp) (fab : t.fab = s.fab := by simp)
    (boot : t.boot = s.boot := by simp) (sec : t.sec = s.sec := by simp) (free : t.free = s.free := by simp) :
    MgmtOnly s t := state_ext pending rfl rfl sched obj gen search mem flash fab boot sec rfl free

theorem BootOnly.of_parts (pending : t.pending = s.pending := by simp) (sched : t.sched = s.sched := by simp)
    (obj : t.obj = s.obj := by simp) (gen : t.gen = s.gen := by simp) (search : t.search = s.search := by simp)
    (mem : t.mem = s.mem := by simp) (flash : t.flash = s.flash := by simp) (fab : t.fab = s.fab := by simp)
    (sec : t.sec = s.sec := by simp) (mgmt : t.mgmt = s.mgmt := by simp) (free : t.free = s.free := by simp) :
    BootOnly s t := state_ext pending rfl rfl sched obj gen search mem flash fab rfl sec mgmt free

theorem FabOnly.of_parts (pending : t.pending = s.pending := by simp) (sched : t.sched = s.sched := by simp)
    (obj : t.obj = s.obj := by simp) (gen : t.gen = s.gen := by simp) (search : t.search = s.search := by simp)
    (mem : t.mem = s.mem := by simp) (flash : t.flash = s.flash := by simp) (boot : t.boot = s.boot := by simp)
    (sec : t.sec = s.sec := by simp) (mgmt : t.mgmt = s.mgmt := by simp) (free : t.free = s.free := by simp) :
    FabOnly s t := state_ext pending rfl rfl sched obj gen search mem flash rfl boot sec mgmt free

theorem SecOnly.of_parts (pending : t.pending = s.pending := by simp) (sched : t.sched = s.sched := by simp)
    (obj : t.obj = s.obj := by simp) (gen : t.gen = s.gen := by simp) (search : t.search = s.search := by simp)
    (mem : t.mem = s.mem := by simp) (flash : t.flash = s.flash := by simp) (fab : t.fab = s.fab := by simp)
    (boot : t.boot = s.boot := by simp) (mgmt : t.mgmt = s.mgmt := by simp) (free : t.free = s.free := by simp) :
    SecOnly s t := state_ext pending rfl rfl sched obj gen search mem flash fab boot rfl mgmt free

theorem HostOnly.trans {u : State} (h : HostOnly s t) (k : HostOnly t u) : HostOnly s u := by
  unfold HostOnly at *
  rw [h] at k
  exact k

theorem MgmtOnly.trans {u : State} (h : MgmtOnly s t) (k : MgmtOnly t u) : MgmtOnly s u := by
  unfold MgmtOnly at *
  rw [h] at k
  exact k

theorem BootOnly.trans {u : State} (h : BootOnly s t) (k : BootOnly t u) : BootOnly s u := by
  unfold BootOnly at *
  rw [h] at k
  exact k

theorem FabOnly.trans {u : State} (h : FabOnly s t) (k : FabOnly t u) : FabOnly s u := by
  unfold FabOnly at *
  rw [h] at k
  exact k

theorem SecOnly.trans {u : State} (h : SecOnly s t) (k : SecOnly t u) : SecOnly s u := by
  unfold SecOnly at *
  rw [h] at k
  exact k

end

/-- The management state apart from the records, the snapshot sets, and the messages that a record sends. -/
def Mgmt.unrecorded (m : Mgmt) : Mgmt :=
  { m with records := [], lastSeq := 0, nextSnap := 0, snapWait := [], snapDropped := 0, messages := [], lostRecs := 0, snaps := [] }

/-- The management state apart from those and from the pacers' conflicts. -/
def Mgmt.settled (m : Mgmt) : Mgmt := { m.unrecorded with lastBegin := [], clamps := 0, conflicts := [] }

section
variable (s : State)

@[simp] theorem wrapArea_unrecorded : (wrapArea s).mgmt.unrecorded = s.mgmt.unrecorded :=
  wrapArea_mgmt_keeps Mgmt.unrecorded (fun _ _ _ _ _ => rfl) s

@[simp] theorem flushSnaps_unrecorded : (flushSnaps s).mgmt.unrecorded = s.mgmt.unrecorded := by
  rw [flushSnaps, wrapArea_unrecorded]
  rfl

@[simp] theorem recordWith_unrecorded (asked : Option Nat) (kind sev source code inst : Nat) (sup : Option Nat) (pl : List Nat) :
    (recordWith asked kind sev source code inst sup pl s).mgmt.unrecorded = s.mgmt.unrecorded := by
  unfold recordWith whenS
  dsimp only
  split
  · rw [flushSnaps_unrecorded]
    simp only [evCount_mgmt, wrapArea_unrecorded]
    split <;> simp [Mgmt.unrecorded]
  · simp only [evCount_mgmt, wrapArea_unrecorded]
    split <;> simp [Mgmt.unrecorded]

@[simp] theorem recordFull_unrecorded (kind sev source code inst : Nat) (sup : Option Nat) (pl : List Nat) :
    (recordFull kind sev source code inst sup pl s).mgmt.unrecorded = s.mgmt.unrecorded := recordWith_unrecorded ..

@[simp] theorem recordEvent_unrecorded (sev source code inst : Nat) (pl : List Nat) :
    (recordEvent sev source code inst pl s).mgmt.unrecorded = s.mgmt.unrecorded := recordFull_unrecorded ..

theorem recordFull_mgmtOnly (kind sev source code inst : Nat) (sup : Option Nat) (pl : List Nat) :
    MgmtOnly s (recordFull kind sev source code inst sup pl s) := .of_parts

theorem evCount_hostOnly (p src n : Nat) : HostOnly s (evCount p src n s) := .of_parts

theorem lastSeq_lt_recordEvent {t : State} (h : t.mgmt = s.mgmt) (sev source code inst : Nat) (pl : List Nat) :
    s.mgmt.lastSeq < (recordEvent sev source code inst pl t).mgmt.lastSeq := by
  rw [← h]
  exact recordEvent_lastSeq_lt sev source code inst pl t

/-! ### The pacers' conflicts (19 R712) -/

theorem Mgmt.settled_eq {a b : Mgmt} (h : a.unrecorded = b.unrecorded) : a.settled = b.settled := by rw [settled, h, settled]

theorem Mgmt.settled_conflicts (m : Mgmt) (b : Map (Nat × Nat)) (k : Nat) (c : List Clamp) :
    { m with lastBegin := b, clamps := k, conflicts := c }.settled = m.settled := rfl

/-- What the conflicts and the records are no part of agrees where the rest does. -/
theorem Mgmt.eq_of_settled {β : Type} (g : Mgmt → β) (hg : ∀ m, g m.settled = g m) {a b : Mgmt} (h : a.settled = b.settled) :
    g a = g b := by rw [← hg a, h, hg]

theorem Mgmt.eq_of_unrecorded {β : Type} (g : Mgmt → β) (hg : ∀ m, g m.unrecorded = g m) {a b : Mgmt}
    (h : a.unrecorded = b.unrecorded) : g a = g b := by rw [← hg a, h, hg]

theorem pacerRecord_settled (code p r : Nat) (pl : List Nat) : (pacerRecord code p r pl s).mgmt.settled = s.mgmt.settled := by
  rw [pacerRecord, Mgmt.settled_eq (recordFull_unrecorded ..)]
  exact Mgmt.settled_conflicts s.mgmt _ _ _

theorem beginRecord_settled (code p r : Nat) : (beginRecord code p r s).2.mgmt.settled = s.mgmt.settled := by
  by_cases hr : recentBegin s (16 * p + r) = true
  · rw [beginRecord_recent code p r s hr]
    exact Mgmt.settled_conflicts s.mgmt _ _ _
  · rw [beginRecord_written code p r s hr]
    exact (Mgmt.settled_conflicts (pacerRecord code p r [] s).mgmt _ _ _).trans (pacerRecord_settled s code p r [])

theorem beginClamp_settled (p r : Nat) (src : Nat × Nat × Nat) : (beginClamp p r src s).mgmt.settled = s.mgmt.settled := by
  unfold beginClamp
  dsimp only
  rw [evCount_mgmt]
  have h := beginRecord_settled s 0x0801 p r
  generalize beginRecord 0x0801 p r s = b at h ⊢
  exact (Mgmt.settled_conflicts b.2.mgmt _ _ _).trans h

theorem endClamp_settled (c : Clamp) : (endClamp c s).mgmt.settled = s.mgmt.settled := by
  unfold endClamp
  dsimp only
  split
  · rw [pacerRecord_settled]
    rfl
  · rfl

theorem leaveClamp_settled (src : Nat × Nat × Nat) (c : Clamp) : (leaveClamp src c s).mgmt.settled = s.mgmt.settled := by
  unfold leaveClamp
  dsimp only
  split
  · exact endClamp_settled s c
  · rfl

theorem joinClamp_settled (p r : Nat) (src : Nat × Nat × Nat) : (joinClamp p r src s).mgmt.settled = s.mgmt.settled := by
  unfold joinClamp
  split
  · split <;> rfl
  · exact beginClamp_settled s p r src

theorem holdOutput_settled (p : Nat) (src : Nat × Nat × Nat) (rs : List Nat) :
    (holdOutput p src rs s).mgmt.settled = s.mgmt.settled := by
  unfold holdOutput
  dsimp only
  rw [foldS_keeps (fun t => t.mgmt.settled) _ _ _ fun t r => joinClamp_settled t p r src,
    foldS_keeps (fun t => t.mgmt.settled) _ _ _ fun t c => leaveClamp_settled t src c]

end

end Sys2Proof.Machine
end

section
/-! PROOFS. The pacers and the safety overrides (19 R710, R713; 17 R647). -/

-- One declaration after the other: the stacks of the threads that elaborate so long a text at once pass the check's limit.
set_option Elab.async false

namespace Sys2Proof.Machine

/-! ### Changes of several clusters -/

/-- Changing each cluster of a list, in turn, changes the clusters and nothing else. -/
theorem foldS_modCluster_frame (l : List Nat) (f : Nat → Cluster → Cluster) (s : State) :
    ∃ m, foldS l (fun t g => modCluster g (f g) t) s = modBoot (fun b => { b with clusters := m }) s := by
  induction l generalizing s with
  | nil => exact ⟨s.boot.clusters, rfl⟩
  | cons g l ih =>
    obtain ⟨m, hm⟩ := ih (modCluster g (f g) s)
    exact ⟨m, hm⟩

/-- Each cluster of a list without repetition is changed once. -/
theorem clusterOf_foldS_modCluster {l : List Nat} (hl : l.Nodup) (f : Nat → Cluster → Cluster) (s : State) (j : Nat) :
    clusterOf (foldS l (fun t g => modCluster g (f g) t) s) j = if j ∈ l then f j (clusterOf s j) else clusterOf s j := by
  induction l generalizing s with
  | nil => simp
  | cons g l ih =>
    obtain ⟨hg, hl⟩ := List.nodup_cons.mp hl
    rw [foldS_cons, ih hl]
    by_cases hj : j = g
    · subst hj
      simp [hg, clusterOf_modCluster_same]
    · simp [hj, clusterOf_modCluster_other hj]

theorem mem_allClusters {g : Nat} : g ∈ allClusters ↔ g < 320 := List.mem_range

theorem nodup_filter_allClusters (p : Nat → Bool) : (allClusters.filter p).Nodup := List.nodup_range.filter p

/-! ### The clock pacer (19 R710, R713; 17 R647) -/

/-- One step of the pacer moves a code by at most one. -/
theorem paceCode_near (en cap raise excess : Bool) (lo hi code : Nat) :
    (paceCode en cap raise excess lo hi code).1 ≤ code + 1 ∧ code ≤ (paceCode en cap raise excess lo hi code).1 + 1 := by
  unfold paceCode
  dsimp only
  split_ifs <;> simp only <;> omega

/-- The code that the clock pacer gives a cluster, and what holds it back. -/
def pacedTo (s : State) (raise excess : Bool) (g : Nat) : Nat × Nat :=
  if overridden s (g / 80) then
    ((clusterOf s g).code, heldLow (s.mgmt.pcrCtl.getLsbD 0) s.boot.clockCap excess (clkBoundsOf s (g / 80)).1
      (clkBoundsOf s (g / 80)).2 (clusterOf s g).code)
  else paceCode (s.mgmt.pcrCtl.getLsbD 0) s.boot.clockCap raise excess (clkBoundsOf s (g / 80)).1 (clkBoundsOf s (g / 80)).2
    (clusterOf s g).code

theorem pacedTo_code (s : State) (raise excess : Bool) (g : Nat) : (pacedTo s raise excess g).1 =
    if overridden s (g / 80) then (clusterOf s g).code
    else (paceCode (s.mgmt.pcrCtl.getLsbD 0) s.boot.clockCap raise excess (clkBoundsOf s (g / 80)).1 (clkBoundsOf s (g / 80)).2
      (clusterOf s g).code).1 := by
  unfold pacedTo
  split <;> rfl

/-- A cluster at another code. -/
def Cluster.recoded (n : Nat) (c : Cluster) : Cluster := { c with code := n }

/-- The clusters whose code the clock pacer moves. -/
def pacedClusters (s : State) (raise excess : Bool) : List Nat :=
  allClusters.filter fun g => (pacedTo s raise excess g).1 != (clusterOf s g).code

/-- The state in which the codes have moved. -/
def clocksPaced (s : State) (raise excess : Bool) : State :=
  foldS (pacedClusters s raise excess) (fun t g => modCluster g (Cluster.recoded (pacedTo s raise excess g).1) t) s

theorem clusterOf_clocksPaced (s : State) (raise excess : Bool) (g : Nat) : clusterOf (clocksPaced s raise excess) g =
    if g < 320 then (clusterOf s g).recoded (pacedTo s raise excess g).1 else clusterOf s g := by
  have hl : (pacedClusters s raise excess).Nodup := nodup_filter_allClusters _
  rw [clocksPaced, clusterOf_foldS_modCluster hl fun g => Cluster.recoded (pacedTo s raise excess g).1]
  simp only [pacedClusters, List.mem_filter, mem_allClusters, bne_iff_ne, ne_eq]
  by_cases hg : g < 320
  · by_cases hc : (pacedTo s raise excess g).1 = (clusterOf s g).code
    · simp only [hc, not_true_eq_false, and_false, if_false, hg, if_true]
      rfl
    · simp [hg, hc]
  · simp [hg]

theorem clocksPaced_frame (s : State) (raise excess : Bool) :
    ∃ m, clocksPaced s raise excess = modBoot (fun b => { b with clusters := m }) s :=
  foldS_modCluster_frame _ (fun g => Cluster.recoded (pacedTo s raise excess g).1) s

/-- The instant of the next millisecond. -/
def nextMs (s : State) : Nat := 1000000 * (now s / 1000000 + 1)

/-- The state at the next millisecond, once the pacer has made its own choice. -/
def atNextMs (s : State) : State := (drawFree (advanceTo (nextMs s) s)).2

theorem drawFree_mgmt (u : State) : (drawFree u).2.mgmt = u.mgmt := rfl

theorem atNextMs_mgmt (s : State) : (atNextMs s).mgmt = s.mgmt := (drawFree_mgmt _).trans (advanceTo_mgmt _ s)

theorem drawFree_hif (u : State) : (drawFree u).2.hif = u.hif := rfl

theorem drawFree_sched (u : State) : (drawFree u).2.sched = u.sched := rfl

theorem drawFree_obj (u : State) : (drawFree u).2.obj = u.obj := rfl

theorem drawFree_boot (u : State) : (drawFree u).2.boot = u.boot := rfl

theorem atNextMs_boot (s : State) : (atNextMs s).boot = (advanceTo (nextMs s) s).boot := drawFree_boot _

theorem atNextMs_cycles (s : State) : (atNextMs s).boot.cycles = max s.boot.cycles (cycleOfNs (nextMs s)) :=
  (congrArg Boot.cycles (atNextMs_boot s)).trans (advanceTo_cycles _ s)

theorem clusterOf_atNextMs (s : State) : clusterOf (atNextMs s) = clusterOf s :=
  clusterOf_congr (by rw [atNextMs_boot, advanceTo_boot])

theorem overridden_congr {s u : State} (h : u.mgmt = s.mgmt) : overridden u = overridden s := by
  funext d
  rw [overridden, h, overridden]

theorem pacedTo_congr {s u : State} (hm : u.mgmt = s.mgmt) (hc : u.boot.clusters = s.boot.clusters)
    (hk : u.boot.clockCap = s.boot.clockCap) (raise excess : Bool) : pacedTo u raise excess = pacedTo s raise excess := by
  funext g
  simp only [pacedTo, overridden_congr hm, clusterOf_congr hc, clkBoundsOf, hm, hk]

theorem pacedTo_atNextMs (s : State) (raise excess : Bool) : pacedTo (atNextMs s) raise excess = pacedTo s raise excess :=
  pacedTo_congr (atNextMs_mgmt s) (by rw [atNextMs_boot, advanceTo_boot]) (by rw [atNextMs_boot, advanceTo_boot]) raise excess

theorem clusterOf_holdOutput (p : Nat) (src : Nat × Nat × Nat) (rs : List Nat) (s : State) :
    clusterOf (holdOutput p src rs s) = clusterOf s := clusterOf_congr (by rw [holdOutput_boot])

theorem exec_clockPacerStep (w : Nat) {s : State} (hrun : s.boot.mgmtRun = true) :
    ∃ rs, exec (.clockPacerStep w) s = .next (holdOutput 0 (0, 0, 0) rs
      (clocksPaced (atNextMs s) ((Config.free64 s.free).getLsbD 0) (decide (s.mgmt.powerCap < w)))) := by
  have hfree : (drawFree (advanceTo (nextMs s) s)).1 = Config.free64 s.free := by rw [drawFree, advanceTo_free]
  rw [← hfree, ← atNextMs_mgmt s]
  change ∃ rs, execClockPacerStep w s = _
  unfold execClockPacerStep atNextMs nextMs
  dsimp only
  generalize drawFree (advanceTo (1000000 * (now s / 1000000 + 1)) s) = d
  simp only [if_pos hrun, List.filter_map, foldS, List.foldl_map]
  exact ⟨_, rfl⟩

theorem pacerIdle {s : State} (hrun : s.boot.mgmtRun = false) (p w : Nat) :
    exec (.clockPacerStep w) s = .next s ∧ exec (.admissionPacer p w) s = .next s :=
  ⟨congrArg Host.Outcome.next (if_neg (by simp [hrun])), congrArg Host.Outcome.next (if_neg (by simp [hrun]))⟩

/-! ### The admission pacer (19 R710, R711) -/

theorem exec_admissionPacer {p : Nat} (w : Nat) {s : State} (h1 : 1 ≤ p) (h3 : p ≤ 3) (hrun : s.boot.mgmtRun = true) :
    ∃ rs, exec (.admissionPacer p w) s = .next (holdOutput 1 (p, 0, 0) rs (modMgmt (fun m => { m with
      admRate := mset m.admRate p (if s.mgmt.pcrCtl.getLsbD 1 then max (admBoundsOf s p).1 (min (admBoundsOf s p).2 w)
        else (admBoundsOf s p).2) }) s)) :=
  ⟨_, congrArg Host.Outcome.next (if_pos ⟨h1, h3, hrun⟩)⟩

theorem holdOutput_mgmtOnly {s t : State} (h : MgmtOnly s t) (p : Nat) (src : Nat × Nat × Nat) (rs : List Nat) :
    MgmtOnly s (holdOutput p src rs t) :=
  h.trans .of_parts

/-! ### Safety overrides (19 R713) -/

section
variable {q : SafetyQuantity} {v : Nat} {s : State}

theorem beginRecord_mgmtOnly (code p r : Nat) (s : State) : MgmtOnly s (beginRecord code p r s).2 := .of_parts

theorem pacerRecord_mgmtOnly (code p r : Nat) (pl : List Nat) (s : State) : MgmtOnly s (pacerRecord code p r pl s) := .of_parts

/-- The override of a quantity is noted, with whether its begin record was written. -/
def overrideNoted (q : SafetyQuantity) (s : State) (b : Bool × State) : State :=
  modMgmt (fun m => { m with overrides := m.overrides ++ [(q, now s, b.1)], overrideCount := m.overrideCount + 1 }) b.2

theorem exec_safetyOverrideEnter (hok : quantityOk q = true) (hv : (safetyLimits q).1 ≤ v)
    (hnew : ∀ o, o ∈ s.mgmt.overrides → o.1 ≠ q) :
    exec (.safetyOverrideEnter q v) s = .next (overrideNoted q s (beginRecord 0x0803 0 (overrideReason q) s)) := by
  have hno : (s.mgmt.overrides.any fun o => o.1 == q) = false := List.any_eq_false.mpr fun o ho => by simpa using hnew o ho
  change execSafetyOverrideEnter q v s = _
  simp only [execSafetyOverrideEnter, hok, hv, hno, decide_true, Bool.not_false, Bool.and_self, if_true, overrideNoted]

theorem overrideNoted_effect (q : SafetyQuantity) (code r : Nat) (s : State) :
    ∃ b, (overrideNoted q s (beginRecord code 0 r s)).mgmt.overrides = s.mgmt.overrides ++ [(q, now s, b)] ∧
      (overrideNoted q s (beginRecord code 0 r s)).mgmt.overrideCount = s.mgmt.overrideCount + 1 ∧
      MgmtOnly s (overrideNoted q s (beginRecord code 0 r s)) := by
  have hs := beginRecord_settled s code 0 r
  have ho : (beginRecord code 0 r s).2.mgmt.overrides = s.mgmt.overrides := Mgmt.eq_of_settled Mgmt.overrides (fun _ => rfl) hs
  have hc : (beginRecord code 0 r s).2.mgmt.overrideCount = s.mgmt.overrideCount := Mgmt.eq_of_settled Mgmt.overrideCount (fun _ => rfl) hs
  refine ⟨(beginRecord code 0 r s).1, ?_, ?_, ?_⟩
  · rw [overrideNoted, modMgmt_mgmt, ho]
  · rw [overrideNoted, modMgmt_mgmt, hc]
  · unfold overrideNoted
    exact (beginRecord_mgmtOnly code 0 r s).trans .of_parts

/-- The clusters that a step of the overrides slows: those of the dies under one, that are not at code 0. -/
def slowedClusters (s : State) : List Nat := allClusters.filter fun g => overridden s (g / 80) && decide (0 < (clusterOf s g).code)

/-- The clusters under an override have dropped one code. -/
def clocksSlowed (s : State) : State := foldS (slowedClusters s) (fun t g => modCluster g (fun c => c.recoded (c.code - 1)) t) s

theorem clocksSlowed_frame (s : State) : ∃ m, clocksSlowed s = modBoot (fun b => { b with clusters := m }) s :=
  foldS_modCluster_frame _ (fun _ c => c.recoded (c.code - 1)) s

theorem clusterOf_clocksSlowed (s : State) {g : Nat} (hg : g < 320) : clusterOf (clocksSlowed s) g =
    (clusterOf s g).recoded (if overridden s (g / 80) then (clusterOf s g).code - 1 else (clusterOf s g).code) := by
  have hl : (slowedClusters s).Nodup := nodup_filter_allClusters _
  rw [clocksSlowed, clusterOf_foldS_modCluster hl fun _ c => c.recoded (c.code - 1)]
  simp only [slowedClusters, List.mem_filter, mem_allClusters, hg, true_and, Bool.and_eq_true, decide_eq_true_eq]
  by_cases ho : overridden s (g / 80) = true
  · by_cases hc : 0 < (clusterOf s g).code
    · simp [ho, hc]
    · have h0 : (clusterOf s g).code = 0 := by omega
      simp only [ho, h0, Nat.lt_irrefl, and_false, if_false, if_true, Nat.zero_sub]
      exact congrArg (fun n => (clusterOf s g).recoded n) h0
  · simp only [ho, Bool.false_eq_true, false_and, if_false]
    rfl

theorem exec_safetyOverrideStep (h : s.mgmt.overrides ≠ []) :
    exec .safetyOverrideStep s = .next (clocksSlowed (advanceTo (now s + 100000) s)) :=
  congrArg Host.Outcome.next (if_neg (by simpa using h))

theorem exec_safetyOverrideLeave {o : SafetyQuantity × Nat × Bool} (ho : o ∈ s.mgmt.overrides) (hq : o.1 = q)
    (hv : v < (safetyLimits q).2) : ∃ u, exec (.safetyOverrideLeave q v) s = .next u ∧
      u.mgmt.settled = { s.mgmt with overrides := s.mgmt.overrides.filter fun x => x.1 != q }.settled ∧ MgmtOnly s u := by
  obtain ⟨x, hx⟩ := Option.isSome_iff_exists.mp (List.find?_isSome.mpr ⟨o, ho, beq_iff_eq.mpr hq⟩ :
    (s.mgmt.overrides.find? fun o => o.1 == q).isSome = true)
  change ∃ u, execSafetyOverrideLeave q v s = .next u ∧ _
  simp only [execSafetyOverrideLeave, hx, if_pos hv]
  refine ⟨_, rfl, ?_⟩
  split
  · exact ⟨pacerRecord_settled _ _ _ _ _, .of_parts⟩
  · exact ⟨rfl, rfl⟩

theorem exec_safetyOverrideLeave_stays (hv : (safetyLimits q).2 ≤ v) : exec (.safetyOverrideLeave q v) s = .next s := by
  change execSafetyOverrideLeave q v s = _
  unfold execSafetyOverrideLeave
  split
  · rw [if_neg (Nat.not_lt.mpr hv)]
  · rfl

end

/-- Once the pacer has moved the codes and noted its conflicts, module time, the host's memory, the accounts and the objects are as they
were. -/
theorem clocksPaced_kept (v : State) (raise excess : Bool) (rs : List Nat) :
    (holdOutput 0 (0, 0, 0) rs (clocksPaced v raise excess)).boot.cycles = v.boot.cycles ∧
    (holdOutput 0 (0, 0, 0) rs (clocksPaced v raise excess)).hif.hostMem = v.hif.hostMem ∧
    (holdOutput 0 (0, 0, 0) rs (clocksPaced v raise excess)).sched = v.sched ∧
    (holdOutput 0 (0, 0, 0) rs (clocksPaced v raise excess)).obj = v.obj := by
  obtain ⟨m, hm⟩ := clocksPaced_frame v raise excess
  rw [holdOutput_boot, holdOutput_hif_hostMem, holdOutput_sched, holdOutput_obj, hm]
  exact ⟨rfl, rfl, rfl, rfl⟩

theorem atNextMs_kept (s : State) :
    (atNextMs s).hif.hostMem = s.hif.hostMem ∧ (atNextMs s).sched = s.sched ∧ (atNextMs s).obj = s.obj :=
  ⟨(congrArg Hif.hostMem (drawFree_hif _)).trans (advanceTo_hif_hostMem _ s), (drawFree_sched _).trans (advanceTo_sched _ s),
    (drawFree_obj _).trans (advanceTo_obj _ s)⟩

theorem clusterOf_paced (s : State) (raise excess : Bool) (rs : List Nat) (g : Nat) :
    clusterOf (holdOutput 0 (0, 0, 0) rs (clocksPaced (atNextMs s) raise excess)) g =
      if g < 320 then (clusterOf s g).recoded (pacedTo s raise excess g).1 else clusterOf s g := by
  rw [clusterOf_holdOutput, clusterOf_clocksPaced, clusterOf_atNextMs, pacedTo_atNextMs]

/-- A step of the overrides comes at its instant, and the clusters under one have dropped a code. -/
theorem slowed_effect (n : Nat) (s : State) :
    (∀ g, g < 320 → clusterOf (clocksSlowed (advanceTo n s)) g =
      (clusterOf s g).recoded (if overridden s (g / 80) then (clusterOf s g).code - 1 else (clusterOf s g).code)) ∧
    (clocksSlowed (advanceTo n s)).boot.cycles = max s.boot.cycles (cycleOfNs n) ∧
    (clocksSlowed (advanceTo n s)).mgmt = s.mgmt ∧ BootOnly s (clocksSlowed (advanceTo n s)) := by
  obtain ⟨m, hm⟩ := clocksSlowed_frame (advanceTo n s)
  refine ⟨fun g hg => ?_, ?_⟩
  · rw [clusterOf_clocksSlowed _ hg, clusterOf_advanceTo, overridden_congr (advanceTo_mgmt _ s)]
  · rw [hm, modBoot_boot, modBoot_mgmt]
    exact ⟨advanceTo_cycles .., advanceTo_mgmt .., (advanceTo_bootOnly n s).trans .of_parts⟩

/-- Settles O32: the pacers' steps by what they make of each cluster or rate, the overrides by what they note. -/
theorem pacersAndSafetyLimits : Obligations.pacers_and_safety_limits := by
  refine ⟨?_, paceCode_near, fun w p s hrun => pacerIdle hrun p w, ?_, ?_, ?_, ?_, ?_⟩
  · intro w s hrun
    obtain ⟨rs, hexec⟩ := exec_clockPacerStep w hrun
    obtain ⟨hcycles, hmem, hsched, hobj⟩ :=
      clocksPaced_kept (atNextMs s) ((Config.free64 s.free).getLsbD 0) (decide (s.mgmt.powerCap < w)) rs
    obtain ⟨kmem, ksched, kobj⟩ := atNextMs_kept s
    refine ⟨_, hexec, fun g hg => ?_, fun g hg => ?_, hcycles.trans (atNextMs_cycles s), hmem.trans kmem, hsched.trans ksched,
      hobj.trans kobj⟩
    · rw [clusterOf_paced, if_pos hg, pacedTo_code]
      rfl
    · rw [clusterOf_paced, if_neg (Nat.not_lt.mpr hg)]
  · intro p w s h1 h3 hrun
    obtain ⟨rs, hexec⟩ := exec_admissionPacer w h1 h3 hrun
    refine ⟨_, hexec, ?_⟩
    rw [show ∀ u : State, (holdOutput 1 (p, 0, 0) rs u).mgmt.admRate = u.mgmt.admRate from
      fun u => Mgmt.eq_of_settled Mgmt.admRate (fun _ => rfl) (holdOutput_settled u 1 (p, 0, 0) rs)]
    refine ⟨fun hen => ?_, fun hen => ?_, fun j hj => mget_mset_other _ _ _ _ hj, holdOutput_mgmtOnly .of_parts _ _ _⟩
    · simp only [modMgmt_mgmt, mget_mset_same, hen, if_true]
    · simp only [modMgmt_mgmt, mget_mset_same, hen, Bool.false_eq_true, if_false]
  · intro q v s hok hv hnew
    obtain ⟨b, hover, hcount, honly⟩ := overrideNoted_effect q 0x0803 (overrideReason q) s
    exact ⟨_, b, exec_safetyOverrideEnter hok hv hnew, hover, hcount, honly⟩
  · intro s h
    exact ⟨_, exec_safetyOverrideStep h, slowed_effect (now s + 100000) s⟩
  · intro q v o s ho hq hv
    obtain ⟨u, hexec, hset, honly⟩ := exec_safetyOverrideLeave ho hq hv
    exact ⟨u, hexec, (Mgmt.eq_of_settled Mgmt.overrides (fun _ => rfl) hset).trans rfl, (Mgmt.eq_of_settled Mgmt.overrideCount (fun _ => rfl) hset).trans rfl, honly⟩
  · exact fun q v s hv => exec_safetyOverrideLeave_stays hv

end Sys2Proof.Machine
end

section
/-! PROOFS. The transport of the fabric: what sending, routing and pumping flits leave of the fabric unit and of each port, and how a
packet for this module arrives (16 R593 to R622). -/

-- One declaration after the other: the stacks of the threads that elaborate so long a text at once pass the check's limit.
set_option Elab.async false

namespace Sys2Proof.Machine

/-! ### Flits going out of a port (16 R590 to R597) -/

/-- A port apart from what it has put on its lines. -/
def Port.offLine (p : Port) : Port := { p with flits := [], txBlocks := [], words := [], ivCount := 0 }

/-- A port apart from what it sends: what it has received, its state and its keys. -/
def Port.inward (p : Port) : Port := { p.offLine with outq := [], credits := [], replay := [], txSeq := 0 }

theorem Port.inward_eq {p q : Port} (h : p.offLine = q.offLine) : p.inward = q.inward := by rw [inward, h, inward]

/-- What is no part of the sending side agrees where the rest does. -/
theorem Port.eq_of_inward {β : Type} (g : Port → β) (hg : ∀ p, g p.inward = g p) {p q : Port} (h : p.inward = q.inward) :
    g p = g q := by rw [← hg p, h, hg]

theorem Port.eq_of_offLine {β : Type} (g : Port → β) (hg : ∀ p, g p.offLine = g p) {p q : Port} (h : p.offLine = q.offLine) :
    g p = g q := by rw [← hg p, h, hg]

theorem pushFlit_offLine (port hd : Nat) (b : Bytes) (p : Port) : (pushFlit port hd b p).offLine = p.offLine := by
  unfold pushFlit sendWords
  dsimp only
  split
  · split <;> rfl
  · rfl

/-- Every transmission is one more flit on the lines, and takes a new count while the port is SECURE (16 R598). -/
theorem pushFlit_counts (port hd : Nat) (b : Bytes) (p : Port) : (pushFlit port hd b p).flits.length = p.flits.length + 1 ∧
    (pushFlit port hd b p).ivCount = p.ivCount + b2n (p.state == .secure) := by
  unfold pushFlit sendWords
  dsimp only
  split
  · split <;> simp
  · simp

theorem pushCtl_offLine (port : Nat) (c : CtlFlit) (p : Port) :
    (pushCtl port c p).offLine = { p with ctl := c :: p.ctl }.offLine := pushFlit_offLine ..

theorem pumpFlits_inward (port : Nat) (fs : List Flit) (p : Port) : (pumpFlits port p fs).1.inward = p.inward := by
  induction fs generalizing p with
  | nil => rfl
  | cons f fs ih =>
    unfold pumpFlits
    dsimp only
    split
    · exact (ih _).trans ((Port.inward_eq (pushFlit_offLine ..)).trans rfl)
    · exact (ih p : (pumpFlits port p fs).1.inward = p.inward)

/-! ### Ports after an operation -/

section
variable (s : State)

@[simp] theorem portOf_modPort_same (n : Nat) (f : Port → Port) : portOf (modPort n f s) n = f (portOf s n) := mgetD_mmod_same ..

theorem portOf_modPort_other {n j : Nat} (f : Port → Port) (h : j ≠ n) : portOf (modPort n f s) j = portOf s j :=
  mgetD_mmod_other _ _ _ _ _ _ h

@[simp] theorem portOf_evCount (p src n j : Nat) : portOf (evCount p src n s) j = portOf s j := by simp [portOf]

/-- Every port receives as before. -/
def inwardOf (s : State) (n : Nat) : Port := (portOf s n).inward

theorem pumpPort_port (n : Nat) :
    portOf (pumpPort n s) n = (pumpFlits n { portOf s n with outq := [] } (portOf s n).outq).1 := by simp [pumpPort]

theorem pumpPort_port_other {n j : Nat} (h : j ≠ n) : portOf (pumpPort n s) j = portOf s j := by
  simp [pumpPort, portOf_modPort_other _ _ h]

theorem pumpPort_inward (n : Nat) : inwardOf (pumpPort n s) = inwardOf s := by
  funext j
  unfold inwardOf
  by_cases h : j = n
  · subst h
    rw [pumpPort_port, pumpFlits_inward]
    rfl
  · rw [pumpPort_port_other s h]

/-! ### The fabric unit after an operation (16 R606 to R608) -/

/-- The fabric unit apart from its ports, what was sent and delivered, and what found no route. -/
def Fabric.standing (f : Fabric) : Fabric := { f with ports := [], sent := [], delivered := [], noRoute := 0 }

theorem Fabric.eq_of_standing {β : Type} (g : Fabric → β) (hg : ∀ f, g f.standing = g f) {a b : Fabric}
    (h : a.standing = b.standing) : g a = g b := by rw [← hg a, h, hg]

/-- A packet may have been sent: every port receives as before, the rest of the fabric unit stands, and what was sent before is still
among what was sent. -/
structure Transports (s t : State) : Prop where
  sends : SendsOnly s t
  inward : inwardOf t = inwardOf s
  standing : t.fab.standing = s.fab.standing
  sent : ∀ q ∈ s.fab.sent, q ∈ t.fab.sent

theorem Transports.refl : Transports s s := ⟨.refl s, rfl, rfl, fun _ h => h⟩

variable {s} in
theorem Transports.trans {t u : State} (h : Transports s t) (k : Transports t u) : Transports s u where
  sends := h.sends.trans k.sends
  inward := k.inward.trans h.inward
  standing := k.standing.trans h.standing
  sent q hq := k.sent q (h.sent q hq)

theorem evCount_transports (p src n : Nat) : Transports s (evCount p src n s) where
  sends := evCount_sendsOnly s p src n
  inward := by funext j; simp [inwardOf]
  standing := by simp
  sent q hq := by simpa using hq

theorem pumpPort_transports (n : Nat) : Transports s (pumpPort n s) where
  sends := pumpPort_sendsOnly s n
  inward := pumpPort_inward s n
  standing := by simp [pumpPort, Fabric.standing]
  sent q hq := by simpa [pumpPort] using hq

theorem putOn_inward (n lvl : Nat) (p : Packet) : inwardOf (putOn n lvl p s) = inwardOf s := by
  unfold putOn
  rw [pumpPort_inward]
  funext j
  unfold inwardOf
  by_cases h : j = n
  · subst h
    rw [portOf_modPort_same]
    rfl
  · rw [portOf_modPort_other _ _ h]
    rfl

/-- A packet put on a port is among what was sent. -/
theorem mem_sent_putOn (n lvl : Nat) (p : Packet) : { p with port := n } ∈ (putOn n lvl p s).fab.sent :=
  (pumpPort_transports _ n).sent _ (List.mem_cons_self ..)

theorem putOn_transports (n lvl : Nat) (p : Packet) : Transports s (putOn n lvl p s) where
  sends := putOn_sendsOnly s n lvl p
  inward := putOn_inward s n lvl p
  standing := by
    unfold putOn
    rw [(pumpPort_transports _ n).standing]
    rfl
  sent q hq := (pumpPort_transports _ n).sent q (List.mem_cons_of_mem _ hq)

theorem dropNoRoute_transports : Transports s (dropNoRoute s) :=
  Transports.trans (t := modFab (fun f => { f with noRoute := f.noRoute + 1 }) s)
    ⟨modFab_sendsOnly s _, rfl, rfl, fun _ h => h⟩ (evCount_transports _ 10 7 1)

theorem routeAt_transports (lvl : Nat) (p : Packet) : Transports s (routeAt lvl p s) := by
  unfold routeAt
  dsimp only
  split
  · exact ⟨modFab_sendsOnly s _, rfl, rfl, fun _ h => h⟩
  · split
    · exact dropNoRoute_transports s
    · exact putOn_transports s _ _ _
    · split
      · split
        · exact putOn_transports s _ _ _
        · exact dropNoRoute_transports s
      · exact dropNoRoute_transports s

theorem sendPacket_transports (p : Packet) : Transports s (sendPacket p s) := routeAt_transports s _ _

theorem sendAll_transports (p : Packet) : Transports s (sendAll p s) :=
  foldS_inv (Transports s) _ _ _ (fun t _ h => h.trans (sendPacket_transports t _)) (.refl s)

/-- A packet to another module that this one has a route to goes out of a port. -/
theorem sendPacket_sends {p : Packet} (hr : Routed p.dst s) :
    ∃ n, { p with src := s.fab.id, hops := 0, port := n } ∈ (sendPacket p s).fab.sent := by
  obtain ⟨hother, hstate, hentry, hlevel⟩ := hr
  obtain ⟨l, hl⟩ := Option.isSome_iff_exists.mp hlevel
  have hroute : sendPacket p s = putOn (routePort s (routeEntry s.fab p.dst)) l { p with src := s.fab.id, hops := 0 } s := by
    unfold sendPacket routeAt
    dsimp only
    rw [if_neg (fun h => hother h.1)]
    rcases hstate with h | h <;> simp only [h, hentry, if_true, hl]
  exact ⟨_, hroute ▸ mem_sent_putOn s _ l _⟩

/-- A packet short enough to need no train is sent as it is (16 R618). -/
theorem sendAll_single {p : Packet} (hp : p.payload.length ≤ 32768) : sendAll p s = sendPacket p s := by
  simp [sendAll, asSent, hp]

end

/-! ### A packet for this module (16 R602, R611, R618) -/

/-- A packet is taken from those that wait for this module. -/
def taken (q : Packet) (s : State) : State := modFab (fun f => { f with delivered := f.delivered.erase q }) s

theorem arrive_toMe {p : Packet} {s : State} (h : ToMe p s) (pt : Nat) (act : Packet → State → State) :
    arrive pt act p s = act { p with ptype := pt } (taken { p with ptype := pt } s) := by
  obtain ⟨hdst, hstate, hwhole⟩ := h
  have hon : onFabric s = true := by simp [onFabric, hstate]
  unfold arrive
  dsimp only
  rw [if_neg (by simp [hdst]), if_neg (by simp [hon]), gatherTrain, if_pos hwhole]
  rfl

theorem fromAnchor_takes {p : Packet} {s : State} (h : FromAnchor p s) (pt : Nat) (act : Packet → State → State) :
    fromAnchor pt act p s = act { p with ptype := pt } (taken { p with ptype := pt } s) := by
  obtain ⟨hdst, hstate, hsrc⟩ := h
  unfold fromAnchor
  dsimp only
  rw [if_neg (by simp [hdst]), if_neg (by simp [hstate, hsrc])]
  rfl

section
variable (s : State)

@[simp] theorem pairOf_modPair_same (peer : Nat) (f : Pair → Pair) : pairOf (modPair peer f s) peer = f (pairOf s peer) :=
  mgetD_mmod_same ..

theorem pairOf_modPair_other {peer j : Nat} (f : Pair → Pair) (h : j ≠ peer) : pairOf (modPair peer f s) j = pairOf s j :=
  mgetD_mmod_other _ _ _ _ _ _ h

/-- With no request held early there is none whose turn has come. -/
theorem runEarly_none {run : Packet → State → State} {peer : Nat} {s : State} (h : (pairOf s peer).early = []) (n : Nat) :
    runEarly run peer n s = s := by
  cases n with
  | zero => rfl
  | succ n => simp [runEarly, h]

end

/-- The next number of a pair is awaited. -/
def turnTaken (p : Packet) (s : State) : State := modPair p.src (fun x => { x with rxNext := (x.rxNext + 1) % 2 ^ 32 }) s

theorem Transports.pairOf {s t : State} (h : Transports s t) (peer : Nat) : pairOf t peer = pairOf s peer :=
  congrArg (fun m => mgetD m peer ({} : Pair)) (Fabric.eq_of_standing Fabric.pairs (fun _ => rfl) h.standing)

/-- A request in its turn runs and is acknowledged, when its run holds none early. -/
theorem arriveReq_inTurn {p : Packet} {s u : State} (h : InTurn p s) (pt : Nat)
    (hu : u = runReq { p with ptype := pt } (turnTaken { p with ptype := pt } (taken { p with ptype := pt } s)))
    (he : (pairOf u p.src).early = []) : arriveReq pt p s = sendAck p.src p.pairSeq u := by
  obtain ⟨hme, hturn, -⟩ := h
  have hstate := hme.2.1
  have hack : (pairOf (sendAck p.src p.pairSeq u) p.src).early = [] := by
    rw [sendAck, (sendPacket_transports u _).pairOf, he]
  unfold arriveReq
  rw [arrive_toMe hme]
  unfold receiveReq
  dsimp only
  rw [if_neg (by simp [taken, hstate]), if_pos (show p.pairSeq = (pairOf (taken { p with ptype := pt } s) p.src).rxNext from hturn)]
  subst hu
  exact runEarly_none hack 64

end Sys2Proof.Machine
end

section
/-! PROOFS. The links of the fabric: a flit received, the codewords of the short-reach FEC, retries, key updates, training, sessions and
the loss of a link (16 R590 to R601). -/

-- One declaration after the other: the stacks of the threads that elaborate so long a text at once pass the check's limit.
set_option Elab.async false

namespace Sys2Proof.Machine

/-! ### Changes of one port (16 R597) -/

section
variable (s : State)

theorem modPort_sendsOnly (n : Nat) (f : Port → Port) : SendsOnly s (modPort n f s) := modFab_sendsOnly s _

theorem sendCtl_sendsOnly (n : Nat) (c : CtlFlit) : SendsOnly s (sendCtl n c s) :=
  (modPort_sendsOnly s n _).trans (evCount_sendsOnly _ _ _ _)

@[simp] theorem sendCtl_port (n : Nat) (c : CtlFlit) : portOf (sendCtl n c s) n = pushCtl n c (portOf s n) := by simp [sendCtl]

theorem sendCtl_port_other {n j : Nat} (c : CtlFlit) (h : j ≠ n) : portOf (sendCtl n c s) j = portOf s j := by
  simp [sendCtl, portOf_modPort_other _ _ h]

/-- A retry request goes out for a data flit that is discarded. -/
theorem discardFlit_data (n : Nat) : discardFlit n 0 s = sendCtl n ⟨2, (portOf s n).rxSeq, 0, 0⟩
    (evCount 10 3 1 (modPort n (fun p => { p with linkRetry := p.linkRetry + 1 }) s)) := rfl

theorem discardFlit_sendsOnly (n kind : Nat) : SendsOnly s (discardFlit n kind s) := by
  unfold discardFlit
  split
  · exact ((modPort_sendsOnly s n _).trans (evCount_sendsOnly _ _ _ _)).trans (sendCtl_sendsOnly _ _ _)
  · exact .refl s

theorem countWords_sendsOnly (n c u : Nat) : SendsOnly s (countWords n c u s) :=
  (modPort_sendsOnly s n _).trans (evCount_sendsOnly _ _ _ _)

@[simp] theorem countWords_port (n c u : Nat) : portOf (countWords n c u s) n =
    { portOf s n with fecCorr := (portOf s n).fecCorr + c, fecUncorr := (portOf s n).fecUncorr + u } := by simp [countWords]

theorem countWords_port_other {n j : Nat} (c u : Nat) (h : j ≠ n) : portOf (countWords n c u s) j = portOf s j := by
  simp [countWords, portOf_modPort_other _ _ h]

theorem takeAcks_sendsOnly (n hd : Nat) : SendsOnly s (takeAcks n hd s) := modPort_sendsOnly s n _

theorem resendFrom_sendsOnly (n q : Nat) : SendsOnly s (resendFrom n q s) :=
  (modPort_sendsOnly s n _).trans (evCount_sendsOnly _ _ _ _)

theorem linkControl_sendsOnly (n : Nat) : SendsOnly s (linkControl n s) := by
  unfold linkControl
  split
  · exact modPort_sendsOnly s n _
  · exact sendCtl_sendsOnly s n _

theorem packetArrived_sendsOnly (lvl : Nat) (p : Packet) : SendsOnly s (packetArrived lvl p s) := by
  unfold packetArrived
  split
  · exact modFab_sendsOnly s _
  · split
    · exact routeAt_sendsOnly s _ _
    · exact .refl s

theorem packetArrived_inward (lvl : Nat) (p : Packet) : inwardOf (packetArrived lvl p s) = inwardOf s := by
  unfold packetArrived
  split
  · rfl
  · split
    · exact (routeAt_transports s _ _).inward
    · rfl

end

/-! ### A data flit in order (16 R596, R597) -/

section
variable (n hd : Nat) (payload : Bytes) (s : State)

/-- The acknowledgement and credit that a data flit in order is answered with. -/
def flitAck (p : Port) (hd : Nat) : CtlFlit := ⟨1, p.rxSeq, 4 * bitsOf hd 35 34 + bitsOf hd 37 36, 1⟩

/-- A port that has taken a data flit in order. -/
def Port.flitTaken (hd : Nat) (p : Port) : Port := { p with rxSeq := (p.rxSeq + 1) % 4096, ctl := flitAck p hd :: p.ctl }

theorem Port.flitTaken_inward {p q : Port} (hd : Nat) (h : p.inward = q.inward) : (p.flitTaken hd).inward = (q.flitTaken hd).inward := by
  have k := congrArg (fun x : Port => (x.flitTaken hd).inward) h
  exact k

/-- A data flit in order has been counted and acknowledged. -/
def flitAcked : State :=
  sendCtl n (flitAck (portOf s n) hd) (modPort n (fun x => { x with rxSeq := (x.rxSeq + 1) % 4096 }) s)

/-- What a data flit in order brings about beside its acknowledgement is no part of what a port has received, and of the fabric alone. -/
theorem dataFlit_acked : inwardOf (dataFlit n hd payload s) = inwardOf (flitAcked n hd s) ∧
    SendsOnly (flitAcked n hd s) (dataFlit n hd payload s) := by
  have hd' : dataFlit n hd payload s =
      if !portCarries (portOf s n) (bitsOf hd 35 34) then flitAcked n hd s
      else match (if hd.testBit 38 then some [] else mget s.fab.partialRx (16 * n + 4 * bitsOf hd 35 34 + bitsOf hd 37 36)) with
        | none => flitAcked n hd s
        | some got =>
          if hd.testBit 39 then packetArrived (bitsOf hd 37 36) (packetOf n (got ++ payload)) (modFab (fun f => { f with
            partialRx := merase f.partialRx (16 * n + 4 * bitsOf hd 35 34 + bitsOf hd 37 36) }) (flitAcked n hd s))
          else modFab (fun f => { f with
            partialRx := mset f.partialRx (16 * n + 4 * bitsOf hd 35 34 + bitsOf hd 37 36) (got ++ payload) }) (flitAcked n hd s) :=
    rfl
  rw [hd']
  split
  · exact ⟨rfl, .refl _⟩
  · split
    · exact ⟨rfl, .refl _⟩
    · split
      · exact ⟨packetArrived_inward _ _ _, (modFab_sendsOnly _ _).trans (packetArrived_sendsOnly _ _ _)⟩
      · exact ⟨rfl, modFab_sendsOnly _ _⟩

theorem dataFlit_sendsOnly : SendsOnly s (dataFlit n hd payload s) :=
  ((modPort_sendsOnly s n _).trans (sendCtl_sendsOnly _ _ _)).trans (dataFlit_acked n hd payload s).2

/-- The port after a data flit in order: the next number is awaited and the acknowledgement has gone out. -/
theorem dataFlit_port : (portOf (dataFlit n hd payload s) n).inward =
    ((portOf s n).flitTaken hd).inward := by
  have h := congrFun (dataFlit_acked n hd payload s).1 n
  refine h.trans ?_
  unfold inwardOf flitAcked
  rw [sendCtl_port, Port.inward_eq (pushCtl_offLine ..), portOf_modPort_same]
  rfl

end

/-! ### A whole flit (16 R593 to R600) -/

section
variable (n hd gen : Nat) (payload : Bytes) (s : State)

theorem goodFlit_sendsOnly : SendsOnly s (goodFlit n hd gen payload s) := by
  unfold goodFlit
  dsimp only
  have hkey : SendsOnly s (modPort n (fun x => { x with rxGen := gen, rxKey := rxKeyAt (portOf s n) gen }) s) := modPort_sendsOnly s n _
  split
  · exact hkey.trans (discardFlit_sendsOnly _ _ _)
  · refine (hkey.trans (takeAcks_sendsOnly _ n hd)).trans (.trans ?_ (pumpPort_sendsOnly _ n))
    split
    · exact dataFlit_sendsOnly _ _ _ _
    · exact resendFrom_sendsOnly _ _ _
    · exact linkControl_sendsOnly _ _
    · exact .refl _

theorem takeAcks_inward : inwardOf (takeAcks n hd s) = inwardOf s := by
  funext j
  unfold inwardOf takeAcks
  by_cases h : j = n
  · subst h
    rw [portOf_modPort_same]
    rfl
  · rw [portOf_modPort_other _ _ h]

/-- A data flit in order, in a LOCAL port: the port's next number and its acknowledgement. -/
theorem goodFlit_inOrder (hkind : bitsOf hd 33 32 = 0) (hseq : hd % 4096 = (portOf s n).rxSeq)
    (hgen : gen = (portOf s n).rxGen) :
    (portOf (goodFlit n hd gen payload s) n).inward = ((portOf s n).flitTaken hd).inward := by
  set t := takeAcks n hd (modPort n (fun x => { x with rxGen := gen, rxKey := rxKeyAt (portOf s n) gen }) s)
  have hg : goodFlit n hd gen payload s = pumpPort n (dataFlit n hd payload t) := by
    unfold goodFlit
    dsimp only
    rw [if_neg (by simp [hkind, hseq])]
    simp only [hkind]
    rfl
  have hsame : (portOf t n).inward = (portOf s n).inward := by
    refine (congrFun (takeAcks_inward n hd _) n).trans ?_
    unfold inwardOf
    rw [portOf_modPort_same]
    simp [hgen, rxKeyAt]
  rw [hg]
  exact (congrFun (pumpPort_inward _ n) n).trans ((dataFlit_port n hd payload t).trans (Port.flitTaken_inward hd hsame))

end

theorem padTo_of_length {b : Bytes} {k : Nat} (h : b.length = k) : padTo b k = b := by simp [padTo, zeros, h]

section
variable {n corr uncorr : Nat} {b : Bytes} {s : State}

theorem exec_flitReceive_flit (hl : (portOf s n).state = .local) :
    exec (.flitReceive n (.flit b corr uncorr)) s = .next (takeFlit n b (countWords n corr uncorr s)) :=
  congrArg Host.Outcome.next (if_pos (.inl hl))

/-- A flit that arrives in a LOCAL port: its CRC decides whether it is good. -/
theorem takeFlit_local (hl : (portOf s n).state = .local) (hb : b.length = 256) : takeFlit n b s =
    if (crc64 (b.take 248)).toNat ≠ rd b 248 8 then discardFlit n (bitsOf (rd b 0 8) 33 32) (evCount 10 2 1 s)
    else goodFlit n (rd b 0 8) (portOf s n).rxGen ((b.drop 8).take 224) (evCount 10 2 1 s) := by
  unfold takeFlit
  simp only [padTo_of_length hb, hl, ne_eq, not_true_eq_false, false_and, if_false, reduceCtorEq]

end

/-! ### Codewords of the short-reach FEC (16 R590, R592) -/

/-- What a port has of codewords: the blocks that complete no flit yet, and the codewords corrected and not corrected. -/
def Port.coding (p : Port) : List Bytes × Nat × Nat := (p.rxBlocks, p.fecCorr, p.fecUncorr)

theorem Port.coding_eq {p q : Port} (h : p.inward = q.inward) : p.coding = q.coding := Port.eq_of_inward Port.coding (fun _ => rfl) h

theorem pushCtl_coding (n : Nat) (c : CtlFlit) (p : Port) : (pushCtl n c p).coding = p.coding :=
  (Port.coding_eq (Port.inward_eq (pushCtl_offLine n c p))).trans rfl

section
variable (n : Nat) (s : State)

theorem modPort_coding {f : Port → Port} (h : ∀ p, (f p).coding = p.coding) :
    (portOf (modPort n f s) n).coding = (portOf s n).coding := by rw [portOf_modPort_same, h]

theorem discardFlit_coding (kind : Nat) : (portOf (discardFlit n kind s) n).coding = (portOf s n).coding := by
  unfold discardFlit
  split
  · rw [sendCtl_port, pushCtl_coding, portOf_evCount]
    exact modPort_coding n s fun _ => rfl
  · rfl

theorem foldl_pushData_offLine (l : List (Nat × Flit)) (p : Port) : (l.foldl (pushData n) p).offLine = p.offLine := by
  induction l generalizing p with
  | nil => rfl
  | cons e l ih => exact (ih _).trans (pushFlit_offLine ..)

theorem resendFrom_port (q : Nat) : portOf (resendFrom n q s) n =
    ((portOf s n).replay.dropWhile fun e => e.1 ≠ q).foldl (pushData n) { portOf s n with
      resent := (portOf s n).resent ++ ((portOf s n).replay.dropWhile fun e => e.1 ≠ q).map Prod.fst } := by
  unfold resendFrom
  dsimp only
  rw [portOf_evCount, portOf_modPort_same]

theorem goodFlit_coding (hd gen : Nat) (payload : Bytes) :
    (portOf (goodFlit n hd gen payload s) n).coding = (portOf s n).coding := by
  unfold goodFlit
  dsimp only
  have hkey := modPort_coding n s (f := fun x => { x with rxGen := gen, rxKey := rxKeyAt (portOf s n) gen }) fun _ => rfl
  split
  · exact (discardFlit_coding n _ 0).trans hkey
  · refine (Port.coding_eq (congrFun (pumpPort_inward _ n) n)).trans
      (Eq.trans ?_ ((Port.coding_eq (congrFun (takeAcks_inward n hd _) n)).trans hkey))
    split
    · exact (Port.coding_eq (dataFlit_port n hd payload _)).trans rfl
    · rw [resendFrom_port, Port.eq_of_offLine Port.coding (fun _ => rfl) (foldl_pushData_offLine n _ _)]
      rfl
    · unfold linkControl
      split
      · exact modPort_coding n _ fun _ => rfl
      · rw [sendCtl_port, pushCtl_coding]
    · rfl

/-- A flit that a LOCAL port takes is no part of its coding sublayer. -/
theorem takeFlit_coding {b : Bytes} (hl : (portOf s n).state = .local) :
    (portOf (takeFlit n b s) n).coding = (portOf s n).coding ∧ SendsOnly s (takeFlit n b s) := by
  unfold takeFlit
  simp only [hl, ne_eq, not_true_eq_false, false_and, if_false, reduceCtorEq]
  split
  · exact ⟨(discardFlit_coding n _ _).trans (by simp), (evCount_sendsOnly s _ _ _).trans (discardFlit_sendsOnly _ _ _)⟩
  · exact ⟨(goodFlit_coding n _ _ _ _).trans (by simp), (evCount_sendsOnly s _ _ _).trans (goodFlit_sendsOnly _ _ _ _ _)⟩

end

theorem symbolBlocks_length (d : List Nat) : (symbolBlocks d).length = 10 := by simp [symbolBlocks]

/-- The ten blocks of a codeword complete one flit, and two of them wait. -/
theorem wholeFlits_codeword (d : List Nat) : wholeFlits 2 (symbolBlocks d) =
    ([((symbolBlocks d).take 8).flatten], (symbolBlocks d).drop 8) := by
  have h := symbolBlocks_length d
  simp [wholeFlits, h]

theorem takeWord_decoded {n : Nat} {lanes : List (List Nat)} {d : List Nat} {c : Bool} {s : State} (hl : (portOf s n).state = .local)
    (hs : (portOf s n).shortFec = true) (hb : (portOf s n).rxBlocks = []) (hd : linkDecode (laneWord lanes) = some (d, c)) :
    takeWord n s lanes = takeFlit n ((symbolBlocks d).take 8).flatten
      (countWords n (b2n c) 0 (modPort n (fun x => { x with rxBlocks := (symbolBlocks d).drop 8 }) s)) := by
  have hnone : b2n (some (d, c)).isNone = 0 := rfl
  unfold takeWord
  simp only [hl, hs, hb, hd, List.nil_append, Option.map_some, Option.getD_some, wholeFlits_codeword, hnone, foldS_cons, foldS_nil,
    Bool.not_true, bne_self_eq_false, Bool.false_and, Bool.false_or, Bool.false_eq_true, if_false]

/-- No codeword is taken by a port that is neither LOCAL nor SECURE. -/
theorem takeWord_down {n : Nat} {s : State} (h : (portOf s n).state = .down) (lanes : List (List Nat)) : takeWord n s lanes = s := by
  unfold takeWord
  simp [h]

theorem foldl_takeWord_down {n : Nat} {s : State} (h : (portOf s n).state = .down) (ws : List (List (List Nat))) :
    ws.foldl (takeWord n) s = s := by
  induction ws with
  | nil => rfl
  | cons w ws ih => rw [List.foldl_cons, takeWord_down h, ih]

/-! ### Retries and key updates (16 R597, R599) -/

theorem foldl_pushData_flits (n : Nat) (l : List (Nat × Flit)) (p : Port) :
    (l.foldl (pushData n) p).flits.length = p.flits.length + l.length := by
  induction l generalizing p with
  | nil => rfl
  | cons e l ih =>
    rw [List.foldl_cons, ih, pushData, (pushFlit_counts ..).1, List.length_cons]
    omega

theorem portOf_resendFrom_other {n j : Nat} (q : Nat) (s : State) (h : j ≠ n) : portOf (resendFrom n q s) j = portOf s j := by
  unfold resendFrom
  dsimp only
  rw [portOf_evCount, portOf_modPort_other _ _ h]

/-- What resending leaves of a port, and what it adds. -/
theorem resendFrom_effect (n q : Nat) (s : State) {l : List Nat} (hl : l = ((portOf s n).replay.map Prod.fst).dropWhile (· ≠ q)) :
    (portOf (resendFrom n q s) n).offLine = { portOf s n with resent := (portOf s n).resent ++ l }.offLine ∧
    (portOf (resendFrom n q s) n).flits.length = (portOf s n).flits.length + l.length := by
  have hl' : l = ((portOf s n).replay.dropWhile fun e => e.1 ≠ q).map Prod.fst := by rw [hl, List.dropWhile_map]; rfl
  subst hl'
  rw [resendFrom_port, foldl_pushData_offLine, foldl_pushData_flits, List.length_map]
  exact ⟨rfl, rfl⟩

theorem pushCtl_counts (n : Nat) (c : CtlFlit) (p : Port) : (pushCtl n c p).ivCount = p.ivCount + b2n (p.state == .secure) :=
  (pushFlit_counts ..).2

/-! ### Training, sessions and the loss of a link (16 R591, R596, R601) -/

section
variable {n : Nat} {s : State}

/-- A port in which both ends use the same FEC starts anew. -/
def Port.trained (fec : Nat) (x : Port) : Port :=
  { x with
    state := .local, lanes := 15, shortFec := decide (fec = 2), credits := [], rxSeq := 0, txSeq := 0, replay := []
    flits := [], txBlocks := [], words := [], rxBlocks := [] }

theorem exec_portTrained {fec : Nat} {short : Bool} (hst : (portOf s n).state = .down ∨ (portOf s n).state = .training) (hn : n < 32)
    (hheld : portsHeld s = false) (heng : engineServes s n = true) :
    exec (.portTrained n fec short) s = .next (if portFec (portOf s n) short ≠ fec
      then modPort n (fun x => { x with state := .training, lanes := 15 }) s
      else pumpPort n (modPort n (Port.trained (portFec (portOf s n) short)) s)) := by
  change execPortTrained n fec short s = _
  unfold execPortTrained
  dsimp only
  rw [if_neg (by rcases hst with h | h <;> simp [h]), if_neg (by simp [hn, hheld, heng])]
  rfl

theorem exec_portTrained_held {fec : Nat} {short : Bool} (h : portsHeld s = true ∨ engineServes s n = false) :
    exec (.portTrained n fec short) s = .next s := by
  change execPortTrained n fec short s = _
  unfold execPortTrained
  dsimp only
  split
  · rfl
  · rw [if_pos (by rcases h with h | h <;> simp [h])]

theorem pumped_port_other {j : Nat} (f : Port → Port) (h : j ≠ n) : portOf (pumpPort n (modPort n f s)) j = portOf s j := by
  rw [pumpPort_port_other _ h, portOf_modPort_other _ _ h]

theorem pumped_port_inward (f : Port → Port) : (portOf (pumpPort n (modPort n f s)) n).inward = (f (portOf s n)).inward := by
  refine (congrFun (pumpPort_inward _ n) n).trans ?_
  unfold inwardOf
  rw [portOf_modPort_same]

theorem pumped_sendsOnly (f : Port → Port) : SendsOnly s (pumpPort n (modPort n f s)) :=
  (modPort_sendsOnly s n f).trans (pumpPort_sendsOnly _ n)

theorem exec_linkSession {peer : Nat} (hl : (portOf s n).state = .local) (ha : s.fab.state = .admitted) :
    exec (.linkSession n peer true) s =
      .next (pumpPort n (modPort n (fun x => { sessionKeys n s.fab.id peer x with state := .secure }) s)) :=
  congrArg Host.Outcome.next (if_pos ⟨hl, ha, rfl⟩)

theorem takeDown_port (code : Nat) : (portOf (takeDown n code s) n).state = .down ∧ (portOf (takeDown n code s) n).replay = [] ∧
    (portOf (takeDown n code s) n).lanes = 0 := by simp [takeDown, portOf]

theorem takeDown_port_other {j : Nat} (code : Nat) (h : j ≠ n) : portOf (takeDown n code s) j = portOf s j := by
  simp [takeDown, portOf, mgetD_mmod_other _ _ _ _ _ _ h]

theorem takeDown_lastSeq (code : Nat) : s.mgmt.lastSeq < (takeDown n code s).mgmt.lastSeq := by
  unfold takeDown
  exact lastSeq_lt_recordEvent s (by simp) ..

end

/-! ### The events of a link -/

theorem flitReceive_inOrder :
    ∀ (port corr uncorr : Nat) (b : Bytes) (s : State), (portOf s port).state = .local → b.length = 256 →
    (crc64 (b.take 248)).toNat = rd b 248 8 → bitsOf (rd b 0 8) 33 32 = 0 → rd b 0 8 % 4096 = (portOf s port).rxSeq →
    ∃ u, exec (.flitReceive port (.flit b corr uncorr)) s = .next u ∧ (portOf u port).rxSeq = ((portOf s port).rxSeq + 1) % 4096 ∧
    ⟨1, (portOf s port).rxSeq, 4 * bitsOf (rd b 0 8) 35 34 + bitsOf (rd b 0 8) 37 36, 1⟩ ∈ (portOf u port).ctl ∧ (portOf u port).state = .local ∧
    (portOf u port).fecCorr = (portOf s port).fecCorr + corr ∧ (portOf u port).fecUncorr = (portOf s port).fecUncorr + uncorr ∧
    FabOnly s u := by
  intro n corr uncorr b s hl hb hcrc hkind hseq
  have hp := countWords_port s n corr uncorr
  have hsends := countWords_sendsOnly s n corr uncorr
  have hexec := exec_flitReceive_flit (corr := corr) (uncorr := uncorr) (b := b) hl
  generalize countWords n corr uncorr s = t at hp hsends hexec
  have hlocal : (portOf t n).state = .local := by rw [hp, hl]
  rw [takeFlit_local hlocal hb, if_neg (not_not.mpr hcrc)] at hexec
  have hgood := goodFlit_inOrder n (rd b 0 8) (portOf t n).rxGen ((b.drop 8).take 224) (evCount 10 2 1 t) hkind
    (by rw [portOf_evCount, hp, hseq]) (by rw [portOf_evCount])
  have hsent := goodFlit_sendsOnly n (rd b 0 8) (portOf t n).rxGen ((b.drop 8).take 224) (evCount 10 2 1 t)
  rw [portOf_evCount] at hgood
  generalize goodFlit n (rd b 0 8) (portOf t n).rxGen ((b.drop 8).take 224) (evCount 10 2 1 t) = u at hexec hgood hsent
  refine ⟨u, hexec, ?_, ?_, ?_, ?_, ?_, ((hsends.trans (evCount_sendsOnly _ 10 2 1)).trans hsent).only⟩
  · rw [Port.eq_of_inward Port.rxSeq (fun _ => rfl) hgood, hp, Port.flitTaken]
  · rw [Port.eq_of_inward Port.ctl (fun _ => rfl) hgood, hp, Port.flitTaken]
    exact List.mem_cons_self ..
  · rw [Port.eq_of_inward Port.state (fun _ => rfl) hgood, Port.flitTaken, hlocal]
  · rw [Port.eq_of_inward Port.fecCorr (fun _ => rfl) hgood, hp, Port.flitTaken]
  · rw [Port.eq_of_inward Port.fecUncorr (fun _ => rfl) hgood, hp, Port.flitTaken]

theorem flitReceive_badCrc :
    ∀ (port corr uncorr : Nat) (b : Bytes) (s : State), (portOf s port).state = .local → b.length = 256 →
    (crc64 (b.take 248)).toNat ≠ rd b 248 8 → bitsOf (rd b 0 8) 33 32 = 0 →
    ∃ u, exec (.flitReceive port (.flit b corr uncorr)) s = .next u ∧ portOf u port = pushCtl port ⟨2, (portOf s port).rxSeq, 0, 0⟩ { portOf s port with
    linkRetry := (portOf s port).linkRetry + 1, fecCorr := (portOf s port).fecCorr + corr
    fecUncorr := (portOf s port).fecUncorr + uncorr } ∧
    (∀ q, q ≠ port → portOf u q = portOf s q) ∧ FabOnly s u := by
  intro n corr uncorr b s hl hb hcrc hkind
  have hlocal : (portOf (countWords n corr uncorr s) n).state = .local := by rw [countWords_port]; exact hl
  refine ⟨_, (exec_flitReceive_flit hl).trans (congrArg _ ((takeFlit_local hlocal hb).trans (if_pos hcrc))), ?_, fun q hq => ?_, ?_⟩
  · rw [hkind, discardFlit_data]
    simp only [sendCtl_port, portOf_evCount, portOf_modPort_same, countWords_port]
  · rw [hkind, discardFlit_data, sendCtl_port_other _ _ hq, portOf_evCount, portOf_modPort_other _ _ hq, portOf_evCount,
      countWords_port_other _ _ _ hq]
  · exact (((countWords_sendsOnly s n corr uncorr).trans (evCount_sendsOnly _ 10 2 1)).trans (discardFlit_sendsOnly ..)).only

theorem flitReceive_codeword :
    ∀ (port : Nat) (lanes : List (List Nat)) (d : List Nat) (c : Bool) (s : State), (portOf s port).state = .local →
    (portOf s port).shortFec = true → (portOf s port).rxBlocks = [] → linkDecode (laneWord lanes) = some (d, c) →
    ∃ u, exec (.flitReceive port (.words [lanes])) s = .next u ∧ (portOf u port).rxBlocks = (symbolBlocks d).drop 8 ∧
    (portOf u port).fecCorr = (portOf s port).fecCorr + b2n c ∧ (portOf u port).fecUncorr = (portOf s port).fecUncorr ∧ FabOnly s u := by
  intro n lanes d c s hl hs hb hd
  set t := countWords n (b2n c) 0 (modPort n (fun x => { x with rxBlocks := (symbolBlocks d).drop 8 }) s)
  have hp : portOf t n = { portOf s n with rxBlocks := (symbolBlocks d).drop 8, fecCorr := (portOf s n).fecCorr + b2n c } := by
    rw [countWords_port, portOf_modPort_same]
    rfl
  obtain ⟨hcoding, hsends⟩ := takeFlit_coding n t (b := ((symbolBlocks d).take 8).flatten) (by rw [hp]; exact hl)
  rw [hp] at hcoding
  refine ⟨_, congrArg Host.Outcome.next (takeWord_decoded hl hs hb hd), congrArg Prod.fst hcoding,
    congrArg (fun x => x.2.1) hcoding, congrArg (fun x => x.2.2) hcoding, ?_⟩
  exact (((modPort_sendsOnly s n _).trans (countWords_sendsOnly _ n _ _)).trans hsends).only

theorem flitReceive_down :
    ∀ (port : Nat) (x : LineIn) (s : State), (portOf s port).state = .down → exec (.flitReceive port x) s = .next s := by
  intro n x s h
  cases x with
  | flit b corr uncorr => exact congrArg Host.Outcome.next (if_neg (by simp [h]))
  | words ws => exact congrArg Host.Outcome.next (foldl_takeWord_down h ws)

theorem retryRequest_resends :
    ∀ (port q : Nat) (l : List Nat) (s : State), (portOf s port).state = .local →
    l = ((portOf s port).replay.map Prod.fst).dropWhile (· ≠ q % 4096) →
    ∃ u, exec (.retryRequest port q) s = .next u ∧ (portOf u port).resent = (portOf s port).resent ++ l ∧
    (portOf u port).flits.length = (portOf s port).flits.length + l.length ∧ (portOf u port).replay = (portOf s port).replay ∧
    (portOf u port).credits = (portOf s port).credits ∧ (portOf u port).state = .local ∧ (portOf u port).rxSeq = (portOf s port).rxSeq ∧
    (∀ j, j ≠ port → portOf u j = portOf s j) ∧ FabOnly s u := by
  intro n q l s hl hlist
  obtain ⟨hoff, hlen⟩ := resendFrom_effect n (q % 4096) s hlist
  refine ⟨_, congrArg Host.Outcome.next (if_pos (.inl hl)), ?_, hlen, ?_, ?_, ?_, ?_, fun j hj => portOf_resendFrom_other _ s hj,
    (resendFrom_sendsOnly s n _).only⟩
  · exact (Port.eq_of_offLine Port.resent (fun _ => rfl) hoff).trans rfl
  · exact (Port.eq_of_offLine Port.replay (fun _ => rfl) hoff).trans rfl
  · exact (Port.eq_of_offLine Port.credits (fun _ => rfl) hoff).trans rfl
  · exact (Port.eq_of_offLine Port.state (fun _ => rfl) hoff).trans hl
  · exact (Port.eq_of_offLine Port.rxSeq (fun _ => rfl) hoff).trans rfl

theorem linkKeyUpdate_starts :
    ∀ (port : Nat) (s : State), (portOf s port).state = .secure → (portOf s port).keyUpdate = false →
    ∃ u, exec (.linkKeyUpdate port) s = .next u ∧ portOf u port = pushCtl port ⟨3, 0, 0, 0⟩ { portOf s port with keyUpdate := true } ∧
    (portOf u port).ivCount = (portOf s port).ivCount + 1 ∧ (portOf u port).txKey = (portOf s port).txKey ∧
    (∀ j, j ≠ port → portOf u j = portOf s j) ∧ FabOnly s u := by
  intro n s hsec hupd
  have hport := sendCtl_port (modPort n (fun x => { x with keyUpdate := true }) s) n ⟨3, 0, 0, 0⟩
  rw [portOf_modPort_same] at hport
  refine ⟨_, congrArg Host.Outcome.next (if_pos ⟨hsec, by simp [hupd]⟩), hport, ?_, ?_, fun j hj => ?_, ?_⟩
  · rw [hport, pushCtl_counts]
    simp [hsec, b2n]
  · rw [hport]
    exact (Port.eq_of_offLine Port.txKey (fun _ => rfl) (pushCtl_offLine ..)).trans rfl
  · rw [sendCtl_port_other _ _ hj, portOf_modPort_other _ _ hj]
  · exact ((modPort_sendsOnly s n _).trans (sendCtl_sendsOnly _ n _)).only

theorem portTrained_trains :
    ∀ (port fec : Nat) (short : Bool) (s : State), ((portOf s port).state = .down ∨ (portOf s port).state = .training) → port < 32 →
    portsHeld s = false → engineServes s port = true →
    ∃ u, exec (.portTrained port fec short) s = .next u ∧
    (portOf u port).state = (if portFec (portOf s port) short = fec then .local else .training) ∧ (portOf u port).lanes = 15 ∧
    (portFec (portOf s port) short = fec → (portOf u port).rxSeq = 0 ∧ (portOf u port).shortFec = decide (fec = 2)) ∧
    (∀ j, j ≠ port → portOf u j = portOf s j) ∧ FabOnly s u := by
  intro n fec short s hst hn hheld heng
  refine ⟨_, exec_portTrained hst hn hheld heng, ?_⟩
  by_cases hf : portFec (portOf s n) short = fec
  · rw [if_neg (not_not.mpr hf), if_pos hf]
    have hin := pumped_port_inward (s := s) (n := n) (Port.trained (portFec (portOf s n) short))
    refine ⟨(Port.eq_of_inward Port.state (fun _ => rfl) hin).trans rfl, (Port.eq_of_inward Port.lanes (fun _ => rfl) hin).trans rfl,
      fun _ => ⟨(Port.eq_of_inward Port.rxSeq (fun _ => rfl) hin).trans rfl, ?_⟩, fun j hj => pumped_port_other _ hj,
      (pumped_sendsOnly _).only⟩
    rw [Port.eq_of_inward Port.shortFec (fun _ => rfl) hin, ← hf]
    rfl
  · rw [if_pos hf, if_neg hf, portOf_modPort_same]
    exact ⟨rfl, rfl, fun h => absurd h hf, fun j hj => portOf_modPort_other _ _ hj, (modPort_sendsOnly s n _).only⟩

theorem linkSession_secures :
    ∀ (port peer : Nat) (s : State), (portOf s port).state = .local → s.fab.state = .admitted →
    ∃ u, exec (.linkSession port peer true) s = .next u ∧ (portOf u port).state = .secure ∧ (portOf u port).rxGen = 0 ∧ (portOf u port).txGen = 0 ∧
    (portOf u port).txKey = (sessionKeys port s.fab.id peer (portOf s port)).txKey ∧
    (portOf u port).rxKey = (sessionKeys port s.fab.id peer (portOf s port)).rxKey ∧
    (∀ j, j ≠ port → portOf u j = portOf s j) ∧ FabOnly s u := by
  intro n peer s hl ha
  have hin := pumped_port_inward (s := s) (n := n) fun x => { sessionKeys n s.fab.id peer x with state := .secure }
  exact ⟨_, exec_linkSession hl ha, (Port.eq_of_inward Port.state (fun _ => rfl) hin).trans rfl,
    (Port.eq_of_inward Port.rxGen (fun _ => rfl) hin).trans rfl, (Port.eq_of_inward Port.txGen (fun _ => rfl) hin).trans rfl,
    (Port.eq_of_inward Port.txKey (fun _ => rfl) hin).trans rfl, (Port.eq_of_inward Port.rxKey (fun _ => rfl) hin).trans rfl,
    fun j hj => pumped_port_other _ hj, (pumped_sendsOnly _).only⟩

theorem linkSession_ignored :
    ∀ (port peer : Nat) (ok : Bool) (s : State), (s.fab.state ≠ .admitted ∨ ok = false) → exec (.linkSession port peer ok) s = .next s := by
  intro n peer ok s h
  refine congrArg Host.Outcome.next (if_neg ?_)
  rintro ⟨-, ha, hok⟩
  rcases h with h | h
  · exact h ha
  · simp [h] at hok

theorem portDown_takesDown :
    ∀ (port : Nat) (s : State), (portOf s port).state ≠ .down →
    ∃ u, exec (.portDown port) s = .next u ∧ (portOf u port).state = .down ∧ (portOf u port).replay = [] ∧ (portOf u port).lanes = 0 ∧
    (∀ j, j ≠ port → portOf u j = portOf s j) ∧ s.mgmt.lastSeq < u.mgmt.lastSeq ∧ u.hif.hostMem = s.hif.hostMem ∧ u.sched = s.sched := by
  intro n s h
  obtain ⟨hdown, hreplay, hlanes⟩ := takeDown_port (n := n) (s := s) 2
  exact ⟨_, congrArg Host.Outcome.next (if_neg h), hdown, hreplay, hlanes, fun j hj => takeDown_port_other 2 hj, takeDown_lastSeq 2,
    by simp [takeDown], by simp [takeDown]⟩

/-- Settles O37: each event of a link by its lemma. -/
theorem linkFlitsAndPorts : Obligations.link_flits_and_ports :=
  ⟨flitReceive_inOrder, flitReceive_badCrc, flitReceive_codeword, flitReceive_down, retryRequest_resends, linkKeyUpdate_starts, portTrained_trains, fun _ _ _ _ h => exec_portTrained_held h, linkSession_secures, linkSession_ignored, portDown_takesDown⟩

end Sys2Proof.Machine
end

section
/-! PROOFS. What the end of a request or a run leaves of the fabric unit and of the lent memory, and how a reduction is aborted (10 R347,
R365; 16 R612, R616). -/

-- One declaration after the other: the stacks of the threads that elaborate so long a text at once pass the check's limit.
set_option Elab.async false

namespace Sys2Proof.Machine

/-- The fabric unit apart from its ports and packets, its pairs and the pins it has at other modules: its place in the fabric, its
routes and sets, its reductions and the peers it has lost. -/
def Fabric.body (f : Fabric) : Fabric := { f.standing with pairs := [], remotePins := [] }

theorem Fabric.body_eq {a b : Fabric} (h : a.standing = b.standing) : a.body = b.body := by rw [body, h, body]

theorem Fabric.eq_of_body {β : Type} (g : Fabric → β) (hg : ∀ f, g f.body = g f) {a b : Fabric} (h : a.body = b.body) :
    g a = g b := by rw [← hg a, h, hg]

/-- The fabric unit and the leases that are lent. -/
def fabLent (s : State) : Fabric × Map Lease := (s.fab, s.mem.lent)

section
variable (s : State)

theorem charge_fabLent (e : Nat) (c : Counters) : fabLent (charge e c s) = fabLent s := by
  obtain ⟨l, a, h⟩ := charge_only e c s
  rw [h]
  rfl

theorem chargeHeld_fabLent (e : Nat) (x : RtEntry) : fabLent (chargeHeld e x s) = fabLent s := by
  unfold chargeHeld
  split
  · exact charge_fabLent s e _
  · rfl

theorem chargeUnit_fabLent (u : SUnit) (q : Nat) (mk : Nat → Counters) : fabLent (chargeUnit u q mk s) = fabLent s := by
  obtain ⟨g, d, h⟩ := chargeUnit_only u q mk s
  rw [h]
  rfl

theorem settleReads_fabLent (r : StepRec) : fabLent (settleReads r s) = fabLent s := by
  unfold settleReads
  split
  · refine foldS_keeps fabLent _ _ _ fun t _ => ?_
    dsimp only
    split
    · exact charge_fabLent t _ _
    · exact charge_fabLent t _ _
    · exact chargeUnit_fabLent t _ _ _
  · rfl

theorem endUnit_fabLent (n : Nat) : fabLent (endUnit n s) = fabLent s := by
  obtain ⟨l, b, -, h⟩ := endUnit_only n s
  rw [h]
  rfl

theorem endUnitsOf_fabLent (e : Nat) : fabLent (endUnitsOf e s) = fabLent s := by
  refine foldS_keeps fabLent _ _ s fun t u => ?_
  rw [endUnit_fabLent]
  split
  · exact foldS_keeps fabLent _ _ t fun v m => charge_fabLent v _ _
  · rfl

theorem killEntry_fabLent (e : Nat) : fabLent (killEntry e s) = fabLent s := by
  unfold killEntry
  split <;> rfl

theorem completeEntry_fabLent (e result : Nat) : fabLent (completeEntry e result s) = fabLent s := by
  unfold completeEntry
  split
  · rfl
  · dsimp only
    split
    · rfl
    · split <;> simp [fabLent, modWork]

theorem finishCanceller_fabLent (e : Nat) : fabLent (finishCanceller e s) = fabLent s :=
  foldS_keeps fabLent _ _ _ fun t _ => by simp [fabLent]

theorem returnPages_fabLent (n : Nat) (ps : List Nat) : fabLent (returnPages n ps s) = fabLent s := by
  obtain ⟨l, h⟩ := returnPages_only s n ps
  rw [h]
  rfl

theorem dropBaton_fabLent (k : Nat) : fabLent (dropBaton k s) = fabLent s := by
  obtain ⟨m, i, l, -, h⟩ := dropBaton_only k s
  rw [h]
  rfl

theorem returnEntry_fabLent (e : Nat) : fabLent (returnEntry e s) = fabLent s := by
  unfold returnEntry
  split
  · rfl
  · split
    · rfl
    · dsimp only
      split
      · rw [dropBaton_fabLent]
        exact (returnPages_fabLent _ _ _).trans (returnPages_fabLent _ _ _)
      · exact (returnPages_fabLent _ _ _).trans (returnPages_fabLent _ _ _)

theorem openEnd_fabLent (e status detail stage : Nat) (x : RtEntry) : fabLent (openEnd e status detail stage x s) = fabLent s := by
  have hcount (n : Nat) (f : Gen → Gen) (t : State) : fabLent (evCount 3 2 n (modGen f t)) = fabLent t := by simp [fabLent]
  rw [openEnd, hcount, charge_fabLent, chargeHeld_fabLent]
  rfl

end

/-! ### Ends of requests (10 R347; 16 R614) -/

/-- Requests may have ended: the body of the fabric unit and the lent memory are as they were, and no pin at another module is new. -/
structure PeersKept (s u : State) : Prop where
  body : u.fab.body = s.fab.body
  lent : u.mem.lent = s.mem.lent
  pins : ∀ x ∈ u.fab.remotePins, x ∈ s.fab.remotePins

section
variable {s t u : State}

theorem PeersKept.of_fabLent (h : fabLent t = fabLent s) : PeersKept s t := by
  obtain ⟨hfab, hlent⟩ := Prod.mk.inj h
  exact ⟨by rw [hfab], hlent, by rw [hfab]; exact fun _ h => h⟩

theorem PeersKept.refl (s : State) : PeersKept s s := .of_fabLent rfl

theorem PeersKept.trans (h : PeersKept s t) (k : PeersKept t u) : PeersKept s u :=
  ⟨k.body.trans h.body, k.lent.trans h.lent, fun x hx => h.pins x (k.pins x hx)⟩

theorem PeersKept.foldS {α : Type} {l : List α} {f : State → α → State} (s : State) (h : ∀ t x, PeersKept t (f t x)) :
    PeersKept s (foldS l f s) := foldS_inv (PeersKept s) l f s (fun t x ht => ht.trans (h t x)) (.refl s)

theorem Transports.peersKept (h : Transports s t) : PeersKept s t where
  body := Fabric.body_eq h.standing
  lent := by
    have hkept : t = { s with fab := t.fab, hif := t.hif, regs := t.regs } := h.sends.only
    rw [hkept]
  pins x hx := Fabric.eq_of_standing Fabric.remotePins (fun _ => rfl) h.standing ▸ hx

end

section
variable (s : State)

theorem sendReqFor_peersKept (p : Packet) (who : Option Nat) (ctx : Option (Nat × Nat × Nat)) :
    PeersKept s (sendReqFor p who ctx s) :=
  PeersKept.trans (t := modPair p.dst _ s) ⟨rfl, rfl, fun _ h => h⟩ (sendAll_transports _ _).peersKept

theorem sendReq_peersKept (p : Packet) (who : Option Nat) : PeersKept s (sendReq p who s) := sendReqFor_peersKept s p who none

theorem sendUnpins_peersKept (e : Nat) : PeersKept s (sendUnpins e s) := by
  unfold sendUnpins
  split
  · exact .refl s
  · refine .foldS s fun t p => ?_
    split
    · exact (sendReq_peersKept t _ _).trans ⟨rfl, rfl, fun x hx => List.mem_of_mem_erase hx⟩
    · exact .refl t

theorem closeEnd_peersKept (e result : Nat) (x : RtEntry) : PeersKept s (closeEnd e result x s) := by
  have hanswered : PeersKept s (finishCanceller e (sendUnpins e (completeEntry e result (killEntry e s)))) :=
    ((PeersKept.of_fabLent ((completeEntry_fabLent _ e result).trans (killEntry_fabLent s e))).trans (sendUnpins_peersKept _ e)).trans
      (.of_fabLent (finishCanceller_fabLent _ e))
  unfold closeEnd
  dsimp only
  split
  · exact hanswered
  · exact hanswered.trans (.of_fabLent (returnEntry_fabLent _ e))

theorem endEntry_peersKept (e status detail stage result : Nat) : PeersKept s (endEntry e status detail stage result s) := by
  cases hx : mget s.gen.entries e with
  | none => simpa [endEntry, entryOf, hx] using PeersKept.refl s
  | some x =>
    by_cases hs : x.state = .drain
    · simpa [endEntry, entryOf, hx, hs] using PeersKept.refl s
    · rw [endEntry_eq status detail stage result hx hs]
      exact (PeersKept.of_fabLent ((endUnitsOf_fabLent _ e).trans (openEnd_fabLent s e status detail stage x))).trans
        (closeEnd_peersKept _ e result x)

theorem endFault_peersKept (e detail stage : Nat) : PeersKept s (endFault e detail stage s) := by
  unfold endFault
  split
  · exact .refl s
  · split <;> exact endEntry_peersKept s _ _ _ _ _

theorem endStepFault_peersKept (k n detail : Nat) (r : StepRec) : PeersKept s (endStepFault k n detail r s) := by
  have hended : PeersKept s (modGen (fun g => { g with steps := merase g.steps k }) (endUnit n (settleReads r s))) :=
    .of_fabLent ((endUnit_fabLent _ n).trans (settleReads_fabLent s r))
  refine hended.trans (.foldS _ fun t m => ?_)
  split
  · next x _ =>
    have hgiven : PeersKept t (modQp x.qp (fun q => { q with stReserved := q.stReserved - stepReserve }) t) := .of_fabLent rfl
    exact hgiven.trans (endFault_peersKept _ _ _ _)
  · exact .refl t

theorem failUnit_peersKept (n detail : Nat) : PeersKept s (failUnit n detail s) := by
  unfold failUnit
  split
  · exact .refl s
  · split
    · exact endFault_peersKept s _ _ _
    · exact endFault_peersKept s _ _ _
    · split
      · exact endStepFault_peersKept s _ _ _ _
      · exact .refl s

/-! ### Reductions aborted (16 R616) -/

/-- The body of the fabric unit apart from its reductions. -/
def Fabric.seat (f : Fabric) : Fabric := { f.body with reductions := [] }

theorem Fabric.seat_eq {a b : Fabric} (h : a.body = b.body) : a.seat = b.seat := by rw [seat, h, seat]

theorem Fabric.eq_of_seat {β : Type} (g : Fabric → β) (hg : ∀ f, g f.seat = g f) {a b : Fabric} (h : a.seat = b.seat) :
    g a = g b := by rw [← hg a, h, hg]

/-- What `PeersKept` says, but that reductions may have ended as well. -/
structure SeatKept (s u : State) : Prop where
  seat : u.fab.seat = s.fab.seat
  lent : u.mem.lent = s.mem.lent
  pins : ∀ x ∈ u.fab.remotePins, x ∈ s.fab.remotePins

variable {s} in
theorem PeersKept.seatKept {u : State} (h : PeersKept s u) : SeatKept s u := ⟨Fabric.seat_eq h.body, h.lent, h.pins⟩

variable {s} in
theorem SeatKept.trans {t u : State} (h : SeatKept s t) (k : SeatKept t u) : SeatKept s u :=
  ⟨k.seat.trans h.seat, k.lent.trans h.lent, fun x hx => h.pins x (k.pins x hx)⟩

theorem SeatKept.refl : SeatKept s s := (PeersKept.refl s).seatKept

theorem SeatKept.foldS {α : Type} {l : List α} {f : State → α → State} (h : ∀ t x, SeatKept t (f t x)) :
    SeatKept s (foldS l f s) := foldS_inv (SeatKept s) l f s (fun t x ht => ht.trans (h t x)) (.refl s)

theorem setReductions_seatKept (m : Map Reduction) : SeatKept s (modFab (fun f => { f with reductions := m }) s) :=
  ⟨rfl, rfl, fun _ h => h⟩

theorem dropReduction_seatKept (k : Nat) : SeatKept s (dropReduction k s) := by
  unfold dropReduction
  split
  · split
    · exact SeatKept.trans (t := modFab (fun f => { f with reductions := merase f.reductions k }) s) ⟨rfl, rfl, fun _ h => h⟩
        (failUnit_peersKept _ _ _).seatKept
    · exact ⟨rfl, rfl, fun _ h => h⟩
  · exact ⟨rfl, rfl, fun _ h => h⟩

theorem abortReduction_seatKept (k : Nat) : SeatKept s (abortReduction k s) :=
  (SeatKept.foldS s fun t _ => (sendPacket_transports t _).peersKept.seatKept).trans (dropReduction_seatKept _ k)

end

end Sys2Proof.Machine
end

section
/-! PROOFS. ASSIGN_VIA, the packets of the anchor, and how a module joins the fabric and leaves it (16 R602 to R605, R621, R627). -/

-- One declaration after the other: the stacks of the threads that elaborate so long a text at once pass the check's limit.
set_option Elab.async false

namespace Sys2Proof.Machine

/-! ### What a packet sent leaves (16 R606) -/

section
variable {s t : State}

theorem Transports.state (h : Transports s t) : t.fab.state = s.fab.state := Fabric.eq_of_standing Fabric.state (fun _ => rfl) h.standing

theorem Transports.id (h : Transports s t) : t.fab.id = s.fab.id := Fabric.eq_of_standing Fabric.id (fun _ => rfl) h.standing

theorem Transports.mgmt (h : Transports s t) : t.mgmt = s.mgmt := by
  have hkept : t = { s with fab := t.fab, hif := t.hif, regs := t.regs } := h.sends.only
  rw [hkept]

theorem Transports.gen (h : Transports s t) : t.gen = s.gen := by
  have hkept : t = { s with fab := t.fab, hif := t.hif, regs := t.regs } := h.sends.only
  rw [hkept]

theorem Transports.obj (h : Transports s t) : t.obj = s.obj := by
  have hkept : t = { s with fab := t.fab, hif := t.hif, regs := t.regs } := h.sends.only
  rw [hkept]

theorem Transports.mem (h : Transports s t) : t.mem = s.mem := by
  have hkept : t = { s with fab := t.fab, hif := t.hif, regs := t.regs } := h.sends.only
  rw [hkept]

theorem mgmtStatus_transports (q : Packet) (st : Nat) : Transports s (mgmtStatus q st s) := sendAll_transports s _

/-- What is sent from a state that differs in the fabric unit alone differs in it, its doorbells and its registers alone. -/
theorem Transports.fabOnly (h : Transports t u) (k : FabOnly s t) : FabOnly s u := by
  have hu : u = { t with fab := u.fab, hif := u.hif, regs := u.regs } := h.sends.only
  rw [FabOnly] at k ⊢
  rw [k] at hu
  exact hu

end

/-! ### Packets of the anchor (16 R603, R605) -/

/-- The ASSIGN that ASSIGN_VIA has sent out of its port. -/
def assignOut (p : Packet) (s : State) : Packet where
  ptype := 0x40
  src := s.fab.id
  arg0 := BitVec.ofNat 32 (p.arg0.toNat % 2 ^ 20)
  arg1 := p.arg1

/-- The NO_NEIGHBOUR that answers ASSIGN_VIA. -/
def noNeighbourOut (p : Packet) (s : State) : Packet where
  ptype := 0x4A
  dst := s.fab.anchorId
  arg0 := BitVec.ofNat 32 (bitsOf p.arg0.toNat 24 20)
  arg1 := BitVec.ofNat 64 (p.arg0.toNat % 2 ^ 20)

section
variable {p : Packet} {s : State}

theorem exec_assignVia_local (h : FromAnchor p s) (hstate : s.fab.state = .admitted)
    (hport : (portOf s (bitsOf p.arg0.toNat 24 20)).state = .local) :
    exec (.assignVia p) s = .next (putOn (bitsOf p.arg0.toNat 24 20) 0 (assignOut p s) (taken { p with ptype := 0x41 } s)) := by
  refine congrArg Host.Outcome.next ((fromAnchor_takes h _ _).trans ?_)
  rw [if_neg (by simp [taken, hstate])]
  exact if_pos hport

theorem exec_assignVia_none (h : FromAnchor p s) (hstate : s.fab.state = .admitted)
    (hport : (portOf s (bitsOf p.arg0.toNat 24 20)).state ≠ .local) :
    exec (.assignVia p) s = .next (sendPacket (noNeighbourOut p s) (taken { p with ptype := 0x41 } s)) := by
  refine congrArg Host.Outcome.next ((fromAnchor_takes h _ _).trans ?_)
  rw [if_neg (by simp [taken, hstate])]
  exact if_neg hport

/-- The anchor keeps a packet for its fabric manager when it does not yet have it. -/
theorem atAnchor_keeps {pt : Nat} (hdst : p.dst = s.fab.id) (hanchor : s.fab.anchor = true)
    (hnew : { p with ptype := pt } ∉ s.fab.delivered) :
    atAnchor pt p s = { s with fab := { s.fab with delivered := s.fab.delivered ++ [{ p with ptype := pt }] } } := by
  unfold atAnchor
  dsimp only
  rw [if_neg (by simp [hdst]), if_pos (by simp [hanchor, hnew])]
  rfl

end

/-- Settles O40: ASSIGN_VIA by the packet it puts on its port or sends to the anchor, the anchor's own packets by the list they are kept
in, and ANCHOR_MOVE by what its answer leaves of the fabric unit. -/
theorem anchoring : Obligations.anchoring := by
  refine ⟨?_, ?_, ?_, ?_, ?_⟩
  · intro p s h hstate hport
    refine ⟨_, { assignOut p s with port := bitsOf p.arg0.toNat 24 20 }, exec_assignVia_local h hstate hport,
      mem_sent_putOn _ _ _ _, rfl, rfl, ?_, rfl, (putOn_transports _ _ _ _).fabOnly rfl⟩
    simp [assignOut, BitVec.toNat_ofNat]
    omega
  · intro p s h hstate hport hrouted
    obtain ⟨n, hsent⟩ := sendPacket_sends (p := noNeighbourOut p s) (s := taken { p with ptype := 0x41 } s) hrouted
    refine ⟨_, _, exec_assignVia_none h hstate hport, hsent, rfl, rfl, ?_, (sendPacket_transports _ _).fabOnly rfl⟩
    have hport : bitsOf p.arg0.toNat 24 20 < 2 ^ 32 := by simp only [bitsOf]; omega
    exact Nat.mod_eq_of_lt hport
  · exact fun p s hdst hanchor hnew => congrArg Host.Outcome.next (atAnchor_keeps hdst hanchor hnew)
  · exact fun p s hdst hanchor hnew => congrArg Host.Outcome.next (atAnchor_keeps hdst hanchor hnew)
  · intro p s h
    have hanswer := mgmtStatus_transports (s := taken { p with ptype := 0x46 } s) { p with ptype := 0x46 } Status.ok
    refine ⟨_, congrArg Host.Outcome.next (fromAnchor_takes h _ _), rfl, congrArg (fun n => decide (n = _)) hanswer.id, hanswer.id,
      hanswer.state, ?_⟩
    have hsent : FabOnly s (mgmtStatus { p with ptype := 0x46 } Status.ok (taken { p with ptype := 0x46 } s)) := hanswer.fabOnly rfl
    rw [FabOnly] at hsent ⊢
    dsimp only [modFab]
    rw [hsent]

/-! ### Leaving (16 R621) -/

theorem sendReq_body (p : Packet) (who : Option Nat) (s : State) : (sendReq p who s).fab.body = s.fab.body :=
  (sendReq_peersKept s p who).body

theorem reclaimLease_body (k : Nat) (s : State) : (reclaimLease k s).fab.body = s.fab.body := by
  unfold reclaimLease
  split
  · split
    · rfl
    · rw [sendReq_body]
      rfl
  · rfl

theorem reclaimAll_body (ks : List Nat) (s : State) : (reclaimAll ks s).fab.body = s.fab.body :=
  foldS_keeps (fun t => t.fab.body) _ _ s fun t k => reclaimLease_body k t

theorem releaseLease_peersKept (k : Nat) (s : State) : PeersKept s (releaseLease k s) := by
  unfold releaseLease
  split
  · exact PeersKept.trans (t := modMem (fun m => { m with borrowed := merase m.borrowed k }) s) ⟨rfl, rfl, fun _ h => h⟩
      (sendReq_peersKept _ _ _)
  · exact .refl s

/-- The fabric unit as a module begins to leave. -/
def Fabric.leave (until_ : Nat) (f : Fabric) : Fabric := { f with state := .leaving, leaveUntil := until_ }

/-- The module is LEAVING: its seat is as it was, every lease it lent is reclaimed, and it has no pin at another module. -/
structure Leaves (s u : State) : Prop where
  seat : u.fab.seat = (s.fab.leave (now s + lossNs s)).seat
  reclaimed : ∀ k l, mget u.mem.lent k = some l → l.reclaimed = true
  unpinned : u.fab.remotePins = []

/-- Every lease borrowed is given back. -/
def releaseAll (s : State) : State := foldS (s.mem.borrowed.map Prod.fst) (fun t k => releaseLease k t) s

theorem releaseAll_peersKept (s : State) : PeersKept s (releaseAll s) := .foldS s fun t k => releaseLease_peersKept k t

/-- Every pin at another module is taken back. -/
def unpinAll (s : State) : State :=
  modFab (fun f => { f with remotePins := [] }) (foldS s.fab.remotePins (fun t x =>
    sendReq { ptype := 0x02, dst := x.1, arg0 := BitVec.ofNat 32 x.2.1, arg1 := BitVec.ofNat 64 x.2.2 } none t) s)

theorem unpinAll_seatKept (s : State) : SeatKept s (unpinAll s) :=
  (PeersKept.foldS s fun t _ => sendReq_peersKept t _ _).seatKept.trans ⟨rfl, rfl, fun _ h => absurd h List.not_mem_nil⟩

/-- Every reduction this module takes part in is aborted. -/
def abortAll (s : State) : State := foldS (reductionsOn s fun _ => true) (fun t k => abortReduction k t) s

theorem abortAll_seatKept (s : State) : SeatKept s (abortAll s) := .foldS s fun t k => abortReduction_seatKept t k

theorem enterLeaving_eq (s : State) : enterLeaving s = abortAll (unpinAll (releaseAll (reclaimAll (s.mem.lent.map Prod.fst)
    (modFab (Fabric.leave (now s + lossNs s)) s)))) := rfl

theorem enterLeaving_leaves (s : State) : Leaves s (enterLeaving s) := by
  rw [enterLeaving_eq]
  obtain ⟨t, ht⟩ : ∃ t, t = modFab (Fabric.leave (now s + lossNs s)) s := ⟨_, rfl⟩
  have hmem : s.mem = t.mem := by rw [ht]; rfl
  have hfab : t.fab = s.fab.leave (now s + lossNs s) := by rw [ht]; rfl
  rw [← ht, hmem]
  obtain ⟨v, hv⟩ : ∃ v, v = reclaimAll (t.mem.lent.map Prod.fst) t := ⟨_, rfl⟩
  have hseat : v.fab.seat = t.fab.seat := Fabric.seat_eq (hv ▸ reclaimAll_body _ t)
  rw [← hv]
  have hunpinned := (releaseAll_peersKept v).seatKept.trans (unpinAll_seatKept _)
  have hlast := abortAll_seatKept (unpinAll (releaseAll v))
  refine ⟨((hunpinned.trans hlast).seat.trans hseat).trans (by rw [hfab]), fun k l hl => ?_, ?_⟩
  · rw [(hunpinned.trans hlast).lent, hv] at hl
    exact reclaimAll_marks hl
  · exact List.eq_nil_iff_forall_not_mem.mpr fun x hx => List.not_mem_nil (hlast.pins x hx)

section
variable {s u : State}

theorem Leaves.state (h : Leaves s u) : u.fab.state = .leaving :=
  (Fabric.eq_of_seat Fabric.state (fun _ => rfl) h.seat).trans rfl

theorem Leaves.leaveUntil (h : Leaves s u) : u.fab.leaveUntil = now s + lossNs s :=
  (Fabric.eq_of_seat Fabric.leaveUntil (fun _ => rfl) h.seat).trans rfl

end

/-! ### Joining (16 R602, R627) -/

/-- The fabric unit with the ID, the anchor and the upstream port of an ASSIGN. -/
def Fabric.assign (p : Packet) (f : Fabric) : Fabric :=
  { f with state := .assigned, id := p.arg0.toNat % 2 ^ 20, anchorId := p.arg1.toNat % 2 ^ 20, upstream := p.port, anchor := false }

/-- The module with the ID of an ASSIGN, which is recorded. -/
def assignedTo (p : Packet) (s : State) : State :=
  recordEvent 0 10 0x0502 0 [p.arg0.toNat % 2 ^ 20] (modFab (Fabric.assign p) (taken { p with ptype := 0x40 } s))

theorem exec_assign_unassigned {p : Packet} {s : State} (h : s.fab.state = .unassigned) :
    ∃ q, exec (.assign p) s = .next (sendPacket q (assignedTo p s)) :=
  ⟨_, congrArg Host.Outcome.next (if_pos h)⟩

/-- The module admitted, which is recorded. -/
def admittedNow (s : State) : State :=
  recordEvent 0 10 0x0503 0 [s.fab.id] (modFab (fun f => { f with state := .admitted, pairs := [] }) s)

theorem exec_admitPacket {p : Packet} {s : State} (h : FromAnchor p s) (hstate : s.fab.state = .assigned) :
    exec (.admitPacket p) s = .next (mgmtStatus { p with ptype := 0x43 } Status.ok (admittedNow (taken { p with ptype := 0x43 } s))) :=
  congrArg Host.Outcome.next ((fromAnchor_takes h _ _).trans (if_pos hstate))

theorem exec_unassign_assigned {p : Packet} {s : State} (h : FromAnchor p s) (hstate : s.fab.state = .assigned) :
    exec (.unassign p) s = .next (enterUnassigned (mgmtStatus { p with ptype := 0x44 } Status.ok (taken { p with ptype := 0x44 } s))) :=
  congrArg Host.Outcome.next ((fromAnchor_takes h _ _).trans (if_pos hstate))

theorem exec_unassign_admitted {p : Packet} {s : State} (h : FromAnchor p s) (hstate : s.fab.state = .admitted) :
    exec (.unassign p) s = .next (mgmtStatus { p with ptype := 0x44 } Status.refused (taken { p with ptype := 0x44 } s)) :=
  congrArg Host.Outcome.next ((fromAnchor_takes h _ _).trans (if_neg (by simp [taken, hstate])))

theorem exec_leavePacket {p : Packet} {s : State} (h : FromAnchor p s) (hstate : s.fab.state = .admitted) :
    exec (.leavePacket p) s = .next (enterLeaving (mgmtStatus { p with ptype := 0x45 } Status.ok (taken { p with ptype := 0x45 } s))) :=
  congrArg Host.Outcome.next ((fromAnchor_takes h _ _).trans (if_pos hstate))

theorem enterUnassigned_fabOnly {s t : State} (h : FabOnly s t) : FabOnly s (enterUnassigned t) := by
  rw [FabOnly] at h ⊢
  rw [h]
  rfl

theorem enterUnassigned_effect (s : State) : (enterUnassigned s).fab.state = .unassigned ∧ (enterUnassigned s).fab.id = 0xFFFFF ∧
    (enterUnassigned s).fab.anchor = false ∧ (enterUnassigned s).mgmt = s.mgmt ∧ (enterUnassigned s).gen = s.gen ∧
    (enterUnassigned s).obj = s.obj := ⟨rfl, rfl, rfl, rfl, rfl, rfl⟩

/-- The anchor takes its own ID (16 R627). -/
def Fabric.takeOwn (id : Nat) (f : Fabric) : Fabric := { f with id := id, state := .admitted, anchor := true, anchorId := id, pairs := [] }

theorem exec_fabAssign {v : BitVec 32} {s : State} (hstate : s.fab.state = .unassigned) (hv : v.getLsbD 31 = true) :
    exec (.fabAssign 1 v) s = .next (recordEvent 0 10 0x0503 0 [v.toNat % 2 ^ 20]
      (recordEvent 0 10 0x0502 0 [v.toNat % 2 ^ 20] (modFab (Fabric.takeOwn (v.toNat % 2 ^ 20)) s))) :=
  congrArg Host.Outcome.next (if_pos (by simp [isMgmtPf, hstate, hv]))

theorem exec_leaveDrained {s : State} (hstate : s.fab.state = .leaving) (hshards : s.search.shardWork = []) (hadds : addsHeld s = false)
    (hbusy : busyPeers s = []) : exec .leaveDrained s = .next (enterUnassigned (recordEvent 0 10 0x0504 0 [s.fab.id] s)) := by
  refine congrArg Host.Outcome.next ((if_neg (by simp [hstate, hshards, hadds])).trans ?_)
  simp only [hbusy]

/-- Settles O39: each packet of the anchor by the one change it makes and what its answer leaves of the fabric unit, leaving by the
leases it reclaims and the seat it keeps. -/
theorem joiningAndLeaving : Obligations.joining_and_leaving := by
  refine ⟨?_, ?_, ?_, ?_, ?_, ?_, ?_, ?_, ?_, ?_, ?_, ?_⟩
  · intro p s h
    obtain ⟨q, hexec⟩ := exec_assign_unassigned (p := p) h
    have hsent := sendPacket_transports (assignedTo p s) q
    have hfab (β : Type) (g : Fabric → β) (hg : ∀ f, g f.standing = g f) :
        g (sendPacket q (assignedTo p s)).fab = g (Fabric.assign p s.fab) := by
      rw [Fabric.eq_of_standing g hg hsent.standing, assignedTo, recordEvent_fab]
      exact (hg _).symm.trans (hg (Fabric.assign p s.fab))
    refine ⟨_, hexec, hfab _ Fabric.state fun _ => rfl, hfab _ Fabric.id fun _ => rfl, hfab _ Fabric.anchorId fun _ => rfl,
      hfab _ Fabric.upstream fun _ => rfl, ?_, ?_, ?_, ?_⟩
    · rw [hsent.mgmt, assignedTo]
      exact lastSeq_lt_recordEvent s (by simp [taken]) ..
    · rw [hsent.gen]
      simp [assignedTo, taken]
    · rw [hsent.obj]
      simp [assignedTo, taken]
    · rw [hsent.sends.hostMem]
      simp [assignedTo, taken]
  · exact fun p s h => ⟨_, congrArg Host.Outcome.next (if_neg h), rfl, rfl⟩
  · intro p s h hstate
    have hsent := mgmtStatus_transports (s := admittedNow (taken { p with ptype := 0x43 } s)) { p with ptype := 0x43 } Status.ok
    refine ⟨_, exec_admitPacket h hstate, ?_, ?_, ?_, ?_⟩
    · rw [hsent.state]
      simp [admittedNow]
    · rw [hsent.id]
      simp [admittedNow, taken]
    · rw [hsent.mgmt, admittedNow]
      exact lastSeq_lt_recordEvent s (by simp [taken]) ..
    · rw [hsent.gen]
      simp [admittedNow, taken]
  · intro p s h hstate
    exact ⟨_, exec_unassign_assigned h hstate, rfl, rfl, rfl, enterUnassigned_fabOnly ((mgmtStatus_transports _ _).fabOnly rfl)⟩
  · intro p s h hstate
    have hsent := mgmtStatus_transports (s := taken { p with ptype := 0x44 } s) { p with ptype := 0x44 } Status.refused
    exact ⟨_, exec_unassign_admitted h hstate, hsent.state.trans hstate, hsent.id, hsent.fabOnly rfl⟩
  · intro v s hstate hv
    refine ⟨_, exec_fabAssign hstate hv, ?_, ?_, ?_⟩
    · simp [Fabric.takeOwn]
    · exact Nat.lt_trans (lastSeq_lt_recordEvent s (by simp) ..) (recordEvent_lastSeq_lt ..)
    · simp
  · intro fn v s h
    refine congrArg Host.Outcome.next (if_neg ?_)
    rcases h with h | h <;> simp [isMgmtPf, h]
  · intro p s h hstate
    have hleft := enterLeaving_leaves (mgmtStatus { p with ptype := 0x45 } Status.ok (taken { p with ptype := 0x45 } s))
    exact ⟨_, exec_leavePacket h hstate, hleft.state, hleft.reclaimed, hleft.unpinned⟩
  · intro s hstate
    have hleft := enterLeaving_leaves s
    have hexec : exec (.fabLeave 1) s = .next (enterLeaving s) := congrArg Host.Outcome.next (if_pos (by simp [isMgmtPf, hstate]))
    exact ⟨_, hexec, hleft.state, hleft.leaveUntil, hleft.reclaimed, hleft.unpinned⟩
  · intro fn s h
    exact congrArg Host.Outcome.next (if_neg (by simp [isMgmtPf, h]))
  · intro s hstate hshards hadds hbusy
    obtain ⟨hun, hid, hanchor, hmgmt, hgen, hobj⟩ := enterUnassigned_effect (recordEvent 0 10 0x0504 0 [s.fab.id] s)
    refine ⟨_, exec_leaveDrained hstate hshards hadds hbusy, hun, hid, hanchor, ?_, ?_, ?_⟩
    · rw [hmgmt]
      exact recordEvent_lastSeq_lt ..
    · rw [hgen, recordEvent_gen]
    · rw [hobj, recordEvent_obj]
  · intro s h
    refine congrArg Host.Outcome.next (if_pos ?_)
    simpa using h

end Sys2Proof.Machine
end

section
/-! PROOFS. Lent memory, and the answers of other modules (16 R611, R612, R617, R620, R621; 12 R467 to R471). -/

-- One declaration after the other: the stacks of the threads that elaborate so long a text at once pass the check's limit.
set_option Elab.async false

namespace Sys2Proof.Machine

/-! ### A request answered in its turn (16 R611) -/

/-- The state in which a request in its turn runs. -/
def inTurn (pt : Nat) (p : Packet) (s : State) : State := turnTaken { p with ptype := pt } (taken { p with ptype := pt } s)

section
variable {s t u : State}

theorem inTurn_early {p : Packet} (h : InTurn p s) (pt : Nat) : (pairOf (inTurn pt p s) p.src).early = [] := by
  obtain ⟨-, -, hearly⟩ := h
  exact (congrArg Pair.early (pairOf_modPair_same _ p.src _)).trans hearly

theorem sendAns_sendsOnly (p a : Packet) (s : State) : SendsOnly s (sendAns p a s) := by
  unfold sendAns
  dsimp only
  split
  · exact SendsOnly.trans (t := modPair p.src _ s) ⟨rfl, rfl⟩ (sendAll_sendsOnly _ a)
  · exact sendAll_sendsOnly s a

/-- An answer, kept to be sent again, holds no request early. -/
theorem sendAns_early (p a : Packet) (s : State) (j : Nat) : (pairOf (sendAns p a s) j).early = (pairOf s j).early := by
  have hkept (t : State) : (pairOf (sendAll a t) j).early = (pairOf t j).early := by rw [(sendAll_transports t a).pairOf]
  unfold sendAns
  dsimp only
  split
  · rw [hkept]
    by_cases h : j = p.src
    · subst h
      rw [pairOf_modPair_same]
    · rw [pairOf_modPair_other _ _ h]
  · exact hkept s

/-- A request in its turn that ends with an answer is acknowledged, and what it did is sent from. -/
theorem arriveReq_answers {p a : Packet} (h : InTurn p s) (pt : Nat) (hpair : pairOf t p.src = pairOf (inTurn pt p s) p.src)
    (hrun : runReq { p with ptype := pt } (inTurn pt p s) = sendAns { p with ptype := pt } a t) :
    ∃ u, arriveReq pt p s = u ∧ SendsOnly t u := by
  refine ⟨_, arriveReq_inTurn h pt hrun.symm ?_, (sendAns_sendsOnly _ _ _).trans (sendPacket_transports _ _).sends⟩
  rw [sendAns_early, hpair]
  exact inTurn_early h pt

end

/-! ### Leases (16 R617; 12 R467 to R471) -/

section
variable {s u : State}

/-- The memory unit with another table of lent memory. -/
def Mem.withLent (l : Map Lease) (m : Mem) : Mem := { m with lent := l }

/-- What is sent from a state with another table of lent memory leaves the rest. -/
theorem SendsOnly.lent_only {l : Map Lease} (h : SendsOnly (modMem (Mem.withLent l) s) u) : u.mem.lent = l ∧
    u = { s with mem := { s.mem with lent := u.mem.lent }, fab := u.fab, hif := u.hif, regs := u.regs } := by
  have hu : u = { modMem (Mem.withLent l) s with fab := u.fab, hif := u.hif, regs := u.regs } := h.only
  have hlent : u.mem.lent = l := by
    rw [hu]
    rfl
  refine ⟨hlent, ?_⟩
  rw [hlent]
  exact hu

theorem SendsOnly.mem_eq (h : SendsOnly s u) : u.mem = s.mem := by
  have hu : u = { s with fab := u.fab, hif := u.hif, regs := u.regs } := h.only
  rw [hu]

/-- The pages of a lease asked for that are free to lend (12 R467, R468). -/
def lendable (p : Packet) (s : State) : Nat :=
  min (p.arg0.toNat % 2 ^ 20) (min (s.mem.lendMax - lentPages s) (idleBrixjo s / 2097152))

theorem lendPages_grants {p : Packet} {k : Nat} (hon : s.mem.ctl.getLsbD 1 = true) (hhops : p.hops ≤ s.mem.lendHops)
    (hk : lowestFree s.mem.lent 4096 = some k) (hn : 0 < lendable p s) :
    ∃ a, lendPages p s = sendAns p a (modMem (Mem.withLent (mset s.mem.lent k { peer := p.src, pages := lendable p s })) s) := by
  refine ⟨{ answerTo p 0x21 0 (lendable p s) with arg0 := BitVec.ofNat 32 k }, ?_⟩
  unfold lendPages
  dsimp only
  rw [hk]
  dsimp only
  rw [if_pos (by rw [lendable] at hn; simp only [hon, hhops, hn, decide_true, Bool.and_self])]
  rfl

theorem lendPages_off {p : Packet} (hoff : s.mem.ctl.getLsbD 1 = false) :
    lendPages p s = sendAns p (answerTo p 0x81 Status.noResources) s := by
  unfold lendPages
  dsimp only
  split
  · exact if_neg (by rw [hoff]; simp)
  · rfl

theorem leaseReleased_forgets {p : Packet} {l : Lease} (hl : mget s.mem.lent (p.arg0.toNat % 4096) = some l) (hpeer : l.peer = p.src) :
    leaseReleased p s = sendAns p (answerTo p 0x81 Status.ok)
      (modMem (Mem.withLent (merase s.mem.lent (p.arg0.toNat % 4096))) s) := by
  unfold leaseReleased sendStatus
  dsimp only
  rw [hl]
  dsimp only
  rw [if_pos hpeer]
  rfl

/-- The memory unit with the lease that a grant gives it. -/
def Mem.borrow (p : Packet) (m : Mem) : Mem :=
  { m with borrowed := mset m.borrowed (4096 * p.src + p.arg0.toNat % 4096) { peer := p.src, pages := p.arg1.toNat % 2 ^ 20 } }

theorem exec_leaseGrant {p : Packet} (h : ToMe p s) : exec (.leaseGrant p) s =
    .next (clearAsked { p with ptype := 0x21 } (modMem (Mem.borrow p) (taken { p with ptype := 0x21 } s))) :=
  congrArg Host.Outcome.next (arrive_toMe h _ _)

/-- The memory unit without a lease it had borrowed. -/
def Mem.reclaim (k : Nat) (m : Mem) : Mem :=
  { m with borrowed := merase m.borrowed k, reclaims := m.reclaims + b2n (mhas m.borrowed k) }

theorem placeLent_places {p : Packet} {l : Lease} (hl : liveLease p s = some l) (hoff : p.arg1.toNat % 2 ^ 32 % 64 = 0)
    (hfits : p.arg1.toNat % 2 ^ 32 + p.payload.length ≤ l.pages * 2097152) :
    placeLent p s = sendAll (answerTo p 0x81 Status.ok) (modMem (Mem.withLent (mset s.mem.lent (p.arg0.toNat % 4096)
      { l with frames := mset l.frames (p.arg1.toNat % 2 ^ 32) p.payload })) s) := by
  unfold placeLent
  dsimp only
  rw [hl]
  exact if_pos ⟨hoff, hfits⟩

theorem readLent_reads {p : Packet} {l : Lease} {f : Nat × Bytes} (hl : liveLease p s = some l)
    (hf : frameAt l.frames (p.arg1.toNat % 2 ^ 32) = some f) (hlen : f.2.length ≤ 32768) :
    readLent p s = sendPacket (answerTo p 0x84 Status.ok p.arg1.toNat
      ((f.2.drop (p.arg1.toNat % 2 ^ 32 - f.1)).take (rd p.payload 0 4))) s := by
  unfold readLent
  dsimp only
  rw [hl]
  dsimp only
  rw [hf]
  refine sendAll_single s ?_
  simp only [answerTo, List.length_take, List.length_drop]
  omega

theorem readLent_refused {p : Packet} (hl : liveLease p s = none) :
    readLent p s = sendPacket (answerTo p 0x84 Status.refused p.arg1.toNat) s := by
  unfold readLent
  dsimp only
  rw [hl]
  exact sendAll_single s (Nat.zero_le _)

end

/-! ### GONE (16 R612, R621) -/

section
variable (s : State)

theorem failWaiters_peersKept (l : List PairReq) : PeersKept s (failWaiters l s) := by
  refine .foldS s fun t r => ?_
  have hunit : PeersKept t (match r.ctx with | some c => failUnit c.1 0x201 t | none => t) := by
    split
    · exact failUnit_peersKept t _ _
    · exact .refl t
  dsimp only
  split
  · exact hunit.trans (endFault_peersKept _ _ _ _)
  · exact hunit

theorem missShard_fab (peer : Nat) : (missShard peer s).fab = s.fab := by
  unfold missShard
  rw [foldS_keeps State.fab _ _ _ fun t e => ?_]
  · rfl
  · simp [modSearchWork, modWork]

theorem dropPins_fab (peer : Nat) : (dropPins peer s).fab = s.fab := by
  unfold dropPins
  obtain ⟨o, x, h⟩ := releaseUnused_only (modObj _ s)
  rw [h]
  rfl

/-- The fabric unit without a peer that is lost. -/
def Fabric.lose (peer : Nat) (f : Fabric) : Fabric :=
  { f with
    pairs := merase f.pairs peer
    trains := f.trains.filter fun t => t.src != peer
    lost := insertNum peer f.lost
    peersLost := f.peersLost + 1
    remotePins := f.remotePins.filter fun x => x.1 != peer }

/-- What waited for a peer fails, its leases, pins and shards are dropped, and the reductions it takes part in are aborted. -/
def peerEnded (peer : Nat) (l : List PairReq) (s : State) : State :=
  let s2 := missShard peer (dropPins peer (dropLeases peer (failWaiters l s)))
  foldS (reductionsOn s2 fun set => (setIds s2 set).contains peer) (fun t k => abortReduction k t) s2

theorem peerEnded_seat (peer : Nat) (l : List PairReq) : (peerEnded peer l s).fab.seat = s.fab.seat := by
  obtain ⟨v, hv⟩ : ∃ v, v = missShard peer (dropPins peer (dropLeases peer (failWaiters l s))) := ⟨_, rfl⟩
  have haborted : SeatKept v (peerEnded peer l s) := by
    rw [hv]
    exact .foldS _ fun t k => abortReduction_seatKept t k
  have hfab : v.fab = (failWaiters l s).fab := by
    rw [hv, missShard_fab, dropPins_fab]
    rfl
  rw [haborted.seat, hfab]
  exact Fabric.seat_eq (failWaiters_peersKept s l).body

theorem losePeer_eq (peer : Nat) : ∃ l n, losePeer peer s =
    recordEvent 2 10 0x0501 0 [peer, n] (peerEnded peer l (modFab (Fabric.lose peer) s)) := ⟨_, _, rfl⟩

/-- After a peer is lost, it is among the lost ones, and one more was lost. -/
theorem losePeer_lost (peer : Nat) : peer ∈ (losePeer peer s).fab.lost ∧ (losePeer peer s).fab.peersLost = s.fab.peersLost + 1 := by
  obtain ⟨l, n, hlose⟩ := losePeer_eq s peer
  have hseat := peerEnded_seat (modFab (Fabric.lose peer) s) peer l
  rw [hlose, recordEvent_fab, Fabric.eq_of_seat Fabric.lost (fun _ => rfl) hseat, Fabric.eq_of_seat Fabric.peersLost (fun _ => rfl) hseat]
  exact ⟨mem_insertNum peer s.fab.lost, rfl⟩

end

/-! ### Answers (16 R611, R620) -/

section
variable {p : Packet} {s : State}

theorem exec_fabAnswer_arrives (hlow : 0x81 ≤ p.ptype) (hhigh : p.ptype ≤ 0x85)
    (hmine : (s.fab.anchor && p.dst == s.fab.id && (askedFor p s).isNone && p.arg0.toNat % 65536 != Status.gone) = false)
    (h : ToMe p s) : exec (.fabAnswer p) s = .next (answered p (taken p s)) := by
  refine congrArg Host.Outcome.next ((if_neg (by omega)).trans ?_)
  rw [hmine]
  exact arrive_toMe h p.ptype answered

/-- A question answered is no longer asked of its pair. -/
def Pair.answer (r : PairReq) (x : Pair) : Pair := { x with asked := x.asked.erase r, unacked := x.unacked.filter fun y => y.seq != r.seq }

theorem answered_reclaim {r : PairReq} (hgone : p.arg0.toNat % 65536 ≠ Status.gone) (hr : askedFor p s = some r)
    (hreclaim : r.pkt.ptype = 0x22) : answered p s =
    modMem (fun m => { m with lent := merase m.lent (r.pkt.arg0.toNat % 4096) }) (modPair p.src (Pair.answer r) s) := by
  unfold answered
  rw [if_neg hgone, hr]
  dsimp only
  rw [hreclaim]
  rfl

end

/-- Settles O42: each request in its turn by the lent memory it leaves and what is sent from there, GONE by the seat of the fabric unit,
which every end of what waited for the peer leaves, and the answer to LEASE_RECLAIM by its pair. -/
theorem leasesAndAnswers : Obligations.leases_and_answers := by
  refine ⟨?_, ?_, ?_, ?_, ?_, ?_, ?_, ?_, ?_, ?_, ?_⟩
  · intro p k n s h hon hhops hk hn hpos
    have hlendable : lendable { p with ptype := 0x20 } (inTurn 0x20 p s) = n := hn.symm
    obtain ⟨a, hgrant⟩ := lendPages_grants (p := { p with ptype := 0x20 }) (s := inTurn 0x20 p s) hon hhops hk (hlendable ▸ hpos)
    obtain ⟨u, hu, hsent⟩ := arriveReq_answers h 0x20 (by rfl) hgrant
    rw [hlendable] at hsent
    obtain ⟨hlent, honly⟩ := SendsOnly.lent_only (s := s) (l := mset s.mem.lent k { peer := p.src, pages := n })
      (SendsOnly.trans (t := modMem (Mem.withLent (mset s.mem.lent k { peer := p.src, pages := n })) (inTurn 0x20 p s))
        ⟨rfl, rfl⟩ hsent)
    refine ⟨u, congrArg Host.Outcome.next hu, ?_, fun j hj => ?_, honly⟩
    · rw [hlent, mget_mset_same]
    · rw [hlent, mget_mset_other _ _ _ _ hj]
  · intro p s h hoff
    have hrefused := lendPages_off (p := { p with ptype := 0x20 }) (s := inTurn 0x20 p s) hoff
    obtain ⟨u, hu, hsent⟩ := arriveReq_answers h 0x20 rfl hrefused
    exact ⟨u, congrArg Host.Outcome.next hu, (SendsOnly.trans (t := inTurn 0x20 p s) ⟨rfl, rfl⟩ hsent).only⟩
  · intro p s h
    have hmem (t : State) : (clearAsked { p with ptype := 0x21 } t).mem = t.mem := rfl
    refine ⟨_, exec_leaseGrant h, ?_, fun j hj => ?_, rfl⟩
    · rw [hmem]
      exact mget_mset_same ..
    · rw [hmem]
      exact mget_mset_other _ _ _ _ hj
  · intro p s h
    obtain ⟨u, hu, hsent⟩ := arriveReq_answers h 0x22 (t := modMem (Mem.reclaim (4096 * p.src + p.arg0.toNat % 4096)) (inTurn 0x22 p s)) rfl rfl
    have hmem : u.mem = s.mem.reclaim (4096 * p.src + p.arg0.toNat % 4096) := hsent.mem_eq
    refine ⟨u, congrArg Host.Outcome.next hu, ?_, fun j hj => ?_, ?_, ?_⟩
    · rw [hmem]
      exact (mget_merase ..).trans (if_pos rfl)
    · rw [hmem]
      exact (mget_merase ..).trans (if_neg hj)
    · rw [hmem]
      rfl
    · rw [hmem]
      rfl
  · intro p l s h hl hpeer
    obtain ⟨u, hu, hsent⟩ := arriveReq_answers h 0x23 (by rfl) (leaseReleased_forgets (p := { p with ptype := 0x23 }) hl hpeer)
    have hlent : u.mem.lent = merase s.mem.lent (p.arg0.toNat % 4096) := congrArg Mem.lent hsent.mem_eq
    refine ⟨u, congrArg Host.Outcome.next hu, ?_, fun j hj => ?_⟩
    · rw [hlent, mget_merase, if_pos rfl]
    · rw [hlent, mget_merase, if_neg hj]
  · intro p l s h hl hoff hfits
    have hplaced := placeLent_places (p := { p with ptype := 0x24 }) (s := taken { p with ptype := 0x24 } s) hl hoff hfits
    refine ⟨_, congrArg Host.Outcome.next ((arrive_toMe h _ _).trans hplaced), ?_, fun j hj => ?_, ?_⟩
    · rw [(sendAll_sendsOnly _ _).mem_eq]
      exact mget_mset_same ..
    · rw [(sendAll_sendsOnly _ _).mem_eq]
      exact mget_mset_other _ _ _ _ hj
    · rw [(sendAll_sendsOnly _ _).mem_eq]
      rfl
  · intro p l f s h hl hf hlen hrouted
    have hread := readLent_reads (p := { p with ptype := 0x25 }) (s := taken { p with ptype := 0x25 } s) hl hf hlen
    obtain ⟨n, hsent⟩ := sendPacket_sends (p := answerTo { p with ptype := 0x25 } 0x84 Status.ok p.arg1.toNat
      ((f.2.drop (p.arg1.toNat % 2 ^ 32 - f.1)).take (rd p.payload 0 4))) (s := taken { p with ptype := 0x25 } s) hrouted
    exact ⟨_, _, congrArg Host.Outcome.next ((arrive_toMe h _ _).trans hread), hsent, rfl, rfl, rfl, rfl,
      (sendPacket_transports _ _).fabOnly rfl⟩
  · intro p s h hl hrouted
    have hread := readLent_refused (p := { p with ptype := 0x25 }) (s := taken { p with ptype := 0x25 } s) hl
    obtain ⟨n, hsent⟩ := sendPacket_sends (p := answerTo { p with ptype := 0x25 } 0x84 Status.refused p.arg1.toNat)
      (s := taken { p with ptype := 0x25 } s) hrouted
    exact ⟨_, _, congrArg Host.Outcome.next ((arrive_toMe h _ _).trans hread), hsent, rfl, rfl, (sendPacket_transports _ _).fabOnly rfl⟩
  · intro p s h hlow hhigh hanchor hgone
    obtain ⟨hlost, hpeers⟩ := losePeer_lost (taken p s) p.src
    have hexec := exec_fabAnswer_arrives hlow hhigh (by simp [hanchor]) h
    rw [answered, if_pos hgone] at hexec
    exact ⟨_, hexec, hlost, hpeers⟩
  · intro p r s h hlow hhigh hgone hr hreclaim
    have hexec := exec_fabAnswer_arrives hlow hhigh (by simp [hr]) h
    rw [answered_reclaim hgone (s := taken p s) hr hreclaim] at hexec
    refine ⟨_, hexec, ?_, fun j hj => ?_, ?_, fun j hj => ?_, rfl⟩
    · exact (mget_merase ..).trans (if_pos rfl)
    · exact (mget_merase ..).trans (if_neg hj)
    · exact congrArg Pair.asked (pairOf_modPair_same (taken p s) p.src (Pair.answer r))
    · exact pairOf_modPair_other (taken p s) (Pair.answer r) hj
  · exact fun p s h => congrArg Host.Outcome.next (if_pos h)

end Sys2Proof.Machine
end

section
/-! PROOFS. Reductions across modules (16 R616; 03 R82 to R84). -/

-- One declaration after the other: the stacks of the threads that elaborate so long a text at once pass the check's limit.
set_option Elab.async false

namespace Sys2Proof.Machine

/-! ### What waits for the rest of a reduction -/

section
variable {k : Nat} {r : Reduction} {s : State}

theorem checkRed_waits {go : State → State} (hr : mget s.fab.reductions k = some r) (hfits : r.started = true → redFits r = true)
    (hgo : go s = s) : checkRed k go s = s := by
  unfold checkRed
  rw [hr]
  dsimp only
  rw [if_neg, hgo]
  cases hstarted : r.started with
  | false => simp
  | true => simp [hfits hstarted]

theorem rootExps_waits (hr : mget s.fab.reductions k = some r)
    (hwait : r.started = true → allSent (setIds s (k / 2 ^ 32)).length r.own.length r.exps = false) : rootExps k s = s := by
  unfold rootExps
  rw [hr]
  refine if_pos ?_
  cases hstarted : r.started with
  | false => simp
  | true => rw [hwait hstarted]; simp

theorem sendParts_waits (hr : mget s.fab.reductions k = some r)
    (hwait : r.started = true → r.agreed.length < r.own.length) : sendParts k s = s := by
  unfold sendParts
  rw [hr]
  split
  next r' me hsome _ =>
    obtain rfl := Option.some.inj hsome
    refine if_pos ?_
    cases hstarted : r.started with
    | false => simp
    | true => simp [hwait hstarted]
  next => rfl

theorem rootParts_waits (hr : mget s.fab.reductions k = some r)
    (hwait : r.started = true → allSent (setIds s (k / 2 ^ 32)).length r.own.length r.parts = false) : rootParts k s = s := by
  unfold rootParts
  rw [hr]
  refine if_pos ?_
  cases hstarted : r.started with
  | false => simp
  | true => rw [hwait hstarted]; simp

/-! ### What ends a reduction -/

/-- The fabric unit without a reduction. -/
def Fabric.forget (k : Nat) (f : Fabric) : Fabric := { f with reductions := merase f.reductions k }

theorem dropReduction_started (hr : mget s.fab.reductions k = some r) (hstarted : r.started = true) :
    dropReduction k s = failUnit r.unit 0x202 (modFab (Fabric.forget k) s) := by
  simp only [dropReduction, hr, hstarted, if_true]
  rfl

theorem dropReduction_none (hr : mget s.fab.reductions k = some r) (hstarted : r.started = true) :
    mget (dropReduction k s).fab.reductions k = none := by
  rw [dropReduction_started hr hstarted, Fabric.eq_of_body Fabric.reductions (fun _ => rfl) (failUnit_peersKept _ _ _).body]
  exact (mget_merase _ _ _).trans (if_pos rfl)

theorem abortReduction_none (hr : mget s.fab.reductions k = some r) (hstarted : r.started = true) :
    mget (abortReduction k s).fab.reductions k = none := by
  obtain ⟨t, ht⟩ : ∃ t, t = foldS ((setIds s (k / 2 ^ 32)).filter (· ≠ s.fab.id)) (fun t id =>
    sendPacket { ptype := 0x14, dst := id, arg0 := BitVec.ofNat 32 (k / 2 ^ 32), arg1 := BitVec.ofNat 64 (k % 2 ^ 32) } t) s := ⟨_, rfl⟩
  have hsent : Transports s t := ht ▸ foldS_inv (Transports s) _ _ _ (fun v _ h => h.trans (sendPacket_transports v _)) (.refl s)
  have habort : abortReduction k s = dropReduction k t := by rw [ht]; rfl
  rw [habort]
  refine dropReduction_none ?_ hstarted
  rw [Fabric.eq_of_standing Fabric.reductions (fun _ => rfl) hsent.standing, hr]

theorem checkRed_unfit {go : State → State} (hr : mget s.fab.reductions k = some r) (hstarted : r.started = true)
    (hunfit : redFits r = false) : mget (checkRed k go s).fab.reductions k = none := by
  have hcheck : checkRed k go s = abortReduction k s := by simp [checkRed, hr, hstarted, hunfit]
  rw [hcheck]
  exact abortReduction_none hr hstarted

end

/-- The run that a dropped reduction belongs to ends FAULT with the cause 0x202 (16 R616). -/
theorem failUnit_run_ends {n e cause : Nat} {x : SUnit} {y : RtEntry} {s : State} (hx : mget s.sched.units n = some x)
    (hk : x.kind = .run e) (hy : mget s.gen.entries e = some y) (hs : y.state ≠ .drain) (hc : y.cancelPending = false)
    (hd : y.work.disabled = false) : ∃ z, mget (failUnit n cause s).gen.entries e = some z ∧ z.state = .drain ∧
      z.finish = Status.fault ∧ z.work.detail = cause := by
  have hentry : entryOf s e = some y := hy
  have hfail : failUnit n cause s = endEntry e Status.fault cause 0 0 s := by
    simp only [failUnit, hx, hk, endFault, hentry, hc, Bool.false_eq_true, if_false]
  obtain ⟨z, at_, held, hz, hended⟩ := endEntry_course Status.fault cause 0 0 hy hs hd
  rw [hfail]
  exact ⟨z, hz, hended.state, hended.finish, hended.detail⟩

/-! ### A result that is whole (03 R84) -/

/-- Nothing of the clusters but the context of one slot differs, which stands where it stood and does not begin to wait; the fabric
unit, the objects, the memory unit, the host interface and the units of work are as before. -/
structure SlotTouched (h : Nat × Nat) (s u : State) : Prop where
  slot : ∀ c, mget (clusterOf s h.1).slots h.2 = some c →
    ∃ d, mget (clusterOf u h.1).slots h.2 = some d ∧ d.pc = c.pc ∧ (c.waiting = false → d.waiting = false)
  others : ∀ g, g ≠ h.1 → clusterOf u g = clusterOf s g
  fab : u.fab = s.fab
  obj : u.obj = s.obj
  mem : u.mem = s.mem
  hif : u.hif = s.hif
  units : u.sched.units = s.sched.units

section
variable {h : Nat × Nat} {s t u : State}

theorem SlotTouched.refl (h : Nat × Nat) (s : State) : SlotTouched h s s :=
  ⟨fun c hc => ⟨c, hc, rfl, fun hw => hw⟩, fun _ _ => rfl, rfl, rfl, rfl, rfl, rfl⟩

/-- What leaves the clusters, the units and the units of the module beside the request table touches no slot. -/
theorem SlotTouched.of_gen {g : Gen} : SlotTouched h s { s with gen := g } :=
  ⟨fun c hc => ⟨c, hc, rfl, fun hw => hw⟩, fun _ _ => rfl, rfl, rfl, rfl, rfl, rfl⟩

theorem SlotTouched.trans (a : SlotTouched h s t) (b : SlotTouched h t u) : SlotTouched h s u := by
  refine ⟨fun c hc => ?_, fun g hg => (b.others g hg).trans (a.others g hg), b.fab.trans a.fab, b.obj.trans a.obj, b.mem.trans a.mem,
    b.hif.trans a.hif, b.units.trans a.units⟩
  obtain ⟨d, hd, hpc, hwait⟩ := a.slot c hc
  obtain ⟨d', hd', hpc', hwait'⟩ := b.slot d hd
  exact ⟨d', hd', hpc'.trans hpc, fun hw => hwait' (hwait hw)⟩

/-- The context of a slot changed. -/
def modSlot (h : Nat × Nat) (f : Ctx → Ctx) (s : State) : State := modCluster h.1 (fun c => { c with slots := mupd c.slots h.2 f }) s

theorem modSlot_slot {f : Ctx → Ctx} {c : Ctx} (hc : mget (clusterOf s h.1).slots h.2 = some c) :
    mget (clusterOf (modSlot h f s) h.1).slots h.2 = some (f c) := by
  rw [modSlot, clusterOf_modCluster_same, mget_mupd, if_pos rfl, hc, Option.map_some]

theorem modSlot_touched {f : Ctx → Ctx} (hpc : ∀ c, (f c).pc = c.pc) (hwait : ∀ c : Ctx, c.waiting = false → (f c).waiting = false) :
    SlotTouched h s (modSlot h f s) :=
  ⟨fun c hc => ⟨f c, modSlot_slot hc, hpc c, hwait c⟩, fun _ hg => clusterOf_modCluster_other hg _ _, rfl, rfl, rfl, rfl, rfl⟩

variable {n : Nat} {x : SUnit}

/-- A share of a unit in one slot is the context of that slot, or none. -/
theorem modShare_one (hx : mget s.sched.units n = some x) (hslots : x.slots = [h]) (share : Nat) (f : Ctx → Ctx) :
    modShare n share f s = if share = 0 then modSlot h f s else s := by
  cases share with
  | zero => simp [modShare, hx, hslots, modSlot]
  | succ i => simp [modShare, hx, hslots]

theorem modShare_touched (hx : mget s.sched.units n = some x) (hslots : x.slots = [h]) (share : Nat) {f : Ctx → Ctx}
    (hpc : ∀ c, (f c).pc = c.pc) (hwait : ∀ c : Ctx, c.waiting = false → (f c).waiting = false) :
    SlotTouched h s (modShare n share f s) := by
  rw [modShare_one hx hslots]
  split
  · exact modSlot_touched hpc hwait
  · exact .refl h s

theorem noteUnit_touched (hx : mget s.sched.units n = some x) (hslots : x.slots = [h]) (share : Nat) (f : BitVec 4) :
    SlotTouched h s (noteUnit n share f s) := by
  have hflags := modShare_touched hx hslots share (f := fun c => { c with flags := c.flags ||| f }) (fun _ => rfl) (fun _ hw => hw)
  unfold noteUnit
  simp only [hx]
  exact foldS_inv (SlotTouched h s) _ _ _ (fun v _ hv => hv.trans .of_gen) hflags

/-- The values of a whole result put in the output of its context, which waits no more. -/
def Reduction.put (r : Reduction) (data scales : Bytes) (c : Ctx) : Ctx :=
  { c with waiting := false
           tensors := mmod c.tensors r.out { dims := [], data := [] } fun t => { t with data := data, scales := scales } }

/-- The first shares of a unit get the values of a whole result. -/
def putAll (shares : Nat) (r : Reduction) (data scales : Bytes) (s : State) : State :=
  foldS (List.range shares) (fun t i => modShare r.unit i (r.put data scales) t) s

theorem putAll_touched {m : Nat} {r : Reduction} {c : Ctx} (data scales : Bytes) (hx : mget s.sched.units r.unit = some x) (hslots : x.slots = [h])
    (hc : mget (clusterOf s h.1).slots h.2 = some c) : ∃ d, mget (clusterOf (putAll (m + 1) r data scales s) h.1).slots h.2 = some d ∧
      d.waiting = false ∧ d.pc = c.pc ∧ SlotTouched h s (putAll (m + 1) r data scales s) := by
  have hall (v : State) (hv : v.sched.units = s.sched.units) (i : Nat) :
      SlotTouched h v (modShare r.unit i (r.put data scales) v) :=
    modShare_touched (by rw [hv, hx]) hslots i (fun _ => rfl) (fun _ _ => rfl)
  have hfirst : modShare r.unit 0 (r.put data scales) s = modSlot h (r.put data scales) s := by
    rw [modShare_one hx hslots, if_pos rfl]
  have hrest := foldS_inv (SlotTouched h (modSlot h (r.put data scales) s)) ((List.range m).map Nat.succ)
    (fun t i => modShare r.unit i (r.put data scales) t) (modSlot h (r.put data scales) s)
    (fun v i hv => hv.trans (hall v (hv.units.trans rfl) i)) (.refl h _)
  have heq : putAll (m + 1) r data scales s = foldS ((List.range m).map Nat.succ) (fun t i => modShare r.unit i (r.put data scales) t)
      (modSlot h (r.put data scales) s) := by
    rw [putAll, List.range_succ_eq_map, foldS_cons, hfirst]
  rw [heq]
  obtain ⟨d, hd, hpc, hwait⟩ := hrest.slot _ (modSlot_slot hc)
  exact ⟨d, hd, hwait rfl, hpc, (modSlot_touched (f := r.put data scales) (fun _ => rfl) (fun _ _ => rfl)).trans hrest⟩

end

/-- A unit in one slot has a share. -/
theorem shareCount_one {h : Nat × Nat} {n : Nat} {x : SUnit} {s : State} (hx : mget s.sched.units n = some x) (hslots : x.slots = [h]) :
    ∃ m, shareCount s n = m + 1 := by
  have hcount : shareCount s n = max 1 x.span := by simp [shareCount, hx, hslots]
  exact ⟨shareCount s n - 1, by omega⟩

/-- A reduction whose result is whole puts it in its context and is forgotten. -/
theorem finishReduction_whole {k first : Nat} {b : Bytes} {r : Reduction} {s : State} (hr : mget s.fab.reductions k = some r)
    (hstarted : r.started = true) (hresult : r.result = [(first, b)]) (hwhole : r.own.length ≤ chunkElems r.fmtOut b.length) :
    ∃ fl data scales, finishReduction k s = putAll (shareCount s r.unit) r data scales
      (modFab (Fabric.forget k) (noteUnit r.unit r.share fl s)) := by
  unfold finishReduction
  rw [hr]
  dsimp only
  rw [if_neg (by simp [hstarted, hresult, hwhole])]
  exact ⟨_, _, _, rfl⟩

/-! ### Shares that arrive (16 R616) -/

/-- A reduction with more exponents of a member. -/
def Reduction.addExps (m first : Nat) (b : Bytes) (r : Reduction) : Reduction :=
  { r with exps := mset r.exps m (putFrom (mgetD r.exps m []) first (expsOf b)) }

/-- A reduction with more of the agreed exponents. -/
def Reduction.addAgreed (first : Nat) (b : Bytes) (r : Reduction) : Reduction := { r with agreed := putFrom r.agreed first (expsOf b) }

/-- A reduction with more partial sums of a member. -/
def Reduction.addParts (m first : Nat) (b : Bytes) (r : Reduction) : Reduction :=
  { r with parts := mset r.parts m (putFrom (mgetD r.parts m []) first (partsOf b)) }

/-- A reduction with more of its result. -/
def Reduction.addResult (first : Nat) (b : Bytes) (r : Reduction) : Reduction := { r with result := mset r.result first b }

section
variable {p : Packet} {k m first : Nat} {s : State}

theorem exec_redExp (h : ToMe p s) (hof : redOf p s = (k, some m, first)) : exec (.redExp p) s =
    .next (checkRed k (rootExps k) (modRed k (.addExps m first p.payload) (taken { p with ptype := 0x10 } s))) := by
  refine congrArg Host.Outcome.next ((arrive_toMe h _ _).trans ?_)
  have hof' : redOf { p with ptype := 0x10 } (taken { p with ptype := 0x10 } s) = (k, some m, first) := hof
  rw [redExp, hof']
  rfl

theorem exec_redAgree {m : Option Nat} (h : ToMe p s) (hof : redOf p s = (k, m, first)) : exec (.redAgree p) s =
    .next (checkRed k (sendParts k) (modRed k (.addAgreed first p.payload) (taken { p with ptype := 0x11 } s))) := by
  refine congrArg Host.Outcome.next ((arrive_toMe h _ _).trans ?_)
  have hof' : redOf { p with ptype := 0x11 } (taken { p with ptype := 0x11 } s) = (k, m, first) := hof
  rw [redAgree, hof']
  rfl

theorem exec_redPart (h : ToMe p s) (hof : redOf p s = (k, some m, first)) : exec (.redPart p) s =
    .next (checkRed k (rootParts k) (modRed k (.addParts m first p.payload) (taken { p with ptype := 0x12 } s))) := by
  refine congrArg Host.Outcome.next ((arrive_toMe h _ _).trans ?_)
  have hof' : redOf { p with ptype := 0x12 } (taken { p with ptype := 0x12 } s) = (k, some m, first) := hof
  rw [redPart, hof']
  rfl

theorem exec_redResult {m : Option Nat} (h : ToMe p s) (hof : redOf p s = (k, m, first)) : exec (.redResult p) s =
    .next (finishReduction k (modRed k (.addResult first p.payload) (taken { p with ptype := 0x13 } s))) := by
  refine congrArg Host.Outcome.next ((arrive_toMe h _ _).trans ?_)
  have hof' : redOf { p with ptype := 0x13 } (taken { p with ptype := 0x13 } s) = (k, m, first) := hof
  rw [redResult, hof']
  rfl

theorem exec_redAbort (h : ToMe p s) : exec (.redAbort p) s =
    .next (dropReduction (redKey (p.arg0.toNat % 256) (p.arg1.toNat % 2 ^ 32)) (taken { p with ptype := 0x14 } s)) :=
  congrArg Host.Outcome.next (arrive_toMe h _ _)

theorem mgetD_of_mget {α : Type} {m : Map α} {d v : α} (hv : mget m k = some v) : mgetD m k d = v := by rw [mgetD, hv, Option.getD_some]

theorem dropReduction_unstarted {r : Reduction} (hr : mget s.fab.reductions k = some r) (hstarted : r.started = false) :
    dropReduction k s = modFab (fun f => { f with reductions := mset f.reductions k { r with aborted := true } }) s := by
  simp only [dropReduction, hr, hstarted, Bool.false_eq_true, if_false]

theorem modRed_reduction (k : Nat) (f : Reduction → Reduction) (s : State) :
    mget (modRed k f s).fab.reductions k = some (f (mgetD s.fab.reductions k {})) := mget_mmod_same ..

theorem modRed_others {j : Nat} (f : Reduction → Reduction) (s : State) (h : j ≠ k) :
    mget (modRed k f s).fab.reductions j = mget s.fab.reductions j := mget_mmod_other _ _ _ _ _ h

end

/-- Settles O43: a share that comes before the rest by what the reduction then holds, one that does not fit and an abort by the unit they
fail, a whole result by the context it is put in. -/
theorem reductions : Obligations.reductions := by
  refine ⟨?_, ?_, ?_, ?_, ?_, ?_, ?_⟩
  · rintro p k m first r x s h hof rfl rfl hwait
    have hexec := exec_redExp h hof
    have hx := modRed_reduction k (.addExps m first p.payload) (taken { p with ptype := 0x10 } s)
    rw [checkRed_waits hx (fun hs => (hwait hs).1) (rootExps_waits hx fun hs => (hwait hs).2)] at hexec
    exact ⟨_, hexec, hx, fun j hj => modRed_others _ _ hj, rfl⟩
  · rintro p k first m r x s h hof rfl rfl hwait
    have hexec := exec_redAgree h hof
    have hx := modRed_reduction k (.addAgreed first p.payload) (taken { p with ptype := 0x11 } s)
    rw [checkRed_waits hx (fun hs => (hwait hs).1) (sendParts_waits hx fun hs => (hwait hs).2)] at hexec
    exact ⟨_, hexec, hx, fun j hj => modRed_others _ _ hj, rfl⟩
  · rintro p k m first r x s h hof rfl rfl hwait
    have hexec := exec_redPart h hof
    have hx := modRed_reduction k (.addParts m first p.payload) (taken { p with ptype := 0x12 } s)
    rw [checkRed_waits hx (fun hs => (hwait hs).1) (rootParts_waits hx fun hs => (hwait hs).2)] at hexec
    exact ⟨_, hexec, hx, fun j hj => modRed_others _ _ hj, rfl⟩
  · rintro p k m first r x s h hof hr hstarted rfl hunfit
    have hx := modRed_reduction k (.addParts m first p.payload) (taken { p with ptype := 0x12 } s)
    have hheld : mgetD (taken { p with ptype := 0x12 } s).fab.reductions k {} = r := mgetD_of_mget hr
    rw [hheld] at hx
    exact ⟨_, exec_redPart h hof, checkRed_unfit hx hstarted hunfit⟩
  · intro p k first m r x hs c s h hof hr hstarted hresult hwhole hx hslots hc
    obtain ⟨t, ht⟩ : ∃ t, t = modRed k (.addResult first p.payload) (taken { p with ptype := 0x13 } s) := ⟨_, rfl⟩
    have hred : mget t.fab.reductions k = some (r.addResult first p.payload) := by
      have hheld : mgetD (taken { p with ptype := 0x13 } s).fab.reductions k {} = r := mgetD_of_mget hr
      rw [ht, modRed_reduction, hheld]
    have hone : (r.addResult first p.payload).result = [(first, p.payload)] := by simp [Reduction.addResult, hresult, mset, merase, mput]
    obtain ⟨fl, data, scales, hfinish⟩ := finishReduction_whole hred hstarted hone hwhole
    have hexec := exec_redResult h hof
    have hunits : t.sched.units = s.sched.units := by rw [ht]; rfl
    obtain ⟨shares, hshares⟩ := shareCount_one (s := t) (n := r.unit) (by rw [hunits]; exact hx) hslots
    have hshares' : shareCount t (r.addResult first p.payload).unit = shares + 1 := hshares
    rw [← ht, hfinish, hshares'] at hexec
    obtain ⟨v, hv⟩ : ∃ v, v = noteUnit (r.addResult first p.payload).unit (r.addResult first p.payload).share fl t := ⟨_, rfl⟩
    rw [← hv] at hexec
    have hcluster (g : Nat) : clusterOf t g = clusterOf s g := by rw [ht]; rfl
    have hnoted : SlotTouched hs t v := hv ▸ noteUnit_touched (by rw [hunits]; exact hx) hslots _ fl
    obtain ⟨c', hc', hpc', -⟩ := hnoted.slot c (by rw [hcluster, hc])
    obtain ⟨w, hw⟩ : ∃ w, w = modFab (Fabric.forget k) v := ⟨_, rfl⟩
    have hwcluster (g : Nat) : clusterOf w g = clusterOf v g := by rw [hw]; rfl
    rw [← hw] at hexec
    obtain ⟨d, hd, hwait, hpc, hput⟩ := putAll_touched (m := shares) (r := r.addResult first p.payload) (s := w) data scales
      (by rw [hw]; exact hnoted.units ▸ hunits ▸ hx) hslots (by rw [hwcluster, hc'])
    refine ⟨_, d, hexec, ?_, ?_, hd, hwait, hpc.trans hpc', fun g hg => ?_, ?_, ?_, ?_⟩
    · rw [hput.fab, hw]
      exact (mget_merase _ _ _).trans (if_pos rfl)
    · intro j hj
      have hother : mget t.fab.reductions j = mget s.fab.reductions j := ht ▸ modRed_others _ _ hj
      rw [hput.fab, hw, ← hother, ← hnoted.fab]
      exact (mget_merase _ _ _).trans (if_neg hj)
    · rw [hput.others g hg, hwcluster, hnoted.others g hg, hcluster]
    · rw [hput.hif, hw, modFab_hif, hnoted.hif, ht]
      rfl
    · rw [hput.obj, hw, modFab_obj, hnoted.obj, ht]
      rfl
    · rw [hput.mem, hw, modFab_mem, hnoted.mem, ht]
      rfl
  · intro p r s h hr hstarted
    refine ⟨_, exec_redAbort h, ?_⟩
    rw [dropReduction_unstarted (s := taken { p with ptype := 0x14 } s) hr hstarted]
    exact ⟨mget_mset_same .., rfl⟩
  · intro p r x e y s h hr hstarted hx hk hy hs hc hd
    obtain ⟨z, hz, hended⟩ := failUnit_run_ends (cause := 0x202) (s := modFab
      (Fabric.forget (redKey (p.arg0.toNat % 256) (p.arg1.toNat % 2 ^ 32))) (taken { p with ptype := 0x14 } s)) hx hk hy hs hc hd
    rw [← dropReduction_started (s := taken { p with ptype := 0x14 } s) hr hstarted] at hz
    exact ⟨_, z, exec_redAbort h, dropReduction_none (s := taken { p with ptype := 0x14 } s) hr hstarted, hz, hended⟩

end Sys2Proof.Machine
end

section
/-! PROOFS. A shard query on a collection with no entry node (16 R619; 08 R268). -/

-- One declaration after the other: the stacks of the threads that elaborate so long a text at once pass the check's limit.
set_option Elab.async false

namespace Sys2Proof.Machine

/-- A collection without an entry table for the epoch gives no entry node. -/
theorem entrySelect_noTable {c : Collection} {w : SearchWork} (h : mgetD c.entryTables w.epoch [] = []) : entrySelect c w = [] := by
  simp [entrySelect, h]

theorem selectionRows_search (rows entries nan : Nat) (s : State) :
    (selectionRows rows entries nan s).search.shardWork = s.search.shardWork := by simp [selectionRows]

theorem chargeStage_search (e stage : Nat) (ext : List Nat) (s : State) :
    (chargeStage e stage ext s).search.shardWork = s.search.shardWork := by
  unfold chargeStage chargeSearch
  split
  · simp
  · split
    · simp
    · rfl

/-- A shard's work without an entry node is kept, and waits for no walk. -/
theorem startShard_noEntries {n : Nat} {w : SearchWork} {c : Collection} {s : State} (hc : mget s.obj.collections w.par.coll = some c)
    (hexact : w.exact = false) (hnone : entrySelect c w = []) :
    ∃ y, mget (startShard n w s).search.shardWork n = some y ∧ y.waiting = none := by
  refine ⟨beginPass s.search.nextWait { w with entryNodes := entrySelect c w, heldHere := false }, ?_, ?_⟩
  · unfold startShard
    simp only [hc, hexact, Bool.false_eq_true, if_false, selectionRows_search, chargeStage_search]
    exact mget_mset_same ..
  · simp [beginPass, hnone]

theorem freeTag_congr {s t : State} (h : t.search = s.search) : freeTag t = freeTag s := by
  unfold freeTag
  rw [h]

/-- A query that is not held starts its work at once. -/
theorem exec_shardQuery_starts {p : Packet} {c : Collection} {tag n : Nat} {s : State} (h : ToMe p s)
    (hc : mget s.obj.collections (rd p.payload 0 4) = some c) (htag : freeTag s = some tag) (hdel : c.deleted = false)
    (hdim : rd p.payload 20 2 = c.desc.dim) (hhold : s.search.hold = false)
    (hknown : ((filterIds ((p.payload.drop 24).take 16)).all fun i => match mget s.obj.filters i with
      | some f => f.coll == rd p.payload 0 4 | none => false) = true) (hn : lowestFree s.search.shardWork 16384 = some n) :
    ∃ v t, exec (.shardQuery p) s = .next (startShard n v t) ∧ t.obj = s.obj ∧ v.par = shardPar p.payload ∧
      v.exact = usesExact s c ∧ v.epoch = c.epoch := by
  obtain ⟨t, ht⟩ : ∃ t, t = taken { p with ptype := 0x18 } s := ⟨_, rfl⟩
  have hc' : mget t.obj.collections (rd p.payload 0 4) = some c := ht ▸ hc
  have hobj : t.obj = s.obj := by rw [ht]; rfl
  have hsearch : t.search = s.search := by rw [ht]; rfl
  have htag' : freeTag t = some tag := (freeTag_congr hsearch).trans htag
  have hhold' : t.search.hold = false := ht ▸ hhold
  have hn' : lowestFree t.search.shardWork 16384 = some n := by rw [hsearch]; exact hn
  have hexec : exec (.shardQuery p) s = .next (shardQuery { p with ptype := 0x18 } t) := by
    rw [ht]
    exact congrArg Host.Outcome.next (arrive_toMe h 0x18 shardQuery)
  rw [hexec]
  simp only [shardQuery, hc', htag', hdel, hdim, hhold', hn', Option.getD_some, bne_self_eq_false, Bool.or_false, Bool.false_or]
  rw [if_neg ?_]
  · exact ⟨_, _, rfl, hobj, rfl, by rw [ht]; rfl, rfl⟩
  · rw [hobj]
    intro hbad
    simp only [Bool.not_eq_true'] at hbad
    exact Bool.false_ne_true (hbad.symm.trans hknown)

theorem freeTag_first {s : State} (h : s.search.tags = []) (ho : s.search.owed = []) : freeTag s = some 0 := by
  have hfirst (n : Nat) : ((List.range (n + 1)).find? fun t => !mhas s.search.tags t && !s.search.owed.any fun o => o.1 == t) =
      some 0 := by simp [List.range_succ_eq_map, h, ho, mhas, mget]
  unfold freeTag
  rw [hfirst 16383]

theorem lowestFree_nil {α : Type} (n : Nat) : lowestFree (α := α) [] (n + 1) = some 0 := by
  simp [lowestFree, List.range_succ_eq_map, mhas, mget]

/-- A collection of 32 dimensions just created: no commit has made it an entry table. -/
def newCollection : Collection where
  desc := { shared := true, privileged := false, metric := 0, vecFmt := 0, sketchBits := 0, inlineBits := 0, dim := 32, pqM := 0,
            degree := 0, owner := 0, idBase := 0, idSpan := 0, textMax := 0, ingestQueue := 0 }
  rotation := []
  codebooks := []
  centroids := []
  nextId := 0

/-- An ADMITTED module that holds it. -/
def holdsNew : State := { fab := { state := .admitted }, obj := { collections := [(0, newCollection)] } }

/-- A query of module 1 for one walk of it. -/
def queryNew : Packet where
  ptype := 0x18
  dst := holdsNew.fab.id
  src := 1
  payload := [0, 0, 0, 0, 1] ++ List.replicate 15 0 ++ [32] ++ List.replicate 43 0

/-- Refutes O44: a query on a collection that was just created finds no entry node, so its work is kept but waits for no walk. -/
theorem not_shards : ¬ Obligations.shards := by
  rintro ⟨h, -⟩
  have hcoll : rd queryNew.payload 0 4 = 0 := by decide
  have hc : mget holdsNew.obj.collections (rd queryNew.payload 0 4) = some newCollection := by rw [hcoll]; rfl
  have htag : freeTag holdsNew = some 0 := freeTag_first rfl rfl
  have hknown : ((filterIds ((queryNew.payload.drop 24).take 16)).all fun i => match mget holdsNew.obj.filters i with
      | some f => f.coll == rd queryNew.payload 0 4 | none => false) = true := by decide
  obtain ⟨v, t, hstart, hobj, hpar, hexact, hepoch⟩ := exec_shardQuery_starts (p := queryNew) (s := holdsNew) ⟨rfl, rfl, rfl⟩ hc htag rfl
    (by decide) rfl hknown (lowestFree_nil _)
  obtain ⟨u, w, hexec, hwork, -, -, -, -, -, -, hwait, -⟩ := h queryNew newCollection 0 0 holdsNew ⟨rfl, rfl, rfl⟩ hc htag rfl
    (by decide) rfl hknown (lowestFree_nil _)
  obtain ⟨y, hy, hynone⟩ := startShard_noEntries (n := 0) (w := v) (s := t) (by rw [hobj, hpar]; exact hc) hexact
    (entrySelect_noTable (by rw [hepoch]; rfl))
  obtain rfl : startShard 0 v t = u := Host.Outcome.next.inj (hstart.symm.trans hexec)
  obtain rfl : y = w := Option.some.inj (hy.symm.trans hwork)
  exact Option.some_ne_none _ ((hwait rfl).symm.trans hynone)

end Sys2Proof.Machine
end

section
/-! PROOFS. Power-up: the always-on domain, the starter, the main input, and the phases of bring-up (17 R632 to R636, R645; 18 R679, R688;
21 R755, R764). -/

-- One declaration after the other: the stacks of the threads that elaborate so long a text at once pass the check's limit.
set_option Elab.async false

namespace Sys2Proof.Machine

/-! ### Auxiliary power (17 R632; 18 R688) -/

theorem resetModule_hasReset (cause : Nat) (aux : Bool) (s : State) : HasReset cause s (resetModule (some cause) aux s) :=
  ⟨rfl, rfl, rfl, rfl, rfl, rfl, rfl, rfl, rfl⟩

/-- What the security unit holds besides its configuration and what is sealed of it. -/
def Sec.live (c : Sec) : Bool × Map SpdmSession × Bool := (c.identityOk, c.sessions, c.unlocked)

theorem raiseFloorTo_live (kind v : Nat) (c : Sec) : (raiseFloorTo kind v c).live = c.live := by
  unfold raiseFloorTo
  split <;> rfl

theorem raiseSeqTo_live (n : Nat) (c : Sec) : (raiseSeqTo n c).live = c.live := by
  unfold raiseSeqTo
  split <;> rfl

/-- The configuration record of the board may have been taken over (18 R688): what the security unit holds of it, the recorder, and what an
event leaves of the host interface may differ, and nothing else. -/
structure Adopts (s u : State) : Prop where
  boot : u.boot = s.boot
  gen : u.gen = s.gen
  search : u.search = s.search
  sched : u.sched = s.sched
  obj : u.obj = s.obj
  flash : u.flash = s.flash
  live : u.sec.live = s.sec.live
  qps : u.hif.qps = s.hif.qps
  hostMem : u.hif.hostMem = s.hif.hostMem

theorem adoptConfig_adopts (s : State) : Adopts s (adoptConfig s) := by
  unfold adoptConfig
  split
  · exact ⟨rfl, rfl, rfl, rfl, rfl, rfl, (raiseFloorTo_live _ _ _).trans (raiseSeqTo_live _ _), rfl, rfl⟩
  · constructor <;> simp [Sec.live]

theorem Adopts.trans {s t u : State} (h : Adopts s t) (k : Adopts t u) : Adopts s u :=
  ⟨k.boot.trans h.boot, k.gen.trans h.gen, k.search.trans h.search, k.sched.trans h.sched, k.obj.trans h.obj,
    k.flash.trans h.flash, k.live.trans h.live, k.qps.trans h.qps, k.hostMem.trans h.hostMem⟩

theorem Adopts.sessions {s u : State} (h : Adopts s u) : u.sec.sessions = s.sec.sessions :=
  congrArg (fun x : Bool × Map SpdmSession × Bool => x.2.1) h.live

/-- A state that has been reset stays so when a configuration is taken over. -/
theorem Adopts.hasReset {cause : Nat} {s t u : State} (h : HasReset cause s t) (k : Adopts t u) : HasReset cause s u := by
  rw [HasReset, k.boot, k.gen, k.search, k.sched, k.sessions, k.qps, k.hostMem]
  exact h

/-- The always-on domain as its power comes (17 R632). -/
def Boot.powered (b : Boot) : Boot :=
  { b with aux := true, hv := false, fwOk := false, mgmtRun := false, shutdown := false, limits := [], resetLow := false }

/-- The module reset by its power, with what its identity check found. -/
def poweredUp (ok : Bool) (s : State) : State :=
  modSec (fun c => { c with identityOk := ok }) (resetModule (some 0) false (modBoot Boot.powered s))

theorem exec_auxPowerApplied {ok : Bool} {s : State} (haux : s.boot.aux = false) (hhand : s.boot.handover = false) :
    exec (.auxPowerApplied ok) s = .next (adoptConfig (whenS (!ok) (recordEvent 2 12 0x0701 0 []) (poweredUp ok s))) := by
  refine congrArg Host.Outcome.next ((if_neg (by simp [haux])).trans ?_)
  exact if_neg (by simp [hhand])

/-- Without an identity the check is recorded. -/
theorem noIdentity_adopts (ok : Bool) (s : State) : Adopts s (whenS (!ok) (recordEvent 2 12 0x0701 0 []) s) := by
  cases ok with
  | true => exact ⟨rfl, rfl, rfl, rfl, rfl, rfl, rfl, rfl, rfl⟩
  | false => constructor <;> simp [whenS, Sec.live]

/-! ### The stage (17 R633, R645; 21 R755) -/

/-- The supply may have come on: the stage, the phase and the domains may differ, the phase is none before. -/
theorem enableStage_only (s : State) : ∃ hv phase domain pll, s.boot.phase ≤ phase ∧
    enableStage s = modBoot (fun b => { b with hv := hv, phase := phase, domain := domain, pll := pll }) s := by
  unfold enableStage
  dsimp only
  split
  · split
    · exact ⟨_, _, _, _, Nat.le_max_left .., rfl⟩
    · split
      · exact ⟨_, _, _, _, Nat.le_refl _, rfl⟩
      · exact ⟨_, _, _, _, Nat.le_refl _, rfl⟩
  · exact ⟨_, _, _, _, Nat.le_refl _, rfl⟩

/-- With verified firmware and both inputs, and nothing that holds the stage off, the supply comes on and phase 3 is reached. -/
theorem enableStage_on {s : State} (haux : s.boot.aux = true) (hmain : s.boot.main = true) (hhand : s.boot.handover = false)
    (hshut : s.boot.shutdown = false) (hlow : s.boot.resetLow = false) (hfw : s.boot.fwOk = true) :
    enableStage s = modBoot (fun b => { b with hv := true, phase := max b.phase 3 }) s := by
  simp [enableStage, haux, hmain, hhand, hshut, hlow, hfw]

theorem enableStage_noAux {s : State} (haux : s.boot.aux = false) : enableStage s = s := by simp [enableStage, haux]

/-- The main input is there (21 R755). -/
def mainThere (s : State) : State :=
  modBoot (fun b => { b with main := true, mainBack := b.handover }) (advanceTo (now s + 50000000) s)

theorem mainThere_boot (s : State) : (mainThere s).boot = { (advanceTo (now s + 50000000) s).boot with
    main := true, mainBack := (advanceTo (now s + 50000000) s).boot.handover } := rfl

theorem BootOnly.modBoot {s t : State} (h : BootOnly s t) (f : Boot → Boot) : BootOnly s (modBoot f t) := by
  rw [BootOnly] at h ⊢
  rw [h]
  rfl

theorem mainThere_bootOnly (s : State) : BootOnly s (mainThere s) := (advanceTo_bootOnly (now s + 50000000) s).modBoot _

theorem exec_mainInputPresent (s : State) : exec .mainInputPresent s = .next (enableStage (mainThere s)) := rfl

/-! ### Keys at phase 4 (18 R679) -/

/-- The keys of one owner are opened from its key entries. -/
def openKey (t : State) (x : Nat × List KeyEntry) : State := match bestEntry x.2 with
  | some e => modEntries x.1 (fun _ => [e]) (modSec (fun c => { c with keySets := mset c.keySets x.1 e.set }) t)
  | none => modSec (fun c => { c with keyFlash := merase c.keyFlash x.1 }) t

theorem openKeys_eq (s : State) : openKeys s = foldS s.sec.keyFlash openKey s := rfl

/-- An owner's keys are open with one entry. -/
def KeyOpen (a : Nat) (e : KeyEntry) (s : State) : Prop := mget s.sec.keySets a = some e.set ∧ mget s.sec.keyFlash a = some [e]

theorem openKey_opens {l : List KeyEntry} {e : KeyEntry} (h : bestEntry l = some e) (a : Nat) (s : State) :
    KeyOpen a e (openKey s (a, l)) := by
  simp only [openKey, h, KeyOpen]
  exact ⟨mget_mset_same .., mget_mmod_same _ _ [] fun _ => [e]⟩

theorem openKey_keeps {a : Nat} {e : KeyEntry} {x : Nat × List KeyEntry} {s : State} (hx : x.1 ≠ a) (h : KeyOpen a e s) :
    KeyOpen a e (openKey s x) := by
  obtain ⟨hset, hflash⟩ := h
  unfold openKey
  split
  next b _ => exact ⟨(mget_mset_other _ _ _ _ hx.symm).trans hset, (mget_mmod_other _ _ _ [] (fun _ => [b]) hx.symm).trans hflash⟩
  next => exact ⟨hset, (mget_merase _ _ _).trans ((if_neg hx.symm).trans hflash)⟩

theorem openKey_only (x : Nat × List KeyEntry) (s : State) :
    ∃ sets flash, openKey s x = modSec (fun c => { c with keySets := sets, keyFlash := flash }) s := by
  unfold openKey
  split
  · exact ⟨_, _, rfl⟩
  · exact ⟨_, _, rfl⟩

theorem openKeys_only (s : State) :
    ∃ sets flash, openKeys s = modSec (fun c => { c with keySets := sets, keyFlash := flash }) s := by
  rw [openKeys_eq]
  refine foldS_inv (fun t => ∃ sets flash, t = modSec (fun c => { c with keySets := sets, keyFlash := flash }) s) _ _ _ ?_ ⟨_, _, rfl⟩
  rintro t x ⟨sets, flash, rfl⟩
  obtain ⟨sets', flash', h⟩ := openKey_only x (modSec (fun c => { c with keySets := sets, keyFlash := flash }) s)
  exact ⟨sets', flash', h⟩

/-- An owner whose key entries are all the same list is opened with the best of them. -/
theorem foldS_openKey {a : Nat} {l : List KeyEntry} {e : KeyEntry} (hbest : bestEntry l = some e) (m : Map (List KeyEntry)) (s : State)
    (hall : ∀ x ∈ m, x.1 = a → x.2 = l) (hopen : (a, l) ∈ m ∨ KeyOpen a e s) : KeyOpen a e (foldS m openKey s) := by
  induction m generalizing s with
  | nil => exact hopen.resolve_left List.not_mem_nil
  | cons x m ih =>
    refine ih _ (fun y hy => hall y (List.mem_cons_of_mem _ hy)) ?_
    by_cases hx : x.1 = a
    · have heq : x = (a, l) := Prod.ext hx (hall x List.mem_cons_self hx)
      exact .inr (heq ▸ openKey_opens hbest a s)
    · rcases hopen with hmem | hopen
      · rcases List.mem_cons.mp hmem with h | h
        · exact absurd (congrArg Prod.fst h).symm hx
        · exact .inl h
      · exact .inr (openKey_keeps hx hopen)

/-- Phase 4 reached: the domains and clocks are up, and the host link trains (17 R634). -/
def phase4 (s : State) : State :=
  modHif (fun h => { h with link := hostLinkWord }) (modBoot (fun b => { b with phase := 4, domain := 0x1FFFFFFFFFF, pll := 0x1FFF }) s)

theorem phase4_sec (s : State) : (phase4 s).sec = s.sec := rfl

theorem dropMappings_sec (s : State) : (dropMappings s).sec = s.sec := rfl

theorem NewKeys.congr {a : Nat} {s s' t t' : State} (h : NewKeys a s t) (hs : s'.sec = s.sec) (ht : t'.sec = t.sec) : NewKeys a s' t' := by
  rw [NewKeys, hs, ht]
  exact h

theorem exec_bringupPhase4 {s : State} (hhv : s.boot.hv = true) (hfw : s.boot.fwOk = true) (hphase : s.boot.phase = 3)
    (hhand : s.boot.handover = false) : exec .bringupPhase4 s = .next (phase4 (bringUpKeys (makeBoardKeys s))) :=
  congrArg Host.Outcome.next (if_pos (by simp [hhv, hfw, hphase, hhand]))

theorem bringUpKeys_noIdentity {s : State} (h : s.sec.identityOk = false) : bringUpKeys s = s := by simp [bringUpKeys, h]

theorem bringUpKeys_opened {s : State} (hid : s.sec.identityOk = true) (h : mhas (openKeys s).sec.keySets 4096 = true) :
    bringUpKeys s = openKeys s := by simp [bringUpKeys, hid, h]

theorem bringUpKeys_fresh {s : State} (hid : s.sec.identityOk = true) (h : mhas (openKeys s).sec.keySets 4096 = false) :
    bringUpKeys s = freshKeys 4096 (dropMappings (openKeys s)) := by simp [bringUpKeys, hid, h]

/-! ### Stacks and channels at phase 5 (17 R635, R636) -/

section
variable (s : State)

theorem writeColl_mem (id : Nat) (f : Collection → Collection) : (writeColl id f s).mem = s.mem := by
  unfold writeColl
  split
  · simp [modColl]
  · rfl

theorem abortSession_mem (id status : Nat) (written : Bool) : (abortSession id status written s).mem = s.mem := by
  unfold abortSession
  split
  · rfl
  · split
    · rfl
    next c _ _ x _ =>
      have hlog (t : State) : (whenS written (acceptWrites (logWrites c x.epoch)) t).mem = t.mem := by
        unfold whenS
        split
        · exact acceptWrites_mem ..
        · rfl
      dsimp only
      split
      · rw [complete_mem, hlog, writeColl_mem]
      · rw [hlog, writeColl_mem]

theorem foldS_recordEvent_mem (sev source code inst : Nat) (l : List Nat) :
    (foldS l (fun t id => recordEvent sev source code inst [id] t) s).mem = s.mem := by
  induction l generalizing s with
  | nil => rfl
  | cons x l ih => rw [foldS_cons, ih, recordEvent_mem]

theorem replayDumps_mem (dump : Bool) : (replayDumps dump s).mem = s.mem := by
  have hrecorded (b : Bool) (pl : List Nat) (t : State) : (whenS b (recordEvent 0 9 0x0304 0 pl) t).mem = t.mem := by
    unfold whenS
    split
    · exact recordEvent_mem ..
    · rfl
  unfold replayDumps
  extract_lets had s1 d lost s2 ok s3 s4
  have hdrawn : (if s.boot.cut then d.2 else s1).mem = s.mem := by
    split
    · exact (congrArg State.mem (drawFree_snd s1)).trans rfl
    · rfl
  have h2 : s2.mem = s.mem := (hrecorded _ _ _).trans hdrawn
  have h3 : s3.mem = s2.mem := foldS_keeps State.mem _ _ _ fun t _ => abortSession_mem t _ _ _
  have h4 : s4.mem = s3.mem := foldS_recordEvent_mem ..
  rw [modBoot_mem, h4, h3, h2]

theorem takeShare_mem : (takeShare s).mem = s.mem := by
  unfold takeShare
  split
  · rfl
  · split
    · rfl
    · split
      · rfl
      · exact recordEvent_mem ..

/-- A stack is retired and serves no more. -/
def StackOut (n : Nat) (s : State) : Prop := (stackOf s n).retired = true ∧ (stackOf s n).ok = false

theorem stackOf_modStack_other {n j : Nat} (f : Stack → Stack) (h : j ≠ n) : stackOf (modStack n f s) j = stackOf s j :=
  mgetD_mmod_other _ _ _ _ _ _ h

theorem retireStack_stackOf (n j : Nat) : stackOf (retireStack n s) j =
    if j = n then { stackOf s j with ok := false, retiring := false, retired := true } else stackOf s j := by
  rw [retireStack, stackOf_congr (congrArg Mem.stackTab (recordEvent_mem ..))]
  split
  next h =>
    subst h
    exact stackOf_modStack_same ..
  next h => exact stackOf_modStack_other _ _ h

theorem retireStack_out (n : Nat) : StackOut n (retireStack n s) := by
  rw [StackOut, retireStack_stackOf, if_pos rfl]
  exact ⟨rfl, rfl⟩

theorem retireStack_keepsOut (n j : Nat) (h : StackOut j s) : StackOut j (retireStack n s) := by
  rw [StackOut, retireStack_stackOf]
  split
  · exact ⟨rfl, rfl⟩
  · exact h

/-- A number is among those put into a list, or was before. -/
theorem mem_foldl_insertNum {n : Nat} {k a : List Nat} (h : n ∈ a ∨ n ∈ k) : n ∈ k.foldl (fun a n => insertNum n a) a := by
  induction k generalizing a with
  | nil => exact h.resolve_right List.not_mem_nil
  | cons x k ih =>
    refine ih ?_
    rcases h with h | h
    · exact .inl (mem_insertNum_of_mem h)
    · rcases List.mem_cons.mp h with rfl | h
      · exact .inl (mem_insertNum _ _)
      · exact .inr h

theorem mem_cleanNums {b n : Nat} {l : List Nat} (hn : n ∈ l) (hb : n < b) : n ∈ cleanNums b l :=
  mem_foldl_insertNum (.inr (List.mem_filter.mpr ⟨hn, by simpa using hb⟩))

/-- One channel is opened, unless it is retired or its hub cannot be reached. -/
def openChannel (t : State) (n : Nat) : State :=
  if (channelOf t n).retired || hubUnreachable t (n / 8) then t else modChannel n (fun c => { c with ok := true }) t

/-- A channel in use whose hub can be reached is open. -/
def ChannelOpen (n : Nat) (s : State) : Prop :=
  (channelOf s n).retired = false → hubUnreachable s (n / 8) = false → (channelOf s n).ok = true

theorem openChannel_opens (n : Nat) : ChannelOpen n (openChannel s n) := by
  unfold openChannel
  split
  next h =>
    intro hr hh
    simp [hr, hh] at h
  next =>
    intro _ _
    rw [channelOf_modChannel, if_pos rfl]

theorem openChannel_keeps (j n : Nat) (h : ChannelOpen j s) : ChannelOpen j (openChannel s n) := by
  unfold openChannel
  split
  · exact h
  · intro hr hh
    rw [channelOf_modChannel] at hr ⊢
    split
    · rfl
    next hj =>
      rw [if_neg hj] at hr
      have hhub := hubUnreachable_congr (s := s) (u := modChannel n (fun c => { c with ok := true }) s) rfl (j / 8)
      exact h hr (hhub.symm.trans hh)

theorem openChannels_opens {n : Nat} (hn : n < 64) : ChannelOpen n (openChannels s) :=
  foldS_forall (P := ChannelOpen) openChannel_opens (fun t x y => openChannel_keeps t y x) _ s n (List.mem_range.mpr hn)

theorem openChannels_mem : (openChannels s).mem = s.mem := by
  refine foldS_keeps State.mem _ _ s fun t n => ?_
  split <;> rfl

end

/-- The stacks that failed are retired, and the channels opened (17 R635). -/
def phase5 (r : Phase5) (s : State) : State :=
  let s1 := foldS (r.clusterFaults.filter fun c => decide (c.1 < 320)) (fun t c => selfTest c.1 c.2.1 c.2.2 t) s
  openChannels (takeShare (replayDumps r.dump
    (foldS ((cleanNums 20 r.failed).filter fun n => !(stackOf s n).retired) (fun t n => retireStack n t) s1)))

theorem exec_bringupPhase5 {r : Phase5} {s : State} (hphase : s.boot.phase = 4) (hhand : s.boot.handover = false) :
    exec (.bringupPhase5 r) s = .next (modBoot (fun b => { b with phase := 5 }) (phase5 r s)) :=
  congrArg Host.Outcome.next (if_pos ⟨hphase, by simp [hhand]⟩)

theorem phase5_stackOut {r : Phase5} {n : Nat} {s : State} (hn : n ∈ r.failed) (hlt : n < 20) (hr : (stackOf s n).retired = false) :
    StackOut n (phase5 r s) := by
  have hout (t : State) := foldS_forall (P := StackOut) (fun t x => retireStack_out t x) (fun t x y => retireStack_keepsOut t x y)
    ((cleanNums 20 r.failed).filter fun n => !(stackOf s n).retired) t n (List.mem_filter.mpr ⟨mem_cleanNums hn hlt, by simp [hr]⟩)
  unfold phase5
  dsimp only
  rw [StackOut, stackOf_congr (congrArg Mem.stackTab ((openChannels_mem _).trans ((takeShare_mem _).trans (replayDumps_mem _ _))))]
  exact hout _

/-! ### A stack trained (17 R636; 21 R764) -/

/-- A stack trained serves with every spare row it has. -/
def Stack.train (n : Nat) (k : Stack) : Stack := { k with ok := true, spares := (Config.spareRows n).toNat }

theorem exec_stackTrained {n : Nat} {s : State} (hn : n < 20) (hphase : 5 ≤ s.boot.phase) (hhand : s.boot.handover = false)
    (hr : (stackOf s n).retired = false) (hok : (stackOf s n).ok = false) :
    exec (.stackTrained n) s = .next (moveLines s (modStack n (Stack.train n) s)) :=
  congrArg Host.Outcome.next (if_pos ⟨hn, hphase, by simp [hhand], by simp [hr], by simp [hok]⟩)

theorem moveLines_lines (s0 s : State) : (moveLines s0 s).mem.lines.map Prod.fst = s.mem.lines.map Prod.fst := by
  refine (List.map_map ..).trans (List.map_congr_left fun e _ => ?_)
  dsimp only [Function.comp]
  split <;> rfl

theorem moveLines_stays {s0 s : State} {e : Nat × Line} (he : e ∈ s.mem.lines) (h : lineTweak s0 e.1 = lineTweak s e.1) :
    e ∈ (moveLines s0 s).mem.lines :=
  List.mem_map.mpr ⟨e, he, if_pos (.inr h)⟩

/-- Settles O45: power by the reset it makes, the stage by its conditions, the keys by the owner's one entry that is opened, failed stacks and
channels by what each change of the phase brings about and every later one keeps. -/
theorem powerUp : Obligations.power_up := by
  refine ⟨?_, ?_, ?_, ?_, ?_, ?_, ?_, ?_, ?_, ?_, ?_, ?_⟩
  · intro ok s haux hhand
    have hadopts := (noIdentity_adopts ok (poweredUp ok s)).trans (adoptConfig_adopts _)
    have hreset : HasReset 0 s (poweredUp ok s) := ⟨rfl, rfl, rfl, rfl, rfl, rfl, rfl, rfl, rfl⟩
    refine ⟨_, exec_auxPowerApplied haux hhand, ?_, ?_, ?_, ?_, hadopts.hasReset hreset⟩
    · rw [hadopts.boot]
      rfl
    · rw [hadopts.boot]
      rfl
    · rw [hadopts.boot]
      rfl
    · exact congrArg Prod.fst hadopts.live
  · exact fun ok s haux => congrArg Host.Outcome.next (if_pos haux)
  · intro s haux hphase hlevel
    obtain ⟨hv, phase, domain, pll, hle, hstage⟩ := enableStage_only (modBoot (fun b => { b with fwOk := true, mgmtRun := true, phase := 2 }) s)
    have hexec : exec (.starterVerify 0) s = .next (enableStage (modBoot (fun b => { b with fwOk := true, mgmtRun := true, phase := 2 }) s)) :=
      congrArg Host.Outcome.next (if_pos (by simp [haux, hphase, hlevel]))
    rw [hstage] at hexec
    exact ⟨_, hexec, rfl, rfl, hlevel, hle, rfl⟩
  · intro v s hv0 haux hphase hlevel
    obtain ⟨hv, phase, domain, pll, hle, hstage⟩ := enableStage_only (modBoot (fun b => { b with level := 3 }) s)
    have hexec : exec (.starterVerify v) s = .next (enableStage (modBoot (fun b => { b with level := 3 }) s)) := by
      refine congrArg Host.Outcome.next ((if_pos (by simp [haux, hphase, hlevel])).trans ?_)
      simp only [hv0, if_false]
    rw [hstage] at hexec
    exact ⟨_, hexec, rfl, rfl, rfl, rfl⟩
  · intro s haux hhand hshut hlow hfw
    have hboot := mainThere_boot s
    have hstage := enableStage_on (s := mainThere s) (by simp [hboot, advanceTo_boot, haux]) (by simp [hboot])
      (by simp [hboot, advanceTo_boot, hhand]) (by simp [hboot, advanceTo_boot, hshut]) (by simp [hboot, advanceTo_boot, hlow])
      (by simp [hboot, advanceTo_boot, hfw])
    have hexec := exec_mainInputPresent s
    rw [hstage] at hexec
    exact ⟨_, hexec, by rw [modBoot_boot, hboot], rfl, Nat.le_max_right .., (mainThere_bootOnly s).modBoot _⟩
  · intro s haux
    have hboot := mainThere_boot s
    have hexec := exec_mainInputPresent s
    rw [enableStage_noAux (by simp [hboot, advanceTo_boot, haux])] at hexec
    exact ⟨_, hexec, by rw [hboot], by simp [hboot, advanceTo_boot], mainThere_bootOnly s⟩
  · intro s hhv hfw hphase hhand hid
    have hexec := exec_bringupPhase4 hhv hfw hphase hhand
    rw [bringUpKeys_noIdentity (s := makeBoardKeys s) hid] at hexec
    exact hexec
  · intro l e s hhv hfw hphase hhand hid hl hall hbest
    obtain ⟨sets, flash, honly⟩ := openKeys_only (makeBoardKeys s)
    have hopen : KeyOpen 4096 e (openKeys (makeBoardKeys s)) :=
      foldS_openKey hbest s.sec.keyFlash (makeBoardKeys s) hall (.inl (mem_of_mget hl))
    have hexec := exec_bringupPhase4 hhv hfw hphase hhand
    rw [bringUpKeys_opened (s := makeBoardKeys s) hid (by rw [mhas, hopen.1]; rfl)] at hexec
    rw [honly] at hexec hopen
    obtain ⟨hset, hflash⟩ := hopen
    exact ⟨_, hexec, rfl, hset, hflash, rfl, rfl⟩
  · intro s hhv hfw hphase hhand hid hflash hsets
    have hnone : openKeys (makeBoardKeys s) = makeBoardKeys s := by
      have hflash' : (makeBoardKeys s).sec.keyFlash = [] := hflash
      rw [openKeys_eq, hflash', foldS_nil]
    have hhas : mhas (openKeys (makeBoardKeys s)).sec.keySets 4096 = false := by
      have hsets' : (makeBoardKeys s).sec.keySets = [] := hsets
      rw [hnone, hsets']
      rfl
    have hexec := exec_bringupPhase4 hhv hfw hphase hhand
    rw [bringUpKeys_fresh (s := makeBoardKeys s) hid hhas, hnone] at hexec
    have hkeys := (freshKeys_newKeys 4096 (dropMappings (makeBoardKeys s))).congr (dropMappings_sec _).symm (phase4_sec _)
    have hframe := freshKeys_frame 4096 (dropMappings (makeBoardKeys s))
    refine ⟨_, hexec, rfl, ?_, ?_, ?_, ?_, hkeys⟩ <;> rw [hframe] <;> rfl
  · intro r s hphase hhand
    have hexec := exec_bringupPhase5 (r := r) hphase hhand
    have hstacks (n : Nat) (hn : n ∈ r.failed) (hlt : n < 20) (hr : (stackOf s n).retired = false) := phase5_stackOut hn hlt hr
    have hopen (n : Nat) (hn : n < 64) : ChannelOpen n (phase5 r s) := openChannels_opens _ hn
    generalize phase5 r s = t at hexec hstacks hopen
    refine ⟨_, hexec, rfl, hstacks, fun n hn hr hh => ?_⟩
    have hhub := hubUnreachable_congr (s := t) (u := modBoot (fun b => { b with phase := 5 }) t) rfl (n / 8)
    exact hopen n hn hr (hhub.symm.trans hh)
  · intro n s hn hphase hhand hr hok
    have hstacks (j : Nat) : stackOf (moveLines s (modStack n (Stack.train n) s)) j = stackOf (modStack n (Stack.train n) s) j := rfl
    have htrained := stackOf_modStack_same n (Stack.train n) s
    refine ⟨_, exec_stackTrained hn hphase hhand hr hok, ?_, fun k hk => ?_, ?_, moveLines_lines _ _, fun e he h => ?_, rfl⟩
    · rw [stackServes, hstacks, htrained]
      simp [Stack.train, hr]
    · rw [hstacks]
      exact stackOf_modStack_other _ _ hk
    · rw [hstacks, htrained]
      rfl
    · exact moveLines_stays he h
  · intro n s hr
    refine congrArg Host.Outcome.next (if_neg ?_)
    simp [hr]

end Sys2Proof.Machine
end

section
/-! PROOFS. The catalogue loaded again, PROOFING, verification and FULL (17 R637 to R644; 18 R674). -/

-- One declaration after the other: the stacks of the threads that elaborate so long a text at once pass the check's limit.
set_option Elab.async false

namespace Sys2Proof.Machine

/-! ### Revoked images (18 R674) -/

theorem recordEvent_only (sev source code inst : Nat) (pl : List Nat) (s : State) : ∃ m g r,
    recordEvent sev source code inst pl s = { s with mgmt := m, hif := g, regs := r } ∧ s.mgmt.lastSeq < m.lastSeq :=
  ⟨_, _, _, recordFull_mgmtOnly s 0x61 sev source code inst none pl, recordEvent_lastSeq_lt ..⟩

/-- One image is dropped from the catalogue, and recorded. -/
def dropImage (h : Nat) (s : State) : State :=
  recordEvent 2 12 0x0703 0 [h] (modObj (fun o => { o with images := merase o.images h }) s)

theorem dropImage_only (h : Nat) (s : State) : ∃ m g r, dropImage h s =
    { s with obj := { s.obj with images := merase s.obj.images h }, mgmt := m, hif := g, regs := r } :=
  ⟨_, _, _, recordFull_mgmtOnly (modObj (fun o => { o with images := merase o.images h }) s) 0x61 2 12 0x0703 0 none [h]⟩

/-- Images dropped one after the other are gone, and the others stay. -/
theorem dropImages_only (l : List Nat) (s : State) : ∃ i m g r, foldS l (fun t h => dropImage h t) s =
    { s with obj := { s.obj with images := i }, mgmt := m, hif := g, regs := r } ∧
      ∀ j, mget i j = if j ∈ l then none else mget s.obj.images j := by
  induction l generalizing s with
  | nil => exact ⟨_, _, _, _, rfl, fun j => (if_neg List.not_mem_nil).symm⟩
  | cons h l ih =>
    obtain ⟨m, g, r, hdrop⟩ := dropImage_only h s
    obtain ⟨i, m', g', r', hfold, himages⟩ := ih (dropImage h s)
    rw [hdrop] at hfold himages
    refine ⟨i, m', g', r', by rw [foldS_cons, hdrop, hfold], fun j => ?_⟩
    rw [himages, mget_merase]
    by_cases hj : j = h
    · simp [hj]
    · simp [hj]

/-- The images of a list of revoked ones that are there. -/
def revokedHere (rv : List Nat) (s : State) : List Nat :=
  if (revokedKeys s).isEmpty then [] else rv.filter fun h => mhas s.obj.images h

theorem exec_catalogueReload {rv : List Nat} {s : State} (hphase : 5 ≤ s.boot.phase) (hstack : anyStack s = true)
    (hhand : s.boot.handover = false) (hreloaded : s.boot.reloaded = false) : exec (.catalogueReload rv) s =
    .next (foldS (revokedHere rv s) (fun t h => dropImage h t) (modBoot (fun b => { b with reloaded := true, phase := 6 }) s)) :=
  congrArg Host.Outcome.next (if_pos ⟨hphase, hstack, by simp [hhand], by simp [hreloaded]⟩)

/-! ### Service levels (17 R638 to R644) -/

/-- A change of level is recorded, and leaves the rest. -/
theorem setLevel_only (n : Nat) (s : State) : ∃ m g r,
    setLevel n s = { s with boot := { s.boot with level := n }, mgmt := m, hif := g, regs := r } ∧ s.mgmt.lastSeq < m.lastSeq :=
  recordEvent_only 0 11 0x0601 0 [n] (modBoot (fun b => { b with level := n }) s)

/-- What a module in PROOFING has of its clock. -/
def Boot.capped (on : Bool) (b : Boot) : Boot := { b with clockCap := on }

theorem exec_proofingBegin {s : State} (hlevel : s.boot.level = 0) (hrun : s.boot.mgmtRun = true) (hphase : 5 ≤ s.boot.phase)
    (hstack : anyStack s = true) (hhand : s.boot.handover = false) (hid : s.sec.identityOk = true) (hconfig : s.sec.config ≠ none)
    (hlocked : s.sec.unlocked = false) : exec .proofingBegin s = .next (setLevel 1 (modBoot (Boot.capped true) s)) :=
  congrArg Host.Outcome.next (if_pos ⟨hlevel, hrun, hphase, hstack, by simp [hhand], hid, Option.isSome_iff_ne_none.mpr hconfig,
    by simp [hlocked]⟩)

/-- Every image of the catalogue is resident. -/
def Objects.allResident (o : Objects) : Objects := { o with images := mmap o.images fun _ i => { i with resident := true } }

theorem exec_fullBegin {s : State} (hlevel : s.boot.level = 1) (hready : fullReady s = true) :
    exec .fullBegin s = .next (setLevel 2 (modObj Objects.allResident (modBoot (Boot.capped false) s))) :=
  congrArg Host.Outcome.next (if_pos ⟨hlevel, hready⟩)

theorem allResident_resident {h : Nat} {i : Image} {o : Objects} (hi : mget o.allResident.images h = some i) : i.resident = true := by
  rw [Objects.allResident, mget_mmap] at hi
  obtain ⟨j, -, rfl⟩ := Option.map_eq_some_iff.mp hi
  rfl

/-! ### Lost pages of a collection (17 R641) -/

/-- Pages of a collection are lost: those with nodes are marked, and their nodes are rebuilt. -/
theorem losePages_marks (l : List Nat) (c : Collection) : ∃ b r, l.foldl (fun a p => losePage p a) c = { c with badPages := b, rebuild := r } ∧
    (l = [] → b = c.badPages) ∧ (∀ p ∈ c.badPages, p ∈ b) ∧ (∀ n ∈ c.rebuild, n ∈ r) ∧
    ∀ p ∈ l, pageNodes c p ≠ [] → p ∈ b ∧ ∀ n ∈ pageNodes c p, n ∈ r := by
  induction l generalizing c with
  | nil => exact ⟨_, _, rfl, fun _ => rfl, fun _ h => h, fun _ h => h, fun _ h => absurd h List.not_mem_nil⟩
  | cons q l ih =>
    rw [List.foldl_cons]
    by_cases hq : pageNodes c q = []
    · have hsame : losePage q c = c := by simp [losePage, hq]
      obtain ⟨b, r, heq, -, hb, hr, hl⟩ := ih c
      refine ⟨b, r, by rw [hsame, heq], fun h => absurd h (List.cons_ne_nil _ _), hb, hr, fun p hp hne => ?_⟩
      rcases List.mem_cons.mp hp with rfl | hp
      · exact absurd hq hne
      · exact hl p hp hne
    · have hlost : losePage q c = { c with
          badPages := insertNum q c.badPages, rebuild := (pageNodes c q).foldl (fun a n => insertNum n a) c.rebuild } := by
        simp [losePage, hq]
      obtain ⟨b, r, heq, -, hb, hr, hl⟩ := ih (losePage q c)
      rw [hlost] at heq hb hr hl
      refine ⟨b, r, by rw [hlost, heq], fun h => absurd h (List.cons_ne_nil _ _), fun p hp => hb p (mem_insertNum_of_mem hp),
        fun n hn => hr n (mem_foldl_insertNum (.inl hn)), fun p hp hne => ?_⟩
      rcases List.mem_cons.mp hp with rfl | hp
      · exact ⟨hb p (mem_insertNum _ _), fun n hn => hr n (mem_foldl_insertNum (.inr hn))⟩
      · exact hl p hp hne

theorem exec_collectionVerified {k : Nat} {lost : List Nat} {c : Collection} {s : State} (hc : mget s.obj.collections k = some c)
    (hphase : 5 ≤ s.boot.phase) (hpriv : c.desc.privileged = false) (hverified : c.verified = false) :
    exec (.collectionVerified k lost) s = .next (modColl k (fun _ => { lost.foldl (fun a p => losePage p a) c with verified := true }) s) := by
  refine congrArg Host.Outcome.next ?_
  rw [hc]
  exact if_pos ⟨hphase, by simp [hpriv], by simp [hverified]⟩

/-- Settles O46: a reload by the images dropped one after the other, the service levels by their conditions and the record of the change, a
verified collection by its lost pages one after the other. -/
theorem serviceLevels : Obligations.service_levels := by
  refine ⟨?_, ?_, ?_, ?_, ?_, ?_⟩
  · intro rv s hphase hstack hhand hreloaded
    obtain ⟨i, m, g, r, hfold, himages⟩ := dropImages_only (revokedHere rv s) (modBoot (fun b => { b with reloaded := true, phase := 6 }) s)
    have hexec := exec_catalogueReload (rv := rv) hphase hstack hhand hreloaded
    rw [hfold] at hexec
    refine ⟨_, hexec, rfl, fun h hh hkeys => ?_, fun h hh => ?_, rfl⟩
    · refine (himages h).trans ?_
      split
      · rfl
      next hnot =>
        have hgone : h ∉ rv.filter fun h => mhas s.obj.images h := by simpa [revokedHere, hkeys] using hnot
        have hnone : mhas s.obj.images h = false := by simpa [hh] using hgone
        simpa [mhas] using hnone
    · refine (himages h).trans (if_neg ?_)
      unfold revokedHere
      split
      · exact List.not_mem_nil
      next hkeys =>
        rcases hh with hh | hh
        · exact fun hin => hh (List.mem_filter.mp hin).1
        · simp [hh] at hkeys
  · intro s hlevel hrun hphase hstack hhand hid hconfig hlocked
    obtain ⟨m, g, r, honly, hlast⟩ := setLevel_only 1 (modBoot (Boot.capped true) s)
    have hexec := exec_proofingBegin hlevel hrun hphase hstack hhand hid hconfig hlocked
    rw [honly] at hexec
    exact ⟨_, hexec, rfl, hlast, rfl⟩
  · intro s h
    refine congrArg Host.Outcome.next (if_neg ?_)
    rcases h with h | h | h <;> simp [h]
  · intro k lost c s hc hphase hpriv hverified
    obtain ⟨b, r, heq, hnone, -, -, hlost⟩ := losePages_marks lost c
    have hexec := exec_collectionVerified (lost := lost) hc hphase hpriv hverified
    rw [heq] at hexec
    refine ⟨_, { c with verified := true, badPages := b, rebuild := r }, hexec, ?_, rfl, hnone, hlost, fun j hj => ?_, rfl⟩
    · exact (mget_mupd _ _ _ _).trans ((if_pos rfl).trans (by rw [hc, Option.map_some]))
    · exact (mget_mupd _ _ _ _).trans (if_neg hj)
  · intro s hlevel hready
    obtain ⟨m, g, r, honly, hlast⟩ := setLevel_only 2 (modObj Objects.allResident (modBoot (Boot.capped false) s))
    have hexec := exec_fullBegin hlevel hready
    rw [honly] at hexec
    exact ⟨_, hexec, rfl, fun h i hi => allResident_resident hi, hlast, rfl⟩
  · intro s h
    refine congrArg Host.Outcome.next (if_neg ?_)
    rcases h with h | h <;> simp [h]

end Sys2Proof.Machine
end

section
/-! PROOFS. Input losses, hard limits and the hand-over, and the resets of the module (20 R753; 21 R756 to R763, R767 to R770). -/

-- One declaration after the other: the stacks of the threads that elaborate so long a text at once pass the check's limit.
set_option Elab.async false

namespace Sys2Proof.Machine

/-! ### The hand-over begins (21 R759) -/

/-- Every buffered snapshot set is flushed, and nothing but the recorder differs. -/
theorem flushSnaps_only (s : State) : ∃ m, flushSnaps s = { s with mgmt := m } ∧ (∀ x ∈ m.snaps, x.flushed = true) ∧
    s.mgmt.lastSeq ≤ m.lastSeq := by
  have hflushed : ∀ x ∈ s.mgmt.snaps.map fun x => { x with flushed := true }, x.flushed = true := by
    intro x hx
    obtain ⟨y, -, rfl⟩ := List.mem_map.mp hx
    rfl
  unfold flushSnaps wrapArea
  dsimp only
  split
  · exact ⟨_, rfl, hflushed, Nat.le_refl _⟩
  · exact ⟨_, rfl, fun x hx => hflushed x (List.mem_filter.mp hx).1, Nat.le_succ _⟩

/-- The boot state as the hand-over begins. -/
def handoverBoot (b : Boot) : Boot := { b with handover := true, mainBack := false, handoverAt := b.cycles }

/-- The hand-over has begun: what serves is down, what is buffered is flushed, and the objects, requests and keys are as before. -/
structure HandsOver (s u : State) : Prop where
  boot : u.boot = handoverBoot (shedLoad s).boot
  stopped : u.flash.stopped = true
  flushed : ∀ x ∈ u.mgmt.snaps, x.flushed = true
  lastSeq : s.mgmt.lastSeq ≤ u.mgmt.lastSeq
  obj : u.obj = s.obj
  gen : u.gen = s.gen
  sec : u.sec = s.sec

theorem startHandover_handsOver (s : State) : HandsOver s (startHandover s) := by
  obtain ⟨m, hflush, hflushed, hlast⟩ := flushSnaps_only (modFlash (fun f => { f with stopped := true }) (modBoot handoverBoot (shedLoad s)))
  have hstart : startHandover s = _ := hflush
  rw [hstart]
  exact ⟨rfl, rfl, hflushed, hlast, rfl, rfl, rfl⟩

section
variable {s u : State}

theorem HandsOver.handingOver (h : HandsOver s u) : HandingOver u :=
  ⟨by rw [h.boot]; rfl, by rw [h.boot]; rfl, h.stopped, h.flushed⟩

/-- What the hand-over's begin leaves of the power state. -/
theorem HandsOver.power (h : HandsOver s u) : u.boot.main = s.boot.main ∧ u.boot.hv = s.boot.hv ∧ u.boot.aux = s.boot.aux ∧
    u.boot.shutdown = s.boot.shutdown ∧ u.boot.limits = s.boot.limits := by
  rw [h.boot]
  exact ⟨rfl, rfl, rfl, rfl, rfl⟩

end

/-- The module after a record that is the last before its hand-over. -/
theorem handoverAfterRecord (sev source code inst : Nat) (pl : List Nat) (t : State) : ∃ u,
    startHandover (recordEvent sev source code inst pl t) = u ∧ HandingOver u ∧ t.mgmt.lastSeq < u.mgmt.lastSeq ∧ u.obj = t.obj ∧
    u.gen = t.gen ∧ u.sec = t.sec ∧ u.boot.main = t.boot.main ∧ u.boot.hv = t.boot.hv ∧ u.boot.aux = t.boot.aux ∧
    u.boot.shutdown = t.boot.shutdown ∧ u.boot.limits = t.boot.limits := by
  obtain ⟨m, g, r, hrec, hlast⟩ := recordEvent_only sev source code inst pl t
  rw [hrec]
  have h := startHandover_handsOver { t with mgmt := m, hif := g, regs := r }
  obtain ⟨hmain, hhv, haux, hshut, hlimits⟩ := h.power
  exact ⟨_, rfl, h.handingOver, Nat.lt_of_lt_of_le hlast h.lastSeq, h.obj, h.gen, h.sec, hmain, hhv, haux, hshut, hlimits⟩

/-! ### The hand-over ends (21 R760 to R763) -/

/-- The stage is down and what could not be written is dumped. -/
def stageDown (s : State) : State :=
  modFlash (fun f => { f with dump := true }) (modBoot (fun b => { b with
    hv := false, main := b.main || b.mainBack, mgmtRun := s.boot.aux && b.mgmtRun, fwOk := s.boot.aux && b.fwOk }) s)

theorem finishHandover_aux {s : State} (h : s.boot.aux = true) : finishHandover s =
    enableStage (adoptConfig (resetModule (some (if s.boot.shutdown then 3 else 4)) true (stageDown s))) := by
  rw [finishHandover, if_pos h]
  rfl

theorem finishHandover_noAux {s : State} (h : s.boot.aux = false) : finishHandover s = resetModule none false (stageDown s) := by
  rw [finishHandover, if_neg (by simp [h])]
  rfl

/-- A module reset, with its configuration taken over, may have its stage on again. -/
theorem enabled_hasReset {cause : Nat} {s t : State} (h : HasReset cause s t) : HasReset cause s (enableStage (adoptConfig t)) := by
  obtain ⟨hv, phase, domain, pll, -, hstage⟩ := enableStage_only (adoptConfig t)
  have hadopted := (adoptConfig_adopts t).hasReset h
  rw [hstage]
  exact hadopted

/-- What the stage's turning on keeps of the boot state and of the flash. -/
theorem enabled_kept (t : State) : ∃ hv phase domain pll, enableStage (adoptConfig t) =
    modBoot (fun b => { b with hv := hv, phase := phase, domain := domain, pll := pll }) (adoptConfig t) ∧
    (adoptConfig t).boot = t.boot ∧ (adoptConfig t).flash = t.flash ∧ (adoptConfig t).gen = t.gen ∧ (adoptConfig t).obj = t.obj := by
  obtain ⟨hv, phase, domain, pll, -, hstage⟩ := enableStage_only (adoptConfig t)
  have h := adoptConfig_adopts t
  exact ⟨hv, phase, domain, pll, hstage, h.boot, h.flash, h.gen, h.obj⟩

/-- Without the main input, or while shut down, the stage stays as it is. -/
theorem enableStage_off {s : State} (h : s.boot.main = false ∨ s.boot.shutdown = true) : enableStage s = s := by
  unfold enableStage
  dsimp only
  rw [if_neg]
  rcases h with h | h <;> simp [h]

theorem enabled_off {t : State} (h : t.boot.main = false ∨ t.boot.shutdown = true) : enableStage (adoptConfig t) = adoptConfig t :=
  enableStage_off (by rwa [(adoptConfig_adopts t).boot])

/-- The end of the hand-over with the auxiliary input there. -/
theorem finishHandover_ends {s : State} (haux : s.boot.aux = true) :
    HasReset (if s.boot.shutdown then 3 else 4) s (finishHandover s) ∧ (finishHandover s).boot.handover = false ∧
    (finishHandover s).flash.dump = true ∧ (finishHandover s).boot.cut = s.boot.cut ∧
    ((s.boot.main = false ∧ s.boot.mainBack = false) ∨ s.boot.shutdown = true → (finishHandover s).boot.hv = false) := by
  rw [finishHandover_aux haux]
  obtain ⟨t, ht⟩ : ∃ t, t = resetModule (some (if s.boot.shutdown then 3 else 4)) true (stageDown s) := ⟨_, rfl⟩
  have hreset : HasReset (if s.boot.shutdown then 3 else 4) s t := ht ▸ resetModule_hasReset _ true (stageDown s)
  have hhand : t.boot.handover = false := by rw [ht]; rfl
  have hdump : t.flash.dump = true := by rw [ht]; rfl
  have hcut : t.boot.cut = s.boot.cut := by rw [ht]; rfl
  have hhv : t.boot.hv = false := by rw [ht]; rfl
  have hmain : t.boot.main = (s.boot.main || s.boot.mainBack) := by rw [ht]; rfl
  have hshut : t.boot.shutdown = s.boot.shutdown := by rw [ht]; rfl
  rw [← ht]
  obtain ⟨hv, phase, domain, pll, hstage, hboot, hflash, -, -⟩ := enabled_kept t
  refine ⟨enabled_hasReset hreset, ?_, ?_, ?_, fun hoff => ?_⟩
  · rw [hstage]
    exact (congrArg Boot.handover hboot).trans hhand
  · rw [hstage]
    exact (congrArg Flash.dump hflash).trans hdump
  · rw [hstage]
    exact (congrArg Boot.cut hboot).trans hcut
  · have hstays : t.boot.main = false ∨ t.boot.shutdown = true := by
      rw [hmain, hshut]
      rcases hoff with ⟨h1, h2⟩ | h
      · exact .inl (by rw [h1, h2]; rfl)
      · exact .inr h
    rw [enabled_off hstays, hboot, hhv]

/-! ### Hard limits (21 R756, R768) -/

theorem exec_hardLimitTrip_first {l : List HardLimit} {s : State} (hl : l ≠ []) (hhv : s.boot.hv = true) (hhand : s.boot.handover = false) :
    exec (.hardLimitTrip l) s = .next (startHandover (recordEvent 3 11 0x0601 0 (l.map limitCode)
      (modBoot (fun b => { b with shutdown := true, limits := l }) s))) := by
  refine congrArg Host.Outcome.next ((if_neg (by simp [hl, hhv])).trans ?_)
  exact if_neg (by simp [hhand])

/-- More limits trip during a hand-over: they are added to its record. -/
def moreLimits (new : List HardLimit) (s : State) : State :=
  modMgmt (fun m => { m with records := (addLimits new m.records.reverse).reverse })
    (modBoot (fun b => { b with limits := b.limits ++ new, shutdown := b.shutdown || s.boot.handoverAt == s.boot.cycles }) s)

theorem exec_hardLimitTrip_busCurrent {l : List HardLimit} {s : State} (hl : l ≠ []) (hbus : .busCurrent ∈ l)
    (hnew : .busCurrent ∉ s.boot.limits) (hhv : s.boot.hv = true) (hhand : s.boot.handover = true) : exec (.hardLimitTrip l) s =
    .next (finishHandover (modBoot (fun b => { b with cut := true }) (moreLimits (l.filter fun x => !s.boot.limits.contains x) s))) := by
  refine congrArg Host.Outcome.next ((if_neg (by simp [hl, hhv])).trans ?_)
  refine (if_pos hhand).trans (if_pos ?_)
  simp [hbus, hnew]

/-- Settles O47: a loss or a limit by the record before the hand-over and what its begin leaves, its end by the reset and the stage's
conditions. -/
theorem lossesAndLimits : Obligations.losses_and_limits := by
  refine ⟨?_, ?_, ?_, ?_, ?_, ?_, ?_, ?_, ?_, ?_, ?_⟩
  · intro c s hmain hhv hhand
    obtain ⟨u, hu, hover, hlast, hobj, hgen, hsec, hmain', hhv', -, -, -⟩ :=
      handoverAfterRecord 2 11 0x0601 0 [lossCode c] (modBoot (fun b => { b with main := false }) s)
    have hexec : exec (.mainInputLost c) s = .next u := by
      rw [← hu]
      refine congrArg Host.Outcome.next ((if_pos hmain).trans ?_)
      rw [loseMain, if_neg (by simp [hhand]), if_pos hhv]
    exact ⟨u, hexec, hmain', hhv'.trans hhv, hover, hlast, hobj, hgen, hsec⟩
  · intro c s hmain hhv hhand
    refine congrArg Host.Outcome.next ((if_pos hmain).trans ?_)
    rw [loseMain, if_neg (by simp [hhand]), if_neg (by simp [hhv])]
    rfl
  · exact fun c s hmain => congrArg Host.Outcome.next (if_neg (by simp [hmain]))
  · intro s haux hhv hhand
    obtain ⟨u, hu, hover, hlast, hobj, -, -, hmain, -, haux', -, -⟩ :=
      handoverAfterRecord 2 11 0x0601 0 [lossCode .auxLoss] (modBoot (fun b => { b with aux := false, main := false }) s)
    have hexec : exec .auxInputLost s = .next u := by
      rw [← hu]
      refine congrArg Host.Outcome.next ((if_neg (by simp [haux])).trans ?_)
      rw [if_pos (by simp [hhv]), loseMain, if_neg (by simp [hhand]), if_pos (by simp [hhv])]
      rfl
    exact ⟨u, hexec, haux', hmain, hover, hlast, hobj⟩
  · intro s haux hhv hhand
    obtain ⟨m, g, r, hrec, hlast⟩ := recordEvent_only 2 11 0x0601 0 [lossCode .auxLoss] (modBoot (fun b => { b with aux := false }) s)
    have hexec : exec .auxInputLost s = .next (resetModule none false (modBoot (fun b => { b with main := false, mgmtRun := false, fwOk := false })
        (recordEvent 2 11 0x0601 0 [lossCode .auxLoss] (modBoot (fun b => { b with aux := false }) s)))) := by
      refine congrArg Host.Outcome.next ((if_neg (by simp [haux])).trans ?_)
      exact if_neg (by simp [hhv, hhand])
    rw [hrec] at hexec
    exact ⟨_, hexec, rfl, rfl, rfl, rfl, rfl, rfl, hlast⟩
  · intro s hhand haux
    obtain ⟨hreset, hdone, hdump, -, hoff⟩ := finishHandover_ends haux
    exact ⟨_, congrArg Host.Outcome.next (if_pos hhand), hdone, hreset, hdump, hoff⟩
  · intro s hhand haux
    have hexec : exec .handoverEnd s = .next (finishHandover s) := congrArg Host.Outcome.next (if_pos hhand)
    rw [finishHandover_noAux haux] at hexec
    refine ⟨_, hexec, rfl, rfl, ?_, rfl, rfl⟩
    simp [resetModule, resetBoot, stageDown, haux]
  · exact fun s hhand => congrArg Host.Outcome.next (if_neg (by simp [hhand]))
  · intro l s hl hhv hhand
    obtain ⟨u, hu, hover, hlast, hobj, hgen, -, -, -, -, hshut, hlimits⟩ :=
      handoverAfterRecord 3 11 0x0601 0 (l.map limitCode) (modBoot (fun b => { b with shutdown := true, limits := l }) s)
    exact ⟨u, hu ▸ exec_hardLimitTrip_first hl hhv hhand, hshut, hlimits, hover, hlast, hobj, hgen⟩
  · intro l s hl hbus hnew hhv hhand haux hmain hback
    obtain ⟨t, ht⟩ : ∃ t, t = modBoot (fun b => { b with cut := true }) (moreLimits (l.filter fun x => !s.boot.limits.contains x) s) := ⟨_, rfl⟩
    have haux' : t.boot.aux = true := by rw [ht]; exact haux
    obtain ⟨-, hdone, hdump, hcut, hoff⟩ := finishHandover_ends haux'
    have hexec := exec_hardLimitTrip_busCurrent hl hbus hnew hhv hhand
    rw [← ht] at hexec
    refine ⟨_, hexec, hoff (.inl ⟨?_, ?_⟩), hcut.trans ?_, hdone, hdump⟩
    · rw [ht]
      exact hmain
    · rw [ht]
      exact hback
    · rw [ht]
      rfl
  · exact fun l s hhv => congrArg Host.Outcome.next (if_pos (by simp [hhv]))

/-! ### Resets (20 R753; 21 R767, R769) -/

/-- A reset that keeps the always-on domain, with what is buffered flushed. -/
theorem resetNow_effect (cause : Nat) (s : State) : ∃ t, t = resetNow cause s ∧ HasReset cause s t ∧ t.boot.hv = s.boot.hv ∧
    (s.boot.hv = true → t.flash.dump = true) := by
  obtain ⟨m, hflush, -, -⟩ := flushSnaps_only (modFlash (fun f => { f with dump := f.dump || s.boot.hv }) s)
  rw [resetNow, hflush]
  refine ⟨_, rfl, resetModule_hasReset cause true _, rfl, fun hhv => ?_⟩
  have hdump : (s.flash.dump || s.boot.hv) = true := by rw [hhv, Bool.or_true]
  exact hdump

theorem exec_resetNLow {s : State} (haux : s.boot.aux = true) (hhand : s.boot.handover = false) (hlow : s.boot.resetLow = false) :
    exec .resetNLow s = .next (modBoot (fun b => { b with resetLow := true }) (resetNow 1 s)) :=
  congrArg Host.Outcome.next (if_pos (by simp [haux, hhand, hlow]))

/-- The key of GLB_RESET (20 R753). -/
theorem glbReset_key (v : BitVec 32) : (bitsOf v.toNat 31 16 == 0xA5C3) = decide (v.toNat / 2 ^ 16 = 0xA5C3) := by
  have hlt : v.toNat < 2 ^ 32 := v.isLt
  have hbits : bitsOf v.toNat 31 16 = v.toNat / 2 ^ 16 := by
    rw [bitsOf, Nat.shiftRight_eq_div_pow]
    omega
  rw [hbits]
  rfl

theorem exec_glbReset {v : BitVec 32} {s : State} (hbit : v.getLsbD 0 = true) (hkey : v.toNat / 2 ^ 16 = 0xA5C3)
    (hhand : s.boot.handover = false) : exec (.glbReset 1 v) s = .next (enableStage (adoptConfig (resetNow 2 s))) :=
  congrArg Host.Outcome.next (if_pos (by rw [glbReset_key, hbit, hkey, hhand]; rfl))

/-- Settles O48: a reset by what it leaves and the stage's conditions, the rise of RESET_N by the shutdown it ends. -/
theorem resets : Obligations.resets := by
  refine ⟨?_, ?_, ?_, ?_, ?_, ?_⟩
  · intro v s hbit hkey hhand
    obtain ⟨t, ht, hreset, -, hdump⟩ := resetNow_effect 2 s
    obtain ⟨hv, phase, domain, pll, hstage, -, hflash, -, -⟩ := enabled_kept t
    have hexec := exec_glbReset hbit hkey hhand
    rw [← ht] at hexec
    refine ⟨_, hexec, enabled_hasReset hreset, fun hhv => ?_⟩
    rw [hstage]
    exact (congrArg Flash.dump hflash).trans (hdump hhv)
  · intro fn v s h
    refine congrArg Host.Outcome.next (if_neg ?_)
    rw [glbReset_key]
    rcases h with h | h | h
    · simp [isMgmtPf, h]
    · rw [h]
      simp
    · rw [decide_eq_false h]
      simp
  · intro s haux hhand hlow
    obtain ⟨t, ht, hreset, hhv, -⟩ := resetNow_effect 1 s
    have hexec := exec_resetNLow haux hhand hlow
    rw [← ht] at hexec
    exact ⟨_, hexec, rfl, hhv, hreset⟩
  · exact fun s hlow => congrArg Host.Outcome.next (if_neg (by simp [hlow]))
  · intro s hlow
    obtain ⟨t, ht⟩ : ∃ t, t = modBoot (fun b => { b with resetLow := false, shutdown := false, limits := [] }) s := ⟨_, rfl⟩
    have hexec : exec .resetNRise s = .next (enableStage (adoptConfig t)) := ht ▸ congrArg Host.Outcome.next (if_pos hlow)
    obtain ⟨hv, phase, domain, pll, hstage, hboot, -, hgen, hobj⟩ := enabled_kept t
    have hbase : t.boot = { s.boot with resetLow := false, shutdown := false, limits := [] } := by rw [ht]; rfl
    refine ⟨_, hexec, ?_, ?_, ?_, fun haux hmain hfw hhand => ?_, ?_, ?_⟩
    · rw [hstage]
      exact (congrArg Boot.resetLow (hboot.trans hbase)).trans rfl
    · rw [hstage]
      exact (congrArg Boot.shutdown (hboot.trans hbase)).trans rfl
    · rw [hstage]
      exact (congrArg Boot.limits (hboot.trans hbase)).trans rfl
    · have hb := hboot.trans hbase
      rw [enableStage_on (s := adoptConfig t) (by rw [hb]; exact haux) (by rw [hb]; exact hmain) (by rw [hb]; exact hhand) (by rw [hb])
        (by rw [hb]) (by rw [hb]; exact hfw)]
      rfl
    · rw [hstage, modBoot_gen, hgen, ht]
      rfl
    · rw [hstage, modBoot_obj, hobj, ht]
      rfl
  · exact fun s hlow => congrArg Host.Outcome.next (if_neg (by simp [hlow]))

end Sys2Proof.Machine
end

section
/-! PROOFS. RECOVERY: the requests for an image, the image from a neighbour or from host memory, and how it is left (17 R648 to R651). -/

-- One declaration after the other: the stacks of the threads that elaborate so long a text at once pass the check's limit.
set_option Elab.async false

namespace Sys2Proof.Machine

/-! ### The requests and their answer (17 R648, R649) -/

/-- The cycle of a time is not before it (19 R704). -/
theorem le_nsOfCycles {t c : Nat} (h : cycleOfNs t ≤ c) : t ≤ nsOfCycles c := by
  unfold cycleOfNs at h
  unfold nsOfCycles
  omega

/-- A time is reached when time is moved to it. -/
theorem le_now_advanceTo (t : Nat) (s : State) : t ≤ now (advanceTo t s) :=
  le_nsOfCycles (by rw [advanceTo_cycles]; exact Nat.le_max_right ..)

/-- Packets put on a port one after the other have all been sent. -/
theorem mem_sent_foldS_putOn (port : Nat) (l : List Packet) (s : State) {p : Packet} (hp : p ∈ l) :
    { p with port := port } ∈ (foldS l (fun t p => putOn port 0 p t) s).fab.sent := by
  induction l generalizing s with
  | nil => exact absurd hp List.not_mem_nil
  | cons q l ih =>
    rcases List.mem_cons.mp hp with rfl | hp
    · have hkept : Transports (putOn port 0 p s) (foldS l (fun t p => putOn port 0 p t) (putOn port 0 p s)) :=
        foldS_inv (Transports _) l _ _ (fun t q h => h.trans (putOn_transports t _ _ q)) (.refl _)
      exact hkept.sent _ (mem_sent_putOn ..)
    · exact ih _ hp

/-- The parts of an image are its blocks of 32 KiB, in order (17 R649). -/
theorem mem_rcvParts (total : Nat) {n off k : Nat} {b : Bytes} (hk : k < n) (hlt : 32768 * k < b.length) :
    rcvPacket 0x4C (off + 32768 * k) total ((b.drop (32768 * k)).take 32768) ∈ rcvParts total n off b := by
  induction n generalizing off k b with
  | zero => exact absurd hk (Nat.not_lt_zero _)
  | succ n ih =>
    have hne : b.isEmpty = false := by
      cases b with
      | nil => exact absurd hlt (Nat.not_lt_zero _)
      | cons => rfl
    rw [rcvParts, if_neg (by simp [hne])]
    cases k with
    | zero => exact List.mem_cons_self
    | succ k =>
      have hrest := ih (off := off + 32768) (k := k) (b := b.drop 32768) (by omega) (by rw [List.length_drop]; omega)
      rw [List.drop_drop] at hrest
      refine List.mem_cons_of_mem _ ?_
      convert hrest using 2
      · ring
      · ring_nf

theorem exec_rcvReqTimer {s : State} (hlevel : s.boot.level = 3) (hhv : s.boot.hv = true) : exec .rcvReqTimer s =
    .next (putOn 1 0 (rcvPacket 0x4B 0 0 []) (putOn 0 0 (rcvPacket 0x4B 0 0 [])
      (advanceTo (100000000 * (now s / 100000000 + 1)) s))) :=
  congrArg Host.Outcome.next (if_pos ⟨hlevel, hhv⟩)

theorem exec_rcvReq {port : Nat} {s : State} (hport : port < 32) (hstate : s.fab.state = .admitted)
    (hcarries : portCarries (portOf s port) 3 = true) (hfree : ((portOf s port).outq.all fun f => f.vc != 3) = true) :
    exec (.rcvReq port) s = .next (foldS (rcvParts (fwImageOf s).length ((fwImageOf s).length / 32768 + 1) 0 (fwImageOf s))
      (fun t p => putOn port 0 p t) s) :=
  congrArg Host.Outcome.next (if_pos ⟨hport, hstate, hcarries, hfree⟩)

/-! ### The image (17 R650, R651) -/

/-- An image that comes in one part is whole. -/
theorem joinParts_whole (b : Bytes) : joinParts b.length 0 [(0, b)] = some b := by simp [joinParts]

theorem exec_rcvData_whole {port : Nat} {b : Bytes} {s : State} (hlevel : s.boot.level = 3) (hhv : s.boot.hv = true)
    (hstate : s.boot.rcvState < 2) (hport : port < 2) (hnone : mget s.boot.rcvParts port = none) :
    exec (.rcvData port 0 b.length b) s = .next (rcvWhole 1 b s) := by
  refine congrArg Host.Outcome.next ((if_pos ⟨hlevel, hhv, hstate, hport⟩).trans ?_)
  have hold : mgetD s.boot.rcvParts port ({ total := b.length, parts := [] } : RcvImage) = { total := b.length, parts := [] } := by
    rw [mgetD, hnone, Option.getD_none]
  have hparts : mset ([] : Map Bytes) 0 b = [(0, b)] := rfl
  simp only [hold, if_true, hparts, joinParts_whole]

/-- What a whole image that does not verify, or is too old, leaves of the boot state. -/
def Boot.refuse (fail : Nat) (b : Boot) : Boot := { b with rcvState := 0, rcvFail := fail, rcvWhole := none }

/-- What an image that is taken over leaves of the boot state before its stage. -/
def Boot.recover (b : Boot) : Boot :=
  { b with rcvState := 3, rcvWhole := none, level := 0, fwOk := true, mgmtRun := true, phase := 2 }

theorem exec_rcvImageComplete {b : Bytes} {s : State} (hlevel : s.boot.level = 3) (hstate : s.boot.rcvState = 2)
    (hwhole : s.boot.rcvWhole = some b) : exec .rcvImageComplete s = .next (
      if 8 ≤ b.length ∧ sigVerifies s 0 (splitSigned b).1 (splitSigned b).2 = true then
        (if rd (splitSigned b).2 8 4 < floorOf s 0 then modBoot (Boot.refuse 2) (evCount 12 2 1 s)
          else enableStage (modBoot Boot.recover (writeFirmware b (evCount 12 2 1 s))))
        else modBoot (Boot.refuse 1) (evCount 12 2 1 s)) := by
  refine congrArg Host.Outcome.next ?_
  rw [hwhole]
  dsimp only
  rw [if_neg (by simp [hlevel, hstate])]
  by_cases hok : 8 ≤ b.length ∧ sigVerifies s 0 (splitSigned b).1 (splitSigned b).2 = true
  · rw [if_neg (by simp [hok]), if_pos hok]
    rfl
  · rw [if_pos (by simpa [imp_iff_not_or] using hok), if_neg hok]
    rfl

theorem writeFirmware_only (b : Bytes) (s : State) : ∃ c, writeFirmware b s =
    { s with boot := { s.boot with fwImage := some b }, sec := c } := by
  unfold writeFirmware raiseFloor
  split <;> exact ⟨_, rfl⟩

theorem evCount_only (p src n : Nat) (s : State) : ∃ g r, evCount p src n s = { s with hif := g, regs := r } :=
  ⟨_, _, evCount_hostOnly s p src n⟩

/-- Settles O50: the requests and their answers by the packets sent, an image in one part by its join, and the end of RECOVERY by the cases
of its image. -/
theorem recovery : Obligations.recovery := by
  refine ⟨?_, ?_, ?_, ?_, ?_, ?_, ?_, ?_, ?_⟩
  · intro s hlevel hhv
    obtain ⟨t, ht⟩ : ∃ t, t = advanceTo (100000000 * (now s / 100000000 + 1)) s := ⟨_, rfl⟩
    have hnow : 100000000 * (now s / 100000000 + 1) ≤ now t := ht ▸ le_now_advanceTo _ s
    have hpassed : BootOnly s t := ht ▸ advanceTo_bootOnly _ s
    have hexec := exec_rcvReqTimer hlevel hhv
    rw [← ht] at hexec
    have hfirst := putOn_transports t 0 0 (rcvPacket 0x4B 0 0 [])
    have hsecond := putOn_transports (putOn 0 0 (rcvPacket 0x4B 0 0 []) t) 1 0 (rcvPacket 0x4B 0 0 [])
    have hboth := hfirst.trans hsecond
    refine ⟨_, hexec, fun port hport => ?_, ?_, ?_, ?_, ?_⟩
    · obtain rfl | rfl : port = 0 ∨ port = 1 := by omega
      · exact hsecond.sent _ (mem_sent_putOn ..)
      · exact mem_sent_putOn ..
    · have hboot : (putOn 1 0 (rcvPacket 0x4B 0 0 []) (putOn 0 0 (rcvPacket 0x4B 0 0 []) t)).boot = t.boot := by rw [hboth.sends.only]
      exact hnow.trans_eq (congrArg (fun b : Boot => nsOfCycles b.cycles) hboot).symm
    · rw [hboth.obj, hpassed]
    · rw [hboth.gen, hpassed]
    · rw [hboth.sends.hostMem, ht]
      simp
  · rintro port b s hport hstate hcarries hfree rfl
    refine ⟨_, exec_rcvReq hport hstate hcarries hfree, fun k hk => ?_, ?_⟩
    · have hpart := mem_rcvParts (fwImageOf s).length (n := (fwImageOf s).length / 32768 + 1) (off := 0) (k := k) (by omega) hk
      rw [Nat.zero_add] at hpart
      exact mem_sent_foldS_putOn port _ s hpart
    · exact (foldS_inv (Transports s) _ _ _ (fun t q h => h.trans (putOn_transports t _ _ q)) (.refl s)).sends.only
  · exact fun port s hstate => congrArg Host.Outcome.next (if_neg (by simp [hstate]))
  · exact fun port b s hlevel hhv hstate hport hnone => exec_rcvData_whole hlevel hhv hstate hport hnone
  · intro port off total b s h
    refine congrArg Host.Outcome.next (if_neg ?_)
    rcases h with h | h
    · simp [h]
    · exact fun hall => absurd hall.2.2.1 (Nat.not_lt.mpr h)
  · intro b s hlevel hhv hstate hmax hlen
    exact congrArg Host.Outcome.next ((if_pos ⟨hlevel, hhv, hstate⟩).trans (if_pos ⟨hmax, hlen⟩))
  · intro b s hlevel hhv hstate hlen
    exact congrArg Host.Outcome.next ((if_pos ⟨hlevel, hhv, hstate⟩).trans (if_neg fun h => absurd h.2 (Nat.not_le.mpr hlen)))
  · intro b s hlevel hstate hwhole
    obtain ⟨g, r, hcount⟩ := evCount_only 12 2 1 s
    have hexec := exec_rcvImageComplete hlevel hstate hwhole
    rw [hcount] at hexec
    by_cases hok : 8 ≤ b.length ∧ sigVerifies s 0 (splitSigned b).1 (splitSigned b).2 = true
    · rw [if_pos hok] at hexec
      by_cases hold : rd (splitSigned b).2 8 4 < floorOf s 0
      · rw [if_pos hold] at hexec
        refine ⟨_, hexec, rfl, ?_, rfl⟩
        rw [if_pos hok, if_pos hold]
        exact ⟨rfl, rfl, hlevel⟩
      · rw [if_neg hold] at hexec
        obtain ⟨c, hwrite⟩ := writeFirmware_only b { s with hif := g, regs := r }
        rw [hwrite] at hexec
        obtain ⟨hv, phase, domain, pll, -, hstage⟩ := enableStage_only (modBoot Boot.recover
          { s with hif := g, regs := r, boot := { s.boot with fwImage := some b }, sec := c })
        rw [hstage] at hexec
        refine ⟨_, hexec, rfl, ?_, rfl⟩
        rw [if_pos hok, if_neg hold]
        exact ⟨rfl, rfl, rfl, rfl, rfl⟩
    · rw [if_neg hok] at hexec
      refine ⟨_, hexec, rfl, ?_, rfl⟩
      rw [if_neg hok]
      exact ⟨rfl, rfl, hlevel⟩
  · intro s hnone
    refine congrArg Host.Outcome.next ?_
    rw [hnone]

end Sys2Proof.Machine
end

section
/-! PROOFS. Live-service operations (17 R652 to R655, R662, R663). -/

-- One declaration after the other: the stacks of the threads that elaborate so long a text at once pass the check's limit.
set_option Elab.async false

namespace Sys2Proof.Machine

/-! ### LS_CMD (17 R662, R663) -/

section
variable {fn op : Nat} {go : State → State} {s : State}

theorem lsCmd_go (hfn : fn ≤ 1) (hnone : s.boot.lsOp = none) : lsCmd fn op go s = go s := by
  simp [lsCmd, (isPf_iff fn).mpr hfn, hnone]

theorem lsCmd_busy (hfn : fn ≤ 1) (hbusy : s.boot.lsOp ≠ none) : lsCmd fn op go s = lsRefuse op 1 s := by
  simp [lsCmd, (isPf_iff fn).mpr hfn, Option.isSome_iff_ne_none.mpr hbusy]

theorem lsCmd_virtual (hfn : 1 < fn) : lsCmd fn op go s = s := by
  have hpf : isPf fn = false := by
    rw [Bool.eq_false_iff, Ne, isPf_iff]
    omega
  simp [lsCmd, hpf]

theorem lsRefuse_refused (op result : Nat) (s : State) : LsRefused op result s (lsRefuse op result s) := rfl

theorem lsBegin_serving (op target total : Nat) (prior : PortState) (s : State) : Serving op target (lsBegin op target total prior s) :=
  ⟨rfl, rfl, rfl⟩

end

/-! ### What an operation does as it ends (17 R652 to R655) -/

/-- What every operation leaves as it ends: the work that was to be done, and the records before. -/
structure LsKept (s u : State) : Prop where
  total : u.boot.lsTotal = s.boot.lsTotal
  lastSeq : s.mgmt.lastSeq ≤ u.mgmt.lastSeq

theorem LsKept.of_eq {s u : State} (hboot : u.boot = s.boot) (hmgmt : u.mgmt = s.mgmt) : LsKept s u :=
  ⟨by rw [hboot], by rw [hmgmt]⟩

theorem LsKept.trans {s t u : State} (h : LsKept s t) (k : LsKept t u) : LsKept s u :=
  ⟨k.total.trans h.total, h.lastSeq.trans k.lastSeq⟩

theorem recordEvent_lsKept (sev source code inst : Nat) (pl : List Nat) (s : State) : LsKept s (recordEvent sev source code inst pl s) :=
  ⟨by rw [recordEvent_boot], Nat.le_of_lt (recordEvent_lastSeq_lt ..)⟩

section
variable (s : State)

theorem retireStack_lsKept (n : Nat) : LsKept s (retireStack n s) :=
  LsKept.trans (t := modStack n _ s) ⟨rfl, Nat.le_refl _⟩ (recordEvent_lsKept 1 8 0x0204 (instStack n) [] _)

theorem moveLines_kept (s0 s : State) : LsKept s (moveLines s0 s) := ⟨rfl, Nat.le_refl _⟩

theorem endRetireStack_lsKept (n : Nat) : LsKept s (endRetireStack n s) := by
  unfold endRetireStack
  dsimp only
  refine LsKept.trans ?_ (moveLines_kept _ _)
  exact LsKept.trans (t := modObj _ (modMem _ s)) ⟨rfl, Nat.le_refl _⟩ (retireStack_lsKept _ n)

theorem endRetireStack_out (n : Nat) : StackOut n (endRetireStack n s) := by
  have hstacks (s0 t : State) : StackOut n (moveLines s0 t) ↔ StackOut n t := Iff.rfl
  unfold endRetireStack
  dsimp only
  rw [hstacks]
  exact retireStack_out _ n

/-! #### A channel retired (17 R653) -/

theorem moveUnits_kept (ch part : Nat) : ((moveUnits ch part s).boot, (moveUnits ch part s).mgmt, (moveUnits ch part s).obj) =
    (s.boot, s.mgmt, s.obj) := by
  unfold moveUnits
  split
  · rfl
  · exact foldS_keeps (fun t => (t.boot, t.mgmt, t.obj)) _ _ s fun t b => by simp

/-- A channel is retired and not in use. -/
def ChannelGone (n : Nat) (s : State) : Prop := (channelOf s n).retired = true ∧ (channelOf s n).ok = false

variable {s} in
theorem ChannelGone.kept {n : Nat} {u : State} (h : ChannelGone n s) (hok : StandingKept s u) (hmarks : channelMarks u = channelMarks s) :
    ChannelGone n u := by
  have hretired : (channelOf u n).retired = (channelOf s n).retired := congrArg Prod.snd (congrFun hmarks n)
  exact ⟨hretired.trans h.1, (hok.ok n).trans h.2⟩

theorem writeColl_standing (id : Nat) (f : Collection → Collection) : StandingKept s (writeColl id f s) := by
  unfold writeColl
  split
  · exact StandingKept.trans (t := modColl id f s) (.of_flash rfl) (acceptWrites_fillsBlocks _ _).standing
  · exact .of_flash rfl

theorem writeColl_kept (id : Nat) (f : Collection → Collection) : ((writeColl id f s).boot, (writeColl id f s).mgmt) = (s.boot, s.mgmt) := by
  unfold writeColl
  split
  · simp [modColl]
  · rfl

/-- One frozen collection is rolled back and thawed. -/
def thawOne (t : State) (c : Nat × Collection) : State :=
  acceptWrites (logWrites c.2 c.2.highest) (writeColl c.1 (fun x => { rollback x.highest x with frozen := false }) t)

theorem thawOne_standing (c : Nat × Collection) : StandingKept s (thawOne s c) :=
  (writeColl_standing s _ _).trans (acceptWrites_fillsBlocks _ _).standing

theorem thawOne_marks (c : Nat × Collection) : channelMarks (thawOne s c) = channelMarks s := by
  rw [thawOne, acceptWrites_channelMarks]
  exact channelMarks_of_beyondFlash (writeColl_beyondFlash s _ _)

theorem thawCollections_gone {n : Nat} (h : ChannelGone n s) : ChannelGone n (thawCollections s) := by
  unfold thawCollections
  split
  · exact h
  · exact foldS_inv (ChannelGone n) _ thawOne s (fun t c ht => ht.kept (thawOne_standing t c) (thawOne_marks t c)) h

theorem thawCollections_kept : ((thawCollections s).boot, (thawCollections s).mgmt) = (s.boot, s.mgmt) := by
  unfold thawCollections
  split
  · rfl
  · refine foldS_keeps (fun t => (t.boot, t.mgmt)) _ thawOne s fun t c => ?_
    rw [thawOne, acceptWrites_boot, acceptWrites_mgmt]
    exact writeColl_kept t _ _

theorem thawCollections_none (h : ∀ c ∈ s.obj.collections, c.2.frozen = false) : thawCollections s = s := by
  have hnone : (s.obj.collections.filter fun c => c.2.frozen) = [] := List.filter_eq_nil_iff.mpr fun c hc => by simp [h c hc]
  unfold thawCollections
  rw [hnone]
  split <;> rfl

theorem losePage_frozen (p : Nat) (c : Collection) : (losePage p c).frozen = c.frozen := by
  unfold losePage
  dsimp only
  split <;> rfl

theorem remap_frozen (failed : Bool) (ch d0 d1 : Nat) (c : Collection) : (remap failed ch d0 d1 c).frozen = c.frozen := by
  have hfold (l : List Nat) : ∀ c : Collection, (l.foldl (fun a p => losePage p a) c).frozen = c.frozen := by
    induction l with
    | nil => exact fun _ => rfl
    | cons p l ih => exact fun c => (ih _).trans (losePage_frozen p c)
  exact hfold _ c

/-- A channel that is retired, with none of its blocks in use. -/
def Channel.takenOut (c : Channel) : Channel :=
  { c with retired := true, ok := false, failed := false, gcSprint := false, gcStore := false, wlActive := false, blocks := [] }

/-- A channel is taken out, before the collections are thawed and the end is recorded. -/
def channelTaken (ch : Nat) (s : State) : State :=
  let s1 := if (channelOf s ch).failed then s else moveUnits ch 1 (moveUnits ch 0 s)
  modFlash (liftReadOnly ch) (modChannel ch Channel.takenOut (modObj (fun o => { o with
      collections := mmap o.collections fun _ c =>
        remap (channelOf s ch).failed ch ((substitute s ch 0).getD ch) ((substitute s ch 1).getD ch) c
      tables := mmap o.tables fun _ t => { t with regionMap := renameChannel ch ((substitute s ch 1).getD ch) t.regionMap } }) s1))

theorem endRetireChannel_eq (ch : Nat) : endRetireChannel ch s =
    recordEvent 1 9 0x0305 (instChannel ch) [] (thawCollections (channelTaken ch s)) := rfl

theorem channelTaken_gone (ch : Nat) : ChannelGone ch (channelTaken ch s) ∧ (channelOf (channelTaken ch s) ch).blocks = [] := by
  have htaken (t : State) : channelOf (modFlash (liftReadOnly ch) (modChannel ch Channel.takenOut t)) ch = (channelOf t ch).takenOut :=
    (channelOf_modChannel ch ch Channel.takenOut t).trans (if_pos rfl)
  unfold channelTaken ChannelGone
  dsimp only
  rw [htaken]
  exact ⟨⟨rfl, rfl⟩, rfl⟩

theorem channelMoved_kept (ch : Nat) (b : Bool) {u : State} (hu : u = if b then s else moveUnits ch 1 (moveUnits ch 0 s)) :
    u.boot = s.boot ∧ u.mgmt = s.mgmt ∧ u.obj = s.obj := by
  subst hu
  split
  · exact ⟨rfl, rfl, rfl⟩
  · have h := (moveUnits_kept (moveUnits ch 0 s) ch 1).trans (moveUnits_kept s ch 0)
    simpa only [Prod.mk.injEq] using h

theorem channelTaken_kept (ch : Nat) : (channelTaken ch s).boot = s.boot ∧ (channelTaken ch s).mgmt = s.mgmt ∧
    ((∀ c ∈ s.obj.collections, c.2.frozen = false) → ∀ c ∈ (channelTaken ch s).obj.collections, c.2.frozen = false) := by
  unfold channelTaken
  extract_lets s1
  obtain ⟨hboot, hmgmt, hobj⟩ := channelMoved_kept s ch (channelOf s ch).failed (u := s1) rfl
  refine ⟨hboot, hmgmt, fun h c hc => ?_⟩
  have hc' : c ∈ mmap s1.obj.collections fun _ c =>
    remap (channelOf s ch).failed ch ((substitute s ch 0).getD ch) ((substitute s ch 1).getD ch) c := hc
  rw [hobj] at hc'
  obtain ⟨d, hd, rfl⟩ := List.mem_map.mp hc'
  exact (remap_frozen ..).trans (h d hd)

theorem endRetireChannel_lsKept (ch : Nat) : LsKept s (endRetireChannel ch s) := by
  obtain ⟨hboot, hmgmt, -⟩ := channelTaken_kept s ch
  have hthaw := thawCollections_kept (channelTaken ch s)
  rw [endRetireChannel_eq]
  refine LsKept.trans (.of_eq ?_ ?_) (recordEvent_lsKept 1 9 0x0305 (instChannel ch) [] _)
  · exact (congrArg Prod.fst hthaw).trans hboot
  · exact (congrArg Prod.snd hthaw).trans hmgmt

theorem endRetireChannel_out (ch : Nat) : ChannelGone ch (endRetireChannel ch s) ∧
    ((∀ c ∈ s.obj.collections, c.2.frozen = false) → (channelOf (endRetireChannel ch s) ch).blocks = []) := by
  obtain ⟨hgone, hblocks⟩ := channelTaken_gone s ch
  obtain ⟨-, -, hfrozen⟩ := channelTaken_kept s ch
  have hrecorded (t : State) : channelOf (recordEvent 1 9 0x0305 (instChannel ch) [] t) ch = channelOf t ch := by
    rw [channelOf, recordEvent_flash, channelOf]
  rw [endRetireChannel_eq, ChannelGone, hrecorded]
  refine ⟨thawCollections_gone _ hgone, fun h => ?_⟩
  rw [thawCollections_none _ (hfrozen h)]
  exact hblocks

/-! #### A port recalibrated, new microcode, new hub firmware (17 R652, R654, R655) -/

theorem endRecalibrate_lsKept (port : Nat) (prior : PortState) : LsKept s (endRecalibrate port prior s) := by
  unfold endRecalibrate
  split
  · exact .of_eq rfl rfl
  · exact .of_eq (by simp [pumpPort]) (by simp [pumpPort])

theorem endRecalibrate_state {port : Nat} {prior : PortState} (h : prior ≠ .down) :
    (portOf (endRecalibrate port prior s) port).state = prior := by
  have hstate (t : State) : (portOf (pumpPort port t) port).state = (portOf t port).state :=
    Port.eq_of_inward Port.state (fun _ => rfl) (congrFun (pumpPort_inward t port) port)
  rw [endRecalibrate, if_neg h, hstate, portOf_modPort_same]

/-- The hub firmware of a hub that has restarted into what was staged. -/
def Boot.hubRestarted (n : Nat) (b : Boot) : Boot :=
  { b with hubFw := mset b.hubFw n (b.stagedHub.getD 0), hubRestart := b.hubRestart.filter (· ≠ n) }

/-- The channels of a hub that has restarted take what was buffered for them. -/
def hubDrained (n : Nat) (l : List Nat) (s : State) : State :=
  foldS l (fun t k => drainBuffers false (8 * n + k) 1 (drainBuffers false (8 * n + k) 0 t)) s

theorem hubDrained_kept (n : Nat) (l : List Nat) : (hubDrained n l s).boot = s.boot ∧ (hubDrained n l s).mgmt = s.mgmt := by
  induction l generalizing s with
  | nil => exact ⟨rfl, rfl⟩
  | cons k l ih =>
    obtain ⟨hboot, hmgmt⟩ := ih (drainBuffers false (8 * n + k) 1 (drainBuffers false (8 * n + k) 0 s))
    rw [hubDrained, foldS_cons, ← hubDrained, hboot, hmgmt]
    exact ⟨by rw [drainBuffers_boot, drainBuffers_boot], by rw [drainBuffers_mgmt, drainBuffers_mgmt]⟩

/-- A cluster whose microcode is what was staged. -/
def Cluster.microcoded (v : Option Nat) (c : Cluster) : Cluster := { c with ucode := v.getD c.ucode }

section
variable {s : State} {o : LsOp}

theorem lsEffect_stack (h : o.op = 1) : lsEffect o s = endRetireStack o.target s := by simp only [lsEffect, h]

theorem lsEffect_channel (h : o.op = 2) : lsEffect o s = endRetireChannel o.target s := by simp only [lsEffect, h]

theorem lsEffect_port (h : o.op = 3) : lsEffect o s = endRecalibrate o.target o.prior s := by simp only [lsEffect, h]

theorem lsEffect_microcode (h : o.op = 4) : lsEffect o s =
    floorAtLeast 1 s.boot.ucodeRaise (modCluster o.target (Cluster.microcoded s.boot.stagedUcode) s) := by
  simp only [lsEffect, h]
  rfl

theorem lsEffect_hub (h : o.op ∉ [1, 2, 3, 4]) : lsEffect o s =
    hubDrained o.target (List.range 8) (floorAtLeast 2 s.boot.hubRaise (modBoot (Boot.hubRestarted o.target) s)) := by
  simp only [List.mem_cons, List.not_mem_nil, or_false, not_or] at h
  obtain ⟨h1, h2, h3, h4⟩ := h
  unfold lsEffect
  split
  next heq => exact absurd heq h1
  next heq => exact absurd heq h2
  next heq => exact absurd heq h3
  next heq => exact absurd heq h4
  next => rfl

theorem lsEffect_hub_boot (h : o.op = 5) : (lsEffect o s).boot = s.boot.hubRestarted o.target := by
  rw [lsEffect_hub (by simp [h]), (hubDrained_kept ..).1]
  rfl

theorem lsEffect_microcode_ucode {v : Nat} (h : o.op = 4) (hv : s.boot.stagedUcode = some v) :
    (clusterOf (lsEffect o s) o.target).ucode = v := by
  have hcluster (k n : Nat) (t : State) (g : Nat) : clusterOf (floorAtLeast k n t) g = clusterOf t g := rfl
  rw [lsEffect_microcode h, hcluster, clusterOf_modCluster_same, hv, Cluster.microcoded, Option.getD_some]

end

theorem floorAtLeast_lsKept (kind v : Nat) : LsKept s (floorAtLeast kind v s) := ⟨rfl, Nat.le_refl _⟩

theorem lsEffect_lsKept (o : LsOp) : LsKept s (lsEffect o s) := by
  by_cases h : o.op ∈ [1, 2, 3, 4]
  · simp only [List.mem_cons, List.not_mem_nil, or_false] at h
    rcases h with h | h | h | h
    · rw [lsEffect_stack h]
      exact endRetireStack_lsKept s _
    · rw [lsEffect_channel h]
      exact endRetireChannel_lsKept s _
    · rw [lsEffect_port h]
      exact endRecalibrate_lsKept s _ _
    · rw [lsEffect_microcode h]
      exact LsKept.trans (t := modCluster o.target _ s) ⟨rfl, Nat.le_refl _⟩ (floorAtLeast_lsKept _ _ _)
  · rw [lsEffect_hub h]
    obtain ⟨hboot, hmgmt⟩ := hubDrained_kept (floorAtLeast 2 s.boot.hubRaise (modBoot (Boot.hubRestarted o.target) s)) o.target (List.range 8)
    exact LsKept.trans (t := modBoot (Boot.hubRestarted o.target) s) ⟨rfl, Nat.le_refl _⟩
      ((floorAtLeast_lsKept _ 2 s.boot.hubRaise).trans (.of_eq hboot hmgmt))

end

/-- A port that is recalibrated is down. -/
theorem recalibrating (n : Nat) (s : State) : ∃ v, v = (if (portOf s n).state = .down then s else takeDown n 2 s) ∧
    (portOf v n).state = .down ∧ (∀ k, k ≠ n → portOf v k = portOf s k) ∧ v.obj = s.obj ∧ v.gen = s.gen := by
  by_cases hdown : (portOf s n).state = .down
  · exact ⟨s, (if_pos hdown).symm, hdown, fun _ _ => rfl, rfl, rfl⟩
  · exact ⟨takeDown n 2 s, (if_neg hdown).symm, (takeDown_port (s := s) 2).1, fun k hk => takeDown_port_other (s := s) 2 hk, by simp [takeDown],
      by simp [takeDown]⟩

/-- An operation ends, and is recorded. -/
def lsEnded (o : LsOp) (s : State) : State :=
  modBoot (fun b => { b with lsOp := none, lsResult := 0, lsValid := true, lsLast := o.op, lsProgress := b.lsTotal })
    (lsEffect o (evCount 11 1 s.boot.lsTotal s))

theorem exec_lsOperationEnd {o : LsOp} {s : State} (h : s.boot.lsOp = some o) :
    exec .lsOperationEnd s = .next (recordEvent 0 11 0x0602 0 [o.op, o.target] (lsEnded o s)) := by
  refine congrArg Host.Outcome.next ?_
  rw [h]
  rfl

/-- Settles O51: LS_CMD by what its operation allows, the end of an operation by what each leaves and its own effect. -/
theorem liveService : Obligations.live_service := by
  refine ⟨?_, ?_, ?_, ?_, ?_, ?_, ?_, ?_, ?_, ?_, ?_, ?_, ?_, ?_⟩
  · intro fn n s hfn hnone hn hserves hroom
    refine ⟨_, congrArg Host.Outcome.next ((lsCmd_go hfn hnone).trans ((if_neg ?_).trans (if_neg (Nat.not_lt.mpr hroom)))),
      lsBegin_serving .., stackOf_modStack_same .., fun k hk => stackOf_modStack_other _ _ hk, rfl, rfl⟩
    simp [hserves]
    omega
  · intro fn n s hfn hnone hn hserves hroom
    refine ⟨_, congrArg Host.Outcome.next ((lsCmd_go hfn hnone).trans ((if_neg ?_).trans (if_pos hroom))), lsRefuse_refused ..⟩
    simp [hserves]
    omega
  · intro fn n s hfn hnone hn hretired hfit0 hfit1
    refine ⟨_, congrArg Host.Outcome.next ((lsCmd_go hfn hnone).trans ((if_neg ?_).trans (if_neg (by simp [hfit0, hfit1])))),
      lsBegin_serving .., rfl, rfl⟩
    simp [hretired]
    omega
  · intro fn n s hfn hnone hn hretired hfit0
    refine ⟨_, congrArg Host.Outcome.next ((lsCmd_go hfn hnone).trans ((if_neg ?_).trans (if_pos (by simp [hfit0])))), lsRefuse_refused ..⟩
    simp [hretired]
    omega
  · intro fn n s hfn hnone hn
    obtain ⟨v, hv, hdown, hothers, hobj, hgen⟩ := recalibrating n s
    have hexec : exec (.lsRecalibratePort fn n) s = .next (lsBegin 3 n 0 (portOf s n).state v) := by
      rw [hv]
      exact congrArg Host.Outcome.next ((lsCmd_go hfn hnone).trans (if_neg (by omega)))
    exact ⟨_, hexec, lsBegin_serving .., hdown, hothers, hobj, hgen⟩
  · intro fn n s hfn hnone hn hretired hdrain hdrained hstaged
    refine ⟨_, congrArg Host.Outcome.next ((lsCmd_go hfn hnone).trans ((if_neg ?_).trans ((if_neg (by simp [hdrain, hdrained])).trans
      (if_neg (by simpa using hstaged))))), lsBegin_serving .., rfl⟩
    simp [hretired]
    omega
  · intro fn n s hfn hnone hn hretired hdrain
    refine ⟨_, congrArg Host.Outcome.next ((lsCmd_go hfn hnone).trans ((if_neg ?_).trans (if_pos (by simp [hdrain])))), lsRefuse_refused ..⟩
    simp [hretired]
    omega
  · intro fn n s hfn hnone hn hstaged
    refine ⟨_, congrArg Host.Outcome.next ((lsCmd_go hfn hnone).trans ((if_neg (by omega)).trans (if_neg (by simpa using hstaged)))),
      ⟨rfl, rfl, rfl⟩, List.mem_cons_self, rfl⟩
  · intro fn n s hfn hnone hn hstaged
    exact ⟨_, congrArg Host.Outcome.next ((lsCmd_go hfn hnone).trans ((if_neg (by omega)).trans (if_pos (by simp [hstaged])))),
      lsRefuse_refused ..⟩
  · intro fn n op i s hfn hbusy hmem
    simp only [List.mem_cons, Prod.mk.injEq, List.not_mem_nil, or_false] at hmem
    rcases hmem with ⟨rfl, rfl⟩ | ⟨rfl, rfl⟩ | ⟨rfl, rfl⟩ | ⟨rfl, rfl⟩ | ⟨rfl, rfl⟩
    all_goals exact ⟨_, congrArg Host.Outcome.next (lsCmd_busy hfn hbusy), lsRefuse_refused ..⟩
  · intro fn n op top i s hfn hnone htop hmem
    simp only [List.mem_cons, Prod.mk.injEq, List.not_mem_nil, or_false] at hmem
    rcases hmem with ⟨rfl, rfl, rfl⟩ | ⟨rfl, rfl, rfl⟩ | ⟨rfl, rfl, rfl⟩ | ⟨rfl, rfl, rfl⟩ | ⟨rfl, rfl, rfl⟩
    · exact ⟨_, congrArg Host.Outcome.next ((lsCmd_go hfn hnone).trans (if_pos (.inl htop))), lsRefuse_refused ..⟩
    · exact ⟨_, congrArg Host.Outcome.next ((lsCmd_go hfn hnone).trans (if_pos (.inl htop))), lsRefuse_refused ..⟩
    · exact ⟨_, congrArg Host.Outcome.next ((lsCmd_go hfn hnone).trans (if_pos htop)), lsRefuse_refused ..⟩
    · exact ⟨_, congrArg Host.Outcome.next ((lsCmd_go hfn hnone).trans (if_pos (.inl htop))), lsRefuse_refused ..⟩
    · exact ⟨_, congrArg Host.Outcome.next ((lsCmd_go hfn hnone).trans (if_pos htop)), lsRefuse_refused ..⟩
  · intro fn n i s hfn hmem
    simp only [List.mem_cons, List.not_mem_nil, or_false] at hmem
    rcases hmem with rfl | rfl | rfl | rfl | rfl
    all_goals exact congrArg Host.Outcome.next (lsCmd_virtual hfn)
  · intro o s ho
    obtain ⟨g, r, hcount⟩ := evCount_only 11 1 s.boot.lsTotal s
    obtain ⟨t, ht⟩ : ∃ t : State, t = { s with hif := g, regs := r } := ⟨_, rfl⟩
    have hboot : t.boot = s.boot := by rw [ht]
    have hobj : t.obj = s.obj := by rw [ht]
    have hmgmt : t.mgmt = s.mgmt := by rw [ht]
    have hexec := exec_lsOperationEnd ho
    have hended : lsEnded o s = modBoot (fun b => { b with
        lsOp := none, lsResult := 0, lsValid := true, lsLast := o.op, lsProgress := b.lsTotal }) (lsEffect o t) := by
      rw [lsEnded, hcount, ht]
    have hkept := lsEffect_lsKept t o
    have hstack (h : o.op = 1) : StackOut o.target (lsEffect o t) := lsEffect_stack (s := t) h ▸ endRetireStack_out t _
    have hchannel (h : o.op = 2) : ChannelGone o.target (lsEffect o t) ∧
        ((∀ c ∈ t.obj.collections, c.2.frozen = false) → (channelOf (lsEffect o t) o.target).blocks = []) :=
      lsEffect_channel (s := t) h ▸ endRetireChannel_out t _
    have hport (h : o.op = 3) (hp : o.prior ≠ .down) : (portOf (lsEffect o t) o.target).state = o.prior :=
      lsEffect_port (s := t) h ▸ endRecalibrate_state t hp
    have hcluster (h : o.op = 4) (v : Nat) (hv : s.boot.stagedUcode = some v) := lsEffect_microcode_ucode (s := t) h (hboot ▸ hv)
    have hhub (h : o.op = 5) : (lsEffect o t).boot = s.boot.hubRestarted o.target := hboot ▸ lsEffect_hub_boot h
    generalize lsEffect o t = u at hended hkept hstack hchannel hport hcluster hhub
    rw [hended] at hexec
    obtain ⟨m, g', r', hrec, hlast⟩ := recordEvent_only 0 11 0x0602 0 [o.op, o.target] (modBoot (fun b => { b with
        lsOp := none, lsResult := 0, lsValid := true, lsLast := o.op, lsProgress := b.lsTotal }) u)
    rw [hrec] at hexec
    refine ⟨_, hexec, rfl, rfl, rfl, rfl, hkept.total.trans (congrArg Boot.lsTotal hboot), ?_, hstack,
      fun h => ?_, hport, hcluster, fun h v hv => ?_⟩
    · exact Nat.lt_of_le_of_lt (hmgmt ▸ hkept.lastSeq) hlast
    · obtain ⟨⟨hretired, hok⟩, hblocks⟩ := hchannel h
      exact ⟨hretired, hok, fun hf => hblocks (hobj ▸ hf)⟩
    · have hfw : mgetD (s.boot.hubRestarted o.target).hubFw o.target 0 = v := by
        rw [Boot.hubRestarted, mgetD_mset_same, hv, Option.getD_some]
      have hdone : o.target ∉ (s.boot.hubRestarted o.target).hubRestart := by simp [Boot.hubRestarted]
      rw [← hhub h] at hfw hdone
      exact ⟨hfw, hdone⟩
  · intro s hnone
    refine congrArg Host.Outcome.next ?_
    rw [hnone]

end Sys2Proof.Machine
end

section
/-! PROOFS. The SPDM responder, its sessions and its relay (18 R664, R666, R675 to R677). -/

-- One declaration after the other: the stacks of the threads that elaborate so long a text at once pass the check's limit.
set_option Elab.async false

namespace Sys2Proof.Machine

/-! ### Answers on a mailbox (18 R675) -/

/-- The responder's state with one more answer on a mailbox. -/
def Sec.saying (mb : Nat) (b : Bytes) (c : Sec) : Sec := { c with responses := (mb, b) :: c.responses }

/-- Delivering an answer adds it to the mailbox's and counts it. -/
theorem respond_modSec (mb : Nat) (b : Bytes) (f : Sec → Sec) (s : State) : ∃ g r,
    respond mb (b, modSec f s) = { s with sec := (f s.sec).saying mb b, hif := g, regs := r } := by
  obtain ⟨g, r, hcount⟩ := evCount_only 12 1 1 (modSec (fun c => { c with responses := (mb, b) :: c.responses }) (modSec f s))
  exact ⟨g, r, hcount⟩

section
variable {m : SpdmMsg} {i : Instr} {s : State} {reply : SpdmReply} {b : Bytes} {f : Sec → Sec}

/-- A request on a mailbox that takes messages is answered with its reply. -/
theorem spdm_answered (hmailbox : m.mailbox ≤ 2) (hexec : exec i s = .next (if mailboxOk m then respond m.mailbox reply else s))
    (hreply : reply = (b, modSec f s)) :
    ∃ u, exec i s = .next u ∧ u.sec = (f s.sec).saying m.mailbox b ∧ SecOnly s u := by
  obtain ⟨g, r, hsaid⟩ := respond_modSec m.mailbox b f s
  rw [if_pos (show mailboxOk m = true from decide_eq_true hmailbox), hreply, hsaid] at hexec
  exact ⟨_, hexec, rfl, rfl⟩

/-- A request on another mailbox is not taken. -/
theorem spdm_noMailbox (hmailbox : 2 < m.mailbox) (hexec : exec i s = .next (if mailboxOk m then respond m.mailbox reply else s)) :
    exec i s = .next s := by
  rw [hexec, if_neg (by simp [mailboxOk, hmailbox])]

/-- A request that changes nothing of the responder but its answers. -/
theorem spdm_onlySays (hmailbox : m.mailbox ≤ 2) (hexec : exec i s = .next (if mailboxOk m then respond m.mailbox reply else s))
    (hreply : reply = (b, s)) :
    ∃ u, exec i s = .next u ∧ u.sec = s.sec.saying m.mailbox b ∧ SecOnly s u :=
  spdm_answered (f := id) hmailbox hexec hreply

end

/-! ### The replies outside sessions (18 R664, R666, R677) -/

section
variable {m : SpdmMsg} {s : State}

theorem measureReply_one (hunsigned : (rd m.msg 2 1).testBit 0 = false) (h1 : 1 ≤ rd m.msg 3 1) (h10 : rd m.msg 3 1 ≤ 10) :
    measureReply m s = (spdmHead 0x60 0 0 ++ leBytes 1 1 ++ leBytes 3 (measureBlock s (rd m.msg 3 1)).length ++
      measureBlock s (rd m.msg 3 1) ++ nonceBytes s.sec.draws ++ leBytes 2 0, modSec (fun c => { c with draws := c.draws + 1 }) s) := by
  have h0 : rd m.msg 3 1 ≠ 0 := by omega
  have hff : rd m.msg 3 1 ≠ 0xFF := by omega
  unfold measureReply
  dsimp only
  rw [if_neg (by omega), if_neg (by simp [hunsigned]), if_neg (by simp [hunsigned]), if_neg h0, if_neg h0, if_neg hff, if_pos h10]
  simp [drawNonce]

theorem measureReply_noKey (hsigned : (rd m.msg 2 1).testBit 0 = true) (hkey : s.sec.identityOk = false) (h10 : rd m.msg 3 1 ≤ 10) :
    measureReply m s = (spdmError 5, s) := by
  unfold measureReply
  dsimp only
  rw [if_neg (by omega), if_pos (by simp [hsigned, hkey])]

/-- The bytes of a challenge's answer that are signed. -/
def challengeBytes (m : SpdmMsg) (s : State) : Bytes :=
  spdmHead 0x03 0 1 ++ Config.sha512 Config.certChain ++ nonceBytes s.sec.draws ++
    (if rd m.msg 3 1 = 0 then [] else Config.sha512 ((List.range 10).flatMap fun i => measureBlock s (i + 1))) ++ leBytes 2 0

theorem challengeReply_signed (hslot : rd m.msg 2 1 = 0) (hkey : s.sec.identityOk = true) :
    challengeReply m s = (spdmSigned m (challengeBytes m s), modSec (fun c => { c with draws := c.draws + 1 }) s) :=
  (if_neg (not_not.mpr hslot)).trans (if_neg (by simp [hkey]))

theorem challengeReply_slot (hslot : rd m.msg 2 1 ≠ 0) : challengeReply m s = (spdmError 1, s) := if_pos hslot

/-- After its head, the answer to a challenge holds the digest of the certificate chain. -/
theorem challengeBytes_chain (m : SpdmMsg) (s : State) :
    ((challengeBytes m s).drop 4).take (Config.sha512 Config.certChain).length = Config.sha512 Config.certChain := by
  have hhead : (spdmHead 0x03 0 1).length = 4 := rfl
  rw [challengeBytes, List.append_assoc, List.append_assoc, List.append_assoc, ← hhead, List.drop_left, List.take_left]

/-- The bytes of a key exchange's answer that are signed. -/
def exchangeBytes (s : State) : Bytes :=
  spdmHead 0x64 0 0 ++ leBytes 2 s.sec.nextSession ++ leBytes 1 1 ++ leBytes 1 0 ++ nonceBytes s.sec.draws ++ Config.dhShare s.sec.nextSession

theorem keyExchangeReply_begins (hslot : rd m.msg 3 1 = 0) (hkey : s.sec.identityOk = true) :
    keyExchangeReply m s = (spdmSigned m (exchangeBytes s), modSec (fun c => { c with
      draws := c.draws + 1, nextSession := c.nextSession + 1,
      sessions := mset c.sessions c.nextSession { mailbox := m.mailbox, began := now s } }) s) :=
  (if_neg (not_not.mpr hslot)).trans (if_neg (by simp [hkey]))

end

/-! ### The replies inside sessions (18 R675) -/

section
variable {m : SpdmMsg} {x : SpdmSession} {s : State}

theorem sessionOf_eq (hx : mget s.sec.sessions m.session = some x) (hmailbox : x.mailbox = m.mailbox) : sessionOf m s = some x := by
  simp [sessionOf, hx, hmailbox, Option.filter]

theorem sessionOf_none (hx : mget s.sec.sessions m.session = none) : sessionOf m s = none := by
  simp [sessionOf, hx]

theorem inSession_established (hx : sessionOf m s = some x) (hest : x.established = true) (act : SpdmSession → SpdmReply) :
    inSession m s act = act x := by
  simp [inSession, hx, hest, Option.filter]

theorem inSession_none (hx : sessionOf m s = none) (act : SpdmSession → SpdmReply) : inSession m s act = (spdmError 2, s) := by
  simp [inSession, hx]

theorem finishReply_open (hx : sessionOf m s = some x) (hest : x.established = false) : finishReply_ m s =
    if Config.finishOk m.session m.msg then (spdmHead 0x65 0 0, modSec (fun c => { c with
      sessions := mset c.sessions m.session { x with established := true, mutualAuth := m.mutualAuth } }) s)
    else (spdmError 6, modSec (fun c => { c with sessions := merase c.sessions m.session }) s) := by
  simp [finishReply_, hx, hest, Option.filter]

theorem finishReply_none (hx : sessionOf m s = none) : finishReply_ m s = (spdmError 2, s) := by
  simp [finishReply_, hx]

theorem keyUpdateReply_makes (hx : sessionOf m s = some x) (hest : x.established = true) (hop : rd m.msg 2 1 = 1 ∨ rd m.msg 2 1 = 2) :
    keyUpdateReply m s = (spdmHead 0x69 (rd m.msg 2 1) (rd m.msg 3 1), modSec (fun c => { c with
      sessions := mset c.sessions m.session { x with keyGen := x.keyGen + 1 } }) s) := by
  refine (inSession_established hx hest _).trans ?_
  dsimp only
  rw [if_neg (by omega), if_neg (by omega)]

end

/-! ### The relay (18 R675; 16 R603, R605) -/

/-- A reply changes the responder's own state alone, and none of its answers so far. -/
def RepliesFrom (s : State) (r : SpdmReply) : Prop := ∃ f : Sec → Sec, (f s.sec).responses = s.sec.responses ∧ r.2 = modSec f s

/-- The draw of a nonce leaves the answers. -/
theorem repliesFrom_draw (b : Bytes) (s : State) : RepliesFrom s (b, (drawNonce s).2) := ⟨fun c => { c with draws := c.draws + 1 }, rfl, rfl⟩

/-- A change of the sessions leaves the answers. -/
theorem repliesFrom_sessions (b : Bytes) (f : Map SpdmSession → Map SpdmSession) (s : State) :
    RepliesFrom s (b, modSec (fun c => { c with sessions := f c.sessions }) s) := ⟨fun c => { c with sessions := f c.sessions }, rfl, rfl⟩

theorem repliesFrom_same (b : Bytes) (s : State) : RepliesFrom s (b, s) := ⟨id, rfl, rfl⟩

theorem inSession_repliesFrom (m : SpdmMsg) (s : State) {act : SpdmSession → SpdmReply} (h : ∀ x, RepliesFrom s (act x)) :
    RepliesFrom s (inSession m s act) := by
  unfold inSession
  split
  · exact h _
  · exact repliesFrom_same ..

theorem measureReply_repliesFrom (m : SpdmMsg) (s : State) : RepliesFrom s (measureReply m s) := by
  unfold measureReply
  dsimp only
  split
  · exact repliesFrom_same ..
  · split
    · exact repliesFrom_same ..
    · exact repliesFrom_draw ..

theorem challengeReply_repliesFrom (m : SpdmMsg) (s : State) : RepliesFrom s (challengeReply m s) := by
  unfold challengeReply
  dsimp only
  split
  · exact repliesFrom_same ..
  · split
    · exact repliesFrom_same ..
    · exact repliesFrom_draw ..

theorem keyExchangeReply_repliesFrom (m : SpdmMsg) (s : State) : RepliesFrom s (keyExchangeReply m s) := by
  unfold keyExchangeReply
  dsimp only
  split
  · exact repliesFrom_same ..
  · split
    · exact repliesFrom_same ..
    · exact ⟨fun c => { c with
        draws := c.draws + 1, nextSession := c.nextSession + 1
        sessions := mset c.sessions s.sec.nextSession { mailbox := m.mailbox, began := now s } }, rfl, rfl⟩

theorem finishReply_repliesFrom (m : SpdmMsg) (s : State) : RepliesFrom s (finishReply_ m s) := by
  unfold finishReply_
  split
  · exact repliesFrom_same ..
  · split
    · exact repliesFrom_sessions _ (fun l => mset l m.session _) s
    · exact repliesFrom_sessions _ (fun l => merase l m.session) s

theorem keyUpdateReply_repliesFrom (m : SpdmMsg) (s : State) : RepliesFrom s (keyUpdateReply m s) := by
  refine inSession_repliesFrom m s fun x => ?_
  dsimp only
  split
  · exact repliesFrom_same ..
  · split
    · exact repliesFrom_same ..
    · exact repliesFrom_sessions _ (fun l => mset l m.session _) s

theorem spdmByCode_repliesFrom (m : SpdmMsg) (s : State) : RepliesFrom s (spdmByCode m s) := by
  unfold spdmByCode
  split
  · exact measureReply_repliesFrom m s
  · exact challengeReply_repliesFrom m s
  · exact keyExchangeReply_repliesFrom m s
  · exact finishReply_repliesFrom m s
  · exact keyUpdateReply_repliesFrom m s
  · exact inSession_repliesFrom m s fun _ => repliesFrom_same ..
  · exact inSession_repliesFrom m s fun _ => repliesFrom_sessions _ (fun l => merase l m.session) s
  · exact repliesFrom_same ..

section
variable (m : SpdmMsg) (f : Fabric → Fabric) (s : State)

theorem measureReply_modFab : (measureReply m (modFab f s)).1 = (measureReply m s).1 := by
  simp only [measureReply, apply_ite Prod.fst]
  rfl

theorem challengeReply_modFab : (challengeReply m (modFab f s)).1 = (challengeReply m s).1 := by
  simp only [challengeReply, apply_ite Prod.fst]
  rfl

theorem keyExchangeReply_modFab : (keyExchangeReply m (modFab f s)).1 = (keyExchangeReply m s).1 := by
  simp only [keyExchangeReply, apply_ite Prod.fst]
  rfl

theorem inSession_modFab {act act' : SpdmSession → SpdmReply} (h : ∀ x, (act x).1 = (act' x).1) :
    (inSession m (modFab f s) act).1 = (inSession m s act').1 := by
  have hsession : sessionOf m (modFab f s) = sessionOf m s := rfl
  unfold inSession
  rw [hsession]
  split
  · exact h _
  · rfl

theorem finishReply_modFab : (finishReply_ m (modFab f s)).1 = (finishReply_ m s).1 := by
  have hsession : sessionOf m (modFab f s) = sessionOf m s := rfl
  unfold finishReply_
  rw [hsession]
  split
  · rfl
  · simp only [apply_ite Prod.fst]

theorem keyUpdateReply_modFab : (keyUpdateReply m (modFab f s)).1 = (keyUpdateReply m s).1 :=
  inSession_modFab m f s fun _ => by simp only [apply_ite Prod.fst]

/-- What a request is answered with does not depend on the fabric unit. -/
theorem spdmByCode_modFab : (spdmByCode m (modFab f s)).1 = (spdmByCode m s).1 := by
  unfold spdmByCode
  split
  · exact measureReply_modFab m f s
  · exact challengeReply_modFab m f s
  · exact keyExchangeReply_modFab m f s
  · exact finishReply_modFab m f s
  · exact keyUpdateReply_modFab m f s
  · exact inSession_modFab m f s fun _ => rfl
  · exact inSession_modFab m f s fun _ => rfl
  · rfl

end

theorem Transports.sec {s t : State} (h : Transports s t) : t.sec = s.sec := by
  have hkept : t = { s with fab := t.fab, hif := t.hif, regs := t.regs } := h.sends.only
  rw [hkept]

/-- What is sent from a state that differs in the responder too differs in no other unit. -/
theorem Transports.fabAndSec {s t u : State} (h : Transports t u) (k : t = { s with fab := t.fab, sec := t.sec, hif := t.hif, regs := t.regs }) :
    u = { s with fab := u.fab, sec := u.sec, hif := u.hif, regs := u.regs } := by
  have hu : u = { t with fab := u.fab, hif := u.hif, regs := u.regs } := h.sends.only
  rw [h.sec]
  refine Eq.trans hu ?_
  rw [k]

/-- A relayed request that has been taken. -/
def relayed (p : Packet) (s : State) : State := taken { p with ptype := 0x49 } s

theorem exec_spdmRelay {p : Packet} {s : State} (hanchor : FromAnchor p s) (hnot : s.fab.anchor = false) :
    exec (.spdmRelay p) s = .next (relayHere { p with ptype := 0x49 } (relayed p s)) := by
  obtain ⟨hdst, hstate, hsrc⟩ := hanchor
  exact congrArg Host.Outcome.next <| (if_neg hstate).trans <| (if_neg (not_not.mpr hdst)).trans <|
    (if_neg (by simp [hnot])).trans (if_neg (by simp [hsrc]))

/-- The answer to a relayed request: its reply is delivered on the relay's mailbox, and sent to the asker. -/
theorem relayHere_request {q : Packet} {b : Bytes} {f : Sec → Sec} {s : State} (hreq : 0x80 ≤ rd q.payload 1 1)
    (hreply : spdmByCode { mailbox := 2, session := q.src, msg := q.payload } s = (b, modSec f s)) :
    relayHere q s = sendAll { ptype := 0x49, dst := q.src, arg0 := BitVec.ofNat 32 q.src, payload := b } (respond 2 (b, modSec f s)) := by
  refine (if_neg (Nat.not_lt.mpr hreq)).trans ?_
  dsimp only
  rw [hreply]

theorem relayHere_response {q : Packet} (hresp : rd q.payload 1 1 < 0x80) (s : State) :
    relayHere q s = modFab (fun f => { f with delivered := f.delivered ++ [q] }) s := if_pos hresp

/-- Settles O52: each request by its reply, the relayed one by the reply of the state before it was taken. -/
theorem secureSessions : Obligations.secure_sessions := by
  refine ⟨?_, ?_, ?_, ?_, ?_, ?_, ?_, ?_, ?_, ?_, ?_, ?_⟩
  · intro m s hmailbox hunsigned h1 h10
    obtain ⟨u, hexec, hsec, honly⟩ := spdm_answered (i := .getMeasurements m) hmailbox rfl (measureReply_one hunsigned h1 h10)
    exact ⟨u, hexec, by rw [Says, hsec]; rfl, by rw [hsec]; rfl, by rw [hsec]; rfl, honly⟩
  · intro m s hmailbox hsigned hkey h10
    obtain ⟨u, hexec, hsec, honly⟩ := spdm_onlySays (i := .getMeasurements m) hmailbox rfl (measureReply_noKey hsigned hkey h10)
    exact ⟨u, hexec, by rw [Says, hsec]; rfl, by rw [hsec]; rfl, honly⟩
  · intro m s hmailbox hslot hkey
    obtain ⟨u, hexec, hsec, honly⟩ := spdm_answered (i := .spdmChallenge m) hmailbox rfl (challengeReply_signed hslot hkey)
    exact ⟨u, challengeBytes m s, hexec, by rw [Says, hsec]; rfl, rfl, challengeBytes_chain m s, by rw [hsec]; rfl, honly⟩
  · intro m s hmailbox hslot
    obtain ⟨u, hexec, hsec, honly⟩ := spdm_onlySays (i := .spdmChallenge m) hmailbox rfl (challengeReply_slot (s := s) hslot)
    exact ⟨u, hexec, by rw [Says, hsec]; rfl, by rw [hsec]; rfl, honly⟩
  · intro m s hmailbox hslot hkey
    obtain ⟨u, hexec, hsec, honly⟩ := spdm_answered (i := .keyExchange m) hmailbox rfl (keyExchangeReply_begins hslot hkey)
    refine ⟨u, exchangeBytes s, hexec, by rw [Says, hsec]; rfl, rfl, by rw [hsec]; rfl, ?_, fun j hj => ?_, honly⟩
    · rw [hsec]
      exact mget_mset_same ..
    · rw [hsec]
      exact mget_mset_other _ _ _ _ hj
  · intro m x s hmailbox hx hown hest
    have hreply := finishReply_open (sessionOf_eq hx hown) hest
    by_cases hok : Config.finishOk m.session m.msg = true
    · rw [if_pos hok] at hreply
      obtain ⟨u, hexec, hsec, honly⟩ := spdm_answered (i := .spdmFinish m) hmailbox rfl hreply
      refine ⟨u, hexec, ?_, fun j hj => ?_, honly⟩
      · rw [if_pos hok, Says, hsec]
        exact ⟨mget_mset_same .., rfl⟩
      · rw [hsec]
        exact mget_mset_other _ _ _ _ hj
    · rw [if_neg hok] at hreply
      obtain ⟨u, hexec, hsec, honly⟩ := spdm_answered (i := .spdmFinish m) hmailbox rfl hreply
      refine ⟨u, hexec, ?_, fun j hj => ?_, honly⟩
      · rw [if_neg hok, Says, hsec]
        exact ⟨(mget_merase ..).trans (if_pos rfl), rfl⟩
      · rw [hsec]
        exact (mget_merase ..).trans (if_neg hj)
  · intro m x s hmailbox hx hown hest hop
    obtain ⟨u, hexec, hsec, honly⟩ := spdm_answered (i := .keyUpdate m) hmailbox rfl (keyUpdateReply_makes (sessionOf_eq hx hown) hest hop)
    refine ⟨u, hexec, by rw [Says, hsec]; rfl, ?_, fun j hj => ?_, honly⟩
    · rw [hsec]
      exact mget_mset_same ..
    · rw [hsec]
      exact mget_mset_other _ _ _ _ hj
  · intro m x s hmailbox hx hown hest
    have hin := inSession_established (sessionOf_eq hx hown) hest
    refine ⟨?_, ?_⟩
    · obtain ⟨u, hexec, hsec, honly⟩ := spdm_onlySays (i := .spdmHeartbeat m) hmailbox rfl (hin _)
      exact ⟨u, hexec, by rw [Says, hsec]; rfl, by rw [hsec]; rfl, honly⟩
    · obtain ⟨u, hexec, hsec, honly⟩ := spdm_answered (i := .endSession m) hmailbox rfl (hin _)
      refine ⟨u, hexec, by rw [Says, hsec]; rfl, ?_, fun j hj => ?_, honly⟩
      · rw [hsec]
        exact (mget_merase ..).trans (if_pos rfl)
      · rw [hsec]
        exact (mget_merase ..).trans (if_neg hj)
  · intro m i s hmailbox hx hi
    have hnone := sessionOf_none hx
    have hanswered : ∃ reply, exec i s = .next (if mailboxOk m then respond m.mailbox reply else s) ∧ reply = (spdmError 2, s) := by
      simp only [List.mem_cons, List.not_mem_nil, or_false] at hi
      rcases hi with rfl | rfl | rfl | rfl
      · exact ⟨_, rfl, finishReply_none hnone⟩
      · exact ⟨_, rfl, inSession_none hnone _⟩
      · exact ⟨_, rfl, inSession_none hnone _⟩
      · exact ⟨_, rfl, inSession_none hnone _⟩
    obtain ⟨reply, hexec, hreply⟩ := hanswered
    obtain ⟨u, hexec, hsec, honly⟩ := spdm_onlySays hmailbox hexec hreply
    exact ⟨u, hexec, by rw [Says, hsec]; rfl, by rw [hsec]; rfl, honly⟩
  · intro m i s hmailbox hi
    have hanswered : ∃ reply, exec i s = .next (if mailboxOk m then respond m.mailbox reply else s) := by
      simp only [List.mem_cons, List.not_mem_nil, or_false] at hi
      rcases hi with rfl | rfl | rfl | rfl | rfl | rfl | rfl <;> exact ⟨_, rfl⟩
    obtain ⟨reply, hexec⟩ := hanswered
    exact spdm_noMailbox hmailbox hexec
  · intro p s hanchor hnot hreq
    have hexec := exec_spdmRelay hanchor hnot
    obtain ⟨f, hkept, hstate⟩ := spdmByCode_repliesFrom { mailbox := 2, session := p.src, msg := p.payload } (relayed p s)
    obtain ⟨b, hb⟩ : ∃ b, b = (spdmByCode { mailbox := 2, session := p.src, msg := p.payload } s).1 := ⟨_, rfl⟩
    have hbytes : (spdmByCode { mailbox := 2, session := p.src, msg := p.payload } (relayed p s)).1 = b :=
      (spdmByCode_modFab _ _ s).trans hb.symm
    have hreply : spdmByCode { mailbox := 2, session := p.src, msg := p.payload } (relayed p s) = (b, modSec f (relayed p s)) :=
      Prod.ext hbytes hstate
    rw [← hb]
    obtain ⟨g, r, hsaid⟩ := respond_modSec 2 b f (relayed p s)
    rw [relayHere_request (q := { p with ptype := 0x49 }) hreq hreply, hsaid] at hexec
    obtain ⟨t, ht⟩ : ∃ t : State, t = { relayed p s with sec := (f (relayed p s).sec).saying 2 b, hif := g, regs := r } := ⟨_, rfl⟩
    rw [← ht] at hexec
    have hsent := sendAll_transports t { ptype := 0x49, dst := p.src, arg0 := BitVec.ofNat 32 p.src, payload := b }
    refine ⟨_, hexec, ?_, ?_⟩
    · rw [Says, hsent.sec, ht]
      exact congrArg ((2, b) :: ·) hkept
    · exact hsent.fabAndSec (by rw [ht]; rfl)
  · intro p s hanchor hnot hresp
    have hexec := exec_spdmRelay hanchor hnot
    rw [relayHere_response (q := { p with ptype := 0x49 }) hresp] at hexec
    exact ⟨_, hexec, List.mem_append_right _ List.mem_cons_self, rfl⟩

end Sys2Proof.Machine
end

section
/-! PROOFS. The clearing of the recorder, and debug unlock with its challenge (18 R686, R687, R691; 19 R724). -/

-- One declaration after the other: the stacks of the threads that elaborate so long a text at once pass the check's limit.
set_option Elab.async false

namespace Sys2Proof.Machine

/-! ### What a cleared recorder holds (19 R716, R724) -/

/-- Every record and snapshot set is numbered above one that has been given. -/
structure NumberedAbove (n : Nat) (m : Mgmt) : Prop where
  last : n ≤ m.lastSeq
  records : ∀ r ∈ m.records, n < r.seq
  snaps : ∀ x ∈ m.snaps, n < x.seq

section
variable {n : Nat} {s : State}

theorem wrapArea_numberedAbove (h : NumberedAbove n s.mgmt) : NumberedAbove n (wrapArea s).mgmt := by
  unfold wrapArea
  extract_lets m excess k gone last gap
  have hgap : n < gap.seal.seq := Nat.lt_succ_of_le h.last
  clear_value excess k last gap
  split
  · exact h
  · refine ⟨Nat.le_succ_of_le h.last, fun r hr => ?_, fun x hx => h.snaps x (List.mem_filter.mp hx).1⟩
    rcases List.mem_append.mp hr with hr | hr
    · exact h.records r (List.mem_of_mem_drop hr)
    · rw [List.mem_singleton.mp hr]
      exact hgap

theorem flushSnaps_numberedAbove (h : NumberedAbove n s.mgmt) : NumberedAbove n (flushSnaps s).mgmt := by
  unfold flushSnaps
  refine wrapArea_numberedAbove ⟨h.last, h.records, fun x hx => ?_⟩
  obtain ⟨y, hy, rfl⟩ := List.mem_map.mp hx
  exact h.snaps y hy

theorem recordWith_numberedAbove (asked : Option Nat) (kind sev source code inst : Nat) (sup : Option Nat) (pl : List Nat)
    (h : NumberedAbove n s.mgmt) : NumberedAbove n (recordWith asked kind sev source code inst sup pl s).mgmt := by
  unfold recordWith
  extract_lets m trig full seq r s1 s2 s3
  have hr : n < r.seal.seq := Nat.lt_succ_of_le h.last
  have hseq : n ≤ seq := Nat.le_succ_of_le h.last
  clear_value trig full seq r
  have h1 : NumberedAbove n s1.mgmt := by
    refine ⟨hseq, fun x hx => ?_, h.snaps⟩
    rcases List.mem_append.mp hx with hx | hx
    · exact h.records x hx
    · rw [List.mem_singleton.mp hx]
      exact hr
  have h2 : s2.mgmt = s1.mgmt := by
    simp only [s2, whenS]
    split
    · exact irqEval_mgmt ..
    · rfl
  have h3 : NumberedAbove n s3.mgmt := by
    rw [show s3.mgmt = (wrapArea s2).mgmt from evCount_mgmt ..]
    exact wrapArea_numberedAbove (by rw [h2]; exact h1)
  unfold whenS
  split
  · exact flushSnaps_numberedAbove h3
  · exact h3

end

/-- A record of any kind takes a number above every earlier one (19 R716). -/
theorem recordFull_lastSeq_lt (kind sev source code inst : Nat) (sup : Option Nat) (pl : List Nat) (s : State) :
    s.mgmt.lastSeq < (recordFull kind sev source code inst sup pl s).mgmt.lastSeq := by
  have hflush (c : Bool) (t : State) : t.mgmt.lastSeq ≤ (whenS c flushSnaps t).mgmt.lastSeq := by
    unfold whenS
    split
    · exact flushSnaps_lastSeq_le t
    · exact Nat.le_refl _
  unfold recordFull recordWith
  dsimp only
  refine Nat.lt_of_lt_of_le ?_ (hflush _ _)
  rw [evCount_mgmt]
  refine Nat.lt_of_lt_of_le ?_ (wrapArea_lastSeq_le _)
  unfold whenS
  split <;> simp

/-- The recorder without what is numbered up to one that has been given. -/
def Mgmt.clearedTo (n : Nat) (m : Mgmt) : Mgmt :=
  { m with records := m.records.filter (fun r => decide (n < r.seq)), snaps := m.snaps.filter (fun x => decide (n < x.seq)) }

theorem clearedTo_numberedAbove {n : Nat} {m : Mgmt} (h : n ≤ m.lastSeq) : NumberedAbove n (m.clearedTo n) :=
  ⟨h, fun _ hr => of_decide_eq_true (List.mem_filter.mp hr).2, fun _ hx => of_decide_eq_true (List.mem_filter.mp hx).2⟩

/-- A record keeps what is left of a recorder numbered above what was cleared. -/
theorem recordFull_above {n : Nat} {s : State} (h : NumberedAbove n s.mgmt) (kind sev source code inst : Nat) (sup : Option Nat)
    (pl : List Nat) : ∃ m g r, recordFull kind sev source code inst sup pl s = { s with mgmt := m, hif := g, regs := r } ∧
      NumberedAbove n m ∧ s.mgmt.lastSeq < m.lastSeq :=
  ⟨_, _, _, recordFull_mgmtOnly s kind sev source code inst sup pl, recordWith_numberedAbove none kind sev source code inst sup pl h,
    recordFull_lastSeq_lt ..⟩

/-- The number of records up to a number. -/
def recordsUpTo (n : Nat) (s : State) : Nat := (s.mgmt.records.filter fun r => decide (r.seq ≤ n)).length

section
variable {k n : Nat} {x : SpdmSession} {s : State}

/-- A session that may not clear the recorder is not answered. -/
theorem exec_recorderClear_refused (hx : mget s.sec.sessions k = some x) (hno : x.established = false ∨ x.mutualAuth = false) :
    exec (.recorderClear k n) s = .next s := by
  have hnone : (mget s.sec.sessions k).filter (fun x => x.established && x.mutualAuth) = none := by
    rcases hno with h | h <;> simp [hx, h, Option.filter]
  refine congrArg Host.Outcome.next ?_
  rw [hnone]

theorem exec_recorderClear (hx : mget s.sec.sessions k = some x) (hest : x.established = true) (hmutual : x.mutualAuth = true)
    (hn : n ≤ s.mgmt.lastSeq) : exec (.recorderClear k n) s = .next (respond x.mailbox
      (if Config.recorderClearOk k then (spdmHead 0x7E 0 0, recordFull 0x63 0 13 0x0900 0 none
        [n, recordsUpTo n s, (Config.requesterKey k 0).toNat, (Config.requesterKey k 1).toNat, x.began] (modMgmt (Mgmt.clearedTo n) s))
      else (spdmError 1, s))) := by
  have hsome : (mget s.sec.sessions k).filter (fun x => x.established && x.mutualAuth) = some x := by
    simp [hx, hest, hmutual, Option.filter]
  refine congrArg Host.Outcome.next ?_
  rw [hsome]
  dsimp only
  cases hok : Config.recorderClearOk k with
  | true => exact if_neg (by simp [hn])
  | false => exact if_pos (by simp)

end

/-! ### What a disable leaves of the keys and the recorder (14 R541) -/

/-- The security unit and the recorder. -/
def secMgmt (s : State) : Sec × Mgmt := (s.sec, s.mgmt)

section
variable (s : State)

theorem chargeHeld_sec (e : Nat) (x : RtEntry) : (chargeHeld e x s).sec = s.sec := by
  unfold chargeHeld
  split
  · exact charge_sec ..
  · rfl

theorem endUnitsOf_sec (e : Nat) : (endUnitsOf e s).sec = s.sec := by
  refine foldS_keeps (fun t => t.sec) _ _ s fun t u => ?_
  have hend (v : State) : (endUnit u.1 v).sec = v.sec := by
    obtain ⟨l, b, -, h⟩ := endUnit_only u.1 v
    rw [h]
  rw [hend]
  split
  · exact foldS_keeps (fun t => t.sec) _ _ t fun v m => charge_sec ..
  · rfl

theorem killEntry_sec (e : Nat) : (killEntry e s).sec = s.sec := by
  unfold killEntry
  split <;> rfl

theorem completeEntry_sec (e result : Nat) : (completeEntry e result s).sec = s.sec := by
  unfold completeEntry
  split
  · rfl
  · dsimp only
    split
    · rfl
    · split <;> simp [modWork]

theorem sendUnpins_sec (e : Nat) : (sendUnpins e s).sec = s.sec := by
  unfold sendUnpins
  split
  · rfl
  · refine foldS_keeps (fun t => t.sec) _ _ s fun t p => ?_
    split
    · rw [modFab_sec, (sendReq_sendsOnly t _ _).only]
    · rfl

theorem returnEntry_sec (e : Nat) : (returnEntry e s).sec = s.sec := by
  obtain ⟨l, b, o, m, f, h⟩ := (returnEntry_returns e s).frame
  rw [h]

theorem openEnd_sec (e status detail stage : Nat) (x : RtEntry) : (openEnd e status detail stage x s).sec = s.sec := by
  simp only [openEnd, markedEntry, evCount_sec, modGen_sec, charge_sec, chargeHeld_sec, modEntry_sec]

theorem closeEnd_sec (e result : Nat) (x : RtEntry) : (closeEnd e result x s).sec = s.sec := by
  have hanswered : (finishCanceller e (sendUnpins e (completeEntry e result (killEntry e s)))).sec = s.sec := by
    refine (foldS_keeps (fun t => t.sec) _ _ _ fun t q => complete_sec ..).trans ?_
    rw [modEntry_sec, sendUnpins_sec, completeEntry_sec, killEntry_sec]
  unfold closeEnd
  dsimp only
  split
  · exact hanswered
  · exact (returnEntry_sec ..).trans hanswered

theorem endEntry_secMgmt (e status detail stage result : Nat) : secMgmt (endEntry e status detail stage result s) = secMgmt s := by
  have hsec : (endEntry e status detail stage result s).sec = s.sec := by
    cases hx : mget s.gen.entries e with
    | none => simp [endEntry, entryOf, hx]
    | some x =>
      by_cases hs : x.state = .drain
      · simp [endEntry, entryOf, hx, hs]
      · rw [endEntry_eq status detail stage result hx hs, closeEnd_sec, endUnitsOf_sec, openEnd_sec]
  exact Prod.ext hsec (endEntry_mgmt ..)

theorem disableEntry_secMgmt (e : Nat) : secMgmt (disableEntry e s) = secMgmt s := by
  unfold disableEntry
  split
  · rfl
  · dsimp only
    split
    · rfl
    · exact endEntry_secMgmt ..
    · exact endEntry_secMgmt ..
    · rfl
    · split
      · split
        · exact endEntry_secMgmt ..
        · rfl
      · split
        · exact endEntry_secMgmt ..
        · split
          · exact Prod.ext (killEntry_sec ..) (killEntry_mgmt ..)
          · rfl

theorem acceptWrites_secMgmt (l : List UnitWrite) : secMgmt (acceptWrites l s) = secMgmt s :=
  Prod.ext (acceptWrites_sec ..) (acceptWrites_mgmt ..)

theorem abortSession_secMgmt (id status : Nat) (written : Bool) : secMgmt (abortSession id status written s) = secMgmt s := by
  have hwrite (f : Collection → Collection) : secMgmt (writeColl id f s) = secMgmt s := by
    unfold writeColl
    split
    · exact acceptWrites_secMgmt _ _
    · rfl
  have hlog (l : List UnitWrite) (t : State) : secMgmt (whenS written (acceptWrites l) t) = secMgmt t := by
    unfold whenS
    split
    · exact acceptWrites_secMgmt _ _
    · rfl
  unfold abortSession
  split
  · rfl
  · split
    · rfl
    · dsimp only
      split
      · exact (Prod.ext (complete_sec ..) (complete_mgmt ..)).trans ((hlog _ _).trans (hwrite _))
      · exact (hlog _ _).trans (hwrite _)

theorem acceptDisable_secMgmt (f : Nat) : secMgmt (acceptDisable f s) = secMgmt s := by
  unfold acceptDisable
  split
  · rfl
  · extract_lets qs s1 s2 s3 s4 s5
    have h2 : secMgmt s2 = secMgmt s := foldS_keeps secMgmt _ _ s1 fun _ _ => rfl
    have h4 : secMgmt s4 = secMgmt s := (foldS_keeps secMgmt _ _ s3 fun t e => disableEntry_secMgmt t e).trans h2
    have h5 : secMgmt s5 = secMgmt s := (foldS_keeps secMgmt _ _ s4 fun t c => abortSession_secMgmt t c _ _).trans h4
    obtain ⟨o, x, hunused⟩ := releaseUnused_only (releaseBatons (fun b => b.fn == f) s5)
    rw [hunused, (releaseBatons_releases s5 0 fun b => b.fn == f).only]
    exact h5

end

/-! ### Debug unlock (18 R686, R687, R691) -/

section
variable {fn : Nat} {o : Bytes} {s : State}

theorem exec_secDbgChallenge_other (h : fn ≠ 1) : exec (.secDbgChallenge fn) s = .next s :=
  congrArg Host.Outcome.next (if_pos (by simp [isMgmtPf, h]))

theorem exec_secDbgRespond_other (h : fn ≠ 1) : exec (.secDbgRespond fn o) s = .next s :=
  congrArg Host.Outcome.next (if_pos (by simp [isMgmtPf, h]))

theorem exec_secDbgChallenge_shut (h : unlockAllowed s = false) : exec (.secDbgChallenge 1) s = .next (dbgResult 2 s) :=
  congrArg Host.Outcome.next ((if_neg (by simp [isMgmtPf])).trans (if_pos (by simp [h])))

theorem exec_secDbgRespond_shut (h : unlockAllowed s = false) : exec (.secDbgRespond 1 o) s = .next (dbgResult 2 s) :=
  congrArg Host.Outcome.next ((if_neg (by simp [isMgmtPf])).trans (if_pos (by simp [h])))

theorem exec_secDbgChallenge (h : unlockAllowed s = true) : exec (.secDbgChallenge 1) s = .next { s with sec := { s.sec with
    chal := some (s.sec.draws, now s), draws := s.sec.draws + 1, dbgResult := 0, dbgValid := true } } :=
  congrArg Host.Outcome.next ((if_neg (by simp [isMgmtPf])).trans (if_neg (by simp [h])))

/-- What the answer to a challenge changes of the security unit before its object is judged. -/
def Sec.answered (c : Sec) : Sec := { c with chal := none }

theorem exec_secDbgRespond_none (h : unlockAllowed s = true) (hnone : s.sec.chal = none) :
    exec (.secDbgRespond 1 o) s = .next (dbgResult 3 s) := by
  refine congrArg Host.Outcome.next ((if_neg (by simp [isMgmtPf])).trans ((if_neg (by simp [h])).trans ?_))
  rw [hnone]

theorem exec_secDbgRespond_late {n t : Nat} (h : unlockAllowed s = true) (hchal : s.sec.chal = some (n, t))
    (hlate : t + 600000000000 ≤ now s) : exec (.secDbgRespond 1 o) s = .next (dbgResult 3 (modSec Sec.answered s)) := by
  refine congrArg Host.Outcome.next ((if_neg (by simp [isMgmtPf])).trans ((if_neg (by simp [h])).trans ?_))
  rw [hchal]
  exact if_pos hlate

/-- A challenge that ends at an instant leaves no other unit but the time changed. -/
theorem answered_advanceTo (d : Nat) (s : State) : ∃ u, modSec Sec.answered (advanceTo d s) = u ∧ u.sec = { s.sec with chal := none } ∧
    d ≤ now u ∧ u.obj = s.obj ∧ u.mgmt = s.mgmt := by
  have hnow := le_now_advanceTo d s
  have hpassed : BootOnly s (advanceTo d s) := advanceTo_bootOnly _ s
  generalize advanceTo d s = u at hnow hpassed
  rw [BootOnly] at hpassed
  refine ⟨_, rfl, ?_, hnow, ?_, ?_⟩
  · rw [hpassed]
    rfl
  · rw [hpassed]
    rfl
  · rw [hpassed]
    rfl

theorem exec_challengeExpiry {n t : Nat} (hchal : s.sec.chal = some (n, t)) :
    exec .challengeExpiry s = .next (modSec Sec.answered (advanceTo (t + 600000000000) s)) := by
  refine congrArg Host.Outcome.next ?_
  rw [hchal]
  dsimp only
  exact congrArg (fun f => modSec f (advanceTo (t + 600000000000) s)) rfl

/-- An answer in time is judged by the object's signature, then by the challenge it holds. -/
def judgedUnlock (n : Nat) (o : Bytes) (s u : State) : State :=
  if !objectAccepted s 5 o then dbgResult 4 u
  else if (splitSigned o).1 ≠ chalBytes s n then dbgResult 5 u
  else unlockDebug u

theorem exec_secDbgRespond_inTime {n t : Nat} (h : unlockAllowed s = true) (hchal : s.sec.chal = some (n, t))
    (htime : now s < t + 600000000000) : exec (.secDbgRespond 1 o) s =
      .next (judgedUnlock n (o.take (s.sec.dbgLen.toNat % 65536)) s (evCount 12 2 1 (modSec Sec.answered s))) := by
  refine congrArg Host.Outcome.next ((if_neg (by simp [isMgmtPf])).trans ((if_neg (by simp [h])).trans ?_))
  rw [hchal]
  refine (if_neg (Nat.not_le.mpr htime)).trans ?_
  rfl

end

/-- Ending service leaves the level at 0 and the units but the recorder as they were. -/
theorem whenS_setLevel_zero (s : State) : ∃ m g r, whenS (s.boot.level != 0) (setLevel 0) s =
    { s with boot := { s.boot with level := 0 }, mgmt := m, hif := g, regs := r } ∧ s.mgmt.lastSeq ≤ m.lastSeq := by
  unfold whenS
  split
  · obtain ⟨m, g, r, hlevel, hlast⟩ := setLevel_only 0 s
    exact ⟨m, g, r, hlevel, hlast.le⟩
  next h =>
    have hzero : s.boot.level = 0 := by simpa using h
    exact ⟨s.mgmt, s.hif, s.regs, by rw [← hzero], Nat.le_refl _⟩

/-- The security unit once debug has been unlocked, its event recorded and the answer given (18 R687). -/
def Sec.unlock (c : Sec) : Sec :=
  { sealArea { c with keySets := [], boardKeys := [], keyFlash := [], unlocks := (c.unlocks + 1) % 2 ^ 32 } with
    unlocked := true, debugOpen := true }

/-- Unlocking ends service, zeroises the keys, opens debug and records it. -/
theorem unlockDebug_only (s : State) : ∃ (u : State) (v : Boot), unlockDebug s = u ∧ u.sec = { s.sec.unlock with dbgResult := 1, dbgValid := true } ∧
    u.boot = { v with level := 0 } ∧ s.mgmt.lastSeq < u.mgmt.lastSeq := by
  obtain ⟨t, ht⟩ : ∃ t, t = foldS allFns (fun t f => acceptDisable f t) s := ⟨_, rfl⟩
  have hkept : secMgmt t = secMgmt s := ht ▸ foldS_keeps secMgmt _ _ s fun t f => acceptDisable_secMgmt t f
  have hsec : t.sec = s.sec := congrArg Prod.fst hkept
  have hmgmt : t.mgmt = s.mgmt := congrArg Prod.snd hkept
  obtain ⟨w, hw⟩ : ∃ w, w = modSec (fun c => { sealArea { c with unlocks := (c.unlocks + 1) % 2 ^ 32 } with
    unlocked := true, debugOpen := true }) (zeroiseKeys t) := ⟨_, rfl⟩
  have hunlock : unlockDebug s =
      dbgResult 1 (recordEvent 2 12 0x0704 0 [w.sec.unlocks] (whenS (w.boot.level != 0) (setLevel 0) w)) := by
    rw [hw, ht]
    rfl
  have hwsec : w.sec = s.sec.unlock := by
    rw [hw, ← hsec]
    rfl
  have hwmgmt : w.mgmt = s.mgmt := by
    rw [hw, ← hmgmt]
    rfl
  obtain ⟨m, g, r, hlevel, hle⟩ := whenS_setLevel_zero w
  rw [hlevel] at hunlock
  obtain ⟨m', g', r', hrec, hlt⟩ := recordEvent_only 2 12 0x0704 0 [w.sec.unlocks]
    { w with boot := { w.boot with level := 0 }, mgmt := m, hif := g, regs := r }
  rw [hrec] at hunlock
  refine ⟨_, w.boot, hunlock, ?_, rfl, ?_⟩
  · rw [← hwsec]
    rfl
  · rw [← hwmgmt]
    exact Nat.lt_of_le_of_lt hle hlt

/-- Settles O53: a clear by what its record leaves of the recorder, the challenge by its cases, an unlock by what it leaves of the keys, the
level and the recorder. -/
theorem recorderClearAndDebugUnlock : Obligations.recorder_clear_and_debug_unlock := by
  refine ⟨?_, ?_, ?_, ?_, ?_, ?_, ?_, ?_, ?_⟩
  · intro k n x s hx hest hmutual hn
    have hexec := exec_recorderClear hx hest hmutual hn
    by_cases hok : Config.recorderClearOk k = true
    · obtain ⟨m, g, r, hrec, habove, hlt⟩ := recordFull_above (s := modMgmt (Mgmt.clearedTo n) s) (clearedTo_numberedAbove hn) 0x63 0 13 0x0900
        0 none [n, recordsUpTo n s, (Config.requesterKey k 0).toNat, (Config.requesterKey k 1).toNat, x.began]
      rw [if_pos hok, hrec] at hexec
      obtain ⟨g', r', hsaid⟩ := respond_modSec x.mailbox (spdmHead 0x7E 0 0) id { s with mgmt := m, hif := g, regs := r }
      rw [show respond x.mailbox (spdmHead 0x7E 0 0, { modMgmt (Mgmt.clearedTo n) s with mgmt := m, hif := g, regs := r }) = _ from hsaid]
        at hexec
      refine ⟨_, _, hexec, rfl, ?_, rfl, rfl⟩
      rw [if_pos hok]
      exact ⟨habove.records, habove.snaps, hlt⟩
    · rw [if_neg hok] at hexec
      obtain ⟨g', r', hsaid⟩ := respond_modSec x.mailbox (spdmError 1) id s
      rw [show respond x.mailbox (spdmError 1, s) = _ from hsaid] at hexec
      refine ⟨_, _, hexec, rfl, ?_, rfl, rfl⟩
      rw [if_neg hok]
  · exact fun _ _ _ _ => exec_recorderClear_refused
  · exact fun _ => exec_secDbgChallenge
  · exact fun _ _ h => ⟨exec_secDbgChallenge_shut h, exec_secDbgRespond_shut h⟩
  · exact fun _ _ _ h => ⟨exec_secDbgChallenge_other h, exec_secDbgRespond_other h⟩
  · intro o s h hchal
    rcases hchal with hnone | ⟨n, t, hchal, hlate⟩
    · refine (exec_secDbgRespond_none h hnone).trans ?_
      rw [← hnone]
      rfl
    · exact exec_secDbgRespond_late h hchal hlate
  · intro o n t s h hchal htime
    obtain ⟨g, r, hcount⟩ := evCount_only 12 2 1 (modSec Sec.answered s)
    have hexec := exec_secDbgRespond_inTime (o := o) h hchal htime
    rw [hcount] at hexec
    generalize o.take (s.sec.dbgLen.toNat % 65536) = b at hexec ⊢
    unfold judgedUnlock at hexec
    cases hok : objectAccepted s 5 b with
    | false =>
      rw [hok] at hexec
      exact ⟨_, hexec, rfl, rfl, by rw [if_pos rfl]; exact ⟨rfl, rfl⟩⟩
    | true =>
      rw [hok] at hexec
      by_cases hsame : (splitSigned b).1 ≠ chalBytes s n
      · rw [if_neg (by simp), if_pos hsame] at hexec
        exact ⟨_, hexec, rfl, rfl, by rw [if_neg (by simp), if_pos hsame]; exact ⟨rfl, rfl⟩⟩
      · rw [if_neg (by simp), if_neg hsame] at hexec
        obtain ⟨u, v, hunlock, hsec, hboot, hlast⟩ := unlockDebug_only { modSec Sec.answered s with hif := g, regs := r }
        rw [hunlock] at hexec
        refine ⟨u, hexec, by rw [hsec]; rfl, by rw [hsec], ?_⟩
        rw [if_neg (by simp), if_neg hsame, hsec, hboot]
        exact ⟨rfl, rfl, rfl, rfl, rfl, rfl, rfl, rfl, hlast⟩
  · intro n t s hchal
    obtain ⟨u, hu, hended⟩ := answered_advanceTo (t + 600000000000) s
    exact ⟨u, (exec_challengeExpiry hchal).trans (congrArg Host.Outcome.next hu), hended⟩
  · intro s hnone
    refine congrArg Host.Outcome.next ?_
    rw [hnone]

end Sys2Proof.Machine
end

section
/-! PROOFS. MCTP and PLDM requests on the bindings (19 R694 to R697, R699, R700). -/

-- One declaration after the other: the stacks of the threads that elaborate so long a text at once pass the check's limit.
set_option Elab.async false

namespace Sys2Proof.Machine

/-! ### A binding that is up, and one that is not (19 R695, R696) -/

section
variable {b : Nat} {s : State}

theorem pldm_up (h : pldmUp b s = true) (act : State → State) : pldm b act s = act s := if_pos h

theorem pldm_down (h : pldmUp b s = false) (act : State → State) : pldm b act s = s := if_neg (by simp [h])

/-- A request that is answered and changes nothing else. -/
theorem pldm_says {i : Instr} {act : State → State} {code : Nat} {x : Bytes} (h : pldmUp b s = true)
    (hexec : exec i s = .next (pldm b act s)) (hact : act s = pldmSay b code x s) : ∃ u, exec i s = .next u ∧ Answered b code x s u :=
  ⟨_, hexec.trans (congrArg Host.Outcome.next ((pldm_up h act).trans hact)), rfl⟩

end

/-! ### The answers (19 R694 to R697) -/

theorem pldmType_iff (t : Nat) : pldmType t = true ↔ t ∈ [0, 2, 4, 5, 63] := List.contains_iff_mem

theorem pldmOpen_length (k n : Nat) : (pldmOpen k n).length = n := by simp [pldmOpen]

/-- The types that GET_PLDM_TYPES names. -/
theorem pldmTypes_bytes : leBytes 8 ((List.range 64).map fun t => if pldmType t then 2 ^ t else 0).sum = [0x35, 0, 0, 0, 0, 0, 0, 0x80] := by
  decide

/-- There is one record for each sensor and effecter. -/
theorem pdrs_length : sensorIds.length + effecters.length = 73 := rfl

theorem effecters_length : effecters.length = 19 := rfl

/-- The field data begins with the serial number. -/
theorem take_serial (x : Bytes) : ((List.range 16).map Config.serialByte ++ x).take 16 = (List.range 16).map Config.serialByte :=
  List.take_left' (by simp)

/-! ### The power cap (19 R699) -/

/-- What a record leaves of the recorder's state: the next numbers rise, and what is not the recorder's stays. -/
theorem recordEvent_records (sev source code inst : Nat) (pl : List Nat) (s : State) : ∃ m g r,
    recordEvent sev source code inst pl s = { s with mgmt := m, hif := g, regs := r } ∧ s.mgmt.lastSeq < m.lastSeq ∧
      m.unrecorded = s.mgmt.unrecorded :=
  ⟨_, _, _, recordFull_mgmtOnly s 0x61 sev source code inst none pl, recordEvent_lastSeq_lt .., recordEvent_unrecorded ..⟩

/-- The power cap's register with its field written. -/
def capWritten (cur v : Nat) : Nat := cur - bitsOf cur 11 0 * 2 ^ 0 + v * 2 ^ 0

/-- The field of the power cap holds what is written to it. -/
theorem capWritten_field {v : Nat} (h : v < 4096) (cur : Nat) : capWritten cur v % 4096 = v := by
  have hfield : bitsOf cur 11 0 = cur % 4096 := by simp [bitsOf]
  rw [capWritten, hfield]
  omega

theorem pacerSet_powerCap {m : Mgmt} {v : Nat} (hlow : 1000 ≤ v % 4096) (hhigh : v % 4096 ≤ 3400) :
    pacerSet m 0x100C v = some { m with powerCap := v % 4096 } := if_pos (by simp [hlow, hhigh])

theorem pacerSet_powerCap_out {m : Mgmt} {v : Nat} (h : v % 4096 < 1000 ∨ 3400 < v % 4096) : pacerSet m 0x100C v = none :=
  if_neg (by
    simp only [Bool.and_eq_true, decide_eq_true_eq]
    omega)

/-- A write of the power cap's register is recorded. -/
theorem pacerWrite_powerCap {w : Nat} {x : Mgmt} {s : State} (hset : pacerSet s.mgmt 0x100C w = some x) : ∃ m g r,
    pacerWrite 0x100C w s = { s with mgmt := m, hif := g, regs := r } ∧ x.lastSeq < m.lastSeq ∧ m.unrecorded = x.unrecorded := by
  have hwrite : pacerWrite 0x100C w s = recordEvent 0 13 0x0805 0 [0x100C, w] { s with mgmt := x } := by
    rw [pacerWrite, hset]
    exact if_pos rfl
  rw [hwrite]
  exact recordEvent_records 0 13 0x0805 0 [0x100C, w] { s with mgmt := x }

section
variable {b : Nat} {v : BitVec 32} {s : State}

/-- A write of the power cap is judged by its size, then by the bounds of the register. -/
theorem exec_effecterWrite_powerCap (h : pldmUp b s = true) : exec (.effecterWrite b 0 v) s = .next
    (if 2 ^ 12 ≤ v.toNat then pldmSay b invalidData [] s
    else match pacerSet s.mgmt 0x100C (capWritten s.mgmt.powerCap v.toNat) with
      | none => pldmSay b invalidData [] s
      | some _ => pldmSay b 0 [] (modMgmt (fun m => { m with dieSel := s.mgmt.dieSel, admSel := s.mgmt.admSel })
          (pacerWrite 0x100C (capWritten s.mgmt.powerCap v.toNat) s))) :=
  congrArg Host.Outcome.next (pldm_up h _)

theorem exec_effecterWrite_none {k : Nat} (h : pldmUp b s = true) (hk : 19 ≤ k) :
    exec (.effecterWrite b k v) s = .next (pldmSay b 0x80 [] s) := by
  have hnone : effecters[k]? = none := List.getElem?_eq_none (by rw [effecters_length]; exact hk)
  refine congrArg Host.Outcome.next ((pldm_up h _).trans ?_)
  rw [hnone]

end

/-- Settles O54: each request by its answer, the power cap's by what the record of the write leaves. -/
theorem managementRequests : Obligations.management_requests := by
  refine ⟨?_, ?_, ?_, ?_, ?_, ?_, ?_, ?_, ?_, ?_, ?_, ?_, ?_, ?_, ?_, ?_, ?_⟩
  · intro b e s h hlow hhigh
    refine ⟨_, congrArg Host.Outcome.next ((pldm_up h _).trans (if_neg (by omega))), ?_⟩
    by_cases hb : b = 0
    · simp only [hb, if_true]
      rfl
    · simp only [hb, if_false]
      rfl
  · intro b e s h hout
    exact pldm_says h rfl (if_pos hout)
  · intro a s haux ha hnone
    exact congrArg Host.Outcome.next (if_pos ⟨haux, ha, Option.isNone_iff_eq_none.mpr hnone⟩)
  · exact fun _ => rfl
  · intro b s h
    obtain ⟨u, hexec, hsaid⟩ := pldm_says (i := .getTid b) h rfl rfl
    exact ⟨u, pldmOpen 0 1, hexec, pldmOpen_length .., hsaid⟩
  · intro b s h
    exact pldm_says h rfl (by rw [pldmTypes_bytes])
  · intro b t s h ht
    have hknown : pldmType t = true := (pldmType_iff t).mpr ht
    refine ⟨?_, ?_⟩
    · obtain ⟨u, hexec, hsaid⟩ := pldm_says (i := .getPldmCommands b t) h rfl (if_pos hknown)
      exact ⟨u, _, hexec, pldmOpen_length .., hsaid⟩
    · obtain ⟨u, hexec, hsaid⟩ := pldm_says (i := .getPldmVersion b t) h rfl (if_pos hknown)
      exact ⟨u, _, hexec, pldmOpen_length .., hsaid⟩
  · intro b t s h ht
    have hunknown : ¬ pldmType t = true := fun hk => ht ((pldmType_iff t).mp hk)
    exact ⟨pldm_says h rfl (if_neg hunknown), pldm_says h rfl (if_neg hunknown)⟩
  · intro b n v s h hn
    exact ⟨_, congrArg Host.Outcome.next ((pldm_up h _).trans (if_pos (List.contains_iff_mem.mpr hn))), rfl⟩
  · intro b n v s h hn
    exact pldm_says h rfl (if_neg fun hmem => hn (List.contains_iff_mem.mp hmem))
  · intro b k s h
    refine ⟨fun hk => ?_, fun hk => ?_, fun hk => ?_⟩
    · exact pldm_says h rfl ((if_pos (by rw [pdrs_length]; omega)).trans (by rw [pdrs_length, if_pos hk]))
    · exact pldm_says h rfl ((if_pos (by rw [pdrs_length]; omega)).trans (by rw [pdrs_length, if_neg (by omega)]))
    · exact pldm_says h rfl (if_neg (by rw [pdrs_length]; omega))
  · intro b s h
    obtain ⟨u, hexec, hsaid⟩ := pldm_says (i := .fruRead b) h rfl rfl
    exact ⟨u, _, hexec, by rw [List.append_assoc, List.append_assoc, List.append_assoc, take_serial], hsaid⟩
  · intro b e s h he
    exact ⟨_, congrArg Host.Outcome.next ((pldm_up h _).trans (if_neg (Nat.not_lt.mpr he))), rfl⟩
  · intro b v s h hlow hhigh
    have hfield := capWritten_field (v := v.toNat) (by omega) s.mgmt.powerCap
    have hset (m : Mgmt) := pacerSet_powerCap (m := m) (hfield.symm ▸ hlow) (hfield.symm ▸ hhigh)
    rw [hfield] at hset
    have hexec := exec_effecterWrite_powerCap (v := v) h
    generalize capWritten s.mgmt.powerCap v.toNat = w at hset hexec
    obtain ⟨m, g, r, hwrite, hlast, hkept⟩ := pacerWrite_powerCap (hset s.mgmt)
    rw [if_neg (by omega), hset, hwrite] at hexec
    have hcap : m.powerCap = v.toNat := Mgmt.eq_of_unrecorded Mgmt.powerCap (fun _ => rfl) hkept
    have hclock : m.clkBounds = s.mgmt.clkBounds := (Mgmt.eq_of_unrecorded Mgmt.clkBounds (fun _ => rfl) hkept).trans rfl
    have hadm : m.admBounds = s.mgmt.admBounds := (Mgmt.eq_of_unrecorded Mgmt.admBounds (fun _ => rfl) hkept).trans rfl
    have hanswers : m.answers = s.mgmt.answers := (Mgmt.eq_of_unrecorded Mgmt.answers (fun _ => rfl) hkept).trans rfl
    exact ⟨_, hexec, hcap, hclock, hadm, congrArg ((b, 0, []) :: ·) hanswers, hlast, rfl⟩
  · intro b v s h hout
    have hexec := exec_effecterWrite_powerCap (v := v) h
    by_cases hbig : 2 ^ 12 ≤ v.toNat
    · rw [if_pos hbig] at hexec
      exact ⟨_, hexec, rfl⟩
    · have hfield := capWritten_field (v := v.toNat) (by omega) s.mgmt.powerCap
      rw [if_neg hbig, pacerSet_powerCap_out (hfield.symm ▸ hout)] at hexec
      exact ⟨_, hexec, rfl⟩
  · intro b k v s h hk
    exact ⟨_, exec_effecterWrite_none h hk, rfl⟩
  · intro b n k v i s h hi
    have hpldm : ∃ act, exec i s = .next (pldm b act s) := by
      simp only [List.mem_cons, List.not_mem_nil, or_false] at hi
      rcases hi with rfl | rfl | rfl | rfl | rfl | rfl | rfl | rfl | rfl | rfl | rfl | rfl | rfl | rfl <;> exact ⟨_, rfl⟩
    obtain ⟨act, hexec⟩ := hpldm
    rw [hexec, pldm_down h]

end Sys2Proof.Machine
end

section
/-! PROOFS. Firmware updates and the calendar (17 R646; 18 R670 to R673; 19 R701 to R703, R706 to R709). -/

-- One declaration after the other: the stacks of the threads that elaborate so long a text at once pass the check's limit.
set_option Elab.async false

namespace Sys2Proof.Machine

/-! ### A component (19 R701, R702) -/

/-- An update that holds a component anew. -/
def Update.holding (c : Nat) (o : Bytes) (x : Update) : Update := { x with comps := x.comps.filter (fun y => y.1 != c) ++ [(c, o)] }

section
variable {c k : Nat} {o : Bytes} {x : Update} {s : State}

theorem verifyComplete_open (hx : s.mgmt.update = some x) (ok : Bool) :
    verifyComplete ok s = pldmSay x.binding (if ok then 0 else 1) [] s := by
  rw [verifyComplete, hx]

theorem holdComponent_open (hx : s.mgmt.update = some x) :
    holdComponent c o s = { s with mgmt := { s.mgmt with update := some (x.holding c o) } } := by
  unfold holdComponent modMgmt
  dsimp only
  rw [hx]
  rfl

theorem componentKind_firmware (hlow : 1 ≤ c) (hhigh : c ≤ 3) : componentKind c = some (c - 1) := by
  interval_cases c <;> rfl

theorem componentKind_none (h : 4 < c) : componentKind c = none := by
  obtain ⟨d, rfl⟩ := Nat.exists_eq_add_of_lt h
  exact (congrArg componentKind (by omega : 4 + d + 1 = d + 5)).trans rfl

theorem exec_componentTransfer_closed (h : s.mgmt.update = none) : exec (.componentTransfer c o) s = .next s :=
  congrArg Host.Outcome.next (if_pos (.inr (by simp [h])))

theorem exec_componentTransfer_unknown (hrun : s.boot.mgmtRun = true) (hx : s.mgmt.update = some x) (hc : 4 < c) :
    exec (.componentTransfer c o) s = .next (pldmSay x.binding 1 [] s) := by
  refine congrArg Host.Outcome.next ((if_neg (by simp [hrun, hx])).trans ?_)
  rw [componentKind_none hc]
  exact verifyComplete_open hx false

theorem exec_componentTransfer_firmware (hrun : s.boot.mgmtRun = true) (hx : s.mgmt.update = some x) (hlow : 1 ≤ c) (hhigh : c ≤ 3) :
    exec (.componentTransfer c o) s = .next (if objectAccepted s (c - 1) o then verifyComplete true (holdComponent c o (evCount 12 2 1 s))
      else verifyComplete false (evCount 12 2 1 s)) := by
  refine congrArg Host.Outcome.next ((if_neg (by simp [hrun, hx])).trans ?_)
  rw [componentKind_firmware hlow hhigh]
  exact if_neg (by omega)

/-- The configuration record of an object that is accepted and newer than the stored one (18 R673). -/
def newConfig (o : Bytes) (s : State) : Option ConfigRec :=
  (parseConfig o).filter fun r => objectAccepted s 4 o && decide (s.sec.storedSeq < r.seq)

theorem exec_componentTransfer_config (hrun : s.boot.mgmtRun = true) (hx : s.mgmt.update = some x) :
    exec (.componentTransfer 4 o) s = .next (match newConfig o s with
      | some r => verifyComplete true (holdComponent 4 o (storeConfig r (evCount 12 2 1 s)))
      | none => verifyComplete false (recordEvent 2 12 0x0702 0 [] (evCount 12 2 1 s))) :=
  congrArg Host.Outcome.next (if_neg (by simp [hrun, hx]))

theorem newConfig_some {r : ConfigRec} : newConfig o s = some r ↔
    objectAccepted s 4 o = true ∧ parseConfig o = some r ∧ s.sec.storedSeq < r.seq := by
  rw [newConfig, Option.filter_eq_some_iff, Bool.and_eq_true, decide_eq_true_eq]
  exact and_left_comm

/-- Raising the stored sequence to a higher one. -/
theorem raiseSeqTo_storedSeq {n : Nat} {d : Sec} (h : d.storedSeq < n) : (raiseSeqTo n d).storedSeq = n ∧ (raiseSeqTo n d).config = d.config := by
  rw [raiseSeqTo, if_pos h]
  exact ⟨rfl, rfl⟩

/-- A stored record raises the sequence to its own, and is not yet in effect. -/
theorem storeConfig_only {r : ConfigRec} (h : s.sec.storedSeq < r.seq) : ∃ d, storeConfig r s = { s with sec := d } ∧
    d.storedSeq = r.seq ∧ d.config = s.sec.config := by
  refine ⟨_, rfl, ?_⟩
  dsimp only
  split
  · exact raiseSeqTo_storedSeq h
  · exact raiseSeqTo_storedSeq h

end

/-! ### Activation (19 R701, R703) -/

section
variable {b : Nat} {o : Bytes} {x : Update} {s : State}

/-- What an activation begins from: the session is closed and the request is answered. -/
def updateClosed (b : Nat) (s : State) : State := pldmSay b 0 [] (modMgmt (fun m => { m with update := none }) s)

theorem exec_activateFirmware (h : pldmUp b s = true) (hx : s.mgmt.update = some x) {c : Nat} (hc : x.comps = [(c, o)]) :
    exec (.activateFirmware b) s = .next (recordEvent 0 13 0x0903 0 [c] (activate (c, o) (updateClosed b s))) := by
  refine congrArg Host.Outcome.next ((pldm_up h _).trans ?_)
  rw [hx]
  dsimp only
  rw [hc]
  simp only [List.isEmpty_cons, Bool.not_false, whenS, if_true, foldS_cons, foldS_nil, List.map_cons, List.map_nil]
  rw [updateClosed]

theorem activate_firmware (o : Bytes) (s : State) : ∃ d, activate (1, o) s =
    { s with boot := { s.boot with fwImage := some o, mgmtRun := false }, sec := d, mgmt := { s.mgmt with restart := 2 } } := by
  obtain ⟨d, hwrite⟩ := writeFirmware_only o s
  refine ⟨d, ?_⟩
  unfold activate
  dsimp only
  rw [hwrite]
  rfl

/-- An activation ends with a record, which leaves all but the recorder as the activation left it. -/
theorem activated_records (c : Nat) {s t : State} (hmgmt : t.mgmt.update = none) (hlast : t.mgmt.lastSeq = s.mgmt.lastSeq) :
    ∃ m g r, recordEvent 0 13 0x0903 0 [c] t = { t with mgmt := m, hif := g, regs := r } ∧ m.update = none ∧ m.restart = t.mgmt.restart ∧
      s.mgmt.lastSeq < m.lastSeq := by
  obtain ⟨m, g, r, hrec, hlt, hkept⟩ := recordEvent_records 0 13 0x0903 0 [c] t
  exact ⟨m, g, r, hrec, (Mgmt.eq_of_unrecorded Mgmt.update (fun _ => rfl) hkept).trans hmgmt,
    Mgmt.eq_of_unrecorded Mgmt.restart (fun _ => rfl) hkept, hlast ▸ hlt⟩

end

/-! ### The calendar (19 R706 to R709) -/

/-- The recorder's unit with the calendar set. -/
def Mgmt.calendarSet (v at_ : Nat) (m : Mgmt) : Mgmt := { m with rtcSet := true, rtc := v, rtcAt := at_ }

theorem exec_setCalendar {b v : Nat} {s : State} (h : pldmUp b s = true) (hv : v % 2 ^ 64 ≠ 0) : exec (.setCalendar b v) s =
    .next (recordEvent 0 13 0x0901 0 [calendar s, v % 2 ^ 64, now s] (pldmSay b 0 [] (modMgmt (Mgmt.calendarSet (v % 2 ^ 64) (now s)) s))) :=
  congrArg Host.Outcome.next ((pldm_up h _).trans (if_neg hv))

/-- Settles O55: a component by its object's judgement, an activation by what it stages or restarts, the calendar by its record. -/
theorem firmwareAndCalendar : Obligations.firmware_and_calendar := by
  refine ⟨?_, ?_, ?_, ?_, ?_, ?_, ?_, ?_, ?_, ?_, ?_, ?_, ?_⟩
  · intro b s h hnone
    exact ⟨_, congrArg Host.Outcome.next ((pldm_up h _).trans (if_neg (by simp [hnone]))), rfl⟩
  · intro b x s h hx
    exact pldm_says h rfl (if_pos (by simp [hx]))
  · intro c o x s hrun hx hlow hhigh
    obtain ⟨g, r, hcount⟩ := evCount_only 12 2 1 s
    have hexec := exec_componentTransfer_firmware (o := o) hrun hx hlow hhigh
    have hx' : ({ s with hif := g, regs := r } : State).mgmt.update = some x := hx
    rw [hcount, holdComponent_open hx', verifyComplete_open (x := x.holding c o) rfl, verifyComplete_open hx'] at hexec
    by_cases hok : objectAccepted s (c - 1) o = true
    · rw [if_pos hok] at hexec
      exact ⟨_, hexec, rfl, by rw [if_pos hok]; exact ⟨rfl, rfl⟩⟩
    · rw [if_neg hok] at hexec
      exact ⟨_, hexec, rfl, by rw [if_neg hok]; exact ⟨hx, rfl⟩⟩
  · intro o x s hrun hx
    obtain ⟨g, r, hcount⟩ := evCount_only 12 2 1 s
    have hexec := exec_componentTransfer_config (o := o) hrun hx
    rw [hcount] at hexec
    cases hnew : newConfig o s with
    | some z =>
      obtain ⟨hok, hparse, hseq⟩ := newConfig_some.mp hnew
      obtain ⟨d, hstore, hstored, hconfig⟩ := storeConfig_only (s := { s with hif := g, regs := r }) hseq
      rw [hnew] at hexec
      dsimp only at hexec
      rw [hstore, holdComponent_open (x := x) (by exact hx), verifyComplete_open (x := x.holding 4 o) rfl] at hexec
      have hraised : s.sec.storedSeq < d.storedSeq := hstored ▸ hseq
      refine ⟨_, hexec, rfl, hconfig, hraised.le, ?_⟩
      rw [if_pos ⟨hok, z, hparse, hseq⟩]
      exact hraised
    | none =>
      obtain ⟨m, g', r', hrec, hlast, hkept⟩ := recordEvent_records 2 12 0x0702 0 [] { s with hif := g, regs := r }
      have hopen : m.update = some x := (Mgmt.eq_of_unrecorded Mgmt.update (fun _ => rfl) hkept).trans hx
      rw [hnew] at hexec
      dsimp only at hexec
      rw [hrec, verifyComplete_open (x := x) (by exact hopen)] at hexec
      refine ⟨_, hexec, rfl, rfl, Nat.le_refl _, ?_⟩
      rw [if_neg]
      · exact ⟨rfl, hlast⟩
      · rintro ⟨hok, z, hparse, hseq⟩
        have hsome := newConfig_some.mpr ⟨hok, hparse, hseq⟩
        rw [hnew] at hsome
        cases hsome
  · intro c o x s hrun hx hc
    exact ⟨_, exec_componentTransfer_unknown hrun hx hc, rfl⟩
  · exact fun _ _ _ h => exec_componentTransfer_closed h
  · intro b x o s h hx hc
    have hexec := exec_activateFirmware h hx hc
    obtain ⟨d, hactivate⟩ := activate_firmware o (updateClosed b s)
    obtain ⟨m, g, r, hrec, hclosed, hrestart, hlast⟩ := activated_records (s := s) (t := activate (1, o) (updateClosed b s)) 1
      (by rw [hactivate]; rfl) (by rw [hactivate]; rfl)
    rw [hrec, hactivate] at hexec
    rw [hactivate] at hrestart
    exact ⟨_, hexec, rfl, hclosed, hrestart, hlast⟩
  · intro b x o s h hx hc
    have hexec := exec_activateFirmware h hx hc
    obtain ⟨m, g, r, hrec, hclosed, -, hlast⟩ := activated_records (s := s) (t := activate (2, o) (updateClosed b s)) 2 rfl rfl
    rw [hrec] at hexec
    exact ⟨_, hexec, rfl, rfl, rfl, hclosed, hlast⟩
  · intro b x o s h hx hc
    have hexec := exec_activateFirmware h hx hc
    obtain ⟨m, g, r, hrec, hclosed, -, hlast⟩ := activated_records (s := s) (t := activate (3, o) (updateClosed b s)) 3 rfl rfl
    rw [hrec] at hexec
    exact ⟨_, hexec, rfl, rfl, hclosed, hlast⟩
  · intro b s h hnone
    refine pldm_says h rfl ?_
    dsimp only
    rw [hnone]
  · intro b v s h hv
    have hexec := exec_setCalendar h hv
    generalize v % 2 ^ 64 = w at hexec ⊢
    obtain ⟨m, g, r, hrec, hlast, hkept⟩ := recordEvent_records 0 13 0x0901 0 [calendar s, w, now s]
      (pldmSay b 0 [] (modMgmt (Mgmt.calendarSet w (now s)) s))
    rw [hrec] at hexec
    have hset : m.rtcSet = true := Mgmt.eq_of_unrecorded Mgmt.rtcSet (fun _ => rfl) hkept
    have hrtc : m.rtc = w := Mgmt.eq_of_unrecorded Mgmt.rtc (fun _ => rfl) hkept
    have hat : m.rtcAt = now s := Mgmt.eq_of_unrecorded Mgmt.rtcAt (fun _ => rfl) hkept
    have hanswers : m.answers = (b, 0, []) :: s.mgmt.answers := (Mgmt.eq_of_unrecorded Mgmt.answers (fun _ => rfl) hkept).trans rfl
    exact ⟨_, hexec, hset, hrtc, hat, hanswers, hlast, rfl⟩
  · intro b v s h hv
    exact pldm_says h rfl (if_pos hv)
  · intro b s h
    exact pldm_says h rfl rfl

end Sys2Proof.Machine
end

section
/-! PROOFS. Snapshot sets, their flush, and the recorder's window (19 R719 to R723, R730). -/

-- One declaration after the other: the stacks of the threads that elaborate so long a text at once pass the check's limit.
set_option Elab.async false

namespace Sys2Proof.Machine

/-! ### A set that is taken, and one that does not fit (19 R719 to R721) -/

/-- The words of a set fit its room. -/
theorem fillSet_length_le (l : List Bytes) (room : Nat) : (fillSet room l).1.length ≤ room := by
  induction l generalizing room with
  | nil => exact Nat.zero_le _
  | cons b l ih =>
    unfold fillSet
    split
    next hb =>
      have hrest := ih (room - b.length)
      simp only [List.length_append]
      omega
    next => exact ih room

/-- The recorder with one more set in its buffer. -/
def Mgmt.buffering (x : SnapSet) (m : Mgmt) : Mgmt := { m with snaps := m.snaps ++ [x] }

theorem bufferBytes_buffering (m : Mgmt) {x : SnapSet} (h : x.flushed = false) :
    bufferBytes (m.buffering x) = bufferBytes m + x.size := by
  simp [bufferBytes, Mgmt.buffering, h]

/-- What a set of a list holds: the words of its entries as the counters are captured. -/
def setWords (s : State) (t src : Nat) : Bytes × Nat × Bool :=
  fillSet (65536 - 64) ((listEntries s.mgmt (trigList s.mgmt t)).map (entryBytes_ (snapAll s) src))

/-- A set taken now. -/
def newSet (s : State) (n t src id : Nat) : SnapSet :=
  { id := id, seq := n, trigger := if 256 ≤ t then 0xFF else t, list := trigList s.mgmt t, truncated := (setWords s t src).2.2
    entries := (setWords s t src).2.1, capture := now s, words := (setWords s t src).1 }

/-- A set holds its header, and is no larger than 65,536 bytes (19 R720). -/
theorem newSet_size (s : State) (n t src id : Nat) : 64 ≤ (newSet s n t src id).size ∧ (newSet s n t src id).size ≤ 65536 := by
  have hwords : (newSet s n t src id).words.length ≤ 65536 - 64 := fillSet_length_le ..
  unfold SnapSet.size
  omega

/-- A set is dropped when it does not fit; one that is taken is counted, and flushes the buffer when it is nearly full or when its record
is an error. -/
theorem takeSet_eq (s : State) (n t src id : Nat) : takeSet (n, t, src, id) s =
    if 4194304 < bufferBytes s.mgmt + (newSet s n t src id).size then dropSet n (snapAll s)
    else
      let u := evCount 13 2 1 (modMgmt (Mgmt.buffering (newSet s n t src id)) (snapAll s))
      if 3145728 < bufferBytes u.mgmt ∨ (u.mgmt.records.any fun r => r.seq == n && decide (2 ≤ r.severity)) then flushSnaps u else u := rfl

section
variable {n t src id : Nat} {l : List (Nat × Nat × Nat × Nat)} {s : State}

theorem exec_snapshotSet (h : s.mgmt.snapWait = (n, t, src, id) :: l) :
    exec (.snapshotSet n) s = .next (takeSet (n, t, src, id) (modMgmt (fun m => { m with snapWait := l }) s)) := by
  refine congrArg Host.Outcome.next ?_
  rw [h]
  exact if_pos rfl

/-- A set that fits, of a record that is no error, goes to the buffer. -/
theorem takeSet_buffers (hroom : bufferBytes s.mgmt + 65536 ≤ 3145728) (hmild : ∀ r ∈ s.mgmt.records, r.seq = n → r.severity < 2) :
    ∃ g r, takeSet (n, t, src, id) s =
      { s with mgmt := s.mgmt.buffering (newSet s n t src id), hif := g, regs := r } := by
  have hsize := (newSet_size s n t src id).2
  have hfits : bufferBytes (s.mgmt.buffering (newSet s n t src id)) ≤ 3145728 := by
    rw [bufferBytes_buffering _ rfl]
    omega
  have hmild' : (s.mgmt.records.any fun r => r.seq == n && decide (2 ≤ r.severity)) = false := by
    rw [List.any_eq_false]
    intro r hr
    simpa using hmild r hr
  obtain ⟨g, r, hcount⟩ := evCount_only 13 2 1 (modMgmt (Mgmt.buffering (newSet s n t src id)) (snapAll s))
  refine ⟨g, r, ?_⟩
  rw [takeSet_eq, if_neg (by omega)]
  dsimp only
  rw [hcount]
  refine (if_neg ?_).trans rfl
  rintro (hfull | herror)
  · exact absurd hfull (Nat.not_lt.mpr hfits)
  · exact absurd (hmild'.symm.trans herror) Bool.false_ne_true

/-- A set for which there is no room is dropped. -/
theorem takeSet_drops (hfull : 4194304 < bufferBytes s.mgmt + 64) : takeSet (n, t, src, id) s = dropSet n (snapAll s) := by
  have hsize := (newSet_size s n t src id).1
  rw [takeSet_eq, if_pos (by omega)]

/-- The records of a dropped set say so. -/
theorem dropSet_records {r : Rec} (hr : r ∈ (dropSet n s).mgmt.records) (hseq : r.seq = n) : r.snapDropped = true := by
  obtain ⟨x, -, rfl⟩ := List.mem_map.mp hr
  split at hseq
  next h => rw [if_pos h]; rfl
  next h => exact absurd hseq h

end

/-! ### The flush (19 R721) -/

/-- The sets of a buffer that is flushed. -/
def Mgmt.flushed (m : Mgmt) : Mgmt := { m with snaps := m.snaps.map fun x => { x with flushed := true } }

/-- Flushed, the sets of the buffer count with the area's. -/
theorem areaBytes_flushed (m : Mgmt) : areaBytes m.flushed = areaBytes m + bufferBytes m := by
  have hsizes (l : List SnapSet) : (((l.map fun x => { x with flushed := true }).filter (·.flushed)).map SnapSet.size).sum =
      ((l.filter (·.flushed)).map SnapSet.size).sum + ((l.filter fun x => !x.flushed).map SnapSet.size).sum := by
    induction l with
    | nil => rfl
    | cons x l ih =>
      have hsame : ({ x with flushed := true } : SnapSet).size = x.size := rfl
      cases hx : x.flushed <;> simp only [List.map_cons, List.filter_cons, hx, if_true, Bool.not_false, Bool.not_true,
        Bool.false_eq_true, if_false, List.sum_cons, ih, hsame] <;> omega
  have hrest := hsizes m.snaps
  unfold areaBytes bufferBytes Mgmt.flushed
  dsimp only
  omega

theorem wrapArea_fits {s : State} (h : areaBytes s.mgmt ≤ areaSize) : wrapArea s = s := by
  have hn : areaBytes s.mgmt - areaSize = 0 := Nat.sub_eq_zero_of_le h
  simp only [wrapArea, hn, if_pos]

/-- A flush that the area has room for marks the sets of the buffer, and nothing else. -/
theorem flushSnaps_fits {s : State} (h : areaBytes s.mgmt + bufferBytes s.mgmt ≤ areaSize) : flushSnaps s = modMgmt Mgmt.flushed s := by
  rw [← areaBytes_flushed] at h
  unfold flushSnaps
  exact wrapArea_fits (s := modMgmt Mgmt.flushed s) h

/-! ### Records by hand, and the window (19 R723, R730) -/

theorem recordWith_mgmtOnly (asked : Option Nat) (kind sev source code inst : Nat) (sup : Option Nat) (pl : List Nat) (s : State) :
    MgmtOnly s (recordWith asked kind sev source code inst sup pl s) := .of_parts

/-- The sets that wait to be taken, and the number of the next one. -/
def Mgmt.waiting (m : Mgmt) : List (Nat × Nat × Nat × Nat) × Nat := (m.snapWait, m.nextSnap)

/-- An info record that asks for a list takes the next number, and its set waits when not too many do. -/
theorem recordWith_asked {s : State} (h : s.mgmt.snapWait.length < 9) (list kind source code inst : Nat) (sup : Option Nat) (pl : List Nat) :
    s.mgmt.lastSeq < (recordWith (some list) kind 0 source code inst sup pl s).mgmt.lastSeq ∧
      (recordWith (some list) kind 0 source code inst sup pl s).mgmt.waiting =
        (s.mgmt.snapWait ++ [(s.mgmt.lastSeq + 1, 256 + list, source, s.mgmt.nextSnap)], s.mgmt.nextSnap + 1) := by
  unfold recordWith
  extract_lets m trig full seq r s1 s2 s3
  have hfull : full = false := by simp [full, trig, m, h]
  have h2 : s2 = s1 := if_neg (by decide)
  have h3 : whenS (decide (2 ≤ 0)) flushSnaps s3 = s3 := if_neg (by decide)
  clear_value r
  have hmgmt : s3.mgmt = (wrapArea s2).mgmt := evCount_mgmt ..
  have hlast : s1.mgmt.lastSeq = s.mgmt.lastSeq + 1 := rfl
  have hwaits : s1.mgmt.waiting = (s.mgmt.snapWait ++ [(s.mgmt.lastSeq + 1, 256 + list, source, s.mgmt.nextSnap)], s.mgmt.nextSnap + 1) := by
    simp [s1, Mgmt.waiting, trig, hfull, seq, m]
  rw [h3, hmgmt, h2]
  exact ⟨Nat.lt_of_lt_of_le (hlast ▸ Nat.lt_succ_self _) (wrapArea_lastSeq_le s1),
    (wrapArea_mgmt_keeps Mgmt.waiting (fun _ _ _ _ _ => rfl) s1).trans hwaits⟩

/-- The state after such a record. -/
theorem recordWith_asked_only {s : State} (h : s.mgmt.snapWait.length < 9) (list kind source code inst : Nat) (sup : Option Nat)
    (pl : List Nat) : ∃ u, recordWith (some list) kind 0 source code inst sup pl s = u ∧ s.mgmt.lastSeq < u.mgmt.lastSeq ∧
      u.mgmt.snapWait = s.mgmt.snapWait ++ [(s.mgmt.lastSeq + 1, 256 + list, source, s.mgmt.nextSnap)] ∧
      u.mgmt.nextSnap = s.mgmt.nextSnap + 1 ∧ MgmtOnly s u := by
  obtain ⟨hlast, hwaits⟩ := recordWith_asked h list kind source code inst sup pl
  have honly := recordWith_mgmtOnly (some list) kind 0 source code inst sup pl s
  obtain ⟨u, hu⟩ : ∃ u, recordWith (some list) kind 0 source code inst sup pl s = u := ⟨_, rfl⟩
  rw [hu] at hlast hwaits honly
  exact ⟨u, hu, hlast, congrArg Prod.fst hwaits, congrArg Prod.snd hwaits, honly⟩

theorem exec_evrManual {s u : State} (h : manualRecord s = u) : exec (.evrManual 1) s = .next u :=
  congrArg Host.Outcome.next ((if_pos rfl).trans h)

section
variable {r : Rec} {v : Nat} {s : State}

theorem latchRecord_found (h : (s.mgmt.records.find? fun x => x.marked && decide (v ≤ x.seq)) = some r) :
    latchRecord v s = { s with mgmt := { s.mgmt with cursor := r.seq, win := padTo r.bytes 512, winKind := 1 } } := by
  rw [latchRecord, h]
  rfl

theorem latchRecord_past (h : ∀ r ∈ s.mgmt.records, r.marked = true → r.seq < v) :
    latchRecord v s = { s with mgmt := { s.mgmt with cursor := s.mgmt.lastSeq + 1, win := [], winKind := 0 } } := by
  have hnone : (s.mgmt.records.find? fun x => x.marked && decide (v ≤ x.seq)) = none := by
    rw [List.find?_eq_none]
    intro x hx
    simpa using h x hx
  rw [latchRecord, hnone]
  rfl

theorem latchChunk_found {n : Nat} {x : SnapSet} (hn : n = bitsOf v 38 32)
    (h : (s.mgmt.snaps.find? fun y => y.id == v % 2 ^ 32 && decide (512 * n < y.size)) = some x) : latchChunk v s =
      { s with mgmt := { s.mgmt with
        snapSel := BitVec.ofNat 64 (v % 2 ^ 39), win := padTo (x.bytes.drop (512 * n)) 512, winKind := 2 } } := by
  subst hn
  unfold latchChunk
  dsimp only
  rw [h]
  rfl

theorem latchRecord_mod {u : State} {w : Nat} (hw : v < w) (h : latchRecord v s = u) : latchRecord (v % w) s = u := by
  rw [Nat.mod_eq_of_lt hw, h]

end

/-- Settles O56: a waiting set by its room, the flush by the wrap of the area, the window by the record or set found. -/
theorem recorderAndSnapshots : Obligations.recorder_and_snapshots := by
  refine ⟨?_, ?_, ?_, ?_, ?_, ?_, ?_, ?_, ?_, ?_⟩
  · intro n t src id l s hwait hroom hmild
    obtain ⟨g, r, htake⟩ := takeSet_buffers (t := t) (src := src) (id := id) (s := modMgmt (fun m => { m with snapWait := l }) s) hroom hmild
    have hexec := exec_snapshotSet hwait
    rw [htake] at hexec
    exact ⟨_, _, hexec, rfl, rfl, rfl, rfl, rfl, rfl, (newSet_size ..).2, rfl⟩
  · intro n t src id l s hwait hfull
    have hdrop := takeSet_drops (n := n) (t := t) (src := src) (id := id) (s := modMgmt (fun m => { m with snapWait := l }) s) hfull
    have hexec := exec_snapshotSet hwait
    rw [hdrop] at hexec
    exact ⟨_, hexec, rfl, rfl, rfl, fun r hr hseq => dropSet_records hr hseq, rfl⟩
  · intro n s hnone
    refine congrArg Host.Outcome.next ?_
    rw [hnone]
  · intro s
    obtain ⟨m, hflush, hflushed, -⟩ := flushSnaps_only s
    refine ⟨flushSnaps s, rfl, by rw [hflush]; exact hflushed, fun hfits => ?_, by rw [hflush]⟩
    rw [flushSnaps_fits hfits]
    rfl
  · intro s h
    obtain ⟨u, hrec, hlast, hwaits, hnext, honly⟩ := recordWith_asked_only h s.mgmt.manualList 0x61 13 0x0900 0 none []
    exact ⟨u, exec_evrManual (by rw [manualRecord, hrec]), hlast, hwaits, hnext, honly⟩
  · intro r s hfound
    exact congrArg Host.Outcome.next ((if_pos rfl).trans (latchRecord_found hfound))
  · intro v r s hv hfound
    exact congrArg Host.Outcome.next ((if_pos rfl).trans (latchRecord_mod hv (latchRecord_found hfound)))
  · intro v s hv hpast
    exact congrArg Host.Outcome.next ((if_pos rfl).trans (latchRecord_mod hv (latchRecord_past hpast)))
  · intro v n x s hn hfound
    exact congrArg Host.Outcome.next ((if_pos rfl).trans (latchChunk_found hn hfound))
  · intro fn v i s hfn hi
    have hmgmt : ¬ isMgmtPf fn = true := by simpa [isMgmtPf] using hfn
    simp only [List.mem_cons, List.not_mem_nil, or_false] at hi
    rcases hi with rfl | rfl | rfl | rfl
    · exact congrArg Host.Outcome.next (if_neg hmgmt)
    · exact congrArg Host.Outcome.next (if_neg hmgmt)
    · exact congrArg Host.Outcome.next (if_neg hmgmt)
    · exact congrArg Host.Outcome.next (if_neg hmgmt)

end Sys2Proof.Machine
end

section
/-! PROOFS. The identity of a page, pages not mapped for a function, and who writes the fabric page (20 R731 to R738). -/

-- One declaration after the other: the stacks of the threads that elaborate so long a text at once pass the check's limit.
set_option Elab.async false

namespace Sys2Proof.Machine

/-! ### What a page's view holds (20 R732, R738) -/

section
variable {fn p : Nat} {s : State}

/-- A page that is mapped is in use: it is a block's or a cluster's. -/
theorem blockType_of_mapped (h : pageMapped fn p = true) :
    blockType p = some (if p < 14 then p else 0x40) ∧ (p < 14 ∨ 64 ≤ p ∧ p < 384) := by
  have hsome : (blockType p).isSome = true := (Bool.and_eq_true_iff.mp h).1
  by_cases hlow : p < 14
  · exact ⟨by rw [blockType, if_pos hlow, if_pos hlow], .inl hlow⟩
  · by_cases hcluster : 64 ≤ p ∧ p < 384
    · exact ⟨by rw [blockType, if_neg hlow, if_pos hcluster, if_neg hlow], .inr hcluster⟩
    · rw [blockType, if_neg hlow, if_neg hcluster] at hsome
      exact absurd hsome Bool.false_ne_true

/-- The first register of a mapped page is PG_ID. -/
theorem pageSpans_mapped (h : pageMapped fn p = true) (hlevel : s.boot.level ≠ 3) :
    ∃ l, pageSpans s fn p = r32 0 (p + 65536 * (blockType p).getD 0) :: l := by
  unfold pageSpans
  rw [if_neg hlevel, if_neg (by simp [h])]
  split
  · exact ⟨_, rfl⟩
  · exact ⟨_, rfl⟩

/-- A page that is not mapped holds no register. -/
theorem pageSpans_unmapped (h : pageMapped fn p = false) (hlevel : s.boot.level ≠ 3) : pageSpans s fn p = [] := by
  rw [pageSpans, if_neg hlevel, if_pos (by simp [h])]

/-- The first word of a page whose first register is a 32-bit one. -/
theorem wordAt_zero_r32 (v : Nat) (l : List RegSpan) : wordAt (r32 0 v :: l) 0 = v % 2 ^ 32 % 2 ^ 32 := rfl

end

/-! ### Writes that are not taken (20 R732) -/

section
variable {fn p o n : Nat} {own : Bool} {s : State}

theorem exec_registerWrite_word (h : goodAccess o n = true) (hn : n ≠ 8) (v : BitVec 64) :
    exec (.registerWrite fn p o n v) s = .next (writeWord true fn fn p o (v.setWidth 32) s) :=
  congrArg Host.Outcome.next ((if_neg (by simp [h])).trans (if_neg hn))

theorem exec_registerWrite_pair (h : goodAccess o 8 = true) (v : BitVec 64) :
    exec (.registerWrite fn p o 8 v) s = .next (writePair true fn fn p o v s) :=
  congrArg Host.Outcome.next ((if_neg (by simp [h])).trans (if_pos rfl))

/-- A 4-byte write of a page without 64-bit registers that a function may write is the write of a 32-bit register. -/
theorem writeWord_narrow (h : ∀ o, wide s fn p o = false) (v : BitVec 32) :
    writeWord own fn fn p o v s = write32 own fn p o v.toNat s := by
  rw [writeWord, if_neg (by simp [h]), if_neg (by simp [h])]

theorem wide_unmapped (h : pageMapped fn p = false) (hlevel : s.boot.level ≠ 3) (o : Nat) : wide s fn p o = false := by
  simp [wide, inRecovery, hlevel, h]

theorem write32_unmapped (h : pageMapped fn p = false) (hlevel : s.boot.level ≠ 3) (v : Nat) : write32 own fn p o v s = s := by
  rw [write32, if_neg (by simp [inRecovery, hlevel]), if_pos (by simp [h])]

theorem writeWord_unmapped (h : pageMapped fn p = false) (hlevel : s.boot.level ≠ 3) (v : BitVec 32) : writeWord own fn fn p o v s = s :=
  (writeWord_narrow (wide_unmapped h hlevel) v).trans (write32_unmapped h hlevel _)

/-- The service function writes no register of the fabric page. -/
theorem wide_fabric (hlevel : s.boot.level ≠ 3) (o : Nat) : wide s 0 10 o = false := by
  simp [wide, inRecovery, hlevel, mayWrite]

theorem write32_fabric (hlevel : s.boot.level ≠ 3) (v : Nat) : write32 own 0 10 o v s = s := by
  rw [write32, if_neg (by simp [inRecovery, hlevel]), if_neg (by decide)]
  split
  · exact if_neg (by decide)
  · exact if_pos (by decide)

theorem writeWord_fabric (hlevel : s.boot.level ≠ 3) (v : BitVec 32) : writeWord own 0 0 10 o v s = s :=
  (writeWord_narrow (wide_fabric hlevel) v).trans (write32_fabric hlevel _)

end

/-- Settles O60: reads by the spans of the page, writes by the registers the function may write. -/
theorem pageIdentityAndMapping : Obligations.page_identity_and_mapping := by
  refine ⟨?_, ?_, ?_, ?_⟩
  · intro fn p s hmapped hlevel
    obtain ⟨l, hspans⟩ := pageSpans_mapped (s := s) hmapped hlevel
    obtain ⟨htype, hrange⟩ := blockType_of_mapped hmapped
    rw [read4, hspans, wordAt_zero_r32, htype, Option.getD_some]
    split <;> omega
  · intro fn p o s hmapped hlevel
    have hword (a : Nat) : read4 s fn p a = 0 := by
      rw [read4, pageSpans_unmapped hmapped hlevel]
      rfl
    exact ⟨hword o, by simp [read8, hword]⟩
  · intro fn p o n v s hmapped hlevel hgood
    by_cases hn : n = 8
    · subst hn
      rw [exec_registerWrite_pair hgood, writePair, pageSpans_unmapped hmapped hlevel, if_neg (by simp [is64]),
        writeWord_unmapped hmapped hlevel, writeWord_unmapped hmapped hlevel]
    · rw [exec_registerWrite_word hgood hn, writeWord_unmapped hmapped hlevel]
  · intro o n v s hlevel hgood
    by_cases hn : n = 8
    · subst hn
      rw [exec_registerWrite_pair hgood]
      refine ⟨_, rfl, ?_⟩
      unfold writePair
      split
      · dsimp only
        rw [if_neg]
        · rfl
        · exact fun hwide => absurd (hwide.symm.trans (wide_fabric hlevel o)) Bool.noConfusion
      · rw [writeWord_fabric hlevel, writeWord_fabric hlevel]
    · rw [exec_registerWrite_word hgood hn, writeWord_fabric hlevel]
      exact ⟨s, rfl, rfl⟩

end Sys2Proof.Machine
end
